-- ==== Sys2Proof/Word.lean ====
section
/-!
DEFINITION. Bytes: the unit of every buffer, record, frame and store of the module.
-/
namespace Sys2Proof

/-- A byte of a buffer, a record or a frame. -/
abbrev Byte := BitVec 8

end Sys2Proof
end

