-- ==== Sys2Proof/Syntax.lean ====
section
/-!
DEFINITION. The commands of the block: one constructor for each row of the table of operations and events
(spec/opcode_table.json), with what the row carries. A command of a CMD ring carries its ring and its descriptor; a
frame or a record carries its fields; an event carries what the module measures or is given from outside.
-/
namespace Sys2Proof

/-- A descriptor of a host-filled ring (R95): its index in the ring and its fields. `buf` holds the bytes of its buffer
as read, or none when the access to the buffer fails (Unsupported Request, Completer Abort, timeout or poison, R607). -/
structure Desc where
  idx : Nat
  tag : Nat
  flags : Nat
  rsv : Nat
  addr : Nat
  len : Nat
  p0 : Nat
  p1 : Nat
  p2 : Nat
  buf : Option (List Byte)
deriving DecidableEq, Repr

/-- A schedule entry as a SCHED record carries it (R134): host time in ns, duration in us. -/
structure SchedRec where
  t : Nat
  dur : Nat
  kind : Nat
  kclass : Nat
  level : Nat
  arg : Nat
deriving DecidableEq, Repr

/-- A trigger definition (R521) with its selectors (R522), 8 bytes each. -/
structure Trigger where
  kind : Nat := 0
  en : Bool := false
  a : Nat := 0
  b : Nat := 0
  delay : Nat := 0
  holdoff : Nat := 0
  sels : List (List Byte) := []
deriving DecidableEq, Repr

/-- What a staged change does at its imposition (R110, R320), for the changes that a period boundary, a press-cycle
boundary or a SNAP imposes. -/
inductive StagedAct
  /-- ERA_CLASS: the class set for a detector (R471). -/
  | detClass (det cls : Nat)
  /-- PHASE_ROLE: role 0 ACTIVE or 1 SPARE of a phase (R359). -/
  | phaseRole (q role : Nat)
  /-- FENNAL_KEY: a key into a slot; none deletes it (R378, R385). -/
  | fennalKey (slot : Nat) (key : Option (List Byte))
  /-- FENNAL_KEYTX: the transmit slot (R385). -/
  | fennalTx (slot : Nat)
  /-- TRIG_WRITE: a trigger definition (R521). -/
  | trigger (index : Nat) (t : Trigger)
  /-- FORME_ENABLE (R234). -/
  | formeEnable (slot : Nat) (en : Bool)
  /-- FORME_UNLOAD (R233). -/
  | formeUnload (slot : Nat)
  /-- EST_TABLE: table kind, record position, bytes (R451). -/
  | estTable (kind pos : Nat) (data : List Byte)
  /-- TRAIN_SETUP: the bytes of a training plan (R273). -/
  | trainSetup (plan : List Byte)
  /-- A register write that the holder accepted, for the standby (R501): field key and value. -/
  | regWrite (key value : Nat)
  /-- The change is imposed by a command of its own (HIER_CHANGE_START, FORME_IMPOSE, PROMOTION_IMPOSE, a change list). -/
  | own
deriving DecidableEq, Repr

/-- A staged change: its number, the block that owns it, what its log entries name, where it comes from and the period
number from which a boundary may impose it. -/
structure Staged where
  no : Nat
  block : Nat
  opcode : Nat
  target : Nat
  old : Nat
  new : Nat
  ring : Nat
  due : Nat
  act : StagedAct
  /-- OLD and NEW are digests (R530). -/
  digest : Bool := false
deriving DecidableEq, Repr

/-- The commands, one for each row of the table. -/
inductive Instr
  /-- POWER_ON (R46, 02_connectors_electrical): The 54 V input rises above 48.0 V with PRESENT closed, and rails and islands are brought up in order. -/
  | powerOn
  /-- PRESENT_CLOSE (R28, 02_connectors_electrical): PRESENT closes to 54 V return, the module treats itself as inserted and may enable its inrush limiter. -/
  | presentClose
  /-- PRESENT_OPEN (R28, 02_connectors_electrical): PRESENT opens on a running module, which declares loss of input power. -/
  | presentOpen
  /-- INPUT_LOW (R32, 02_connectors_electrical): The input stays below 48.0 V for 1 ms, the input-low detector is raised and training is deferred. -/
  | inputLow (low : Bool) (vin iin pin : Nat)
  /-- INPUT_LOSS (R32, 02_connectors_electrical): The input stays below 44.0 V for 20 µs and loss of input power is declared. -/
  | inputLoss (vin vrsv : Nat)
  /-- LOSS_SEQUENCE (R49, 02_connectors_electrical): Loss of input power runs its sequence: power-loss halt, outputs safe, takeover request or leaving notice, power-down of islands and final commit. -/
  | lossSequence
  /-- INPUT_RETURN (R50, 02_connectors_electrical): Input returns during the loss sequence, which completes and then restarts from power-on with one power-cycle increment. -/
  | inputReturn
  /-- RESERVOIR_EXHAUSTED (R51, 02_connectors_electrical): The reservoir falls to 20.0 V before the final commit completes, so the commit in progress is lost and no clean-shutdown mark is written. -/
  | reservoirExhausted
  /-- RAILS_OFF (R49, 02_connectors_electrical): All rails switch off at the end of the loss sequence. -/
  | railsOff
  /-- INPUT_POWER_LIMIT (R26, 01_module_overview): The module's input reaches 820 W or falls below 800 W and training sorts are deferred or resumed. -/
  | inputPowerLimit (reached : Bool) (vin iin pin : Nat)
  /-- INPUT_CURRENT_LIMIT (R31, 02_connectors_electrical): The input current crosses 15.4 A, 15.0 A or 16.0 A, deferring training or capping the Press at the i4 rate. -/
  | inputCurrentLimit (level vin iin pin : Nat)
  /-- RESERVOIR_CHARGED (R48, 02_connectors_electrical): The reservoir reaches 40.0 V and RES is set. -/
  | reservoirCharged (vrsv : Nat)
  /-- ERRATA_LEAVES_RESET (R39, 02_connectors_electrical): Errata leaves reset, the straps are sampled and stage ROM begins. -/
  | errataLeavesReset (seat pos idpar : Nat)
  /-- STRAP_CHANGE (R40, 02_connectors_electrical): The straps change after sampling, a note is raised and the sampled values are kept. -/
  | strapChange (seat pos idpar : Nat)
  /-- JUNCTION_TEMP (R54, 02_connectors_electrical): A die junction crosses 90, 95, 105 or 115 °C, deferring training or raising the over-temperature detector. -/
  | junctionTemp (die : Nat) (t : Int)
  /-- COOLING_SAMPLE (R43, 02_connectors_electrical): Every millisecond the cooling inputs are read and open or shorted sensors raise their detectors. -/
  | coolingSample (tach0 tach1 flow tin tout : Nat)
  /-- COOLING_FAILURE (R396, 14_rack_contract): A pump or the flow stays below its threshold for 1 s or recovers after 10 s, and the derate target changes. -/
  | coolingFailure (item : Nat) (failed : Bool)
  /-- DERATE_STEP (R396, 14_rack_contract): Every 1 ms of a derate plan the factor F moves towards its target and the limits are rescaled. -/
  | derateStep
  /-- METER_FRAME (R42, 02_connectors_electrical): A meter frame arrives and is time-stamped, checked by CRC and sequence, and taken or discarded. -/
  | meterFrame (frame : List Byte)
  /-- METER_TIMEOUT (R42, 02_connectors_electrical): Three frame times pass without a frame taken, the grid measurement is marked invalid and the meter detector is raised. -/
  | meterTimeout
  /-- TAP_IDCODE (R44, 02_connectors_electrical): The IDCODE instruction on the locked test port returns 0x2964_0A5F. -/
  | tapIdcode
  /-- TAP_BYPASS (R44, 02_connectors_electrical): BYPASS, or any other instruction while the test port is locked, acts as BYPASS. -/
  | tapBypass (tdi : Bool)
  /-- PERST_ASSERT (R55, 03_startup): PERST# is asserted and the host island is reset, keeping the seat token. -/
  | perstAssert
  /-- PERST_DEASSERT (R47, 02_connectors_electrical): PERST# is deasserted and PCIe link training starts once the PCIe rails are up. -/
  | perstDeassert
  /-- FUNCTION_LEVEL_RESET (R55, 03_startup): A function-level reset resets the host island with the PCIe link kept up. -/
  | functionLevelReset
  /-- PCIE_LINK_UP (R82, 04_host_rings): The PCIe link completes training, and a link below 32 GT/s ×16 sets DEGR and raises the host-link detector. -/
  | pcieLinkUp (rate width : Nat)
  /-- CONFIG_REQUEST (R63, 03_startup): A configuration request is completed with Retry Status until the device settles, and served normally afterwards. -/
  | configRequest (off : Nat) (write : Option Nat)
  /-- CLOCK_CHECK_WINDOW (R22, 01_module_overview): At the end of each 1 ms window Errata compares each island clock with its oscillator and raises clock detectors. -/
  | clockCheckWindow (ppm : List Int) (stopped : List Nat)
  /-- CROSSING_MISS (R24, 01_module_overview): A crossing transfer misses its window maximum, is discarded, counted, and raised at note, degrade or halt class by run length. -/
  | crossingMiss (c : Nat) (first : Bool)
  /-- UART_RX_HIGH (R605, 03_startup): UART_RX is seen high, the UART condition settles and stage CHASE follows within 10 ms. -/
  | uartRxHigh
  /-- UART_SETTLE_TIMEOUT (R64, 03_startup): UART_RX stays low until 500 ms after stage ERRATA and the device enters Flyleaf. -/
  | uartSettleTimeout
  /-- ENTER_ERRATA_STAGE (R60, 03_startup): Errata firmware runs, strap parity is judged and ALIVE starts toggling. -/
  | enterErrataStage
  /-- ENTER_SETTINGS_STAGE (R554, 20_update): The stores are read, the journal is judged, and the power-cycle and boot-failure counts are updated. -/
  | enterSettingsStage (pages : List (Nat × Nat × Bool))
  /-- ENTER_MGMT_STAGE (R60, 03_startup): Management core 0 runs verified firmware and the stack resets are released. -/
  | enterMgmtStage
  /-- ENTER_CHASE_STAGE (R605, 03_startup): Chase microcode is loaded, shelf time starts, stage links train and rings are enumerated. -/
  | enterChaseStage
  /-- ENTER_HOST_STAGE (R68, 03_startup): The host island accepts set-up and rings of classes CMD, CPL, EVT and RAW are served. -/
  | enterHostStage
  /-- ENTER_WAIT (R75, 03_startup): All drive conditions hold and the device enters stage WAIT. -/
  | enterWait (ms : Nat)
  /-- ENTER_FLYLEAF (R66, 03_startup): A Flyleaf condition holds and the device enters the ROM recovery mode. -/
  | enterFlyleaf (cond : Nat)
  /-- TAKE_ROLE (R76, 03_startup): In WAIT, with start permission, the device takes the active or standby role by the peer-state table. -/
  | takeRole
  /-- WAIT_PEER_TIMEOUT (R76, 03_startup): The 10 s wait for a peer ends and the seat becomes active if the peer does not hold the token. -/
  | waitPeerTimeout
  /-- MAKE_READY_STEP_DONE (R70, 03_startup): A make-ready step ends in a textblock, with spares or losses applied, and PRESS is set after step 8. -/
  | makeReadyStepDone (t step : Nat) (fails : List (Nat × Nat)) (rows banks : Nat) (good : Bool) (us : Nat)
  /-- MODEL_SET_FROM_PEER (R71, 03_startup): The peer's formes and model state arrive over Roscor and replace a model set whose digest differs. -/
  | modelSetFromPeer (formes : List (Nat × List Byte)) (model : List (Nat × List Byte))
  /-- ENUM_RETRY (R73, 03_startup): A failed ring enumeration is repeated every 5 s. -/
  | enumRetry (ring : Nat)
  /-- MODULE_RESET_PROCEED (R57, 03_startup): The peer takes the token, or 10 ms pass, and a module reset is carried out or refused SEAT_HELD. -/
  | moduleResetProceed
  /-- MGMT_WATCHDOG (R59, 03_startup): The management watchdog expires and resets the management cluster, escalating on repeats. -/
  | mgmtWatchdog
  /-- MGMT_RESTART_DONE (R59, 03_startup): Management firmware completes its restart and Chase discards held staged changes with failure 0x13. -/
  | mgmtRestartDone
  /-- LOCKSTEP_RESET (R55, 03_startup): 100 ms after a lockstep miscompare halt the module resets as a module reset. -/
  | lockstepReset
  /-- NOP (R109, 04_host_rings): The NOP command completes OK. -/
  | nop (r : Nat) (d : Desc)
  /-- FENCE (R109, 04_host_rings): FENCE completes once every earlier descriptor of the named ring has completed. -/
  | fence (r : Nat) (d : Desc)
  /-- HEALTH (R109, 04_host_rings): HEALTH writes the health report to the buffer. -/
  | health (r : Nat) (d : Desc)
  /-- SEAT_ENABLE (R109, 04_host_rings): SEAT_ENABLE gives start permission under R76. -/
  | seatEnable (r : Nat) (d : Desc)
  /-- RING_QUERY (R109, 04_host_rings): RING_QUERY writes a 64-byte image of a ring context. -/
  | ringQuery (r : Nat) (d : Desc)
  /-- PTM_RESYNC (R109, 04_host_rings): PTM_RESYNC runs one PTM dialogue and returns the new offset. -/
  | ptmResync (r : Nat) (d : Desc) (good : Bool) (ofs : Int)
  /-- MODULE_RESET (R57, 03_startup): MODULE_RESET requests reset 0x04, handing over the token first unless forced. -/
  | moduleReset (r : Nat) (d : Desc)
  /-- RING_ENABLE (R89, 04_host_rings): ENABLE written to HST_RCMD checks the ring context and enables the ring or records a refusal code. -/
  | ringEnable (r : Nat) (mismatch : Bool)
  /-- RING_DISABLE (R90, 04_host_rings): DISABLE written to HST_RCMD stops descriptor fetch and aborts fetched descriptors not begun. -/
  | ringDisable (r : Nat)
  /-- DOORBELL_TAIL (R100, 04_host_rings): A doorbell write to a host-filled ring sets its new tail, or puts the ring in error. -/
  | doorbellTail (r v : Nat) (wellSized : Bool)
  /-- DOORBELL_HEAD (R101, 04_host_rings): A doorbell write to a device-filled ring sets the host's head and frees entries. -/
  | doorbellHead (r v : Nat) (wellSized : Bool)
  /-- DESCRIPTOR_FETCH (R100, 04_host_rings): After a doorbell the device fetches up to 16 descriptors and acts on them in order. -/
  | descriptorFetch (r : Nat) (ds : List (Nat × Desc))
  /-- DMA_ERROR (R112, 04_host_rings): A descriptor fetch or entry write fails, the ring enters error and RING_ERROR is posted. -/
  | dmaError (r kind addr : Nat)
  /-- DMA_ENABLE_CHANGE (R84, 04_host_rings): Bus Master Enable or DMA_EN changes and ring service stops or resumes. -/
  | dmaEnableChange (bme en : Bool)
  /-- MSIX_MODERATION_TIMER (R86, 04_host_rings): MTIME µs pass after the first unsignalled entry and the ring's MSI-X message is sent. -/
  | msixModerationTimer (r : Nat)
  /-- BATCH_IDLE_TIMEOUT (R106, 04_host_rings): A ring stays empty for 100 µs with a batch open and the batch is completed. -/
  | batchIdleTimeout (r : Nat)
  /-- PTM_DIALOGUE (R87, 04_host_rings): Every PERIOD ms a PTM dialogue runs and updates the host time offset. -/
  | ptmDialogue (good : Bool) (ofs : Int)
  /-- PTM_TIMEOUT (R87, 04_host_rings): No PTM dialogue succeeds for 100 ms, VALID clears and the PTM detector is raised. -/
  | ptmTimeout
  /-- PACE_UNREAD_TIMEOUT (R104, 04_host_rings): A notice stays unread in a PACE ring for 2 ms and is recorded as undeliverable. -/
  | paceUnreadTimeout (r num : Nat)
  /-- SHADOW_HOLD_TIMEOUT (R117, 04_host_rings): HOLD_US passes without the standby's confirmation, the completion is written and the standby records a shadow gap. -/
  | shadowHoldTimeout (r : Nat)
  /-- REGISTER_WRITE (R603, 00_scope): A write to a register field with no row of its own takes effect at once or at its chapter's point and is logged. -/
  | registerWrite (off size v : Nat)
  /-- REGISTER_READ_CLEAR (R8, 00_scope): A read of an RC register returns its value and clears it. -/
  | registerReadClear (off size : Nat)
  /-- LO_READ_CAPTURE (R11, 00_scope): A read of a LO register captures the HI half for the next HI read of the same requester. -/
  | loReadCapture (req off : Nat)
  /-- TRACE_BUF (R122, 05_ingest_records): TRACE_BUF takes in the trace records of a buffer from a TRACE ring. -/
  | traceBuf (r : Nat) (d : Desc)
  /-- SCORE_BUF (R122, 05_ingest_records): SCORE_BUF takes in the score records of a buffer from a SCORE ring. -/
  | scoreBuf (r : Nat) (d : Desc)
  /-- TRACE_RECORD (R127, 05_ingest_records): A trace record is checked by sequence and placed sample by sample on the shelf 1 µs grid. -/
  | traceRecord (r stream seq t0 : Nat) (samples : List Nat)
  /-- KEEP_ALIVE (R129, 05_ingest_records): A trace record of 0 samples sets the stream time to its T0. -/
  | keepAlive (r stream seq t0 : Nat)
  /-- BIND (R132, 05_ingest_records): A BIND record binds consecutive streams to dies and assigns them to a textblock. -/
  | bind (r stream span dieid tray slot dclass rate : Nat)
  /-- LEAVE (R133, 05_ingest_records): A LEAVE record schedules its streams to leave the model at a host time. -/
  | leave (r stream span t reason : Nat)
  /-- LEAVE_TIME_REACHED (R133, 05_ingest_records): Shelf time reaches a LEAVE record's converted time and its streams are unbound. -/
  | leaveTimeReached (stream : Nat)
  /-- SCHED (R136, 05_ingest_records): A SCHED record enters schedule entries for its streams under the rules of overlap and capacity. -/
  | sched (r stream span : Nat) (entries : List SchedRec)
  /-- CANCEL (R135, 05_ingest_records): A CANCEL record withdraws schedule entries starting at or after its time. -/
  | cancel (r stream span t : Nat)
  /-- STREAM_LAG_CHANGE (R137, 05_ingest_records): A stream's lag crosses the STALE or 2 ms threshold and its state changes. -/
  | streamLagChange (stream : Nat)
  /-- STREAM_SILENCE_TIMEOUT (R137, 05_ingest_records): A stream stays SILENT for 2 ms without being held and is unbound, with STREAM_LEFT posted. -/
  | streamSilenceTimeout (stream : Nat)
  /-- UNANCHOR_TIMEOUT (R131, 05_ingest_records): PTM stays invalid for 1 s and records are placed by commit time, with UNANCH set. -/
  | unanchorTimeout
  /-- HISTORY_SAMPLE (R144, 05_ingest_records): Every 25 µs one history sample per stream is written from the window. -/
  | historySample (t : Nat)
  /-- CHASE_PERIOD_BOUNDARY (R296, 11_chase): At each period boundary staged changes are imposed, galley references taken, SYNC sent and HB_OUT toggled. -/
  | chasePeriodBoundary (hbEdge hbBack : Bool)
  /-- SAMPLE_CUT (R301, 11_chase): At cycle 200 missing samples are fixed and the law runs on the lanes in service. -/
  | sampleCut (cyc : Nat) (lanes : List Nat)
  /-- OUTPUT_LATCH (R296, 11_chase): At the output phase duties are latched and DUTY frames sent. -/
  | outputLatch
  /-- GALLEY_CLOSE (R245, 09_proofs): 19.0 µs after a press-cycle start the galley closes the entry as PROOF or VOID and abandons unfinished PROOF runs. -/
  | galleyClose
  /-- PLAN_STALE (R262, 09_proofs): Shelf time reaches the plan's life and its quantities roll back. -/
  | planStale
  /-- PRESS_QUERY (R177, 06_press_hierarchy): PRESS_QUERY writes a 64-byte image of the Press registers. -/
  | pressQuery (r : Nat) (d : Desc)
  /-- MEM_READ (R177, 06_press_hierarchy): MEM_READ copies visible DRAM of a textblock to the host buffer. -/
  | memRead (r : Nat) (d : Desc)
  /-- SCRUB_NOW (R177, 06_press_hierarchy): SCRUB_NOW starts a fast scrub pass on a textblock. -/
  | scrubNow (r : Nat) (d : Desc)
  /-- HIER_SET (R166, 06_press_hierarchy): HIER_SET stages a change of the configured hierarchy. -/
  | hierSet (r : Nat) (d : Desc)
  /-- HIER_CHANGE_START (R167, 06_press_hierarchy): At the first press-cycle boundary 1 ms after staging the hierarchy change is imposed and the Press quiesces. -/
  | hierChangeStart
  /-- HIER_CHANGE_STEP_DONE (R167, 06_press_hierarchy): A bring-up step of a growing change completes, leading to stream reassignment and the first cycle in the new hierarchy. -/
  | hierChangeStepDone
  /-- HIER_ROLLBACK (R169, 06_press_hierarchy): A step fails, a unit is lost or 250 ms pass, and the hierarchy change is rolled back. -/
  | hierRollback (reason : Nat)
  /-- LEAF_RESIDUE_MISMATCH (R153, 06_press_hierarchy): A leaf accumulation fails its residue check and the leaf detector is raised. -/
  | leafResidueMismatch (unit : Nat)
  /-- WEIGHT_CRC_SWEEP (R153, 06_press_hierarchy): The background sweep checks weight CRCs and reloads a mismatching leaf. -/
  | weightCrcSweep (unit : Nat) (bad : Bool)
  /-- SPINE_ERROR (R154, 06_press_hierarchy): An uncorrectable spine transfer is discarded and the spine detector raised, escalating at three per cycle. -/
  | spineError (port : Nat) (corrected : Bool)
  /-- BARRIER_RELEASE (R158, 06_press_hierarchy): The last participant reaches a barrier and it is released to all. -/
  | barrierRelease (t level : Nat)
  /-- BARRIER_TIMEOUT (R159, 06_press_hierarchy): A barrier is not released within its limit and the pass is aborted. -/
  | barrierTimeout (t level unit : Nat)
  /-- DRAM_CORRECTABLE (R172, 06_press_hierarchy): A read finds one or two bit errors, corrects them and may spare the row. -/
  | dramCorrectable (t bank row offset nbits : Nat) (spans : Bool)
  /-- DRAM_UNCORRECTABLE (R173, 06_press_hierarchy): A read finds an uncorrectable error, poisons the word and acts by region. -/
  | dramUncorrectable (t bank row offset : Nat) (scrub : Bool)
  /-- BANK_SPARE_DONE (R172, 06_press_hierarchy): The background copy of a spared bank completes. -/
  | bankSpareDone (t bank : Nat)
  /-- PATROL_SCRUB (R174, 06_press_hierarchy): Patrol scrub reads words of each stack at the lowest priority and handles errors found. -/
  | patrolScrub (t percent : Nat) (badRow badBank : Bool) (bank : Nat)
  /-- FORME_OPEN (R233, 08_forme_sorts): FORME_OPEN opens a slot for loading a forme. -/
  | formeOpen (r : Nat) (d : Desc)
  /-- FORME_WRITE (R233, 08_forme_sorts): FORME_WRITE writes container bytes into a loading slot. -/
  | formeWrite (r : Nat) (d : Desc)
  /-- FORME_COMMIT (R234, 08_forme_sorts): FORME_COMMIT checks the container and stages it or refuses it with a reason. -/
  | formeCommit (r : Nat) (d : Desc)
  /-- FORME_ABORT (R233, 08_forme_sorts): FORME_ABORT discards an open load. -/
  | formeAbort (r : Nat) (d : Desc)
  /-- FORME_UNLOAD (R233, 08_forme_sorts): FORME_UNLOAD stages the emptying of a slot. -/
  | formeUnload (r : Nat) (d : Desc)
  /-- FORME_ENABLE (R234, 08_forme_sorts): FORME_ENABLE stages enabling or disabling a slot under the budget checks. -/
  | formeEnable (r : Nat) (d : Desc)
  /-- FORME_QUERY (R241, 08_forme_sorts): FORME_QUERY writes a 64-byte image of a slot. -/
  | formeQuery (r : Nat) (d : Desc)
  /-- FORME_RUN (R233, 08_forme_sorts): FORME_RUN runs an AUX forme once and completes with its cycle count. -/
  | formeRun (r : Nat) (d : Desc)
  /-- FORME_DIGEST (R238, 08_forme_sorts): FORME_DIGEST writes the model-set digest. -/
  | formeDigest (r : Nat) (d : Desc)
  /-- FORME_LOAD_TIMEOUT (R233, 08_forme_sorts): A load with no write or commit for 10 s is discarded. -/
  | formeLoadTimeout (slot : Nat)
  /-- FORME_IMPOSE (R235, 08_forme_sorts): Once data is copied and weights loaded, a committed forme is imposed at a press-cycle boundary or rolled back. -/
  | formeImpose (slot : Nat) (copied : Bool)
  /-- VARIANT_LOAD_DONE (R237, 08_forme_sorts): After a change of service the selected variant's weights are loaded and it runs from the next press-cycle boundary. -/
  | variantLoadDone (slot : Nat)
  /-- RUN_END (R231, 08_forme_sorts): A forme run reaches END in every textblock and its results stand. -/
  | runEnd (slot : Nat)
  /-- PLAN_RUN_OVERDUE (R232, 08_forme_sorts): A PLAN run has not ended when its next run is due and is abandoned. -/
  | planRunOverdue
  /-- SORT_NOP (R226, 08_forme_sorts): The NOP sort does nothing. -/
  | sortNop (t cyc : Nat)
  /-- END (R226, 08_forme_sorts): The END sort ends the run. -/
  | endSort (t cyc : Nat)
  /-- BAR (R226, 08_forme_sorts): The BAR sort waits at a barrier of its scope. -/
  | bar (t cyc : Nat)
  /-- LOOP (R225, 08_forme_sorts): LOOP repeats the following sorts N2 times. -/
  | loop (t cyc : Nat)
  /-- LOAD (R222, 08_forme_sorts): LOAD copies rows from DRAM to an on-chip tensor. -/
  | load (t cyc : Nat)
  /-- STORE (R222, 08_forme_sorts): STORE copies rows from an on-chip tensor to DRAM. -/
  | store (t cyc : Nat)
  /-- COPY (R222, 08_forme_sorts): COPY copies between on-chip tensors, across textblocks at SCOPE 4. -/
  | copy (t cyc : Nat)
  /-- INPUT (R223, 08_forme_sorts): INPUT writes the press-cycle inputs fixed by the cut into a tensor. -/
  | input (t cyc : Nat)
  /-- EMIT (R224, 08_forme_sorts): EMIT writes FIXED32 values to a galley target. -/
  | emit (t cyc : Nat)
  /-- MMUL (R212, 08_forme_sorts): MMUL computes a matrix product through the leaf, folio and quire levels. -/
  | mmul (t cyc : Nat)
  /-- ADD (R216, 08_forme_sorts): ADD adds wide values element by element. -/
  | add (t cyc : Nat)
  /-- SUB (R216, 08_forme_sorts): SUB subtracts wide values element by element. -/
  | sub (t cyc : Nat)
  /-- MUL (R216, 08_forme_sorts): MUL multiplies wide values element by element. -/
  | mul (t cyc : Nat)
  /-- MAX (R216, 08_forme_sorts): MAX takes the element-wise maximum. -/
  | max (t cyc : Nat)
  /-- MIN (R216, 08_forme_sorts): MIN takes the element-wise minimum. -/
  | min (t cyc : Nat)
  /-- SHIFT (R216, 08_forme_sorts): SHIFT shifts wide values by a constant. -/
  | shift (t cyc : Nat)
  /-- CLAMP (R216, 08_forme_sorts): CLAMP bounds each element between low and high. -/
  | clamp (t cyc : Nat)
  /-- RESCALE (R216, 08_forme_sorts): RESCALE applies channel-scale records to FIXED48 values. -/
  | rescale (t cyc : Nat)
  /-- CONVERT (R216, 08_forme_sorts): CONVERT writes values through an output conversion. -/
  | convert (t cyc : Nat)
  /-- RSUM (R217, 08_forme_sorts): RSUM adds along an axis or across instances by the fixed tree. -/
  | rsum (t cyc : Nat)
  /-- RMAX (R217, 08_forme_sorts): RMAX takes the maximum along an axis or across instances. -/
  | rmax (t cyc : Nat)
  /-- LUT (R218, 08_forme_sorts): LUT interpolates a lookup table at each element. -/
  | lut (t cyc : Nat)
  /-- SCAN (R219, 08_forme_sorts): SCAN runs a diagonal linear recurrence over time rows. -/
  | scan (t cyc : Nat)
  /-- ATTN (R220, 08_forme_sorts): ATTN attends query rows over score tokens. -/
  | attn (t cyc : Nat)
  /-- GOUTER (R215, 08_forme_sorts): GOUTER accumulates a gradient outer product. -/
  | gouter (t cyc : Nat)
  /-- GAPPLY (R221, 08_forme_sorts): GAPPLY applies a gradient to block-format weights. -/
  | gapply (t cyc : Nat)
  /-- GALLEY_QUERY (R269, 09_proofs): GALLEY_QUERY writes a 128-byte image of the galley. -/
  | galleyQuery (r : Nat) (d : Desc)
  /-- TRAIN_SETUP (R273, 10_training): TRAIN_SETUP checks and stages a training plan. -/
  | trainSetup (r : Nat) (d : Desc)
  /-- TRAIN_RUN (R291, 10_training): TRAIN_RUN starts or holds training. -/
  | trainRun (r : Nat) (d : Desc)
  /-- TRAIN_PROMOTE (R291, 10_training): TRAIN_PROMOTE begins promotion of the open offer. -/
  | trainPromote (r : Nat) (d : Desc)
  /-- TRAIN_REJECT (R291, 10_training): TRAIN_REJECT closes the open offer. -/
  | trainReject (r : Nat) (d : Desc)
  /-- TRAIN_REVERT (R288, 10_training): TRAIN_REVERT stages a revert to the held prior. -/
  | trainRevert (r : Nat) (d : Desc)
  /-- TRAIN_QUERY (R291, 10_training): TRAIN_QUERY writes the trainer registers. -/
  | trainQuery (r : Nat) (d : Desc)
  /-- CAPTURE (R274, 10_training): At the first boundary after T_k + 2,100 µs a capture record of cycle k is written to the training half. -/
  | capture
  /-- TRAIN_STEP_END (R278, 10_training): A step ends in every textblock, the work area is copied over the candidate and the step number rises. -/
  | trainStepEnd
  /-- SHADOW_SCORE (R282, 10_training): A shadowed cycle is scored against the measured windows and the candidate judged when enough cycles match. -/
  | shadowScore
  /-- TRAIN_SHARE_WINDOW (R280, 10_training): A new 1 ms window starts and paused TRAIN runs resume. -/
  | trainShareWindow
  /-- OFFER_EXPIRY (R285, 10_training): An offer open for OFFER minutes closes and steps resume. -/
  | offerExpiry
  /-- PROMOTION_IMPOSE (R286, 10_training): After the copies and reload, the promotion is imposed, the generation rises and probation starts. -/
  | promotionImpose
  /-- PROBATION_CHECK (R288, 10_training): Each second of probation the withdrawal fraction is counted and may trigger an automatic revert. -/
  | probationCheck
  /-- CANDIDATE_CHECKPOINT (R290, 10_training): Every CKPT seconds the candidate area and step number are sent to the standby. -/
  | candidateCheckpoint
  /-- CHASE_QUERY (R329, 11_chase): CHASE_QUERY writes a 64-byte image of Chase registers. -/
  | chaseQuery (r : Nat) (d : Desc)
  /-- CHANGE_SUBMIT (R322, 11_chase): CHANGE_SUBMIT checks a change list and stages it or refuses it. -/
  | changeSubmit (r : Nat) (d : Desc)
  /-- BANK_WRITE (R307, 11_chase): BANK_WRITE writes inactive coefficient banks. -/
  | bankWrite (r : Nat) (d : Desc)
  /-- BANK_READ (R329, 11_chase): BANK_READ writes coefficient bank records to the buffer. -/
  | bankRead (r : Nat) (d : Desc)
  /-- PERIOD_SET (R327, 11_chase): PERIOD_SET builds and submits the change list for a new period. -/
  | periodSet (r : Nat) (d : Desc)
  /-- LAW_SET (R329, 11_chase): LAW_SET builds a one-step list selecting the full or plain law. -/
  | lawSet (r : Nat) (d : Desc)
  /-- CHANGE_ABORT (R329, 11_chase): CHANGE_ABORT discards or rolls back a change list. -/
  | changeAbort (r : Nat) (d : Desc)
  /-- CHS_REGISTER_WRITE (R326, 11_chase): A write to a RW field of a CHS register is staged as a one-step change list. -/
  | chsRegisterWrite (off v : Nat)
  /-- FESUM_CLEAR (R313, 11_chase): A W1C clear of a CHS_FESUM bit is accepted or refused while the cause is present. -/
  | fesumClear (w v : Nat)
  /-- SAMPLE (R339, 12_phases_stage_links): A SAMPLE frame from a board delivers currents, voltages and status for the period. -/
  | sample (link : Nat) (frame : List Byte)
  /-- LINK_RETRAIN_ATTEMPT (R344, 12_phases_stage_links): Every 1 ms a down link is retrained. -/
  | linkRetrainAttempt (link : Nat)
  /-- LINK_MAP_WRITE (R606, 12_phases_stage_links): A write to STL_LMAP adds or removes links from the settings map at the next boundary. -/
  | linkMapWrite (hi : Bool) (v : Nat)
  /-- PHASE_WAKE_TIMEOUT (R351, 12_phases_stage_links): A phase still WAKING 40 µs after WARM is treated as failed with cause 6. -/
  | phaseWakeTimeout (q : Nat)
  /-- WARM_HOLD_EXPIRY (R351, 12_phases_stage_links): A phase WARM for WARMHOLD ms goes COLD. -/
  | warmHoldExpiry (q : Nat)
  /-- EST_TIMEOUT (R357, 12_phases_stage_links): A phase in EST reaches ESTMAX and goes FAILED with cause 3. -/
  | estTimeout (q : Nat)
  /-- SPARE_STEP_DONE (R358, 12_phases_stage_links): A spare phase completes a wake, calibration or test step and moves toward full service. -/
  | spareStepDone (q : Nat)
  /-- PHASE_QUERY (R359, 12_phases_stage_links): PHASE_QUERY writes the status of a range of phases. -/
  | phaseQuery (r : Nat) (d : Desc)
  /-- PHASE_CLEAR (R359, 12_phases_stage_links): PHASE_CLEAR sends CLRTRIP and returns a phase or held group as SPARE. -/
  | phaseClear (r : Nat) (d : Desc)
  /-- PHASE_ROLE (R359, 12_phases_stage_links): PHASE_ROLE stages a phase's role as ACTIVE or SPARE. -/
  | phaseRole (r : Nat) (d : Desc)
  /-- LINK_RETRAIN (R359, 12_phases_stage_links): LINK_RETRAIN takes a link down if needed and retrains it. -/
  | linkRetrain (r : Nat) (d : Desc)
  /-- BEACON_INSTANT (R380, 13_fennal_carrier): At each 10 ms beacon instant the leader sends a BEACON with contract and mask. -/
  | beaconInstant
  /-- BEACON (R382, 13_fennal_carrier): An authenticated BEACON updates group time, joining, mask and the contract in force. -/
  | beacon (src rx : Nat) (p : List Byte)
  /-- BEACON_LOSS (R383, 13_fennal_carrier): No leader beacon for 5 instants sets BLOST, and after 100 JOINED clears. -/
  | beaconLoss
  /-- LEADER_START (R397, 14_rack_contract): An eligible station hears no beacon for 5 + rank instants and begins to send beacons. -/
  | leaderStart
  /-- CARRIER_SENSE_CHANGE (R372, 13_fennal_carrier): The medium turns busy or idle by preamble or energy detection. -/
  | carrierSenseChange (level : Option Int)
  /-- BACKOFF_EXPIRY (R374, 13_fennal_carrier): The back-off count reaches 0 and the station begins its frame. -/
  | backoffExpiry
  /-- ACK_TIMEOUT (R374, 13_fennal_carrier): No ACK arrives within 144 µs, the frame is resent or dropped. -/
  | ackTimeout
  /-- ACK (R371, 13_fennal_carrier): An ACK frame marks a sent frame delivered. -/
  | ack (src seq : Nat)
  /-- FENNAL_FRAME (R370, 13_fennal_carrier): A received Fennal frame is checked in order and delivered or ignored, counting strangers and replays. -/
  | fennalFrame (rx : Nat) (good : Bool) (syms : List (List Int))
  /-- TONE_REPORT (R366, 13_fennal_carrier): A TONE_REPORT is taken into the leader's candidate mask. -/
  | toneReport (src : Nat) (p : List Byte)
  /-- TONE_REPORT_DUE (R366, 13_fennal_carrier): Once per second a joined station sends its TONE_REPORT. -/
  | toneReportDue (snr : List Int)
  /-- FENNAL_QUERY (R385, 13_fennal_carrier): FENNAL_QUERY writes the carrier registers. -/
  | fennalQuery (r : Nat) (d : Desc)
  /-- FENNAL_KEY (R385, 13_fennal_carrier): FENNAL_KEY stages a key into a slot. -/
  | fennalKey (r : Nat) (d : Desc)
  /-- FENNAL_KEYTX (R385, 13_fennal_carrier): FENNAL_KEYTX stages the transmit key slot. -/
  | fennalKeytx (r : Nat) (d : Desc)
  /-- FENNAL_KEYDEL (R385, 13_fennal_carrier): FENNAL_KEYDEL stages deletion of a key slot. -/
  | fennalKeydel (r : Nat) (d : Desc)
  /-- REPORT (R402, 14_rack_contract): A party's REPORT frame is taken into the leader's classing and shares. -/
  | report (src : Nat) (p : List Byte)
  /-- REPORT_DUE (R400, 14_rack_contract): After the beacon matching its position a party sends its REPORT. -/
  | reportDue
  /-- FENNAL_LEAVE (R401, 14_rack_contract): A LEAVE frame tells the leader a position leaves the contract. -/
  | fennalLeave (src : Nat) (p : List Byte)
  /-- CONTRACT_EFFECTIVE (R403, 14_rack_contract): At the first press-cycle boundary after EFF the contract and share take effect. -/
  | contractEffective
  /-- CONTRACT_LAPSE (R403, 14_rack_contract): A contract not renewed within LIFE lapses and the station runs standalone. -/
  | contractLapse
  /-- PACE (R411, 14_rack_contract): An authenticated PACE frame posts PACE_NOTICE on every PACE ring. -/
  | pace (src : Nat) (p : List Byte)
  /-- PACE_DUE (R410, 14_rack_contract): Every 100 ms while a rack action holds the leader sends a PACE frame, and a release after 1 s of none. -/
  | paceDue
  /-- PACE_ACK_TIMEOUT (R411, 14_rack_contract): No PACE_ACK names a notice within 100 ms and it is recorded undeliverable. -/
  | paceAckTimeout (num : Nat)
  /-- PACE_ACK (R413, 14_rack_contract): PACE_ACK acknowledges a pace notice. -/
  | paceAck (r : Nat) (d : Desc)
  /-- GROUP_QUERY (R413, 14_rack_contract): GROUP_QUERY writes the group and contract state. -/
  | groupQuery (r : Nat) (d : Desc)
  /-- BREACH_END (R395, 14_rack_contract): 1 ms passes without a breach period, ENVELOPE_BREACH is posted and the breach recorded. -/
  | breachEnd
  /-- SNAP_DUE (R429, 15_storage_rings): A SNAP falls due and the master chooses the sample instant and sends SNAP. -/
  | snapDue (ring : Nat)
  /-- SNAP (R431, 15_storage_rings): A SNAP frame returns with MINMAX records for limit checks. -/
  | snap (ring port : Nat) (frame : List Byte)
  /-- COLLECT (R433, 15_storage_rings): A COLLECT frame returns node records, which are checked and passed to the estimator. -/
  | collect (ring port : Nat) (frame : List Byte)
  /-- ENUM (R425, 15_storage_rings): An ENUM reply or emerging ENUM frame advances ring enumeration. -/
  | enum (ring port : Nat) (frame : List Byte) (delay : Nat)
  /-- ENUM_TIMEOUT (R425, 15_storage_rings): No reply or frame within 300 µs moves enumeration to the return side. -/
  | enumTimeout (ring : Nat)
  /-- ECHO (R426, 15_storage_rings): An ECHO reply locates the break of a ring. -/
  | echo (ring port : Nat) (frame : List Byte)
  /-- BUPILIN_CFG (R423, 15_storage_rings): A CFG frame returns with its acknowledgement record and unconfirmed nodes are resent. -/
  | bupilinCfg (ring port : Nat) (frame : List Byte)
  /-- RING_BREAK (R426, 15_storage_rings): BUP_RET carries nothing for 200 µs and the master moves the ring to split service. -/
  | ringBreak (ring : Nat)
  /-- RING_PROBE (R426, 15_storage_rings): Every 10 s a PROBE frame tests whether a split ring has closed. -/
  | ringProbe (ring : Nat) (emerged : Bool)
  /-- WAKE_TONE (R440, 15_storage_rings): The wake tone is heard on a ring and the master re-enumerates it. -/
  | wakeTone (ring : Nat)
  /-- OW_TEST_DUE (R436, 15_storage_rings): Every OWPER s or after a suspicion an OW SNAP is announced. -/
  | owTestDue (ring : Nat)
  /-- BALANCE_ALT (R435, 15_storage_rings): Every ALT s the balancing group alternates. -/
  | balanceAlt (ring : Nat)
  /-- FAST_HOLD_EXPIRY (R431, 15_storage_rings): FHOLD passes after the last FAST cause and the ring returns to NORMAL. -/
  | fastHoldExpiry (ring : Nat)
  /-- BUP_RING_QUERY (R441, 15_storage_rings): RING_QUERY of the ring block writes a ring's status. -/
  | bupRingQuery (r : Nat) (d : Desc)
  /-- CELL_READ (R441, 15_storage_rings): CELL_READ writes the 384 cell words of a ring. -/
  | cellRead (r : Nat) (d : Desc)
  /-- RING_ENUM (R441, 15_storage_rings): RING_ENUM runs enumeration of a ring. -/
  | ringEnum (r : Nat) (d : Desc)
  /-- OW_TEST (R441, 15_storage_rings): OW_TEST announces an OW SNAP. -/
  | owTest (r : Nat) (d : Desc)
  /-- BUP_FAST (R441, 15_storage_rings): BUP_FAST forces or ends FAST rate on a ring. -/
  | bupFast (r : Nat) (d : Desc)
  /-- REST_DUE (R462, 16_cell_estimation): A rest falls due or is requested and begins when its conditions hold, or is deferred. -/
  | restDue
  /-- REST_END (R461, 16_cell_estimation): The rest clock runs out and the reference SNAP resets SoC and the charge count. -/
  | restEnd (st : Nat)
  /-- DRIFT_ALARM (R463, 16_cell_estimation): Voltage and counted SoC differ beyond DTHR for DTIME and an early rest is requested. -/
  | driftAlarm (st : Nat)
  /-- SOC_SLEW_TICK (R456, 16_cell_estimation): Every 1 ms the reported SoC moves toward the estimate by SLEW. -/
  | socSlewTick
  /-- CELL_STALE (R448, 16_cell_estimation): A cell without usable reading for STALE sets STALE and halves the string limits. -/
  | cellStale (st cell : Nat)
  /-- EST_QUERY (R465, 16_cell_estimation): EST_QUERY writes the estimator registers of a string. -/
  | estQuery (r : Nat) (d : Desc)
  /-- EST_TABLE (R465, 16_cell_estimation): EST_TABLE stages a SoC or impedance table. -/
  | estTable (r : Nat) (d : Desc)
  /-- EST_TABLE_READ (R465, 16_cell_estimation): EST_TABLE_READ writes a table to the buffer. -/
  | estTableRead (r : Nat) (d : Desc)
  /-- REST_NOW (R465, 16_cell_estimation): REST_NOW requests an early rest. -/
  | restNow (r : Nat) (d : Desc)
  /-- EST_RECORDS (R465, 16_cell_estimation): EST_RECORDS writes the string record heads. -/
  | estRecords (r : Nat) (d : Desc)
  /-- DETECTOR_EVENT (R471, 17_errata): A detector event reaches Errata and acts at its class in force. -/
  | detectorEvent (n esc param : Nat) (present : Bool)
  /-- KEEP_TIMEOUT (R477, 17_errata): The keep word is not written for 1 ms and detector 0.7 halts the module. -/
  | keepTimeout
  /-- ALIVE_TOGGLE (R477, 17_errata): Every 500 µs ALIVE is inverted while healthy and its readback checked. -/
  | aliveToggle (readback : Bool)
  /-- ERA_DSTAT_CLEAR (R478, 17_errata): A W1C write to ERA_DSTAT clears status bits, refusing those whose level cause is present. -/
  | eraDstatClear (w v : Nat)
  /-- UNLOCK_EXPIRY (R482, 17_errata): ULIFE minutes pass and the unlock ends, withdrawing every injection. -/
  | unlockExpiry
  /-- INJECTION_HOLD_EXPIRY (R483, 17_errata): A HOLD injection reaches PARAM1 ms and is withdrawn. -/
  | injectionHoldExpiry (n : Nat)
  /-- ERA_QUERY (R485, 17_errata): ERA_QUERY writes Errata status. -/
  | eraQuery (r : Nat) (d : Desc)
  /-- ERA_DETAIL (R485, 17_errata): ERA_DETAIL writes a detector's detail. -/
  | eraDetail (r : Nat) (d : Desc)
  /-- ERA_CLEAR (R478, 17_errata): ERA_CLEAR clears detector status bits. -/
  | eraClear (r : Nat) (d : Desc)
  /-- ERA_CLASS (R485, 17_errata): ERA_CLASS stages a raised class for a detector. -/
  | eraClass (r : Nat) (d : Desc)
  /-- ERA_UNLOCK (R482, 17_errata): ERA_UNLOCK presents an injection key for a level. -/
  | eraUnlock (r : Nat) (d : Desc)
  /-- ERA_INJECT (R483, 17_errata): ERA_INJECT starts an injection on a detector. -/
  | eraInject (r : Nat) (d : Desc)
  /-- ERA_WITHDRAW (R485, 17_errata): ERA_WITHDRAW ends injections. -/
  | eraWithdraw (r : Nat) (d : Desc)
  /-- ERA_LOCK (R485, 17_errata): ERA_LOCK ends the unlock and withdraws every injection. -/
  | eraLock (r : Nat) (d : Desc)
  /-- HB (R496, 18_seats_roscor): A Roscor HB frame updates peer status and seat lock. -/
  | hb (good : Bool) (flags seq pnum : Nat) (p : List Byte) (rx : Nat)
  /-- STATE (R493, 18_seats_roscor): A STATE frame gives the standby the holder's Chase state of a period. -/
  | state (good : Bool) (flags seq pnum : Nat) (p : List Byte) (cyc : Nat)
  /-- TAKEOVER (R503, 18_seats_roscor): A TAKEOVER frame requests takeover or announces a planned handover. -/
  | takeover (good : Bool) (flags seq pnum : Nat) (p : List Byte)
  /-- LEAVING (R491, 18_seats_roscor): A LEAVING frame marks the standby as not ready. -/
  | leaving (good : Bool) (flags seq pnum : Nat) (p : List Byte)
  /-- PCYC (R495, 18_seats_roscor): A PCYC frame carries shadow heads, cut indices and the proof digest for comparison. -/
  | pcyc (good : Bool) (flags seq pnum : Nat) (p : List Byte)
  /-- RACK (R117, 04_host_rings): A RACK frame confirms descriptors read by the standby and releases held completions. -/
  | rack (good : Bool) (flags seq pnum : Nat) (p : List Byte)
  /-- ROSCOR_CFG (R501, 18_seats_roscor): CFG segments deliver configuration changes to the standby for imposition. -/
  | roscorCfg (good : Bool) (flags seq pnum : Nat) (p : List Byte) (c : Staged) (data : List Byte)
  /-- BULK (R491, 18_seats_roscor): BULK segments deliver model sets, checkpoints or images. -/
  | bulk (good : Bool) (flags seq pnum : Nat) (p : List Byte)
  /-- SEAT_TOKEN_TAKE (R504, 18_seats_roscor): After four periods silent on both paths or a kind-1 request the standby takes the seat token. -/
  | seatTokenTake
  /-- SHADOW_LAW (R498, 18_seats_roscor): With the copy and samples present the standby runs the shadow law and compares the duty digest. -/
  | shadowLaw (loopBad : List Nat)
  /-- PLANNED_HANDOVER (R509, 18_seats_roscor): At boundary H the token moves from the holder to the standby without a gap. -/
  | plannedHandover
  /-- ROSCOR_LINK_DOWN (R489, 18_seats_roscor): Lost block lock or 8 bad frames take the Roscor link down. -/
  | roscorLinkDown
  /-- ROSCOR_TRAINED (R489, 18_seats_roscor): Roscor training ends and the first peer heartbeat sets ROSCOR. -/
  | roscorTrained (lat : Nat)
  /-- LANE_SELFTEST (R508, 18_seats_roscor): Once per second a self-testing standby runs the lane known-answer set. -/
  | laneSelftest (bad : List Nat)
  /-- PROVING_END (R511, 18_seats_roscor): A proving run reaches D seconds and the token is returned. -/
  | provingEnd
  /-- SEAT_QUERY (R512, 18_seats_roscor): SEAT_QUERY writes the Roscor registers. -/
  | seatQuery (r : Nat) (d : Desc)
  /-- SEAT_SWITCH (R512, 18_seats_roscor): SEAT_SWITCH stages a planned handover of kind 3. -/
  | seatSwitch (r : Nat) (d : Desc)
  /-- PROVING_RUN (R511, 18_seats_roscor): PROVING_RUN stages a proving run. -/
  | provingRun (r : Nat) (d : Desc)
  /-- PROVING_STOP (R512, 18_seats_roscor): PROVING_STOP returns the token at once. -/
  | provingStop (r : Nat) (d : Desc)
  /-- SEAT_HEALTH (R512, 18_seats_roscor): SEAT_HEALTH writes the seat health report. -/
  | seatHealth (r : Nat) (d : Desc)
  /-- PAGE_COMMIT (R518, 19_colophon): The commit period passes or open pages fill and the Colophon commits every open page. -/
  | pageCommit (failed : Nat)
  /-- FINAL_COMMIT_DONE (R533, 19_colophon): The final commit completes and slug 0x0004 and the clean-shutdown mark are written. -/
  | finalCommitDone (us : Nat)
  /-- TRIGGER_FIRE (R524, 19_colophon): A snapshot trigger fires at its occurrence under holdoff and rate rules. -/
  | triggerFire (trig cause : Nat) (inj : Bool)
  /-- SNAPSHOT_CAPTURE (R524, 19_colophon): DELAY after firing the snapshot words are captured and the record written. -/
  | snapshotCapture (trig : Nat) (late : List Nat)
  /-- COL_QUERY (R537, 19_colophon): COL_QUERY writes the Colophon status. -/
  | colQuery (r : Nat) (d : Desc)
  /-- TRIG_WRITE (R537, 19_colophon): TRIG_WRITE stages a trigger definition. -/
  | trigWrite (r : Nat) (d : Desc)
  /-- TRIG_READ (R537, 19_colophon): TRIG_READ writes a trigger definition. -/
  | trigRead (r : Nat) (d : Desc)
  /-- SNAP_NOW (R537, 19_colophon): SNAP_NOW captures a snapshot at once. -/
  | snapNow (r : Nat) (d : Desc)
  /-- COL_READ (R537, 19_colophon): COL_READ writes records of a log store from a sequence. -/
  | colRead (r : Nat) (d : Desc)
  /-- COL_COMMIT (R537, 19_colophon): COL_COMMIT commits every open page. -/
  | colCommit (r : Nat) (d : Desc)
  /-- UPD_QUERY (R560, 20_update): UPD_QUERY writes update status. -/
  | updQuery (r : Nat) (d : Desc)
  /-- IMG_OPEN (R545, 20_update): IMG_OPEN checks an image header and takes the slot lock. -/
  | imgOpen (r : Nat) (d : Desc) (sig : Bool)
  /-- IMG_WRITE (R560, 20_update): IMG_WRITE writes image body bytes in order. -/
  | imgWrite (r : Nat) (d : Desc)
  /-- IMG_FINISH (R545, 20_update): IMG_FINISH checks length and digest and makes the slot READY or EMPTY. -/
  | imgFinish (r : Nat) (d : Desc)
  /-- IMG_ABORT (R560, 20_update): IMG_ABORT discards a session and empties the slot. -/
  | imgAbort (r : Nat) (d : Desc)
  /-- LOCK_EXPIRED (R546, 20_update): No write from the lock holder for 30 s and the lock expires. -/
  | lockExpired (t : Nat)
  /-- UPD_ACTIVATE (R551, 20_update): UPD_ACTIVATE checks a set and stages an update plan. -/
  | updActivate (r : Nat) (d : Desc)
  /-- UPD_COMMIT (R555, 20_update): UPD_COMMIT commits the plan. -/
  | updCommit (r : Nat) (d : Desc)
  /-- UPD_ROLLBACK (R554, 20_update): UPD_ROLLBACK stages rollback of the plan. -/
  | updRollback (r : Nat) (d : Desc)
  /-- TAP_UNLOCK (R559, 20_update): TAP_UNLOCK checks a signed record and unlocks the test port. -/
  | tapUnlock (r : Nat) (d : Desc) (sig : Bool)
  /-- HDR_READ (R560, 20_update): HDR_READ writes an image slot header. -/
  | hdrRead (r : Nat) (d : Desc)
  /-- STEP_CONFIRMED (R552, 20_update): A processor activated by an update step meets its confirm condition and the plan goes on. -/
  | stepConfirmed
  /-- STEP_DEADLINE (R554, 20_update): An update step misses its deadline and is retried or rolled back. -/
  | stepDeadline
  /-- SOAK_END (R555, 20_update): Every step has stayed CONFIRMED for SOAK minutes and the plan commits. -/
  | soakEnd
  /-- IMGCHECK (R548, 20_update): An IMGCHECK reply reports a node's image check or running version. -/
  | imgcheck (ring port : Nat) (frame : List Byte)
  /-- NODE_SWAP_TIMEOUT (R548, 20_update): A node does not report the new version within 20 ms of IMGSWAP and the step fails. -/
  | nodeSwapTimeout (ring : Nat)
  /-- FLY_OPEN (R557, 20_update): FLY_CMD OPEN checks the header in the window and takes the slot lock in Flyleaf. -/
  | flyOpen (t : Nat) (win : List Byte) (sig : Bool)
  /-- FLY_WRITE (R557, 20_update): FLY_CMD WRITE writes FLY_LEN bytes of the window to the slot. -/
  | flyWrite (t len : Nat) (win : List Byte)
  /-- FLY_FINISH (R557, 20_update): FLY_CMD FINISH checks the body and makes the slot READY. -/
  | flyFinish (t : Nat)
  /-- FLY_ABORT (R557, 20_update): FLY_CMD ABORT discards the Flyleaf session. -/
  | flyAbort (t : Nat)
  /-- FLY_BOOT (R557, 20_update): FLY_CMD BOOT activates READY slots and resets the module. -/
  | flyBoot
  /-- UART_MESSAGE (R558, 20_update): A service UART message carries a Flyleaf command and is answered with FLY_STAT. -/
  | uartMessage (msg : List Byte) (sig : Bool)
  /-- FLYLEAF_REQUEST (R595, 23_address_map): A write of FLYREQ with its key to GLB_CTL requests Flyleaf or is refused. -/
  | flyleafRequest (v : Nat)
  /-- START_MODE_WRITE (R594, 23_address_map): A write of GLB_START.MODE may take the role at once from WAIT. -/
  | startModeWrite (v : Nat)
  /-- PRF_SNAPSHOT (R567, 21_perf_counters): PRF_SNAPSHOT latches every counter at the next period boundary. -/
  | prfSnapshot (r : Nat) (d : Desc)
  /-- PRF_ZERO (R567, 21_perf_counters): PRF_ZERO clears programmable counters at the next period boundary. -/
  | prfZero (r : Nat) (d : Desc)
  /-- COUNTER_WRITE (R565, 21_perf_counters): A write to a programmable counter loads it, or is ignored while counting. -/
  | counterWrite (n c : Nat) (hi : Bool) (v : Nat)
  /-- SPARE_QUERY (R583, 22_spares_repair): SPARE_QUERY writes spare pool status. -/
  | spareQuery (r : Nat) (d : Desc)
  /-- REPAIR (R579, 22_spares_repair): REPAIR starts the test of an isolated unit. -/
  | repair (r : Nat) (d : Desc)
  /-- REPAIR_TEST_DONE (R579, 22_spares_repair): A repair test ends and the unit returns or stays FAILED. -/
  | repairTestDone (passed : Bool) (us : Nat)
  /-- SPARE_RETIRE (R583, 22_spares_repair): SPARE_RETIRE retires a unit as though worn. -/
  | spareRetire (r : Nat) (d : Desc)
  /-- WORN_UNIT_RETIRE (R578, 22_spares_repair): A worn unit is retired at its retirement point when a spare is free. -/
  | wornUnitRetire (kind unit : Nat)
  /-- BEACON_SKIPPED (R380, 13_fennal_carrier): A beacon not begun by B + 2 ms is skipped and counted in FEN_BSKIP. -/
  | beaconSkipped
  /-- INJECTED_OCCURRENCE (R483, 17_errata): In COUNT mode with a non-zero spacing, each further injected occurrence is raised PARAM1[31:16] µs after the one before it. -/
  | injectedOccurrence (n : Nat)
  /-- REPLACEMENT_QUIRE_IN_SERVICE (R165, 06_press_hierarchy): In Q, the replacement quire finishes bring-up within 60 ms and enters service, ending SVC 0x0. -/
  | replacementQuireInService
  /-- FORME_RUN_TIMEOUT (R233, 08_forme_sorts): A FORME_RUN still running after 100 ms is abandoned and completes TIMEOUT, with FORME_ABANDONED cause 4. -/
  | formeRunTimeout (slot : Nat)
  /-- OPEN_PAGES_COMMITTED (R534, 19_colophon): A commit of every open page requested before a reset or by COL_COMMIT completes, so the waiting reset reaches the Colophon island and COL_COMMIT completes OK. -/
  | openPagesCommitted
  /-- COL_COMMIT_TIMEOUT (R537, 19_colophon): COL_COMMIT completes TIMEOUT when its commit is still running after 1 s. -/
  | colCommitTimeout
deriving DecidableEq, Repr

end Sys2Proof
end

