-- ==== Sys2Proof/Machine/Bits.lean ====
section
/-!
DEFINITION. The number formats of the manual: bit fields, signed values, saturation, rounding and little-endian bytes
(R2: every quantity is an integer or a fixed-point value; registers and records are little-endian).
-/
namespace Sys2Proof.Machine

/-- One byte from a number, modulo 256. -/
abbrev byte (n : Nat) : Byte := BitVec.ofNat 8 n

/-- Bits `[lo + width - 1 : lo]` of `n`. -/
def bits (n lo width : Nat) : Nat := n / 2 ^ lo % 2 ^ width

/-- Bit `k` of `n`. -/
def bit (n k : Nat) : Bool := n / 2 ^ k % 2 = 1

/-- One as a bit, or zero. -/
def b2n (b : Bool) : Nat := if b then 1 else 0

/-- The value of a `w`-bit pattern read as a signed number. -/
def toS (w n : Nat) : Int := if n % 2 ^ w < 2 ^ (w - 1) then (n % 2 ^ w : Nat) else (n % 2 ^ w : Nat) - (2 ^ w : Nat)

/-- The `w`-bit pattern of a signed number, modulo 2^w. -/
def ofS (w : Nat) (z : Int) : Nat := (z % (2 ^ w : Nat)).toNat

/-- The least and the greatest of a range: `z` held within [lo, hi]. -/
def clampI (lo hi z : Int) : Int := min (max z lo) hi

/-- sat(z, w): a signed number held within w bits. -/
def satS (w : Nat) (z : Int) : Int := clampI (-(2 ^ (w - 1) : Nat)) ((2 ^ (w - 1) : Nat) - 1) z

/-- A count that stops at the greatest value of `w` bits. -/
def satU (w n : Nat) : Nat := min n (2 ^ w - 1)

/-- The `n` bytes of `v`, least significant first. -/
def le : Nat → Nat → List Byte
  | 0, _ => []
  | n + 1, v => byte v :: le n (v / 256)

/-- The number that a list of bytes spells, least significant first. -/
def ofLe : List Byte → Nat
  | [] => 0
  | b :: t => b.toNat + 256 * ofLe t

/-- The `n` bytes at offset `o` of a buffer, as a number; bytes beyond the end count as 0. -/
def rd (b : List Byte) (o n : Nat) : Nat := ofLe ((b.drop o).take n)

/-- `n` zero bytes. -/
def zeros (n : Nat) : List Byte := List.replicate n 0

/-- A byte list cut or padded with zeros to `n` bytes. -/
def fit (n : Nat) (b : List Byte) : List Byte := b.take n ++ zeros (n - b.length)

/-- floor(a / b) rounded up. -/
def cdiv (a b : Nat) : Nat := (a + b - 1) / b

/-- Division rounded to nearest, ties to even (R184's rounding, on a quotient). -/
def divRne (a : Int) (b : Nat) : Int :=
  let q := a / (b : Int)
  let r := (a % (b : Int)).toNat
  if 2 * r < b then q
  else if b < 2 * r then q + 1
  else if q % 2 = 0 then q else q + 1

/-- rne(v, k) of R184: v / 2^k rounded to nearest, ties to even. -/
def rne (v : Int) (k : Nat) : Int := divRne v (2 ^ k)

/-! ## Lists in order -/

/-- An element joins a list that is in order, before the elements that it may precede. -/
def insertBy {α : Type} (before : α → α → Bool) (a : α) : List α → List α
  | [] => [a]
  | b :: t => if before a b then a :: b :: t else b :: insertBy before a t

/-- A list in order; elements that are equal in it keep their places. -/
def sortBy {α : Type} (before : α → α → Bool) : List α → List α
  | [] => []
  | a :: t => insertBy before a (sortBy before t)

end Sys2Proof.Machine
end

