-- ==== Sys2Proof/Machine/Crypto.lean ====
section
/-!
DEFINITION. The checks that the manual takes from published standards: CRC-32 (IEEE 802.3), the 16-bit CRC of the stage
links, SHA-384 (FIPS 180-4) and AES-CMAC (NIST SP 800-38B). The constants are those of the standards (log entry 11).
-/
namespace Sys2Proof.Machine

/-! ## CRC -/

/-- One bit of a reflected CRC: shift right, and fold `poly` in when a one falls out. -/
def crcBit (poly c : Nat) : Nat := if c % 2 = 1 then (c / 2) ^^^ poly else c / 2

/-- One byte of a reflected CRC. -/
def crcByte (poly c : Nat) (b : Byte) : Nat :=
  crcBit poly (crcBit poly (crcBit poly (crcBit poly (crcBit poly (crcBit poly (crcBit poly (crcBit poly (c ^^^ b.toNat))))))))

/-- CRC-32 of a byte string (IEEE 802.3: reflected, initial and final complement). -/
def crc32 (b : List Byte) : Nat := b.foldl (crcByte 0xEDB88320) 0xFFFFFFFF ^^^ 0xFFFFFFFF

/-! ## SHA-384 -/

/-- The 80 round constants of SHA-512 and SHA-384. -/
def shaK : List Nat :=
  [ 0x428A2F98D728AE22, 0x7137449123EF65CD, 0xB5C0FBCFEC4D3B2F, 0xE9B5DBA58189DBBC,
    0x3956C25BF348B538, 0x59F111F1B605D019, 0x923F82A4AF194F9B, 0xAB1C5ED5DA6D8118,
    0xD807AA98A3030242, 0x12835B0145706FBE, 0x243185BE4EE4B28C, 0x550C7DC3D5FFB4E2,
    0x72BE5D74F27B896F, 0x80DEB1FE3B1696B1, 0x9BDC06A725C71235, 0xC19BF174CF692694,
    0xE49B69C19EF14AD2, 0xEFBE4786384F25E3, 0x0FC19DC68B8CD5B5, 0x240CA1CC77AC9C65,
    0x2DE92C6F592B0275, 0x4A7484AA6EA6E483, 0x5CB0A9DCBD41FBD4, 0x76F988DA831153B5,
    0x983E5152EE66DFAB, 0xA831C66D2DB43210, 0xB00327C898FB213F, 0xBF597FC7BEEF0EE4,
    0xC6E00BF33DA88FC2, 0xD5A79147930AA725, 0x06CA6351E003826F, 0x142929670A0E6E70,
    0x27B70A8546D22FFC, 0x2E1B21385C26C926, 0x4D2C6DFC5AC42AED, 0x53380D139D95B3DF,
    0x650A73548BAF63DE, 0x766A0ABB3C77B2A8, 0x81C2C92E47EDAEE6, 0x92722C851482353B,
    0xA2BFE8A14CF10364, 0xA81A664BBC423001, 0xC24B8B70D0F89791, 0xC76C51A30654BE30,
    0xD192E819D6EF5218, 0xD69906245565A910, 0xF40E35855771202A, 0x106AA07032BBD1B8,
    0x19A4C116B8D2D0C8, 0x1E376C085141AB53, 0x2748774CDF8EEB99, 0x34B0BCB5E19B48A8,
    0x391C0CB3C5C95A63, 0x4ED8AA4AE3418ACB, 0x5B9CCA4F7763E373, 0x682E6FF3D6B2B8A3,
    0x748F82EE5DEFB2FC, 0x78A5636F43172F60, 0x84C87814A1F0AB72, 0x8CC702081A6439EC,
    0x90BEFFFA23631E28, 0xA4506CEBDE82BDE9, 0xBEF9A3F7B2C67915, 0xC67178F2E372532B,
    0xCA273ECEEA26619C, 0xD186B8C721C0C207, 0xEADA7DD6CDE0EB1E, 0xF57D4F7FEE6ED178,
    0x06F067AA72176FBA, 0x0A637DC5A2C898A6, 0x113F9804BEF90DAE, 0x1B710B35131C471B,
    0x28DB77F523047D84, 0x32CAAB7B40C72493, 0x3C9EBE0A15C9BEBC, 0x431D67C49C100D4C,
    0x4CC5D4BECB3E42B6, 0x597F299CFC657E2A, 0x5FCB6FAB3AD6FAEC, 0x6C44198C4A475817 ]

/-- The initial hash value of SHA-384. -/
def shaH : List Nat :=
  [ 0xCBBB9D5DC1059ED8, 0x629A292A367CD507, 0x9159015A3070DD17, 0x152FECD8F70E5939,
    0x67332667FFC00B31, 0x8EB44A8768581511, 0xDB0C2E0D64F98FA7, 0x47B5481DBEFA4FA4 ]

/-- Rotation right of a 64-bit word. -/
def rotr64 (x n : Nat) : Nat := (x / 2 ^ n + x * 2 ^ (64 - n)) % 2 ^ 64

/-- A big-endian number from bytes. -/
def ofBe (b : List Byte) : Nat := b.foldl (fun a x => a * 256 + x.toNat) 0

/-- The `n` bytes of `v`, most significant first. -/
def be (n v : Nat) : List Byte := (le n v).reverse

/-- The message schedule: `w` holds the last 16 words, newest first; each step prepends one. -/
def shaSched : Nat → List Nat → List Nat
  | 0, w => w
  | n + 1, w =>
    let g := fun i => (w[i]?).getD 0
    let s0 := let x := g 14; rotr64 x 1 ^^^ rotr64 x 8 ^^^ (x / 2 ^ 7)
    let s1 := let x := g 1; rotr64 x 19 ^^^ rotr64 x 61 ^^^ (x / 2 ^ 6)
    shaSched n (((g 15 + s0 + g 6 + s1) % 2 ^ 64) :: w)

/-- The eight working variables of one round. -/
structure ShaVars where
  a : Nat
  b : Nat
  c : Nat
  d : Nat
  e : Nat
  f : Nat
  g : Nat
  h : Nat
deriving DecidableEq, Repr

/-- One round of SHA-384. -/
def shaRound (v : ShaVars) (kw : Nat × Nat) : ShaVars :=
  let s1 := rotr64 v.e 14 ^^^ rotr64 v.e 18 ^^^ rotr64 v.e 41
  let ch := (v.e &&& v.f) ^^^ ((v.e ^^^ (2 ^ 64 - 1)) &&& v.g)
  let t1 := v.h + s1 + ch + kw.1 + kw.2
  let s0 := rotr64 v.a 28 ^^^ rotr64 v.a 34 ^^^ rotr64 v.a 39
  let mj := (v.a &&& v.b) ^^^ (v.a &&& v.c) ^^^ (v.b &&& v.c)
  { a := (t1 + s0 + mj) % 2 ^ 64, b := v.a, c := v.b, d := v.c, e := (v.d + t1) % 2 ^ 64, f := v.e, g := v.f, h := v.g }

/-- The hash value after one 128-byte block. -/
def shaBlock (h : List Nat) (blk : List Byte) : List Nat :=
  let w0 := (List.range 16).map fun i => ofBe ((blk.drop (8 * i)).take 8)
  let w := (shaSched 64 w0.reverse).reverse
  let g := fun i => (h[i]?).getD 0
  let v0 : ShaVars := { a := g 0, b := g 1, c := g 2, d := g 3, e := g 4, f := g 5, g := g 6, h := g 7 }
  let v := (shaK.zip w).foldl shaRound v0
  [v.a, v.b, v.c, v.d, v.e, v.f, v.g, v.h].zipWith (fun x y => (x + y) % 2 ^ 64) h

/-- The hash value after `n` blocks. -/
def shaBlocks : Nat → List Byte → List Nat → List Nat
  | 0, _, h => h
  | n + 1, m, h => shaBlocks n (m.drop 128) (shaBlock h (m.take 128))

/-- SHA-384 of a byte string: 48 bytes. -/
def sha384 (m : List Byte) : List Byte :=
  let pad := (239 - m.length % 128) % 128
  let msg := m ++ [0x80] ++ zeros pad ++ be 16 (8 * m.length)
  ((shaBlocks (msg.length / 128) msg shaH).flatMap (be 8)).take 48

/-- The first 8 bytes of a digest as a number (the change log's OLD and NEW of wide objects, R530). -/
def digest8 (m : List Byte) : Nat := ofLe ((sha384 m).take 8)

/-! ## AES-CMAC -/

/-- The S-box of AES. -/
def aesS : List Nat :=
  [ 0x63, 0x7C, 0x77, 0x7B, 0xF2, 0x6B, 0x6F, 0xC5, 0x30, 0x01, 0x67, 0x2B, 0xFE, 0xD7, 0xAB, 0x76,
    0xCA, 0x82, 0xC9, 0x7D, 0xFA, 0x59, 0x47, 0xF0, 0xAD, 0xD4, 0xA2, 0xAF, 0x9C, 0xA4, 0x72, 0xC0,
    0xB7, 0xFD, 0x93, 0x26, 0x36, 0x3F, 0xF7, 0xCC, 0x34, 0xA5, 0xE5, 0xF1, 0x71, 0xD8, 0x31, 0x15,
    0x04, 0xC7, 0x23, 0xC3, 0x18, 0x96, 0x05, 0x9A, 0x07, 0x12, 0x80, 0xE2, 0xEB, 0x27, 0xB2, 0x75,
    0x09, 0x83, 0x2C, 0x1A, 0x1B, 0x6E, 0x5A, 0xA0, 0x52, 0x3B, 0xD6, 0xB3, 0x29, 0xE3, 0x2F, 0x84,
    0x53, 0xD1, 0x00, 0xED, 0x20, 0xFC, 0xB1, 0x5B, 0x6A, 0xCB, 0xBE, 0x39, 0x4A, 0x4C, 0x58, 0xCF,
    0xD0, 0xEF, 0xAA, 0xFB, 0x43, 0x4D, 0x33, 0x85, 0x45, 0xF9, 0x02, 0x7F, 0x50, 0x3C, 0x9F, 0xA8,
    0x51, 0xA3, 0x40, 0x8F, 0x92, 0x9D, 0x38, 0xF5, 0xBC, 0xB6, 0xDA, 0x21, 0x10, 0xFF, 0xF3, 0xD2,
    0xCD, 0x0C, 0x13, 0xEC, 0x5F, 0x97, 0x44, 0x17, 0xC4, 0xA7, 0x7E, 0x3D, 0x64, 0x5D, 0x19, 0x73,
    0x60, 0x81, 0x4F, 0xDC, 0x22, 0x2A, 0x90, 0x88, 0x46, 0xEE, 0xB8, 0x14, 0xDE, 0x5E, 0x0B, 0xDB,
    0xE0, 0x32, 0x3A, 0x0A, 0x49, 0x06, 0x24, 0x5C, 0xC2, 0xD3, 0xAC, 0x62, 0x91, 0x95, 0xE4, 0x79,
    0xE7, 0xC8, 0x37, 0x6D, 0x8D, 0xD5, 0x4E, 0xA9, 0x6C, 0x56, 0xF4, 0xEA, 0x65, 0x7A, 0xAE, 0x08,
    0xBA, 0x78, 0x25, 0x2E, 0x1C, 0xA6, 0xB4, 0xC6, 0xE8, 0xDD, 0x74, 0x1F, 0x4B, 0xBD, 0x8B, 0x8A,
    0x70, 0x3E, 0xB5, 0x66, 0x48, 0x03, 0xF6, 0x0E, 0x61, 0x35, 0x57, 0xB9, 0x86, 0xC1, 0x1D, 0x9E,
    0xE1, 0xF8, 0x98, 0x11, 0x69, 0xD9, 0x8E, 0x94, 0x9B, 0x1E, 0x87, 0xE9, 0xCE, 0x55, 0x28, 0xDF,
    0x8C, 0xA1, 0x89, 0x0D, 0xBF, 0xE6, 0x42, 0x68, 0x41, 0x99, 0x2D, 0x0F, 0xB0, 0x54, 0xBB, 0x16 ]

/-- One byte through the S-box. -/
def sbox (x : Nat) : Nat := (aesS[x]?).getD 0

/-- Multiplication by x in GF(2^8). -/
def xtime (a : Nat) : Nat := if 128 ≤ a then (2 * a % 256) ^^^ 0x1B else 2 * a

/-- The key schedule of AES-128, four bytes a word: each step gives the next round key from the last. -/
def aesNextKey (rcon : Nat) (k : List Nat) : List Nat :=
  let g := fun i => (k[i]?).getD 0
  let t := [sbox (g 13) ^^^ rcon, sbox (g 14), sbox (g 15), sbox (g 12)]
  let w0 := (k.take 4).zipWith (· ^^^ ·) t
  let w1 := ((k.drop 4).take 4).zipWith (· ^^^ ·) w0
  let w2 := ((k.drop 8).take 4).zipWith (· ^^^ ·) w1
  let w3 := ((k.drop 12).take 4).zipWith (· ^^^ ·) w2
  w0 ++ w1 ++ w2 ++ w3

/-- The row shift of AES on a column-ordered block. -/
def aesShift (b : List Nat) : List Nat :=
  (List.range 16).map fun i => (b[(i + 4 * (i % 4)) % 16]?).getD 0

/-- The column mix of AES on one column. -/
def aesMixCol (q : List Nat) : List Nat :=
  let g := fun i => (q[i % 4]?).getD 0
  (List.range 4).map fun i => xtime (g i) ^^^ (xtime (g (i + 1)) ^^^ g (i + 1)) ^^^ g (i + 2) ^^^ g (i + 3)

/-- The column mix of AES. -/
def aesMix (b : List Nat) : List Nat :=
  aesMixCol (b.take 4) ++ aesMixCol ((b.drop 4).take 4) ++ aesMixCol ((b.drop 8).take 4) ++ aesMixCol (b.drop 12)

/-- Rounds of AES-128 for the round constants given; the last mixes no columns. -/
def aesRounds : List Nat → List Nat → List Nat → List Nat
  | [], _, b => b
  | rc :: t, k, b =>
    let k' := aesNextKey rc k
    let x := aesShift (b.map sbox)
    let y := if t.isEmpty then x else aesMix x
    aesRounds t k' (y.zipWith (· ^^^ ·) k')

/-- AES-128 of one 16-byte block. -/
def aes128 (key blk : List Nat) : List Nat :=
  aesRounds [0x01, 0x02, 0x04, 0x08, 0x10, 0x20, 0x40, 0x80, 0x1B, 0x36] key (blk.zipWith (· ^^^ ·) key)

/-- A block as a number, most significant byte first, and back. -/
def blkNum (b : List Nat) : Nat := b.foldl (fun a x => a * 256 + x) 0

/-- A subkey of CMAC from the one before: doubled in GF(2^128). -/
def cmacDouble (b : List Nat) : List Nat :=
  let n := blkNum b
  let m := if 2 ^ 127 ≤ n then (2 * n % 2 ^ 128) ^^^ 0x87 else 2 * n
  (be 16 m).map (·.toNat)

/-- The chained blocks of CMAC before the last. -/
def cmacChain (key : List Nat) : Nat → List Nat → List Nat → List Nat × List Nat
  | 0, m, x => (m, x)
  | n + 1, m, x => cmacChain key n (m.drop 16) (aes128 key (x.zipWith (· ^^^ ·) (m.take 16)))

/-- AES-CMAC of a byte string under a 16-byte key: 16 bytes. -/
def cmac (key msg : List Byte) : List Byte :=
  let k := (fit 16 key).map (·.toNat)
  let m := msg.map (·.toNat)
  let k1 := cmacDouble (aes128 k (List.replicate 16 0))
  let k2 := cmacDouble k1
  let n := cdiv m.length 16
  let (rest, x) := cmacChain k (n - 1) m (List.replicate 16 0)
  let last := if rest.length = 16 then rest.zipWith (· ^^^ ·) k1
    else ((rest ++ [0x80] ++ List.replicate (15 - rest.length) 0).take 16).zipWith (· ^^^ ·) k2
  (aes128 k (x.zipWith (· ^^^ ·) last)).map byte

end Sys2Proof.Machine
end

