-- ==== Sys2Proof/Machine/Arith.lean ====
section
/-!
DEFINITION. Press arithmetic (R155, R180 to R200): exact integers, the shifts and roundings of R184, leaf, folio and
quire sums, the channel rescale, output conversion and wide operations. Every function answers with its value the
saturations that it met, by the kinds of PRS_ASAT_POS: 0 leaf, 1 folio, 2 quire, 3 across quires, 4 volume, 5 ALIGN,
6 RESC, 7 OUT, 8 ELEM; 9 stands for EXPLO, which is no saturation.
-/
namespace Sys2Proof.Machine

/-- The saturations met, in order. -/
abbrev Sats := List Nat

/-- A value with the saturations met. -/
abbrev W (α : Type) := α × Sats

/-- sat(x, n) of R184, noting a clamp as `kind`. -/
def satK (n kind : Nat) (x : Int) : W Int :=
  let y := satS n x
  (y, if y = x then [] else [kind])

/-- sr(x, s, u) of R184. -/
def sr (x : Int) (s u : Nat) : Int :=
  if s = 0 then x
  else if s ≤ 32 then (x + (u / 2 ^ (32 - s) : Nat)) / (2 ^ s : Nat)
  else (x + (u * 2 ^ (s - 32) : Nat)) / (2 ^ s : Nat)

/-- align(x, from, to, n) of R184. -/
def align (n kind : Nat) (x : Int) (f t : Int) : W Int :=
  if t ≤ f then satK n kind (x * (2 ^ (f - t).toNat : Nat)) else satK n kind (rne x (t - f).toNat)

/-- sr_bits(seed, pos) of R186. -/
def srBits (seed pos : Nat) : Nat :=
  let m := 2 ^ 32
  let x := (seed ^^^ (pos * 0x9E3779B9 % m)) % m
  let x := (x ^^^ (x / 2 ^ 16)) * 0x85EBCA6B % m
  let x := (x ^^^ (x / 2 ^ 13)) * 0xC2B2AE35 % m
  x ^^^ (x / 2 ^ 16)

/-- ceil(log2 n) for n ≥ 1. -/
def clog2 (n : Nat) : Nat := if n ≤ 1 then 0 else Nat.log2 (n - 1) + 1

/-- The fixed tree of R155 over participant values, saturating at `n` bits (0: exact); `fuel` bounds the depth. -/
def tree (n kind : Nat) : Nat → List Int → W Int
  | 0, vs => (vs.foldl (· + ·) 0, [])
  | fuel + 1, vs =>
    match vs with
    | [] => (0, [])
    | [v] => (v, [])
    | _ =>
      let m := 2 ^ (clog2 vs.length - 1)
      let a := tree n kind fuel (vs.take m)
      let b := tree n kind fuel (vs.drop m)
      let c := if n = 0 then (a.1 + b.1, []) else satK n kind (a.1 + b.1)
      (c.1, a.2 ++ b.2 ++ c.2)

/-- The tree over a list. -/
def treeSum (n kind : Nat) (vs : List Int) : W Int := tree n kind (vs.length + 1) vs

/-- The fixed tree of R155 over values that each come from a unit: every addition is flagged by the level that joins the units
of its operands (R157). -/
def spanTree {α : Type} (n : Nat) (kindOf : List α → Nat) : Nat → List (Int × α) → W Int
  | 0, vs => ((vs.map (·.1)).foldl (· + ·) 0, [])
  | fuel + 1, vs =>
    match vs with
    | [] => (0, [])
    | [v] => (v.1, [])
    | _ =>
      let m := 2 ^ (clog2 vs.length - 1)
      let a := spanTree n kindOf fuel (vs.take m)
      let b := spanTree n kindOf fuel (vs.drop m)
      let c := satK n (kindOf (vs.map (·.2))) (a.1 + b.1)
      (c.1, a.2 ++ b.2 ++ c.2)

/-- The tree over a list of values with their units. -/
def spanSum {α : Type} (n : Nat) (kindOf : List α → Nat) (vs : List (Int × α)) : W Int := spanTree n kindOf (vs.length + 1) vs

/-! ## Blocks (R180 to R183) -/

/-- Mantissa width of a block format: i2, i4, i8, i16. -/
def fmtW (f : Nat) : Nat := 2 ^ (f + 1)

/-- Digits of a block format (R180). -/
def fmtD (f : Nat) : Nat := match f with | 0 => 1 | 1 => 1 | 2 => 2 | _ => 4

/-- A block: its mantissas and its scale byte (R181, R182). -/
structure Blk where
  m : List Int
  scale : Nat
deriving DecidableEq, Repr

/-- The zero flag. -/
def Blk.z (b : Blk) : Bool := bit b.scale 7

/-- The exponent. -/
def Blk.e (b : Blk) : Int := toS 7 b.scale

/-- A zero block (R183). -/
def Blk.zero (b : Blk) : Bool := b.z || b.m.all (· == 0)

/-- Digit i of an operand of d digits (R187). -/
def digit (x : Int) (d i : Nat) : Int := if i + 1 < d then x / (16 ^ i : Nat) % 16 else x / (16 ^ i : Nat)

/-! ## Products (R189 to R194) -/

/-- B of R189 for a pair of formats. -/
def leafB (fa fw : Nat) : Nat := if fa = 0 ∧ fw = 0 then 12 else if fa ≤ 1 ∧ fw ≤ 1 then 8 else 6

/-- The exact sum of the digit products of a pair of blocks. -/
def blkSum (a w : Blk) (da dw i j : Nat) : Int :=
  ((a.m.zip w.m).map fun p => digit p.1 da i * digit p.2 dw j).foldl (· + ·) 0

/-- The greatest of a list of exponents. -/
def maxI : List Int → Option Int
  | [] => none
  | x :: t => some (t.foldl max x)

/-- The leaf result of one column, pass and digit pair (R189): the accumulator and its exponent, or void. -/
def leafResult (fa fw i j : Nat) (bs : List (Blk × Blk)) : W (Option (Int × Int)) :=
  let live := bs.filter fun p => !p.1.zero && !p.2.zero
  match maxI (live.map fun p => p.1.e + p.2.e) with
  | none => (none, [])
  | some em =>
    let g := leafB fa fw - clog2 bs.length
    let el := em + (4 * (i + j) : Nat) - (g : Nat)
    let r := live.foldl (fun (a : W Int) p =>
      let x := align 20 0 (blkSum p.1 p.2 (fmtD fa) (fmtD fw) i j) (p.1.e + p.2.e + (4 * (i + j) : Nat)) el
      let y := satK 20 0 (a.1 + x.1)
      (y.1, a.2 ++ x.2 ++ y.2)) (0, [])
    (some (r.1, el), r.2)

/-- The folio result over leaf results in contribution order (R191): the sum and its frame exponent, or void. -/
def folioResult (ls : List (Option (Int × Int))) : W (Option (Int × Int)) :=
  match maxI (ls.filterMap fun l => l.map (·.2)) with
  | none => (none, [])
  | some em =>
    let f := em - ((12 - clog2 ls.length : Nat) : Int)
    let xs := ls.map fun l => match l with
      | none => ((0, []) : W Int)
      | some (v, e) => align 32 1 v e f
    let t := treeSum 32 1 (xs.map (·.1))
    (some (t.1, f), xs.flatMap (·.2) ++ t.2)

/-- The folio results of a quire's pass aligned to A and added (R192). -/
def passSum (a : Int) (fs : List (Option (Int × Int))) : W Int :=
  let xs := fs.map fun f => match f with
    | none => ((0, []) : W Int)
    | some (v, e) => align 48 5 v e a
  let t := treeSum 48 2 (xs.map (·.1))
  (t.1, xs.flatMap (·.2) ++ t.2)

/-- A channel-scale record (R194). -/
structure ScaleRec where
  m : Int
  s : Nat
  rnd : Nat
deriving DecidableEq, Repr

/-- The channel rescale of R194. -/
def rescale (c : ScaleRec) (acc : Int) (u : Nat) : W Int :=
  let p := acc * c.m
  satK 48 6 (if c.rnd = 0 then rne p c.s else sr p c.s u)

/-! ## Output conversion (R196, R197) -/

/-- FIXED(n): the value clamped to n bits. -/
def outFixed (n : Nat) (r : Int) : W Int := satK n 7 r

/-- shift(v, t) of R197, with the rounding of the sort. -/
def shiftV (rnd : Nat) (v : Int) (t : Int) (u : Nat) : Int :=
  if t ≤ 0 then v * (2 ^ (-t).toNat : Nat) else if rnd = 0 then rne v t.toNat else sr v t.toNat u

/-- The mantissas of a block at exponent `e`. -/
def blkAt (rnd : Nat) (a e : Int) (vs : List (Int × Nat)) : List Int := vs.map fun p => shiftV rnd p.1 (e - a) p.2

/-- A mantissa lies in the range of a width. -/
def inW (w : Nat) (m : Int) : Bool := decide (-(2 ^ (w - 1) : Nat) ≤ m ∧ m < (2 ^ (w - 1) : Nat))

/-- requant of R197 over 32 values with their random bits: BLOCK of width `w`, from exponent `a`. -/
def requant (w rnd : Nat) (a : Int) (vs : List (Int × Nat)) : W Blk :=
  if vs.all fun p => p.1 == 0 then ({ m := vs.map fun _ => 0, scale := 0x80 }, [])
  else
    let fin := fun (m : List Int) (e : Int) =>
      if m.all (· == 0) then ({ m := m, scale := 0x80 } : Blk) else { m := m, scale := ofS 7 e }
    match (List.range 128).find? fun k => (blkAt rnd a ((k : Int) - 64) vs).all (inW w) with
    | some k =>
      let e := (k : Int) - 64
      let lost := k == 0 && vs.any fun p => decide (a < e) && p.1 % (2 ^ (e - a).toNat : Nat) != 0
      (fin (blkAt rnd a e vs) e, if lost then [9] else [])
    | none => (fin ((blkAt rnd a 63 vs).map (satS w)) 63, [7])

/-! ## Wide operations (R198) -/

/-- Addition, subtraction and multiplication of wide values at exponent A. -/
def wAdd (x y : Int) : W Int := satK 48 8 (x + y)
def wSub (x y : Int) : W Int := satK 48 8 (x - y)
def wMul (a x y : Int) : W Int := align 48 8 (x * y) (2 * a) a

/-- Shift of a wide value by a constant k. -/
def wShift (a x k : Int) : W Int := align 48 8 x (a + k) a

/-- div_rne(u, v) for v > 0 (R220). -/
def divRneI (u v : Int) : Int := divRne u v.toNat

end Sys2Proof.Machine
end

