-- ==== Sys2Proof/Config.lean ====
section
/-!
DEFINITION. What one module of its kind fixes, and the free values: constants without a body, so that nothing can be
proved of the value they hold (log entry 8).
-/
namespace Sys2Proof.Config

/-- A value the manual leaves open (a random draw, a count that only an implementation fixes): the n-th such value. -/
opaque freeValue : Nat → Nat

/-- The contents of the settings store as delivered, where the manual does not give them: the n-th such value. -/
opaque storeValue : Nat → Nat

/-- What a variant load puts into a leaf: the forme's digest with the bytes of its model area, the variant, and the logical
address in the leaves give the byte (R20, R237); the manual does not lay the weights out. -/
opaque leafByte : List (BitVec 8) → Nat → Nat → Nat

/-- The offset in the history ring of a stack at which the history sample of a stream at a grid time lies (R144): the manual does not lay
the ring out. -/
opaque histOffset : Nat → Nat → Nat

/-- The fixed phase pattern of the n-th preamble symbol on the 256 tones (R364): the manual does not give it. -/
opaque preamble : Nat → Nat

/-- The CRC-16 of a column of weight SRAM over its bytes (R153, R222): the manual gives no polynomial. -/
opaque columnCrc : List (BitVec 8) → Nat

/-- Offsets in configuration space of the PTM Control register and of the first word of the MSI-X capability: the manual
places neither. -/
opaque ptmCtl : Nat
opaque msixCtl : Nat

/-- Offsets in configuration space of the PCI Express, Power Management and AER capabilities (R81). -/
opaque pcieCap : Nat
opaque pmCap : Nat
opaque aerCap : Nat

end Sys2Proof.Config
end

