-- ==== Sys2Proof/Machine/Regs.lean ====
section
/-!
DEFINITION. The register fields of every block, by the manual's names: where each lies (BAR0 address, bit, window index),
how wide it is and what it holds after reset. The register chapters of spec/ (the field tables, R120 to R600) and the
offsets of R587 give every number here.
-/
namespace Sys2Proof.Machine

/-- A register field: the key of its value in the register file, its width in bits and its value after reset. A field
whose reset is NVM holds here the value the manual gives in parentheses (R10), and 0 where it gives none (log entry 3). -/
structure Fld where
  key : Nat
  width : Nat
  reset : Nat
deriving DecidableEq, Repr

/-- The key of bit `lo` of the register at BAR0 address `addr`, in the window entry `idx` (ring, loop, phase, link,
detector or trigger selected) where the register is windowed. -/
def fieldKey (addr lo idx : Nat) : Nat := idx * 0x2000000 + addr * 32 + lo

/-- The field of `width` bits from bit `lo` of the register at `addr`, window entry `idx`. -/
def fld (addr lo width reset idx : Nat) : Fld := { key := fieldKey addr lo idx, width := width, reset := reset }

namespace Reg

/-- GLB_ID.DEVID, bits [15:0], RO, reset 0x9640 (R600). -/
def GLB_ID_DEVID : Fld := fld 0x0 0 16 0x9640 0

/-- GLB_ID.SIREV, bits [23:16], RO, reset 0xB0 (R600). -/
def GLB_ID_SIREV : Fld := fld 0x0 16 8 176 0

/-- GLB_ID.MODREV, bits [31:24], RO, reset 0x03 (R600). -/
def GLB_ID_MODREV : Fld := fld 0x0 24 8 3 0

/-- GLB_BLKVER.MINOR, bits [15:0], RO, reset 0x0000 (R600). -/
def GLB_BLKVER_MINOR : Fld := fld 0x4 0 16 0 0

/-- GLB_BLKVER.MAJOR, bits [31:16], RO, reset 0x0001 (R600). -/
def GLB_BLKVER_MAJOR : Fld := fld 0x4 16 16 1 0

/-- GLB_SERIAL.SERIAL, bits [31:0], RO, reset Factory (R600). -/
def GLB_SERIAL : Fld := fld 0x8 0 64 1 0

/-- GLB_VENDOR.VID, bits [15:0], RO, reset 0x1F3C (R600). -/
def GLB_VENDOR_VID : Fld := fld 0x10 0 16 0x1F3C 0

/-- GLB_VENDOR.SSID, bits [31:16], RO, reset 0x0003 (R600). -/
def GLB_VENDOR_SSID : Fld := fld 0x10 16 16 3 0

/-- GLB_RSTCAUSE.CAUSE, bits [7:0], RO, reset 0x01 (R600). -/
def GLB_RSTCAUSE_CAUSE : Fld := fld 0x20 0 8 1 0

/-- GLB_RSTCAUSE.MULTI, bits [8], RO, reset 0 (R600). -/
def GLB_RSTCAUSE_MULTI : Fld := fld 0x20 8 1 0 0

/-- GLB_RSTCAUSE.PREV, bits [23:16], RO, reset 0x00 (R600). -/
def GLB_RSTCAUSE_PREV : Fld := fld 0x20 16 8 0 0

/-- GLB_RSTCAUSE.COUNT, bits [31:24], RO, reset 0 (R600). -/
def GLB_RSTCAUSE_COUNT : Fld := fld 0x20 24 8 0 0

/-- GLB_BOOTSTAT.STAGE, bits [3:0], RO, reset 0x0 (R600). -/
def GLB_BOOTSTAT_STAGE : Fld := fld 0x24 0 4 0 0

/-- GLB_BOOTSTAT.PRESS, bits [8], RO, reset 0 (R600). -/
def GLB_BOOTSTAT_PRESS : Fld := fld 0x24 8 1 0 0

/-- GLB_BOOTSTAT.LINKS, bits [9], RO, reset 0 (R600). -/
def GLB_BOOTSTAT_LINKS : Fld := fld 0x24 9 1 0 0

/-- GLB_BOOTSTAT.RING, bits [13:10], RO, reset 0 (R600). -/
def GLB_BOOTSTAT_RING : Fld := fld 0x24 10 4 0 0

/-- GLB_BOOTSTAT.ROSCOR, bits [14], RO, reset 0 (R600). -/
def GLB_BOOTSTAT_ROSCOR : Fld := fld 0x24 14 1 0 0

/-- GLB_BOOTSTAT.FENNAL, bits [15], RO, reset 0 (R600). -/
def GLB_BOOTSTAT_FENNAL : Fld := fld 0x24 15 1 0 0

/-- GLB_BOOTSTAT.RES, bits [16], RO, reset 0 (R600). -/
def GLB_BOOTSTAT_RES : Fld := fld 0x24 16 1 0 0

/-- GLB_WAITCOND.STAGEOK, bits [0], RO, reset 0 (R600). -/
def GLB_WAITCOND_STAGEOK : Fld := fld 0x28 0 1 0 0

/-- GLB_WAITCOND.STRAPOK, bits [1], RO, reset 0 (R600). -/
def GLB_WAITCOND_STRAPOK : Fld := fld 0x28 1 1 0 0

/-- GLB_WAITCOND.RESOK, bits [2], RO, reset 0 (R600). -/
def GLB_WAITCOND_RESOK : Fld := fld 0x28 2 1 0 0

/-- GLB_WAITCOND.LINKOK, bits [3], RO, reset 0 (R600). -/
def GLB_WAITCOND_LINKOK : Fld := fld 0x28 3 1 0 0

/-- GLB_WAITCOND.GRIDOK, bits [4], RO, reset 0 (R600). -/
def GLB_WAITCOND_GRIDOK : Fld := fld 0x28 4 1 0 0

/-- GLB_WAITCOND.PERMIT, bits [5], RO, reset 0 (R600). -/
def GLB_WAITCOND_PERMIT : Fld := fld 0x28 5 1 0 0

/-- GLB_EARLYWR.COUNT, bits [31:0], RC, reset 0 (R600). -/
def GLB_EARLYWR : Fld := fld 0x2C 0 32 0 0

/-- GLB_CTL.FLYREQ, bits [0], WO, reset 0 (R600). -/
def GLB_CTL_FLYREQ : Fld := fld 0x30 0 1 0 0

/-- GLB_CTL.KEY, bits [31:16], WO, reset 0 (R600). -/
def GLB_CTL_KEY : Fld := fld 0x30 16 16 0 0

/-- GLB_STAT.FLYREF, bits [0], W1C, reset 0 (R600). -/
def GLB_STAT_FLYREF : Fld := fld 0x34 0 1 0 0

/-- GLB_STAT.FLYWHY, bits [2:1], RO, reset 0 (R600). -/
def GLB_STAT_FLYWHY : Fld := fld 0x34 1 2 0 0

/-- GLB_STAT.BADWR, bits [3], W1C, reset 0 (R600). -/
def GLB_STAT_BADWR : Fld := fld 0x34 3 1 0 0

/-- GLB_STAT.TOKEN, bits [8], RO, reset 0 (R600). -/
def GLB_STAT_TOKEN : Fld := fld 0x34 8 1 0 0

/-- GLB_STAT.HALTED, bits [9], RO, reset 0 (R600). -/
def GLB_STAT_HALTED : Fld := fld 0x34 9 1 0 0

/-- GLB_STAT.DEGRADED, bits [10], RO, reset 0 (R600). -/
def GLB_STAT_DEGRADED : Fld := fld 0x34 10 1 0 0

/-- GLB_STAT.PLAIN, bits [11], RO, reset 0 (R600). -/
def GLB_STAT_PLAIN : Fld := fld 0x34 11 1 0 0

/-- GLB_STAT.BLIND, bits [12], RO, reset 1 (R600). -/
def GLB_STAT_BLIND : Fld := fld 0x34 12 1 1 0

/-- GLB_STAT.STANDALONE, bits [13], RO, reset 0 (R600). -/
def GLB_STAT_STANDALONE : Fld := fld 0x34 13 1 0 0

/-- GLB_STAT.BREACH, bits [14], RO, reset 0 (R600). -/
def GLB_STAT_BREACH : Fld := fld 0x34 14 1 0 0

/-- GLB_STAT.LOST, bits [15], RO, reset 0 (R600). -/
def GLB_STAT_LOST : Fld := fld 0x34 15 1 0 0

/-- GLB_STAT.UNCLEAN, bits [16], RO, reset 0 (R600). -/
def GLB_STAT_UNCLEAN : Fld := fld 0x34 16 1 0 0

/-- GLB_STAT.PLAN, bits [17], RO, reset 0 (R600). -/
def GLB_STAT_PLAN : Fld := fld 0x34 17 1 0 0

/-- GLB_START.MODE, bits [0], RW, reset NVM(0) (R600). -/
def GLB_START_MODE : Fld := fld 0x38 0 1 0 0

/-- GLB_HIER.CFG, bits [3:0], RO, reset NVM(0x4) (R600). -/
def GLB_HIER_CFG : Fld := fld 0x3C 0 4 4 0

/-- GLB_HIER.SVC, bits [7:4], RO, reset 0x0 (R600). -/
def GLB_HIER_SVC : Fld := fld 0x3C 4 4 0 0

/-- GLB_HIER.TARGET, bits [11:8], RO, reset 0x0 (R600). -/
def GLB_HIER_TARGET : Fld := fld 0x3C 8 4 0 0

/-- GLB_HIER.CHG, bits [12], RO, reset 0 (R600). -/
def GLB_HIER_CHG : Fld := fld 0x3C 12 1 0 0

/-- GLB_SEAT.SEAT, bits [0], RO, reset not given (R600). -/
def GLB_SEAT_SEAT : Fld := fld 0x40 0 1 0 0

/-- GLB_SEAT.POS, bits [3:1], RO, reset not given (R600). -/
def GLB_SEAT_POS : Fld := fld 0x40 1 3 0 0

/-- GLB_SEAT.IDPAR, bits [4], RO, reset not given (R600). -/
def GLB_SEAT_IDPAR : Fld := fld 0x40 4 1 0 0

/-- GLB_SEAT.PAROK, bits [5], RO, reset not given (R600). -/
def GLB_SEAT_PAROK : Fld := fld 0x40 5 1 0 0

/-- GLB_SEAT.RANK, bits [9:6], RO, reset not given (R600). -/
def GLB_SEAT_RANK : Fld := fld 0x40 6 4 0 0

/-- GLB_SEAT.CHANGED, bits [10], RO, reset 0 (R600). -/
def GLB_SEAT_CHANGED : Fld := fld 0x40 10 1 0 0

/-- GLB_SEAT.LSEAT, bits [11], RO, reset not given (R600). -/
def GLB_SEAT_LSEAT : Fld := fld 0x40 11 1 0 0

/-- GLB_SEAT.LPOS, bits [14:12], RO, reset not given (R600). -/
def GLB_SEAT_LPOS : Fld := fld 0x40 12 3 0 0

/-- GLB_SEAT.LIDPAR, bits [15], RO, reset not given (R600). -/
def GLB_SEAT_LIDPAR : Fld := fld 0x40 15 1 0 0

/-- GLB_SEAT.PREVV, bits [16], RO, reset NVM(0) (R600). -/
def GLB_SEAT_PREVV : Fld := fld 0x40 16 1 0 0

/-- GLB_SEAT.PSEAT, bits [17], RO, reset NVM(0) (R600). -/
def GLB_SEAT_PSEAT : Fld := fld 0x40 17 1 0 0

/-- GLB_SEAT.PPOS, bits [20:18], RO, reset NVM(0) (R600). -/
def GLB_SEAT_PPOS : Fld := fld 0x40 18 3 0 0

/-- GLB_SEAT.PIDPAR, bits [21], RO, reset NVM(0) (R600). -/
def GLB_SEAT_PIDPAR : Fld := fld 0x40 21 1 0 0

/-- GLB_SEAT.DIFF, bits [22], RO, reset 0 (R600). -/
def GLB_SEAT_DIFF : Fld := fld 0x40 22 1 0 0

/-- GLB_VIN.VALUE, bits [15:0], RO, reset 0 (R600). -/
def GLB_VIN_VALUE : Fld := fld 0x50 0 16 0 0

/-- GLB_VIN.EXT, bits [31:16], RO, reset 0 (R600). -/
def GLB_VIN_EXT : Fld := fld 0x50 16 16 0 0

/-- GLB_IIN.VALUE, bits [15:0], RO, reset 0 (R600). -/
def GLB_IIN_VALUE : Fld := fld 0x54 0 16 0 0

/-- GLB_IIN.EXT, bits [31:16], RO, reset 0 (R600). -/
def GLB_IIN_EXT : Fld := fld 0x54 16 16 0 0

/-- GLB_PIN.VALUE, bits [15:0], RO, reset 0 (R600). -/
def GLB_PIN_VALUE : Fld := fld 0x58 0 16 0 0

/-- GLB_PIN.EXT, bits [31:16], RO, reset 0 (R600). -/
def GLB_PIN_EXT : Fld := fld 0x58 16 16 0 0

/-- GLB_VRSV.VRSV, bits [15:0], RO, reset 0 (R600). -/
def GLB_VRSV_VRSV : Fld := fld 0x5C 0 16 0 0

/-- GLB_VRSV.CHARGING, bits [16], RO, reset 0 (R600). -/
def GLB_VRSV_CHARGING : Fld := fld 0x5C 16 1 0 0

/-- GLB_VRSV.HOLDUP, bits [17], RO, reset 0 (R600). -/
def GLB_VRSV_HOLDUP : Fld := fld 0x5C 17 1 0 0

/-- GLB_PWRSTAT.DEFP, bits [0], RO, reset 0 (R600). -/
def GLB_PWRSTAT_DEFP : Fld := fld 0x60 0 1 0 0

/-- GLB_PWRSTAT.DEFI, bits [1], RO, reset 0 (R600). -/
def GLB_PWRSTAT_DEFI : Fld := fld 0x60 1 1 0 0

/-- GLB_PWRSTAT.DEFL, bits [2], RO, reset 0 (R600). -/
def GLB_PWRSTAT_DEFL : Fld := fld 0x60 2 1 0 0

/-- GLB_PWRSTAT.DEFT, bits [3], RO, reset 0 (R600). -/
def GLB_PWRSTAT_DEFT : Fld := fld 0x60 3 1 0 0

/-- GLB_PWRSTAT.CAP4, bits [4], RO, reset 0 (R600). -/
def GLB_PWRSTAT_CAP4 : Fld := fld 0x60 4 1 0 0

/-- GLB_TEMP.TJMAIN, bits [15:0], RO, reset 0 (R600). -/
def GLB_TEMP_TJMAIN : Fld := fld 0x64 0 16 0 0

/-- GLB_TEMP.TREG, bits [31:16], RO, reset 0 (R600). -/
def GLB_TEMP_TREG : Fld := fld 0x64 16 16 0 0

/-- GLB_ISL_PWR.ISL, bits [12:0], RO, reset 0 (R600). -/
def GLB_ISL_PWR_ISL : Fld := fld 0x80 0 13 0 0

/-- GLB_ISL_RST.ISL, bits [12:0], RO, reset 0 (R600). -/
def GLB_ISL_RST_ISL : Fld := fld 0x84 0 13 0 0

/-- GLB_ISL_CLK.ISL, bits [12:0], RO, reset 0 (R600). -/
def GLB_ISL_CLK_ISL : Fld := fld 0x88 0 13 0 0

/-- GLB_SCRATCH.VALUE, bits [31:0], RW, reset 0 (R600). -/
def GLB_SCRATCH : Fld := fld 0xF0 0 32 0 0

/-- HST_ID.MINOR, bits [15:0], RO, reset 0x0000 (R120). -/
def HST_ID_MINOR : Fld := fld 0x10000 0 16 0 0

/-- HST_ID.MAJOR, bits [31:16], RO, reset 0x0001 (R120). -/
def HST_ID_MAJOR : Fld := fld 0x10000 16 16 1 0

/-- HST_CTL.DMA_EN, bits [0], RW, reset 0 (R120). -/
def HST_CTL_DMA_EN : Fld := fld 0x10004 0 1 0 0

/-- HST_CTL.HOLD_EN, bits [8], RW, reset NVM(1) (R120). -/
def HST_CTL_HOLD_EN : Fld := fld 0x10004 8 1 1 0

/-- HST_CTL.HOLD_US, bits [31:16], RW, reset NVM(40) (R120). -/
def HST_CTL_HOLD_US : Fld := fld 0x10004 16 16 40 0

/-- HST_STAT.LSPD, bits [3:0], RO, reset 0 (R120). -/
def HST_STAT_LSPD : Fld := fld 0x10008 0 4 0 0

/-- HST_STAT.LWID, bits [8:4], RO, reset 0 (R120). -/
def HST_STAT_LWID : Fld := fld 0x10008 4 5 0 0

/-- HST_STAT.ROLE, bits [9], RO, reset 0 (R120). -/
def HST_STAT_ROLE : Fld := fld 0x10008 9 1 0 0

/-- HST_STAT.DEGR, bits [10], RO, reset 0 (R120). -/
def HST_STAT_DEGR : Fld := fld 0x10008 10 1 0 0

/-- HST_STAT.CFGLOCK, bits [11], W1C, reset 0 (R120). -/
def HST_STAT_CFGLOCK : Fld := fld 0x10008 11 1 0 0

/-- HST_STAT.DBBAD, bits [12], W1C, reset 0 (R120). -/
def HST_STAT_DBBAD : Fld := fld 0x10008 12 1 0 0

/-- HST_RSEL.RING, bits [13:0], RW, reset 0 (R120). -/
def HST_RSEL_RING : Fld := fld 0x10010 0 14 0 0

/-- HST_RCMD.OP, bits [2:0], WO, reset 0 (R120). -/
def HST_RCMD_OP : Fld := fld 0x10014 0 3 0 0

/-- HST_RBASE.ADDR, bits [31:0], RW, reset 0 (R120). -/
def HST_RBASE (i : Nat) : Fld := fld 0x10018 0 64 0 i

/-- HST_RCFG.SIZE, bits [4:0], RW, reset 0 (R120). -/
def HST_RCFG_SIZE (i : Nat) : Fld := fld 0x10020 0 5 0 i

/-- HST_RCFG.CLASS, bits [11:8], RW, reset 0 (R120). -/
def HST_RCFG_CLASS (i : Nat) : Fld := fld 0x10020 8 4 0 i

/-- HST_RCFG.PRIV, bits [13:12], RW, reset 0 (R120). -/
def HST_RCFG_PRIV (i : Nat) : Fld := fld 0x10020 12 2 0 i

/-- HST_RCFG.SHADOW, bits [14], RW, reset 0 (R120). -/
def HST_RCFG_SHADOW (i : Nat) : Fld := fld 0x10020 14 1 0 i

/-- HST_RCFG.CPLRING, bits [29:16], RW, reset 0 (R120). -/
def HST_RCFG_CPLRING (i : Nat) : Fld := fld 0x10020 16 14 0 i

/-- HST_RCFG.CMODE, bits [31:30], RW, reset 0 (R120). -/
def HST_RCFG_CMODE (i : Nat) : Fld := fld 0x10020 30 2 0 i

/-- HST_RIRQ.VECTOR, bits [10:0], RW, reset 0 (R120). -/
def HST_RIRQ_VECTOR (i : Nat) : Fld := fld 0x10024 0 11 0 i

/-- HST_RIRQ.IEN, bits [11], RW, reset 0 (R120). -/
def HST_RIRQ_IEN (i : Nat) : Fld := fld 0x10024 11 1 0 i

/-- HST_RIRQ.MCOUNT, bits [23:16], RW, reset 0 (R120). -/
def HST_RIRQ_MCOUNT (i : Nat) : Fld := fld 0x10024 16 8 0 i

/-- HST_RIRQ.MTIME, bits [31:24], RW, reset 0 (R120). -/
def HST_RIRQ_MTIME (i : Nat) : Fld := fld 0x10024 24 8 0 i

/-- HST_RDATA.ADDR, bits [31:0], RW, reset 0 (R120). -/
def HST_RDATA (i : Nat) : Fld := fld 0x10028 0 64 0 i

/-- HST_RAUX.SLOT, bits [3:0], RW, reset 0 (R120). -/
def HST_RAUX_SLOT (i : Nat) : Fld := fld 0x10030 0 4 0 i

/-- HST_RAUX.BATCH, bits [11:8], RW, reset 0 (R120). -/
def HST_RAUX_BATCH (i : Nat) : Fld := fld 0x10030 8 4 0 i

/-- HST_REVMASK.FAM, bits [31:0], RW, reset 0xFFFF_FFFF (R120). -/
def HST_REVMASK (i : Nat) : Fld := fld 0x10034 0 32 0xFFFFFFFF i

/-- HST_RPTR.HEAD, bits [15:0], RO, reset 0 (R120). -/
def HST_RPTR_HEAD (i : Nat) : Fld := fld 0x10038 0 16 0 i

/-- HST_RPTR.TAIL, bits [31:16], RO, reset 0 (R120). -/
def HST_RPTR_TAIL (i : Nat) : Fld := fld 0x10038 16 16 0 i

/-- HST_RSTAT.EN, bits [0], RO, reset 0 (R120). -/
def HST_RSTAT_EN (i : Nat) : Fld := fld 0x1003C 0 1 0 i

/-- HST_RSTAT.ERR, bits [1], RO, reset 0 (R120). -/
def HST_RSTAT_ERR (i : Nat) : Fld := fld 0x1003C 1 1 0 i

/-- HST_RSTAT.STALL, bits [2], RO, reset 0 (R120). -/
def HST_RSTAT_STALL (i : Nat) : Fld := fld 0x1003C 2 1 0 i

/-- HST_RSTAT.SGAP, bits [3], RO, reset 0 (R120). -/
def HST_RSTAT_SGAP (i : Nat) : Fld := fld 0x1003C 3 1 0 i

/-- HST_RSTAT.SHADOWING, bits [4], RO, reset 0 (R120). -/
def HST_RSTAT_SHADOWING (i : Nat) : Fld := fld 0x1003C 4 1 0 i

/-- HST_RSTAT.ECODE, bits [11:8], RO, reset 0 (R120). -/
def HST_RSTAT_ECODE (i : Nat) : Fld := fld 0x1003C 8 4 0 i

/-- HST_RCNT.COUNT, bits [31:0], RO, reset 0 (R120). -/
def HST_RCNT (i : Nat) : Fld := fld 0x10040 0 64 0 i

/-- HST_RDROP.COUNT, bits [31:0], RC, reset 0 (R120). -/
def HST_RDROP (i : Nat) : Fld := fld 0x10048 0 32 0 i

/-- HST_RDBIGN.COUNT, bits [31:0], RC, reset 0 (R120). -/
def HST_RDBIGN (i : Nat) : Fld := fld 0x1004C 0 32 0 i

/-- HST_PTM_CTL.AUTO, bits [0], RW, reset NVM(1) (R120). -/
def HST_PTM_CTL_AUTO : Fld := fld 0x10080 0 1 1 0

/-- HST_PTM_CTL.PERIOD, bits [15:8], RW, reset NVM(10) (R120). -/
def HST_PTM_CTL_PERIOD : Fld := fld 0x10080 8 8 10 0

/-- HST_PTM_STAT.VALID, bits [0], RO, reset 0 (R120). -/
def HST_PTM_STAT_VALID : Fld := fld 0x10084 0 1 0 0

/-- HST_PTM_STAT.FAIL, bits [1], W1C, reset 0 (R120). -/
def HST_PTM_STAT_FAIL : Fld := fld 0x10084 1 1 0 0

/-- HST_PTM_STAT.AGE, bits [31:16], RO, reset 0xFFFF (R120). -/
def HST_PTM_STAT_AGE : Fld := fld 0x10084 16 16 0xFFFF 0

/-- HST_PTM_OFS.OFS, bits [31:0], RO, reset 0 (R120). -/
def HST_PTM_OFS : Fld := fld 0x10088 0 64 0 0

/-- HST_DMAERR.ADDR, bits [31:0], RO, reset 0 (R120). -/
def HST_DMAERR : Fld := fld 0x10090 0 64 0 0

/-- HST_DMAERR_INFO.RING, bits [13:0], RO, reset 0 (R120). -/
def HST_DMAERR_INFO_RING : Fld := fld 0x10098 0 14 0 0

/-- HST_DMAERR_INFO.KIND, bits [19:16], RO, reset 0 (R120). -/
def HST_DMAERR_INFO_KIND : Fld := fld 0x10098 16 4 0 0

/-- HST_DMAERR_INFO.LATCHED, bits [31], W1C, reset 0 (R120). -/
def HST_DMAERR_INFO_LATCHED : Fld := fld 0x10098 31 1 0 0

/-- HST_SGAP.COUNT, bits [31:0], RC, reset 0 (R120). -/
def HST_SGAP : Fld := fld 0x100A0 0 32 0 0

/-- HST_ING_CTL.POOL, bits [0], RW, reset NVM(1) (R148). -/
def HST_ING_CTL_POOL : Fld := fld 0x10100 0 1 1 0

/-- HST_ING_CTL.STALE, bits [6:4], RW, reset NVM(2) (R148). -/
def HST_ING_CTL_STALE : Fld := fld 0x10100 4 3 2 0

/-- HST_ING_CTL.LAT, bits [15:8], RW, reset NVM(30) (R148). -/
def HST_ING_CTL_LAT : Fld := fld 0x10100 8 8 30 0

/-- HST_ING_STAT.LOST, bits [0], RO, reset 0 (R148). -/
def HST_ING_STAT_LOST : Fld := fld 0x10104 0 1 0 0

/-- HST_ING_STAT.UNANCH, bits [1], RO, reset 0 (R148). -/
def HST_ING_STAT_UNANCH : Fld := fld 0x10104 1 1 0 0

/-- HST_ING_STAT.OVERCAP, bits [2], RO, reset 0 (R148). -/
def HST_ING_STAT_OVERCAP : Fld := fld 0x10104 2 1 0 0

/-- HST_ING_STAT.SCHOVF, bits [3], W1C, reset 0 (R148). -/
def HST_ING_STAT_SCHOVF : Fld := fld 0x10104 3 1 0 0

/-- HST_ING_CAP.SINGLE, bits [15:0], RO, reset 0 (R148). -/
def HST_ING_CAP_SINGLE : Fld := fld 0x10108 0 16 0 0

/-- HST_ING_CAP.POOLED, bits [31:16], RO, reset 0 (R148). -/
def HST_ING_CAP_POOLED : Fld := fld 0x10108 16 16 0 0

/-- HST_ING_BOUND.BOUND, bits [15:0], RO, reset 0 (R148). -/
def HST_ING_BOUND_BOUND : Fld := fld 0x1010C 0 16 0 0

/-- HST_ING_BOUND.LIVE, bits [31:16], RO, reset 0 (R148). -/
def HST_ING_BOUND_LIVE : Fld := fld 0x1010C 16 16 0 0

/-- HST_ING_SCHED.ENTRIES, bits [16:0], RO, reset 0 (R148). -/
def HST_ING_SCHED_ENTRIES : Fld := fld 0x10110 0 17 0 0

/-- HST_ING_DUP.COUNT, bits [31:0], RC, reset 0 (R148). -/
def HST_ING_DUP : Fld := fld 0x10120 0 32 0 0

/-- HST_ING_GAP.COUNT, bits [31:0], RC, reset 0 (R148). -/
def HST_ING_GAP : Fld := fld 0x10124 0 32 0 0

/-- HST_ING_UNB.COUNT, bits [31:0], RC, reset 0 (R148). -/
def HST_ING_UNB : Fld := fld 0x10128 0 32 0 0

/-- HST_ING_RING.COUNT, bits [31:0], RC, reset 0 (R148). -/
def HST_ING_RING : Fld := fld 0x1012C 0 32 0 0

/-- HST_ING_FUT.COUNT, bits [31:0], RC, reset 0 (R148). -/
def HST_ING_FUT : Fld := fld 0x10130 0 32 0 0

/-- HST_ING_OLD.COUNT, bits [31:0], RC, reset 0 (R148). -/
def HST_ING_OLD : Fld := fld 0x10134 0 32 0 0

/-- HST_ING_SOVF.COUNT, bits [31:0], RC, reset 0 (R148). -/
def HST_ING_SOVF : Fld := fld 0x10138 0 32 0 0

/-- HST_ING_LEFT.COUNT, bits [31:0], RC, reset 0 (R148). -/
def HST_ING_LEFT : Fld := fld 0x1013C 0 32 0 0

/-- HST_SSTAT.STATE, bits [2:0], RO, reset 0 (R148). -/
def HST_SSTAT_STATE (n : Nat) : Fld := fld (0x14000 + 0x4 * n) 0 3 0 0

/-- HST_SSTAT.UNANCH, bits [3], RO, reset 0 (R148). -/
def HST_SSTAT_UNANCH (n : Nat) : Fld := fld (0x14000 + 0x4 * n) 3 1 0 0

/-- HST_SSTAT.POOLED, bits [4], RO, reset 0 (R148). -/
def HST_SSTAT_POOLED (n : Nat) : Fld := fld (0x14000 + 0x4 * n) 4 1 0 0

/-- HST_SSTAT.HELD, bits [5], RO, reset 0 (R148). -/
def HST_SSTAT_HELD (n : Nat) : Fld := fld (0x14000 + 0x4 * n) 5 1 0 0

/-- HST_SSTAT.TB, bits [7:6], RO, reset 0 (R148). -/
def HST_SSTAT_TB (n : Nat) : Fld := fld (0x14000 + 0x4 * n) 6 2 0 0

/-- HST_SSTAT.LAG, bits [31:16], RO, reset 0xFFFF (R148). -/
def HST_SSTAT_LAG (n : Nat) : Fld := fld (0x14000 + 0x4 * n) 16 16 0xFFFF 0

/-- PRS_ID.MINOR, bits [15:0], RO, reset 0x0000 (R179). -/
def PRS_ID_MINOR : Fld := fld 0x20000 0 16 0 0

/-- PRS_ID.MAJOR, bits [31:16], RO, reset 0x0001 (R179). -/
def PRS_ID_MAJOR : Fld := fld 0x20000 16 16 1 0

/-- PRS_STAT.CFG, bits [3:0], RO, reset NVM(0x4) (R179). -/
def PRS_STAT_CFG : Fld := fld 0x20004 0 4 4 0

/-- PRS_STAT.SVC, bits [7:4], RO, reset 0x0 (R179). -/
def PRS_STAT_SVC : Fld := fld 0x20004 4 4 0 0

/-- PRS_STAT.TBSVC, bits [11:8], RO, reset 0x0 (R179). -/
def PRS_STAT_TBSVC : Fld := fld 0x20004 8 4 0 0

/-- PRS_STAT.QUIESCED, bits [12], RO, reset 0 (R179). -/
def PRS_STAT_QUIESCED : Fld := fld 0x20004 12 1 0 0

/-- PRS_STAT.CHG, bits [13], RO, reset 0 (R179). -/
def PRS_STAT_CHG : Fld := fld 0x20004 13 1 0 0

/-- PRS_STAT.CHGNO, bits [31:16], RO, reset 0 (R179). -/
def PRS_STAT_CHGNO : Fld := fld 0x20004 16 16 0 0

/-- PRS_SAT.LEAF, bits [0], W1C, reset 0 (R179). -/
def PRS_SAT_LEAF : Fld := fld 0x20008 0 1 0 0

/-- PRS_SAT.FOLIO, bits [1], W1C, reset 0 (R179). -/
def PRS_SAT_FOLIO : Fld := fld 0x20008 1 1 0 0

/-- PRS_SAT.QUIRE, bits [2], W1C, reset 0 (R179). -/
def PRS_SAT_QUIRE : Fld := fld 0x20008 2 1 0 0

/-- PRS_SAT.TBLK, bits [3], W1C, reset 0 (R179). -/
def PRS_SAT_TBLK : Fld := fld 0x20008 3 1 0 0

/-- PRS_SAT.VOL, bits [4], W1C, reset 0 (R179). -/
def PRS_SAT_VOL : Fld := fld 0x20008 4 1 0 0

/-- PRS_BAR_LIM.FOLIO, bits [7:0], RW, reset NVM(10) (R179). -/
def PRS_BAR_LIM_FOLIO : Fld := fld 0x2000C 0 8 10 0

/-- PRS_BAR_LIM.QUIRE, bits [15:8], RW, reset NVM(20) (R179). -/
def PRS_BAR_LIM_QUIRE : Fld := fld 0x2000C 8 8 20 0

/-- PRS_BAR_LIM.TBLK, bits [23:16], RW, reset NVM(40) (R179). -/
def PRS_BAR_LIM_TBLK : Fld := fld 0x2000C 16 8 40 0

/-- PRS_BAR_LIM.VOL, bits [31:24], RW, reset NVM(80) (R179). -/
def PRS_BAR_LIM_VOL : Fld := fld 0x2000C 24 8 80 0

/-- PRS_SCRUB_CTL.EN, bits [0], RW, reset NVM(1) (R179). -/
def PRS_SCRUB_CTL_EN : Fld := fld 0x20010 0 1 1 0

/-- PRS_SCRUB_CTL.HOURS, bits [15:8], RW, reset NVM(8) (R179). -/
def PRS_SCRUB_CTL_HOURS : Fld := fld 0x20010 8 8 8 0

/-- PRS_SCRUB_CTL.CETHR, bits [23:16], RW, reset NVM(3) (R179). -/
def PRS_SCRUB_CTL_CETHR : Fld := fld 0x20010 16 8 3 0

/-- PRS_SCRUB_STAT.PROG0, bits [7:0], RO, reset 0 (R179). -/
def PRS_SCRUB_STAT_PROG0 : Fld := fld 0x20014 0 8 0 0

/-- PRS_SCRUB_STAT.PROG1, bits [15:8], RO, reset 0 (R179). -/
def PRS_SCRUB_STAT_PROG1 : Fld := fld 0x20014 8 8 0 0

/-- PRS_SCRUB_STAT.PROG2, bits [23:16], RO, reset 0 (R179). -/
def PRS_SCRUB_STAT_PROG2 : Fld := fld 0x20014 16 8 0 0

/-- PRS_SCRUB_STAT.PROG3, bits [31:24], RO, reset 0 (R179). -/
def PRS_SCRUB_STAT_PROG3 : Fld := fld 0x20014 24 8 0 0

/-- PRS_SPN_ERR.CE, bits [15:0], RC, reset 0 (R179). -/
def PRS_SPN_ERR_CE : Fld := fld 0x20018 0 16 0 0

/-- PRS_SPN_ERR.UE, bits [31:16], RC, reset 0 (R179). -/
def PRS_SPN_ERR_UE : Fld := fld 0x20018 16 16 0 0

/-- PRS_ASAT.ALIGN, bits [0], W1C, reset 0 (R201). -/
def PRS_ASAT_ALIGN : Fld := fld 0x20020 0 1 0 0

/-- PRS_ASAT.RESC, bits [1], W1C, reset 0 (R201). -/
def PRS_ASAT_RESC : Fld := fld 0x20020 1 1 0 0

/-- PRS_ASAT.OUT, bits [2], W1C, reset 0 (R201). -/
def PRS_ASAT_OUT : Fld := fld 0x20020 2 1 0 0

/-- PRS_ASAT.ELEM, bits [3], W1C, reset 0 (R201). -/
def PRS_ASAT_ELEM : Fld := fld 0x20020 3 1 0 0

/-- PRS_ASAT.EXPLO, bits [4], W1C, reset 0 (R201). -/
def PRS_ASAT_EXPLO : Fld := fld 0x20020 4 1 0 0

/-- PRS_ASAT_CNT.COUNT, bits [31:0], RC, reset 0 (R201). -/
def PRS_ASAT_CNT : Fld := fld 0x20024 0 32 0 0

/-- PRS_ASAT_POS.SORT, bits [15:0], RO, reset 0 (R201). -/
def PRS_ASAT_POS_SORT : Fld := fld 0x20028 0 16 0 0

/-- PRS_ASAT_POS.FORME, bits [23:16], RO, reset 0 (R201). -/
def PRS_ASAT_POS_FORME : Fld := fld 0x20028 16 8 0 0

/-- PRS_ASAT_POS.TB, bits [25:24], RO, reset 0 (R201). -/
def PRS_ASAT_POS_TB : Fld := fld 0x20028 24 2 0 0

/-- PRS_ASAT_POS.KIND, bits [29:26], RO, reset 0 (R201). -/
def PRS_ASAT_POS_KIND : Fld := fld 0x20028 26 4 0 0

/-- PRS_ASAT_POS.VALID, bits [31], W1C, reset 0 (R201). -/
def PRS_ASAT_POS_VALID : Fld := fld 0x20028 31 1 0 0

/-- PRS_TB_STAT.STATE, bits [1:0], RO, reset 0 (R179). -/
def PRS_TB_STAT_STATE (n : Nat) : Fld := fld (0x20100 + 0x40 * n) 0 2 0 0

/-- PRS_TB_STAT.QUIESCED, bits [2], RO, reset 0 (R179). -/
def PRS_TB_STAT_QUIESCED (n : Nat) : Fld := fld (0x20100 + 0x40 * n) 2 1 0 0

/-- PRS_TB_STAT.SCRUB, bits [3], RO, reset 0 (R179). -/
def PRS_TB_STAT_SCRUB (n : Nat) : Fld := fld (0x20100 + 0x40 * n) 3 1 0 0

/-- PRS_TB_STAT.MR, bits [9:8], RO, reset 0 (R179). -/
def PRS_TB_STAT_MR (n : Nat) : Fld := fld (0x20100 + 0x40 * n) 8 2 0 0

/-- PRS_TB_QMAP.SVC, bits [7:0], RO, reset 0 (R179). -/
def PRS_TB_QMAP_SVC (n : Nat) : Fld := fld (0x20104 + 0x40 * n) 0 8 0 0

/-- PRS_TB_QMAP.LOST, bits [15:8], RO, reset 0 (R179). -/
def PRS_TB_QMAP_LOST (n : Nat) : Fld := fld (0x20104 + 0x40 * n) 8 8 0 0

/-- PRS_TB_SPARE.LEAF, bits [7:0], RO, reset 128 (R179). -/
def PRS_TB_SPARE_LEAF (n : Nat) : Fld := fld (0x20108 + 0x40 * n) 0 8 128 0

/-- PRS_TB_SPARE.FOLIO, bits [11:8], RO, reset 8 (R179). -/
def PRS_TB_SPARE_FOLIO (n : Nat) : Fld := fld (0x20108 + 0x40 * n) 8 4 8 0

/-- PRS_TB_SPARE.BANK, bits [16:12], RO, reset 16 (R179). -/
def PRS_TB_SPARE_BANK (n : Nat) : Fld := fld (0x20108 + 0x40 * n) 12 5 16 0

/-- PRS_TB_SPARE.ROWSP, bits [31:17], RO, reset 0 (R179). -/
def PRS_TB_SPARE_ROWSP (n : Nat) : Fld := fld (0x20108 + 0x40 * n) 17 15 0 0

/-- PRS_TB_CE.COUNT, bits [31:0], RC, reset 0 (R179). -/
def PRS_TB_CE (n : Nat) : Fld := fld (0x2010C + 0x40 * n) 0 32 0 0

/-- PRS_TB_UE.COUNT, bits [31:0], RC, reset 0 (R179). -/
def PRS_TB_UE (n : Nat) : Fld := fld (0x20110 + 0x40 * n) 0 32 0 0

/-- PRS_TB_EADDR.ADDR, bits [31:0], RO, reset 0 (R179). -/
def PRS_TB_EADDR (n : Nat) : Fld := fld (0x20114 + 0x40 * n) 0 64 0 0

/-- PRS_TB_EINFO.REGION, bits [2:0], RO, reset 0 (R179). -/
def PRS_TB_EINFO_REGION (n : Nat) : Fld := fld (0x2011C + 0x40 * n) 0 3 0 0

/-- PRS_TB_EINFO.SCRUB, bits [8], RO, reset 0 (R179). -/
def PRS_TB_EINFO_SCRUB (n : Nat) : Fld := fld (0x2011C + 0x40 * n) 8 1 0 0

/-- PRS_TB_EINFO.LATCHED, bits [31], W1C, reset 0 (R179). -/
def PRS_TB_EINFO_LATCHED (n : Nat) : Fld := fld (0x2011C + 0x40 * n) 31 1 0 0

/-- PRS_TB_TEMP.TJ, bits [15:0], RO, reset 0 (R179). -/
def PRS_TB_TEMP_TJ (n : Nat) : Fld := fld (0x20120 + 0x40 * n) 0 16 0 0

/-- PRS_TB_TEMP.MAX, bits [31:16], RO, reset 0 (R179). -/
def PRS_TB_TEMP_MAX (n : Nat) : Fld := fld (0x20120 + 0x40 * n) 16 16 0 0

/-- PRS_FCTL.RUN, bits [0], RW, reset NVM(1) (R242). -/
def PRS_FCTL_RUN : Fld := fld 0x21000 0 1 1 0

/-- PRS_FCTL.PLANDIV, bits [15:8], RW, reset NVM(50) (R242). -/
def PRS_FCTL_PLANDIV : Fld := fld 0x21000 8 8 50 0

/-- PRS_FCTL.PBUDGET, bits [31:16], RW, reset NVM(18000) (R242). -/
def PRS_FCTL_PBUDGET : Fld := fld 0x21000 16 16 0x4650 0

/-- PRS_FSTAT.NPROOF, bits [2:0], RO, reset 0 (R242). -/
def PRS_FSTAT_NPROOF : Fld := fld 0x21004 0 3 0 0

/-- PRS_FSTAT.PLAN, bits [3], RO, reset 0 (R242). -/
def PRS_FSTAT_PLAN : Fld := fld 0x21004 3 1 0 0

/-- PRS_FSTAT.LOADING, bits [4], RO, reset 0 (R242). -/
def PRS_FSTAT_LOADING : Fld := fld 0x21004 4 1 0 0

/-- PRS_FSTAT.STAGED, bits [5], RO, reset 0 (R242). -/
def PRS_FSTAT_STAGED : Fld := fld 0x21004 5 1 0 0

/-- PRS_FSTAT.NOVAR, bits [6], RO, reset 0 (R242). -/
def PRS_FSTAT_NOVAR : Fld := fld 0x21004 6 1 0 0

/-- PRS_FSTAT.LASTREF, bits [23:16], RO, reset 0 (R242). -/
def PRS_FSTAT_LASTREF : Fld := fld 0x21004 16 8 0 0

/-- PRS_FSTAT.LASTSLOT, bits [31:24], RO, reset 0 (R242). -/
def PRS_FSTAT_LASTSLOT : Fld := fld 0x21004 24 8 0 0

/-- PRS_FCYC.LAST, bits [15:0], RO, reset 0 (R242). -/
def PRS_FCYC_LAST : Fld := fld 0x21008 0 16 0 0

/-- PRS_FCYC.MAX, bits [31:16], RO, reset 0 (R242). -/
def PRS_FCYC_MAX : Fld := fld 0x21008 16 16 0 0

/-- PRS_FABANDON.COUNT, bits [31:0], RC, reset 0 (R242). -/
def PRS_FABANDON : Fld := fld 0x2100C 0 32 0 0

/-- PRS_GAL_CTL.BAND, bits [7:0], RW, reset NVM(40) (R271). -/
def PRS_GAL_CTL_BAND : Fld := fld 0x22000 0 8 40 0

/-- PRS_GAL_CTL.BMIN, bits [15:8], RW, reset NVM(10) (R271). -/
def PRS_GAL_CTL_BMIN : Fld := fld 0x22000 8 8 10 0

/-- PRS_GAL_CTL.BMAX, bits [23:16], RW, reset NVM(80) (R271). -/
def PRS_GAL_CTL_BMAX : Fld := fld 0x22000 16 8 80 0

/-- PRS_GAL_CTL.WIDEN, bits [26:24], RW, reset NVM(2) (R271). -/
def PRS_GAL_CTL_WIDEN : Fld := fld 0x22000 24 3 2 0

/-- PRS_GAL_CTL.PLANAGE, bits [31:28], RW, reset NVM(3) (R271). -/
def PRS_GAL_CTL_PLANAGE : Fld := fld 0x22000 28 4 3 0

/-- PRS_GAL_RB.ISTR, bits [15:0], RW, reset NVM(2000) (R271). -/
def PRS_GAL_RB_ISTR : Fld := fld 0x22004 0 16 2000 0

/-- PRS_GAL_RB.VTRIM, bits [31:16], RW, reset NVM(100) (R271). -/
def PRS_GAL_RB_VTRIM : Fld := fld 0x22004 16 16 100 0

/-- PRS_GAL_REF.LEAD, bits [7:0], RW, reset NVM(5) (R271). -/
def PRS_GAL_REF_LEAD : Fld := fld 0x22008 0 8 5 0

/-- PRS_GAL_REF.ARMWIN, bits [15:8], RW, reset NVM(64) (R271). -/
def PRS_GAL_REF_ARMWIN : Fld := fld 0x22008 8 8 64 0

/-- PRS_GAL_REF.ARMHOLD, bits [23:16], RW, reset NVM(20) (R271). -/
def PRS_GAL_REF_ARMHOLD : Fld := fld 0x22008 16 8 20 0

/-- PRS_GAL_EXP.DIV, bits [7:0], RW, reset NVM(50) (R271). -/
def PRS_GAL_EXP_DIV : Fld := fld 0x2200C 0 8 50 0

/-- PRS_GAL_EXP.WHEN, bits [8], RW, reset NVM(0) (R271). -/
def PRS_GAL_EXP_WHEN : Fld := fld 0x2200C 8 1 0 0

/-- PRS_GAL_EXP.MODE, bits [10:9], RW, reset NVM(0) (R271). -/
def PRS_GAL_EXP_MODE : Fld := fld 0x2200C 9 2 0 0

/-- PRS_GAL_STAT.GOVST, bits [2:0], RO, reset 0 (R271). -/
def PRS_GAL_STAT_GOVST : Fld := fld 0x22010 0 3 0 0

/-- PRS_GAL_STAT.RB, bits [3], RO, reset 0 (R271). -/
def PRS_GAL_STAT_RB : Fld := fld 0x22010 3 1 0 0

/-- PRS_GAL_STAT.BLIND, bits [5:4], RO, reset 1 (R271). -/
def PRS_GAL_STAT_BLIND : Fld := fld 0x22010 4 2 1 0

/-- PRS_GAL_STAT.PLAN, bits [6], RO, reset 0 (R271). -/
def PRS_GAL_STAT_PLAN : Fld := fld 0x22010 6 1 0 0

/-- PRS_GAL_STAT.GOVP, bits [10:8], RO, reset 0 (R271). -/
def PRS_GAL_STAT_GOVP : Fld := fld 0x22010 8 3 0 0

/-- PRS_GAL_STAT.GOVPV, bits [11], RO, reset 0 (R271). -/
def PRS_GAL_STAT_GOVPV : Fld := fld 0x22010 11 1 0 0

/-- PRS_GAL_STAT.GOVI, bits [14:12], RO, reset 0 (R271). -/
def PRS_GAL_STAT_GOVI : Fld := fld 0x22010 12 3 0 0

/-- PRS_GAL_STAT.GOVIV, bits [15], RO, reset 0 (R271). -/
def PRS_GAL_STAT_GOVIV : Fld := fld 0x22010 15 1 0 0

/-- PRS_GAL_SHARE.SIGMA, bits [16:0], RO, reset 0 (R271). -/
def PRS_GAL_SHARE_SIGMA : Fld := fld 0x22014 0 17 0 0

/-- PRS_GAL_CYC.CYCLE, bits [31:0], RO, reset 0 (R271). -/
def PRS_GAL_CYC : Fld := fld 0x22018 0 64 0 0

/-- PRS_GAL_CONF.COUNT, bits [31:0], RC, reset 0 (R271). -/
def PRS_GAL_CONF : Fld := fld 0x22020 0 32 0 0

/-- PRS_GAL_WDRAW.COUNT, bits [31:0], RC, reset 0 (R271). -/
def PRS_GAL_WDRAW : Fld := fld 0x22024 0 32 0 0

/-- PRS_GAL_VOID.COUNT, bits [31:0], RC, reset 0 (R271). -/
def PRS_GAL_VOID : Fld := fld 0x22028 0 32 0 0

/-- PRS_GAL_STALE.COUNT, bits [31:0], RC, reset 0 (R271). -/
def PRS_GAL_STALE : Fld := fld 0x2202C 0 32 0 0

/-- PRS_GAL_PDISC.COUNT, bits [31:0], RC, reset 0 (R271). -/
def PRS_GAL_PDISC : Fld := fld 0x22030 0 32 0 0

/-- PRS_GAL_LASTDEV.DEV, bits [31:0], RO, reset 0 (R271). -/
def PRS_GAL_LASTDEV : Fld := fld 0x22034 0 32 0 0

/-- PRS_TRN_CTL.POLICY, bits [1:0], RW, reset NVM(1) (R294). -/
def PRS_TRN_CTL_POLICY : Fld := fld 0x23000 0 2 1 0

/-- PRS_TRN_CTL.SHARE, bits [15:8], RW, reset NVM(46) (R294). -/
def PRS_TRN_CTL_SHARE : Fld := fld 0x23000 8 8 46 0

/-- PRS_TRN_CTL.SHDIV, bits [19:16], RW, reset NVM(10) (R294). -/
def PRS_TRN_CTL_SHDIV : Fld := fld 0x23000 16 4 10 0

/-- PRS_TRN_CTL.MARGIN, bits [31:24], RW, reset NVM(32) (R294). -/
def PRS_TRN_CTL_MARGIN : Fld := fld 0x23000 24 8 32 0

/-- PRS_TRN_CTL2.CAPDIV, bits [15:0], RW, reset NVM(5000) (R294). -/
def PRS_TRN_CTL2_CAPDIV : Fld := fld 0x23004 0 16 0x1388 0

/-- PRS_TRN_CTL2.OFFER, bits [23:16], RW, reset NVM(60) (R294). -/
def PRS_TRN_CTL2_OFFER : Fld := fld 0x23004 16 8 60 0

/-- PRS_TRN_CTL2.PROBE, bits [31:24], RW, reset NVM(10) (R294). -/
def PRS_TRN_CTL2_PROBE : Fld := fld 0x23004 24 8 10 0

/-- PRS_TRN_CTL3.MINCYC, bits [15:0], RW, reset NVM(50) (R294). -/
def PRS_TRN_CTL3_MINCYC : Fld := fld 0x23008 0 16 50 0

/-- PRS_TRN_CTL3.CKPT, bits [31:16], RW, reset NVM(60) (R294). -/
def PRS_TRN_CTL3_CKPT : Fld := fld 0x23008 16 16 60 0

/-- PRS_TRN_STAT.STATE, bits [2:0], RO, reset 0 (R294). -/
def PRS_TRN_STAT_STATE : Fld := fld 0x2300C 0 3 0 0

/-- PRS_TRN_STAT.PROBE, bits [3], RO, reset 0 (R294). -/
def PRS_TRN_STAT_PROBE : Fld := fld 0x2300C 3 1 0 0

/-- PRS_TRN_STAT.PRIOR, bits [4], RO, reset 0 (R294). -/
def PRS_TRN_STAT_PRIOR : Fld := fld 0x2300C 4 1 0 0

/-- PRS_TRN_STAT.EPOCH, bits [5], RO, reset 0 (R294). -/
def PRS_TRN_STAT_EPOCH : Fld := fld 0x2300C 5 1 0 0

/-- PRS_TRN_STAT.HCAUSE, bits [10:8], RO, reset 0 (R294). -/
def PRS_TRN_STAT_HCAUSE : Fld := fld 0x2300C 8 3 0 0

/-- PRS_TRN_STAT.NCAP, bits [31:16], RO, reset 0 (R294). -/
def PRS_TRN_STAT_NCAP : Fld := fld 0x2300C 16 16 0 0

/-- PRS_TRN_STEP.VALUE, bits [31:0], RO, reset 0 (R294). -/
def PRS_TRN_STEP : Fld := fld 0x23010 0 32 0 0

/-- PRS_TRN_GEN.VALUE, bits [31:0], RO, reset 0 (R294). -/
def PRS_TRN_GEN : Fld := fld 0x23014 0 32 0 0

/-- PRS_TRN_MATCH.COUNT, bits [31:0], RO, reset 0 (R294). -/
def PRS_TRN_MATCH : Fld := fld 0x23018 0 32 0 0

/-- PRS_TRN_ELIVE.SUM, bits [31:0], RO, reset 0 (R294). -/
def PRS_TRN_ELIVE : Fld := fld 0x2301C 0 64 0 0

/-- PRS_TRN_ECAND.SUM, bits [31:0], RO, reset 0 (R294). -/
def PRS_TRN_ECAND : Fld := fld 0x23024 0 64 0 0

/-- PRS_TRN_WITH.WLIVE, bits [15:0], RO, reset 0 (R294). -/
def PRS_TRN_WITH_WLIVE : Fld := fld 0x2302C 0 16 0 0

/-- PRS_TRN_WITH.WCAND, bits [31:16], RO, reset 0 (R294). -/
def PRS_TRN_WITH_WCAND : Fld := fld 0x2302C 16 16 0 0

/-- PRS_TRN_SKIP.COUNT, bits [31:0], RC, reset 0 (R294). -/
def PRS_TRN_SKIP : Fld := fld 0x23030 0 32 0 0

/-- PRS_SLOT_STAT.STATE, bits [2:0], RO, reset 0 (R242). -/
def PRS_SLOT_STAT_STATE (n : Nat) : Fld := fld (0x24000 + 0x10 * n) 0 3 0 0

/-- PRS_SLOT_STAT.EN, bits [3], RO, reset 0 (R242). -/
def PRS_SLOT_STAT_EN (n : Nat) : Fld := fld (0x24000 + 0x10 * n) 3 1 0 0

/-- PRS_SLOT_STAT.KIND, bits [5:4], RO, reset 0 (R242). -/
def PRS_SLOT_STAT_KIND (n : Nat) : Fld := fld (0x24000 + 0x10 * n) 4 2 0 0

/-- PRS_SLOT_STAT.VAR, bits [11:8], RO, reset 0 (R242). -/
def PRS_SLOT_STAT_VAR (n : Nat) : Fld := fld (0x24000 + 0x10 * n) 8 4 0 0

/-- PRS_SLOT_STAT.CHGNO, bits [31:16], RO, reset 0 (R242). -/
def PRS_SLOT_STAT_CHGNO (n : Nat) : Fld := fld (0x24000 + 0x10 * n) 16 16 0 0

/-- PRS_SLOT_WCYC.VALUE, bits [31:0], RO, reset 0 (R242). -/
def PRS_SLOT_WCYC (n : Nat) : Fld := fld (0x24004 + 0x10 * n) 0 32 0 0

/-- PRS_SLOT_FID.VALUE, bits [31:0], RO, reset 0 (R242). -/
def PRS_SLOT_FID (n : Nat) : Fld := fld (0x24008 + 0x10 * n) 0 32 0 0

/-- PRS_SLOT_FVER.VALUE, bits [31:0], RO, reset 0 (R242). -/
def PRS_SLOT_FVER (n : Nat) : Fld := fld (0x2400C + 0x10 * n) 0 32 0 0

/-- CHS_ID.MINOR, bits [15:0], RO, reset 0x0000 (R331). -/
def CHS_ID_MINOR : Fld := fld 0x30000 0 16 0 0

/-- CHS_ID.MAJOR, bits [31:16], RO, reset 0x0001 (R331). -/
def CHS_ID_MAJOR : Fld := fld 0x30000 16 16 1 0

/-- CHS_STAT.LAW, bits [0], RO, reset 0 (R331). -/
def CHS_STAT_LAW : Fld := fld 0x30004 0 1 0 0

/-- CHS_STAT.TOKEN, bits [1], RO, reset 0 (R331). -/
def CHS_STAT_TOKEN : Fld := fld 0x30004 1 1 0 0

/-- CHS_STAT.SOFT, bits [2], RO, reset 0 (R331). -/
def CHS_STAT_SOFT : Fld := fld 0x30004 2 1 0 0

/-- CHS_STAT.CHG, bits [3], RO, reset 0 (R331). -/
def CHS_STAT_CHG : Fld := fld 0x30004 3 1 0 0

/-- CHS_STAT.RBK, bits [4], RO, reset 0 (R331). -/
def CHS_STAT_RBK : Fld := fld 0x30004 4 1 0 0

/-- CHS_STAT.WINARM, bits [5], RO, reset 0 (R331). -/
def CHS_STAT_WINARM : Fld := fld 0x30004 5 1 0 0

/-- CHS_STAT.OVRC, bits [7:6], RO, reset 0 (R331). -/
def CHS_STAT_OVRC : Fld := fld 0x30004 6 2 0 0

/-- CHS_STAT.LANES, bits [12:8], RO, reset 16 (R331). -/
def CHS_STAT_LANES : Fld := fld 0x30004 8 5 16 0

/-- CHS_STAT.SPLANE, bits [14:13], RO, reset 2 (R331). -/
def CHS_STAT_SPLANE : Fld := fld 0x30004 13 2 2 0

/-- CHS_STAT.OPEN, bits [31:16], RO, reset 0 (R331). -/
def CHS_STAT_OPEN : Fld := fld 0x30004 16 16 0 0

/-- CHS_PERIOD.CYC, bits [11:0], RO, reset NVM(1000) (R331). -/
def CHS_PERIOD_CYC : Fld := fld 0x30008 0 12 1000 0

/-- CHS_CFG.OPENMAX, bits [15:0], RW, reset NVM(200) (R331). -/
def CHS_CFG_OPENMAX : Fld := fld 0x3000C 0 16 200 0

/-- CHS_CFG.RETURN, bits [31:16], RW, reset NVM(20000) (R331). -/
def CHS_CFG_RETURN : Fld := fld 0x3000C 16 16 0x4E20 0

/-- CHS_PNUM.VALUE, bits [31:0], RO, reset 0 (R331). -/
def CHS_PNUM : Fld := fld 0x30010 0 64 0 0

/-- CHS_TIME.VALUE, bits [31:0], RO, reset 0 (R331). -/
def CHS_TIME : Fld := fld 0x30018 0 64 0 0

/-- CHS_LAWCYC.LAST, bits [15:0], RO, reset 0 (R331). -/
def CHS_LAWCYC_LAST : Fld := fld 0x30020 0 16 0 0

/-- CHS_LAWCYC.MAX, bits [31:16], RO, reset 0 (R331). -/
def CHS_LAWCYC_MAX : Fld := fld 0x30020 16 16 0 0

/-- CHS_OVR.COUNT, bits [31:0], RC, reset 0 (R331). -/
def CHS_OVR : Fld := fld 0x30024 0 32 0 0

/-- CHS_IMP.LEAD, bits [7:0], RW, reset NVM(40) (R331). -/
def CHS_IMP_LEAD : Fld := fld 0x30028 0 8 40 0

/-- CHS_IMP.DEFER, bits [23:8], RW, reset NVM(100) (R331). -/
def CHS_IMP_DEFER : Fld := fld 0x30028 8 16 100 0

/-- CHS_IMPSTAT.QUEUED, bits [4:0], RO, reset 0 (R331). -/
def CHS_IMPSTAT_QUEUED : Fld := fld 0x3002C 0 5 0 0

/-- CHS_IMPSTAT.STEP, bits [11:8], RO, reset 0 (R331). -/
def CHS_IMPSTAT_STEP : Fld := fld 0x3002C 8 4 0 0

/-- CHS_IMPSTAT.NSTEP, bits [15:12], RO, reset 0 (R331). -/
def CHS_IMPSTAT_NSTEP : Fld := fld 0x3002C 12 4 0 0

/-- CHS_IMPSTAT.CHGNO, bits [31:16], RO, reset 0 (R331). -/
def CHS_IMPSTAT_CHGNO : Fld := fld 0x3002C 16 16 0 0

/-- CHS_WIN0.VBURST, bits [15:0], RW, reset NVM(7840) (R331). -/
def CHS_WIN0_VBURST : Fld := fld 0x30030 0 16 0x1EA0 0

/-- CHS_WIN0.DVDT, bits [31:16], RW, reset NVM(60) (R331). -/
def CHS_WIN0_DVDT : Fld := fld 0x30030 16 16 60 0

/-- CHS_WIN1.VOVP, bits [15:0], RW, reset NVM(8500) (R331). -/
def CHS_WIN1_VOVP : Fld := fld 0x30034 0 16 0x2134 0

/-- CHS_WIN1.VOVR, bits [31:16], RW, reset NVM(8300) (R331). -/
def CHS_WIN1_VOVR : Fld := fld 0x30034 16 16 0x206C 0

/-- CHS_BUSV.L0, bits [5:0], RW, reset NVM(0) (R331). -/
def CHS_BUSV_L0 : Fld := fld 0x30038 0 6 0 0

/-- CHS_BUSV.L1, bits [13:8], RW, reset NVM(13) (R331). -/
def CHS_BUSV_L1 : Fld := fld 0x30038 8 6 13 0

/-- CHS_BUSV.L2, bits [21:16], RW, reset NVM(26) (R331). -/
def CHS_BUSV_L2 : Fld := fld 0x30038 16 6 26 0

/-- CHS_SOFT.SLOPE, bits [15:0], RW, reset NVM(20) (R331). -/
def CHS_SOFT_SLOPE : Fld := fld 0x3003C 0 16 20 0

/-- CHS_VBUS.VALUE, bits [31:0], RO, reset 0 (R331). -/
def CHS_VBUS : Fld := fld 0x30040 0 32 0 0

/-- CHS_IOUT.VALUE, bits [31:0], RO, reset 0 (R331). -/
def CHS_IOUT : Fld := fld 0x30044 0 32 0 0

/-- CHS_PGRID.VALUE, bits [31:0], RO, reset 0 (R331). -/
def CHS_PGRID : Fld := fld 0x30048 0 32 0 0

/-- CHS_FESTAT.CAUSE, bits [0], W1C, reset 0 (R331). -/
def CHS_FESTAT_CAUSE : Fld := fld 0x3004C 0 1 0 0

/-- CHS_FESTAT.NFE, bits [15:8], RO, reset 0 (R331). -/
def CHS_FESTAT_NFE : Fld := fld 0x3004C 8 8 0 0

/-- CHS_WREF.REASON, bits [7:0], RO, reset 0 (R331). -/
def CHS_WREF_REASON : Fld := fld 0x30050 0 8 0 0

/-- CHS_WREF.OFFSET, bits [19:8], RO, reset 0 (R331). -/
def CHS_WREF_OFFSET : Fld := fld 0x30050 8 12 0 0

/-- CHS_WREF.VALID, bits [31], W1C, reset 0 (R331). -/
def CHS_WREF_VALID : Fld := fld 0x30050 31 1 0 0

/-- CHS_LSEL.LOOP, bits [7:0], RW, reset 0 (R331). -/
def CHS_LSEL_LOOP : Fld := fld 0x30080 0 8 0 0

/-- CHS_LSEL.BANK, bits [8], RW, reset 0 (R331). -/
def CHS_LSEL_BANK : Fld := fld 0x30080 8 1 0 0

/-- CHS_LSTAT.OPEN, bits [0], RO, reset 1 (R331). -/
def CHS_LSTAT_OPEN (i : Nat) : Fld := fld 0x30084 0 1 1 i

/-- CHS_LSTAT.ACT, bits [1], RO, reset 0 (R331). -/
def CHS_LSTAT_ACT (i : Nat) : Fld := fld 0x30084 1 1 0 i

/-- CHS_LSTAT.SAT, bits [2], RO, reset 0 (R331). -/
def CHS_LSTAT_SAT (i : Nat) : Fld := fld 0x30084 2 1 0 i

/-- CHS_LSTAT.FE, bits [3], RO, reset 0 (R331). -/
def CHS_LSTAT_FE (i : Nat) : Fld := fld 0x30084 3 1 0 i

/-- CHS_LSTAT.INSVC, bits [4], RO, reset 0 (R331). -/
def CHS_LSTAT_INSVC (i : Nat) : Fld := fld 0x30084 4 1 0 i

/-- CHS_LSTAT.HOLD, bits [5], RO, reset 0 (R331). -/
def CHS_LSTAT_HOLD (i : Nat) : Fld := fld 0x30084 5 1 0 i

/-- CHS_LSTAT.FECNT, bits [31:16], RO, reset 0 (R331). -/
def CHS_LSTAT_FECNT (i : Nat) : Fld := fld 0x30084 16 16 0 i

/-- CHS_LKP.VALUE, bits [31:0], RO, reset NVM (R331). -/
def CHS_LKP (i : Nat) : Fld := fld 0x30088 0 32 0 i

/-- CHS_LKI.VALUE, bits [31:0], RO, reset NVM (R331). -/
def CHS_LKI (i : Nat) : Fld := fld 0x3008C 0 32 0 i

/-- CHS_LULO.VALUE, bits [31:0], RO, reset NVM (R331). -/
def CHS_LULO (i : Nat) : Fld := fld 0x30090 0 32 0 i

/-- CHS_LUHI.VALUE, bits [31:0], RO, reset NVM (R331). -/
def CHS_LUHI (i : Nat) : Fld := fld 0x30094 0 32 0 i

/-- CHS_LSLEW.VALUE, bits [31:0], RO, reset NVM (R331). -/
def CHS_LSLEW (i : Nat) : Fld := fld 0x30098 0 32 0 i

/-- CHS_LFEL.VALUE, bits [31:0], RO, reset NVM (R331). -/
def CHS_LFEL (i : Nat) : Fld := fld 0x3009C 0 32 0 i

/-- CHS_LFET.FET, bits [15:0], RO, reset NVM (R331). -/
def CHS_LFET_FET (i : Nat) : Fld := fld 0x300A0 0 16 0 i

/-- CHS_LFET.PER, bits [17:16], RO, reset NVM (R331). -/
def CHS_LFET_PER (i : Nat) : Fld := fld 0x300A0 16 2 0 i

/-- CHS_LOUT.VALUE, bits [31:0], RO, reset 0 (R331). -/
def CHS_LOUT (i : Nat) : Fld := fld 0x300A4 0 32 0 i

/-- CHS_LERR.VALUE, bits [31:0], RO, reset 0 (R331). -/
def CHS_LERR (i : Nat) : Fld := fld 0x300A8 0 32 0 i

/-- CHS_LX.X, bits [31:0], RO, reset 0 (R331). -/
def CHS_LX (i : Nat) : Fld := fld 0x300AC 0 64 0 i

/-- CHS_FESUM.FE, bits [31:0], W1C, reset 0 (R331). -/
def CHS_FESUM (n : Nat) : Fld := fld (0x30100 + 0x4 * n) 0 32 0 0

/-- CHS_OPENSUM.OPEN, bits [31:0], RO, reset 0xFFFF_FFFF (R331). -/
def CHS_OPENSUM (n : Nat) : Fld := fld (0x30120 + 0x4 * n) 0 32 0xFFFFFFFF 0

/-- CHS_RMP_STAT.CLASS, bits [0], RO, reset 0 (R415). -/
def CHS_RMP_STAT_CLASS : Fld := fld 0x30200 0 1 0 0

/-- CHS_RMP_STAT.WINGOV, bits [1], RO, reset 0 (R415). -/
def CHS_RMP_STAT_WINGOV : Fld := fld 0x30200 1 1 0 0

/-- CHS_RMP_STAT.CLAMPUP, bits [2], RO, reset 0 (R415). -/
def CHS_RMP_STAT_CLAMPUP : Fld := fld 0x30200 2 1 0 0

/-- CHS_RMP_STAT.CLAMPDN, bits [3], RO, reset 0 (R415). -/
def CHS_RMP_STAT_CLAMPDN : Fld := fld 0x30200 3 1 0 0

/-- CHS_RMP_STAT.HOLD, bits [4], RO, reset 0 (R415). -/
def CHS_RMP_STAT_HOLD : Fld := fld 0x30200 4 1 0 0

/-- CHS_RMP_STAT.BREACH, bits [5], RO, reset 0 (R415). -/
def CHS_RMP_STAT_BREACH : Fld := fld 0x30200 5 1 0 0

/-- CHS_RMP_SUP.VALUE, bits [31:0], RO, reset 0 (R415). -/
def CHS_RMP_SUP : Fld := fld 0x30204 0 32 0 0

/-- CHS_RMP_SDN.VALUE, bits [31:0], RO, reset 0 (R415). -/
def CHS_RMP_SDN : Fld := fld 0x30208 0 32 0 0

/-- CHS_RMP_PMIN.VALUE, bits [31:0], RO, reset 0 (R415). -/
def CHS_RMP_PMIN : Fld := fld 0x3020C 0 32 0 0

/-- CHS_RMP_PMAX.VALUE, bits [31:0], RO, reset 0 (R415). -/
def CHS_RMP_PMAX : Fld := fld 0x30210 0 32 0 0

/-- CHS_RMP_OUT.VALUE, bits [31:0], RO, reset 0 (R415). -/
def CHS_RMP_OUT : Fld := fld 0x30214 0 32 0 0

/-- CHS_RMP_BRCH.COUNT, bits [31:0], RC, reset 0 (R415). -/
def CHS_RMP_BRCH : Fld := fld 0x30218 0 32 0 0

/-- CHS_COOL_CTL.DER1, bits [7:0], RW, reset NVM(50) (R415). -/
def CHS_COOL_CTL_DER1 : Fld := fld 0x30220 0 8 50 0

/-- CHS_COOL_CTL.DER0, bits [15:8], RW, reset NVM(0) (R415). -/
def CHS_COOL_CTL_DER0 : Fld := fld 0x30220 8 8 0 0

/-- CHS_COOL_CTL.TACHMIN, bits [23:16], RW, reset NVM(20) (R415). -/
def CHS_COOL_CTL_TACHMIN : Fld := fld 0x30220 16 8 20 0

/-- CHS_COOL_CTL.FLOWMIN, bits [31:24], RW, reset NVM(10) (R415). -/
def CHS_COOL_CTL_FLOWMIN : Fld := fld 0x30220 24 8 10 0

/-- CHS_COOL_STAT.P0OK, bits [0], RO, reset 0 (R415). -/
def CHS_COOL_STAT_P0OK : Fld := fld 0x30224 0 1 0 0

/-- CHS_COOL_STAT.P1OK, bits [1], RO, reset 0 (R415). -/
def CHS_COOL_STAT_P1OK : Fld := fld 0x30224 1 1 0 0

/-- CHS_COOL_STAT.FLOWOK, bits [2], RO, reset 0 (R415). -/
def CHS_COOL_STAT_FLOWOK : Fld := fld 0x30224 2 1 0 0

/-- CHS_COOL_STAT.PLAN, bits [3], RO, reset 0 (R415). -/
def CHS_COOL_STAT_PLAN : Fld := fld 0x30224 3 1 0 0

/-- CHS_COOL_STAT.F, bits [31:16], RO, reset 0xFFFF (R415). -/
def CHS_COOL_STAT_F : Fld := fld 0x30224 16 16 0xFFFF 0

/-- CHS_COOL_TACH.LO, bits [15:0], RO, reset 0 (R415). -/
def CHS_COOL_TACH_LO : Fld := fld 0x30228 0 16 0 0

/-- CHS_COOL_TACH.HI, bits [31:16], RO, reset 0 (R415). -/
def CHS_COOL_TACH_HI : Fld := fld 0x30228 16 16 0 0

/-- CHS_COOL_FLOW.LO, bits [15:0], RO, reset 0 (R415). -/
def CHS_COOL_FLOW_LO : Fld := fld 0x3022C 0 16 0 0

/-- CHS_COOL_FLOW.HI, bits [31:16], RO, reset 0 (R415). -/
def CHS_COOL_FLOW_HI : Fld := fld 0x3022C 16 16 0 0

/-- CHS_COOL_TEMP.LO, bits [15:0], RO, reset 0 (R415). -/
def CHS_COOL_TEMP_LO : Fld := fld 0x30230 0 16 0 0

/-- CHS_COOL_TEMP.HI, bits [31:16], RO, reset 0 (R415). -/
def CHS_COOL_TEMP_HI : Fld := fld 0x30230 16 16 0 0

/-- STL_ID.MINOR, bits [15:0], RO, reset 0x0000 (R361). -/
def STL_ID_MINOR : Fld := fld 0x40000 0 16 0 0

/-- STL_ID.MAJOR, bits [31:16], RO, reset 0x0001 (R361). -/
def STL_ID_MAJOR : Fld := fld 0x40000 16 16 1 0

/-- STL_CTL.WDOG, bits [3:0], RW, reset NVM(3) (R361). -/
def STL_CTL_WDOG : Fld := fld 0x40004 0 4 3 0

/-- STL_CTL.SPAREEN, bits [4], RW, reset NVM(0) (R361). -/
def STL_CTL_SPAREEN : Fld := fld 0x40004 4 1 0 0

/-- STL_STAT.SPARED, bits [5:0], RO, reset 0 (R361). -/
def STL_STAT_SPARED : Fld := fld 0x40008 0 6 0 0

/-- STL_STAT.SPAREV, bits [6], RO, reset 0 (R361). -/
def STL_STAT_SPAREV : Fld := fld 0x40008 6 1 0 0

/-- STL_STAT.BURST, bits [7], RO, reset 0 (R361). -/
def STL_STAT_BURST : Fld := fld 0x40008 7 1 0 0

/-- STL_STAT.NFAIL, bits [15:8], RO, reset 0 (R361). -/
def STL_STAT_NFAIL : Fld := fld 0x40008 8 8 0 0

/-- STL_STAT.NEST, bits [23:16], RO, reset 0 (R361). -/
def STL_STAT_NEST : Fld := fld 0x40008 16 8 0 0

/-- STL_UP.UP, bits [31:0], RO, reset 0 (R361). -/
def STL_UP : Fld := fld 0x40010 0 64 0 0

/-- STL_MRSET.SET, bits [31:0], RW, reset NVM(0x1111_1111), NVM(0x0000_1111) (R361). -/
def STL_MRSET : Fld := fld 0x40018 0 52 0x111111111111 0

/-- STL_SC.GRID, bits [15:0], RW, reset NVM(600) (R361). -/
def STL_SC_GRID : Fld := fld 0x40020 0 16 600 0

/-- STL_SC.STOR, bits [31:16], RW, reset NVM(300) (R361). -/
def STL_SC_STOR : Fld := fld 0x40020 16 16 300 0

/-- STL_BURST.BOFS, bits [15:0], RW, reset NVM(16384) (R361). -/
def STL_BURST_BOFS : Fld := fld 0x40024 0 16 0x4000 0

/-- STL_BURST.BURSTI, bits [31:16], RW, reset NVM(120) (R361). -/
def STL_BURST_BURSTI : Fld := fld 0x40024 16 16 120 0

/-- STL_BURST2.MAXP, bits [3:0], RW, reset NVM(8) (R361). -/
def STL_BURST2_MAXP : Fld := fld 0x40028 0 4 8 0

/-- STL_BURST2.EXITV, bits [19:4], RW, reset NVM(7880) (R361). -/
def STL_BURST2_EXITV : Fld := fld 0x40028 4 16 0x1EC8 0

/-- STL_SHED.HEAD, bits [3:0], RW, reset NVM(2) (R361). -/
def STL_SHED_HEAD : Fld := fld 0x4002C 0 4 2 0

/-- STL_SHED.MINS, bits [7:4], RW, reset NVM(2) (R361). -/
def STL_SHED_MINS : Fld := fld 0x4002C 4 4 2 0

/-- STL_SHED.WARMN, bits [11:8], RW, reset NVM(4) (R361). -/
def STL_SHED_WARMN : Fld := fld 0x4002C 8 4 4 0

/-- STL_SHED.WARMHOLD, bits [31:16], RW, reset NVM(1000) (R361). -/
def STL_SHED_WARMHOLD : Fld := fld 0x4002C 16 16 1000 0

/-- STL_ARMI.GRID, bits [15:0], RW, reset NVM(8000) (R361). -/
def STL_ARMI_GRID : Fld := fld 0x40030 0 16 0x1F40 0

/-- STL_ARMI.STOR, bits [31:16], RW, reset NVM(4000) (R361). -/
def STL_ARMI_STOR : Fld := fld 0x40030 16 16 4000 0

/-- STL_DET.OPENI, bits [15:0], RW, reset NVM(200) (R361). -/
def STL_DET_OPENI : Fld := fld 0x40034 0 16 200 0

/-- STL_DET.OPENU, bits [31:16], RW, reset NVM(3277) (R361). -/
def STL_DET_OPENU : Fld := fld 0x40034 16 16 3277 0

/-- STL_DET2.SENSEI, bits [15:0], RW, reset NVM(2000) (R361). -/
def STL_DET2_SENSEI : Fld := fld 0x40038 0 16 2000 0

/-- STL_DET2.ESTMAX, bits [31:16], RW, reset NVM(200) (R361). -/
def STL_DET2_ESTMAX : Fld := fld 0x40038 16 16 200 0

/-- STL_STEPI.STEP, bits [31:0], RW, reset NVM(20000) (R361). -/
def STL_STEPI : Fld := fld 0x4003C 0 32 0x4E20 0

/-- STL_OLSEL.CLASS, bits [1:0], RW, reset 0 (R361). -/
def STL_OLSEL_CLASS : Fld := fld 0x40040 0 2 0 0

/-- STL_OLSEL.FILT, bits [3:2], RW, reset 0 (R361). -/
def STL_OLSEL_FILT : Fld := fld 0x40040 2 2 0 0

/-- STL_OLTAU.VALUE, bits [31:0], RW, reset NVM (R361); defaults of the table of R355. -/
def STL_OLTAU (i : Nat) : Fld := fld 0x40044 0 32 (if i / 4 = 0 then 10 else if i / 4 = 1 then 1000 else 60000) i

/-- STL_OLLIM.VALUE, bits [31:0], RW, reset NVM (R361); defaults of the table of R355. -/
def STL_OLLIM (i : Nat) : Fld := fld 0x40048 0 32 (([14000, 11000, 10000, 10000, 8000, 6000, 5000, 5000, 520000, 470000, 450000, 450000, 150000, 125000, 115000, 115000][4 * (i % 4) + min (i / 4) 2]?).getD 0) i

/-- STL_LMAP.MAP, bits [31:0], RW, reset NVM(0xFFFF_FFFF), NVM(0x0000_007F) (R361). -/
def STL_LMAP : Fld := fld 0x4004C 0 40 0x7FFFFFFFFF 0

/-- STL_PSEL.PHASE, bits [7:0], RW, reset 0 (R361). -/
def STL_PSEL_PHASE : Fld := fld 0x40080 0 8 0 0

/-- STL_PSTAT.STATE, bits [3:0], RO, reset 0 (R361). -/
def STL_PSTAT_STATE (i : Nat) : Fld := fld 0x40084 0 4 0 i

/-- STL_PSTAT.ROLE, bits [5:4], RO, reset NVM (R361); defaults of R333. -/
def STL_PSTAT_ROLE (i : Nat) : Fld := fld 0x40084 4 2 (if (48 ≤ i ∧ i < 52) ∨ (52 ≤ i ∧ 24 ≤ (i - 52) % 26) then 1 else 0) i

/-- STL_PSTAT.FACTOR, bits [9:6], RO, reset 0 (R361). -/
def STL_PSTAT_FACTOR (i : Nat) : Fld := fld 0x40084 6 4 0 i

/-- STL_PSTAT.TRIP, bits [10], RO, reset 0 (R361). -/
def STL_PSTAT_TRIP (i : Nat) : Fld := fld 0x40084 10 1 0 i

/-- STL_PSTAT.OVL, bits [11], RO, reset 0 (R361). -/
def STL_PSTAT_OVL (i : Nat) : Fld := fld 0x40084 11 1 0 i

/-- STL_PSTAT.CAUSE, bits [15:12], RO, reset NVM (R361). -/
def STL_PSTAT_CAUSE (i : Nat) : Fld := fld 0x40084 12 4 0 i

/-- STL_POFS.OFS, bits [15:0], RO, reset NVM (R361). -/
def STL_POFS_OFS (i : Nat) : Fld := fld 0x40088 0 16 0 i

/-- STL_POFS.ZD, bits [31:16], RO, reset 0 (R361). -/
def STL_POFS_ZD (i : Nat) : Fld := fld 0x40088 16 16 0 i

/-- STL_PRUN.MS, bits [31:0], RO, reset NVM (R361). -/
def STL_PRUN (i : Nat) : Fld := fld 0x4008C 0 64 0 i

/-- STL_PTRIP.TRIPS, bits [15:0], RO, reset NVM (R361). -/
def STL_PTRIP_TRIPS (i : Nat) : Fld := fld 0x40094 0 16 0 i

/-- STL_LSEL.LINK, bits [5:0], RW, reset 0 (R361). -/
def STL_LSEL_LINK : Fld := fld 0x400A0 0 6 0 0

/-- STL_LSTAT.UP, bits [0], RO, reset 0 (R361). -/
def STL_LSTAT_UP (i : Nat) : Fld := fld 0x400A4 0 1 0 i

/-- STL_LSTAT.OBEY, bits [1], RO, reset 0 (R361). -/
def STL_LSTAT_OBEY (i : Nat) : Fld := fld 0x400A4 1 1 0 i

/-- STL_LSTAT.CONFLICT, bits [2], RO, reset 0 (R361). -/
def STL_LSTAT_CONFLICT (i : Nat) : Fld := fld 0x400A4 2 1 0 i

/-- STL_LSTAT.WDOG, bits [3], RO, reset 0 (R361). -/
def STL_LSTAT_WDOG (i : Nat) : Fld := fld 0x400A4 3 1 0 i

/-- STL_LSTAT.BTYPE, bits [7:4], RO, reset 0 (R361). -/
def STL_LSTAT_BTYPE (i : Nat) : Fld := fld 0x400A4 4 4 0 i

/-- STL_LSTAT.EPOCH, bits [31:16], RO, reset 0 (R361). -/
def STL_LSTAT_EPOCH (i : Nat) : Fld := fld 0x400A4 16 16 0 i

/-- STL_LCRC.COUNT, bits [31:0], RC, reset 0 (R361). -/
def STL_LCRC (i : Nat) : Fld := fld 0x400A8 0 32 0 i

/-- STL_LMISS.COUNT, bits [31:0], RC, reset 0 (R361). -/
def STL_LMISS (i : Nat) : Fld := fld 0x400AC 0 32 0 i

/-- STL_ROLE.SPARE, bits [31:0], RO, reset NVM (R361). -/
def STL_ROLE (n : Nat) : Fld := fld (0x40100 + 0x4 * n) 0 32 0 0

/-- BUP_ID.MINOR, bits [15:0], RO, reset 0x0000 (R444). -/
def BUP_ID_MINOR : Fld := fld 0x50000 0 16 0 0

/-- BUP_ID.MAJOR, bits [31:16], RO, reset 0x0001 (R444). -/
def BUP_ID_MAJOR : Fld := fld 0x50000 16 16 1 0

/-- BUP_CTL.FASTI, bits [15:0], RW, reset NVM(550) (R444). -/
def BUP_CTL_FASTI : Fld := fld 0x50004 0 16 550 0

/-- BUP_CTL.LOSS, bits [31:16], RW, reset NVM(500) (R444). -/
def BUP_CTL_LOSS : Fld := fld 0x50004 16 16 500 0

/-- BUP_SNAP.NPER, bits [7:0], RW, reset NVM(10) (R444). -/
def BUP_SNAP_NPER : Fld := fld 0x50008 0 8 10 0

/-- BUP_SNAP.FHOLD, bits [15:8], RW, reset NVM(10) (R444). -/
def BUP_SNAP_FHOLD : Fld := fld 0x50008 8 8 10 0

/-- BUP_SNAP.DEFER, bits [23:16], RW, reset NVM(10) (R444). -/
def BUP_SNAP_DEFER : Fld := fld 0x50008 16 8 10 0

/-- BUP_BAL.ALT, bits [7:0], RW, reset NVM(10) (R444). -/
def BUP_BAL_ALT : Fld := fld 0x5000C 0 8 10 0

/-- BUP_BAL.SPREAD, bits [15:8], RW, reset NVM(20) (R444). -/
def BUP_BAL_SPREAD : Fld := fld 0x5000C 8 8 20 0

/-- BUP_BAL.HYS, bits [23:16], RW, reset NVM(5) (R444). -/
def BUP_BAL_HYS : Fld := fld 0x5000C 16 8 5 0

/-- BUP_BAL.BLEAD, bits [31:24], RW, reset NVM(20) (R444). -/
def BUP_BAL_BLEAD : Fld := fld 0x5000C 24 8 20 0

/-- BUP_PLAUS.PLSUM, bits [7:0], RW, reset NVM(10) (R444). -/
def BUP_PLAUS_PLSUM : Fld := fld 0x50010 0 8 10 0

/-- BUP_PLAUS.WIREDEV, bits [15:8], RW, reset NVM(50) (R444). -/
def BUP_PLAUS_WIREDEV : Fld := fld 0x50010 8 8 50 0

/-- BUP_LIM.VLO, bits [15:0], RW, reset NVM(500) (R444). -/
def BUP_LIM_VLO : Fld := fld 0x50014 0 16 500 0

/-- BUP_LIM.VHI, bits [31:16], RW, reset NVM(3300) (R444). -/
def BUP_LIM_VHI : Fld := fld 0x50014 16 16 3300 0

/-- BUP_OWT.OWPER, bits [15:0], RW, reset NVM(60) (R444). -/
def BUP_OWT_OWPER : Fld := fld 0x50018 0 16 60 0

/-- BUP_OWT.OWDROP, bits [31:16], RW, reset NVM(300) (R444). -/
def BUP_OWT_OWDROP : Fld := fld 0x50018 16 16 300 0

/-- BUP_SLEEP.SCHK, bits [7:0], RW, reset NVM(60) (R444). -/
def BUP_SLEEP_SCHK : Fld := fld 0x5001C 0 8 60 0

/-- BUP_SLEEP.BALMAX, bits [15:8], RW, reset NVM(48) (R444). -/
def BUP_SLEEP_BALMAX : Fld := fld 0x5001C 8 8 48 0

/-- BUP_SLEEP.WAKET, bits [31:16], RW, reset NVM(600) (R444). -/
def BUP_SLEEP_WAKET : Fld := fld 0x5001C 16 16 600 0

/-- BUP_WAKE.WAKELO, bits [15:0], RW, reset NVM(1600) (R444). -/
def BUP_WAKE_WAKELO : Fld := fld 0x50020 0 16 1600 0

/-- BUP_WAKE.WAKEHI, bits [31:16], RW, reset NVM(2750) (R444). -/
def BUP_WAKE_WAKEHI : Fld := fld 0x50020 16 16 2750 0

/-- BUP_STAT.MASTER, bits [3:0], RO, reset 0 (R444). -/
def BUP_STAT_MASTER : Fld := fld 0x50024 0 4 0 0

/-- BUP_STAT.FAST, bits [7:4], RO, reset 0 (R444). -/
def BUP_STAT_FAST : Fld := fld 0x50024 4 4 0 0

/-- BUP_STAT.SPLIT, bits [11:8], RO, reset 0 (R444). -/
def BUP_STAT_SPLIT : Fld := fld 0x50024 8 4 0 0

/-- BUP_STAT.WAKE, bits [15:12], W1C, reset 0 (R444). -/
def BUP_STAT_WAKE : Fld := fld 0x50024 12 4 0 0

/-- BUP_RSTAT.STATE, bits [1:0], RO, reset 0 (R444). -/
def BUP_RSTAT_STATE (n : Nat) : Fld := fld (0x50100 + 0x40 * n) 0 2 0 0

/-- BUP_RSTAT.NOUT, bits [6:2], RO, reset 0 (R444). -/
def BUP_RSTAT_NOUT (n : Nat) : Fld := fld (0x50100 + 0x40 * n) 2 5 0 0

/-- BUP_RSTAT.NRET, bits [11:7], RO, reset 0 (R444). -/
def BUP_RSTAT_NRET (n : Nat) : Fld := fld (0x50100 + 0x40 * n) 7 5 0 0

/-- BUP_RSTAT.IDCHG, bits [12], RO, reset 0 (R444). -/
def BUP_RSTAT_IDCHG (n : Nat) : Fld := fld (0x50100 + 0x40 * n) 12 1 0 0

/-- BUP_RSTAT.LOST, bits [13], RO, reset 0 (R444). -/
def BUP_RSTAT_LOST (n : Nat) : Fld := fld (0x50100 + 0x40 * n) 13 1 0 0

/-- BUP_RSTAT.SNAP, bits [31:24], RO, reset 0 (R444). -/
def BUP_RSTAT_SNAP (n : Nat) : Fld := fld (0x50100 + 0x40 * n) 24 8 0 0

/-- BUP_RTGT.TGT, bits [15:0], RO, reset 0 (R444). -/
def BUP_RTGT_TGT (n : Nat) : Fld := fld (0x50104 + 0x40 * n) 0 16 0 0

/-- BUP_RTGT.GRP, bits [17:16], RO, reset 0 (R444). -/
def BUP_RTGT_GRP (n : Nat) : Fld := fld (0x50104 + 0x40 * n) 16 2 0 0

/-- BUP_RID.VALUE, bits [31:0], RO, reset 0 (R444). -/
def BUP_RID (n : Nat) : Fld := fld (0x50108 + 0x40 * n) 0 32 0 0

/-- BUP_RTH.VALUE, bits [31:0], RO, reset 0 (R444). -/
def BUP_RTH (n : Nat) : Fld := fld (0x5010C + 0x40 * n) 0 64 0 0

/-- BUP_RSER.VALUE, bits [31:0], RO, reset 0 (R444). -/
def BUP_RSER (n : Nat) : Fld := fld (0x50114 + 0x40 * n) 0 64 0 0

/-- BUP_RLOOP.VALUE, bits [31:0], RO, reset 0 (R444). -/
def BUP_RLOOP (n : Nat) : Fld := fld (0x5011C + 0x40 * n) 0 32 0 0

/-- BUP_RCRC.COUNT, bits [31:0], RC, reset 0 (R444). -/
def BUP_RCRC (n : Nat) : Fld := fld (0x50120 + 0x40 * n) 0 32 0 0

/-- BUP_RMISS.COUNT, bits [31:0], RC, reset 0 (R444). -/
def BUP_RMISS (n : Nat) : Fld := fld (0x50124 + 0x40 * n) 0 32 0 0

/-- BUP_RNOISY.COUNT, bits [31:0], RC, reset 0 (R444). -/
def BUP_RNOISY (n : Nat) : Fld := fld (0x50128 + 0x40 * n) 0 32 0 0

/-- BUP_RTAINT.COUNT, bits [31:0], RC, reset 0 (R444). -/
def BUP_RTAINT (n : Nat) : Fld := fld (0x5012C + 0x40 * n) 0 32 0 0

/-- BUP_CELL.V, bits [15:0], RO, reset 0xFFFF (R444). -/
def BUP_CELL_V (s i : Nat) : Fld := fld (0x51000 + 0x800 * s + 4 * i) 0 16 0xFFFF 0

/-- BUP_CELL.VALID, bits [16], RO, reset 0 (R444). -/
def BUP_CELL_VALID (s i : Nat) : Fld := fld (0x51000 + 0x800 * s + 4 * i) 16 1 0 0

/-- BUP_CELL.TAINT, bits [17], RO, reset 0 (R444). -/
def BUP_CELL_TAINT (s i : Nat) : Fld := fld (0x51000 + 0x800 * s + 4 * i) 17 1 0 0

/-- BUP_CELL.WIRE, bits [18], RO, reset 0 (R444). -/
def BUP_CELL_WIRE (s i : Nat) : Fld := fld (0x51000 + 0x800 * s + 4 * i) 18 1 0 0

/-- BUP_CELL.DERIV, bits [19], RO, reset 0 (R444). -/
def BUP_CELL_DERIV (s i : Nat) : Fld := fld (0x51000 + 0x800 * s + 4 * i) 19 1 0 0

/-- BUP_CELL.IMPL, bits [20], RO, reset 0 (R444). -/
def BUP_CELL_IMPL (s i : Nat) : Fld := fld (0x51000 + 0x800 * s + 4 * i) 20 1 0 0

/-- BUP_CELL.NOISY, bits [21], RO, reset 0 (R444). -/
def BUP_CELL_NOISY (s i : Nat) : Fld := fld (0x51000 + 0x800 * s + 4 * i) 21 1 0 0

/-- BUP_CELL.SNAP, bits [31:24], RO, reset 0 (R444). -/
def BUP_CELL_SNAP (s i : Nat) : Fld := fld (0x51000 + 0x800 * s + 4 * i) 24 8 0 0

/-- BUP_NODE.SUM of node a of string s, bits [9:0], RO, reset 0x3FF (R444). -/
def BUP_NODE_SUM (s a : Nat) : Fld := fld (0x53000 + 0x100 * s + 12 * (a - 1)) 0 10 1023 0

/-- BUP_NODE.FINEFLT of node a of string s, bits [10], RO, reset 0 (R444). -/
def BUP_NODE_FINEFLT (s a : Nat) : Fld := fld (0x53000 + 0x100 * s + 12 * (a - 1)) 10 1 0 0

/-- BUP_NODE.LOST of node a of string s, bits [11], RO, reset 0 (R444). -/
def BUP_NODE_LOST (s a : Nat) : Fld := fld (0x53000 + 0x100 * s + 12 * (a - 1)) 11 1 0 0

/-- BUP_NODE.END of node a of string s, bits [12], RO, reset 0 (R444). -/
def BUP_NODE_END (s a : Nat) : Fld := fld (0x53000 + 0x100 * s + 12 * (a - 1)) 12 1 0 0

/-- BUP_NODE.BALON of node a of string s, bits [31:16], RO, reset 0 (R444). -/
def BUP_NODE_BALON (s a : Nat) : Fld := fld (0x53000 + 0x100 * s + 12 * (a - 1)) 16 16 0 0

/-- BUP_NTEMP: T0 in [15:0] and T1 in [31:16], node a of string s (R444). -/
def BUP_NTEMP_T (s a : Nat) : Fld := fld (0x53004 + 0x100 * s + 12 * (a - 1)) 0 32 0 0

/-- BUP_NFW, node a of string s (R444). -/
def BUP_NFW_FW (s a : Nat) : Fld := fld (0x53008 + 0x100 * s + 12 * (a - 1)) 0 32 0 0

/-- BUP_EST_CTL.SLEW, bits [15:0], RW, reset NVM(200) (R468). -/
def BUP_EST_CTL_SLEW : Fld := fld 0x54000 0 16 200 0

/-- BUP_EST_CTL.TF, bits [31:16], RW, reset NVM(200) (R468). -/
def BUP_EST_CTL_TF : Fld := fld 0x54000 16 16 200 0

/-- BUP_EST_THR.VEOD, bits [15:0], RW, reset NVM(1700) (R468). -/
def BUP_EST_THR_VEOD : Fld := fld 0x54004 0 16 1700 0

/-- BUP_EST_THR.VEOC, bits [31:16], RW, reset NVM(2700) (R468). -/
def BUP_EST_THR_VEOC : Fld := fld 0x54004 16 16 2700 0

/-- BUP_EST_HARD.VCUT, bits [15:0], RW, reset NVM(1500) (R468). -/
def BUP_EST_HARD_VCUT : Fld := fld 0x54008 0 16 1500 0

/-- BUP_EST_HARD.VMAX, bits [31:16], RW, reset NVM(2800) (R468). -/
def BUP_EST_HARD_VMAX : Fld := fld 0x54008 16 16 2800 0

/-- BUP_EST_TAP.VTAP, bits [7:0], RW, reset NVM(50) (R468). -/
def BUP_EST_TAP_VTAP : Fld := fld 0x5400C 0 8 50 0

/-- BUP_EST_TAP.CMARG, bits [15:8], RW, reset NVM(10) (R468). -/
def BUP_EST_TAP_CMARG : Fld := fld 0x5400C 8 8 10 0

/-- BUP_EST_TAP.STALE, bits [23:16], RW, reset NVM(20) (R468). -/
def BUP_EST_TAP_STALE : Fld := fld 0x5400C 16 8 20 0

/-- BUP_EST_TAP.RMARG, bits [31:24], RW, reset NVM(20) (R468). -/
def BUP_EST_TAP_RMARG : Fld := fld 0x5400C 24 8 20 0

/-- BUP_EST_LIM.IDMAX, bits [15:0], RW, reset NVM(1100) (R468). -/
def BUP_EST_LIM_IDMAX : Fld := fld 0x54010 0 16 1100 0

/-- BUP_EST_LIM.ICMAX, bits [31:16], RW, reset NVM(1100) (R468). -/
def BUP_EST_LIM_ICMAX : Fld := fld 0x54010 16 16 1100 0

/-- BUP_EST_REST.REST, bits [7:0], RW, reset NVM(4) (R468). -/
def BUP_EST_REST_REST : Fld := fld 0x54014 0 8 4 0

/-- BUP_EST_REST.INTV, bits [15:8], RW, reset NVM(20) (R468). -/
def BUP_EST_REST_INTV : Fld := fld 0x54014 8 8 20 0

/-- BUP_EST_REST.RCLAMP, bits [23:16], RW, reset NVM(15) (R468). -/
def BUP_EST_REST_RCLAMP : Fld := fld 0x54014 16 8 15 0

/-- BUP_EST_REST.RAMP, bits [31:24], RW, reset NVM(40) (R468). -/
def BUP_EST_REST_RAMP : Fld := fld 0x54014 24 8 40 0

/-- BUP_EST_DRIFT.DTHR, bits [15:0], RW, reset NVM(1000) (R468). -/
def BUP_EST_DRIFT_DTHR : Fld := fld 0x54018 0 16 1000 0

/-- BUP_EST_DRIFT.DTIME, bits [31:16], RW, reset NVM(60) (R468). -/
def BUP_EST_DRIFT_DTIME : Fld := fld 0x54018 16 16 60 0

/-- BUP_EST_TEMP.TMAX, bits [15:0], RW, reset NVM(600) (R468). -/
def BUP_EST_TEMP_TMAX : Fld := fld 0x5401C 0 16 600 0

/-- BUP_EST_TEMP.TCMIN, bits [31:16], RW, reset NVM(-200) (R468). -/
def BUP_EST_TEMP_TCMIN : Fld := fld 0x5401C 16 16 0xFF38 0

/-- BUP_EST_RSTAT.STR, bits [2:0], RO, reset 0 (R468). -/
def BUP_EST_RSTAT_STR : Fld := fld 0x54020 0 3 0 0

/-- BUP_EST_RSTAT.EARLY, bits [15:8], RO, reset 0 (R468). -/
def BUP_EST_RSTAT_EARLY : Fld := fld 0x54020 8 8 0 0

/-- BUP_EST_RSTAT.DEFER, bits [31:16], RC, reset 0 (R468). -/
def BUP_EST_RSTAT_DEFER : Fld := fld 0x54020 16 16 0 0

/-- BUP_EST_STAT.CONF, bits [0], RO, reset 0 (R468). -/
def BUP_EST_STAT_CONF (n : Nat) : Fld := fld (0x54100 + 0x20 * n) 0 1 0 0

/-- BUP_EST_STAT.RESTING, bits [1], RO, reset 0 (R468). -/
def BUP_EST_STAT_RESTING (n : Nat) : Fld := fld (0x54100 + 0x20 * n) 1 1 0 0

/-- BUP_EST_STAT.STALE, bits [2], RO, reset 0 (R468). -/
def BUP_EST_STAT_STALE (n : Nat) : Fld := fld (0x54100 + 0x20 * n) 2 1 0 0

/-- BUP_EST_STAT.TFALL, bits [3], RO, reset 0 (R468). -/
def BUP_EST_STAT_TFALL (n : Nat) : Fld := fld (0x54100 + 0x20 * n) 3 1 0 0

/-- BUP_EST_STAT.REC, bits [6:4], RO, reset NVM (R468). -/
def BUP_EST_STAT_REC (n : Nat) : Fld := fld (0x54100 + 0x20 * n) 4 3 0 0

/-- BUP_EST_SOC.REP, bits [15:0], RO, reset 0 (R468). -/
def BUP_EST_SOC_REP (n : Nat) : Fld := fld (0x54104 + 0x20 * n) 0 16 0 0

/-- BUP_EST_SOC.EST, bits [31:16], RO, reset 0 (R468). -/
def BUP_EST_SOC_EST (n : Nat) : Fld := fld (0x54104 + 0x20 * n) 16 16 0 0

/-- BUP_EST_CC.ZCC, bits [15:0], RO, reset 0 (R468). -/
def BUP_EST_CC_ZCC (n : Nat) : Fld := fld (0x54108 + 0x20 * n) 0 16 0 0

/-- BUP_EST_ULIM.UMIN, bits [15:0], RO, reset 0 (R468). -/
def BUP_EST_ULIM_UMIN (n : Nat) : Fld := fld (0x5410C + 0x20 * n) 0 16 0 0

/-- BUP_EST_ULIM.UMAX, bits [31:16], RO, reset 0 (R468). -/
def BUP_EST_ULIM_UMAX (n : Nat) : Fld := fld (0x5410C + 0x20 * n) 16 16 0 0

/-- BUP_EST_ILIM.LD, bits [15:0], RO, reset 0 (R468). -/
def BUP_EST_ILIM_LD (n : Nat) : Fld := fld (0x54110 + 0x20 * n) 0 16 0 0

/-- BUP_EST_ILIM.LC, bits [31:16], RO, reset 0 (R468). -/
def BUP_EST_ILIM_LC (n : Nat) : Fld := fld (0x54110 + 0x20 * n) 16 16 0 0

/-- BUP_EST_TGT.TGT, bits [15:0], RW, reset NVM(5000) (R468). -/
def BUP_EST_TGT_TGT (n : Nat) : Fld := fld (0x54114 + 0x20 * n) 0 16 0x1388 0

/-- BUP_EST_CYC.CYC, bits [31:0], RO, reset NVM (R468). -/
def BUP_EST_CYC_CYC (n : Nat) : Fld := fld (0x54118 + 0x20 * n) 0 32 0 0

/-- BUP_EST_AGE.AGE, bits [31:0], RO, reset 0 (R468). -/
def BUP_EST_AGE_AGE (n : Nat) : Fld := fld (0x5411C + 0x20 * n) 0 32 0 0

/-- FEN_ID.MINOR, bits [15:0], RO, reset 0x0000 (R387). -/
def FEN_ID_MINOR : Fld := fld 0x60000 0 16 0 0

/-- FEN_ID.MAJOR, bits [31:16], RO, reset 0x0001 (R387). -/
def FEN_ID_MAJOR : Fld := fld 0x60000 16 16 1 0

/-- FEN_CTL.EN, bits [0], RW, reset NVM(1) (R387). -/
def FEN_CTL_EN : Fld := fld 0x60004 0 1 1 0

/-- FEN_CTL.NOTCHEN, bits [1], RW, reset NVM(1) (R387). -/
def FEN_CTL_NOTCHEN : Fld := fld 0x60004 1 1 1 0

/-- FEN_CTL.TXATT, bits [7:4], RW, reset NVM(0) (R387). -/
def FEN_CTL_TXATT : Fld := fld 0x60004 4 4 0 0

/-- FEN_CTL.RETRY, bits [15:8], RW, reset NVM(4) (R387). -/
def FEN_CTL_RETRY : Fld := fld 0x60004 8 8 4 0

/-- FEN_CTL.STRTHR, bits [31:16], RW, reset NVM(100) (R387). -/
def FEN_CTL_STRTHR : Fld := fld 0x60004 16 16 100 0

/-- FEN_STAT.JOINED, bits [0], RO, reset 0 (R387). -/
def FEN_STAT_JOINED : Fld := fld 0x60008 0 1 0 0

/-- FEN_STAT.ALIGNED, bits [1], RO, reset 0 (R387). -/
def FEN_STAT_ALIGNED : Fld := fld 0x60008 1 1 0 0

/-- FEN_STAT.FAR, bits [2], RO, reset 0 (R387). -/
def FEN_STAT_FAR : Fld := fld 0x60008 2 1 0 0

/-- FEN_STAT.BLOST, bits [3], RO, reset 0 (R387). -/
def FEN_STAT_BLOST : Fld := fld 0x60008 3 1 0 0

/-- FEN_STAT.BEACONING, bits [4], RO, reset 0 (R387). -/
def FEN_STAT_BEACONING : Fld := fld 0x60008 4 1 0 0

/-- FEN_STAT.KEYTX, bits [5], RO, reset NVM(0) (R387). -/
def FEN_STAT_KEYTX : Fld := fld 0x60008 5 1 0 0

/-- FEN_STAT.KEYV, bits [7:6], RO, reset NVM(0) (R387). -/
def FEN_STAT_KEYV : Fld := fld 0x60008 6 2 0 0

/-- FEN_STAT.QUIET, bits [8], RO, reset 0 (R387). -/
def FEN_STAT_QUIET : Fld := fld 0x60008 8 1 0 0

/-- FEN_STAT.LRANK, bits [19:16], RO, reset 0 (R387). -/
def FEN_STAT_LRANK : Fld := fld 0x60008 16 4 0 0

/-- FEN_STAT.LRANKV, bits [20], RO, reset 0 (R387). -/
def FEN_STAT_LRANKV : Fld := fld 0x60008 20 1 0 0

/-- FEN_GROUP.ID, bits [31:0], RW, reset NVM(0) (R387). -/
def FEN_GROUP : Fld := fld 0x6000C 0 32 0 0

/-- FEN_KEYCHK.KCV0, bits [15:0], RO, reset NVM(0) (R387). -/
def FEN_KEYCHK_KCV0 : Fld := fld 0x60010 0 16 0 0

/-- FEN_KEYCHK.KCV1, bits [31:16], RO, reset NVM(0) (R387). -/
def FEN_KEYCHK_KCV1 : Fld := fld 0x60010 16 16 0 0

/-- FEN_PHY.NOTCHW, bits [7:0], RW, reset NVM(10) (R387). -/
def FEN_PHY_NOTCHW : Fld := fld 0x60014 0 8 10 0

/-- FEN_PHY.CSTHR, bits [15:8], RW, reset NVM(6) (R387). -/
def FEN_PHY_CSTHR : Fld := fld 0x60014 8 8 6 0

/-- FEN_GOFS.OFS, bits [31:0], RO, reset 0 (R387). -/
def FEN_GOFS : Fld := fld 0x60018 0 64 0 0

/-- FEN_RATE.VALUE, bits [31:0], RO, reset 0 (R387). -/
def FEN_RATE : Fld := fld 0x60020 0 32 0 0

/-- FEN_TERR.VALUE, bits [31:0], RO, reset 0 (R387). -/
def FEN_TERR : Fld := fld 0x60024 0 32 0 0

/-- FEN_BCN.NUM, bits [31:0], RO, reset 0 (R387). -/
def FEN_BCN : Fld := fld 0x60028 0 32 0 0

/-- FEN_MASKBCN.NUM, bits [31:0], RO, reset 0 (R387). -/
def FEN_MASKBCN : Fld := fld 0x6002C 0 32 0 0

/-- FEN_MASK.TONES, bits [31:0], RO, reset 0 (R387). -/
def FEN_MASK (n : Nat) : Fld := fld (0x60040 + 0x4 * n) 0 32 0 0

/-- FEN_NOTCH.BASE, bits [7:0], RW, reset NVM: 48 for n = 0, 24 for n = 1 to 4, else 0 (R387). -/
def FEN_NOTCH_BASE (n : Nat) : Fld := fld (0x60060 + 0x4 * n) 0 8 (if n = 0 then 48 else if n ≤ 4 then 24 else 0) 0

/-- FEN_NOTCH.GROUP, bits [10:8], RW, reset NVM: 0 for n = 0, n for n = 1 to 4, else 0 (R387). -/
def FEN_NOTCH_GROUP (n : Nat) : Fld := fld (0x60060 + 0x4 * n) 8 3 (if n = 0 then 0 else if n ≤ 4 then n else 0) 0

/-- FEN_ERASE.TONES, bits [31:0], RO, reset 0 (R387). -/
def FEN_ERASE (n : Nat) : Fld := fld (0x60080 + 0x4 * n) 0 32 0 0

/-- FEN_SNR.CLASS, bits [31:0], RO, reset 0 (R387). -/
def FEN_SNR (n : Nat) : Fld := fld (0x600A0 + 0x4 * n) 0 32 0 0

/-- FEN_TXOK.COUNT, bits [31:0], RC, reset 0 (R387). -/
def FEN_TXOK : Fld := fld 0x60100 0 32 0 0

/-- FEN_TXDROP.COUNT, bits [31:0], RC, reset 0 (R387). -/
def FEN_TXDROP : Fld := fld 0x60104 0 32 0 0

/-- FEN_RETRIES.COUNT, bits [31:0], RC, reset 0 (R387). -/
def FEN_RETRIES : Fld := fld 0x60108 0 32 0 0

/-- FEN_RXOK.COUNT, bits [31:0], RC, reset 0 (R387). -/
def FEN_RXOK : Fld := fld 0x6010C 0 32 0 0

/-- FEN_RXCRC.COUNT, bits [31:0], RC, reset 0 (R387). -/
def FEN_RXCRC : Fld := fld 0x60110 0 32 0 0

/-- FEN_STRANGER.COUNT, bits [31:0], RC, reset 0 (R387). -/
def FEN_STRANGER : Fld := fld 0x60114 0 32 0 0

/-- FEN_REPLAY.COUNT, bits [31:0], RC, reset 0 (R387). -/
def FEN_REPLAY : Fld := fld 0x60118 0 32 0 0

/-- FEN_RXBAD.COUNT, bits [31:0], RC, reset 0 (R387). -/
def FEN_RXBAD : Fld := fld 0x6011C 0 32 0 0

/-- FEN_BSKIP.COUNT, bits [31:0], RC, reset 0 (R387). -/
def FEN_BSKIP : Fld := fld 0x60120 0 32 0 0

/-- FEN_GRP_CTL.LEADOK, bits [0], RW, reset NVM(1) (R415). -/
def FEN_GRP_CTL_LEADOK : Fld := fld 0x60200 0 1 1 0

/-- FEN_GRP_CTL.FORCESA, bits [1], RW, reset NVM(0) (R415). -/
def FEN_GRP_CTL_FORCESA : Fld := fld 0x60200 1 1 0 0

/-- FEN_GRP_CTL.NSHELF, bits [7:4], RW, reset NVM(8) (R415). -/
def FEN_GRP_CTL_NSHELF : Fld := fld 0x60200 4 4 8 0

/-- FEN_GRP_CTL.LIFE, bits [15:8], RW, reset NVM(10) (R415). -/
def FEN_GRP_CTL_LIFE : Fld := fld 0x60200 8 8 10 0

/-- FEN_GRP_CVER.CVER, bits [15:0], RO, reset 0x0001 (R415). -/
def FEN_GRP_CVER_CVER : Fld := fld 0x60204 0 16 1 0

/-- FEN_GRP_CWIN.CMIN, bits [15:0], RW, reset NVM(0x0001) (R415). -/
def FEN_GRP_CWIN_CMIN : Fld := fld 0x60208 0 16 1 0

/-- FEN_GRP_CWIN.CMAX, bits [31:16], RW, reset NVM(0x0001) (R415). -/
def FEN_GRP_CWIN_CMAX : Fld := fld 0x60208 16 16 1 0

/-- FEN_GRP_UP.VALUE, bits [31:0], RW, reset NVM(400) (R415). -/
def FEN_GRP_UP : Fld := fld 0x6020C 0 32 400 0

/-- FEN_GRP_DN.VALUE, bits [31:0], RW, reset NVM(400) (R415). -/
def FEN_GRP_DN : Fld := fld 0x60210 0 32 400 0

/-- FEN_GRP_PMIN.VALUE, bits [31:0], RW, reset NVM(0) (R415). -/
def FEN_GRP_PMIN : Fld := fld 0x60214 0 32 0 0

/-- FEN_GRP_PMAX.VALUE, bits [31:0], RW, reset NVM(2760000) (R415). -/
def FEN_GRP_PMAX : Fld := fld 0x60218 0 32 0x2A1D40 0

/-- FEN_GRP_STAT.MODE, bits [2:0], RO, reset 0 (R415). -/
def FEN_GRP_STAT_MODE : Fld := fld 0x6021C 0 3 0 0

/-- FEN_GRP_STAT.CONSV, bits [3], RO, reset 0 (R415). -/
def FEN_GRP_STAT_CONSV : Fld := fld 0x6021C 3 1 0 0

/-- FEN_GRP_STAT.SACAUSE, bits [6:4], RO, reset 4 (R415). -/
def FEN_GRP_STAT_SACAUSE : Fld := fld 0x6021C 4 3 4 0

/-- FEN_GRP_STAT.PARTIES, bits [15:8], RO, reset 0 (R415). -/
def FEN_GRP_STAT_PARTIES : Fld := fld 0x6021C 8 8 0 0

/-- FEN_GRP_STAT.OUT, bits [23:16], RO, reset 0 (R415). -/
def FEN_GRP_STAT_OUT : Fld := fld 0x6021C 16 8 0 0

/-- FEN_GRP_CNUM.CNUM, bits [31:0], RO, reset 0 (R415). -/
def FEN_GRP_CNUM : Fld := fld 0x60220 0 32 0 0

/-- FEN_PACE_CTL.SOCLO, bits [15:0], RW, reset NVM(1000) (R415). -/
def FEN_PACE_CTL_SOCLO : Fld := fld 0x60224 0 16 1000 0

/-- FEN_PACE_STAT.ACT, bits [1:0], RO, reset 0 (R415). -/
def FEN_PACE_STAT_ACT : Fld := fld 0x60228 0 2 0 0

/-- FEN_PACE_STAT.REQ, bits [3:2], RO, reset 0 (R415). -/
def FEN_PACE_STAT_REQ : Fld := fld 0x60228 2 2 0 0

/-- FEN_PACE_STAT.UNACK, bits [4], RO, reset 0 (R415). -/
def FEN_PACE_STAT_UNACK : Fld := fld 0x60228 4 1 0 0

/-- FEN_PACEUND.COUNT, bits [31:0], RC, reset 0 (R415). -/
def FEN_PACEUND : Fld := fld 0x6022C 0 32 0 0

/-- ROS_ID.MINOR, bits [15:0], RO, reset 0x0000 (R514). -/
def ROS_ID_MINOR : Fld := fld 0x70000 0 16 0 0

/-- ROS_ID.MAJOR, bits [31:16], RO, reset 0x0001 (R514). -/
def ROS_ID_MAJOR : Fld := fld 0x70000 16 16 1 0

/-- ROS_CTL.SELFTEST, bits [0], RW, reset NVM(0) (R514). -/
def ROS_CTL_SELFTEST : Fld := fld 0x70004 0 1 0 0

/-- ROS_CTL.PROVE, bits [17:8], RW, reset NVM(60) (R514). -/
def ROS_CTL_PROVE : Fld := fld 0x70004 8 10 60 0

/-- ROS_STAT.UP, bits [0], RO, reset 0 (R514). -/
def ROS_STAT_UP : Fld := fld 0x70008 0 1 0 0

/-- ROS_STAT.TOKEN, bits [1], RO, reset 0 (R514). -/
def ROS_STAT_TOKEN : Fld := fld 0x70008 1 1 0 0

/-- ROS_STAT.READY, bits [2], RO, reset 0 (R514). -/
def ROS_STAT_READY : Fld := fld 0x70008 2 1 0 0

/-- ROS_STAT.PREADY, bits [3], RO, reset 0 (R514). -/
def ROS_STAT_PREADY : Fld := fld 0x70008 3 1 0 0

/-- ROS_STAT.LOCK, bits [4], RO, reset 0 (R514). -/
def ROS_STAT_LOCK : Fld := fld 0x70008 4 1 0 0

/-- ROS_STAT.CFGLAG, bits [5], RO, reset 0 (R514). -/
def ROS_STAT_CFGLAG : Fld := fld 0x70008 5 1 0 0

/-- ROS_STAT.PDIV, bits [6], RO, reset 0 (R514). -/
def ROS_STAT_PDIV : Fld := fld 0x70008 6 1 0 0

/-- ROS_STAT.DDIV, bits [7], RO, reset 0 (R514). -/
def ROS_STAT_DDIV : Fld := fld 0x70008 7 1 0 0

/-- ROS_STAT.RSIL, bits [8], RO, reset 0 (R514). -/
def ROS_STAT_RSIL : Fld := fld 0x70008 8 1 0 0

/-- ROS_STAT.BSIL, bits [9], RO, reset 0 (R514). -/
def ROS_STAT_BSIL : Fld := fld 0x70008 9 1 0 0

/-- ROS_STAT.SILENT, bits [12:10], RO, reset 0 (R514). -/
def ROS_STAT_SILENT : Fld := fld 0x70008 10 3 0 0

/-- ROS_STAT.HANDOVER, bits [13], RO, reset 0 (R514). -/
def ROS_STAT_HANDOVER : Fld := fld 0x70008 13 1 0 0

/-- ROS_STAT.PROVING, bits [14], RO, reset 0 (R514). -/
def ROS_STAT_PROVING : Fld := fld 0x70008 14 1 0 0

/-- ROS_STAT.PSTAGE, bits [19:16], RO, reset 0 (R514). -/
def ROS_STAT_PSTAGE : Fld := fld 0x70008 16 4 0 0

/-- ROS_LAT.NS, bits [15:0], RO, reset 0 (R514). -/
def ROS_LAT_NS : Fld := fld 0x7000C 0 16 0 0

/-- ROS_SOFS.VALUE, bits [31:0], RO, reset 0 (R514). -/
def ROS_SOFS : Fld := fld 0x70010 0 64 0 0

/-- ROS_DPNUM.VALUE, bits [31:0], RO, reset 0 (R514). -/
def ROS_DPNUM : Fld := fld 0x70018 0 64 0 0

/-- ROS_PHERR.PHI, bits [15:0], RO, reset 0 (R514). -/
def ROS_PHERR_PHI : Fld := fld 0x70020 0 16 0 0

/-- ROS_PHERR.CORR, bits [31:16], RO, reset 0 (R514). -/
def ROS_PHERR_CORR : Fld := fld 0x70020 16 16 0 0

/-- ROS_LASTCP.VALUE, bits [31:0], RO, reset 0 (R514). -/
def ROS_LASTCP : Fld := fld 0x70024 0 64 0 0

/-- ROS_CRC.COUNT, bits [31:0], RC, reset 0 (R514). -/
def ROS_CRC : Fld := fld 0x70040 0 32 0 0

/-- ROS_RSIL.COUNT, bits [31:0], RC, reset 0 (R514). -/
def ROS_RSIL : Fld := fld 0x70044 0 32 0 0

/-- ROS_BSIL.COUNT, bits [31:0], RC, reset 0 (R514). -/
def ROS_BSIL : Fld := fld 0x70048 0 32 0 0

/-- ROS_PDMIS.COUNT, bits [31:0], RC, reset 0 (R514). -/
def ROS_PDMIS : Fld := fld 0x7004C 0 32 0 0

/-- ROS_DDMIS.COUNT, bits [31:0], RC, reset 0 (R514). -/
def ROS_DDMIS : Fld := fld 0x70050 0 32 0 0

/-- ROS_LATE.COUNT, bits [31:0], RC, reset 0 (R514). -/
def ROS_LATE : Fld := fld 0x70054 0 32 0 0

/-- ROS_TKO.TAKEN, bits [15:0], RO, reset NVM(0) (R514). -/
def ROS_TKO_TAKEN : Fld := fld 0x70058 0 16 0 0

/-- ROS_TKO.HANDED, bits [31:16], RO, reset NVM(0) (R514). -/
def ROS_TKO_HANDED : Fld := fld 0x70058 16 16 0 0

/-- ERA_ID.MINOR, bits [15:0], RO, reset 0x0000 (R487). -/
def ERA_ID_MINOR : Fld := fld 0x80000 0 16 0 0

/-- ERA_ID.MAJOR, bits [31:16], RO, reset 0x0001 (R487). -/
def ERA_ID_MAJOR : Fld := fld 0x80000 16 16 1 0

/-- ERA_CTL.EVTGAP, bits [7:0], RW, reset NVM(10) (R487). -/
def ERA_CTL_EVTGAP : Fld := fld 0x80004 0 8 10 0

/-- ERA_CTL.ULIFE, bits [15:8], RW, reset NVM(30) (R487). -/
def ERA_CTL_ULIFE : Fld := fld 0x80004 8 8 30 0

/-- ERA_STAT.HALTED, bits [0], RO, reset 0 (R487). -/
def ERA_STAT_HALTED : Fld := fld 0x80008 0 1 0 0

/-- ERA_STAT.DEGRADED, bits [1], RO, reset 0 (R487). -/
def ERA_STAT_DEGRADED : Fld := fld 0x80008 1 1 0 0

/-- ERA_STAT.CAUSE, bits [2], W1C, reset 0 (R487). -/
def ERA_STAT_CAUSE : Fld := fld 0x80008 2 1 0 0

/-- ERA_STAT.UNLOCKED, bits [3], RO, reset 0 (R487). -/
def ERA_STAT_UNLOCKED : Fld := fld 0x80008 3 1 0 0

/-- ERA_STAT.ULEVEL, bits [5:4], RO, reset 0 (R487). -/
def ERA_STAT_ULEVEL : Fld := fld 0x80008 4 2 0 0

/-- ERA_STAT.LOCKOUT, bits [6], RO, reset 0 (R487). -/
def ERA_STAT_LOCKOUT : Fld := fld 0x80008 6 1 0 0

/-- ERA_STAT.NINJ, bits [15:8], RO, reset 0 (R487). -/
def ERA_STAT_NINJ : Fld := fld 0x80008 8 8 0 0

/-- ERA_STAT.NSET, bits [31:16], RO, reset 0 (R487). -/
def ERA_STAT_NSET : Fld := fld 0x80008 16 16 0 0

/-- ERA_HALT.FIRST, bits [8:0], RO, reset 0 (R487). -/
def ERA_HALT_FIRST : Fld := fld 0x8000C 0 9 0 0

/-- ERA_HALT.VALID, bits [9], RO, reset 0 (R487). -/
def ERA_HALT_VALID : Fld := fld 0x8000C 9 1 0 0

/-- ERA_HALT.MORE, bits [31:16], RO, reset 0 (R487). -/
def ERA_HALT_MORE : Fld := fld 0x8000C 16 16 0 0

/-- ERA_HALT_TIME.TIME, bits [31:0], RO, reset 0 (R487). -/
def ERA_HALT_TIME : Fld := fld 0x80010 0 64 0 0

/-- ERA_DSEL.DET, bits [8:0], RW, reset 0 (R487). -/
def ERA_DSEL_DET : Fld := fld 0x80018 0 9 0 0

/-- ERA_DINFO.CLASS, bits [1:0], RO, reset NVM (R487). -/
def ERA_DINFO_CLASS (i : Nat) : Fld := fld 0x8001C 0 2 0 i

/-- ERA_DINFO.DEFCLS, bits [3:2], RO, reset not given (R487). -/
def ERA_DINFO_DEFCLS (i : Nat) : Fld := fld 0x8001C 2 2 0 i

/-- ERA_DINFO.KIND, bits [4], RO, reset not given (R487). -/
def ERA_DINFO_KIND (i : Nat) : Fld := fld 0x8001C 4 1 0 i

/-- ERA_DINFO.SPARE, bits [5], RO, reset not given (R487). -/
def ERA_DINFO_SPARE (i : Nat) : Fld := fld 0x8001C 5 1 0 i

/-- ERA_DINFO.ESC, bits [6], RO, reset 0 (R487). -/
def ERA_DINFO_ESC (i : Nat) : Fld := fld 0x8001C 6 1 0 i

/-- ERA_DINFO.COUNT, bits [31:16], RO, reset 0 (R487). -/
def ERA_DINFO_COUNT (i : Nat) : Fld := fld 0x8001C 16 16 0 i

/-- ERA_DFIRST.TIME, bits [31:0], RO, reset 0 (R487). -/
def ERA_DFIRST (i : Nat) : Fld := fld 0x80020 0 64 0 i

/-- ERA_DLAST.TIME, bits [31:0], RO, reset 0 (R487). -/
def ERA_DLAST (i : Nat) : Fld := fld 0x80028 0 64 0 i

/-- ERA_DPARAM.PARAM, bits [31:0], RO, reset 0 (R487). -/
def ERA_DPARAM (i : Nat) : Fld := fld 0x80030 0 32 0 i

/-- ERA_DSTAT.BITS, bits [31:0], W1C, reset 0 (R487). -/
def ERA_DSTAT (n : Nat) : Fld := fld (0x80100 + 0x4 * n) 0 32 0 0

/-- ERA_DCAUSE.BITS, bits [31:0], RO, reset 0 (R487). -/
def ERA_DCAUSE (n : Nat) : Fld := fld (0x80140 + 0x4 * n) 0 32 0 0

/-- ERA_DINJ.BITS, bits [31:0], RO, reset 0 (R487). -/
def ERA_DINJ (n : Nat) : Fld := fld (0x80180 + 0x4 * n) 0 32 0 0

/-- ERA_XMISS.COUNT, bits [31:0], RC, reset 0 (R487). -/
def ERA_XMISS (n : Nat) : Fld := fld (0x80200 + 0x4 * n) 0 32 0 0

/-- ERA_CLKDEV.PPM, bits [31:0], RO, reset 0 (R487). -/
def ERA_CLKDEV (n : Nat) : Fld := fld (0x80240 + 0x4 * n) 0 32 0 0

/-- COL_ID.MINOR, bits [15:0], RO, reset 0x0000 (R539). -/
def COL_ID_MINOR : Fld := fld 0x90000 0 16 0 0

/-- COL_ID.MAJOR, bits [31:16], RO, reset 0x0001 (R539). -/
def COL_ID_MAJOR : Fld := fld 0x90000 16 16 1 0

/-- COL_CTL.COMMIT, bits [15:0], RW, reset NVM(1000) (R539). -/
def COL_CTL_COMMIT : Fld := fld 0x90004 0 16 1000 0

/-- COL_CTL.SNAPMAX, bits [23:16], RW, reset NVM(20) (R539). -/
def COL_CTL_SNAPMAX : Fld := fld 0x90004 16 8 20 0

/-- COL_STAT.OPEN, bits [0], RO, reset 0 (R539). -/
def COL_STAT_OPEN : Fld := fld 0x90008 0 1 0 0

/-- COL_STAT.COMMITTING, bits [1], RO, reset 0 (R539). -/
def COL_STAT_COMMITTING : Fld := fld 0x90008 1 1 0 0

/-- COL_STAT.UNCLEAN, bits [2], RO, reset 0 (R539). -/
def COL_STAT_UNCLEAN : Fld := fld 0x90008 2 1 0 0

/-- COL_STAT.DEGR, bits [3], RO, reset 0 (R539). -/
def COL_STAT_DEGR : Fld := fld 0x90008 3 1 0 0

/-- COL_STAT.NTRIG, bits [15:8], RO, reset 0 (R539). -/
def COL_STAT_NTRIG : Fld := fld 0x90008 8 8 0 0

/-- COL_STAT.OPENKB, bits [31:16], RO, reset 0 (R539). -/
def COL_STAT_OPENKB : Fld := fld 0x90008 16 16 0 0

/-- COL_OPT.MS, bits [31:0], RO, reset NVM (R539). -/
def COL_OPT : Fld := fld 0x9000C 0 48 0 0

/-- COL_PCC.PCC, bits [23:0], RO, reset NVM (R539). -/
def COL_PCC_PCC : Fld := fld 0x90014 0 24 0 0

/-- COL_TSEL.TRIG, bits [5:0], RW, reset 0 (R539). -/
def COL_TSEL_TRIG : Fld := fld 0x90018 0 6 0 0

/-- COL_TSTAT.KIND, bits [3:0], RO, reset NVM (R539). -/
def COL_TSTAT_KIND (i : Nat) : Fld := fld 0x9001C 0 4 0 i

/-- COL_TSTAT.EN, bits [4], RO, reset NVM (R539). -/
def COL_TSTAT_EN (i : Nat) : Fld := fld 0x9001C 4 1 0 i

/-- COL_TSTAT.PEND, bits [5], RO, reset 0 (R539). -/
def COL_TSTAT_PEND (i : Nat) : Fld := fld 0x9001C 5 1 0 i

/-- COL_TSTAT.NW, bits [25:16], RO, reset NVM (R539). -/
def COL_TSTAT_NW (i : Nat) : Fld := fld 0x9001C 16 10 0 i

/-- COL_TFIRE.COUNT, bits [31:0], RC, reset 0 (R539). -/
def COL_TFIRE (i : Nat) : Fld := fld 0x90020 0 32 0 i

/-- COL_TDROP.COUNT, bits [31:0], RC, reset 0 (R539). -/
def COL_TDROP (i : Nat) : Fld := fld 0x90024 0 32 0 i

/-- COL_LOST.COUNT, bits [31:0], RC, reset 0 (R539). -/
def COL_LOST : Fld := fld 0x90040 0 32 0 0

/-- COL_WERR.COUNT, bits [31:0], RC, reset 0 (R539). -/
def COL_WERR : Fld := fld 0x90044 0 32 0 0

/-- COL_SSTAT.NEWB, bits [0], RO, reset 0 (R539). -/
def COL_SSTAT_NEWB (n : Nat) : Fld := fld (0x90100 + 0x20 * n) 0 1 0 0

/-- COL_SSTAT.OK0, bits [1], RO, reset 0 (R539). -/
def COL_SSTAT_OK0 (n : Nat) : Fld := fld (0x90100 + 0x20 * n) 1 1 0 0

/-- COL_SSTAT.OK1, bits [2], RO, reset 0 (R539). -/
def COL_SSTAT_OK1 (n : Nat) : Fld := fld (0x90100 + 0x20 * n) 2 1 0 0

/-- COL_SSTAT.USE, bits [15:8], RO, reset 0 (R539). -/
def COL_SSTAT_USE (n : Nat) : Fld := fld (0x90100 + 0x20 * n) 8 8 0 0

/-- COL_SSTAT.WRAPS, bits [31:16], RO, reset 0 (R539). -/
def COL_SSTAT_WRAPS (n : Nat) : Fld := fld (0x90100 + 0x20 * n) 16 16 0 0

/-- COL_SFIRST.SEQ, bits [31:0], RO, reset 0 (R539). -/
def COL_SFIRST (n : Nat) : Fld := fld (0x90104 + 0x20 * n) 0 64 0 0

/-- COL_SNEXT.SEQ, bits [31:0], RO, reset 0 (R539). -/
def COL_SNEXT (n : Nat) : Fld := fld (0x9010C + 0x20 * n) 0 64 0 0

/-- COL_SREP.ONE, bits [15:0], RC, reset 0 (R539). -/
def COL_SREP_ONE (n : Nat) : Fld := fld (0x90114 + 0x20 * n) 0 16 0 0

/-- COL_SREP.BOTH, bits [31:16], RC, reset 0 (R539). -/
def COL_SREP_BOTH (n : Nat) : Fld := fld (0x90114 + 0x20 * n) 16 16 0 0

/-- UPD_ID.MINOR, bits [15:0], RO, reset 0x0000 (R562). -/
def UPD_ID_MINOR : Fld := fld 0xA0000 0 16 0 0

/-- UPD_ID.MAJOR, bits [31:16], RO, reset 0x0001 (R562). -/
def UPD_ID_MAJOR : Fld := fld 0xA0000 16 16 1 0

/-- UPD_CTL.AUTO, bits [0], RW, reset NVM(1) (R562). -/
def UPD_CTL_AUTO : Fld := fld 0xA0004 0 1 1 0

/-- UPD_CTL.SOAK, bits [15:8], RW, reset NVM(10) (R562). -/
def UPD_CTL_SOAK : Fld := fld 0xA0004 8 8 10 0

/-- UPD_STAT.PLAN, bits [1:0], RO, reset NVM (R562). -/
def UPD_STAT_PLAN : Fld := fld 0xA0008 0 2 0 0

/-- UPD_STAT.STEPT, bits [4:2], RO, reset 0 (R562). -/
def UPD_STAT_STEPT : Fld := fld 0xA0008 2 3 0 0

/-- UPD_STAT.PART, bits [5], RO, reset 0 (R562). -/
def UPD_STAT_PART : Fld := fld 0xA0008 5 1 0 0

/-- UPD_STAT.LOCKS, bits [11:6], RO, reset 0 (R562). -/
def UPD_STAT_LOCKS : Fld := fld 0xA0008 6 6 0 0

/-- UPD_STAT.REVOKED, bits [15:12], RO, reset NVM (R562). -/
def UPD_STAT_REVOKED : Fld := fld 0xA0008 12 4 0 0

/-- UPD_STAT.PLANNO, bits [31:16], RO, reset NVM (R562). -/
def UPD_STAT_PLANNO : Fld := fld 0xA0008 16 16 0 0

/-- UPD_NONCE.NONCE, bits [31:0], RO, reset Random (R562). -/
def UPD_NONCE : Fld := fld 0xA000C 0 64 0 0

/-- UPD_VER.IVER, bits [31:0], RO, reset NVM (R562). -/
def UPD_VER (n : Nat) : Fld := fld (0xA0020 + 0x4 * n) 0 32 0 0

/-- UPD_SLOT.ASTATE, bits [2:0], RO, reset NVM (R562). -/
def UPD_SLOT_ASTATE (n : Nat) : Fld := fld (0xA0040 + 0x4 * n) 0 3 0 0

/-- UPD_SLOT.BSTATE, bits [5:3], RO, reset NVM (R562). -/
def UPD_SLOT_BSTATE (n : Nat) : Fld := fld (0xA0040 + 0x4 * n) 3 3 0 0

/-- UPD_SLOT.LSRC, bits [9:8], RO, reset 0 (R562). -/
def UPD_SLOT_LSRC (n : Nat) : Fld := fld (0xA0040 + 0x4 * n) 8 2 0 0

/-- UPD_SLOT.LRING, bits [29:16], RO, reset 0 (R562). -/
def UPD_SLOT_LRING (n : Nat) : Fld := fld (0xA0040 + 0x4 * n) 16 14 0 0

/-- PRF_ID.MINOR, bits [15:0], RO, reset 0x0000 (R572). -/
def PRF_ID_MINOR : Fld := fld 0xB0000 0 16 0 0

/-- PRF_ID.MAJOR, bits [31:16], RO, reset 0x0001 (R572). -/
def PRF_ID_MAJOR : Fld := fld 0xB0000 16 16 1 0

/-- PRF_CTL.USR, bits [0], RW, reset NVM(0) (R572). -/
def PRF_CTL_USR : Fld := fld 0xB0004 0 1 0 0

/-- PRF_CTL.FRZ, bits [1], RW, reset 0 (R572). -/
def PRF_CTL_FRZ : Fld := fld 0xB0004 1 1 0 0

/-- PRF_TAG.K, bits [4:0], RW, reset NVM(0) (R572). -/
def PRF_TAG_K : Fld := fld 0xB0008 0 5 0 0

/-- PRF_TAG.TBMASK, bits [11:8], RW, reset NVM(0xF) (R572). -/
def PRF_TAG_TBMASK : Fld := fld 0xB0008 8 4 15 0

/-- PRF_TAG.KMASK, bits [15:12], RW, reset NVM(0xF) (R572). -/
def PRF_TAG_KMASK : Fld := fld 0xB0008 12 4 15 0

/-- PRF_TSEED.SEED, bits [31:0], RW, reset NVM(1) (R572). -/
def PRF_TSEED : Fld := fld 0xB000C 0 32 1 0

/-- PRF_STAT.WIGN, bits [0], W1C, reset 0 (R572). -/
def PRF_STAT_WIGN : Fld := fld 0xB0010 0 1 0 0

/-- PRF_STAT.INFL, bits [4:1], RO, reset 0 (R572). -/
def PRF_STAT_INFL : Fld := fld 0xB0010 1 4 0 0

/-- PRF_TCNT.COUNT, bits [31:0], RC, reset 0 (R572). -/
def PRF_TCNT : Fld := fld 0xB0014 0 32 0 0

/-- PRF_TSKIP.COUNT, bits [31:0], RC, reset 0 (R572). -/
def PRF_TSKIP : Fld := fld 0xB0018 0 32 0 0

/-- PRF_OVF.CNT, bits [7:0], W1C, reset 0 (R572). -/
def PRF_OVF_CNT (n : Nat) : Fld := fld (0xB0100 + 0x100 * n) 0 8 0 0

/-- PRF_OVF.CYC, bits [8], W1C, reset 0 (R572). -/
def PRF_OVF_CYC (n : Nat) : Fld := fld (0xB0100 + 0x100 * n) 8 1 0 0

/-- PRF_CYC.VALUE, bits [31:0], RO, reset 0 (R572). -/
def PRF_CYC (n : Nat) : Fld := fld (0xB0108 + 0x100 * n) 0 64 0 0

/-- PRF_CNT.VALUE, bits [31:0], RW, reset 0 (R572). -/
def PRF_CNT (n c : Nat) : Fld := fld (0xB0110 + 0x100 * n + 8 * c) 0 48 0 0

/-- PRF_SEL.EVENT, bits [7:0], RW, reset NVM(0) (R572). -/
def PRF_SEL_EVENT (n c : Nat) : Fld := fld (0xB0160 + 0x100 * n + 4 * c) 0 8 0 0

/-- PRF_SEL.KMASK, bits [11:8], RW, reset NVM(0) (R572). -/
def PRF_SEL_KMASK (n c : Nat) : Fld := fld (0xB0160 + 0x100 * n + 4 * c) 8 4 0 0

/-- PRF_SEL.EN, bits [12], RW, reset NVM(0) (R572). -/
def PRF_SEL_EN (n c : Nat) : Fld := fld (0xB0160 + 0x100 * n + 4 * c) 12 1 0 0

/-- SPR_ID.MINOR, bits [15:0], RO, reset 0x0000 (R585). -/
def SPR_ID_MINOR : Fld := fld 0xC0000 0 16 0 0

/-- SPR_ID.MAJOR, bits [31:16], RO, reset 0x0001 (R585). -/
def SPR_ID_MAJOR : Fld := fld 0xC0000 16 16 1 0

/-- SPR_CTL.LOW, bits [7:0], RW, reset NVM(25) (R585). -/
def SPR_CTL_LOW : Fld := fld 0xC0004 0 8 25 0

/-- SPR_CTL.PREEMPT, bits [8], RW, reset NVM(1) (R585). -/
def SPR_CTL_PREEMPT : Fld := fld 0xC0004 8 1 1 0

/-- SPR_STAT.LOWK, bits [9:0], RO, reset NVM (R585). -/
def SPR_STAT_LOWK : Fld := fld 0xC0008 0 10 0 0

/-- SPR_STAT.REPAIR, bits [10], RO, reset 0 (R585). -/
def SPR_STAT_REPAIR : Fld := fld 0xC0008 10 1 0 0

/-- SPR_STAT.NWORN, bits [31:16], RO, reset NVM (R585). -/
def SPR_STAT_NWORN : Fld := fld 0xC0008 16 16 0 0

/-- SPR_RSTAT.KIND, bits [2:0], RO, reset 0 (R585). -/
def SPR_RSTAT_KIND : Fld := fld 0xC000C 0 3 0 0

/-- SPR_RSTAT.OUT, bits [7:3], RO, reset 0 (R585). -/
def SPR_RSTAT_OUT : Fld := fld 0xC000C 3 5 0 0

/-- SPR_RSTAT.UNIT, bits [31:8], RO, reset 0 (R585). -/
def SPR_RSTAT_UNIT : Fld := fld 0xC000C 8 24 0 0

/-- SPR_WTHR0.LEAFCRC, bits [7:0], RW, reset NVM(3) (R585). -/
def SPR_WTHR0_LEAFCRC : Fld := fld 0xC0010 0 8 3 0

/-- SPR_WTHR0.LANEREP, bits [15:8], RW, reset NVM(100) (R585). -/
def SPR_WTHR0_LANEREP : Fld := fld 0xC0010 8 8 100 0

/-- SPR_WTHR0.LINKCRC, bits [31:16], RW, reset NVM(1000) (R585). -/
def SPR_WTHR0_LINKCRC : Fld := fld 0xC0010 16 16 1000 0

/-- SPR_WTHR1.PTRIP, bits [15:0], RW, reset NVM(20) (R585). -/
def SPR_WTHR1_PTRIP : Fld := fld 0xC0014 0 16 20 0

/-- SPR_WTHR1.PHOURS, bits [31:16], RW, reset NVM(100) (R585). -/
def SPR_WTHR1_PHOURS : Fld := fld 0xC0014 16 16 100 0

/-- SPR_RES.REMAIN, bits [15:0], RO, reset NVM (R585). -/
def SPR_RES_REMAIN (n : Nat) : Fld := fld (0xC0100 + 0x4 * n) 0 16 0 0

/-- SPR_RES.TOTAL, bits [31:16], RO, reset not given (R585). -/
def SPR_RES_TOTAL (n : Nat) : Fld := fld (0xC0100 + 0x4 * n) 16 16 0 0

end Reg

end Sys2Proof.Machine
end

