-- ==== Sys2Proof/Machine/RegTable.lean ====
section
/-!
DEFINITION. The register map as one table: for each register of BAR0 its address, how many there are and at what stride,
whether it is read through a window (R587), and its fields with the access codes of R8. The accesses of the host
(R588) and the snapshot selectors (R522) look a register up here.
-/
namespace Sys2Proof.Machine

/-- The access codes of R8. -/
inductive Acc | ro | rw | w1c | w1s | wo | rc
deriving DecidableEq, Repr

/-- One field of a register row: its bits, its access, the reset value of the whole field, and for the upper half of a
64-bit pair (R11) how many bytes back the field's home lies and at which bit of it this half starts. -/
structure RField where
  lo : Nat
  width : Nat
  acc : Acc
  reset : Nat
  back : Nat
  sh : Nat
  full : Nat
deriving DecidableEq, Repr

/-- One register row: address of the first, how many, their stride, whether a window selects the entry. -/
structure RegRow where
  addr : Nat
  count : Nat
  stride : Nat
  windowed : Bool
  fields : List RField
deriving DecidableEq, Repr

/-- Registers of block GLB. -/
def regsGlb : List RegRow :=
  [ ⟨0x0, 1, 0x4, false, [⟨0, 16, .ro, 0x9640, 0, 0, 16⟩, ⟨16, 8, .ro, 176, 0, 0, 8⟩, ⟨24, 8, .ro, 3, 0, 0, 8⟩]⟩  -- GLB_ID
  , ⟨0x4, 1, 0x4, false, [⟨0, 16, .ro, 0, 0, 0, 16⟩, ⟨16, 16, .ro, 1, 0, 0, 16⟩]⟩  -- GLB_BLKVER
  , ⟨0x8, 1, 0x4, false, [⟨0, 32, .ro, 1, 0, 0, 64⟩]⟩  -- GLB_SERIAL_LO
  , ⟨0xC, 1, 0x4, false, [⟨0, 32, .ro, 1, 4, 32, 64⟩]⟩  -- GLB_SERIAL_HI
  , ⟨0x10, 1, 0x4, false, [⟨0, 16, .ro, 0x1F3C, 0, 0, 16⟩, ⟨16, 16, .ro, 3, 0, 0, 16⟩]⟩  -- GLB_VENDOR
  , ⟨0x20, 1, 0x4, false, [⟨0, 8, .ro, 1, 0, 0, 8⟩, ⟨8, 1, .ro, 0, 0, 0, 1⟩, ⟨16, 8, .ro, 0, 0, 0, 8⟩, ⟨24, 8, .ro, 0, 0, 0, 8⟩]⟩  -- GLB_RSTCAUSE
  , ⟨0x24, 1, 0x4, false, [⟨0, 4, .ro, 0, 0, 0, 4⟩, ⟨8, 1, .ro, 0, 0, 0, 1⟩, ⟨9, 1, .ro, 0, 0, 0, 1⟩, ⟨10, 4, .ro, 0, 0, 0, 4⟩, ⟨14, 1, .ro, 0, 0, 0, 1⟩, ⟨15, 1, .ro, 0, 0, 0, 1⟩, ⟨16, 1, .ro, 0, 0, 0, 1⟩]⟩  -- GLB_BOOTSTAT
  , ⟨0x28, 1, 0x4, false, [⟨0, 1, .ro, 0, 0, 0, 1⟩, ⟨1, 1, .ro, 0, 0, 0, 1⟩, ⟨2, 1, .ro, 0, 0, 0, 1⟩, ⟨3, 1, .ro, 0, 0, 0, 1⟩, ⟨4, 1, .ro, 0, 0, 0, 1⟩, ⟨5, 1, .ro, 0, 0, 0, 1⟩]⟩  -- GLB_WAITCOND
  , ⟨0x2C, 1, 0x4, false, [⟨0, 32, .rc, 0, 0, 0, 32⟩]⟩  -- GLB_EARLYWR
  , ⟨0x30, 1, 0x4, false, [⟨0, 1, .wo, 0, 0, 0, 1⟩, ⟨16, 16, .wo, 0, 0, 0, 16⟩]⟩  -- GLB_CTL
  , ⟨0x34, 1, 0x4, false, [⟨0, 1, .w1c, 0, 0, 0, 1⟩, ⟨1, 2, .ro, 0, 0, 0, 2⟩, ⟨3, 1, .w1c, 0, 0, 0, 1⟩, ⟨8, 1, .ro, 0, 0, 0, 1⟩, ⟨9, 1, .ro, 0, 0, 0, 1⟩, ⟨10, 1, .ro, 0, 0, 0, 1⟩, ⟨11, 1, .ro, 0, 0, 0, 1⟩, ⟨12, 1, .ro, 1, 0, 0, 1⟩, ⟨13, 1, .ro, 0, 0, 0, 1⟩, ⟨14, 1, .ro, 0, 0, 0, 1⟩, ⟨15, 1, .ro, 0, 0, 0, 1⟩, ⟨16, 1, .ro, 0, 0, 0, 1⟩, ⟨17, 1, .ro, 0, 0, 0, 1⟩]⟩  -- GLB_STAT
  , ⟨0x38, 1, 0x4, false, [⟨0, 1, .rw, 0, 0, 0, 1⟩]⟩  -- GLB_START
  , ⟨0x3C, 1, 0x4, false, [⟨0, 4, .ro, 4, 0, 0, 4⟩, ⟨4, 4, .ro, 0, 0, 0, 4⟩, ⟨8, 4, .ro, 0, 0, 0, 4⟩, ⟨12, 1, .ro, 0, 0, 0, 1⟩]⟩  -- GLB_HIER
  , ⟨0x40, 1, 0x4, false, [⟨0, 1, .ro, 0, 0, 0, 1⟩, ⟨1, 3, .ro, 0, 0, 0, 3⟩, ⟨4, 1, .ro, 0, 0, 0, 1⟩, ⟨5, 1, .ro, 0, 0, 0, 1⟩, ⟨6, 4, .ro, 0, 0, 0, 4⟩, ⟨10, 1, .ro, 0, 0, 0, 1⟩, ⟨11, 1, .ro, 0, 0, 0, 1⟩, ⟨12, 3, .ro, 0, 0, 0, 3⟩, ⟨15, 1, .ro, 0, 0, 0, 1⟩, ⟨16, 1, .ro, 0, 0, 0, 1⟩, ⟨17, 1, .ro, 0, 0, 0, 1⟩, ⟨18, 3, .ro, 0, 0, 0, 3⟩, ⟨21, 1, .ro, 0, 0, 0, 1⟩, ⟨22, 1, .ro, 0, 0, 0, 1⟩]⟩  -- GLB_SEAT
  , ⟨0x50, 1, 0x4, false, [⟨0, 16, .ro, 0, 0, 0, 16⟩, ⟨16, 16, .ro, 0, 0, 0, 16⟩]⟩  -- GLB_VIN
  , ⟨0x54, 1, 0x4, false, [⟨0, 16, .ro, 0, 0, 0, 16⟩, ⟨16, 16, .ro, 0, 0, 0, 16⟩]⟩  -- GLB_IIN
  , ⟨0x58, 1, 0x4, false, [⟨0, 16, .ro, 0, 0, 0, 16⟩, ⟨16, 16, .ro, 0, 0, 0, 16⟩]⟩  -- GLB_PIN
  , ⟨0x5C, 1, 0x4, false, [⟨0, 16, .ro, 0, 0, 0, 16⟩, ⟨16, 1, .ro, 0, 0, 0, 1⟩, ⟨17, 1, .ro, 0, 0, 0, 1⟩]⟩  -- GLB_VRSV
  , ⟨0x60, 1, 0x4, false, [⟨0, 1, .ro, 0, 0, 0, 1⟩, ⟨1, 1, .ro, 0, 0, 0, 1⟩, ⟨2, 1, .ro, 0, 0, 0, 1⟩, ⟨3, 1, .ro, 0, 0, 0, 1⟩, ⟨4, 1, .ro, 0, 0, 0, 1⟩]⟩  -- GLB_PWRSTAT
  , ⟨0x64, 1, 0x4, false, [⟨0, 16, .ro, 0, 0, 0, 16⟩, ⟨16, 16, .ro, 0, 0, 0, 16⟩]⟩  -- GLB_TEMP
  , ⟨0x80, 1, 0x4, false, [⟨0, 13, .ro, 0, 0, 0, 13⟩]⟩  -- GLB_ISL_PWR
  , ⟨0x84, 1, 0x4, false, [⟨0, 13, .ro, 0, 0, 0, 13⟩]⟩  -- GLB_ISL_RST
  , ⟨0x88, 1, 0x4, false, [⟨0, 13, .ro, 0, 0, 0, 13⟩]⟩  -- GLB_ISL_CLK
  , ⟨0xF0, 1, 0x4, false, [⟨0, 32, .rw, 0, 0, 0, 32⟩]⟩  -- GLB_SCRATCH
  ]

/-- Registers of block HST. -/
def regsHst : List RegRow :=
  [ ⟨0x10000, 1, 0x4, false, [⟨0, 16, .ro, 0, 0, 0, 16⟩, ⟨16, 16, .ro, 1, 0, 0, 16⟩]⟩  -- HST_ID
  , ⟨0x10004, 1, 0x4, false, [⟨0, 1, .rw, 0, 0, 0, 1⟩, ⟨8, 1, .rw, 1, 0, 0, 1⟩, ⟨16, 16, .rw, 40, 0, 0, 16⟩]⟩  -- HST_CTL
  , ⟨0x10008, 1, 0x4, false, [⟨0, 4, .ro, 0, 0, 0, 4⟩, ⟨4, 5, .ro, 0, 0, 0, 5⟩, ⟨9, 1, .ro, 0, 0, 0, 1⟩, ⟨10, 1, .ro, 0, 0, 0, 1⟩, ⟨11, 1, .w1c, 0, 0, 0, 1⟩, ⟨12, 1, .w1c, 0, 0, 0, 1⟩]⟩  -- HST_STAT
  , ⟨0x10010, 1, 0x4, false, [⟨0, 14, .rw, 0, 0, 0, 14⟩]⟩  -- HST_RSEL
  , ⟨0x10014, 1, 0x4, false, [⟨0, 3, .wo, 0, 0, 0, 3⟩]⟩  -- HST_RCMD
  , ⟨0x10018, 1, 0x4, true, [⟨0, 32, .rw, 0, 0, 0, 64⟩]⟩  -- HST_RBASE_LO
  , ⟨0x1001C, 1, 0x4, true, [⟨0, 32, .rw, 0, 4, 32, 64⟩]⟩  -- HST_RBASE_HI
  , ⟨0x10020, 1, 0x4, true, [⟨0, 5, .rw, 0, 0, 0, 5⟩, ⟨8, 4, .rw, 0, 0, 0, 4⟩, ⟨12, 2, .rw, 0, 0, 0, 2⟩, ⟨14, 1, .rw, 0, 0, 0, 1⟩, ⟨16, 14, .rw, 0, 0, 0, 14⟩, ⟨30, 2, .rw, 0, 0, 0, 2⟩]⟩  -- HST_RCFG
  , ⟨0x10024, 1, 0x4, true, [⟨0, 11, .rw, 0, 0, 0, 11⟩, ⟨11, 1, .rw, 0, 0, 0, 1⟩, ⟨16, 8, .rw, 0, 0, 0, 8⟩, ⟨24, 8, .rw, 0, 0, 0, 8⟩]⟩  -- HST_RIRQ
  , ⟨0x10028, 1, 0x4, true, [⟨0, 32, .rw, 0, 0, 0, 64⟩]⟩  -- HST_RDATA_LO
  , ⟨0x1002C, 1, 0x4, true, [⟨0, 32, .rw, 0, 4, 32, 64⟩]⟩  -- HST_RDATA_HI
  , ⟨0x10030, 1, 0x4, true, [⟨0, 4, .rw, 0, 0, 0, 4⟩, ⟨8, 4, .rw, 0, 0, 0, 4⟩]⟩  -- HST_RAUX
  , ⟨0x10034, 1, 0x4, true, [⟨0, 32, .rw, 0xFFFFFFFF, 0, 0, 32⟩]⟩  -- HST_REVMASK
  , ⟨0x10038, 1, 0x4, true, [⟨0, 16, .ro, 0, 0, 0, 16⟩, ⟨16, 16, .ro, 0, 0, 0, 16⟩]⟩  -- HST_RPTR
  , ⟨0x1003C, 1, 0x4, true, [⟨0, 1, .ro, 0, 0, 0, 1⟩, ⟨1, 1, .ro, 0, 0, 0, 1⟩, ⟨2, 1, .ro, 0, 0, 0, 1⟩, ⟨3, 1, .ro, 0, 0, 0, 1⟩, ⟨4, 1, .ro, 0, 0, 0, 1⟩, ⟨8, 4, .ro, 0, 0, 0, 4⟩]⟩  -- HST_RSTAT
  , ⟨0x10040, 1, 0x4, true, [⟨0, 32, .ro, 0, 0, 0, 64⟩]⟩  -- HST_RCNT_LO
  , ⟨0x10044, 1, 0x4, true, [⟨0, 32, .ro, 0, 4, 32, 64⟩]⟩  -- HST_RCNT_HI
  , ⟨0x10048, 1, 0x4, true, [⟨0, 32, .rc, 0, 0, 0, 32⟩]⟩  -- HST_RDROP
  , ⟨0x1004C, 1, 0x4, true, [⟨0, 32, .rc, 0, 0, 0, 32⟩]⟩  -- HST_RDBIGN
  , ⟨0x10080, 1, 0x4, false, [⟨0, 1, .rw, 1, 0, 0, 1⟩, ⟨8, 8, .rw, 10, 0, 0, 8⟩]⟩  -- HST_PTM_CTL
  , ⟨0x10084, 1, 0x4, false, [⟨0, 1, .ro, 0, 0, 0, 1⟩, ⟨1, 1, .w1c, 0, 0, 0, 1⟩, ⟨16, 16, .ro, 0xFFFF, 0, 0, 16⟩]⟩  -- HST_PTM_STAT
  , ⟨0x10088, 1, 0x4, false, [⟨0, 32, .ro, 0, 0, 0, 64⟩]⟩  -- HST_PTM_OFS_LO
  , ⟨0x1008C, 1, 0x4, false, [⟨0, 32, .ro, 0, 4, 32, 64⟩]⟩  -- HST_PTM_OFS_HI
  , ⟨0x10090, 1, 0x4, false, [⟨0, 32, .ro, 0, 0, 0, 64⟩]⟩  -- HST_DMAERR_LO
  , ⟨0x10094, 1, 0x4, false, [⟨0, 32, .ro, 0, 4, 32, 64⟩]⟩  -- HST_DMAERR_HI
  , ⟨0x10098, 1, 0x4, false, [⟨0, 14, .ro, 0, 0, 0, 14⟩, ⟨16, 4, .ro, 0, 0, 0, 4⟩, ⟨31, 1, .w1c, 0, 0, 0, 1⟩]⟩  -- HST_DMAERR_INFO
  , ⟨0x100A0, 1, 0x4, false, [⟨0, 32, .rc, 0, 0, 0, 32⟩]⟩  -- HST_SGAP
  , ⟨0x10100, 1, 0x4, false, [⟨0, 1, .rw, 1, 0, 0, 1⟩, ⟨4, 3, .rw, 2, 0, 0, 3⟩, ⟨8, 8, .rw, 30, 0, 0, 8⟩]⟩  -- HST_ING_CTL
  , ⟨0x10104, 1, 0x4, false, [⟨0, 1, .ro, 0, 0, 0, 1⟩, ⟨1, 1, .ro, 0, 0, 0, 1⟩, ⟨2, 1, .ro, 0, 0, 0, 1⟩, ⟨3, 1, .w1c, 0, 0, 0, 1⟩]⟩  -- HST_ING_STAT
  , ⟨0x10108, 1, 0x4, false, [⟨0, 16, .ro, 0, 0, 0, 16⟩, ⟨16, 16, .ro, 0, 0, 0, 16⟩]⟩  -- HST_ING_CAP
  ]

/-- Registers of block HST. -/
def regsHst2 : List RegRow :=
  [ ⟨0x1010C, 1, 0x4, false, [⟨0, 16, .ro, 0, 0, 0, 16⟩, ⟨16, 16, .ro, 0, 0, 0, 16⟩]⟩  -- HST_ING_BOUND
  , ⟨0x10110, 1, 0x4, false, [⟨0, 17, .ro, 0, 0, 0, 17⟩]⟩  -- HST_ING_SCHED
  , ⟨0x10120, 1, 0x4, false, [⟨0, 32, .rc, 0, 0, 0, 32⟩]⟩  -- HST_ING_DUP
  , ⟨0x10124, 1, 0x4, false, [⟨0, 32, .rc, 0, 0, 0, 32⟩]⟩  -- HST_ING_GAP
  , ⟨0x10128, 1, 0x4, false, [⟨0, 32, .rc, 0, 0, 0, 32⟩]⟩  -- HST_ING_UNB
  , ⟨0x1012C, 1, 0x4, false, [⟨0, 32, .rc, 0, 0, 0, 32⟩]⟩  -- HST_ING_RING
  , ⟨0x10130, 1, 0x4, false, [⟨0, 32, .rc, 0, 0, 0, 32⟩]⟩  -- HST_ING_FUT
  , ⟨0x10134, 1, 0x4, false, [⟨0, 32, .rc, 0, 0, 0, 32⟩]⟩  -- HST_ING_OLD
  , ⟨0x10138, 1, 0x4, false, [⟨0, 32, .rc, 0, 0, 0, 32⟩]⟩  -- HST_ING_SOVF
  , ⟨0x1013C, 1, 0x4, false, [⟨0, 32, .rc, 0, 0, 0, 32⟩]⟩  -- HST_ING_LEFT
  , ⟨0x11000, 512, 0x4, false, [⟨0, 32, .ro, 0, 0, 0, 32⟩]⟩  -- HST_RENSUM
  , ⟨0x12000, 512, 0x4, false, [⟨0, 32, .ro, 0, 0, 0, 32⟩]⟩  -- HST_RERRSUM
  , ⟨0x14000, 8192, 0x4, false, [⟨0, 3, .ro, 0, 0, 0, 3⟩, ⟨3, 1, .ro, 0, 0, 0, 1⟩, ⟨4, 1, .ro, 0, 0, 0, 1⟩, ⟨5, 1, .ro, 0, 0, 0, 1⟩, ⟨6, 2, .ro, 0, 0, 0, 2⟩, ⟨16, 16, .ro, 0xFFFF, 0, 0, 16⟩]⟩  -- HST_SSTAT
  ]

/-- Registers of block PRS. -/
def regsPrs : List RegRow :=
  [ ⟨0x20000, 1, 0x4, false, [⟨0, 16, .ro, 0, 0, 0, 16⟩, ⟨16, 16, .ro, 1, 0, 0, 16⟩]⟩  -- PRS_ID
  , ⟨0x20004, 1, 0x4, false, [⟨0, 4, .ro, 4, 0, 0, 4⟩, ⟨4, 4, .ro, 0, 0, 0, 4⟩, ⟨8, 4, .ro, 0, 0, 0, 4⟩, ⟨12, 1, .ro, 0, 0, 0, 1⟩, ⟨13, 1, .ro, 0, 0, 0, 1⟩, ⟨16, 16, .ro, 0, 0, 0, 16⟩]⟩  -- PRS_STAT
  , ⟨0x20008, 1, 0x4, false, [⟨0, 1, .w1c, 0, 0, 0, 1⟩, ⟨1, 1, .w1c, 0, 0, 0, 1⟩, ⟨2, 1, .w1c, 0, 0, 0, 1⟩, ⟨3, 1, .w1c, 0, 0, 0, 1⟩, ⟨4, 1, .w1c, 0, 0, 0, 1⟩]⟩  -- PRS_SAT
  , ⟨0x2000C, 1, 0x4, false, [⟨0, 8, .rw, 10, 0, 0, 8⟩, ⟨8, 8, .rw, 20, 0, 0, 8⟩, ⟨16, 8, .rw, 40, 0, 0, 8⟩, ⟨24, 8, .rw, 80, 0, 0, 8⟩]⟩  -- PRS_BAR_LIM
  , ⟨0x20010, 1, 0x4, false, [⟨0, 1, .rw, 1, 0, 0, 1⟩, ⟨8, 8, .rw, 8, 0, 0, 8⟩, ⟨16, 8, .rw, 3, 0, 0, 8⟩]⟩  -- PRS_SCRUB_CTL
  , ⟨0x20014, 1, 0x4, false, [⟨0, 8, .ro, 0, 0, 0, 8⟩, ⟨8, 8, .ro, 0, 0, 0, 8⟩, ⟨16, 8, .ro, 0, 0, 0, 8⟩, ⟨24, 8, .ro, 0, 0, 0, 8⟩]⟩  -- PRS_SCRUB_STAT
  , ⟨0x20018, 1, 0x4, false, [⟨0, 16, .rc, 0, 0, 0, 16⟩, ⟨16, 16, .rc, 0, 0, 0, 16⟩]⟩  -- PRS_SPN_ERR
  , ⟨0x20020, 1, 0x4, false, [⟨0, 1, .w1c, 0, 0, 0, 1⟩, ⟨1, 1, .w1c, 0, 0, 0, 1⟩, ⟨2, 1, .w1c, 0, 0, 0, 1⟩, ⟨3, 1, .w1c, 0, 0, 0, 1⟩, ⟨4, 1, .w1c, 0, 0, 0, 1⟩]⟩  -- PRS_ASAT
  , ⟨0x20024, 1, 0x4, false, [⟨0, 32, .rc, 0, 0, 0, 32⟩]⟩  -- PRS_ASAT_CNT
  , ⟨0x20028, 1, 0x4, false, [⟨0, 16, .ro, 0, 0, 0, 16⟩, ⟨16, 8, .ro, 0, 0, 0, 8⟩, ⟨24, 2, .ro, 0, 0, 0, 2⟩, ⟨26, 4, .ro, 0, 0, 0, 4⟩, ⟨31, 1, .w1c, 0, 0, 0, 1⟩]⟩  -- PRS_ASAT_POS
  , ⟨0x20100, 4, 0x40, false, [⟨0, 2, .ro, 0, 0, 0, 2⟩, ⟨2, 1, .ro, 0, 0, 0, 1⟩, ⟨3, 1, .ro, 0, 0, 0, 1⟩, ⟨8, 2, .ro, 0, 0, 0, 2⟩]⟩  -- PRS_TB_STAT
  , ⟨0x20104, 4, 0x40, false, [⟨0, 8, .ro, 0, 0, 0, 8⟩, ⟨8, 8, .ro, 0, 0, 0, 8⟩]⟩  -- PRS_TB_QMAP
  , ⟨0x20108, 4, 0x40, false, [⟨0, 8, .ro, 128, 0, 0, 8⟩, ⟨8, 4, .ro, 8, 0, 0, 4⟩, ⟨12, 5, .ro, 16, 0, 0, 5⟩, ⟨17, 15, .ro, 0, 0, 0, 15⟩]⟩  -- PRS_TB_SPARE
  , ⟨0x2010C, 4, 0x40, false, [⟨0, 32, .rc, 0, 0, 0, 32⟩]⟩  -- PRS_TB_CE
  , ⟨0x20110, 4, 0x40, false, [⟨0, 32, .rc, 0, 0, 0, 32⟩]⟩  -- PRS_TB_UE
  , ⟨0x20114, 4, 0x40, false, [⟨0, 32, .ro, 0, 0, 0, 64⟩]⟩  -- PRS_TB_EADDR_LO
  , ⟨0x20118, 4, 0x40, false, [⟨0, 32, .ro, 0, 4, 32, 64⟩]⟩  -- PRS_TB_EADDR_HI
  , ⟨0x2011C, 4, 0x40, false, [⟨0, 3, .ro, 0, 0, 0, 3⟩, ⟨8, 1, .ro, 0, 0, 0, 1⟩, ⟨31, 1, .w1c, 0, 0, 0, 1⟩]⟩  -- PRS_TB_EINFO
  , ⟨0x20120, 4, 0x40, false, [⟨0, 16, .ro, 0, 0, 0, 16⟩, ⟨16, 16, .ro, 0, 0, 0, 16⟩]⟩  -- PRS_TB_TEMP
  , ⟨0x21000, 1, 0x4, false, [⟨0, 1, .rw, 1, 0, 0, 1⟩, ⟨8, 8, .rw, 50, 0, 0, 8⟩, ⟨16, 16, .rw, 0x4650, 0, 0, 16⟩]⟩  -- PRS_FCTL
  , ⟨0x21004, 1, 0x4, false, [⟨0, 3, .ro, 0, 0, 0, 3⟩, ⟨3, 1, .ro, 0, 0, 0, 1⟩, ⟨4, 1, .ro, 0, 0, 0, 1⟩, ⟨5, 1, .ro, 0, 0, 0, 1⟩, ⟨6, 1, .ro, 0, 0, 0, 1⟩, ⟨16, 8, .ro, 0, 0, 0, 8⟩, ⟨24, 8, .ro, 0, 0, 0, 8⟩]⟩  -- PRS_FSTAT
  , ⟨0x21008, 1, 0x4, false, [⟨0, 16, .ro, 0, 0, 0, 16⟩, ⟨16, 16, .ro, 0, 0, 0, 16⟩]⟩  -- PRS_FCYC
  , ⟨0x2100C, 1, 0x4, false, [⟨0, 32, .rc, 0, 0, 0, 32⟩]⟩  -- PRS_FABANDON
  , ⟨0x22000, 1, 0x4, false, [⟨0, 8, .rw, 40, 0, 0, 8⟩, ⟨8, 8, .rw, 10, 0, 0, 8⟩, ⟨16, 8, .rw, 80, 0, 0, 8⟩, ⟨24, 3, .rw, 2, 0, 0, 3⟩, ⟨28, 4, .rw, 3, 0, 0, 4⟩]⟩  -- PRS_GAL_CTL
  , ⟨0x22004, 1, 0x4, false, [⟨0, 16, .rw, 2000, 0, 0, 16⟩, ⟨16, 16, .rw, 100, 0, 0, 16⟩]⟩  -- PRS_GAL_RB
  , ⟨0x22008, 1, 0x4, false, [⟨0, 8, .rw, 5, 0, 0, 8⟩, ⟨8, 8, .rw, 64, 0, 0, 8⟩, ⟨16, 8, .rw, 20, 0, 0, 8⟩]⟩  -- PRS_GAL_REF
  , ⟨0x2200C, 1, 0x4, false, [⟨0, 8, .rw, 50, 0, 0, 8⟩, ⟨8, 1, .rw, 0, 0, 0, 1⟩, ⟨9, 2, .rw, 0, 0, 0, 2⟩]⟩  -- PRS_GAL_EXP
  , ⟨0x22010, 1, 0x4, false, [⟨0, 3, .ro, 0, 0, 0, 3⟩, ⟨3, 1, .ro, 0, 0, 0, 1⟩, ⟨4, 2, .ro, 1, 0, 0, 2⟩, ⟨6, 1, .ro, 0, 0, 0, 1⟩, ⟨8, 3, .ro, 0, 0, 0, 3⟩, ⟨11, 1, .ro, 0, 0, 0, 1⟩, ⟨12, 3, .ro, 0, 0, 0, 3⟩, ⟨15, 1, .ro, 0, 0, 0, 1⟩]⟩  -- PRS_GAL_STAT
  , ⟨0x22014, 1, 0x4, false, [⟨0, 17, .ro, 0, 0, 0, 17⟩]⟩  -- PRS_GAL_SHARE
  , ⟨0x22018, 1, 0x4, false, [⟨0, 32, .ro, 0, 0, 0, 64⟩]⟩  -- PRS_GAL_CYC_LO
  ]

/-- Registers of block PRS. -/
def regsPrs2 : List RegRow :=
  [ ⟨0x2201C, 1, 0x4, false, [⟨0, 32, .ro, 0, 4, 32, 64⟩]⟩  -- PRS_GAL_CYC_HI
  , ⟨0x22020, 1, 0x4, false, [⟨0, 32, .rc, 0, 0, 0, 32⟩]⟩  -- PRS_GAL_CONF
  , ⟨0x22024, 1, 0x4, false, [⟨0, 32, .rc, 0, 0, 0, 32⟩]⟩  -- PRS_GAL_WDRAW
  , ⟨0x22028, 1, 0x4, false, [⟨0, 32, .rc, 0, 0, 0, 32⟩]⟩  -- PRS_GAL_VOID
  , ⟨0x2202C, 1, 0x4, false, [⟨0, 32, .rc, 0, 0, 0, 32⟩]⟩  -- PRS_GAL_STALE
  , ⟨0x22030, 1, 0x4, false, [⟨0, 32, .rc, 0, 0, 0, 32⟩]⟩  -- PRS_GAL_PDISC
  , ⟨0x22034, 1, 0x4, false, [⟨0, 32, .ro, 0, 0, 0, 32⟩]⟩  -- PRS_GAL_LASTDEV
  , ⟨0x23000, 1, 0x4, false, [⟨0, 2, .rw, 1, 0, 0, 2⟩, ⟨8, 8, .rw, 46, 0, 0, 8⟩, ⟨16, 4, .rw, 10, 0, 0, 4⟩, ⟨24, 8, .rw, 32, 0, 0, 8⟩]⟩  -- PRS_TRN_CTL
  , ⟨0x23004, 1, 0x4, false, [⟨0, 16, .rw, 0x1388, 0, 0, 16⟩, ⟨16, 8, .rw, 60, 0, 0, 8⟩, ⟨24, 8, .rw, 10, 0, 0, 8⟩]⟩  -- PRS_TRN_CTL2
  , ⟨0x23008, 1, 0x4, false, [⟨0, 16, .rw, 50, 0, 0, 16⟩, ⟨16, 16, .rw, 60, 0, 0, 16⟩]⟩  -- PRS_TRN_CTL3
  , ⟨0x2300C, 1, 0x4, false, [⟨0, 3, .ro, 0, 0, 0, 3⟩, ⟨3, 1, .ro, 0, 0, 0, 1⟩, ⟨4, 1, .ro, 0, 0, 0, 1⟩, ⟨5, 1, .ro, 0, 0, 0, 1⟩, ⟨8, 3, .ro, 0, 0, 0, 3⟩, ⟨16, 16, .ro, 0, 0, 0, 16⟩]⟩  -- PRS_TRN_STAT
  , ⟨0x23010, 1, 0x4, false, [⟨0, 32, .ro, 0, 0, 0, 32⟩]⟩  -- PRS_TRN_STEP
  , ⟨0x23014, 1, 0x4, false, [⟨0, 32, .ro, 0, 0, 0, 32⟩]⟩  -- PRS_TRN_GEN
  , ⟨0x23018, 1, 0x4, false, [⟨0, 32, .ro, 0, 0, 0, 32⟩]⟩  -- PRS_TRN_MATCH
  , ⟨0x2301C, 1, 0x4, false, [⟨0, 32, .ro, 0, 0, 0, 64⟩]⟩  -- PRS_TRN_ELIVE_LO
  , ⟨0x23020, 1, 0x4, false, [⟨0, 32, .ro, 0, 4, 32, 64⟩]⟩  -- PRS_TRN_ELIVE_HI
  , ⟨0x23024, 1, 0x4, false, [⟨0, 32, .ro, 0, 0, 0, 64⟩]⟩  -- PRS_TRN_ECAND_LO
  , ⟨0x23028, 1, 0x4, false, [⟨0, 32, .ro, 0, 4, 32, 64⟩]⟩  -- PRS_TRN_ECAND_HI
  , ⟨0x2302C, 1, 0x4, false, [⟨0, 16, .ro, 0, 0, 0, 16⟩, ⟨16, 16, .ro, 0, 0, 0, 16⟩]⟩  -- PRS_TRN_WITH
  , ⟨0x23030, 1, 0x4, false, [⟨0, 32, .rc, 0, 0, 0, 32⟩]⟩  -- PRS_TRN_SKIP
  , ⟨0x24000, 256, 0x10, false, [⟨0, 3, .ro, 0, 0, 0, 3⟩, ⟨3, 1, .ro, 0, 0, 0, 1⟩, ⟨4, 2, .ro, 0, 0, 0, 2⟩, ⟨8, 4, .ro, 0, 0, 0, 4⟩, ⟨16, 16, .ro, 0, 0, 0, 16⟩]⟩  -- PRS_SLOT_STAT
  , ⟨0x24004, 256, 0x10, false, [⟨0, 32, .ro, 0, 0, 0, 32⟩]⟩  -- PRS_SLOT_WCYC
  , ⟨0x24008, 256, 0x10, false, [⟨0, 32, .ro, 0, 0, 0, 32⟩]⟩  -- PRS_SLOT_FID
  , ⟨0x2400C, 256, 0x10, false, [⟨0, 32, .ro, 0, 0, 0, 32⟩]⟩  -- PRS_SLOT_FVER
  ]

/-- Registers of block CHS. -/
def regsChs : List RegRow :=
  [ ⟨0x30000, 1, 0x4, false, [⟨0, 16, .ro, 0, 0, 0, 16⟩, ⟨16, 16, .ro, 1, 0, 0, 16⟩]⟩  -- CHS_ID
  , ⟨0x30004, 1, 0x4, false, [⟨0, 1, .ro, 0, 0, 0, 1⟩, ⟨1, 1, .ro, 0, 0, 0, 1⟩, ⟨2, 1, .ro, 0, 0, 0, 1⟩, ⟨3, 1, .ro, 0, 0, 0, 1⟩, ⟨4, 1, .ro, 0, 0, 0, 1⟩, ⟨5, 1, .ro, 0, 0, 0, 1⟩, ⟨6, 2, .ro, 0, 0, 0, 2⟩, ⟨8, 5, .ro, 16, 0, 0, 5⟩, ⟨13, 2, .ro, 2, 0, 0, 2⟩, ⟨16, 16, .ro, 0, 0, 0, 16⟩]⟩  -- CHS_STAT
  , ⟨0x30008, 1, 0x4, false, [⟨0, 12, .ro, 1000, 0, 0, 12⟩]⟩  -- CHS_PERIOD
  , ⟨0x3000C, 1, 0x4, false, [⟨0, 16, .rw, 200, 0, 0, 16⟩, ⟨16, 16, .rw, 0x4E20, 0, 0, 16⟩]⟩  -- CHS_CFG
  , ⟨0x30010, 1, 0x4, false, [⟨0, 32, .ro, 0, 0, 0, 64⟩]⟩  -- CHS_PNUM_LO
  , ⟨0x30014, 1, 0x4, false, [⟨0, 32, .ro, 0, 4, 32, 64⟩]⟩  -- CHS_PNUM_HI
  , ⟨0x30018, 1, 0x4, false, [⟨0, 32, .ro, 0, 0, 0, 64⟩]⟩  -- CHS_TIME_LO
  , ⟨0x3001C, 1, 0x4, false, [⟨0, 32, .ro, 0, 4, 32, 64⟩]⟩  -- CHS_TIME_HI
  , ⟨0x30020, 1, 0x4, false, [⟨0, 16, .ro, 0, 0, 0, 16⟩, ⟨16, 16, .ro, 0, 0, 0, 16⟩]⟩  -- CHS_LAWCYC
  , ⟨0x30024, 1, 0x4, false, [⟨0, 32, .rc, 0, 0, 0, 32⟩]⟩  -- CHS_OVR
  , ⟨0x30028, 1, 0x4, false, [⟨0, 8, .rw, 40, 0, 0, 8⟩, ⟨8, 16, .rw, 100, 0, 0, 16⟩]⟩  -- CHS_IMP
  , ⟨0x3002C, 1, 0x4, false, [⟨0, 5, .ro, 0, 0, 0, 5⟩, ⟨8, 4, .ro, 0, 0, 0, 4⟩, ⟨12, 4, .ro, 0, 0, 0, 4⟩, ⟨16, 16, .ro, 0, 0, 0, 16⟩]⟩  -- CHS_IMPSTAT
  , ⟨0x30030, 1, 0x4, false, [⟨0, 16, .rw, 0x1EA0, 0, 0, 16⟩, ⟨16, 16, .rw, 60, 0, 0, 16⟩]⟩  -- CHS_WIN0
  , ⟨0x30034, 1, 0x4, false, [⟨0, 16, .rw, 0x2134, 0, 0, 16⟩, ⟨16, 16, .rw, 0x206C, 0, 0, 16⟩]⟩  -- CHS_WIN1
  , ⟨0x30038, 1, 0x4, false, [⟨0, 6, .rw, 0, 0, 0, 6⟩, ⟨8, 6, .rw, 13, 0, 0, 6⟩, ⟨16, 6, .rw, 26, 0, 0, 6⟩]⟩  -- CHS_BUSV
  , ⟨0x3003C, 1, 0x4, false, [⟨0, 16, .rw, 20, 0, 0, 16⟩]⟩  -- CHS_SOFT
  , ⟨0x30040, 1, 0x4, false, [⟨0, 32, .ro, 0, 0, 0, 32⟩]⟩  -- CHS_VBUS
  , ⟨0x30044, 1, 0x4, false, [⟨0, 32, .ro, 0, 0, 0, 32⟩]⟩  -- CHS_IOUT
  , ⟨0x30048, 1, 0x4, false, [⟨0, 32, .ro, 0, 0, 0, 32⟩]⟩  -- CHS_PGRID
  , ⟨0x3004C, 1, 0x4, false, [⟨0, 1, .w1c, 0, 0, 0, 1⟩, ⟨8, 8, .ro, 0, 0, 0, 8⟩]⟩  -- CHS_FESTAT
  , ⟨0x30050, 1, 0x4, false, [⟨0, 8, .ro, 0, 0, 0, 8⟩, ⟨8, 12, .ro, 0, 0, 0, 12⟩, ⟨31, 1, .w1c, 0, 0, 0, 1⟩]⟩  -- CHS_WREF
  , ⟨0x30080, 1, 0x4, false, [⟨0, 8, .rw, 0, 0, 0, 8⟩, ⟨8, 1, .rw, 0, 0, 0, 1⟩]⟩  -- CHS_LSEL
  , ⟨0x30084, 1, 0x4, true, [⟨0, 1, .ro, 1, 0, 0, 1⟩, ⟨1, 1, .ro, 0, 0, 0, 1⟩, ⟨2, 1, .ro, 0, 0, 0, 1⟩, ⟨3, 1, .ro, 0, 0, 0, 1⟩, ⟨4, 1, .ro, 0, 0, 0, 1⟩, ⟨5, 1, .ro, 0, 0, 0, 1⟩, ⟨16, 16, .ro, 0, 0, 0, 16⟩]⟩  -- CHS_LSTAT
  , ⟨0x30088, 1, 0x4, true, [⟨0, 32, .ro, 0, 0, 0, 32⟩]⟩  -- CHS_LKP
  , ⟨0x3008C, 1, 0x4, true, [⟨0, 32, .ro, 0, 0, 0, 32⟩]⟩  -- CHS_LKI
  , ⟨0x30090, 1, 0x4, true, [⟨0, 32, .ro, 0, 0, 0, 32⟩]⟩  -- CHS_LULO
  , ⟨0x30094, 1, 0x4, true, [⟨0, 32, .ro, 0, 0, 0, 32⟩]⟩  -- CHS_LUHI
  , ⟨0x30098, 1, 0x4, true, [⟨0, 32, .ro, 0, 0, 0, 32⟩]⟩  -- CHS_LSLEW
  , ⟨0x3009C, 1, 0x4, true, [⟨0, 32, .ro, 0, 0, 0, 32⟩]⟩  -- CHS_LFEL
  , ⟨0x300A0, 1, 0x4, true, [⟨0, 16, .ro, 0, 0, 0, 16⟩, ⟨16, 2, .ro, 0, 0, 0, 2⟩]⟩  -- CHS_LFET
  ]

/-- Registers of block CHS. -/
def regsChs2 : List RegRow :=
  [ ⟨0x300A4, 1, 0x4, true, [⟨0, 32, .ro, 0, 0, 0, 32⟩]⟩  -- CHS_LOUT
  , ⟨0x300A8, 1, 0x4, true, [⟨0, 32, .ro, 0, 0, 0, 32⟩]⟩  -- CHS_LERR
  , ⟨0x300AC, 1, 0x4, true, [⟨0, 32, .ro, 0, 0, 0, 64⟩]⟩  -- CHS_LX_LO
  , ⟨0x300B0, 1, 0x4, true, [⟨0, 32, .ro, 0, 4, 32, 64⟩]⟩  -- CHS_LX_HI
  , ⟨0x30100, 6, 0x4, false, [⟨0, 32, .w1c, 0, 0, 0, 32⟩]⟩  -- CHS_FESUM
  , ⟨0x30120, 6, 0x4, false, [⟨0, 32, .ro, 0xFFFFFFFF, 0, 0, 32⟩]⟩  -- CHS_OPENSUM
  , ⟨0x30200, 1, 0x4, false, [⟨0, 1, .ro, 0, 0, 0, 1⟩, ⟨1, 1, .ro, 0, 0, 0, 1⟩, ⟨2, 1, .ro, 0, 0, 0, 1⟩, ⟨3, 1, .ro, 0, 0, 0, 1⟩, ⟨4, 1, .ro, 0, 0, 0, 1⟩, ⟨5, 1, .ro, 0, 0, 0, 1⟩]⟩  -- CHS_RMP_STAT
  , ⟨0x30204, 1, 0x4, false, [⟨0, 32, .ro, 0, 0, 0, 32⟩]⟩  -- CHS_RMP_SUP
  , ⟨0x30208, 1, 0x4, false, [⟨0, 32, .ro, 0, 0, 0, 32⟩]⟩  -- CHS_RMP_SDN
  , ⟨0x3020C, 1, 0x4, false, [⟨0, 32, .ro, 0, 0, 0, 32⟩]⟩  -- CHS_RMP_PMIN
  , ⟨0x30210, 1, 0x4, false, [⟨0, 32, .ro, 0, 0, 0, 32⟩]⟩  -- CHS_RMP_PMAX
  , ⟨0x30214, 1, 0x4, false, [⟨0, 32, .ro, 0, 0, 0, 32⟩]⟩  -- CHS_RMP_OUT
  , ⟨0x30218, 1, 0x4, false, [⟨0, 32, .rc, 0, 0, 0, 32⟩]⟩  -- CHS_RMP_BRCH
  , ⟨0x30220, 1, 0x4, false, [⟨0, 8, .rw, 50, 0, 0, 8⟩, ⟨8, 8, .rw, 0, 0, 0, 8⟩, ⟨16, 8, .rw, 20, 0, 0, 8⟩, ⟨24, 8, .rw, 10, 0, 0, 8⟩]⟩  -- CHS_COOL_CTL
  , ⟨0x30224, 1, 0x4, false, [⟨0, 1, .ro, 0, 0, 0, 1⟩, ⟨1, 1, .ro, 0, 0, 0, 1⟩, ⟨2, 1, .ro, 0, 0, 0, 1⟩, ⟨3, 1, .ro, 0, 0, 0, 1⟩, ⟨16, 16, .ro, 0xFFFF, 0, 0, 16⟩]⟩  -- CHS_COOL_STAT
  , ⟨0x30228, 1, 0x4, false, [⟨0, 16, .ro, 0, 0, 0, 16⟩, ⟨16, 16, .ro, 0, 0, 0, 16⟩]⟩  -- CHS_COOL_TACH
  , ⟨0x3022C, 1, 0x4, false, [⟨0, 16, .ro, 0, 0, 0, 16⟩, ⟨16, 16, .ro, 0, 0, 0, 16⟩]⟩  -- CHS_COOL_FLOW
  , ⟨0x30230, 1, 0x4, false, [⟨0, 16, .ro, 0, 0, 0, 16⟩, ⟨16, 16, .ro, 0, 0, 0, 16⟩]⟩  -- CHS_COOL_TEMP
  ]

/-- Registers of block STL. -/
def regsStl : List RegRow :=
  [ ⟨0x40000, 1, 0x4, false, [⟨0, 16, .ro, 0, 0, 0, 16⟩, ⟨16, 16, .ro, 1, 0, 0, 16⟩]⟩  -- STL_ID
  , ⟨0x40004, 1, 0x4, false, [⟨0, 4, .rw, 3, 0, 0, 4⟩, ⟨4, 1, .rw, 0, 0, 0, 1⟩]⟩  -- STL_CTL
  , ⟨0x40008, 1, 0x4, false, [⟨0, 6, .ro, 0, 0, 0, 6⟩, ⟨6, 1, .ro, 0, 0, 0, 1⟩, ⟨7, 1, .ro, 0, 0, 0, 1⟩, ⟨8, 8, .ro, 0, 0, 0, 8⟩, ⟨16, 8, .ro, 0, 0, 0, 8⟩]⟩  -- STL_STAT
  , ⟨0x40010, 1, 0x4, false, [⟨0, 32, .ro, 0, 0, 0, 64⟩]⟩  -- STL_UP_LO
  , ⟨0x40014, 1, 0x4, false, [⟨0, 32, .ro, 0, 4, 32, 64⟩]⟩  -- STL_UP_HI
  , ⟨0x40018, 1, 0x4, false, [⟨0, 32, .rw, 0x111111111111, 0, 0, 52⟩]⟩  -- STL_MRSET_LO
  , ⟨0x4001C, 1, 0x4, false, [⟨0, 20, .rw, 0x111111111111, 4, 32, 52⟩]⟩  -- STL_MRSET_HI
  , ⟨0x40020, 1, 0x4, false, [⟨0, 16, .rw, 600, 0, 0, 16⟩, ⟨16, 16, .rw, 300, 0, 0, 16⟩]⟩  -- STL_SC
  , ⟨0x40024, 1, 0x4, false, [⟨0, 16, .rw, 0x4000, 0, 0, 16⟩, ⟨16, 16, .rw, 120, 0, 0, 16⟩]⟩  -- STL_BURST
  , ⟨0x40028, 1, 0x4, false, [⟨0, 4, .rw, 8, 0, 0, 4⟩, ⟨4, 16, .rw, 0x1EC8, 0, 0, 16⟩]⟩  -- STL_BURST2
  , ⟨0x4002C, 1, 0x4, false, [⟨0, 4, .rw, 2, 0, 0, 4⟩, ⟨4, 4, .rw, 2, 0, 0, 4⟩, ⟨8, 4, .rw, 4, 0, 0, 4⟩, ⟨16, 16, .rw, 1000, 0, 0, 16⟩]⟩  -- STL_SHED
  , ⟨0x40030, 1, 0x4, false, [⟨0, 16, .rw, 0x1F40, 0, 0, 16⟩, ⟨16, 16, .rw, 4000, 0, 0, 16⟩]⟩  -- STL_ARMI
  , ⟨0x40034, 1, 0x4, false, [⟨0, 16, .rw, 200, 0, 0, 16⟩, ⟨16, 16, .rw, 3277, 0, 0, 16⟩]⟩  -- STL_DET
  , ⟨0x40038, 1, 0x4, false, [⟨0, 16, .rw, 2000, 0, 0, 16⟩, ⟨16, 16, .rw, 200, 0, 0, 16⟩]⟩  -- STL_DET2
  , ⟨0x4003C, 1, 0x4, false, [⟨0, 32, .rw, 0x4E20, 0, 0, 32⟩]⟩  -- STL_STEPI
  , ⟨0x40040, 1, 0x4, false, [⟨0, 2, .rw, 0, 0, 0, 2⟩, ⟨2, 2, .rw, 0, 0, 0, 2⟩]⟩  -- STL_OLSEL
  , ⟨0x40044, 1, 0x4, true, [⟨0, 32, .rw, 0, 0, 0, 32⟩]⟩  -- STL_OLTAU
  , ⟨0x40048, 1, 0x4, true, [⟨0, 32, .rw, 0, 0, 0, 32⟩]⟩  -- STL_OLLIM
  , ⟨0x4004C, 1, 0x4, false, [⟨0, 32, .rw, 0x7FFFFFFFFF, 0, 0, 40⟩]⟩  -- STL_LMAP_LO
  , ⟨0x40050, 1, 0x4, false, [⟨0, 8, .rw, 0x7FFFFFFFFF, 4, 32, 40⟩]⟩  -- STL_LMAP_HI
  , ⟨0x40080, 1, 0x4, false, [⟨0, 8, .rw, 0, 0, 0, 8⟩]⟩  -- STL_PSEL
  , ⟨0x40084, 1, 0x4, true, [⟨0, 4, .ro, 0, 0, 0, 4⟩, ⟨4, 2, .ro, 0, 0, 0, 2⟩, ⟨6, 4, .ro, 0, 0, 0, 4⟩, ⟨10, 1, .ro, 0, 0, 0, 1⟩, ⟨11, 1, .ro, 0, 0, 0, 1⟩, ⟨12, 4, .ro, 0, 0, 0, 4⟩]⟩  -- STL_PSTAT
  , ⟨0x40088, 1, 0x4, true, [⟨0, 16, .ro, 0, 0, 0, 16⟩, ⟨16, 16, .ro, 0, 0, 0, 16⟩]⟩  -- STL_POFS
  , ⟨0x4008C, 1, 0x4, true, [⟨0, 32, .ro, 0, 0, 0, 64⟩]⟩  -- STL_PRUN_LO
  , ⟨0x40090, 1, 0x4, true, [⟨0, 32, .ro, 0, 4, 32, 64⟩]⟩  -- STL_PRUN_HI
  , ⟨0x40094, 1, 0x4, true, [⟨0, 16, .ro, 0, 0, 0, 16⟩]⟩  -- STL_PTRIP
  , ⟨0x400A0, 1, 0x4, false, [⟨0, 6, .rw, 0, 0, 0, 6⟩]⟩  -- STL_LSEL
  , ⟨0x400A4, 1, 0x4, true, [⟨0, 1, .ro, 0, 0, 0, 1⟩, ⟨1, 1, .ro, 0, 0, 0, 1⟩, ⟨2, 1, .ro, 0, 0, 0, 1⟩, ⟨3, 1, .ro, 0, 0, 0, 1⟩, ⟨4, 4, .ro, 0, 0, 0, 4⟩, ⟨16, 16, .ro, 0, 0, 0, 16⟩]⟩  -- STL_LSTAT
  , ⟨0x400A8, 1, 0x4, true, [⟨0, 32, .rc, 0, 0, 0, 32⟩]⟩  -- STL_LCRC
  , ⟨0x400AC, 1, 0x4, true, [⟨0, 32, .rc, 0, 0, 0, 32⟩]⟩  -- STL_LMISS
  ]

/-- Registers of block STL. -/
def regsStl2 : List RegRow :=
  [ ⟨0x40100, 5, 0x4, false, [⟨0, 32, .ro, 0, 0, 0, 32⟩]⟩  -- STL_ROLE
  ]

/-- Registers of block BUP. -/
def regsBup : List RegRow :=
  [ ⟨0x50000, 1, 0x4, false, [⟨0, 16, .ro, 0, 0, 0, 16⟩, ⟨16, 16, .ro, 1, 0, 0, 16⟩]⟩  -- BUP_ID
  , ⟨0x50004, 1, 0x4, false, [⟨0, 16, .rw, 550, 0, 0, 16⟩, ⟨16, 16, .rw, 500, 0, 0, 16⟩]⟩  -- BUP_CTL
  , ⟨0x50008, 1, 0x4, false, [⟨0, 8, .rw, 10, 0, 0, 8⟩, ⟨8, 8, .rw, 10, 0, 0, 8⟩, ⟨16, 8, .rw, 10, 0, 0, 8⟩]⟩  -- BUP_SNAP
  , ⟨0x5000C, 1, 0x4, false, [⟨0, 8, .rw, 10, 0, 0, 8⟩, ⟨8, 8, .rw, 20, 0, 0, 8⟩, ⟨16, 8, .rw, 5, 0, 0, 8⟩, ⟨24, 8, .rw, 20, 0, 0, 8⟩]⟩  -- BUP_BAL
  , ⟨0x50010, 1, 0x4, false, [⟨0, 8, .rw, 10, 0, 0, 8⟩, ⟨8, 8, .rw, 50, 0, 0, 8⟩]⟩  -- BUP_PLAUS
  , ⟨0x50014, 1, 0x4, false, [⟨0, 16, .rw, 500, 0, 0, 16⟩, ⟨16, 16, .rw, 3300, 0, 0, 16⟩]⟩  -- BUP_LIM
  , ⟨0x50018, 1, 0x4, false, [⟨0, 16, .rw, 60, 0, 0, 16⟩, ⟨16, 16, .rw, 300, 0, 0, 16⟩]⟩  -- BUP_OWT
  , ⟨0x5001C, 1, 0x4, false, [⟨0, 8, .rw, 60, 0, 0, 8⟩, ⟨8, 8, .rw, 48, 0, 0, 8⟩, ⟨16, 16, .rw, 600, 0, 0, 16⟩]⟩  -- BUP_SLEEP
  , ⟨0x50020, 1, 0x4, false, [⟨0, 16, .rw, 1600, 0, 0, 16⟩, ⟨16, 16, .rw, 2750, 0, 0, 16⟩]⟩  -- BUP_WAKE
  , ⟨0x50024, 1, 0x4, false, [⟨0, 4, .ro, 0, 0, 0, 4⟩, ⟨4, 4, .ro, 0, 0, 0, 4⟩, ⟨8, 4, .ro, 0, 0, 0, 4⟩, ⟨12, 4, .w1c, 0, 0, 0, 4⟩]⟩  -- BUP_STAT
  , ⟨0x50100, 4, 0x40, false, [⟨0, 2, .ro, 0, 0, 0, 2⟩, ⟨2, 5, .ro, 0, 0, 0, 5⟩, ⟨7, 5, .ro, 0, 0, 0, 5⟩, ⟨12, 1, .ro, 0, 0, 0, 1⟩, ⟨13, 1, .ro, 0, 0, 0, 1⟩, ⟨24, 8, .ro, 0, 0, 0, 8⟩]⟩  -- BUP_RSTAT
  , ⟨0x50104, 4, 0x40, false, [⟨0, 16, .ro, 0, 0, 0, 16⟩, ⟨16, 2, .ro, 0, 0, 0, 2⟩]⟩  -- BUP_RTGT
  , ⟨0x50108, 4, 0x40, false, [⟨0, 32, .ro, 0, 0, 0, 32⟩]⟩  -- BUP_RID
  , ⟨0x5010C, 4, 0x40, false, [⟨0, 32, .ro, 0, 0, 0, 64⟩]⟩  -- BUP_RTH_LO
  , ⟨0x50110, 4, 0x40, false, [⟨0, 32, .ro, 0, 4, 32, 64⟩]⟩  -- BUP_RTH_HI
  , ⟨0x50114, 4, 0x40, false, [⟨0, 32, .ro, 0, 0, 0, 64⟩]⟩  -- BUP_RSER_LO
  , ⟨0x50118, 4, 0x40, false, [⟨0, 32, .ro, 0, 4, 32, 64⟩]⟩  -- BUP_RSER_HI
  , ⟨0x5011C, 4, 0x40, false, [⟨0, 32, .ro, 0, 0, 0, 32⟩]⟩  -- BUP_RLOOP
  , ⟨0x50120, 4, 0x40, false, [⟨0, 32, .rc, 0, 0, 0, 32⟩]⟩  -- BUP_RCRC
  , ⟨0x50124, 4, 0x40, false, [⟨0, 32, .rc, 0, 0, 0, 32⟩]⟩  -- BUP_RMISS
  , ⟨0x50128, 4, 0x40, false, [⟨0, 32, .rc, 0, 0, 0, 32⟩]⟩  -- BUP_RNOISY
  , ⟨0x5012C, 4, 0x40, false, [⟨0, 32, .rc, 0, 0, 0, 32⟩]⟩  -- BUP_RTAINT
  , ⟨0x51000, 384, 0x4, false, [⟨0, 16, .ro, 0xFFFF, 0, 0, 16⟩, ⟨16, 1, .ro, 0, 0, 0, 1⟩, ⟨17, 1, .ro, 0, 0, 0, 1⟩, ⟨18, 1, .ro, 0, 0, 0, 1⟩, ⟨19, 1, .ro, 0, 0, 0, 1⟩, ⟨20, 1, .ro, 0, 0, 0, 1⟩, ⟨21, 1, .ro, 0, 0, 0, 1⟩, ⟨24, 8, .ro, 0, 0, 0, 8⟩]⟩  -- BUP_CELL
  , ⟨0x51800, 384, 0x4, false, [⟨0, 16, .ro, 0xFFFF, 0, 0, 16⟩, ⟨16, 1, .ro, 0, 0, 0, 1⟩, ⟨17, 1, .ro, 0, 0, 0, 1⟩, ⟨18, 1, .ro, 0, 0, 0, 1⟩, ⟨19, 1, .ro, 0, 0, 0, 1⟩, ⟨20, 1, .ro, 0, 0, 0, 1⟩, ⟨21, 1, .ro, 0, 0, 0, 1⟩, ⟨24, 8, .ro, 0, 0, 0, 8⟩]⟩  -- BUP_CELL
  , ⟨0x52000, 384, 0x4, false, [⟨0, 16, .ro, 0xFFFF, 0, 0, 16⟩, ⟨16, 1, .ro, 0, 0, 0, 1⟩, ⟨17, 1, .ro, 0, 0, 0, 1⟩, ⟨18, 1, .ro, 0, 0, 0, 1⟩, ⟨19, 1, .ro, 0, 0, 0, 1⟩, ⟨20, 1, .ro, 0, 0, 0, 1⟩, ⟨21, 1, .ro, 0, 0, 0, 1⟩, ⟨24, 8, .ro, 0, 0, 0, 8⟩]⟩  -- BUP_CELL
  , ⟨0x52800, 384, 0x4, false, [⟨0, 16, .ro, 0xFFFF, 0, 0, 16⟩, ⟨16, 1, .ro, 0, 0, 0, 1⟩, ⟨17, 1, .ro, 0, 0, 0, 1⟩, ⟨18, 1, .ro, 0, 0, 0, 1⟩, ⟨19, 1, .ro, 0, 0, 0, 1⟩, ⟨20, 1, .ro, 0, 0, 0, 1⟩, ⟨21, 1, .ro, 0, 0, 0, 1⟩, ⟨24, 8, .ro, 0, 0, 0, 8⟩]⟩  -- BUP_CELL
  , ⟨0x53000, 24, 0xC, false, [⟨0, 10, .ro, 1023, 0, 0, 10⟩, ⟨10, 1, .ro, 0, 0, 0, 1⟩, ⟨11, 1, .ro, 0, 0, 0, 1⟩, ⟨12, 1, .ro, 0, 0, 0, 1⟩, ⟨16, 16, .ro, 0, 0, 0, 16⟩]⟩  -- BUP_NODE
  , ⟨0x53004, 24, 0xC, false, [⟨0, 32, .ro, 0, 0, 0, 32⟩]⟩  -- BUP_NTEMP
  , ⟨0x53008, 24, 0xC, false, [⟨0, 32, .ro, 0, 0, 0, 32⟩]⟩  -- BUP_NFW
  , ⟨0x53100, 24, 0xC, false, [⟨0, 10, .ro, 1023, 0, 0, 10⟩, ⟨10, 1, .ro, 0, 0, 0, 1⟩, ⟨11, 1, .ro, 0, 0, 0, 1⟩, ⟨12, 1, .ro, 0, 0, 0, 1⟩, ⟨16, 16, .ro, 0, 0, 0, 16⟩]⟩  -- BUP_NODE
  ]

/-- Registers of block BUP. -/
def regsBup2 : List RegRow :=
  [ ⟨0x53104, 24, 0xC, false, [⟨0, 32, .ro, 0, 0, 0, 32⟩]⟩  -- BUP_NTEMP
  , ⟨0x53108, 24, 0xC, false, [⟨0, 32, .ro, 0, 0, 0, 32⟩]⟩  -- BUP_NFW
  , ⟨0x53200, 24, 0xC, false, [⟨0, 10, .ro, 1023, 0, 0, 10⟩, ⟨10, 1, .ro, 0, 0, 0, 1⟩, ⟨11, 1, .ro, 0, 0, 0, 1⟩, ⟨12, 1, .ro, 0, 0, 0, 1⟩, ⟨16, 16, .ro, 0, 0, 0, 16⟩]⟩  -- BUP_NODE
  , ⟨0x53204, 24, 0xC, false, [⟨0, 32, .ro, 0, 0, 0, 32⟩]⟩  -- BUP_NTEMP
  , ⟨0x53208, 24, 0xC, false, [⟨0, 32, .ro, 0, 0, 0, 32⟩]⟩  -- BUP_NFW
  , ⟨0x53300, 24, 0xC, false, [⟨0, 10, .ro, 1023, 0, 0, 10⟩, ⟨10, 1, .ro, 0, 0, 0, 1⟩, ⟨11, 1, .ro, 0, 0, 0, 1⟩, ⟨12, 1, .ro, 0, 0, 0, 1⟩, ⟨16, 16, .ro, 0, 0, 0, 16⟩]⟩  -- BUP_NODE
  , ⟨0x53304, 24, 0xC, false, [⟨0, 32, .ro, 0, 0, 0, 32⟩]⟩  -- BUP_NTEMP
  , ⟨0x53308, 24, 0xC, false, [⟨0, 32, .ro, 0, 0, 0, 32⟩]⟩  -- BUP_NFW
  , ⟨0x54000, 1, 0x4, false, [⟨0, 16, .rw, 200, 0, 0, 16⟩, ⟨16, 16, .rw, 200, 0, 0, 16⟩]⟩  -- BUP_EST_CTL
  , ⟨0x54004, 1, 0x4, false, [⟨0, 16, .rw, 1700, 0, 0, 16⟩, ⟨16, 16, .rw, 2700, 0, 0, 16⟩]⟩  -- BUP_EST_THR
  , ⟨0x54008, 1, 0x4, false, [⟨0, 16, .rw, 1500, 0, 0, 16⟩, ⟨16, 16, .rw, 2800, 0, 0, 16⟩]⟩  -- BUP_EST_HARD
  , ⟨0x5400C, 1, 0x4, false, [⟨0, 8, .rw, 50, 0, 0, 8⟩, ⟨8, 8, .rw, 10, 0, 0, 8⟩, ⟨16, 8, .rw, 20, 0, 0, 8⟩, ⟨24, 8, .rw, 20, 0, 0, 8⟩]⟩  -- BUP_EST_TAP
  , ⟨0x54010, 1, 0x4, false, [⟨0, 16, .rw, 1100, 0, 0, 16⟩, ⟨16, 16, .rw, 1100, 0, 0, 16⟩]⟩  -- BUP_EST_LIM
  , ⟨0x54014, 1, 0x4, false, [⟨0, 8, .rw, 4, 0, 0, 8⟩, ⟨8, 8, .rw, 20, 0, 0, 8⟩, ⟨16, 8, .rw, 15, 0, 0, 8⟩, ⟨24, 8, .rw, 40, 0, 0, 8⟩]⟩  -- BUP_EST_REST
  , ⟨0x54018, 1, 0x4, false, [⟨0, 16, .rw, 1000, 0, 0, 16⟩, ⟨16, 16, .rw, 60, 0, 0, 16⟩]⟩  -- BUP_EST_DRIFT
  , ⟨0x5401C, 1, 0x4, false, [⟨0, 16, .rw, 600, 0, 0, 16⟩, ⟨16, 16, .rw, 0xFF38, 0, 0, 16⟩]⟩  -- BUP_EST_TEMP
  , ⟨0x54020, 1, 0x4, false, [⟨0, 3, .ro, 0, 0, 0, 3⟩, ⟨8, 8, .ro, 0, 0, 0, 8⟩, ⟨16, 16, .rc, 0, 0, 0, 16⟩]⟩  -- BUP_EST_RSTAT
  , ⟨0x54100, 4, 0x20, false, [⟨0, 1, .ro, 0, 0, 0, 1⟩, ⟨1, 1, .ro, 0, 0, 0, 1⟩, ⟨2, 1, .ro, 0, 0, 0, 1⟩, ⟨3, 1, .ro, 0, 0, 0, 1⟩, ⟨4, 3, .ro, 0, 0, 0, 3⟩]⟩  -- BUP_EST_STAT
  , ⟨0x54104, 4, 0x20, false, [⟨0, 16, .ro, 0, 0, 0, 16⟩, ⟨16, 16, .ro, 0, 0, 0, 16⟩]⟩  -- BUP_EST_SOC
  , ⟨0x54108, 4, 0x20, false, [⟨0, 16, .ro, 0, 0, 0, 16⟩]⟩  -- BUP_EST_CC
  , ⟨0x5410C, 4, 0x20, false, [⟨0, 16, .ro, 0, 0, 0, 16⟩, ⟨16, 16, .ro, 0, 0, 0, 16⟩]⟩  -- BUP_EST_ULIM
  , ⟨0x54110, 4, 0x20, false, [⟨0, 16, .ro, 0, 0, 0, 16⟩, ⟨16, 16, .ro, 0, 0, 0, 16⟩]⟩  -- BUP_EST_ILIM
  , ⟨0x54114, 4, 0x20, false, [⟨0, 16, .rw, 0x1388, 0, 0, 16⟩]⟩  -- BUP_EST_TGT
  , ⟨0x54118, 4, 0x20, false, [⟨0, 32, .ro, 0, 0, 0, 32⟩]⟩  -- BUP_EST_CYC
  , ⟨0x5411C, 4, 0x20, false, [⟨0, 32, .ro, 0, 0, 0, 32⟩]⟩  -- BUP_EST_AGE
  ]

/-- Registers of block FEN. -/
def regsFen : List RegRow :=
  [ ⟨0x60000, 1, 0x4, false, [⟨0, 16, .ro, 0, 0, 0, 16⟩, ⟨16, 16, .ro, 1, 0, 0, 16⟩]⟩  -- FEN_ID
  , ⟨0x60004, 1, 0x4, false, [⟨0, 1, .rw, 1, 0, 0, 1⟩, ⟨1, 1, .rw, 1, 0, 0, 1⟩, ⟨4, 4, .rw, 0, 0, 0, 4⟩, ⟨8, 8, .rw, 4, 0, 0, 8⟩, ⟨16, 16, .rw, 100, 0, 0, 16⟩]⟩  -- FEN_CTL
  , ⟨0x60008, 1, 0x4, false, [⟨0, 1, .ro, 0, 0, 0, 1⟩, ⟨1, 1, .ro, 0, 0, 0, 1⟩, ⟨2, 1, .ro, 0, 0, 0, 1⟩, ⟨3, 1, .ro, 0, 0, 0, 1⟩, ⟨4, 1, .ro, 0, 0, 0, 1⟩, ⟨5, 1, .ro, 0, 0, 0, 1⟩, ⟨6, 2, .ro, 0, 0, 0, 2⟩, ⟨8, 1, .ro, 0, 0, 0, 1⟩, ⟨16, 4, .ro, 0, 0, 0, 4⟩, ⟨20, 1, .ro, 0, 0, 0, 1⟩]⟩  -- FEN_STAT
  , ⟨0x6000C, 1, 0x4, false, [⟨0, 32, .rw, 0, 0, 0, 32⟩]⟩  -- FEN_GROUP
  , ⟨0x60010, 1, 0x4, false, [⟨0, 16, .ro, 0, 0, 0, 16⟩, ⟨16, 16, .ro, 0, 0, 0, 16⟩]⟩  -- FEN_KEYCHK
  , ⟨0x60014, 1, 0x4, false, [⟨0, 8, .rw, 10, 0, 0, 8⟩, ⟨8, 8, .rw, 6, 0, 0, 8⟩]⟩  -- FEN_PHY
  , ⟨0x60018, 1, 0x4, false, [⟨0, 32, .ro, 0, 0, 0, 64⟩]⟩  -- FEN_GOFS_LO
  , ⟨0x6001C, 1, 0x4, false, [⟨0, 32, .ro, 0, 4, 32, 64⟩]⟩  -- FEN_GOFS_HI
  , ⟨0x60020, 1, 0x4, false, [⟨0, 32, .ro, 0, 0, 0, 32⟩]⟩  -- FEN_RATE
  , ⟨0x60024, 1, 0x4, false, [⟨0, 32, .ro, 0, 0, 0, 32⟩]⟩  -- FEN_TERR
  , ⟨0x60028, 1, 0x4, false, [⟨0, 32, .ro, 0, 0, 0, 32⟩]⟩  -- FEN_BCN
  , ⟨0x6002C, 1, 0x4, false, [⟨0, 32, .ro, 0, 0, 0, 32⟩]⟩  -- FEN_MASKBCN
  , ⟨0x60040, 8, 0x4, false, [⟨0, 32, .ro, 0, 0, 0, 32⟩]⟩  -- FEN_MASK
  , ⟨0x60060, 1, 0x4, false, [⟨0, 8, .rw, 48, 0, 0, 8⟩, ⟨8, 3, .rw, 0, 0, 0, 3⟩]⟩  -- FEN_NOTCH
  , ⟨0x60064, 1, 0x4, false, [⟨0, 8, .rw, 24, 0, 0, 8⟩, ⟨8, 3, .rw, 1, 0, 0, 3⟩]⟩  -- FEN_NOTCH
  , ⟨0x60068, 1, 0x4, false, [⟨0, 8, .rw, 24, 0, 0, 8⟩, ⟨8, 3, .rw, 2, 0, 0, 3⟩]⟩  -- FEN_NOTCH
  , ⟨0x6006C, 1, 0x4, false, [⟨0, 8, .rw, 24, 0, 0, 8⟩, ⟨8, 3, .rw, 3, 0, 0, 3⟩]⟩  -- FEN_NOTCH
  , ⟨0x60070, 1, 0x4, false, [⟨0, 8, .rw, 24, 0, 0, 8⟩, ⟨8, 3, .rw, 4, 0, 0, 3⟩]⟩  -- FEN_NOTCH
  , ⟨0x60074, 1, 0x4, false, [⟨0, 8, .rw, 0, 0, 0, 8⟩, ⟨8, 3, .rw, 0, 0, 0, 3⟩]⟩  -- FEN_NOTCH
  , ⟨0x60078, 1, 0x4, false, [⟨0, 8, .rw, 0, 0, 0, 8⟩, ⟨8, 3, .rw, 0, 0, 0, 3⟩]⟩  -- FEN_NOTCH
  , ⟨0x6007C, 1, 0x4, false, [⟨0, 8, .rw, 0, 0, 0, 8⟩, ⟨8, 3, .rw, 0, 0, 0, 3⟩]⟩  -- FEN_NOTCH
  , ⟨0x60080, 8, 0x4, false, [⟨0, 32, .ro, 0, 0, 0, 32⟩]⟩  -- FEN_ERASE
  , ⟨0x600A0, 16, 0x4, false, [⟨0, 32, .ro, 0, 0, 0, 32⟩]⟩  -- FEN_SNR
  , ⟨0x60100, 1, 0x4, false, [⟨0, 32, .rc, 0, 0, 0, 32⟩]⟩  -- FEN_TXOK
  , ⟨0x60104, 1, 0x4, false, [⟨0, 32, .rc, 0, 0, 0, 32⟩]⟩  -- FEN_TXDROP
  , ⟨0x60108, 1, 0x4, false, [⟨0, 32, .rc, 0, 0, 0, 32⟩]⟩  -- FEN_RETRIES
  , ⟨0x6010C, 1, 0x4, false, [⟨0, 32, .rc, 0, 0, 0, 32⟩]⟩  -- FEN_RXOK
  , ⟨0x60110, 1, 0x4, false, [⟨0, 32, .rc, 0, 0, 0, 32⟩]⟩  -- FEN_RXCRC
  , ⟨0x60114, 1, 0x4, false, [⟨0, 32, .rc, 0, 0, 0, 32⟩]⟩  -- FEN_STRANGER
  , ⟨0x60118, 1, 0x4, false, [⟨0, 32, .rc, 0, 0, 0, 32⟩]⟩  -- FEN_REPLAY
  ]

/-- Registers of block FEN. -/
def regsFen2 : List RegRow :=
  [ ⟨0x6011C, 1, 0x4, false, [⟨0, 32, .rc, 0, 0, 0, 32⟩]⟩  -- FEN_RXBAD
  , ⟨0x60120, 1, 0x4, false, [⟨0, 32, .rc, 0, 0, 0, 32⟩]⟩  -- FEN_BSKIP
  , ⟨0x60200, 1, 0x4, false, [⟨0, 1, .rw, 1, 0, 0, 1⟩, ⟨1, 1, .rw, 0, 0, 0, 1⟩, ⟨4, 4, .rw, 8, 0, 0, 4⟩, ⟨8, 8, .rw, 10, 0, 0, 8⟩]⟩  -- FEN_GRP_CTL
  , ⟨0x60204, 1, 0x4, false, [⟨0, 16, .ro, 1, 0, 0, 16⟩]⟩  -- FEN_GRP_CVER
  , ⟨0x60208, 1, 0x4, false, [⟨0, 16, .rw, 1, 0, 0, 16⟩, ⟨16, 16, .rw, 1, 0, 0, 16⟩]⟩  -- FEN_GRP_CWIN
  , ⟨0x6020C, 1, 0x4, false, [⟨0, 32, .rw, 400, 0, 0, 32⟩]⟩  -- FEN_GRP_UP
  , ⟨0x60210, 1, 0x4, false, [⟨0, 32, .rw, 400, 0, 0, 32⟩]⟩  -- FEN_GRP_DN
  , ⟨0x60214, 1, 0x4, false, [⟨0, 32, .rw, 0, 0, 0, 32⟩]⟩  -- FEN_GRP_PMIN
  , ⟨0x60218, 1, 0x4, false, [⟨0, 32, .rw, 0x2A1D40, 0, 0, 32⟩]⟩  -- FEN_GRP_PMAX
  , ⟨0x6021C, 1, 0x4, false, [⟨0, 3, .ro, 0, 0, 0, 3⟩, ⟨3, 1, .ro, 0, 0, 0, 1⟩, ⟨4, 3, .ro, 4, 0, 0, 3⟩, ⟨8, 8, .ro, 0, 0, 0, 8⟩, ⟨16, 8, .ro, 0, 0, 0, 8⟩]⟩  -- FEN_GRP_STAT
  , ⟨0x60220, 1, 0x4, false, [⟨0, 32, .ro, 0, 0, 0, 32⟩]⟩  -- FEN_GRP_CNUM
  , ⟨0x60224, 1, 0x4, false, [⟨0, 16, .rw, 1000, 0, 0, 16⟩]⟩  -- FEN_PACE_CTL
  , ⟨0x60228, 1, 0x4, false, [⟨0, 2, .ro, 0, 0, 0, 2⟩, ⟨2, 2, .ro, 0, 0, 0, 2⟩, ⟨4, 1, .ro, 0, 0, 0, 1⟩]⟩  -- FEN_PACE_STAT
  , ⟨0x6022C, 1, 0x4, false, [⟨0, 32, .rc, 0, 0, 0, 32⟩]⟩  -- FEN_PACEUND
  ]

/-- Registers of block ROS. -/
def regsRos : List RegRow :=
  [ ⟨0x70000, 1, 0x4, false, [⟨0, 16, .ro, 0, 0, 0, 16⟩, ⟨16, 16, .ro, 1, 0, 0, 16⟩]⟩  -- ROS_ID
  , ⟨0x70004, 1, 0x4, false, [⟨0, 1, .rw, 0, 0, 0, 1⟩, ⟨8, 10, .rw, 60, 0, 0, 10⟩]⟩  -- ROS_CTL
  , ⟨0x70008, 1, 0x4, false, [⟨0, 1, .ro, 0, 0, 0, 1⟩, ⟨1, 1, .ro, 0, 0, 0, 1⟩, ⟨2, 1, .ro, 0, 0, 0, 1⟩, ⟨3, 1, .ro, 0, 0, 0, 1⟩, ⟨4, 1, .ro, 0, 0, 0, 1⟩, ⟨5, 1, .ro, 0, 0, 0, 1⟩, ⟨6, 1, .ro, 0, 0, 0, 1⟩, ⟨7, 1, .ro, 0, 0, 0, 1⟩, ⟨8, 1, .ro, 0, 0, 0, 1⟩, ⟨9, 1, .ro, 0, 0, 0, 1⟩, ⟨10, 3, .ro, 0, 0, 0, 3⟩, ⟨13, 1, .ro, 0, 0, 0, 1⟩, ⟨14, 1, .ro, 0, 0, 0, 1⟩, ⟨16, 4, .ro, 0, 0, 0, 4⟩]⟩  -- ROS_STAT
  , ⟨0x7000C, 1, 0x4, false, [⟨0, 16, .ro, 0, 0, 0, 16⟩]⟩  -- ROS_LAT
  , ⟨0x70010, 1, 0x4, false, [⟨0, 32, .ro, 0, 0, 0, 64⟩]⟩  -- ROS_SOFS_LO
  , ⟨0x70014, 1, 0x4, false, [⟨0, 32, .ro, 0, 4, 32, 64⟩]⟩  -- ROS_SOFS_HI
  , ⟨0x70018, 1, 0x4, false, [⟨0, 32, .ro, 0, 0, 0, 64⟩]⟩  -- ROS_DPNUM_LO
  , ⟨0x7001C, 1, 0x4, false, [⟨0, 32, .ro, 0, 4, 32, 64⟩]⟩  -- ROS_DPNUM_HI
  , ⟨0x70020, 1, 0x4, false, [⟨0, 16, .ro, 0, 0, 0, 16⟩, ⟨16, 16, .ro, 0, 0, 0, 16⟩]⟩  -- ROS_PHERR
  , ⟨0x70024, 1, 0x4, false, [⟨0, 32, .ro, 0, 0, 0, 64⟩]⟩  -- ROS_LASTCP_LO
  , ⟨0x70028, 1, 0x4, false, [⟨0, 32, .ro, 0, 4, 32, 64⟩]⟩  -- ROS_LASTCP_HI
  , ⟨0x70040, 1, 0x4, false, [⟨0, 32, .rc, 0, 0, 0, 32⟩]⟩  -- ROS_CRC
  , ⟨0x70044, 1, 0x4, false, [⟨0, 32, .rc, 0, 0, 0, 32⟩]⟩  -- ROS_RSIL
  , ⟨0x70048, 1, 0x4, false, [⟨0, 32, .rc, 0, 0, 0, 32⟩]⟩  -- ROS_BSIL
  , ⟨0x7004C, 1, 0x4, false, [⟨0, 32, .rc, 0, 0, 0, 32⟩]⟩  -- ROS_PDMIS
  , ⟨0x70050, 1, 0x4, false, [⟨0, 32, .rc, 0, 0, 0, 32⟩]⟩  -- ROS_DDMIS
  , ⟨0x70054, 1, 0x4, false, [⟨0, 32, .rc, 0, 0, 0, 32⟩]⟩  -- ROS_LATE
  , ⟨0x70058, 1, 0x4, false, [⟨0, 16, .ro, 0, 0, 0, 16⟩, ⟨16, 16, .ro, 0, 0, 0, 16⟩]⟩  -- ROS_TKO
  ]

/-- Registers of block ERA. -/
def regsEra : List RegRow :=
  [ ⟨0x80000, 1, 0x4, false, [⟨0, 16, .ro, 0, 0, 0, 16⟩, ⟨16, 16, .ro, 1, 0, 0, 16⟩]⟩  -- ERA_ID
  , ⟨0x80004, 1, 0x4, false, [⟨0, 8, .rw, 10, 0, 0, 8⟩, ⟨8, 8, .rw, 30, 0, 0, 8⟩]⟩  -- ERA_CTL
  , ⟨0x80008, 1, 0x4, false, [⟨0, 1, .ro, 0, 0, 0, 1⟩, ⟨1, 1, .ro, 0, 0, 0, 1⟩, ⟨2, 1, .w1c, 0, 0, 0, 1⟩, ⟨3, 1, .ro, 0, 0, 0, 1⟩, ⟨4, 2, .ro, 0, 0, 0, 2⟩, ⟨6, 1, .ro, 0, 0, 0, 1⟩, ⟨8, 8, .ro, 0, 0, 0, 8⟩, ⟨16, 16, .ro, 0, 0, 0, 16⟩]⟩  -- ERA_STAT
  , ⟨0x8000C, 1, 0x4, false, [⟨0, 9, .ro, 0, 0, 0, 9⟩, ⟨9, 1, .ro, 0, 0, 0, 1⟩, ⟨16, 16, .ro, 0, 0, 0, 16⟩]⟩  -- ERA_HALT
  , ⟨0x80010, 1, 0x4, false, [⟨0, 32, .ro, 0, 0, 0, 64⟩]⟩  -- ERA_HALT_TIME_LO
  , ⟨0x80014, 1, 0x4, false, [⟨0, 32, .ro, 0, 4, 32, 64⟩]⟩  -- ERA_HALT_TIME_HI
  , ⟨0x80018, 1, 0x4, false, [⟨0, 9, .rw, 0, 0, 0, 9⟩]⟩  -- ERA_DSEL
  , ⟨0x8001C, 1, 0x4, true, [⟨0, 2, .ro, 0, 0, 0, 2⟩, ⟨2, 2, .ro, 0, 0, 0, 2⟩, ⟨4, 1, .ro, 0, 0, 0, 1⟩, ⟨5, 1, .ro, 0, 0, 0, 1⟩, ⟨6, 1, .ro, 0, 0, 0, 1⟩, ⟨16, 16, .ro, 0, 0, 0, 16⟩]⟩  -- ERA_DINFO
  , ⟨0x80020, 1, 0x4, true, [⟨0, 32, .ro, 0, 0, 0, 64⟩]⟩  -- ERA_DFIRST_LO
  , ⟨0x80024, 1, 0x4, true, [⟨0, 32, .ro, 0, 4, 32, 64⟩]⟩  -- ERA_DFIRST_HI
  , ⟨0x80028, 1, 0x4, true, [⟨0, 32, .ro, 0, 0, 0, 64⟩]⟩  -- ERA_DLAST_LO
  , ⟨0x8002C, 1, 0x4, true, [⟨0, 32, .ro, 0, 4, 32, 64⟩]⟩  -- ERA_DLAST_HI
  , ⟨0x80030, 1, 0x4, true, [⟨0, 32, .ro, 0, 0, 0, 32⟩]⟩  -- ERA_DPARAM
  , ⟨0x80100, 12, 0x4, false, [⟨0, 32, .w1c, 0, 0, 0, 32⟩]⟩  -- ERA_DSTAT
  , ⟨0x80140, 12, 0x4, false, [⟨0, 32, .ro, 0, 0, 0, 32⟩]⟩  -- ERA_DCAUSE
  , ⟨0x80180, 12, 0x4, false, [⟨0, 32, .ro, 0, 0, 0, 32⟩]⟩  -- ERA_DINJ
  , ⟨0x80200, 11, 0x4, false, [⟨0, 32, .rc, 0, 0, 0, 32⟩]⟩  -- ERA_XMISS
  , ⟨0x80240, 13, 0x4, false, [⟨0, 32, .ro, 0, 0, 0, 32⟩]⟩  -- ERA_CLKDEV
  ]

/-- Registers of block COL. -/
def regsCol : List RegRow :=
  [ ⟨0x90000, 1, 0x4, false, [⟨0, 16, .ro, 0, 0, 0, 16⟩, ⟨16, 16, .ro, 1, 0, 0, 16⟩]⟩  -- COL_ID
  , ⟨0x90004, 1, 0x4, false, [⟨0, 16, .rw, 1000, 0, 0, 16⟩, ⟨16, 8, .rw, 20, 0, 0, 8⟩]⟩  -- COL_CTL
  , ⟨0x90008, 1, 0x4, false, [⟨0, 1, .ro, 0, 0, 0, 1⟩, ⟨1, 1, .ro, 0, 0, 0, 1⟩, ⟨2, 1, .ro, 0, 0, 0, 1⟩, ⟨3, 1, .ro, 0, 0, 0, 1⟩, ⟨8, 8, .ro, 0, 0, 0, 8⟩, ⟨16, 16, .ro, 0, 0, 0, 16⟩]⟩  -- COL_STAT
  , ⟨0x9000C, 1, 0x4, false, [⟨0, 32, .ro, 0, 0, 0, 48⟩]⟩  -- COL_OPT_LO
  , ⟨0x90010, 1, 0x4, false, [⟨0, 16, .ro, 0, 4, 32, 48⟩]⟩  -- COL_OPT_HI
  , ⟨0x90014, 1, 0x4, false, [⟨0, 24, .ro, 0, 0, 0, 24⟩]⟩  -- COL_PCC
  , ⟨0x90018, 1, 0x4, false, [⟨0, 6, .rw, 0, 0, 0, 6⟩]⟩  -- COL_TSEL
  , ⟨0x9001C, 1, 0x4, true, [⟨0, 4, .ro, 0, 0, 0, 4⟩, ⟨4, 1, .ro, 0, 0, 0, 1⟩, ⟨5, 1, .ro, 0, 0, 0, 1⟩, ⟨16, 10, .ro, 0, 0, 0, 10⟩]⟩  -- COL_TSTAT
  , ⟨0x90020, 1, 0x4, true, [⟨0, 32, .rc, 0, 0, 0, 32⟩]⟩  -- COL_TFIRE
  , ⟨0x90024, 1, 0x4, true, [⟨0, 32, .rc, 0, 0, 0, 32⟩]⟩  -- COL_TDROP
  , ⟨0x90040, 1, 0x4, false, [⟨0, 32, .rc, 0, 0, 0, 32⟩]⟩  -- COL_LOST
  , ⟨0x90044, 1, 0x4, false, [⟨0, 32, .rc, 0, 0, 0, 32⟩]⟩  -- COL_WERR
  , ⟨0x90100, 5, 0x20, false, [⟨0, 1, .ro, 0, 0, 0, 1⟩, ⟨1, 1, .ro, 0, 0, 0, 1⟩, ⟨2, 1, .ro, 0, 0, 0, 1⟩, ⟨8, 8, .ro, 0, 0, 0, 8⟩, ⟨16, 16, .ro, 0, 0, 0, 16⟩]⟩  -- COL_SSTAT
  , ⟨0x90104, 5, 0x20, false, [⟨0, 32, .ro, 0, 0, 0, 64⟩]⟩  -- COL_SFIRST_LO
  , ⟨0x90108, 5, 0x20, false, [⟨0, 32, .ro, 0, 4, 32, 64⟩]⟩  -- COL_SFIRST_HI
  , ⟨0x9010C, 5, 0x20, false, [⟨0, 32, .ro, 0, 0, 0, 64⟩]⟩  -- COL_SNEXT_LO
  , ⟨0x90110, 5, 0x20, false, [⟨0, 32, .ro, 0, 4, 32, 64⟩]⟩  -- COL_SNEXT_HI
  , ⟨0x90114, 5, 0x20, false, [⟨0, 16, .rc, 0, 0, 0, 16⟩, ⟨16, 16, .rc, 0, 0, 0, 16⟩]⟩  -- COL_SREP
  ]

/-- Registers of block UPD. -/
def regsUpd : List RegRow :=
  [ ⟨0xA0000, 1, 0x4, false, [⟨0, 16, .ro, 0, 0, 0, 16⟩, ⟨16, 16, .ro, 1, 0, 0, 16⟩]⟩  -- UPD_ID
  , ⟨0xA0004, 1, 0x4, false, [⟨0, 1, .rw, 1, 0, 0, 1⟩, ⟨8, 8, .rw, 10, 0, 0, 8⟩]⟩  -- UPD_CTL
  , ⟨0xA0008, 1, 0x4, false, [⟨0, 2, .ro, 0, 0, 0, 2⟩, ⟨2, 3, .ro, 0, 0, 0, 3⟩, ⟨5, 1, .ro, 0, 0, 0, 1⟩, ⟨6, 6, .ro, 0, 0, 0, 6⟩, ⟨12, 4, .ro, 0, 0, 0, 4⟩, ⟨16, 16, .ro, 0, 0, 0, 16⟩]⟩  -- UPD_STAT
  , ⟨0xA000C, 1, 0x4, false, [⟨0, 32, .ro, 0, 0, 0, 64⟩]⟩  -- UPD_NONCE_LO
  , ⟨0xA0010, 1, 0x4, false, [⟨0, 32, .ro, 0, 4, 32, 64⟩]⟩  -- UPD_NONCE_HI
  , ⟨0xA0020, 6, 0x4, false, [⟨0, 32, .ro, 0, 0, 0, 32⟩]⟩  -- UPD_VER
  , ⟨0xA0040, 6, 0x4, false, [⟨0, 3, .ro, 0, 0, 0, 3⟩, ⟨3, 3, .ro, 0, 0, 0, 3⟩, ⟨8, 2, .ro, 0, 0, 0, 2⟩, ⟨16, 14, .ro, 0, 0, 0, 14⟩]⟩  -- UPD_SLOT
  ]

/-- Registers of block PRF. -/
def regsPrf : List RegRow :=
  [ ⟨0xB0000, 1, 0x4, false, [⟨0, 16, .ro, 0, 0, 0, 16⟩, ⟨16, 16, .ro, 1, 0, 0, 16⟩]⟩  -- PRF_ID
  , ⟨0xB0004, 1, 0x4, false, [⟨0, 1, .rw, 0, 0, 0, 1⟩, ⟨1, 1, .rw, 0, 0, 0, 1⟩]⟩  -- PRF_CTL
  , ⟨0xB0008, 1, 0x4, false, [⟨0, 5, .rw, 0, 0, 0, 5⟩, ⟨8, 4, .rw, 15, 0, 0, 4⟩, ⟨12, 4, .rw, 15, 0, 0, 4⟩]⟩  -- PRF_TAG
  , ⟨0xB000C, 1, 0x4, false, [⟨0, 32, .rw, 1, 0, 0, 32⟩]⟩  -- PRF_TSEED
  , ⟨0xB0010, 1, 0x4, false, [⟨0, 1, .w1c, 0, 0, 0, 1⟩, ⟨1, 4, .ro, 0, 0, 0, 4⟩]⟩  -- PRF_STAT
  , ⟨0xB0014, 1, 0x4, false, [⟨0, 32, .rc, 0, 0, 0, 32⟩]⟩  -- PRF_TCNT
  , ⟨0xB0018, 1, 0x4, false, [⟨0, 32, .rc, 0, 0, 0, 32⟩]⟩  -- PRF_TSKIP
  , ⟨0xB0100, 6, 0x100, false, [⟨0, 8, .w1c, 0, 0, 0, 8⟩, ⟨8, 1, .w1c, 0, 0, 0, 1⟩]⟩  -- PRF_OVF
  , ⟨0xB0108, 6, 0x100, false, [⟨0, 32, .ro, 0, 0, 0, 64⟩]⟩  -- PRF_CYC_LO
  , ⟨0xB010C, 6, 0x100, false, [⟨0, 32, .ro, 0, 4, 32, 64⟩]⟩  -- PRF_CYC_HI
  , ⟨0xB0110, 8, 0x8, false, [⟨0, 32, .rw, 0, 0, 0, 48⟩]⟩  -- PRF_CNT_LO
  , ⟨0xB0114, 8, 0x8, false, [⟨0, 16, .rw, 0, 4, 32, 48⟩]⟩  -- PRF_CNT_HI
  , ⟨0xB0210, 8, 0x8, false, [⟨0, 32, .rw, 0, 0, 0, 48⟩]⟩  -- PRF_CNT_LO
  , ⟨0xB0214, 8, 0x8, false, [⟨0, 16, .rw, 0, 4, 32, 48⟩]⟩  -- PRF_CNT_HI
  , ⟨0xB0310, 8, 0x8, false, [⟨0, 32, .rw, 0, 0, 0, 48⟩]⟩  -- PRF_CNT_LO
  , ⟨0xB0314, 8, 0x8, false, [⟨0, 16, .rw, 0, 4, 32, 48⟩]⟩  -- PRF_CNT_HI
  , ⟨0xB0410, 8, 0x8, false, [⟨0, 32, .rw, 0, 0, 0, 48⟩]⟩  -- PRF_CNT_LO
  , ⟨0xB0414, 8, 0x8, false, [⟨0, 16, .rw, 0, 4, 32, 48⟩]⟩  -- PRF_CNT_HI
  , ⟨0xB0510, 4, 0x8, false, [⟨0, 32, .rw, 0, 0, 0, 48⟩]⟩  -- PRF_CNT_LO
  , ⟨0xB0514, 4, 0x8, false, [⟨0, 16, .rw, 0, 4, 32, 48⟩]⟩  -- PRF_CNT_HI
  , ⟨0xB0610, 4, 0x8, false, [⟨0, 32, .rw, 0, 0, 0, 48⟩]⟩  -- PRF_CNT_LO
  , ⟨0xB0614, 4, 0x8, false, [⟨0, 16, .rw, 0, 4, 32, 48⟩]⟩  -- PRF_CNT_HI
  , ⟨0xB0160, 8, 0x4, false, [⟨0, 8, .rw, 0, 0, 0, 8⟩, ⟨8, 4, .rw, 0, 0, 0, 4⟩, ⟨12, 1, .rw, 0, 0, 0, 1⟩]⟩  -- PRF_SEL
  , ⟨0xB0260, 8, 0x4, false, [⟨0, 8, .rw, 0, 0, 0, 8⟩, ⟨8, 4, .rw, 0, 0, 0, 4⟩, ⟨12, 1, .rw, 0, 0, 0, 1⟩]⟩  -- PRF_SEL
  , ⟨0xB0360, 8, 0x4, false, [⟨0, 8, .rw, 0, 0, 0, 8⟩, ⟨8, 4, .rw, 0, 0, 0, 4⟩, ⟨12, 1, .rw, 0, 0, 0, 1⟩]⟩  -- PRF_SEL
  , ⟨0xB0460, 8, 0x4, false, [⟨0, 8, .rw, 0, 0, 0, 8⟩, ⟨8, 4, .rw, 0, 0, 0, 4⟩, ⟨12, 1, .rw, 0, 0, 0, 1⟩]⟩  -- PRF_SEL
  , ⟨0xB0560, 4, 0x4, false, [⟨0, 8, .rw, 0, 0, 0, 8⟩, ⟨8, 4, .rw, 0, 0, 0, 4⟩, ⟨12, 1, .rw, 0, 0, 0, 1⟩]⟩  -- PRF_SEL
  , ⟨0xB0660, 4, 0x4, false, [⟨0, 8, .rw, 0, 0, 0, 8⟩, ⟨8, 4, .rw, 0, 0, 0, 4⟩, ⟨12, 1, .rw, 0, 0, 0, 1⟩]⟩  -- PRF_SEL
  ]

/-- Registers of block SPR. -/
def regsSpr : List RegRow :=
  [ ⟨0xC0000, 1, 0x4, false, [⟨0, 16, .ro, 0, 0, 0, 16⟩, ⟨16, 16, .ro, 1, 0, 0, 16⟩]⟩  -- SPR_ID
  , ⟨0xC0004, 1, 0x4, false, [⟨0, 8, .rw, 25, 0, 0, 8⟩, ⟨8, 1, .rw, 1, 0, 0, 1⟩]⟩  -- SPR_CTL
  , ⟨0xC0008, 1, 0x4, false, [⟨0, 10, .ro, 0, 0, 0, 10⟩, ⟨10, 1, .ro, 0, 0, 0, 1⟩, ⟨16, 16, .ro, 0, 0, 0, 16⟩]⟩  -- SPR_STAT
  , ⟨0xC000C, 1, 0x4, false, [⟨0, 3, .ro, 0, 0, 0, 3⟩, ⟨3, 5, .ro, 0, 0, 0, 5⟩, ⟨8, 24, .ro, 0, 0, 0, 24⟩]⟩  -- SPR_RSTAT
  , ⟨0xC0010, 1, 0x4, false, [⟨0, 8, .rw, 3, 0, 0, 8⟩, ⟨8, 8, .rw, 100, 0, 0, 8⟩, ⟨16, 16, .rw, 1000, 0, 0, 16⟩]⟩  -- SPR_WTHR0
  , ⟨0xC0014, 1, 0x4, false, [⟨0, 16, .rw, 20, 0, 0, 16⟩, ⟨16, 16, .rw, 100, 0, 0, 16⟩]⟩  -- SPR_WTHR1
  , ⟨0xC0100, 10, 0x4, false, [⟨0, 16, .ro, 0, 0, 0, 16⟩, ⟨16, 16, .ro, 0, 0, 0, 16⟩]⟩  -- SPR_RES
  ]

/-- Every register of BAR0. -/
def regTable : List RegRow :=
  regsGlb ++ regsHst ++ regsHst2 ++ regsPrs ++ regsPrs2 ++ regsChs ++ regsChs2 ++ regsStl ++ regsStl2 ++ regsBup ++ regsBup2 ++ regsFen ++ regsFen2 ++ regsRos ++ regsEra ++ regsCol ++ regsUpd ++ regsPrf ++ regsSpr

end Sys2Proof.Machine
end

