-- ==== Sys2Proof/Machine/Tab.lean ====
section
/-!
DEFINITION. Sparse tables: a list of keys and values that holds only the entries that have been written. The register
file, the ring contexts, the forme slots and the other numbered objects of the module are kept so.
-/
namespace Sys2Proof.Machine

/-- A table from numbers to values of one kind: plain data, keys rising. -/
abbrev Tab (α : Type) := List (Nat × α)

/-- The entry under `k`, when there is one. -/
def Tab.find {α : Type} : Tab α → Nat → Option α
  | [], _ => none
  | (j, v) :: t, k => if j = k then some v else Tab.find t k

/-- The entry under `k`, or `d`. -/
def Tab.get {α : Type} (t : Tab α) (k : Nat) (d : α) : α := (Tab.find t k).getD d

/-- The table with `v` under `k`. -/
def Tab.put {α : Type} : Tab α → Nat → α → Tab α
  | [], k, v => [(k, v)]
  | (j, w) :: t, k, v =>
    if j = k then (k, v) :: t
    else if k < j then (k, v) :: (j, w) :: t
    else (j, w) :: Tab.put t k v

/-- The table without `k`. -/
def Tab.del {α : Type} (t : Tab α) (k : Nat) : Tab α := t.filter (fun e => e.1 != k)

/-- The table without the keys that `p` holds of. -/
def Tab.drop {α : Type} (t : Tab α) (p : Nat → Bool) : Tab α := t.filter (fun e => !p e.1)

theorem Tab.find_put_same {α : Type} (t : Tab α) (k : Nat) (v : α) : Tab.find (Tab.put t k v) k = some v := by
  induction t with
  | nil => simp [Tab.put, Tab.find]
  | cons e t ih =>
    obtain ⟨j, w⟩ := e
    simp only [Tab.put]
    split
    · simp [Tab.find]
    · split
      · simp [Tab.find]
      · rename_i h _; simp [Tab.find, h, ih]

theorem Tab.find_put_ne {α : Type} (t : Tab α) (k j : Nat) (v : α) (h : j ≠ k) :
    Tab.find (Tab.put t k v) j = Tab.find t j := by
  induction t with
  | nil => simp [Tab.put, Tab.find, h.symm]
  | cons e t ih =>
    obtain ⟨i, w⟩ := e
    simp only [Tab.put]
    split
    · rename_i hi; subst hi; simp [Tab.find, h.symm]
    · split
      · simp [Tab.find, h.symm]
      · by_cases hij : i = j
        · simp [Tab.find, hij]
        · simp [Tab.find, hij, ih]

theorem Tab.get_put_same {α : Type} (t : Tab α) (k : Nat) (v d : α) : Tab.get (Tab.put t k v) k d = v := by
  simp [Tab.get, Tab.find_put_same]

theorem Tab.get_put_ne {α : Type} (t : Tab α) (k j : Nat) (v d : α) (h : j ≠ k) :
    Tab.get (Tab.put t k v) j d = Tab.get t j d := by
  simp [Tab.get, Tab.find_put_ne t k j v h]

end Sys2Proof.Machine
end

