-- ==== Sys2Proof/Machine/State.lean ====
section
/-!
DEFINITION. The state of the module as plain data, its faults and refusals, and the state after reset. Register fields
live in `regs`, under the keys of Machine/Regs.lean; what a block holds beside its registers has a structure of its
own below. INVENTORY.md lists every piece with the rule of spec/ that names it.
-/
namespace Sys2Proof.Machine

/-- A fault of the model. The module itself never stops on one: every command of the table has an effect, and what the
manual calls a fault (a raised detector, an error status) is an effect on State. -/
inductive Fault
  /-- Raised by no command: kept so that the outcome type has a reason to name. Safe. -/
  | none
deriving DecidableEq, Repr

/-- A refusal of the model. -/
inductive Refusal
  /-- Raised by an arm of exec whose command has no meaning yet. Safe: the run ends. -/
  | notModelled (mnemonic : String)
deriving DecidableEq, Repr

/-- What one command answers. -/
abbrev Out (σ : Type) := Host.Outcome σ Fault Refusal

/-- The pins that the module drives as levels. -/
inductive Pin | alive | hbOut | uartTx
deriving DecidableEq, Repr

/-- When a deferred register write takes effect (R603): at the next Chase period boundary, at the next press-cycle
boundary, or at the next SNAP. -/
inductive Point | period | press | snap
deriving DecidableEq, Repr

/-- One symbol of the Fennal carrier (R362 to R364): the tones that carry something, and those of them that carry a 1, bit i for tone
i. -/
structure Symbol where
  carried : Nat
  ones : Nat
deriving DecidableEq, Repr

/-- What the module sends, in the order sent (log entry 9): the model's own record of its outputs. -/
inductive Output
  /-- A PCIe memory write: bus address and bytes (an entry, a data slot, a result buffer). -/
  | dma (addr : Nat) (data : List Byte)
  /-- An MSI-X message of a vector (R85). -/
  | msix (vector : Nat)
  /-- A SYNC frame on a stage link (R336). -/
  | sync (link : Nat) (data : List Byte)
  /-- A DUTY frame on a stage link (R338). -/
  | duty (link : Nat) (data : List Byte)
  /-- A CFG frame on a stage link (R340). -/
  | stlCfg (link : Nat) (data : List Byte)
  /-- A SELECT frame on link 39 (R345). -/
  | select (data : List Byte)
  /-- A frame on the Fennal carrier: its type, its destination, and its symbols on the wire, the preamble first (R364). -/
  | fennal (kind dest : Nat) (wire : List Symbol)
  /-- A frame on the Roscor link (R490): its type, and the frame from its header to its CRC. -/
  | roscor (kind : Nat) (data : List Byte)
  /-- A frame on the Roscor link with ELIG clear, as in Flyleaf (R66, R490). -/
  | roscorNotElig (kind : Nat) (data : List Byte)
  /-- A page written to a bank of a store in the flash (R516, R517). -/
  | flash (store bank : Nat) (page : List Byte)
  /-- A frame on a Bupilin ring (R422): ring, port of the module it leaves by, bytes. -/
  | bupilin (ring port : Nat) (data : List Byte)
  /-- Bytes on the service UART (R558). -/
  | uart (data : List Byte)
  /-- A word on the test port (R44). -/
  | tdo (value : Nat)
  /-- A level driven on a pin: ALIVE, HB_OUT, or the idle level of UART_TX (R37, R38, R52). -/
  | pin (name : Pin) (high : Bool)
  /-- A PCIe completion without data value of its own: Configuration Request Retry Status (R63), or a value. -/
  | config (value : Option Nat)
  /-- The value that a read of a register completes with (R8, R11). -/
  | read (value : Nat)
  /-- A read completes with Completer Abort (R588). -/
  | abort
deriving DecidableEq, Repr

/-- A completion entry of a CPL ring (R96), before it is written. -/
structure Cpl where
  opcode : Nat
  flags : Nat
  status : Nat
  tag : Nat
  ring : Nat
  index : Nat
  count : Nat
  done : Nat
  result : Nat
  time : Nat
deriving DecidableEq, Repr

/-- What a ring context holds beside its registers (R95 to R107). -/
structure RingX where
  /-- PHASE of the next entry (R102). -/
  phase : Bool := true
  /-- Sequence of the next entry (R97). -/
  seq : Nat := 0
  /-- Entries were dropped since the last one written (R104). -/
  lost : Bool := false
  /-- Entries written since the last MSI-X message (R86). -/
  since : Nat := 0
  /-- Descriptors in the open batch, their bytes done, and the last one's identity (R105). -/
  batchN : Nat := 0
  batchDone : Nat := 0
  batchTag : Nat := 0
  batchIdx : Nat := 0
  batchOp : Nat := 0
  batchRes : Nat := 0
  /-- Descriptors fetched and not yet begun: opcode and descriptor, oldest first (R90, R100). -/
  fetched : List (Nat × Desc) := []
  /-- Descriptors to complete ABORTED once the command that has begun completes (R90, R113). -/
  aborts : List (Nat × Desc) := []
  /-- Descriptors fetched, and completed, since enable (FENCE, R109). -/
  nFetched : Nat := 0
  nDone : Nat := 0
  /-- A command of this CMD ring has begun and has not completed (R113). -/
  busy : Bool := false
  /-- The last tail written before the class is served (R68). -/
  savedTail : Option Nat := none
  /-- CPL rings: completions due and not yet written (R84, R103), oldest first. -/
  held : List Cpl := []
  /-- CPL rings: completions still owed to descriptors of rings that name it (R90). -/
  owed : Nat := 0
  /-- The next completion carries TAKEOVER (R118). -/
  takeover : Bool := false
  /-- Head last reported by the active seat for a shadow ring (R116, R118). -/
  peerHead : Nat := 0
deriving DecidableEq, Repr

/-- A completion of a shadow ring held for the standby (R117). -/
structure ShadowHold where
  ring : Nat
  index : Nat
  opcode : Nat
  desc : Desc
  status : Nat
  done : Nat
  result : Nat
  /-- It may be written once those of its ring before it are (R113). -/
  ok : Bool := false
deriving DecidableEq, Repr

/-- A FENCE waiting for another ring (R109). -/
structure Fence where
  ring : Nat
  desc : Desc
  target : Nat
  upTo : Nat
deriving DecidableEq, Repr

/-- An MSI-X table entry with its pending bit (R85, R589). -/
structure MsixEntry where
  addr : Nat := 0
  data : Nat := 0
  masked : Bool := true
  pend : Bool := false
deriving DecidableEq, Repr

/-- The host island beside its registers (R81 to R118). -/
structure Hst where
  /-- Bus Master Enable of the PCI Command register (R84). -/
  busMaster : Bool := false
  /-- The PCIe link is up (R82). -/
  linkUp : Bool := false
  /-- PERST# asserted (R47). -/
  perst : Bool := false
  /-- PERST# has been deasserted and waits for the PCIe rails (R47). -/
  perstPend : Bool := false
  /-- Writes of result buffers that wait until memory requests are enabled (R84, R113). -/
  dmaWait : List (Nat × List Byte) := []
  /-- The Device Control register: payload and request sizes (R81); the function is in D3hot; the uncorrectable errors that AER
  shows (R81). -/
  devCtl : Nat := 0x2010
  /-- The base address registers as written, from offset 0x10 (R63, R83). -/
  bars : List Nat := [0, 0, 0, 0, 0, 0]
  d3 : Bool := false
  aer : Nat := 0
  /-- The correctable errors that AER shows (R81). -/
  aerCor : Nat := 0
  /-- PTM Enable of the PTM Control register (R87). -/
  ptmEnable : Bool := false
  /-- Shelf time of the last good PTM dialogue (R87). -/
  ptmLast : Option Nat := none
  msix : Tab MsixEntry := []
  /-- MSI-X function mask. -/
  msixMask : Bool := false
  fences : List Fence := []
  shadowHold : List ShadowHold := []
  /-- Captured upper halves of 64-bit pairs (R11), by requester and register. -/
  holding : Tab Nat := []
deriving DecidableEq, Repr

/-- A detector beside its registers (R469 to R476). -/
structure Det where
  /-- Status bit (R475). -/
  status : Bool := false
  /-- The raise that set the status, or a later one, was injected (R483). -/
  injected : Bool := false
  /-- Greatest class at which the status was raised since the last clear. -/
  cls : Nat := 0
  /-- Cause present, for a level detector (R470). -/
  cause : Bool := false
  /-- Cause found by the owner, apart from any injection (R483). -/
  real : Bool := false
  /-- Cause driven by an active injection (R483). -/
  injCause : Bool := false
  /-- Raises not yet covered by an EVT entry (R476). -/
  owing : Nat := 0
  /-- Time of the last EVT entry (R476). -/
  lastEvt : Option Nat := none
deriving DecidableEq, Repr

/-- An active injection (R483). -/
structure Injection where
  number : Nat
  det : Nat
  mode : Nat
  param : Nat
  /-- Occurrences still to come, and their spacing in us (mode COUNT); hold time in ms (mode HOLD). -/
  left : Nat
  spacing : Nat
  /-- Shelf time at which the cause of a SINGLE injection ends (R483). -/
  ends : Option Nat
deriving DecidableEq, Repr

/-- Errata beside its registers (R469 to R486). -/
structure Era where
  dets : Tab Det := []
  injections : List Injection := []
  nextInj : Nat := 1
  /-- Unlocks refused, with their times in ns, newest first (R482). -/
  refusals : List Nat := []
  /-- Degrade orders not yet carried out: detector, parameter, injected (R474). -/
  orders : List (Nat × Nat × Bool) := []
  /-- A halt has been decided whose work at the next period boundary is not yet done (R473). -/
  haltPend : Bool := false
  /-- A Fennal LEAVE is owed at the next access opportunity (R401, R473). -/
  leavePend : Bool := false
  /-- A Colophon halt snapshot is owed (R473). -/
  haltSnap : Bool := false
  /-- The keep word has been written within the last 1 ms (R477). -/
  keep : Bool := true
deriving DecidableEq, Repr

/-- What the settings store holds beside the NVM fields of the registers (R515). -/
structure Nv where
  /-- The settings store holds a valid copy (R10). -/
  valid : Bool := true
  /-- Boot-failure count (R65). -/
  bootFail : Nat := 0
  /-- Operating time in ms and power-cycle count, as last committed (R520). -/
  opTime : Nat := 0
  pcc : Nat := 0
  /-- The clean-shutdown mark (R49). -/
  cleanMark : Bool := false
  /-- Straps stored at the previous start, valid or not (R67): SEAT, POS, ID_PAR. -/
  straps : Option (Nat × Nat × Nat) := none
  /-- The previous start ended in Flyleaf (R79). -/
  wasFlyleaf : Bool := false
  /-- Injection keys 1 and 2 (R482). -/
  injKey1 : Option (List Byte) := none
  injKey2 : Option (List Byte) := none
  /-- The keys of the two Fennal slots, and the sequence mark (R377, R378). -/
  fenKeys : List (Option (List Byte)) := [none, none]
  fenMark : Nat := 0
  /-- The SEQs that this station has sent, first and next of each range (R377). -/
  fenSent : List (Nat × Nat) := []
deriving DecidableEq, Repr

/-- The module's start-up, power and pin state beside its registers (R28 to R80). -/
structure Glb where
  /-- PRESENT closed (R28). -/
  present : Bool := false
  /-- The inrush limiter may conduct (R28, R46). -/
  inrush : Bool := false
  /-- Rails up (R46). -/
  powered : Bool := false
  /-- Step of the loss sequence reached: 0 none, then the rows of R49. -/
  lossStep : Nat := 0
  /-- Who declared the loss: 1 R32, 2 R28. -/
  lossBy : Nat := 0
  /-- Input returned during the loss sequence (R50). -/
  inputBack : Bool := false
  /-- The reservoir feeds the module no longer: it fell to 20.0 V (R51). -/
  exhausted : Bool := false
  /-- Pin levels (R37, R38) and their last read-backs. -/
  alive : Bool := false
  hbOut : Bool := false
  /-- HB_OUT and ALIVE are held static low (R52). -/
  hbHeld : Bool := true
  /-- Stage-link transmitters in electrical idle (R52), SAFE frames still to send after a halt: 10 the first ones are owed, 9 they are sent, then the periods left (R343). -/
  stlIdle : Bool := true
  safeLeft : Nat := 0
  /-- The seat token has been held since this start (R78, R473). -/
  hadToken : Bool := false
  /-- FEN_P/N driven (R52). -/
  fenOn : Bool := false
  /-- Heartbeat tone of ring s (R52, R420). -/
  tone : List Bool := [false, false, false, false]
  /-- Heartbeat tone of ring s on BUP_RET as well (R426). -/
  toneRet : List Bool := [false, false, false, false]
  /-- Test port locked (R44). -/
  tapLocked : Bool := true
  /-- The bit that the bypass register of the test port holds (R44). -/
  bypass : Bool := false
  /-- Condition of the UART at start (R63, R605): none unsettled, some true high, some false timed out. -/
  uart : Option Bool := none
  /-- Configuration requests are served (R63). -/
  settled : Bool := false
  /-- Flyleaf entry condition (R64), 0 none. -/
  flyCond : Nat := 0
  /-- Chase runs; the host island accepts set-up; the stage a halt before Chase interrupted (R60, R479). -/
  chaseUp : Bool := false
  hostUp : Bool := false
  preHalt : Nat := 0
  /-- Stage HOST has been reached since the start (R60, R63). -/
  hostSeen : Bool := false
  /-- A proof has closed into the galley, and an imprint has formed, since the start: PROOF and PACE rings are served (R68). -/
  firstProof : Bool := false
  firstImprint : Bool := false
  /-- PRESS waits for the comparison of the model set with the token holder's (R71). -/
  modelWait : Bool := false
  /-- SEAT_ENABLE recorded (R76, R594). -/
  permit : Bool := false
  /-- A role is to be taken at the next period boundary (R76, R594). -/
  roleDue : Bool := false
  /-- Ten seconds of waiting for the peer have passed (R76). -/
  peerWaited : Bool := false
  /-- Make-ready: last step passed per textblock, result 0 passed, 1 reduced, 2 lost (R70, R79). -/
  mrStep : List Nat := [0, 0, 0, 0]
  mrRes : List Nat := [0, 0, 0, 0]
  /-- DRAM rows and banks spared, leaves and folios spared per textblock are in the registers; the step 7 retries. -/
  mrRetry : List Bool := [false, false, false, false]
  /-- The reset sources of the current millisecond (R56). -/
  sources : List Nat := []
  /-- A restart under code 0x04 or 0x07 goes into Flyleaf at stage ROM (R595). -/
  flyNext : Bool := false
  /-- Code of the module reset in progress, written when it ends (R593). -/
  resetCode : Nat := 1
  /-- The lockstep miscompare of R55 has halted the module; its reset follows. -/
  lockstep : Bool := false
  /-- A MODULE_RESET waiting for the peer (R57): ring and descriptor. -/
  modReset : Option (Nat × Desc) := none
  /-- Times of the watchdog resets of the last 10 s (R59). -/
  wdog : List Nat := []
  /-- The management firmware is restarting (R59). -/
  mgmtDown : Bool := false
  /-- Detectors raised during start-up, in the order of their first raise: number, class, count (R79, R80). -/
  raises : List (Nat × Nat × Nat) := []
  raisesAll : Nat := 0
  /-- The health report has been built since the last reset (R79), and its bytes. -/
  reported : Bool := false
  report : List Byte := []
  /-- Flags byte of the health report (R79): bits 2, 4, 5 and 6. -/
  hflags : Nat := 0
  /-- Make-ready duration in us and time to WAIT in ms (R79). -/
  mrTime : Nat := 0
  waitTime : Nat := 0
  /-- The meter link: last frame taken, run of in-sequence frames, frame times missed, validity, power in W (R42). -/
  meterSeq : Option Nat := none
  meterRun : Nat := 0
  meterMiss : Nat := 0
  meterOk : Bool := false
  meterW : Nat := 0
  meterTime : Nat := 0
deriving DecidableEq, Repr

/-- Times and runs of repeated observations (R22, R24, R42, R43). -/
structure Watch where
  /-- Consecutive 1 ms windows a clock was out of tolerance, by CLOCK detector (R22). -/
  clkBad : Tab Nat := []
  /-- Consecutive misses of each crossing (R24). -/
  xrun : Tab Nat := []
  /-- Junction temperatures of base dies 0 to 3 and of the main die, 0.1 C, offset by +1000 (R54). -/
  hot : Tab Nat := []
  /-- Meter frames lost and discarded (R42). -/
  meterLost : Nat := 0
  meterBad : Nat := 0
  /-- Cooling items that have failed: 0 and 1 a pump, 2 the flow (R396). -/
  coolBad : List Nat := []
deriving DecidableEq, Repr

/-- A change-log entry (R530), its CRC left to the reader of the store. -/
structure LogEntry where
  seq : Nat
  opTime : Nat
  pcc : Nat
  origin : Nat
  kind : Nat
  digest : Bool
  detail : Nat
  chgNo : Nat
  opcode : Nat
  block : Nat
  target : Nat
  old : Nat
  new : Nat
  time : Nat
deriving DecidableEq, Repr

/-- A slug (R528), its CRC left to the reader of the store. -/
structure Slug where
  seq : Nat
  code : Nat
  sub : Nat
  hours : Nat
  pcc : Nat
  p0 : Nat
  p1 : Nat
  p2 : Nat
  p3 : Nat
deriving DecidableEq, Repr

/-- A firing whose capture awaits its DELAY (R524): the definition in force at the firing (R535). -/
structure Capture where
  trig : Nat
  cause : Nat
  injected : Bool
  now : Bool
  due : Nat
  defn : Trigger
deriving DecidableEq, Repr

/-- The Colophon beside its registers (R515 to R538). -/
structure Col where
  log : List LogEntry := []
  slugs : List Slug := []
  /-- Snapshot records: sequence and bytes (R526). -/
  snaps : List (Nat × List Byte) := []
  /-- Records of stores 2, 3 and 4 not yet committed (R518), and bytes waiting in open pages. -/
  openBytes : Nat := 0
  openLog : Nat := 0
  openSlug : Nat := 0
  openSnap : Nat := 0
  /-- Records written round the ring of stores 2, 3 and 4 (R517). -/
  posLog : Nat := 0
  posSlug : Nat := 0
  posSnap : Nat := 0
  /-- Last commit sequence of each store, and the bank of the newest copy of each page, by store and page (R517). -/
  cseq : Tab Nat := []
  pageBank : Tab Nat := []
  /-- Part of a millisecond of operating time, ns (R520). -/
  opFrac : Nat := 0
  /-- A commit of every open page runs (R518). -/
  committing : Bool := false
  /-- The final commit of the loss sequence: not begun, running, done (R533). -/
  finalCommit : Nat := 0
  lossRecs : Nat := 0
  triggers : Tab Trigger := []
  captures : List Capture := []
  /-- Time of each trigger's last capture (R521), and firings dropped since its last record (R526). -/
  lastCap : Tab Nat := []
  dropped : Tab Nat := []
  /-- Capture times within the last second (R527). -/
  recent : List Nat := []
  /-- COL_COMMIT commands waiting for their commit (R537): ring and descriptor. -/
  waiting : List (Nat × Desc) := []
  /-- A reset that waits for the commit of open pages (R534): its code. -/
  resetWait : Option Nat := none
deriving DecidableEq, Repr

/-- A unit of the Press or a Chase lane in the spare maps (R574): 0 in service, 1 in a pool, 2 FAILED, 3 RETIRED. -/
structure UnitX where
  st : Nat
  /-- Failures counted against it (R580). -/
  fails : Nat := 0
  /-- Isolated by an injected degrade, with no failure counted (R580). -/
  injected : Bool := false
  /-- Times in ns of the wear happenings in its sliding window, newest first (R577). -/
  wear : List Nat := []
  /-- UNIT_WORN has been posted (R577). -/
  worn : Bool := false
  /-- It is to be retired at its point (R578): 2 worn, 3 command. -/
  retire : Nat := 0
  /-- The logical index that a spare leaf or folio has taken from the unit it replaces (R156). -/
  idx : Option Nat := none
deriving DecidableEq, Repr

/-- A REPAIR under test (R579): kind, unit, ring and descriptor. -/
structure Repair where
  kind : Nat
  unit : Nat
  ring : Nat
  desc : Desc
  /-- A further failure of the Press ended it (R581). -/
  broken : Bool := false
  abandoned : Bool := false
deriving DecidableEq, Repr

/-- The spare maps beside their registers (R573 to R582). -/
structure Spr where
  /-- By kind × 65,536 + unit (R583); an absent unit is as built. -/
  units : Tab UnitX := []
  repair : Option Repair := none
  /-- Kinds for which RESERVE_LOW has been posted (R585). -/
  low : List Nat := []
deriving DecidableEq, Repr

/-- A stream (R132 to R142). Times are shelf time in ns; `win` holds samples by grid position in us, as 16-bit patterns. -/
structure Stream where
  dieid : Nat := 0
  tray : Nat := 0
  slot : Nat := 0
  dclass : Nat := 0
  rate : Nat := 0
  tb : Nat := 0
  /-- State of R137. -/
  state : Nat := 0
  /-- Stream time (R131). -/
  time : Nat := 0
  lastSeq : Option Nat := none
  /-- The host island has been reset since its last record: the next is taken whatever its SEQ (R128, R139). -/
  anySeq : Bool := false
  /-- The ring of its last record and when it came (R130). -/
  ring : Option Nat := none
  win : Tab Nat := []
  unanch : Bool := false
  /-- First stream of its pool, itself when alone (R141). -/
  lead : Nat := 0
  pooled : Bool := false
  held : Bool := false
  /-- Order of assignment (R142). -/
  order : Nat := 0
deriving DecidableEq, Repr

/-- A schedule entry of one stream (R134, R136), times in ns of shelf time; `stop` none while open-ended. -/
structure SchedE where
  stream : Nat
  start : Nat
  stop : Option Nat
  kind : Nat
  kclass : Nat
  level : Nat
  arg : Nat
deriving DecidableEq, Repr

/-- The inputs of a press cycle, fixed by its cut (R145). -/
structure Inputs where
  cycle : Nat := 0
  streams : Tab Stream := []
  sched : List SchedE := []
  /-- LOST was set when the cycle began (R264). -/
  lost : Bool := false
deriving DecidableEq, Repr

/-- What one descriptor of a shadow ring has changed at a standby (R146), or one record (R24): its ring and index, and, before and
after it, the streams it touched (none for one that was not bound), the schedule of the streams whose entries it touched, and the
LEAVE records that wait. -/
structure CutRec where
  ring : Nat
  index : Nat
  streams : List (Nat × Option Stream × Option Stream)
  sched : List (Nat × List SchedE × List SchedE)
  leaves : List (Nat × Nat × Nat) × List (Nat × Nat × Nat)
deriving DecidableEq, Repr

/-- Ingest beside its registers (R122 to R146). -/
structure Ing where
  streams : Tab Stream := []
  sched : List SchedE := []
  /-- LEAVE records waiting for their time: stream, time, reason (R133). -/
  leaves : List (Nat × Nat × Nat) := []
  nextOrder : Nat := 0
  /-- When the last record of a stream came through its ring, by stream (R130). -/
  ringTime : Tab Nat := []
  /-- Time at which LOST was set (R138). -/
  lostAt : Nat := 0
  /-- PTM_STAT.VALID cleared and has not returned (R131). -/
  ptmGone : Bool := false
  /-- History samples: textblock × 8,192 + stream, grid time in us, value (R144), newest first. -/
  hist : List (Nat × Nat × Nat) := []
  /-- Cut indices of the present press cycle, by ring (R145). -/
  cuts : List (Nat × Nat) := []
  /-- The record last carried to each textblock: its stream, and the stream's window before it (R24, R154). -/
  lastRec : Tab (Nat × Tab Nat) := []
  /-- At a standby: the descriptors of shadow rings that no cut index received so far covers, oldest first (R146). -/
  above : List CutRec := []
  /-- What the record last carried to the textblocks changed (R24). -/
  last : Option CutRec := none
deriving DecidableEq, Repr

/-- A tensor descriptor (R207). -/
structure Tensor where
  space : Nat
  fmt : Nat
  dist : Nat
  region : Nat
  rows : Nat
  cols : Nat
  offset : Nat
  stride : Nat
  nb : Nat
  l : Nat
  p : Nat
  looplvl : Nat
  istride : Nat
deriving DecidableEq, Repr

/-- A sort (R209). -/
structure SortW where
  op : Nat
  scope : Nat
  rnd : Nat
  out : Nat
  wait : Nat
  a : Int
  dst : Nat
  src1 : Nat
  src2 : Nat
  src3 : Nat
  mod : Nat
  n1 : Nat
  n2 : Nat
  seedofs : Nat
  imm : Nat
deriving DecidableEq, Repr

/-- A variant (R206): hierarchy, quires of each logical textblock, worst-case cycles, tensors and sorts. -/
structure Variant where
  svc : Nat
  nq : List Nat
  wcyc : Nat
  tensors : List Tensor
  sorts : List SortW
deriving DecidableEq, Repr

/-- A forme as loaded (R204, R205). Areas are byte offsets of its slot's part of the model, scratch and reserve regions. -/
structure Forme where
  kind : Nat
  seedbase : Nat
  fid : Nat
  fver : Nat
  mbytes : Nat
  sbytes : Nat
  rbytes : Nat
  digest : List Byte
  variants : List Variant
  data : List (Nat × List Byte)
  marea : Nat := 0
  sarea : Nat := 0
  rarea : Nat := 0
deriving DecidableEq, Repr

/-- A load in progress (R233): the ring that opened it, its length, what has been written, newest first. -/
structure Load where
  ring : Nat
  tlen : Nat
  chunks : List (Nat × List Byte) := []
deriving DecidableEq, Repr

/-- A forme slot (R202, R203). -/
structure Slot where
  forme : Option Forme := none
  /-- Selected variant; its weights are in the leaves (R235, R237). -/
  var : Option Nat := none
  ready : Bool := false
  en : Bool := false
  load : Option Load := none
  /-- A committed forme that waits for its imposition: forme and change (R235). -/
  staged : Option (Forme × Staged) := none
  /-- Areas of the forme replaced, freed once the new forme's first run has ended (R235). -/
  old : Option Forme := none
  lastCyc : Nat := 0
  runs : Nat := 0
  abandoned : Nat := 0
  /-- First press cycle after the slot was enabled (R231). -/
  enAt : Nat := 0
  chg : Nat := 0
  /-- Forme loads of this slot: a run belongs to the load it began under (R241). -/
  inst : Nat := 0
  /-- Promotions imposed on the slot since it was loaded (R283). -/
  gen : Nat := 0
  /-- The staged forme is copied (true) or its copy failed: it is imposed at the next press-cycle boundary (R235). -/
  due : Option Bool := none
  /-- The selected variant is in its leaves, and runs from the next press-cycle boundary on (R237). -/
  loaded : Bool := false
deriving DecidableEq, Repr

/-- A loop in progress: first sort of the body, the sort after it, iterations left, iteration index (R225). -/
structure LoopX where
  first : Nat
  after : Nat
  left : Nat
  it : Nat
deriving DecidableEq, Repr

/-- A run in one logical textblock: next sort, loops (innermost first), END reached, barrier or volume reduction waited
for (level, 0 none), cycles so far. -/
structure TbRun where
  pc : Nat := 0
  loops : List LoopX := []
  ended : Bool := false
  wait : Nat := 0
  cyc : Nat := 0
  /-- Shelf time at which it began to wait (R159). -/
  since : Nat := 0
deriving DecidableEq, Repr

/-- A run of a forme (R231). -/
structure Run where
  slot : Nat
  kind : Nat
  /-- Press cycle in which it began, or the shadowed cycle of a shadow run. -/
  cycle : Nat
  step : Nat
  v : Variant
  f : Forme
  tbs : List TbRun
  /-- Values emitted, by target (R224). -/
  emits : Tab (List Int) := []
  inputs : Inputs := {}
  /-- The FORME_RUN command it answers (R233). -/
  cmd : Option (Nat × Desc) := none
  /-- Its result is discarded (R153, R173, R176). -/
  bad : Bool := false
  /-- The forme load of its slot that it began under (R241). -/
  inst : Nat := 0
deriving DecidableEq, Repr

/-- A growing or shrinking hierarchy change (R166 to R169). -/
structure HierChg where
  st : Staged
  old : Nat
  new : Nat
  /-- 0 staged; then the rows of R167 passed. -/
  step : Nat := 0
  begun : Bool := false
  /-- Shelf time at which it began, and whether it replaces a lost unit (R165) or repairs one (R579). -/
  at_ : Nat := 0
  why : Nat := 0
  /-- The textblocks that it adds. -/
  tbs : List Nat := []
  /-- The service and the textblocks of the streams before it, which a rollback restores (R169). -/
  prevTbs : List Nat := []
  prevStreams : List (Nat × Nat) := []
deriving DecidableEq, Repr

/-- Weights that a variant load has put into leaves (R235, R237): the physical textblock, its logical number, its physical
quires in logical order, the byte ranges of a leaf that were written, the forme's digest with the bytes of its model area,
and the variant. Where the load puts which byte is open (log entry 14). -/
structure WLoad where
  t : Nat
  lt : Nat
  quires : List Nat
  rows : List (Nat × Nat)
  model : List Byte
  var : Nat
deriving DecidableEq, Repr

/-- The Press beside its registers (R149 to R242). -/
structure Prs where
  /-- Memory of the Press, one cell per byte written with another value than 0 (log entry 4). -/
  pmem : List Host.Cell := []
  /-- Weight SRAM and its scale bytes: the bytes that LOAD has written since the last variant load (R208, R235). -/
  wmem : Tab Nat := []
  /-- Variant loads of the leaves, newest first (R237). -/
  wloads : List WLoad := []
  /-- The CRC-16 of each column that LOAD has written, by the address of its leaf and the column (R153, R222). -/
  wcrc : Tab Nat := []
  slots : Tab Slot := []
  /-- Runs in progress, in order of rank and start (R231). -/
  runs : List Run := []
  /-- The result of a textblock for the press cycle in progress is discarded (R153, R173, R176). -/
  discard : Bool := false
  hier : Option HierChg := none
  /-- The inputs of the present press cycle (R145). -/
  inputs : Inputs := {}
  /-- A Press firmware step holds press cycles off (R552). -/
  fwStep : Bool := false
  /-- Q: a replacement quire is coming into service (R165): textblock, quire. -/
  quireRepl : Option (Nat × Nat) := none
  /-- Corrections of single bits: stack × 2^40 + row, with their times in ns (R172). -/
  ceRows : Tab (List Nat) := []
  /-- Rows spared and banks spared, by stack × 2^40 + bank: rows used, and bank copy in progress (R172); `bankBad`: spare
  rows that scrub has retired unused (R174). -/
  bankRows : Tab Nat := []
  bankBad : Tab Nat := []
  bankCopy : List (Nat × Nat) := []
  banksSpared : List (Nat × Nat) := []
  /-- Poisoned words, by stack × 2^36 + offset (R173). -/
  poison : List Nat := []
  /-- Barrier detector: the level of the last barrier abandoned, and for each unit named, by level × 2^16 + unit, the press cycles in a
  row in which it was, and the last of them (R159). -/
  barLevel : Nat := 0
  barNamed : Tab (Nat × Nat) := []
  /-- Spine errors of the press cycle, by port (R154). -/
  spine : Tab Nat := []
  /-- Stacks on which a fast scrub pass runs (R167, R177). -/
  fastScrub : List Nat := []
  /-- Cycles of the PROOF runs of the press cycle, by logical textblock (R242). -/
  proofCyc : List Nat := [0, 0, 0, 0]
  /-- The Press is capped at the i4 rate for the rest of an input excursion (R31). -/
  i4Cap : Bool := false
  /-- Spares that enter at the next press-cycle boundary (R170): kind of the map, the failed unit, the spare. -/
  spareIn : List (Nat × Nat × Nat) := []
  /-- The last result carried to the galley in the press cycle: slot, target, and its values before (R24, R154). -/
  lastEmit : Option (Nat × Nat × Option (List Int)) := none
  /-- The last transfer of a sort over the spine in the press cycle: for each row the ports it passed, its address, and its bytes before
  and after (R154). -/
  lastMove : List (List Nat × Nat × List Byte × List Byte) := []
  /-- Shelf time at which a change of the hierarchy last came into force (R236). -/
  hierEnd : Option Nat := none
  /-- Last leaf CRC reload: unit and time (R153). -/
  leafCrc : Tab Nat := []
  /-- The model store in flash (R70, R515): the model set last stored and the one before it, by slot: a forme whose data are
  its model bytes, and whether the slot is enabled. -/
  store : Tab (Forme × Bool) := []
  prevStore : Tab (Forme × Bool) := []
deriving DecidableEq, Repr

/-- A galley entry (R243 to R253), values at rack scale. -/
structure Entry where
  cyc : Nat := 0
  state : Nat := 0
  susp : Bool := false
  blind : Bool := false
  /-- The variant that its proof ran with (R495). -/
  var : Nat := 0
  cause : Nat := 0
  dev : Nat := 0
  /-- Older than a withdrawn entry (R253). -/
  barred : Bool := false
  /-- Targets 0 to 3 as emitted (R244). -/
  tgt : Tab (List Int) := []
  /-- Confirmation samples: offset in us, current in mA or none when invalid, newest first (R249). -/
  samples : List (Nat × Option Int) := []
  /-- A verdict taken that waits for its boundary (R248): confirmed or the cause of withdrawal. -/
  verdict : Option Nat := none
  judged : Bool := false
deriving DecidableEq, Repr

/-- A reference handed to Chase (R255 to R257): present value, whether a source drives it, whether it still moves by steps: back to
neutral without a source, or to a new source. -/
structure Ref where
  val : Int := 0
  src : Bool := false
  rb : Bool := false
  /-- A source has driven it before: a new one takes it over by steps (R257). -/
  ever : Bool := false
  /-- Its source is the plan in use (R255). -/
  plan : Bool := false
deriving DecidableEq, Repr

/-- A plan (R259 to R262): basis cycle, its 200 steps, its status block, whether its run has ended. -/
structure Plan where
  basis : Nat
  steps : List Int
  status : Nat
  /-- The press cycle in which its run ended, and the textblocks that made it (R153). -/
  cyc : Nat := 0
  tbs : List Nat := []
deriving DecidableEq, Repr

/-- The galley beside its registers (R243 to R271). -/
structure Gal where
  entries : List Entry := List.replicate 8 {}
  govP : Option Nat := none
  govI : Option Nat := none
  /-- Values emitted in the open cycle (R245). -/
  tgt : Tab (List Int) := []
  armD : Ref := {}
  delta : List Ref := [{}, {}, {}, {}]
  iplan : List Ref := [{}, {}, {}, {}]
  trim : Ref := {}
  grid : Ref := {}
  /-- The proof that the grid-draw target follows or rolls back from: its cycle and its state (R27). -/
  gridProof : Option (Nat × Nat) := none
  /-- Grid draw as measured when the target lost its source (R255). -/
  gridNeutral : Int := 0
  /-- What became of the basis of a plan run, by cycle: 0 not judged, else the state code it came to (R261). -/
  basis : Tab Nat := []
  /-- Ended plan runs whose basis is not yet judged: basis cycle and status; the statuses of the last ones whose basis was an
  imprint, newest first (R409). -/
  ended : List (Nat × Nat) := []
  imprintSt : List Nat := []
  /-- Hold of phases armed above the neutral demand, until this time (R256). -/
  holdUntil : Nat := 0
  planWait : List Plan := []
  plan : Option Plan := none
  planStale : Bool := false
  /-- Withdrawals since the last WITHDRAWALS entry: count, first cycle, greatest deviation, time of that entry (R270). -/
  wdN : Nat := 0
  wdFirst : Nat := 0
  wdMax : Nat := 0
  wdAt : Nat := 0
  /-- Press cycles without an entry in PROOF, the first of them, PROOF_GAP posted (R265). -/
  gap : Nat := 0
  gapFirst : Nat := 0
  /-- The same three as they stood before the last close: a missed transfer of the proof to Chase undoes it (R24). -/
  undo : Nat × Nat × Nat := (0, 0, 0)
  /-- Start-blind (R72): from reset until streams are bound and each holds 4.096 ms of stream time. -/
  startBlind : Bool := true
  /-- When the present blind code began (R270). -/
  blindAt : Nat := 0
  /-- Share to come into force at the next press-cycle boundary (R246). -/
  share : Nat := 0
deriving DecidableEq, Repr

/-- An entry of the score queue (R282): cycle, live targets 0 and 1, the candidate's target 0 when its run has ended. -/
structure Score where
  cyc : Nat
  live : List Int
  band : Option (List Int)
  cand : Option (List Int) := none
  sigma : Nat
  /-- The inputs of the shadowed cycle (R277). -/
  inputs : Inputs
  /-- Its shadow run has begun (R281). -/
  begun : Bool := false
deriving DecidableEq, Repr

/-- A capture in a half (R275, R276): cycle, share, generation, and for each textblock the record's offset and S. -/
structure CaptureR where
  cyc : Nat
  offs : List Nat
  ns : List Nat
deriving DecidableEq, Repr

/-- A promotion or a revert in progress (R286, R288): 1 promotion, 2 revert; its change; the ring that asked. -/
structure Promo where
  kind : Nat
  st : Staged
  reason : Nat
  auto : Bool
  /-- Copies ended at this time (R286). -/
  copied : Option Nat := none
  /-- A unit of the Press has been lost since the start: the promotion is rolled back (R286). -/
  hit : Bool := false
  /-- The standby has the bytes: at the standby, they have come; at the holder, the standby has confirmed them (R290). -/
  got : Bool := false
  oldDigest : Nat := 0
deriving DecidableEq, Repr

/-- The trainer beside its registers (R272 to R294). -/
structure Trn where
  /-- The training plan: SUBJ, STEP, SHAD, CAND, WORK, CLEN, PSRC, PDST, PLEN, PRIOR (R272). -/
  plan : List Nat := []
  /-- The captures of the two halves (R276). -/
  halves : List (List CaptureR) := [[], []]
  /-- The half that fills; closed halves wait for the next step boundary. -/
  filling : Nat := 0
  closed : Bool := false
  offer : Option Nat := none
  /-- Capture cycles waiting for T_k + 2,100 us (R274), with the share and generation at T_k. -/
  due : List (Nat × Nat × Nat) := []
  queue : List Score := []
  promo : Option Promo := none
  /-- The step run has ended in every textblock; its results are not yet copied (R278). -/
  stepDone : Bool := false
  /-- A step abandoned in a row (R289). -/
  aborts : Nat := 0
  /-- An abandoned step is to be run again with the same number and the same draw (R278). -/
  rerun : Bool := false
  /-- The end of a step came while steps were stopped: its results are copied when they resume (R285). -/
  endHeld : Bool := false
  /-- Cycles of TRAIN runs in the 1 ms window, by textblock; paused (R280). -/
  used : List Nat := [0, 0, 0, 0]
  /-- Withdrawn and judged live proofs of the scoring window, and of the last judged window (R288). -/
  wdWin : Nat := 0
  nWin : Nat := 0
  fPrior : Nat := 0
  /-- The same of the probation second, and seconds left. -/
  wdSec : Nat := 0
  nSec : Nat := 0
  probeLeft : Nat := 0
  /-- Why training sorts are deferred: 1 input power (R26), 2 input current (R31), 3 input low (R32), 4 junction (R54). -/
  defer : List Nat := []
  /-- W_l and W_c, not saturated (R282). -/
  wl : Nat := 0
  wc : Nat := 0
deriving DecidableEq, Repr

/-- A control loop beside its banks (R302 to R313). -/
structure LoopC where
  u : Int := 0
  x : Int := 0
  e : Int := 0
  isOpen : Bool := true
  act : Nat := 0
  sat : Bool := false
  hold : Bool := false
  /-- Its following error was latched in this period (R323). -/
  fe : Bool := false
  fecnt : Nat := 0
  /-- Periods open (R311). -/
  openFor : Nat := 0
  /-- The next period is the first after a reclose, with this u_f (R309). -/
  reclose : Option Int := none
  /-- Periods just ended in a row that did not set SAT and whose output lay within its limits (R310). -/
  clean : Nat := 0
deriving DecidableEq, Repr

/-- A record of a change list (R321). -/
structure ChgRec where
  type : Nat
  first : Nat
  value : Nat
  mask : Nat
  last : Nat
deriving DecidableEq, Repr

/-- What a record did, for its inverse (R324): the record, the loops it changed, the old value. -/
structure Undo where
  r : ChgRec
  loops : List Nat
  old : Nat
deriving DecidableEq, Repr

/-- A change list held by the device (R321 to R325). -/
structure ChgList where
  st : Staged
  check : Nat
  hold : Nat
  chkv : Nat
  steps : List (List ChgRec)
  /-- Steps imposed, periods the present step has held, periods lost by restarted holds (R323). -/
  done : Nat := 0
  held : Nat := 0
  restarted : Nat := 0
  /-- What has been applied, one entry a step, newest first; a rollback in progress with its outcome and failure (R324). -/
  undo : List (List Undo) := []
  back : Option (Nat × Nat) := none
deriving DecidableEq, Repr

/-- A phase beside its registers (R346 to R358). Currents in mA, times in ns. -/
structure Phase where
  /-- A sample of this period has come; current as sampled, and as used (corrected, or estimated), none when missing. -/
  got : Bool := false
  raw : Int := 0
  cur : Option Int := none
  drv : Bool := false
  sflt : Bool := false
  ot : Bool := false
  gon : Bool := false
  mode : Nat := 0
  /-- When the state was entered; no shed before (R350). -/
  since : Nat := 0
  noShed : Nat := 0
  /-- Service time below a millisecond (STL_PRUN). -/
  runNs : Nat := 0
  /-- Residual r_j of the period (R356), and consecutive periods of each finding. -/
  res : Option Int := none
  nOpen : Nat := 0
  nSense : Nat := 0
  /-- Under estimate since (R357). -/
  estAt : Option Nat := none
  /-- It is to be shed as soon as it may be: its spare is in RUN (R357), or its role is SPARE (R333). -/
  leaving : Bool := false
  /-- Spare in use (R358): step 0 none, 1 wake, 2 calibration, 3 run at 0, 4 factor ramp; samples so far and their sum; a step
  failed; the phase it replaces and when that one failed. -/
  job : Nat := 0
  jobN : Nat := 0
  jobSum : Int := 0
  jobBad : Bool := false
  jobFor : Nat := 0
  jobAt : Nat := 0
  /-- It is armed at the next boundary (R348); its shed begins there (R349). -/
  arm : Bool := false
  shedNext : Bool := false
  /-- CLRTRIP is to be sent (R359). -/
  clr : Bool := false
  /-- The overload filters, the clamp, and the last current taken (R355). -/
  th : List Int := [0, 0, 0]
  clamp : Option Nat := none
  lastI : Int := 0
  /-- Duty and mode of the last DUTY (R316, R353). -/
  duty : Nat := 0
  sent : Nat := 0
deriving DecidableEq, Repr

/-- A stage link beside its registers (R334 to R345). -/
structure Link where
  /-- Good frames in a row while it trains, missed ones while up. -/
  good : Nat := 0
  miss : Nat := 0
  /-- A good SAMPLE of this period has come; its board current and voltage (R339). -/
  got : Bool := false
  ibrd : Int := 0
  vbus : Nat := 0
  temp : Int := 0
  cack : Nat := 0
  training : Bool := false
  /-- When training is next tried (R344). -/
  retry : Nat := 0
  /-- The board has reported its epoch (R343). -/
  seen : Bool := false
  /-- Configuration addresses still to send, tries of the first, its last send awaits an answer, those shown (R340). -/
  cfg : List Nat := []
  tries : Nat := 0
  sent : Bool := false
  shown : List Nat := []
deriving DecidableEq, Repr

/-- A converter item of the overload limit (R355): filters, clamp, last current. -/
structure Conv where
  th : List Int := [0, 0, 0]
  clamp : Option Nat := none
  lastI : Int := 0
  /-- Its group detector's overload condition holds. -/
  hot : Bool := false
deriving DecidableEq, Repr

/-- The ramp limiter, breaches and the derate plan beside their registers (R388 to R396). -/
structure Rmp where
  /-- y in uW (R389). -/
  y : Int := 0
  /-- The unmet bus demand of the last law (R394), and whether a string limit of rank 1 clamped a reference in it (R455). -/
  unmet : Int := 0
  limHit : Bool := false
  /-- The limiter loads y before it steps again (R392, R393). -/
  reload : Bool := true
  /-- A breach of rank 3 in progress: begun, last breach period, governing rank, greatest change of y in uW (R395). -/
  brAt : Option Nat := none
  brLast : Nat := 0
  brRank : Nat := 2
  brMax : Nat := 0
  brN : Nat := 0
  /-- The proof that y follows or still comes from, and the one that it followed in the breach, or in the excursion: its cycle and its
  state then (R27). -/
  yProof : Option (Nat × Nat) := none
  brProof : Option (Nat × Nat) := none
  exProof : Option (Nat × Nat) := none
  /-- A window excursion under rank 1 in progress: begun, last period, greatest change of y, periods (R395). -/
  exAt : Option Nat := none
  exLast : Nat := 0
  exMax : Nat := 0
  exN : Nat := 0
  /-- It began in the output gap of a takeover and has not come back inside yet (R602). -/
  exGap : Bool := false
  /-- W by which the derate cap fell at its last step of 1 ms (R391). -/
  capRate : Nat := 0
  /-- The derate factor F, its target, and the plan: F_0 and when it started (R396). -/
  f : Nat := 65536
  target : Nat := 65536
  f0 : Nat := 65536
  start : Option Nat := none
  /-- Periods the up step has clamped y without a break began at (R409). -/
  upAt : Option Nat := none
deriving DecidableEq, Repr

/-- Chase and the stage links beside their registers (R295 to R361). -/
structure Chs where
  loops : Tab LoopC := []
  lists : List ChgList := []
  phases : Tab Phase := []
  links : Tab Link := []
  /-- Converters: 0 grid, s + 1 string s (R355). -/
  convs : Tab Conv := []
  rmp : Rmp := {}
  /-- V_bus of the two periods before, none when invalid (R299, R314); of this one; invalid periods in a row. -/
  v0 : Option Nat := none
  v1 : Option Nat := none
  v2 : Option Nat := none
  vBad : Nat := 0
  /-- I_out of this period and of the one before, none when invalid. -/
  iNow : Option Int := none
  iPrev : Option Int := none
  /-- Last valid I_out (R255), and I_out by time for the last 4.2 ms, newest first (R259, R264). -/
  iLast : Int := 0
  iHist : List (Nat × Int) := []
  /-- Group currents of the period: grid, strings 0 to 3, none when invalid (R299). -/
  igrp : List (Option Int) := [none, none, none, none, none]
  /-- References r_s of the last law, after their clamp (R305). -/
  rs : List Int := [0, 0, 0, 0]
  /-- Periods of the plain law without overrun (R318). -/
  plainOk : Nat := 0
  /-- The law falls to plain at the next boundary: reason (R316). -/
  lawDue : Option Nat := none
  /-- The law of this period overran (R316). -/
  overran : Bool := false
  /-- Setpoint of the bus loop in mV, none until V_bus is measured (R304, R328). -/
  setMv : Option Nat := none
  /-- The arming order of R328: 0 not begun, 1 grid set, 2 storage, 3 done; phases that wait their turn; no imprint yet. -/
  order : Nat := 0
  turn : List Nat := []
  waitImp : Bool := false
  /-- V_bus within the window since (R315); over-voltage hold (R314); the window governs (R394). -/
  winSince : Option Nat := none
  ovp : Bool := false
  govern : Bool := false
  /-- Burst: periods of DUTY so far, lowest V_bus, reason, it ends at the next boundary; periods since the last one ended
  (R352, R353, R601). -/
  burstN : Nat := 0
  burstLow : Nat := 0
  burstWhy : Nat := 0
  burstOver : Bool := false
  burstAgo : Nat := 2
  /-- Groups whose shed is aborted at the next boundary (R350). -/
  abort : List Nat := []
  /-- Excess of RUN phases by group: since (R349). -/
  excess : Tab Nat := []
  /-- Groups held WARM (R354); times of the trips of a group (R354). -/
  heldGrp : List Nat := []
  trips : Tab (List Nat) := []
  /-- Removals at the next boundary (R356): phase and cause. -/
  gone : List (Nat × Nat) := []
  /-- RING[s] clear while phases of the string are armed, since (R427). -/
  ringLoss : Tab Nat := []
  /-- Token epoch (R343); the output gap of a takeover (R602). -/
  epoch : Nat := 0
  gap : Bool := false
  /-- The token was taken from WAIT: no phase is armed before its board has shown its configuration (R340). -/
  cfgGate : Bool := false
  /-- The link that SELECT has named while link 39 trains for it (R345). -/
  selTo : Option Nat := none
  /-- Loops reclosed by R311, and objectives of rank 4 and 5 that yielded (R6): the counts that the rules ask for without a register. -/
  autoN : Nat := 0
  yields : Nat := 0
deriving DecidableEq, Repr

/-- A register write that waits for the point its chapter states (R603): field, value, point. -/
structure PendW where
  fld : Nat
  value : Nat
  point : Point
deriving DecidableEq, Repr

/-- A frame of the Fennal carrier that waits to be sent (R368, R374): its SEQ once sent, repeats so far, CW and back-off. -/
structure FenTx where
  typ : Nat
  pri : Nat
  dst : Nat
  payload : List Byte
  seq : Option Nat := none
  tries : Nat := 0
  cw : Nat := 0
  /-- Idle slots still to pass, as drawn or as left when it last froze, and since when they count (R374). -/
  count : Nat := 0
  since : Nat := 0
deriving DecidableEq, Repr

/-- The Fennal carrier beside its registers (R362 to R383). Times in ns of shelf time; a tone set is a 256-bit number. -/
structure Fen where
  /-- SEQ of the next frame, none before the first since the start (R377). -/
  seq : Option Nat := none
  /-- Last accepted SEQ and CRC, by key slot × 16 + source rank. -/
  last : Tab (Nat × Nat) := []
  queue : List FenTx := []
  /-- A unicast frame that waits for its ACK (R371). -/
  flight : Option FenTx := none
  /-- The medium is busy, by a preamble or by energy; since when the energy has stayed below the level; since when it is idle; end of
  the station's own transmission (R372). -/
  busy : Bool := false
  low : Option Nat := none
  idleAt : Nat := 0
  txEnd : Nat := 0
  /-- The beacon of this number waits for the medium (R380). -/
  bWait : Option Nat := none
  /-- Frames of strangers within the last second, and the last STRANGERS (R379). -/
  strangers : List Nat := []
  strAt : Option Nat := none
  /-- Beacon instants since the leader's last beacon, and since any authenticated beacon (R383, R397). -/
  miss : Nat := 0
  missAny : Nat := 0
  /-- Beacons in a row within 2,000 ns, and beyond 50,000 ns (R383). -/
  near : Nat := 0
  far : Nat := 0
  /-- The last update of the offset (R382). -/
  upd : Nat := 0
  /-- End of the last beacon, sent or heard, and its number (R375). -/
  bEnd : Nat := 0
  bNum : Option Nat := none
  /-- The pending mask: its effective beacon number, its tones (R365); when the leader last announced one. -/
  pend : Option (Nat × Nat) := none
  maskAt : Option Nat := none
  /-- The latest TONE_REPORT of each rank: time and classes, 2 bits a tone (R366). -/
  tones : Tab (Nat × Nat) := []
  /-- The tones erased, from each time on, the newest first (R367). -/
  erase : List (Nat × Nat) := []
deriving DecidableEq, Repr

/-- A ramp contract as a beacon carries it (R399). -/
structure Contract where
  cnum : Nat
  eff : Nat
  vals : List Nat
  share : List Nat
  digest : Nat
  cver : Nat
  flags : Nat := 0
deriving DecidableEq, Repr

/-- A pace notice that this station has posted (R411): the ring entries, whether it was acknowledged or found undeliverable. -/
structure Notice where
  num : Nat
  action : Nat
  time : Nat
  entries : List (Nat × Nat) := []
  acked : Bool := false
  lost : Bool := false
deriving DecidableEq, Repr

/-- The rack group beside its registers (R397 to R411). -/
structure Grp where
  /-- Rack values in force: UP, DOWN, PMIN, PMAX; none while the station uses its own configured values. -/
  rack : Option (List Nat) := none
  /-- The contract last announced, and the one in force (R399, R403). -/
  heard : Option Contract := none
  inForce : Option Contract := none
  /-- The contract in force has lapsed (R403). -/
  lapsed : Bool := false
  /-- Highest CNUM and notice number seen. -/
  cnumMax : Nat := 0
  noticeMax : Nat := 0
  /-- The latest REPORT of each rank: time and payload (R400). -/
  reports : Tab (Nat × List Byte) := []
  /-- The LEAVE of each position since its last REPORT: reason and rank (R401). -/
  leaves : Tab (Nat × Nat) := []
  /-- The grid draw last reported by each position (R406). -/
  draws : Tab Nat := []
  /-- Time of the last frame of each position (R402), and when this station began to listen. -/
  frames : Tab Nat := []
  since : Nat := 0
  /-- When a configuration digest last differed (R404). -/
  differs : Option Nat := none
  /-- When the rack action became 0; a release is owed (R410). -/
  zeroAt : Option Nat := none
  owed : Bool := false
  notices : List Notice := []
deriving DecidableEq, Repr

/-- A cell (R424, R432, R452). Voltages of the model in uV, z in fine units, times in ns. -/
structure CellX where
  /-- Fine reading, 100 uV (derived for DERIV), its flags, its SNAP (BUP_CELL). -/
  v : Nat := 0xFFFF
  valid : Bool := false
  taint : Bool := false
  wire : Bool := false
  deriv : Bool := false
  impl : Bool := false
  noisy : Bool := false
  snap : Nat := 0
  /-- The latest reading as given to the estimator, in uV, whether at full weight, whether coarse only. -/
  uv : Nat := 0
  full : Bool := false
  coarse : Bool := false
  /-- The estimator has started for it; SoC, v1, v2, compensated voltage, the SoC of the last reading alone. -/
  on : Bool := false
  z : Int := 0
  v1 : Int := 0
  v2 : Int := 0
  u : Int := 0
  zi : Int := 0
  /-- Time of its last usable reading. -/
  time : Nat := 0
  /-- Fine reading of the last SNAP that was not an OW SNAP (R436, R437). -/
  prev : Option Nat := none
  /-- Its reading in the last SNAP before a rest's ramp, at full weight, uV (R464). -/
  pre : Option Nat := none
deriving DecidableEq, Repr

/-- A ring node (R416, R424). -/
structure NodeX where
  cells : List CellX := List.replicate 16 {}
  fw : Nat := 0
  serial : Nat := 0
  idCode : Nat := 0xFF
  therm : Nat := 0
  /-- Thermistors 0 and 1 as last read (R424), none before the first record. -/
  temp : List Nat := []
  sum : Nat := 0x3FF
  balon : Nat := 0
  /-- COLLECT frames in a row that named it and brought no record (R427). -/
  miss : Nat := 0
  lost : Bool := false
  /-- SNAPs in a row on which the fine and coarse sums differed, or agreed while faulty; the fine path is faulty (R433). -/
  differ : Nat := 0
  agree : Nat := 0
  fault : Bool := false
  /-- An end node of split service (R426). -/
  isEnd : Bool := false
  /-- Lowest and highest fine reading of its last MINMAX record (R424). -/
  minmax : Option (Nat × Nat) := none
deriving DecidableEq, Repr

/-- A SNAP that has been sent (R429 to R431): its id, sample instant, wire set, whether the instant is a valley, the string
current (mA) and V_bus (mV) of the period that held the instant, and whether it came out NOISY. -/
structure SnapX where
  id : Nat
  at_ : Nat
  ow : Nat
  valley : Bool
  cur : Option (Option Int × Nat) := none
  noisy : Bool := false
  /-- The edge-free half-width by the duties in force before its instant, ns (R429). -/
  before : Nat := 5000
deriving DecidableEq, Repr

/-- A Bupilin ring beside its registers (R416 to R440). -/
structure BRing where
  nodes : Tab NodeX := []
  /-- Enumeration: 0 none, 1 assigning from BUP_OUT, 2 from BUP_RET, 3 checking; the number being assigned (R425). -/
  enum : Nat := 0
  num : Nat := 0
  /-- The last 16 SNAPs, newest first. -/
  snaps : List SnapX := []
  /-- The next SNAP comes no earlier than this (R431). -/
  next : Nat := 0
  /-- First node of the next COLLECT in FAST, and the SNAP that the present full set names. -/
  turn : Nat := 1
  setId : Nat := 0
  /-- FAST: in force for the last SNAP, and announced by it; forced until; held until (R431). -/
  fast : Bool := false
  announced : Bool := false
  force : Nat := 0
  hold : Nat := 0
  /-- Wire set of the next SNAP, announced by the last (R436); sets asked for; the set of the last periodic test. -/
  owNext : Nat := 0
  owAsk : List Nat := []
  owLast : Nat := 2
  /-- Suspect and open wires: node × 32 + wire; clean tests in a row of an open one (R436, R437). -/
  suspect : List Nat := []
  openW : Tab Nat := []
  /-- Group in force last alternated to: 1 odd, 2 even; the spread calls for balancing (R435). -/
  group : Nat := 1
  balance : Bool := false
  /-- CFG values still to confirm, sends of the first, nodes not yet confirmed (R423, R438). -/
  cfg : List Nat := []
  tries : Nat := 0
  missing : List Nat := []
  /-- A break is being located since this time (R426). -/
  echo : Option Nat := none
  /-- When a failed enumeration is tried again (R73). -/
  retry : Option Nat := none
  /-- An enumeration has succeeded and its identity is read; the first full set of readings has been judged (R73). -/
  idRead : Bool := false
  judged : Bool := false
  /-- Nodes whose readings of the present full set have come (R431). -/
  seen : List Nat := []
deriving DecidableEq, Repr

/-- A string in the estimator beside its registers (R445 to R464). Currents in mA, SoC in fine units, times in ns. -/
structure StrX where
  /-- S and S_rep; the string has had its first estimate since the start of the estimator. -/
  soc : Int := 0
  rep : Int := 0
  on : Bool := false
  /-- Charge since the last reference in mA ns, S at that reference (R463); discharged charge not yet in the cycle count. -/
  q : Int := 0
  ref : Int := 0
  disc : Nat := 0
  /-- Limits after steps 1 to 4 of R455, in mA at the bus. -/
  ld : Nat := 0
  lc : Nat := 0
  /-- V_str in mV. -/
  volt : Nat := 0
  umin : Int := 0
  umax : Int := 0
  /-- EST_LIMIT kinds in force (R455). -/
  kinds : List Nat := []
  /-- A rest (R460): 0 none, 1 ramping down and testing, 2 the rest clock runs, 3 ramping up; since; passing SNAPs in a row;
  the current before the ramp. -/
  rest : Nat := 0
  since : Nat := 0
  pass : Nat := 0
  pre : Int := 0
  /-- R0 is to be learned from the readings of this SNAP (R464). -/
  learn : Option Nat := none
  /-- Time of the last completed rest; the rest clamp holds until a rest completes (R459). -/
  last : Option Nat := none
  held : Bool := false
  /-- Deferred since, REST_DEFERRED posted, not tried before (R462). -/
  defer : Option Nat := none
  told : Bool := false
  tryAt : Nat := 0
deriving DecidableEq, Repr

/-- An impedance table (R450): temperature points, 88 entries of R0, R1, tau1, R2, tau2. -/
structure ImpTab where
  temps : List Int
  ent : List (List Nat)
deriving DecidableEq, Repr

/-- The SoC table (R449): temperature points, rate points, 528 voltages in 100 uV. -/
structure SocTab where
  temps : List Int
  rates : List Int
  volts : List Nat
deriving DecidableEq, Repr

/-- A string record (R458); its table none while it is the default one as made. -/
structure StrRec where
  idCode : Nat := 0
  pos : Nat := 0xFF
  therm : Nat := 0
  serial : Nat := 0
  cycles : Nat := 0
  cap : Nat := 10000
  seen : Nat := 0
  learned : Nat := 0
  table : Option ImpTab := none
deriving DecidableEq, Repr

/-- The Bupilin rings and the estimator. -/
structure Bup where
  rings : Tab BRing := []
  strs : Tab StrX := []
  /-- 1 ms ticks since the last RAW entries (R457). -/
  tick : Nat := 0
deriving DecidableEq, Repr

/-- What the settings store holds for the estimator (R449, R450, R458): the tables, none as delivered, and the 8 records. -/
structure EstNv where
  soc : Option SocTab := none
  imp : Option ImpTab := none
  recs : List StrRec := List.replicate 8 {}
deriving DecidableEq, Repr

/-- The heartbeat of the peer (R494), as last taken. -/
structure PeerHb where
  /-- FLAGS of the frame: ELIG and TOKEN (R490). -/
  token : Bool := false
  stage : Nat := 0
  /-- Byte 9 of the payload. -/
  flags : Nat := 0
  epoch : Nat := 0
  chg : Nat := 0
  lastCp : Nat := 0
  /-- It reports the same SEAT (R40). -/
  sameSeat : Bool := false
deriving DecidableEq, Repr

/-- A planned handover that waits for its boundary (R509): kind, H in this seat's own count, whether this seat gives the
token, its change. -/
structure Hand where
  kind : Nat
  at_ : Nat
  gives : Bool
  st : Option Staged := none
deriving DecidableEq, Repr

/-- A proving run (R511): when it began, its length in s, whether this seat is the prover, the first detector raised. -/
structure Prove where
  start : Nat
  len : Nat
  prover : Bool
  first : Nat := 0xFFFF
  /-- Duty mismatches in a row at the original seat. -/
  miss : Nat := 0
deriving DecidableEq, Repr

/-- The seats and the Roscor link beside their registers (R488 to R514). -/
structure Ros where
  /-- The peer's last heartbeat, none before the first since the start. -/
  hb : Option PeerHb := none
  /-- An HB frame with ELIG set came in this period; when each path last was not silent; silent periods in a row (R502). -/
  got : Bool := false
  rLast : Nat := 0
  bLast : Nat := 0
  rRun : Nat := 0
  bRun : Nat := 0
  /-- Frames sent since the reset (R490), and bad ones received in this period (R489). -/
  sent : Nat := 0
  bad : Nat := 0
  /-- Consecutive HB frames with the phase error within 20 ns (R496). -/
  lockRun : Nat := 0
  /-- The last change number imposed here (R488), and the holder's numbers that wait for their segments (R501). -/
  imposed : Nat := 0
  /-- The newest complete copies: period in the holder's count and payload, newest first, at most two (R493). -/
  copies : List (Nat × List Byte) := []
  /-- The STATE of this period came whole; periods in a row with one (R488). -/
  copyGot : Bool := false
  copyRun : Nat := 0
  /-- Own and received duty digests by the holder's period, newest first, until compared (R499). -/
  own : List (Nat × Nat) := []
  held : List (Nat × Nat) := []
  dMiss : Nat := 0
  dGood : Nat := 0
  /-- Duty digest of the outputs last latched here (R499). -/
  duty : Nat := 0
  /-- Proof digests in a row that differ, and that agree (R500). -/
  pMiss : Nat := 0
  pGood : Nat := 0
  /-- No proof of these press cycles is compared: up to this one (R117, R146, R290, R500). -/
  exclTo : Nat := 0
  /-- The standby waits for the holder's model set, which it takes under R71 (R290). -/
  modelAsk : Bool := false
  /-- The peer reports another position (R67): open, for no frame carries it; drawn when ROSCOR becomes set. -/
  posBad : Bool := false
  /-- A PCYC sequence of this cycle is incomplete: cycle and entries so far; the cut indices in use (R495). -/
  pcyc : Option (Nat × List (Nat × Nat × Nat)) := none
  cuts : List (Nat × Nat) := []
  cutCyc : Option Nat := none
  /-- A TAKEOVER of kind 1 is usable (R503). -/
  asked : Bool := false
  hand : Option Hand := none
  prove : Option Prove := none
  /-- The seat returns the token by a handover of kind 5 as soon as it may (R511). -/
  back : Bool := false
  /-- Periods in a row of the majority rule (R506). -/
  obey : Nat := 0
  /-- Health report (R512). -/
  tested : Nat := 0
  loopBad : Nat := 0
  laneBad : Nat := 0
  noCopy : Nat := 0
  provedAt : Nat := 0
  provedOut : Nat := 0
  ddTotal : Nat := 0
  pdTotal : Nat := 0
  /-- BULK in progress: kind and bytes so far (R491). -/
  bulk : Option (Nat × List Byte) := none
  /-- A checkpoint or a model set received whole: kind and bytes. -/
  stored : List (Nat × List Byte) := []
  /-- Image types whose push this standby has refused for a lock: the holder is asked again once it has ended (R546). -/
  push : List Nat := []
deriving DecidableEq, Repr

/-- An image slot (R540, R541): state code, the 512-byte header and the body. -/
structure ImgSlot where
  st : Nat := 0
  hdr : List Byte := []
  body : List Byte := []
deriving DecidableEq, Repr

/-- Who holds a slot's lock (R545): a CMD ring, the Roscor peer or Flyleaf. -/
inductive ImgSrc | ring (r : Nat) | peer | flyleaf
deriving DecidableEq, Repr

/-- A session on the inactive slot of a type (R545, R546): its number, source, header, body so far, time of the last write. -/
structure Session where
  no : Nat
  src : ImgSrc
  hdr : List Byte
  body : List Byte := []
  last : Nat
deriving DecidableEq, Repr

/-- A step of a plan (R550, R553): image type, whether the peer's seat runs it, slot and version before and after, state
0 PENDING, 1 RUNNING, 2 CONFIRMED, 3 UNDONE, attempts. Type 0 is the planned handover between the parts. -/
structure PlanStep where
  type : Nat
  peer : Bool := false
  prior : Nat := 0
  slot : Nat := 0
  oldVer : Nat := 0
  newVer : Nat := 0
  st : Nat := 0
  tries : Nat := 0
  /-- Shelf time at its reset; the period at which a bundle is imposed. -/
  at_ : Nat := 0
  due : Nat := 0
deriving DecidableEq, Repr

/-- An update plan (R550 to R555): its number, its change, its steps, force flag, whether it rolls back, the soak's start,
the prior settings image (R556), and the type whose step failed. -/
structure UPlan where
  no : Nat
  st : Staged
  steps : List PlanStep
  force : Bool := false
  rolling : Bool := false
  soak : Option Nat := none
  settings : Tab Nat := []
  sects : List Nat := []
  failed : Nat := 0
  /-- Changes imposed while the plan is open, which a rollback discards (R555). -/
  during : List Staged := []
  /-- The stage before the step of management or Errata. -/
  stage : Nat := 0
deriving DecidableEq, Repr

/-- The push of ring-node firmware to a ring (R548): 1 writing, 2 checking, 3 swapping; nodes still to report; the node
being swapped; its IMGSWAPs. -/
structure Push where
  step : Nat
  left : List Nat := []
  node : Nat := 0
  tries : Nat := 0
  ver : Nat := 0
  /-- Bytes of the body sent; when the last node was swapped. -/
  pos : Nat := 0
  at_ : Nat := 0
deriving DecidableEq, Repr

/-- The UPD block beside its registers (R540 to R562) and the Flyleaf registers (R557). -/
structure Upd where
  /-- Slots by type × 2 + slot; an absent one is as delivered: slot A active, slot B empty. -/
  slots : Tab ImgSlot := []
  sess : Tab Session := []
  nextSess : Nat := 1
  /-- Sessions whose lock expired (R546). -/
  expired : List Nat := []
  plan : Option UPlan := none
  nextPlan : Nat := 1
  /-- Version floor by type (R549). -/
  floors : Tab Nat := []
  push : Tab Push := []
  /-- Layout versions of the sections of the settings store, types 1 to 4 (R556). -/
  sects : List Nat := [0, 0, 0, 0]
  /-- FLY_STAT, FLY_LEN, FLY_VSEL and the entry condition of FLY_ID. -/
  flyStat : Nat := 0
  flyLen : Nat := 0
  flyVsel : Nat := 0
deriving DecidableEq, Repr

/-- The sort tagging of a textblock (R568): the LFSR, none before its first load, the countdown, tags so far. -/
structure Tag where
  lfsr : Nat := 0
  left : Nat := 0
  no : Nat := 0
deriving DecidableEq, Repr

/-- The performance counters beside their registers (R563 to R572). -/
structure Prf where
  tags : Tab Tag := []
  /-- Writes to PRF_CTL and PRF_SEL since reset (R570). -/
  writes : Nat := 0
  /-- The half of a counter that waits for its CNT_HI: set × 8 + counter (R565). -/
  lo : Tab Nat := []
  /-- PRF_SNAPSHOT and PRF_ZERO that wait for the boundary: opcode, ring, descriptor (R567). -/
  waiting : List (Nat × Nat × Desc) := []
deriving DecidableEq, Repr

/-- The whole state of the module. -/
structure State where
  /-- Register fields in force, by the keys of Machine/Regs.lean; an absent field holds its reset value. -/
  regs : Tab Nat
  /-- The settings store (store 0, R515): values loaded into NVM fields at reset (R10). -/
  nvm : Tab Nat
  /-- Register writes waiting for their point (R603), oldest first. -/
  pendW : List PendW
  /-- The next change number of the device (R320). -/
  chgNext : Nat
  /-- Staged changes not yet imposed, oldest first (R110, R320). -/
  staged : List Staged
  nv : Nv
  glb : Glb
  watch : Watch
  hst : Hst
  rings : Tab RingX
  era : Era
  col : Col
  spr : Spr
  ing : Ing
  prs : Prs
  gal : Gal
  trn : Trn
  chs : Chs
  bup : Bup
  est : EstNv
  fen : Fen
  grp : Grp
  ros : Ros
  upd : Upd
  prf : Prf
  /-- The model's own counter of free values (log entry 8). -/
  free : Nat
  /-- The model's own record of what the module has sent (log entry 9), oldest first. -/
  out : List Output
  /-- Commands waiting, first in first out. -/
  pending : List Instr
deriving DecidableEq, Repr

/-- The machine right after reset: power applied to nothing yet, every register at the value the manual gives. -/
def State.reset : State where
  regs := []
  nvm := []
  pendW := []
  chgNext := 1
  staged := []
  nv := {}
  glb := {}
  watch := {}
  hst := {}
  rings := []
  era := {}
  col := {}
  spr := {}
  ing := {}
  prs := {}
  gal := {}
  trn := {}
  chs := {}
  bup := {}
  est := {}
  fen := {}
  grp := {}
  ros := {}
  upd := {}
  prf := {}
  free := 0
  out := []
  pending := []

end Sys2Proof.Machine
end

