-- ==== Sys2Proof/Machine/Ops.lean ====
section
/-!
DEFINITION. The named operations that every command is written with: register fields, outputs, change log and slugs,
ring entries, events, completions.
-/
namespace Sys2Proof.Machine

/-! ## Register fields -/

/-- The value in force of a register field (R8). -/
def State.get (s : State) (f : Fld) : Nat := Tab.get s.regs f.key f.reset

/-- The value in force of a field that holds a signed number. -/
def State.getS (s : State) (f : Fld) : Int := toS f.width (s.get f)

/-- Sets a field, modulo its width. -/
def State.set (s : State) (f : Fld) (v : Nat) : State := { s with regs := Tab.put s.regs f.key (v % 2 ^ f.width) }

/-- Sets a field to a signed number, modulo its width. -/
def State.setS (s : State) (f : Fld) (z : Int) : State := s.set f (ofS f.width z)

/-- Sets a one-bit field. -/
def State.setB (s : State) (f : Fld) (b : Bool) : State := s.set f (b2n b)

/-- A one-bit field as a truth value. -/
def State.on (s : State) (f : Fld) : Bool := s.get f ≠ 0

/-- Adds to a counter that stops at its greatest value. -/
def State.add (s : State) (f : Fld) (n : Nat) : State := s.set f (satU f.width (s.get f + n))

/-- Counts one in a counter that stops at its greatest value. -/
def State.bump (s : State) (f : Fld) : State := s.add f 1

/-- The block of BAR0 (R587) that a field key belongs to. -/
def keyBlock (k : Nat) : Nat := k / 32 % 0x100000 / 0x10000

/-- The settings of the store whose key `p` holds of, put into the register file: the load of NVM fields (R10). -/
def loadNvm (p : Nat → Bool) (nvm regs : Tab Nat) : Tab Nat :=
  nvm.foldl (fun t e => if p e.1 then Tab.put t e.1 e.2 else t) regs

/-- Sets a field that the settings store holds (R515): the value survives a reset. -/
def State.setNv (s : State) (f : Fld) (v : Nat) : State :=
  let s := s.set f v
  { s with nvm := Tab.put s.nvm f.key (v % 2 ^ f.width) }

/-- Every field whose key `p` holds of returns to its reset value; NVM fields take the value of the settings store. -/
def State.resetFields (s : State) (p : Nat → Bool) : State :=
  { s with regs := loadNvm p s.nvm (Tab.drop s.regs p) }

/-- Every field of a block returns to its reset value. -/
def State.resetBlock (s : State) (b : Nat) : State := s.resetFields (fun k => keyBlock k == b)

/-- A register write that takes effect at a later point (R603). -/
def State.later (s : State) (f : Fld) (v : Nat) (p : Point) : State :=
  { s with pendW := s.pendW ++ [{ fld := f.key, value := v % 2 ^ f.width, point := p }] }

/-- The deferred writes of a point take effect, in the order written (R603). -/
def State.applyW (s : State) (p : Point) : State :=
  { s with
    regs := s.pendW.foldl (fun t w => if w.point = p then Tab.put t w.fld w.value else t) s.regs
    pendW := s.pendW.filter (fun w => w.point ≠ p) }

/-! ## Free values and outputs -/

/-- The next value that the manual leaves open (log entry 8), and the state after taking it. -/
def State.draw (s : State) : Nat × State := (Config.freeValue s.free, { s with free := s.free + 1 })

/-- The module sends something. -/
def State.emit (s : State) (o : Output) : State := { s with out := s.out ++ [o] }

/-- A frame of the Roscor link (R490): header, payload and CRC-32. -/
def rosBytes (type flags seq pnum : Nat) (p : List Byte) : List Byte :=
  let b := le 1 type ++ le 1 flags ++ le 2 p.length ++ le 4 seq ++ le 8 pnum ++ p
  b ++ le 4 (crc32 b)

/-- A frame goes out on the Roscor link, where it is up: with this seat, ELIG and TOKEN in its FLAGS, and the next SEQ (R490). -/
def State.rosOut (s : State) (type : Nat) (p : List Byte) : State :=
  if !s.on Reg.ROS_STAT_UP then s
  else
    let f := s.get Reg.GLB_SEAT_SEAT + 2 + 4 * s.get Reg.CHS_STAT_TOKEN
    ({ s with ros := { s.ros with sent := s.ros.sent + 1 } } : State).emit
      (.roscor type (rosBytes type f s.ros.sent (s.get Reg.CHS_PNUM) p))

/-! ## Performance counters (R563 to R566) -/

/-- The counters of a set (R563). -/
def setCounters (n : Nat) : Nat := if n < 4 then 8 else 4

/-- A counter passes from `v` by `k`: it wraps to 0 and sets its sticky bit (R564). -/
def State.countTo (s : State) (n c v : Nat) : State :=
  let s := s.set (Reg.PRF_CNT n c) v
  if 2 ^ 48 ≤ v then s.set (Reg.PRF_OVF_CNT n) (s.get (Reg.PRF_OVF_CNT n) ||| 2 ^ c) else s

/-- Counter `c` of set `n` counts event `ev` of a run of kind `kind` (R565, R566). -/
def State.counts (s : State) (n c ev kind : Nat) : Bool :=
  let m := s.get (Reg.PRF_SEL_KMASK n c)
  s.on (Reg.PRF_SEL_EN n c) && s.get (Reg.PRF_SEL_EVENT n c) == ev &&
    (4 ≤ n || !(decide (ev ≤ 7) || decide (12 ≤ ev ∧ ev ≤ 14)) || m == 0 || bit m kind)

/-- `k` occurrences of event `ev` in the island of set `n`, for a run of kind `kind` where that matters: every counter
that selects it counts them, unless the counters are frozen (R565). -/
def State.count (s : State) (n ev k : Nat) (kind : Nat := 0) : State :=
  if s.on Reg.PRF_CTL_FRZ then s
  else (List.range (setCounters n)).foldl (fun s c =>
    if s.counts n c ev kind then s.countTo n c (s.get (Reg.PRF_CNT n c) + k) else s) s

/-- A counter of set `n` that counts selects event `ev`. -/
def State.counting (s : State) (n ev : Nat) : Bool :=
  (List.range (setCounters n)).any fun c => s.get (Reg.PRF_SEL_EVENT n c) == ev && s.on (Reg.PRF_SEL_EN n c)

/-! ## Time, role and seat -/

/-- Shelf time in ns (R295). -/
def State.time (s : State) : Nat := s.get Reg.CHS_TIME

/-- The stage of R60. -/
def State.stage (s : State) : Nat := s.get Reg.GLB_BOOTSTAT_STAGE

/-- This seat is the standby (R116): stage STANDBY. -/
def State.standby (s : State) : Bool := s.stage = 7

/-- This seat holds the seat token. -/
def State.token (s : State) : Bool := s.on Reg.CHS_STAT_TOKEN

/-- A halt-class detector is set (R473). -/
def State.halted (s : State) : Bool := s.on Reg.ERA_STAT_HALTED

/-- The group rank (R67): position × 2 + seat. -/
def State.rank (s : State) : Nat := s.get Reg.GLB_SEAT_POS * 2 + s.get Reg.GLB_SEAT_SEAT

/-- Length of the control period in ns (R295). -/
def State.periodNs (s : State) : Nat := s.get Reg.CHS_PERIOD_CYC * 5

/-! ## Ring entries -/

/-- The ring context beside its registers. -/
def State.ring (s : State) (r : Nat) : RingX := Tab.get s.rings r {}

/-- Changes a ring context. -/
def State.ringMod (s : State) (r : Nat) (f : RingX → RingX) : State :=
  { s with rings := Tab.put s.rings r (f (s.ring r)) }

/-- Entries of a ring of its size code (R95). -/
def State.ringLen (s : State) (r : Nat) : Nat := 2 ^ s.get (Reg.HST_RCFG_SIZE r)

/-- Memory requests are issued only while Bus Master Enable and DMA_EN are set (R84), the PCIe link is up, and none in D3hot (R81) nor
in the loss sequence, where PET is idle (R52). -/
def State.dmaOn (s : State) : Bool :=
  s.hst.busMaster && s.hst.linkUp && !s.hst.d3 && s.on Reg.HST_CTL_DMA_EN && s.glb.lossStep == 0

/-- A device-filled ring has a free entry: writing one leaves at least one free before the host's head (R101). -/
def State.ringFree (s : State) (r : Nat) : Bool :=
  (s.get (Reg.HST_RPTR_TAIL r) + 1) % s.ringLen r ≠ s.get (Reg.HST_RPTR_HEAD r)

/-- The ring is enabled and not in error. -/
def State.ringLive (s : State) (r : Nat) : Bool := s.on (Reg.HST_RSTAT_EN r) && !s.on (Reg.HST_RSTAT_ERR r)

/-- Sends the MSI-X message of a vector, or leaves it pending while the vector or the function is masked, or no memory request
may be issued (R84, R85). -/
def State.msixSend (s : State) (v : Nat) : State :=
  let e := Tab.get s.hst.msix v {}
  if e.masked || s.hst.msixMask || !s.dmaOn then
    { s with hst := { s.hst with msix := Tab.put s.hst.msix v { e with pend := true } } }
  else (s.emit (.msix v)).count 5 4 1

/-- The pending messages that nothing holds back any more are sent, and their pending bits clear (R84, R85). -/
def State.msixFlush (s : State) : State :=
  if s.hst.msixMask || !s.dmaOn then s
  else (s.hst.msix.filter fun e => e.2.pend && !e.2.masked).foldl (fun s e =>
    (({ s with hst := { s.hst with msix := Tab.put s.hst.msix e.1 { e.2 with pend := false } } }).emit (.msix e.1)).count 5 4 1) s

/-- Writes a result buffer, or lets it wait until memory requests are enabled (R84). -/
def State.dmaOut (s : State) (a : Nat) (b : List Byte) : State :=
  if s.dmaOn then s.emit (.dma a b) else { s with hst := { s.hst with dmaWait := s.hst.dmaWait ++ [(a, b)] } }

/-- Moderation after an entry has been written (R86): the message goes when MCOUNT entries have been written since the
last message, or at once when MCOUNT is 0. -/
def State.moderate (s : State) (r : Nat) : State :=
  if !s.on (Reg.HST_RIRQ_IEN r) then s
  else
    let n := (s.ring r).since + 1
    if s.get (Reg.HST_RIRQ_MCOUNT r) ≤ n then
      (s.ringMod r fun x => { x with since := 0 }).msixSend (s.get (Reg.HST_RIRQ_VECTOR r))
    else s.ringMod r fun x => { x with since := n }

/-- The bus address of entry `i` of a ring (R95). -/
def State.entryAddr (s : State) (r i : Nat) : Nat := s.get (Reg.HST_RBASE r) + 32 * i

/-- Writes one 32-byte entry into the next index of a device-filled ring, whose FLAGS byte gets PHASE in bit 0 (R102). -/
def State.putEntry (s : State) (r : Nat) (entry : Bool → List Byte) : State :=
  let t := s.get (Reg.HST_RPTR_TAIL r)
  let t' := (t + 1) % s.ringLen r
  let ph := (s.ring r).phase
  let s := s.emit (.dma (s.entryAddr r t) (entry ph))
  let s := (s.set (Reg.HST_RPTR_TAIL r) t').add (Reg.HST_RCNT r) 1
  let s := s.ringMod r fun x => { x with phase := if t' = 0 then !ph else ph }
  (s.count 5 2 1).moderate r

/-- The bytes of a data-slot of code c (R98): 2^(c+5), or none for code 0. -/
def slotLen (c : Nat) : Nat := if c = 0 then 0 else 2 ^ (c + 5)

/-- Posts an entry of TYPE `typ` from block `src` on a ring of class EVT, PACE, PROOF or RAW (R97, R98, R104).
`inline` is given whether the payload was cut. A ring without a free entry, or memory requests disabled, drops it.
DESIGN CHOICE (unsafe): a PACE notice that is dropped so also counts in HST_RDROP and marks LOST, which R104 says of the
other classes only (log entry 97). -/
def State.postEntry (s : State) (r typ src : Nat) (confirmed : Bool) (inline : Bool → List Byte)
    (payload : List Byte) (stamp : Option Nat := none) : State :=
  if !s.dmaOn || !s.ringFree r then
    (s.bump (Reg.HST_RDROP r)).ringMod r fun x => { x with seq := (x.seq + 1) % 2 ^ 32, lost := true }
  else
    let x := s.ring r
    let cap := slotLen (s.get (Reg.HST_RAUX_SLOT r))
    let p := payload.take cap
    let cut := decide (cap < payload.length)
    let t := s.get (Reg.HST_RPTR_TAIL r)
    let s := if p.isEmpty then s else s.emit (.dma (s.get (Reg.HST_RDATA r) + t * cap) p)
    let fl := fun ph => b2n ph + 2 * b2n confirmed + 4 * b2n (!p.isEmpty) + 8 * b2n x.lost
    let s := s.ringMod r fun y => { y with seq := (y.seq + 1) % 2 ^ 32, lost := false }
    s.putEntry r fun ph =>
      le 2 typ ++ le 1 (fl ph) ++ le 1 src ++ le 4 x.seq ++ le 8 (stamp.getD s.time) ++ le 4 p.length ++ fit 12 (inline cut)

/-- The rings of a class that are enabled and not in error. -/
def State.ringsOf (s : State) (cls : Nat) : List Nat :=
  (s.rings.map (·.1)).filter fun r => s.ringLive r && s.get (Reg.HST_RCFG_CLASS r) == cls

/-- Posts an event on every enabled EVT ring whose mask passes its family (R94). -/
def State.evtP (s : State) (src typ : Nat) (inline : Bool → List Byte) (payload : List Byte) : State :=
  ((s.ringsOf 4).filter fun r => bit (s.get (Reg.HST_REVMASK r)) src).foldl
    (fun s r => s.postEntry r typ src false inline payload) s

/-- Posts an event without payload. -/
def State.evt (s : State) (src typ : Nat) (inline : List Byte) : State := s.evtP src typ (fun _ => inline) []

/-! ## Colophon stamps, change log and slugs -/

/-- Bytes that wait in open pages grow by `n` (R518). -/
def State.openAdd (s : State) (n : Nat) : State := { s with col := { s.col with openBytes := s.col.openBytes + n } }

/-- After `n` records written round a log store of `cap`: WRAPS counts and STORE_WRAP is posted once a round (R517). -/
def State.storeWrap (s : State) (store n cap oldest : Nat) : State :=
  if n % cap = 0 then
    (s.bump (Reg.COL_SSTAT_WRAPS store)).evt 9 0x0A02 (le 1 store ++ zeros 3 ++ le 4 oldest ++ zeros 4)
  else s

/-- Origin codes of the change log (R530). -/
inductive Origin
  /-- A command of a ring, or a register write with ring value 0xFFFF (R121). -/
  | host (ring : Nat)
  /-- The Roscor peer: its seat, origin and ring (R531). -/
  | peer (seat origin ring : Nat)
  /-- A Fennal peer of a group rank. -/
  | fennal (rank : Nat)
  /-- Internal firmware: 0 Errata, 1 Chase, 2 Press, 3 management. -/
  | fw (proc : Nat)
  /-- The debug port. -/
  | debug
deriving DecidableEq, Repr

/-- The code of an origin (R530). -/
def Origin.code : Origin → Nat
  | .host _ => 0
  | .peer _ _ _ => 1
  | .fennal _ => 2
  | .fw _ => 3
  | .debug => 4

/-- The DETAIL field of an origin (R531). -/
def Origin.detail : Origin → Nat
  | .host r => r * 65536
  | .peer seat o r => seat + o * 256 + r * 65536
  | .fennal k => k
  | .fw p => p
  | .debug => 0

/-- A register write of the host (R121). -/
def regOrigin : Origin := .host 0xFFFF

/-- Adds an entry to the change log (R530). In the loss sequence, entries after the final commit of the store has begun
are lost and counted (R533). -/
def State.logC (s : State) (o : Origin) (kind chgNo opcode block target old new : Nat) (digest : Bool := false) : State :=
  if s.col.finalCommit ≠ 0 then
    { (s.bump Reg.COL_LOST) with col := { s.col with lossRecs := s.col.lossRecs + 1 } }
  else
    let e : LogEntry :=
      { seq := s.get (Reg.COL_SNEXT 2), opTime := s.get Reg.COL_OPT, pcc := s.get Reg.COL_PCC_PCC, origin := o.code,
        kind := kind, digest := digest, detail := o.detail, chgNo := chgNo, opcode := opcode, block := block,
        target := target, old := old, new := new, time := s.time }
    let l := if s.col.log.length < 4128768 then s.col.log else s.col.log.drop 63
    let s := { s with col := { s.col with log := l ++ [e], openLog := s.col.openLog + 1, posLog := s.col.posLog + 1 } }
    let s := (s.set (Reg.COL_SNEXT 2) (s.get (Reg.COL_SNEXT 2) + 1)).openAdd 64
    s.storeWrap 2 s.col.posLog 4128768 ((s.col.log.head?.map (·.seq)).getD 0)

/-- Writes a slug (R528). -/
def State.slug (s : State) (code sub p0 p1 p2 p3 : Nat) : State :=
  if s.col.finalCommit ≠ 0 ∧ code ≠ 4 then
    { (s.bump Reg.COL_LOST) with col := { s.col with lossRecs := s.col.lossRecs + 1 } }
  else
    let e : Slug :=
      { seq := s.get (Reg.COL_SNEXT 3), code := code, sub := sub % 65536, hours := s.get Reg.COL_OPT / 36000 % 2 ^ 32,
        pcc := s.get Reg.COL_PCC_PCC, p0 := p0 % 2 ^ 32, p1 := p1 % 2 ^ 32, p2 := p2 % 2 ^ 32, p3 := p3 % 2 ^ 32 }
    let l := if s.col.slugs.length < 2064384 then s.col.slugs else s.col.slugs.drop 126
    let s := { s with col := { s.col with slugs := l ++ [e], openSlug := s.col.openSlug + 1, posSlug := s.col.posSlug + 1 } }
    let s := (s.set (Reg.COL_SNEXT 3) (s.get (Reg.COL_SNEXT 3) + 1)).openAdd 32
    s.storeWrap 3 s.col.posSlug 2064384 ((s.col.slugs.head?.map (·.seq)).getD 0)

/-! ## Completions -/

/-- The bytes of a completion entry (R96). -/
def Cpl.bytes (c : Cpl) (seat : Nat) (ph : Bool) : List Byte :=
  le 2 c.opcode ++ le 1 (b2n ph + c.flags + 8 * seat) ++ le 1 c.status ++ le 4 c.tag ++ le 2 c.ring ++ le 2 c.index ++
    le 4 c.count ++ le 4 c.done ++ le 4 c.result ++ le 8 c.time

/-- Rings bound to CPL ring `p` show STALL while no completion can be written into it (R103, R112). -/
def State.stallBound (s : State) (p : Nat) : State :=
  let st := !s.ringFree p || s.on (Reg.HST_RSTAT_ERR p)
  ((s.rings.map (·.1)).filter fun r => s.on (Reg.HST_RSTAT_EN r) &&
      (s.get (Reg.HST_RCFG_CLASS r) == 0 || s.get (Reg.HST_RCFG_CLASS r) == 2 || s.get (Reg.HST_RCFG_CLASS r) == 3) &&
      s.get (Reg.HST_RCFG_CPLRING r) == p).foldl
    (fun s r => s.setB (Reg.HST_RSTAT_STALL r) st) s

/-- Writes the completions held by CPL ring `p`, as many as there is room for (R84, R103). -/
def State.flushCpl (s : State) (p : Nat) : Nat → State
  | 0 => s.stallBound p
  | n + 1 =>
    match (s.ring p).held with
    | [] => s.stallBound p
    | c :: t =>
      if s.dmaOn && s.ringLive p && s.ringFree p then
        let s := s.ringMod p fun x => { x with held := t, owed := x.owed - c.count }
        State.flushCpl (s.putEntry p (c.bytes (s.get Reg.GLB_SEAT_SEAT))) p n
      else s.stallBound p

/-- A completion falls due on CPL ring `p`: written behind those that wait, or held (R84, R103). -/
def State.writeCpl (s : State) (p : Nat) (c : Cpl) : State :=
  let s := s.ringMod p fun x => { x with held := x.held ++ [c] }
  s.flushCpl p ((s.ring p).held.length)

/-- Whether a status counts as success (R111). -/
def statusOk (st : Nat) : Bool := st < 0x10

/-- Writes the completion of a ring's open batch, when there is one (R105, R106). DESIGN CHOICE (unsafe): its STATUS is OK, also
where the batch holds descriptors of status ZLEN or STAGED, which count as success (log entry 97). -/
def State.closeBatch (s : State) (r : Nat) : State :=
  let x := s.ring r
  if x.batchN = 0 then s
  else
    let c : Cpl := { opcode := x.batchOp, flags := 4 + 2 * b2n x.takeover, status := 0, tag := x.batchTag, ring := r,
                     index := x.batchIdx, count := x.batchN, done := x.batchDone,
                     result := if x.batchN = 1 then x.batchRes else 0, time := s.time }
    let s := s.ringMod r fun x => { x with batchN := 0, batchDone := 0, takeover := false }
    s.writeCpl (s.get (Reg.HST_RCFG_CPLRING r)) c

/-- Writes the completion of one descriptor alone. -/
def State.completeOne (s : State) (r op : Nat) (d : Desc) (status done result : Nat) : State :=
  let c : Cpl := { opcode := op, flags := 2 * b2n (s.ring r).takeover, status := status, tag := d.tag, ring := r,
                   index := d.idx, count := 1, done := done, result := result, time := s.time }
  let s := s.ringMod r fun x => { x with takeover := false }
  s.writeCpl (s.get (Reg.HST_RCFG_CPLRING r)) c

/-- The completion of a descriptor by the mode of its ring (R105, R106), after any hold for the standby. -/
def State.completeMode (s : State) (r op : Nat) (d : Desc) (status done result : Nat) : State :=
  let b := s.get (Reg.HST_RAUX_BATCH r)
  if s.get (Reg.HST_RCFG_CLASS r) = 0 ∨ s.get (Reg.HST_RCFG_CMODE r) = 0 ∨ b = 0 then
    s.completeOne r op d status done result
  else if d.flags % 2 = 1 ∨ !statusOk status then
    (s.closeBatch r).completeOne r op d status done result
  else
    let s := s.ringMod r fun x =>
      { x with batchN := x.batchN + 1, batchDone := x.batchDone + done, batchTag := d.tag, batchIdx := d.idx,
               batchOp := op, batchRes := result }
    if (s.ring r).batchN = 2 ^ b then s.closeBatch r else s

/-- A descriptor of a ring completes. A shadow ring of the standby completes nothing and
confirms the descriptor to the peer (R116, R117); the active seat holds the
completion of a shadow descriptor while the standby is ready and the hold is on (R117), and behind one that is held (R113); until then
it has not completed for a FENCE (R109). A ring whose context a reset of the host island has cleared completes nothing (R58). -/
def State.completeNow (s : State) (r op : Nat) (d : Desc) (status done result : Nat) : State :=
  if (Tab.find s.rings r).isNone then s else
  let s := s.ringMod r fun x => { x with busy := false }
  let done_ := s.ringMod r fun x => { x with nDone := x.nDone + 1 }
  let hold := s.on (Reg.HST_RCFG_SHADOW r) && s.token && s.on Reg.HST_CTL_HOLD_EN && s.on Reg.ROS_STAT_PREADY &&
    s.get Reg.HST_CTL_HOLD_US != 0
  if s.on (Reg.HST_RCFG_SHADOW r) && s.standby then
    (done_.ringMod (s.get (Reg.HST_RCFG_CPLRING r)) fun x => { x with owed := x.owed - 1 }).rosOut 6 (le 2 r ++ le 2 d.idx)
  else if hold || s.hst.shadowHold.any fun h => h.ring == r then
    { s with hst := { s.hst with
        shadowHold := s.hst.shadowHold ++ [{ ring := r, index := d.idx, opcode := op, desc := d, status := status, done := done,
                                             result := result, ok := !hold }] } }
  else done_.completeMode r op d status done result

/-- The opcodes of CMD rings that the chapters define (R109 and the command table of each block). -/
def cmdOpcodes : List Nat :=
  [0x0000, 0x0100, 0x0101, 0x0102, 0x0103, 0x0104, 0x0105, 0x0200, 0x0201, 0x0202, 0x0203,
   0x0210, 0x0211, 0x0212, 0x0213, 0x0214, 0x0215, 0x0216, 0x0217, 0x0218, 0x0300,
   0x0400, 0x0401, 0x0402, 0x0403, 0x0404, 0x0405, 0x0500, 0x0501, 0x0502, 0x0503, 0x0504, 0x0505, 0x0506,
   0x0600, 0x0601, 0x0602, 0x0603, 0x0700, 0x0701, 0x0702, 0x0703, 0x0710, 0x0711,
   0x0800, 0x0801, 0x0802, 0x0803, 0x0804, 0x0810, 0x0811, 0x0812, 0x0813, 0x0814,
   0x0900, 0x0901, 0x0902, 0x0903, 0x0904, 0x0905, 0x0906, 0x0907,
   0x0A00, 0x0A01, 0x0A02, 0x0A03, 0x0A04, 0x0A05,
   0x0B00, 0x0B01, 0x0B02, 0x0B03, 0x0B04, 0x0B05, 0x0B06, 0x0B07, 0x0B08, 0x0B09,
   0x0C00, 0x0C01, 0x0D00, 0x0D01, 0x0D02, 0x0E00, 0x0E01, 0x0E02, 0x0E03, 0x0E04]

/-- An opcode is defined and valid on a ring class (R108): TRACE and SCORE rings take one opcode each (R122). -/
def opcodeValid (cls op : Nat) : Bool :=
  match cls with
  | 0 => cmdOpcodes.contains op
  | 2 => op == 0x1001
  | 3 => op == 0x1002
  | _ => false

/-- What a ring completes by itself while no command of it runs, in index order: what a DISABLE aborts (R90), then, on a ring
not in error (R112), the descriptors at the front whose opcode is not defined there (R108). -/
def State.dropBadOps (s : State) (r : Nat) : Nat → State
  | 0 => s
  | n + 1 =>
    let x := s.ring r
    if x.busy then s
    else
      match x.aborts, x.fetched with
      | (op, d) :: t, _ =>
        State.dropBadOps ((s.ringMod r fun x => { x with aborts := t }).completeNow r op d 0x1D 0 0) r n
      | [], (op, d) :: t =>
        if !s.ringLive r || opcodeValid (s.get (Reg.HST_RCFG_CLASS r)) op then s
        else State.dropBadOps ((s.ringMod r fun x => { x with fetched := t }).completeNow r op d 0x10 0 0) r n
      | [], [] => s

/-- The ring goes on to its next descriptor. DESIGN CHOICE (unsafe): a batch left open by a DISABLE is completed once no command
of the ring is left, nor a completion held for the standby (log entry 97). -/
def State.ringGoes (s : State) (r : Nat) : State :=
  let s := s.dropBadOps r ((s.ring r).aborts.length + (s.ring r).fetched.length)
  if !s.on (Reg.HST_RSTAT_EN r) && !(s.ring r).busy && !(s.hst.shadowHold.any fun h => h.ring == r) then s.closeBatch r else s

/-- A FENCE is over once every descriptor of the ring it names, fetched before it, has completed (R109); its ring goes on. -/
def State.fencesOver (s : State) : Nat → State
  | 0 => s
  | n + 1 =>
    match s.hst.fences.find? (fun f => decide (f.upTo ≤ (s.ring f.target).nDone)) with
    | none => s
    | some f =>
      let s := { s with hst := { s.hst with fences := s.hst.fences.erase f } }
      let s := s.ringMod f.ring fun x => { x with nDone := x.nDone + 1, busy := false }
      let s := s.completeOne f.ring 0x0100 f.desc 0 0 (s.get (Reg.HST_RPTR_HEAD f.target))
      State.fencesOver (s.ringGoes f.ring) n


/-- A descriptor of a ring completes, and the FENCEs that waited for it with it. -/
def State.complete (s : State) (r op : Nat) (d : Desc) (status done result : Nat) : State :=
  let s := s.completeNow r op d status done result
  s.fencesOver s.hst.fences.length

end Sys2Proof.Machine
end

