-- ==== Sys2Proof/Machine/Flags.lean ====
section
/-!
DEFINITION. The status flags of the module and what sets them: the detectors of Errata with their classes, a raise and
what follows from it (R469 to R476), the stage and the ready bits of GLB_BOOTSTAT, the power limits, and the drive conditions.
-/
namespace Sys2Proof.Machine

/-! ## The catalogue (R472) -/

/-- What the catalogue says of a detector: its kind, its default class (0 note, 1 degrade, 2 halt), and whether spare. -/
structure DetInfo where
  level : Bool
  cls : Nat
  spare : Bool
deriving DecidableEq, Repr

/-- An event detector of a class. -/
def evE (c : Nat) : DetInfo := { level := false, cls := c, spare := false }

/-- A level detector of a class. -/
def evL (c : Nat) : DetInfo := { level := true, cls := c, spare := false }

/-- A spare detector (R469). -/
def evSpare : DetInfo := { level := false, cls := 0, spare := true }

/-- The rows of R472: the listed detectors of each family, by index. -/
def catalogue (f : Nat) : List DetInfo :=
  match f with
  | 0 => [evE 2, evL 0, evE 2, evE 0, evE 2, evL 0, evL 0, evE 2]
  | 1 => [evL 1, evL 1, evL 1, evL 1, evL 1, evL 1, evL 2, evL 1, evL 1, evL 0, evL 1, evL 1, evL 2]
  | 2 => List.replicate 11 (evE 0)
  | 3 => [evE 2, evL 0, evL 1, evL 2, evL 2, evL 2, evL 2, evL 1, evL 1, evL 0, evL 0]
  | 4 => [evL 1, evL 1, evL 1, evL 1, evL 2, evL 0, evL 0, evL 0, evL 0, evL 0, evL 0]
  | 5 => [evL 2, evE 0, evL 1, evL 1, evE 0, evE 0, evE 0, evE 0]
  | 6 => [evL 0, evL 0, evE 0, evE 0, evL 0, evE 0]
  | 7 => [evE 1, evE 1, evE 1, evE 1, evE 1, evE 0]
  | 8 | 9 | 10 | 11 => [evE 1, evE 1, evE 1, evE 1, evE 0, evE 0, evE 1, evE 0, evE 1, evE 1]
  | 12 => [evE 0, evE 0, evE 0, evE 0, evL 1, evE 0, evE 0, evE 0, evE 0]
  | 13 => [evL 2, evE 1, evE 2, evE 1, evE 0, evE 0, evE 0, evE 0, evE 0, evL 0]
  | 14 => [evL 1, evE 0, evL 1, evE 0, evL 0]
  | 15 => [evE 1, evE 1, evE 1, evL 1, evL 1, evL 1, evL 1, evL 1, evE 0]
  | 16 => [evL 1, evE 0]
  | 17 => [evL 1, evL 1, evL 1, evL 1, evE 0, evE 0, evE 0, evE 0]
  | 18 => [evL 1, evL 1, evL 1, evL 1, evL 1, evL 1, evL 1, evL 1, evL 1, evL 1, evL 1, evL 1, evL 0, evL 0, evL 0, evL 0]
  | 19 => [evE 0, evL 0, evL 0, evE 0, evL 0]
  | 20 => [evL 1, evL 0, evL 0, evE 0, evE 0, evE 0]
  | 21 => [evE 1, evE 0, evE 1, evL 0, evE 0]
  | 22 => [evE 0, evE 0, evE 0, evE 0, evE 0, evL 0]
  | 23 => [evE 0, evL 0, evE 0]
  | _ => []

/-- What the catalogue says of detector `n` = 16 f + i (R469). -/
def detInfo (n : Nat) : DetInfo := ((catalogue (n / 16))[n % 16]?).getD evSpare

/-- The number of detector f.i. -/
def detN (f i : Nat) : Nat := 16 * f + i

/-! ## Detector state -/

/-- A detector beside its registers. -/
def State.det (s : State) (n : Nat) : Det := Tab.get s.era.dets n {}

/-- Changes a detector. -/
def State.detMod (s : State) (n : Nat) (f : Det → Det) : State :=
  { s with era := { s.era with dets := Tab.put s.era.dets n (f (s.det n)) } }

/-- The class in force of a detector apart from any escalation (R471). The field CLASS holds what ERA_CLASS has set: 0 none, 1 degrade,
2 halt; the settings store keeps it (R487). -/
def State.baseClass (s : State) (n : Nat) : Nat := max (detInfo n).cls (s.get (Reg.ERA_DINFO_CLASS n))

/-- The class at which a raise acts (R471): the highest of the default, the escalated and the set class. -/
def State.classOf (s : State) (n esc : Nat) : Nat := max (s.baseClass n) esc

/-- A halt-class status bit is set (R479). -/
def State.haltSet (s : State) : Bool := s.era.dets.any fun e => e.2.status && decide (e.2.cls = 2)

/-- A degrade-class status bit is set (ERA_STAT.DEGRADED). -/
def State.degraded (s : State) : Bool := s.era.dets.any fun e => e.2.status && decide (e.2.cls = 1)

/-! ## Stage, ready bits and drive conditions -/

/-- Link ℓ is up. -/
def State.linkUp (s : State) (l : Nat) : Bool := bit (s.get Reg.STL_UP) l

/-- A link of the settings map (R606). -/
def State.linkMapped (s : State) (l : Nat) : Bool := bit (s.get Reg.STL_LMAP) l

/-- Every mapped link is up, or exactly one is down and replaced by the spare link (R61, R606). -/
def State.linksTrained (s : State) : Bool :=
  match (List.range 39).filter fun l => s.linkMapped l && !s.linkUp l with
  | [] => true
  | [l] => s.on Reg.STL_STAT_SPAREV && s.get Reg.STL_STAT_SPARED == l && s.linkUp 39
  | _ => false

/-- The links are trained, and every grid phase of the minimum run set is present, that is not FAILED (R75, R606). -/
def State.linkOk (s : State) : Bool :=
  s.linksTrained && (List.range 52).all fun g => !bit (s.get Reg.STL_MRSET) g || s.get (Reg.STL_PSTAT_ROLE g) != 2

/-- The conditions of R75 as GLB_WAITCOND shows them. -/
def State.waitCond (s : State) : Nat :=
  b2n (s.glb.chaseUp && !s.haltSet) +
  2 * b2n (s.on Reg.GLB_SEAT_PAROK && !(s.det (detN 5 2)).cause) +
  4 * b2n (s.on Reg.GLB_BOOTSTAT_RES) +
  8 * b2n s.linkOk +
  16 * b2n s.glb.meterOk +
  32 * b2n (s.glb.permit || s.on Reg.GLB_START_MODE)

/-- The ready bits [16:8] of GLB_BOOTSTAT. -/
def State.readyBits (s : State) : Nat :=
  s.get Reg.GLB_BOOTSTAT_PRESS + 2 * s.get Reg.GLB_BOOTSTAT_LINKS + 4 * s.get Reg.GLB_BOOTSTAT_RING +
    64 * s.get Reg.GLB_BOOTSTAT_ROSCOR + 128 * s.get Reg.GLB_BOOTSTAT_FENNAL + 256 * s.get Reg.GLB_BOOTSTAT_RES

/-- Posts STAGE_CHANGED (R599). -/
def State.stageChanged (s : State) (old : Nat) : State :=
  s.evt 0 2 (le 1 old ++ le 1 s.stage ++ le 2 s.readyBits ++ le 1 s.waitCond ++ zeros 7)

/-- The stage changes (R60); STAGE_CHANGED is posted from stage HOST on (R599). -/
def State.setStage (s : State) (v : Nat) : State :=
  let old := s.stage
  if old = v then s
  else
    let s := s.set Reg.GLB_BOOTSTAT_STAGE v
    if 5 ≤ v ∨ 5 ≤ old then s.stageChanged old else s

/-- A ready bit of GLB_BOOTSTAT takes a value (R61); a change is posted (R599). -/
def State.setReady (s : State) (f : Fld) (v : Nat) : State :=
  if s.get f = v then s else (s.set f v).stageChanged s.stage

/-- GLB_PWRSTAT [4:0]. -/
def State.pwrBits (s : State) : Nat :=
  s.get Reg.GLB_PWRSTAT_DEFP + 2 * s.get Reg.GLB_PWRSTAT_DEFI + 4 * s.get Reg.GLB_PWRSTAT_DEFL +
    8 * s.get Reg.GLB_PWRSTAT_DEFT + 16 * s.get Reg.GLB_PWRSTAT_CAP4

/-- A change of GLB_PWRSTAT, with POWER_LIMIT when it has changed (R599). -/
def State.pwrChange (s : State) (f : State → State) : State :=
  let old := s.pwrBits
  let s := f s
  if s.pwrBits = old then s
  else s.evt 0 3 (le 1 old ++ le 1 s.pwrBits ++ le 2 (s.get Reg.GLB_PIN_VALUE) ++ le 2 (s.get Reg.GLB_IIN_VALUE) ++
    le 2 (s.get Reg.GLB_VIN_VALUE) ++ zeros 4)

/-! ## Raises (R471 to R476) -/

/-- The actions of a halt at its decision (R473). A second halt counts in MORE (R476). Before the seat token has first been
held, no output is made safe and no takeover request is sent (R78); a seat that held it before sends its SAFE frames (R343). -/
def State.halt (s : State) (n : Nat) : State :=
  if s.halted then s.bump Reg.ERA_HALT_MORE
  else
    let held := s.token
    let stby := s.standby
    let s := { s with glb := { s.glb with preHalt := s.stage } }
    let s := s.set Reg.ERA_STAT_HALTED 1
    let s := if s.on Reg.ERA_HALT_VALID then s
      else ((s.set Reg.ERA_HALT_FIRST n).set Reg.ERA_HALT_VALID 1).set Reg.ERA_HALT_TIME s.time
    let s := s.setStage 0xF
    let s := { s with
      glb := { s.glb with alive := false, hbOut := false, hbHeld := true, safeLeft := if held || s.glb.hadToken then 10 else 0,
                          permit := false, roleDue := false }
      era := { s.era with haltPend := true, leavePend := held, haltSnap := true } }
    let s := (s.set Reg.CHS_STAT_TOKEN 0).emit (.pin .alive false)
    let s := s.emit (.pin .hbOut false)
    if held then s.rosOut 3 (le 1 1 ++ zeros 15)
    else if stby then s.rosOut 4 (le 1 (if n = detN 3 0 then 2 else 1) ++ zeros 15)
    else s

/-- The entry of a raise in the list of start-up raises (R80): first 35 distinct detectors, counts saturating. -/
def noteRaise (l : List (Nat × Nat × Nat)) (n c : Nat) : List (Nat × Nat × Nat) :=
  if l.any (fun e => e.1 == n) then l.map fun e => if e.1 = n then (e.1, max e.2.1 c, satU 8 (e.2.2 + 1)) else e
  else if l.length < 35 then l ++ [(n, c, 1)] else l

/-- The DETECTOR entry of a raise, or its count among the raises that owe one (R476, R486). -/
def State.raiseEvt (s : State) (n c param : Nat) (inj esc : Bool) : State :=
  let x := s.det n
  let gap := s.get Reg.ERA_CTL_EVTGAP * 1000000
  let within := match x.lastEvt with
    | some t => decide (s.time < t + gap)
    | none => false
  if within then s.detMod n fun y => { y with owing := y.owing + 1 }
  else
    let s := s.detMod n fun y => { y with owing := 0, lastEvt := some s.time }
    s.evt 8 0x0900 (le 2 n ++ le 1 c ++ le 1 (b2n inj + 2 * b2n x.cause + 4 * b2n esc) ++ le 4 (x.owing + 1) ++ le 4 param)

/-- A raise of detector `n`: `esc` is the class that the owning chapter's escalation rule gives it (0 none), `param`
names the unit, `injected` marks an injected raise, as does an active injection on that unit (R483). It is recorded (R475) and the action of its class follows (R471). -/
def State.raise (s : State) (n esc param : Nat) (injected : Bool := false) : State :=
  let inj := injected || s.era.injections.any fun x => x.det == n && x.param == param
  let c := s.classOf n esc
  let escd := decide (s.baseClass n < esc)
  let x := s.det n
  let s := if x.status then s else s.set (Reg.ERA_DFIRST n) s.time
  let s := s.set (Reg.ERA_DLAST n) s.time
  let s := s.bump (Reg.ERA_DINFO_COUNT n)
  let s := s.set (Reg.ERA_DPARAM n) param
  let s := if escd then s.set (Reg.ERA_DINFO_ESC n) 1 else s
  let s := s.detMod n fun y =>
    { y with status := true, injected := inj || (y.status && y.injected), cls := if y.status then max y.cls c else c }
  let s := s.raiseEvt n c param inj escd
  let s := s.slug (0x4000 + n) (c + 4 * b2n inj + 8 * b2n escd + 16 * b2n (s.det n).cause) param 1
    (s.time / 1000000) (s.get Reg.CHS_PNUM)
  let s := if s.glb.reported then s
    else { s with glb := { s.glb with raises := noteRaise s.glb.raises n c, raisesAll := s.glb.raisesAll + 1 } }
  if c = 2 then s.halt n
  else if c = 1 then { s with era := { s.era with orders := s.era.orders ++ [(n, param, inj)] } }
  else s

/-- The condition of a level detector begins or goes on: a raise when it begins, and again while it holds only when the
escalated class rises above the class already raised (R470, R471). -/
def State.levelOn (s : State) (n esc param : Nat) : State :=
  let x := s.det n
  let c := s.classOf n esc
  let s := if x.real then s else s.detMod n fun y => { y with cause := true, real := true }
  if !x.cause || decide (x.cls < c) then s.raise n esc param else s

/-- The condition of a level detector ends; one that an injection drives stays (R483). -/
def State.levelOff (s : State) (n : Nat) : State := s.detMod n fun y => { y with cause := y.injCause, real := false }

/-- The condition of a level detector as it now is. -/
def State.level (s : State) (n esc param : Nat) (present : Bool) : State :=
  if present then s.levelOn n esc param else s.levelOff n

/-! ## Escalations that the owner counts (R24, R59, R154, R159) -/

/-- A miss of crossing `c` is counted and raised (R24): the third in a row and those after it at halt or degrade class. -/
def State.missRaise (s : State) (c : Nat) (first inj : Bool) : State :=
  let n := if first then 1 else Tab.get s.watch.xrun c 0 + 1
  let s : State := { s with watch := { s.watch with xrun := Tab.put s.watch.xrun c n } }
  let esc := if n < 3 then 0 else if c = 3 ∨ c = 4 ∨ c = 6 ∨ c = 7 then 2 else 1
  (s.bump (Reg.ERA_XMISS c)).raise (detN 2 c) esc c inj

/-- An uncorrectable error of a spine port is counted and raised (R154): the third of a press cycle at degrade class. -/
def State.spineRaise (s : State) (port : Nat) (inj : Bool) : State :=
  let n := Tab.get s.prs.spine port 0 + 1
  let s := ({ s with prs := { s.prs with spine := Tab.put s.prs.spine port n } } : State).bump Reg.PRS_SPN_ERR_UE
  s.raise (detN 12 port) (if 3 ≤ n then 1 else 0) port inj

/-- The press cycles in a row, up to cycle `k`, in which the barrier of a level names a unit (R159). -/
def State.barCount (s : State) (level unit k : Nat) : Nat :=
  match Tab.find s.prs.barNamed (level * 65536 + unit) with
  | some (n, c) => if c = k then n else if c + 1 = k then n + 1 else 1
  | none => 1

/-- Detector `d` of the barriers of a level names a unit (R159): named in three consecutive press cycles, it is treated as failed. -/
def State.barRaise (s : State) (d level unit : Nat) (inj : Bool) : State :=
  let k := s.get Reg.PRS_GAL_CYC
  let n := s.barCount level unit k
  let s : State := { s with prs := { s.prs with
    barLevel := level
    barNamed := Tab.put (s.prs.barNamed.filter fun e => decide (k ≤ e.2.2 + 1)) (level * 65536 + unit) (n, k) } }
  s.raise d (if 3 ≤ n then 1 else 0) unit inj

/-- A watchdog reset of the management cluster is counted (R59): the second within 10 s raises, the third at halt class. An injected
occurrence raises at once. -/
def State.wdogRaise (s : State) (inj : Bool) : State :=
  let ts := s.time :: s.glb.wdog.filter fun t => decide (s.time < t + 10000000000)
  let s : State := { s with glb := { s.glb with wdog := ts } }
  if ts.length < 2 ∧ inj = false then s else s.raise (detN 7 0) (if ts.length ≤ 2 then 0 else 2) 0 inj

/-! ## Staged changes (R110, R320, R608) -/

/-- The period number from which a change accepted now is first imposed: LEAD periods on, at least 8 (R320). -/
def State.leadPeriod (s : State) : Nat := s.get Reg.CHS_PNUM + max 8 (s.get Reg.CHS_IMP_LEAD)

/-- Takes the next change number (R320). -/
def State.newChange (s : State) : Nat × State := (s.chgNext, { s with chgNext := s.chgNext + 1 })

/-- The origin of a staged change: a ring, the firmware of the owning block (ring 0x10000), or the Roscor peer of seat b
(ring 0x20000 + 0x20000 b + the ring there, R531). -/
def changeOrigin (ring block : Nat) : Origin :=
  if 0x20000 ≤ ring then
    let r := ring % 0x20000
    .peer (ring / 0x20000 - 1) (if r = 0x10000 then 3 else 0) (r % 0x10000)
  else if ring = 0x10000 then .fw (if block = 2 then 2 else 3)
  else .host ring

/-- Posts CHANGE_DONE (R330, R608) and logs the outcome of a staged change (R531): kind 3 imposed, kind 4 otherwise. -/
def State.changeDone (s : State) (c : Staged) (outcome steps failure : Nat) : State :=
  let s := s.logC (changeOrigin c.ring c.block) (if outcome = 0 then 3 else 4) c.no c.opcode c.block
    c.target c.old c.new c.digest
  let s := if outcome = 0 then { s with ros := { s.ros with imposed := c.no } } else s
  -- a change imposed while a plan is open is one that its rollback discards (R555)
  let s := if outcome = 0 ∧ c.block ≠ 0xA then
      { s with upd := { s.upd with plan := s.upd.plan.map fun p => { p with during := p.during ++ [c] } } } else s
  s.evt c.block 0x0500 (le 4 c.no ++ le 1 outcome ++ le 1 steps ++ le 1 failure ++ le 1 0 ++ le 4 (s.get Reg.CHS_PNUM))

/-- The bytes of a trigger definition (R521). -/
def trigBytes (t : Trigger) : List Byte :=
  le 1 t.kind ++ le 1 (b2n t.en) ++ le 2 t.sels.length ++ le 4 t.a ++ le 4 t.b ++ le 2 t.delay ++ le 2 t.holdoff ++
    t.sels.flatMap fun w => w

/-- What a change brings to the standby beside its numbers (R378, R501). -/
def actBytes : StagedAct → List Byte
  | .detClass n c => le 2 n ++ le 1 c
  | .phaseRole q r => le 1 q ++ le 1 r
  | .fennalKey slot k => le 1 slot ++ le 1 (b2n k.isSome) ++ k.getD []
  | .fennalTx slot => le 1 slot
  | .trigger i t => le 1 i ++ trigBytes t
  | .formeEnable slot en => le 1 slot ++ le 1 (b2n en)
  | .formeUnload slot => le 1 slot
  | .estTable kind pos b => le 1 kind ++ le 1 pos ++ b
  | .trainSetup b => b
  | .regWrite key v => le 4 key ++ le 8 v
  | .own => []

/-- The CFG segments of a change, at most 1,024 bytes each (R492): its numbers, in the holder's count, and a part of what it brings. -/
def cfgSegs (c : Staged) : Nat → List Byte → List (List Byte)
  | 0, _ => []
  | n + 1, b =>
    let rest := b.drop 980
    (le 4 c.no ++ le 2 c.opcode ++ le 1 c.block ++ le 1 (b2n rest.isEmpty) ++ le 4 c.target ++ le 8 c.old ++ le 8 c.new ++
      le 8 c.due ++ le 4 c.ring ++ b.take 980) :: (if rest.isEmpty then [] else cfgSegs c n rest)

/-- A change that the holder has accepted travels to the standby (R501). -/
def State.changeSend (s : State) (c : Staged) (b : List Byte) : State :=
  if s.token then (cfgSegs c (b.length + 1) b).foldl (fun s x => s.rosOut 7 x) s else s

/-- Stages a change: it takes a number, is logged as accepted (R531), travels to a standby (R501) and waits for its
imposition. Answers the number. -/
def State.stage1 (s : State) (r block opcode target old new due : Nat) (act : StagedAct) (digest : Bool := false) :
    Nat × State :=
  let (n, s) := s.newChange
  let c : Staged := { no := n, block := block, opcode := opcode, target := target, old := old, new := new, ring := r,
                      due := due, act := act, digest := digest }
  let s := s.logC (changeOrigin r block) 2 n opcode block target old new digest
  (n, ({ s with staged := s.staged ++ [c] } : State).changeSend c (actBytes act))

end Sys2Proof.Machine
end

