-- ==== Sys2Proof/Machine/Units.lean ====
section
/-!
DEFINITION. The spare maps (R573, R574): which leaf, folio, quire, textblock or lane is in service, in a pool, FAILED or
RETIRED, and what remains of each kind; the hierarchy in service and its logical numbering (R156, R161, R162).
-/
namespace Sys2Proof.Machine

/-! ## Unit numbers (R583) -/

/-- A leaf's unit number. -/
def leafUnit (t q f l : Nat) : Nat := t + 4 * q + 32 * f + 1024 * l

/-- The textblock, quire, folio and leaf that a unit number names. -/
def unitT (u : Nat) : Nat := bits u 0 2
def unitQ (u : Nat) : Nat := bits u 2 3
def unitF (u : Nat) : Nat := bits u 5 5
def unitL (u : Nat) : Nat := bits u 10 5

/-- A unit as built: the leaf and folio of index 16 and lanes 16 and 17 are in their pools; the rest are in service. -/
def unitBuilt (kind u : Nat) : UnitX :=
  { st := if (kind = 1 ∧ unitL u = 16) ∨ (kind = 2 ∧ unitF u = 16) ∨ (kind = 5 ∧ 16 ≤ u) then 1 else 0 }

/-- A unit of kind 1 leaf, 2 folio, 3 quire, 4 textblock or 5 lane. -/
def State.unit (s : State) (kind u : Nat) : UnitX := Tab.get s.spr.units (kind * 65536 + u) (unitBuilt kind u)

/-- Changes a unit. -/
def State.unitMod (s : State) (kind u : Nat) (f : UnitX → UnitX) : State :=
  { s with spr := { s.spr with units := Tab.put s.spr.units (kind * 65536 + u) (f (s.unit kind u)) } }

/-! ## Pools (R573) -/

/-- The lowest spare leaf of a folio. -/
def State.poolLeaf (s : State) (t q f : Nat) : Option Nat :=
  ((List.range 17).map (leafUnit t q f)).find? fun u => (s.unit 1 u).st == 1

/-- The lowest spare folio of a quire. -/
def State.poolFolio (s : State) (t q : Nat) : Option Nat :=
  ((List.range 17).map fun f => leafUnit t q f 0).find? fun u => (s.unit 2 u).st == 1

/-- The lowest spare lane. -/
def State.poolLane (s : State) : Option Nat := (List.range 18).find? fun u => (s.unit 5 u).st == 1

/-- Spare leaves remaining in the active folios of a textblock. -/
def State.leavesLeft (s : State) (t : Nat) : Nat :=
  (List.range 8).foldl (fun a q => (List.range 17).foldl (fun a f =>
    if (s.unit 2 (leafUnit t q f 0)).st = 0 then
      a + (List.range 17).countP fun l => (s.unit 1 (leafUnit t q f l)).st == 1
    else a) a) 0

/-- Spare folios remaining in a textblock. -/
def State.foliosLeft (s : State) (t : Nat) : Nat :=
  (List.range 8).foldl (fun a q => a + (List.range 17).countP fun f => (s.unit 2 (leafUnit t q f 0)).st == 1) 0

/-- The group of a phase: 0 grid, s + 1 string s (R332). -/
def phaseGroup (q : Nat) : Nat := if q < 52 then 0 else (q - 52) / 26 + 1

/-- The phases of a group. -/
def groupPhases (g : Nat) : List Nat :=
  if g = 0 then List.range 52 else (List.range 26).map fun p => 52 + 26 * (g - 1) + p

/-- Spares of a kind built in (R585). -/
def State.spareTotal (s : State) (k : Nat) : Nat :=
  match k with
  | 0 => 512
  | 1 => 32
  | 2 => 64
  | 3 => 2
  | 4 => s.get Reg.STL_CTL_SPAREEN
  | 5 => 4
  | _ => 2

/-- Spares of a kind that are free (R573). -/
def State.spareLeft (s : State) (k : Nat) : Nat :=
  match k with
  | 0 => (List.range 4).foldl (fun a t => a + s.leavesLeft t) 0
  | 1 => (List.range 4).foldl (fun a t => a + s.foliosLeft t) 0
  | 2 => (List.range 4).foldl (fun a t => a + s.get (Reg.PRS_TB_SPARE_BANK t)) 0
  | 3 => (List.range 18).countP fun u => (s.unit 5 u).st == 1
  | 4 => if s.on Reg.STL_CTL_SPAREEN && !s.on Reg.STL_STAT_SPAREV then 1 else 0
  | k => (groupPhases (k - 5)).countP fun q => s.get (Reg.STL_PSTAT_ROLE q) == 1

/-- A kind is at or below LOW percent of its total, rounded down (R585). -/
def State.spareLow (s : State) (k : Nat) : Bool :=
  let tot := s.spareTotal k
  decide (s.spareLeft k ≤ tot * s.get Reg.SPR_CTL_LOW / 100)

/-- RESERVE_LOW is posted once when the spares of a kind fall to LOW percent or below (R584, R585). -/
def State.reserveCheck (s : State) (k : Nat) : State :=
  if s.spareLow k && decide (s.spareTotal k ≠ 0) then
    if s.spr.low.contains k then s
    else ({ s with spr := { s.spr with low := k :: s.spr.low } }).evt 0xC 0x0D02
      (le 1 k ++ zeros 3 ++ le 4 (s.spareLeft k) ++ le 4 (s.spareTotal k))
  else { s with spr := { s.spr with low := s.spr.low.filter (· != k) } }

/-- Posts UNIT_SPARED (R584): causes 1 failure, 2 worn, 3 command. -/
def State.unitSpared (s : State) (kind cause failed spare : Nat) : State :=
  s.evt 0xC 0x0D00 (le 1 kind ++ le 1 cause ++ zeros 2 ++ le 4 failed ++ le 4 spare)

/-- A unit leaves service (R580): FAILED, with a failure counted unless the cause was injected, and RETIRED at its second
counted failure; a unit retired for wear or by command goes RETIRED. -/
def State.unitOut (s : State) (kind u cause : Nat) (inj : Bool) : State :=
  s.unitMod kind u fun x =>
    if cause ≠ 1 then { x with st := 3, retire := 0 }
    else
      let n := x.fails + b2n (!inj)
      { x with st := if 2 ≤ n then 3 else 2, fails := n, injected := inj, retire := 0 }

/-! ## The hierarchy in service (R156, R161, R162) -/

/-- Quires in service of a physical textblock, in physical order. -/
def State.quiresOf (s : State) (t : Nat) : List Nat :=
  (List.range 8).filter fun q => bit (s.get (Reg.PRS_TB_QMAP_SVC t)) q

/-- Physical textblocks in service, in physical order: position is the logical number (R156). -/
def State.tbs (s : State) : List Nat := (List.range 4).filter fun t => bit (s.get Reg.PRS_STAT_TBSVC) t

/-- The physical textblock of a logical one. -/
def State.physTb (s : State) (t : Nat) : Nat := (s.tbs[t]?).getD 0

/-- Quires lost, per textblock, as SVC_CHANGED carries them. -/
def State.quiresLost (s : State) : List Byte :=
  (List.range 4).map fun t => byte ((List.range 8).countP fun q => bit (s.get (Reg.PRS_TB_QMAP_LOST t)) q)

/-- The code of R161 for `n` textblocks in service under the configured hierarchy. -/
def svcCode (cfg n : Nat) : Nat :=
  if n = 0 then 0
  else if cfg = 1 then 1
  else if n = 1 then 2
  else if n = 2 then 3
  else if n = 3 then 5
  else 4

/-- Textblocks that a hierarchy code needs (R161). -/
def svcTbs (c : Nat) : Nat := if c = 3 then 2 else if c = 4 then 4 else if c = 5 then 3 else 1

/-- Textblocks not lost. -/
def State.tbsGood (s : State) : List Nat := (List.range 4).filter fun t => s.get (Reg.PRS_TB_STAT_STATE t) != 3

/-- Quires not lost of a textblock. -/
def State.quiresGood (s : State) (t : Nat) : List Nat :=
  (List.range 8).filter fun q => !bit (s.get (Reg.PRS_TB_QMAP_LOST t)) q

/-! ## Slots (R203) -/

/-- A forme slot. -/
def State.slotX (s : State) (i : Nat) : Slot := Tab.get s.prs.slots i {}

/-- The selected variant of a slot. -/
def Slot.variant (x : Slot) : Option Variant :=
  match x.forme, x.var with
  | some f, some v => f.variants[v]?
  | _, _ => none

/-- The slot holds a forme whose selected variant is in the leaves: it can run (R203). -/
def Slot.canRun (x : Slot) : Bool := x.variant.isSome && x.ready

/-- WCYC of the selected variant, 0 for none. -/
def Slot.wcyc (x : Slot) : Nat := match x.variant with
  | some v => v.wcyc
  | none => 0

/-- The slot has a variant for the hierarchy in service: it is READY, its weights in the leaves or on their way (R203, R237). -/
def Slot.chosen (x : Slot) : Bool := x.variant.isSome

/-- Kind of the slot's forme. -/
def Slot.kindIs (x : Slot) (k : Nat) : Bool := x.forme.any fun f => f.kind == k

/-- The state code of a slot (R203). -/
def Slot.code (x : Slot) : Nat :=
  if x.load.isSome then 1 else if x.staged.isSome then 2 else if x.forme.isNone then 0 else if x.chosen then 3 else 4

/-! ## Phases and loops in service (R302, R346) -/

/-- A phase beside its registers. -/
def State.phase (s : State) (q : Nat) : Phase := Tab.get s.chs.phases q {}

/-- The state code of a phase (R346). -/
def State.pst (s : State) (q : Nat) : Nat := s.get (Reg.STL_PSTAT_STATE q)

/-- Phases that carry load: RUN, SHED, BURST or EST (R346). -/
def State.armed (s : State) (q : Nat) : Bool :=
  let c := s.get (Reg.STL_PSTAT_STATE q)
  c == 4 || c == 5 || c == 6 || c == 7

/-- A string has an armed phase. -/
def State.strArmed (s : State) (st : Nat) : Bool := (groupPhases (st + 1)).any s.armed

/-- A loop runs for a phase that carries load, or for a spare in its run at 0; a group or energy loop for a group with an
armed phase (R302). -/
def State.inSvc (s : State) (n : Nat) : Bool :=
  if n < 156 then s.armed n || ((s.phase n).job == 3 && s.pst n == 3)
  else if n = 156 then (groupPhases 0).any s.armed
  else if n = 161 then true
  else if n < 161 then s.strArmed (n - 157)
  else s.strArmed (n - 162)

end Sys2Proof.Machine
end

