-- ==== Sys2Proof/Machine/Mem.lean ====
section
/-!
DEFINITION. The memory of the Press: four DRAM stacks with the layout of R175, activation SRAM, quire buffers and weight
SRAM (R149, R207, R208), and the operations on bytes.
-/
namespace Sys2Proof.Machine

/-! ## Cells -/

/-- The canonical form of a memory: addresses strictly rising, no cell equal to the byte an unlisted address reads as. -/
def Memory.wf : List Host.Cell → Bool
  | [] => true
  | [c] => c.2 != 0
  | c :: d :: t => c.2 != 0 && decide (c.1 < d.1) && Memory.wf (d :: t)

/-- One byte: an unlisted address reads as 0 (log entry 4). -/
def Memory.read : List Host.Cell → Nat → Byte
  | [], _ => 0
  | c :: t, a => if c.1 = a then c.2 else Memory.read t a

/-- One byte written, in canonical form: writing 0 removes the cell. -/
def Memory.write : List Host.Cell → Nat → Byte → List Host.Cell
  | [], a, b => if b = 0 then [] else [(a, b)]
  | c :: t, a, b =>
    if c.1 = a then (if b = 0 then t else (a, b) :: t)
    else if a < c.1 then (if b = 0 then c :: t else (a, b) :: c :: t)
    else c :: Memory.write t a b

/-- A byte string written from `a` on. -/
def Memory.writes (m : List Host.Cell) (a : Nat) (bs : List Byte) : List Host.Cell :=
  (bs.foldl (fun (p : Nat × List Host.Cell) b => (p.1 + 1, Memory.write p.2 p.1 b)) (a, m)).2

/-! ## Addresses of the model: which memory a byte lies in -/

/-- DRAM of physical textblock `t`, visible offset `o` (R175). -/
def dramAddr (t o : Nat) : Nat := t * 2 ^ 36 + o

/-- Quire buffer of physical quire `q` of textblock `t`. -/
def qbufAddr (t q o : Nat) : Nat := 2 ^ 40 + (t * 8 + q) * 2 ^ 22 + o

/-- Activation SRAM of logical folio `f`. -/
def actAddr (t q f o : Nat) : Nat := 2 ^ 41 + ((t * 8 + q) * 16 + f) * 2 ^ 18 + o

/-- Weight SRAM of logical leaf `l`. -/
def leafAddr (t q f l o : Nat) : Nat := 2 ^ 42 + (((t * 8 + q) * 16 + f) * 16 + l) * 2 ^ 18 + o

/-- First offset of a DRAM region (R175): 0 history, 1 training sets, 2 model, 3 scratch, 4 reserve. -/
def regionBase (r : Nat) : Nat :=
  match r with
  | 0 => 0
  | 1 => 0xB00000000
  | 2 => 0xCDCD65000
  | 3 => 0xDDCD65000
  | _ => 0xEB9ACA000

/-- Bytes of a DRAM region (R175). -/
def regionSize (r : Nat) : Nat :=
  match r with
  | 0 => 47244640256
  | 1 => 8000000000
  | 2 => 4294967296
  | 3 => 3705032704
  | _ => 755359744

/-- The region of a visible offset. -/
def regionOf (o : Nat) : Nat :=
  if o < 0xB00000000 then 0 else if o < 0xCDCD65000 then 1 else if o < 0xDDCD65000 then 2 else if o < 0xEB9ACA000 then 3
  else 4

/-- Bytes of visible DRAM of a stack. -/
def dramSize : Nat := 0xEE6B28000

/-! ## Bytes of the Press -/

/-- The logical address in the leaves of a byte that a variant load covers. -/
def WLoad.logical (w : WLoad) (a : Nat) : Option Nat :=
  let n := a - 2 ^ 42
  let o := n % 2 ^ 18
  if n / 2 ^ 29 = w.t ∧ w.rows.any (fun r => decide (r.1 ≤ o ∧ o < r.2)) then
    (w.quires.idxOf? (n / 2 ^ 26 % 8)).map fun q => (w.lt * 8 + q) * 2 ^ 26 + n % 2 ^ 26
  else none

/-- A byte of the leaves as the variant loads left it (R237): the newest load that covers it gives it by forme, model and
variant, whatever the run or the seat (R20, log entry 14). -/
def State.leafByte (s : State) (a : Nat) : Byte :=
  match s.prs.wloads.findSome? fun w => (w.logical a).map fun l => Config.leafByte w.model w.var l with
  | some v => byte v
  | none => byte (Config.leafByte [] 0 a)

/-- What the history ring of a stack holds at an offset: the newest history sample that the layout puts there. -/
def State.histFind (s : State) (t o : Nat) : Option Byte :=
  (s.ing.hist.find? fun e => e.1 / 8192 == t && decide (Config.histOffset (e.1 % 8192) e.2.1 / 2 = o / 2)).map fun e =>
    byte (e.2.2 / 256 ^ (o % 2))

/-- A byte of the history ring (R144), which holds 16-bit samples in a layout that the manual does not state (log entry 8): the samples
held give it, whatever the run or the seat (R20), and where none is held it is what the ring holds unwritten. A block of 32 samples with a poisoned word reads as absent, 0x8000 each (R173); blocks are taken as aligned to their 64 bytes. -/
def State.histByte (s : State) (a : Nat) : Byte :=
  if s.prs.poison.any fun p => p / 64 == a / 64 then (if a % 2 = 0 then 0 else 0x80)
  else (s.histFind (a / 2 ^ 36) (a % 2 ^ 36)).getD (byte (Config.freeValue (2 ^ 63 + a)))

/-- One byte of Press memory: the history ring, the leaves, which LOAD overwrites byte by byte, and the rest. -/
def State.pbyte (s : State) (a : Nat) : Byte :=
  if a < 2 ^ 40 ∧ a % 2 ^ 36 < 0xB00000000 then s.histByte a
  else if 2 ^ 42 ≤ a then
    match Tab.find s.prs.wmem a with
    | some v => byte v
    | none => s.leafByte a
  else Memory.read s.prs.pmem a

/-- `n` bytes of Press memory from `a`. -/
def State.pbytes (s : State) (a n : Nat) : List Byte := (List.range n).map fun i => s.pbyte (a + i)

/-- `n` bytes as a little-endian number. -/
def State.pnum (s : State) (a n : Nat) : Nat := ofLe (s.pbytes a n)

/-- Changes the Press. -/
def State.prsMod (s : State) (f : Prs → Prs) : State := { s with prs := f s.prs }

/-- Writes bytes from `a` on. -/
def State.pwrite (s : State) (a : Nat) (bs : List Byte) : State :=
  if 2 ^ 42 ≤ a then
    s.prsMod fun p => { p with wmem := (bs.foldl (fun (q : Nat × Tab Nat) b => (q.1 + 1, Tab.put q.2 q.1 b.toNat)) (a, p.wmem)).2 }
  else s.prsMod fun p => { p with pmem := Memory.writes p.pmem a bs }

end Sys2Proof.Machine
end

