-- ==== Sys2Proof/Machine/Forme.lean ====
section
/-!
DEFINITION. The forme container and its load rules (R202 to R211, R229, R234): the bytes of a container read as header,
directory, variants, tensors and sorts; the worst-case cycles; the checks of FORME_COMMIT.
-/
namespace Sys2Proof.Machine

/-! ## Reading a container (R204 to R209) -/

/-- A sort word (R209). -/
def readSort (b : List Byte) : SortW :=
  let w0 := rd b 0 4
  let w1 := rd b 4 4
  let w2 := rd b 8 4
  let w3 := rd b 12 4
  { op := bits w0 0 8, scope := bits w0 8 3, rnd := bits w0 11 1, out := bits w0 12 3, wait := bits w0 15 1,
    a := toS 8 (bits w0 16 8), dst := bits w0 24 8, src1 := bits w1 0 8, src2 := bits w1 8 8, src3 := bits w1 16 8,
    mod := bits w1 24 8, n1 := bits w2 0 16, n2 := bits w2 16 16, seedofs := bits w3 0 16, imm := bits w3 16 16 }

/-- The sorts of a section. -/
def readSorts : Nat → List Byte → List SortW
  | 0, _ => []
  | n + 1, b => readSort b :: readSorts n (b.drop 16)

/-- A tensor descriptor (R207). -/
def readTensor (b : List Byte) : Tensor :=
  { space := rd b 0 1, fmt := rd b 1 1, dist := rd b 2 1, region := rd b 3 1, rows := rd b 4 2, cols := rd b 6 2,
    offset := rd b 8 8, stride := rd b 16 4, nb := rd b 20 1, l := rd b 21 1, p := rd b 22 1, looplvl := rd b 23 1,
    istride := rd b 24 4 }

/-- The descriptors of a section. -/
def readTensors : Nat → List Byte → List Tensor
  | 0, _ => []
  | n + 1, b => readTensor b :: readTensors n (b.drop 32)

/-- A directory entry (R205): type, variant, offset, length, CRC. -/
structure DirE where
  type : Nat
  var : Nat
  rsv : Nat
  offset : Nat
  length : Nat
  crc : Nat
deriving DecidableEq, Repr

/-- The directory. -/
def readDir : Nat → List Byte → List DirE
  | 0, _ => []
  | n + 1, b =>
    { type := rd b 0 2, var := rd b 2 1, rsv := rd b 3 1, offset := rd b 4 4, length := rd b 8 4, crc := rd b 12 4 } ::
      readDir n (b.drop 16)

/-- The bytes of a section. -/
def DirE.body (e : DirE) (b : List Byte) : List Byte := (b.drop e.offset).take e.length

/-- The body of a variant's section of a type. -/
def secOf (dir : List DirE) (b : List Byte) (type v : Nat) : List Byte :=
  match dir.find? fun e => e.type == type && e.var == v with
  | some e => e.body b
  | none => []

/-- Variant `v` of a container. -/
def readVariant (dir : List DirE) (b : List Byte) (v : Nat) : Variant :=
  let k := secOf dir b 1 v
  let t := secOf dir b 2 v
  let q := secOf dir b 3 v
  { svc := rd k 0 1, nq := (List.range 4).map fun i => rd k (2 + i) 1, wcyc := rd k 8 4,
    tensors := readTensors (t.length / 32) t, sorts := readSorts (q.length / 16) q }

/-- The forme of a container. -/
def readForme (b : List Byte) : Forme :=
  let dir := readDir (rd b 12 2) (b.drop 128)
  { kind := rd b 6 1, seedbase := rd b 16 4, fid := rd b 24 4, fver := rd b 28 4, mbytes := rd b 32 4,
    sbytes := rd b 36 4, rbytes := rd b 40 4, digest := (b.drop 64).take 48,
    variants := (List.range (rd b 7 1)).map (readVariant dir b),
    data := (dir.filter fun e => e.type == 4).map fun e => (rd (e.body b) 0 8, (e.body b).drop 8) }

/-! ## Tensors -/

/-- Bits of one element of a format: blocks by width, FIXED, and the 16-bit entries of a LUT. -/
def fmtBits (f : Nat) : Nat := match f with | 4 => 16 | 5 => 32 | 6 => 48 | 7 => 64 | 8 => 16 | f => fmtW f

/-- A block format. -/
def isBlk (f : Nat) : Bool := decide (f ≤ 3)

/-- Bytes of `n` elements of a row, scale bytes included (R208). -/
def rowBytes (f n : Nat) : Nat :=
  if isBlk f then n * fmtW f / 8 + cdiv n 32
  else if f = 7 then 8
  else if f = 8 then 16 + 2 * n
  else n * fmtBits f / 8

/-- The OUT code that writes a format, and back (R209). -/
def outFmt (o : Nat) : Nat := if o ≤ 3 then o + 3 else o - 4

/-- The tensor of a handle. -/
def Variant.tensor (v : Variant) (h : Nat) : Option Tensor := if h = 0xFF then none else v.tensors[h]?

/-- Digits of an operand's format for the rates of R229; a FIXED operand counts its 4-bit digits (log entry 15). -/
def rateD (f : Nat) : Nat := if isBlk f then fmtD f else fmtBits f / 4

/-- Quires used in all. -/
def Variant.quires (v : Variant) : Nat := v.nq.foldl (· + ·) 0

/-- Textblocks used, in logical order. -/
def Variant.used (v : Variant) : List Nat := (List.range 4).filter fun t => (v.nq[t]?).getD 0 != 0

/-- Fewest quires of a textblock used. -/
def Variant.minQ (v : Variant) : Nat := ((v.nq.filter (· != 0)).foldl min 8)

/-! ## Worst-case cycles (R229) -/

/-- Cycles of the release of a barrier of level 1 to 4. -/
def barCycles (l : Nat) : Nat := match l with | 1 => 4 | 2 => 8 | 3 => 24 | _ => 300

/-- t_s of R229. -/
def tScope (l : Nat) : Nat := match l with | 1 => 8 | 2 => 16 | 3 => 40 | _ => 400

/-- The bound on the duration of a sort. -/
def sortCycles (v : Variant) (w : SortW) : Nat :=
  let fm := fun h => match v.tensor h with
    | some t => t.fmt
    | none => 4
  let dist := fun h => match v.tensor h with
    | some t => t.dist
    | none => 3
  let n := w.n1 * w.n2
  let bytes := fun h => w.n1 * rowBytes (fm h) w.n2
  let vol := if w.scope = 4 then 360 else 0
  match w.op with
  | 0x02 => barCycles w.scope
  | 0x08 => 400 + cdiv (bytes w.src1) 256
  | 0x09 => 400 + cdiv (bytes w.src1) 256
  | 0x0A => 8 + cdiv (bytes w.src1) 128 + vol
  | 0x0B => 40 + cdiv (bytes w.dst) 256
  | 0x0C => 200 + cdiv (bytes w.src1) 64
  | 0x10 =>
    let nb := match v.tensor w.src2 with
      | some t => t.nb
      | none => 0
    let c := nb * fmtD (fm w.src1) * fmtD (fm w.src2)
    let c := if fm w.src1 = 0 ∧ fm w.src2 = 0 then cdiv c 2 else c
    16 + w.n1 * c + tScope w.scope + (if w.src3 = 0xFF then 0 else 4 * w.n1)
  | 0x38 =>
    let leaves := match w.scope with | 1 => 16 | 2 => 256 | 3 => 256 * v.minQ | _ => 256 * v.quires
    let k := match v.tensor w.dst with
      | some t => t.cols
      | none => 0
    16 + w.n1 * cdiv (k * w.n2 * rateD (fm w.src1) * rateD (fm w.src2)) (1024 * leaves) + tScope w.scope
  | 0x28 => 16 + cdiv n 16
  | 0x2C => 12 + 2 * w.n1 * cdiv w.n2 32
  | 0x30 =>
    let dv := match v.tensor w.dst with
      | some t => t.cols
      | none => 0
    24 + w.n1 * (40 + cdiv (w.n2 * (bits w.imm 0 8 + dv)) 128 + cdiv w.n2 16)
  | 0x24 => 12 + cdiv n 32 + 24 * (w.scope - dist w.src1) + vol
  | 0x25 => 12 + cdiv n 32 + 24 * (w.scope - dist w.src1) + vol
  | op => if 0x18 ≤ op then 12 + cdiv n 32 else 1

/-- Cycles of the sorts from the front of a list on, loops unrolled, to the first END; `fuel` bounds the nesting. -/
def wcycOf (v : Variant) : Nat → List SortW → Nat
  | 0, _ => 0
  | fuel + 1, ws =>
    match ws with
    | [] => 0
    | w :: t =>
      if w.op = 1 then 1
      else if w.op = 3 then 1 + w.n2 * wcycOf v fuel (t.take w.n1) + wcycOf v fuel (t.drop w.n1)
      else sortCycles v w + wcycOf v fuel t

/-- WCYC of a variant (R206, R229). -/
def Variant.cycles (v : Variant) : Nat := wcycOf v (v.sorts.length + 1) v.sorts

/-! ## The checks of FORME_COMMIT (R234) -/

/-- What an opcode uses (R211): scopes, sources (0 none, 1 needed, 2 optional), destination, counts, OUT range, the bits of
MOD and IMM, exponent A and seed. -/
structure OpSpec where
  scopes : List Nat
  s1 : Nat := 0
  s2 : Nat := 0
  s3 : Nat := 0
  dst : Bool := true
  n : Bool := true
  out : Nat × Nat := (1, 7)
  mod : Nat := 0
  imm : Nat := 0
  num : Bool := true

/-- The rows of R211. -/
def opSpec (op : Nat) : Option OpSpec :=
  match op with
  | 0x00 => some { scopes := [0], dst := false, n := false, out := (0, 0), num := false }
  | 0x01 => some { scopes := [0], dst := false, n := false, out := (0, 0), num := false }
  | 0x02 => some { scopes := [1, 2, 3, 4], dst := false, n := false, out := (0, 0), num := false }
  | 0x03 => some { scopes := [0], dst := false, out := (0, 0), num := false }
  | 0x08 => some { scopes := [0], s1 := 1, out := (0, 0), num := false }
  | 0x09 => some { scopes := [0], s1 := 1, out := (0, 0), num := false }
  | 0x0A => some { scopes := [0, 4], s1 := 1, out := (0, 0), mod := 7, num := false }
  | 0x0B => some { scopes := [0], s2 := 2, out := (0, 0), imm := 0xFF, num := false }
  | 0x0C => some { scopes := [4], s1 := 1, dst := false, out := (0, 0), imm := 0xF, num := false }
  | 0x10 => some { scopes := [1, 2, 3, 4], s1 := 1, s2 := 1, s3 := 2, mod := 1 }
  | 0x18 | 0x19 | 0x1A | 0x1B | 0x1C => some { scopes := [0], s1 := 1, s2 := 2, mod := 3, imm := 0xFFFF }
  | 0x1D => some { scopes := [0], s1 := 1, imm := 0xFFFF }
  | 0x1E => some { scopes := [0], s1 := 1, s2 := 1, s3 := 1, mod := 1 }
  | 0x20 => some { scopes := [0], s1 := 1, s2 := 1 }
  | 0x21 => some { scopes := [0], s1 := 1 }
  | 0x24 | 0x25 => some { scopes := [0, 1, 2, 3, 4], s1 := 1, out := (1, 3), mod := 1 }
  | 0x28 => some { scopes := [0], s1 := 1, s2 := 1, imm := 0xFF }
  | 0x2C => some { scopes := [0], s1 := 1, s2 := 1, s3 := 1, mod := 1 }
  | 0x30 => some { scopes := [0], s1 := 1, s2 := 1, s3 := 1, imm := 0xFFFF }
  | 0x38 => some { scopes := [1, 2, 3, 4], s1 := 1, s2 := 1, out := (3, 3), mod := 1 }
  | 0x39 => some { scopes := [0], s1 := 1, s2 := 1, out := (4, 7), imm := 0xFFFF }
  | _ => none

/-- Bits of `v` outside a mask. -/
def beyond (v mask : Nat) : Bool := v != v &&& mask

/-- A source handle is used as its opcode asks. -/
def srcOk (need h : Nat) : Bool := if need = 0 then h == 0xFF else need == 2 || h != 0xFF

/-- Check 5: the opcode is defined and every field valid for it; unused fields are 0 or 0xFF (R209 to R226). -/
def fieldsOk (w : SortW) : Bool :=
  match opSpec w.op with
  | none => false
  | some o =>
    let immb := 0x18 ≤ w.op ∧ w.op ≤ 0x1C
    o.scopes.contains w.scope && srcOk o.s1 w.src1 && srcOk o.s2 w.src2 && srcOk o.s3 w.src3 &&
    (if o.dst then w.dst != 0xFF else w.dst == 0xFF) && !beyond w.mod o.mod && !beyond w.imm o.imm &&
    decide (o.out.1 ≤ w.out ∧ w.out ≤ o.out.2) && (w.rnd == 0 || decide (4 ≤ w.out)) &&
    (o.num || (w.a == 0 && w.seedofs == 0)) &&
    (if o.n then (w.n1 != 0 && (w.n2 != 0 || w.op == 3)) else w.n1 == 0 && w.n2 == 0) &&
    (if immb then (if bit w.mod 1 then w.src2 == 0xFF else w.src2 != 0xFF && w.imm == 0) else true) &&
    (if w.op = 0x0A ∧ w.scope = 0 then w.mod == 0 else true) &&
    (if w.op = 0x0B then bits w.imm 0 2 != 3 &&
        (if bits w.imm 0 2 = 0 then bits w.imm 2 6 == 0 else if bits w.imm 0 2 = 2 then bits w.imm 3 13 == 0 && decide (w.n2 ≤ 2048)
         else w.n2 % 8 == 0) else true) &&
    (if w.op = 0x0C then [0, 1, 2, 3, 4, 5, 8, 9].contains w.imm && w.n1 == 1 else true) &&
    (if w.op = 0x10 then (w.scope != 1 || w.src3 == 0xFF) && (!bit w.mod 0 || (w.out == 3 && w.src3 == 0xFF)) else true) &&
    (if w.op = 0x30 then decide (bits w.imm 8 8 ≤ 47 ∧ w.n2 ≤ 256) else true)

/-- Values of a galley target (R244). -/
def targetLen (t : Nat) : Nat :=
  match t with
  | 0 => 2048 | 1 => 2048 | 2 => 2000 | 3 => 2000 | 4 => 1600 | 5 => 8 | 8 => 2048 | _ => 2000

/-- A descriptor by itself is sound: no zero where R239 refuses it, a stride that holds the row, the columns of blocks. -/
def tensorOk (t : Tensor) : Bool :=
  decide (1 ≤ t.space ∧ t.space ≤ 4 ∧ t.fmt ≤ 8 ∧ t.dist ≤ 4 ∧ t.region ≤ 4 ∧ t.looplvl ≤ 4) &&
  t.rows != 0 && t.cols != 0 && (!isBlk t.fmt || t.cols % 32 == 0) &&
  (if t.space = 3 then isBlk t.fmt && t.dist == 0 && t.nb != 0 && decide (1 ≤ t.l ∧ t.l ≤ 16 ∧ 1 ≤ t.p ∧ t.p ≤ 16)
   else t.nb == 0 && t.l == 0 && t.p == 0 && t.dist != 0 && decide (rowBytes t.fmt t.cols ≤ t.stride)) &&
  (t.space == 4 || t.region == 0) && (t.space != 1 || t.dist == 1) && (t.space != 2 || decide (2 ≤ t.dist)) &&
  (t.space != 4 || decide (3 ≤ t.dist))

/-- The last byte past an on-chip instance that a tensor may reach. -/
def tensorEnd (t : Tensor) : Nat := t.offset + (t.rows - 1) * t.stride + rowBytes t.fmt t.cols

/-- Participants of a reduction of a product (R212). -/
def mmulParts (v : Variant) (w : SortW) (x : Tensor) : Nat :=
  match w.scope with
  | 1 => x.l
  | 2 => x.l * x.p
  | 3 => x.l * x.p * v.minQ
  | _ => x.l * x.p * v.quires

/-- Channel groups of a product (R212). -/
def mmulGroups (v : Variant) (w : SortW) (x : Tensor) : Nat :=
  match w.scope with
  | 1 => x.p * v.quires
  | 2 => v.quires
  | 3 => v.used.length
  | _ => 1

/-- DIST of the destination of a product or reduction of a scope. -/
def scopeDist (l : Nat) : Nat := if l = 0 then 0 else l

/-- The iterations of the loops around each sort, outermost first (R225): `st` are the loops around sort `i`, innermost first,
each with its end and its count. -/
def loopsOf : List SortW → Nat → List (Nat × Nat) → List (List Nat)
  | [], _, _ => []
  | w :: t, i, st =>
    let st := st.filter (i < ·.1)
    (st.map (·.2)).reverse :: loopsOf t (i + 1) (if w.op = 3 then (i + 1 + w.n1, w.n2) :: st else st)

/-- A tensor at its furthest advance under the loops around a sort (R207, R225). -/
def Tensor.furthest (t : Tensor) (loops : List Nat) : Tensor :=
  if t.looplvl = 0 then t else { t with offset := t.offset + ((loops[t.looplvl - 1]?).getD 1 - 1) * t.istride }

/-- What a sort writes (R212 to R224): each descriptor, with the rows and columns of it. -/
def Variant.written (v : Variant) (w : SortW) : List (Tensor × Nat × Nat) :=
  let main := match v.tensor w.dst with
    | none => []
    | some t =>
      match w.op with
      | 0x24 | 0x25 => [if w.scope ≠ 0 then (t, w.n1, w.n2) else if bit w.mod 0 then (t, w.n1, 1) else (t, 1, w.n2)]
      | 0x30 => [(t, w.n1, t.cols)]
      | 0x38 => [(t, w.n2, t.cols)]
      | _ => [(t, w.n1, w.n2)]
  let side := match w.op with
    | 0x0B => (v.tensor w.src2).map fun t => (t, w.n1, w.n2)
    | 0x2C => (v.tensor w.src3).map fun t => (t, 1, w.n2)
    | _ => none
  main ++ side.toList

/-- The end of what a sort writes of a descriptor at its furthest advance; a block row ends with its scale bytes. -/
def writeEnd (loops : List Nat) (e : Tensor × Nat × Nat) : Nat :=
  (e.1.furthest loops).offset + (e.2.1 - 1) * e.1.stride + rowBytes e.1.fmt (if isBlk e.1.fmt then e.1.cols else e.2.2)

/-- No sort writes the plan input block, the last 256 bytes of the quire buffer of logical quire 0 (R259). -/
def planBlkOk (v : Variant) (i : Nat) (w : SortW) : Bool :=
  let loops := ((loopsOf v.sorts 0 [])[i]?).getD []
  (v.written w).all fun e => e.1.space != 2 || decide (writeEnd loops e ≤ 2 ^ 22 - 256)

/-- A sort reads descriptor `h`: as a source, or as the destination that MMUL with ACC and GOUTER without ZERO add to. -/
def SortW.reads (w : SortW) (h : Nat) : Bool :=
  decide (4 ≤ w.op) && (w.src1 == h || w.src3 == h || (w.src2 == h && w.op != 0x0B) ||
    (w.op == 0x10 && bit w.mod 0 && w.dst == h) || (w.op == 0x38 && !bit w.mod 0 && w.dst == h))

/-- One of the sorts meets `p` before a volume BAR or the END of the stream (R228). -/
def beforeBar (p : SortW → Bool) : List SortW → Bool
  | [] => false
  | w :: t => if (w.op = 2 ∧ w.scope = 4) ∨ w.op = 1 then false else p w || beforeBar p t

/-- The sorts that follow sort `i`: those further on in the stream, and for each loop around it the rest of the body with its part up to
the sort, which the next iteration issues (R225). Bodies of loops of no iteration are never issued. -/
def Variant.followers (v : Variant) (i : Nat) : List (List SortW) :=
  let ls := loopsOf v.sorts 0 []
  let xs := v.sorts.zipIdx.filter fun x => !((ls[x.2]?).getD []).contains 0
  let cut := fun (a b : Nat) => (xs.filter fun x => decide (a ≤ x.2 ∧ x.2 < b)).map (·.1)
  cut (i + 1) v.sorts.length :: ((xs.filter fun x => x.1.op == 3 && decide (2 ≤ x.1.n2 ∧ x.2 < i ∧ i ≤ x.2 + x.1.n1)).map fun x =>
    cut (i + 1) (x.2 + 1 + x.1.n1) ++ cut (x.2 + 1) (i + 1))

/-- No sort provably reads, before a volume BAR, what COPY of SCOPE 4 puts into the memory of another textblock, nor, in another
textblock, the result of a reduction of SCOPE 4 (R228). DESIGN CHOICE (safe): the device proves the read of the same descriptor, of a
variant of two textblocks or more; it refuses with reason 6, as R234 lists none for R228 (log entry 96). -/
def hazardOk (v : Variant) (i : Nat) (w : SortW) : Bool :=
  let read := fun (p : SortW → Bool) => (v.followers i).any (beforeBar p)
  let away := fun (x : SortW) => x.reads w.dst && (v.tensor x.dst).any fun t => t.dist != 4
  if w.scope ≠ 4 ∨ v.used.length < 2 ∨ ((loopsOf v.sorts 0 [])[i]?).any (·.contains 0) then true
  else if w.op = 0x0A then
    !((bit w.mod 2 || v.used.contains (bits w.mod 0 2)) && (v.tensor w.dst).any (fun t => t.dist != 4) && read fun x => x.reads w.dst)
  else if [0x10, 0x24, 0x25, 0x38].contains w.op then !((v.tensor w.dst).any (fun t => t.dist == 4) && read away)
  else true

/-- Check 6: the tensors suit their operands, with the row and column relations of R212 to R224. -/
def tensorsOk (v : Variant) (w : SortW) : Bool :=
  let t1 := v.tensor w.src1
  let t2 := v.tensor w.src2
  let t3 := v.tensor w.src3
  let td := v.tensor w.dst
  let has := fun (h : Nat) (t : Option Tensor) => h == 0xFF || t.any tensorOk
  let onchip := fun (t : Option Tensor) => t.any fun x => x.space == 1 || x.space == 2
  let data := fun (t : Option Tensor) => t.any fun x => decide (x.fmt ≤ 6)
  let fits := fun (t : Option Tensor) (r c : Nat) => t.any fun x => decide (r ≤ x.rows ∧ c ≤ x.cols)
  let fmt := fun (t : Option Tensor) (f : Nat) => t.any fun x => x.fmt == f
  let dist := fun (t : Option Tensor) => match t with
    | some x => x.dist
    | none => 0
  let same := fun (t : Option Tensor) => t.isNone || dist t == dist td
  let outOk := fmt td (outFmt w.out)
  let elem := onchip t1 && data t1 && onchip td && outOk && fits t1 w.n1 w.n2 && fits td w.n1 w.n2 && same t1
  has w.src1 t1 && has w.src2 t2 && has w.src3 t3 && has w.dst td &&
  match w.op with
  | 0x08 => t1.any (·.space == 4) && td.any (fun x => x.space != 4 && fmt t1 x.fmt) && fits t1 w.n1 w.n2 &&
      fits td w.n1 w.n2 && (td.any (·.space == 3) || (same t1 || dist td == 1 || dist td == 2))
  | 0x09 => onchip t1 && td.any (fun x => x.space == 4 && fmt t1 x.fmt) && fits t1 w.n1 w.n2 && fits td w.n1 w.n2 && same t1
  | 0x0A => onchip t1 && onchip td && (td.any fun x => fmt t1 x.fmt) && fits t1 w.n1 w.n2 && fits td w.n1 w.n2 && same t1
  | 0x0B => fmt td 4 && dist td == 3 && fits td w.n1 w.n2 && (w.src2 == 0xFF || (fits t2 w.n1 w.n2 && dist t2 == 3 && data t2))
  | 0x0C => fmt t1 5 && dist t1 == 4 && fits t1 1 w.n2 && w.n2 == targetLen w.imm
  | 0x10 =>
    match t1, t2, td with
    | some x, some y, some z =>
      onchip t1 && isBlk x.fmt && y.space == 3 && isBlk y.fmt && outOk && z.dist == scopeDist w.scope &&
      decide (x.dist = 1 ∨ x.dist = 2) && (w.scope != 3 || v.nq.all fun q => q == 0 || q == v.minQ) &&
      x.cols == mmulParts v w y * y.nb * 32 && y.cols == x.cols && decide (w.n1 ≤ x.rows ∧ w.n1 ≤ z.rows ∧ w.n2 ≤ z.cols ∧
        w.n2 ≤ y.rows ∧ w.n2 ≤ 32 * mmulGroups v w y) && (w.src3 == 0xFF || (fmt t3 7 && onchip t3 && decide (dist td ≤ dist t3) && fits t3 w.n2 1))
    | _, _, _ => false
  | 0x18 | 0x19 | 0x1A | 0x1B | 0x1C =>
    elem && (w.src2 == 0xFF || (onchip t2 && data t2 && same t2 && fits t2 (if bit w.mod 0 then 1 else w.n1) w.n2))
  | 0x1D => elem
  | 0x1E =>
    let r := if bit w.mod 0 then 1 else w.n1
    elem && data t2 && data t3 && same t2 && same t3 && fits t2 r w.n2 && fits t3 r w.n2
  | 0x20 => elem && fmt t1 6 && fmt t2 7 && fits t2 w.n2 1 && same t2
  | 0x21 => elem
  | 0x24 | 0x25 =>
    onchip t1 && data t1 && onchip td && outOk && fits t1 w.n1 w.n2 &&
    (if w.scope = 0 then same t1 && (if bit w.mod 0 then fits td w.n1 1 else fits td 1 w.n2)
     else fits td w.n1 w.n2 && decide (dist t1 ≤ w.scope) && dist td == max w.scope (dist t1))
  | 0x28 => elem && fmt t2 8 && same t2
  | 0x2C => elem && fmt t2 4 && fits t2 1 w.n2 && fmt t3 6 && fits t3 1 w.n2 && (t3.any (·.space == 2)) && same t2 && same t3
  | 0x30 =>
    let dk := bits w.imm 0 8
    onchip t1 && data t1 && data t2 && fmt t3 8 && onchip td && outOk && fits t1 w.n1 dk &&
    (match t2, td with
     | some x, some z => decide (dk + z.cols ≤ x.cols ∧ w.n2 ≤ x.rows ∧ w.n1 ≤ z.rows) &&
         (match x.fmt with
          | 6 => decide (w.n2 * 2 ^ 15 * 2 ^ 47 ≤ 2 ^ 79)
          | _ => true)
     | _, _ => false) && same t1 && same t2 && same t3
  | 0x38 =>
    match t1, t2, td with
    | some x, some y, some z =>
      data t1 && data t2 && x.space != 3 && y.space != 3 && z.fmt == 6 && x.cols == z.cols && decide (w.n1 ≤ x.rows ∧ w.n1 ≤ y.rows ∧ w.n2 ≤ y.cols ∧ w.n2 ≤ z.rows) &&
      (let units := match w.scope with | 1 => 16 | 2 => 256 | 3 => 256 * v.minQ | _ => 256 * v.quires
       decide (w.n1 < units) || (w.n1 % units == 0 && w.n1 / units == 2 ^ Nat.log2 (w.n1 / units)))
    | _, _, _ => false
  | 0x39 => elem && t1.any (fun x => isBlk x.fmt) && fmt t2 6 && fits t2 w.n1 w.n2 && same t2
  | _ => true

/-- Hierarchy levels that a service code has (R163): Q ends at the quire, T at the textblock. -/
def levelsOf (svc : Nat) : Nat := if svc = 1 then 2 else if svc = 2 then 3 else 4

/-- Check 7: no level beyond the variant's hierarchy, nor one that the configured hierarchy removes (R164). EMIT, though of
SCOPE 4, uses the spine to the galley, which no configuration removes (R163). -/
def levelOk (cfg : Nat) (v : Variant) (w : SortW) : Bool :=
  w.op == 0x0C || (decide (w.scope ≤ levelsOf v.svc) && decide (w.scope ≤ levelsOf cfg))

/-- Check 8: writes of DRAM lie in scratch and reserve (R176), as far as the offsets of the forme show before its areas are
placed; a TRAIN forme may also write its model area, where the work area of its training plan lies (R272, R278): whether the
plan gives it that is known only when it runs. DESIGN CHOICE (safe): R176 alone would refuse every step forme (log entry 96). -/
def dramOk (kind : Nat) (v : Variant) (i : Nat) (w : SortW) : Bool :=
  let loops := ((loopsOf v.sorts 0 [])[i]?).getD []
  (v.written w).all fun e => e.1.space != 4 ||
    ((e.1.region == 3 || e.1.region == 4 || (kind == 2 && e.1.region == 2)) && decide (writeEnd loops e ≤ regionSize e.1.region))

/-- Check 9: a product that chains by ACC has the exponent of the last sort that wrote its destination (R193, R214); a move of
data states no exponent. -/
def accOk (v : Variant) (i : Nat) (w : SortW) : Bool :=
  if w.op = 0x10 ∧ bit w.mod 0 then
    match (v.sorts.take i).reverse.find? fun x => x.dst == w.dst with
    | some x => x.a == w.a || !(opSpec x.op).any (·.num)
    | none => true
  else true

/-- The first sort that breaks the nesting of loops: a loop beyond depth 4, past the END or the stream, or past the loop
around it, or an END within a loop (R225). `ends` are the ends of the loops around sort `i`, innermost first. -/
def nestBad : List SortW → Nat → List Nat → Option Nat
  | [], _, _ => none
  | w :: t, i, ends =>
    let ends := ends.filter (i < ·)
    if w.op = 3 then
      let e := i + 1 + w.n1
      if ends.length < 4 ∧ w.n1 ≤ t.length ∧ (ends.head?.all fun f => decide (e ≤ f)) then nestBad t (i + 1) (e :: ends)
      else some i
    else if w.op = 1 then (if ends.isEmpty then none else some i)
    else nestBad t (i + 1) ends

/-- Check 10: a tensor fits the memory of its units. -/
def sizeOk (t : Tensor) : Bool :=
  match t.space with
  | 1 => decide (tensorEnd t ≤ 262144)
  | 2 => decide (tensorEnd t ≤ 4194304)
  | 3 => decide (t.offset + t.nb ≤ 512 / fmtW t.fmt)
  | _ => decide (tensorEnd t ≤ 2 ^ 36)

/-- Check 10 at a sort: the tensors that it names fit at their furthest advance under its loops. -/
def reachOk (v : Variant) (i : Nat) (w : SortW) : Bool :=
  let loops := ((loopsOf v.sorts 0 [])[i]?).getD []
  [w.src1, w.src2, w.src3, w.dst].all fun h => match v.tensor h with
    | some t => sizeOk (t.furthest loops)
    | none => true

/-- No zero where R239 refuses one, in a descriptor that no sort names too. -/
def shapeOk (t : Tensor) : Bool :=
  t.rows != 0 && t.cols != 0 && (t.space != 3 || (t.nb != 0 && t.l != 0 && t.p != 0))

/-- Check 14: the sort may stand in a forme of the kind (R202, R221, R224). -/
def kindOk (kind : Nat) (w : SortW) : Bool :=
  match w.op with
  | 0x38 | 0x39 => decide (2 ≤ kind)
  | 0x0B => bits w.imm 0 2 != 2 || decide (2 ≤ kind)
  | 0x0C =>
    match kind with
    | 0 => decide (w.imm ≤ 3)
    | 1 => w.imm == 4 || w.imm == 5
    | 2 => w.imm == 8 || w.imm == 9
    | _ => false
  | _ => true

/-- The first sort of the variants that a check fails on: variant and index. -/
def firstBad (f : Forme) (p : Variant → Nat → SortW → Bool) : Option (Nat × Nat) :=
  (f.variants.zipIdx.flatMap fun v => v.1.sorts.zipIdx.filterMap fun w =>
    if p v.1 w.2 w.1 then none else some (v.2, w.2)).head?

/-- A refusal of FORME_COMMIT: reason, index, variant. -/
abbrev Refused := Nat × Nat × Nat

/-- Checks 1 to 3 on the bytes of the container (R204, R205). -/
def containerCheck (b : List Byte) : Option Refused :=
  let nvar := rd b 7 1
  let nsec := rd b 12 2
  let dir := readDir nsec (b.drop 128)
  if rd b 0 4 ≠ 0x4D524F46 ∨ rd b 4 2 ≠ 1 ∨ 3 < rd b 6 1 ∨ rd b 8 4 ≠ b.length ∨ rd b 124 4 ≠ crc32 (b.take 124) then
    some (1, 0, 0)
  else if (b.drop 64).take 48 ≠ sha384 (b.drop 128) then some (2, 0, 0)
  else if nvar = 0 ∨ 16 < nvar ∨ nsec = 0 ∨ 256 < nsec ∨ b.length < 128 + 16 * nsec then some (3, 0, 0)
  else
    match dir.zipIdx.find? fun e => !(decide (1 ≤ e.1.type ∧ e.1.type ≤ 4) && e.1.rsv == 0 && e.1.offset % 8 == 0 &&
        decide (e.1.offset + e.1.length ≤ b.length) && crc32 (e.1.body b) == e.1.crc &&
        (if e.1.type = 4 then e.1.var == 0 && decide (8 ≤ e.1.length) else decide (e.1.var < nvar)) &&
        (e.1.type != 1 || e.1.length == 16) && (e.1.type != 2 || e.1.length % 32 == 0)) with
    | some e => some (3, e.2, 0)
    | none =>
      match (List.range nvar).find? fun v => [1, 2, 3].any fun t => (dir.countP fun e => e.type == t && e.var == v) != 1 with
      | some v => some (3, 0, v)
      | none =>
        match (List.range nvar).find? fun v => let n := (secOf dir b 3 v).length
            n == 0 || n % 16 != 0 with
        | some v => some (4, 0, v)
        | none => none

/-- Checks 4 to 14 on the forme, under the configured hierarchy `cfg`. -/
def formeCheck (cfg : Nat) (f : Forme) : Option Refused :=
  let bad := fun (r : Nat) (p : Variant → Nat → SortW → Bool) => (firstBad f p).map fun x => (r, x.2, x.1)
  let vbad := fun (r : Nat) (p : Variant → Bool) => (f.variants.zipIdx.find? fun v => !p v.1).map fun v => (r, 0, v.2)
  let nest := (f.variants.zipIdx.filterMap fun v => (nestBad v.1.sorts 0 []).map fun i => (10, i, v.2)).head?
  (vbad 4 fun v => v.sorts.any fun w => w.op == 1)
  <|> (bad 5 fun _ _ w => fieldsOk w)
  <|> (vbad 6 fun v => v.tensors.all shapeOk)
  <|> (bad 6 fun v i w => tensorsOk v w && planBlkOk v i w && hazardOk v i w)
  <|> (vbad 7 fun v => decide (1 ≤ v.svc ∧ v.svc ≤ 5))
  <|> (bad 7 fun v _ w => levelOk cfg v w)
  <|> (bad 8 fun v i w => dramOk f.kind v i w)
  <|> (bad 9 fun v i w => accOk v i w)
  <|> (vbad 10 fun v => v.tensors.all sizeOk && decide (v.tensors.length ≤ 255) && v.nq.all fun q => decide (q ≤ 8))
  <|> (bad 10 reachOk)
  <|> nest

/-- Checks 12 to 14. -/
def formeCheck2 (f : Forme) : Option Refused :=
  let keys := f.variants.map fun v => (v.svc, v.nq)
  ((f.variants.zipIdx.find? fun v => (keys.take v.2).contains (v.1.svc, v.1.nq)).map fun v => (12, 0, v.2))
  <|> ((f.variants.zipIdx.find? fun v => v.1.cycles != v.1.wcyc).map fun v => (13, 0, v.2))
  <|> ((firstBad f fun _ _ w => kindOk f.kind w).map fun x => (14, x.2, x.1))

/-- A variant serves a hierarchy with all its units (check 15, R166). -/
def Variant.serves (v : Variant) (cfg : Nat) (quires : List Nat) : Bool :=
  v.svc == cfg && (List.range 4).all fun t => decide ((v.nq[t]?).getD 0 ≤ (quires[t]?).getD 0)

/-- The quires of a configured hierarchy with all its units in service. -/
def fullQuires (cfg : Nat) : List Nat :=
  (List.range 4).map fun t => if t < svcTbs cfg then (if cfg = 1 then 1 else 8) else 0

/-- First fit: the lowest multiple of 64 at which `n` bytes lie free of the intervals taken, within `size` (log entry 16). -/
def firstFit (size n : Nat) (taken : List (Nat × Nat)) : Option Nat :=
  let cands := 0 :: taken.map fun i => cdiv (i.1 + i.2) 64 * 64
  let okc := cands.filter fun a => decide (a + n ≤ size) && taken.all fun i => decide (a + n ≤ i.1 ∨ i.1 + i.2 ≤ a) || i.2 == 0
  match okc with
  | [] => none
  | a :: t => some (t.foldl min a)

end Sys2Proof.Machine
end

