-- ==== Sys2Proof/Machine/Operands.lean ====
section
/-!
DEFINITION. The operand forms of a command: the checks that every descriptor passes before its command acts, in the order
of R607, and the ways a command answers.
-/
namespace Sys2Proof.Machine

/-- What a command does with its buffer. -/
inductive Buf
  /-- It takes none: LEN is 0 (R119). -/
  | none
  /-- It reads the buffer. -/
  | reads
  /-- It writes the buffer. -/
  | writes
deriving DecidableEq, Repr

/-- What the owning chapter states of a command for the checks of R607: its least level, whether a standby seat refuses
it, its buffer, the lengths it takes, and the operand ranges that hold whatever the device's state. -/
structure CmdInfo where
  priv : Nat
  standby : Bool := false
  buf : Buf := .none
  lenOk : Nat → Bool := fun _ => true
  parOk : Bool := true

/-- The answer of a command: the state after it, and its completion; `status` none means that it completes later. -/
structure Reply where
  s : State
  status : Option Nat := some 0
  done : Nat := 0
  result : Nat := 0
  data : List Byte := []

/-- Completes OK. -/
def ok (s : State) : Reply := { s := s }

/-- Completes OK with a RESULT. -/
def okR (s : State) (result : Nat) : Reply := { s := s, result := result % 2 ^ 32 }

/-- Completes OK after a buffer of `n` bytes has been consumed. -/
def okN (s : State) (n : Nat) : Reply := { s := s, done := n }

/-- Completes STAGED with the change number (R110). -/
def staged (s : State) (chg : Nat) : Reply := { s := s, status := some 2, result := chg }

/-- Completes with an error status. -/
def bad (s : State) (status : Nat) : Reply := { s := s, status := some status }

/-- Completes REFUSED with a reason code (R111). -/
def refuse (s : State) (reason : Nat) : Reply := { s := s, status := some 0x1E, result := reason }

/-- Writes an image of `n` bytes to the buffer; DONE = n. -/
def image (s : State) (n : Nat) (b : List Byte) : Reply := { s := s, done := n, data := fit n b }

/-- The status of the first check of R607 that fails, or none. `cls` is the class the opcode is valid on. -/
def State.check (s : State) (r cls : Nat) (d : Desc) (i : CmdInfo) : Option Nat :=
  if s.get (Reg.HST_RCFG_CLASS r) ≠ cls then some 0x10
  else if s.get (Reg.HST_RCFG_PRIV r) < i.priv then some 0x11
  else if s.standby ∧ i.standby then some 0x18
  else if 2 ≤ d.flags ∨ d.rsv ≠ 0 ∨ !i.parOk ∨ (i.buf = .none ∧ d.len ≠ 0) then some 0x14
  else if i.buf = .none then none
  else if d.len = 0 then some 0x01
  else if !i.lenOk d.len then some 0x12
  else if d.addr = 0 then some 0x13
  else if i.buf = .reads ∧ d.buf = none then some 0x13
  else none

/-- The descriptor is the next one of its ring (R113): the first of those fetched from its head on and not begun. -/
def State.atFront (s : State) (r op : Nat) (d : Desc) : Bool := (s.ring r).fetched.head? == some (op, d)

/-- A ring begins a descriptor: it leaves the queue of descriptors fetched and not begun. -/
def State.beginDesc (s : State) (r op : Nat) (d : Desc) : State :=
  s.ringMod r fun x => { x with fetched := x.fetched.erase (op, d), busy := true }

/-- A command that began earlier completes now, and its ring goes on to the next descriptor. -/
def State.completeLate (s : State) (r op : Nat) (d : Desc) (status done result : Nat) : State :=
  let s := (s.completeNow r op d status done result).ringGoes r
  s.fencesOver s.hst.fences.length

/-- The answer of a command reaches the host: the buffer first, then the completion (R113). A buffer whose write fails completes
BADADDR (R607). -/
def Reply.finish (a : Reply) (r op : Nat) (d : Desc) : State :=
  match a.status with
  | none => a.s
  | some st =>
    if a.data.isEmpty then a.s.completeLate r op d st a.done a.result
    else if d.buf = none then a.s.completeLate r op d 0x13 0 0
    else (a.s.dmaOut d.addr a.data).completeLate r op d st a.done a.result

/-- One command of a ring of class `cls`: the checks of R607, then its body. A ring that is not enabled, is in error, has not
finished its previous command, or has not fetched this descriptor as its next one begins nothing (R113), nor does any ring while
memory requests are off (R84); while the management firmware restarts no CMD ring begins anything (R59). -/
def State.cmdOn (s : State) (cls r op : Nat) (d : Desc) (i : CmdInfo) (body : State → Reply) : State :=
  if !s.ringLive r || (s.ring r).busy || (cls == 0 && s.glb.mgmtDown) || !s.dmaOn || !s.atFront r op d then s
  else
    let s := s.beginDesc r op d
    match s.check r cls d i with
    | some st => (bad s st).finish r op d
    | none => (body s).finish r op d

/-- One command of a CMD ring. -/
def State.cmd (s : State) (r op : Nat) (d : Desc) (i : CmdInfo) (body : State → Reply) : State :=
  s.cmdOn 0 r op d i body

/-- The bytes that a command read from its buffer. -/
def bufBytes (d : Desc) : List Byte := (d.buf.getD []).take d.len

end Sys2Proof.Machine
end

