-- ==== Sys2Proof/Machine/RegRead.lean ====
section
/-!
DEFINITION. What a register of BAR0 reads as (R8, R12, R587, R588): the fields of its row, and for a register that mirrors
other state or counts it, that state. A read here has no side effect; the clearing of an RC field is the command
REGISTER_READ_CLEAR.
-/
namespace Sys2Proof.Machine

/-- The row of the register at `off`, when there is one. -/
def regRow (off : Nat) : Option RegRow :=
  regTable.find? fun r => decide (r.addr ≤ off ∧ (off - r.addr) % r.stride = 0 ∧ (off - r.addr) / r.stride < r.count)

/-- The reset value of a field whose entries do not all reset alike (R333, R355, R387). -/
def resetAt (off lo idx d : Nat) : Nat :=
  if off = 0x40044 then (Reg.STL_OLTAU idx).reset
  else if off = 0x40048 then (Reg.STL_OLLIM idx).reset
  else if off = 0x40084 ∧ lo = 4 then (Reg.STL_PSTAT_ROLE idx).reset
  else if 0x60060 ≤ off ∧ off ≤ 0x60070 ∧ lo = 0 then (Reg.FEN_NOTCH_BASE ((off - 0x60060) / 4)).reset
  else if 0x60060 ≤ off ∧ off ≤ 0x60070 ∧ lo = 8 then (Reg.FEN_NOTCH_GROUP ((off - 0x60060) / 4)).reset
  else d

/-- The home of a field of a row, for the register at `off` and the window entry `idx`. -/
def RField.home (f : RField) (row : RegRow) (off idx : Nat) : Fld :=
  { key := fieldKey (off - f.back) (if f.back = 0 then f.lo else 0) (if row.windowed then idx else 0),
    width := f.full, reset := resetAt off f.lo idx f.reset }

/-- The register at `off` as its stored fields give it; 0 where no register lies (R12). WO fields read 0 (R8). -/
def State.stored (s : State) (off idx : Nat) : Nat :=
  match regRow off with
  | none => 0
  | some row =>
    row.fields.foldl (fun a f =>
      if f.acc = .wo then a else a + bits (s.get (f.home row off idx)) f.sh f.width * 2 ^ f.lo) 0

/-- `v` with bits [lo + w - 1 : lo] replaced. -/
def putBits (v lo w x : Nat) : Nat := v - bits v lo w * 2 ^ lo + x % 2 ^ w * 2 ^ lo

/-- The number that the bits p 0, p 1, ... p (n - 1) spell, bit 0 first. -/
def packBits (n : Nat) (p : Nat → Bool) : Nat := (List.range n).foldl (fun a j => a + b2n (p j) * 2 ^ j) 0

/-- The schedule entries that are held: those that ended more than 16 s ago are free (R136). -/
def State.schedHeld (s : State) : List SchedE :=
  s.ing.sched.filter fun f => match f.stop with
    | some t => decide (s.time ≤ t + 16000000000)
    | none => true

/-- Mirrors and counts of the HST block. DESIGN CHOICE (unsafe): HST_SSTAT.LAG of a BOUND stream, which has no stream time yet (R131, R132),
counts from shelf time 0 (log entry 93). -/
def State.mirrorHst (s : State) (off idx v : Nat) : Nat :=
  if off = 0x10008 then putBits v 9 1 (b2n s.token)
  else if off = 0x1003C then putBits v 4 1 (b2n (s.on (Reg.HST_RSTAT_EN idx) && s.on (Reg.HST_RCFG_SHADOW idx) && s.standby))
  else if off = 0x10084 then
    match s.hst.ptmLast with
    | none => v
    | some t => putBits v 16 16 (satU 16 ((s.time - t) / 1000000))
  else if off = 0x1010C then (s.ing.streams.countP fun e => e.2.state != 0) + (s.ing.streams.countP fun e => e.2.state == 2) * 65536
  else if off = 0x10110 then s.schedHeld.length
  else if 0x14000 ≤ off ∧ off < 0x1C000 then
    match Tab.find s.ing.streams ((off - 0x14000) / 4) with
    | none => 0xFFFF0000
    | some x => x.state + b2n x.unanch * 8 + b2n x.pooled * 16 + b2n x.held * 32 + x.tb * 64 +
        satU 16 ((s.time - x.time) / 1000) * 65536
  else if 0x11000 ≤ off ∧ off < 0x11800 then
    packBits 32 fun j => s.on (Reg.HST_RSTAT_EN ((off - 0x11000) / 4 * 32 + j))
  else if 0x12000 ≤ off ∧ off < 0x12800 then
    packBits 32 fun j => s.on (Reg.HST_RSTAT_ERR ((off - 0x12000) / 4 * 32 + j))
  else v

/-- Mirrors and counts of the ERA block (R487). -/
def State.mirrorEra (s : State) (off idx v : Nat) : Nat :=
  if off = 0x80008 then
    putBits (putBits (putBits v 1 1 (b2n s.degraded)) 8 8 (satU 8 s.era.injections.length)) 16 16
      (s.era.dets.countP fun e => e.2.status)
  else if off = 0x8001C then
    let i := detInfo idx
    putBits (putBits (putBits (putBits v 0 2 (s.baseClass idx)) 2 2 i.cls) 4 1 (b2n i.level)) 5 1 (b2n i.spare)
  else if 0x80100 ≤ off ∧ off < 0x80130 then packBits 32 fun j => (s.det ((off - 0x80100) / 4 * 32 + j)).status
  else if 0x80140 ≤ off ∧ off < 0x80170 then packBits 32 fun j => (s.det ((off - 0x80140) / 4 * 32 + j)).cause
  else if 0x80180 ≤ off ∧ off < 0x801B0 then
    packBits 32 fun j => s.era.injections.any fun x => x.det == (off - 0x80180) / 4 * 32 + j
  else v

/-- Mirrors and counts of the COL block (R539). -/
def State.mirrorCol (s : State) (off idx v : Nat) : Nat :=
  if off = 0x90008 then
    putBits (putBits (putBits (putBits v 0 1 (b2n (decide (s.col.openBytes ≠ 0)))) 1 1 (b2n s.col.committing)) 8 8
      (s.col.triggers.countP fun e => e.2.en)) 16 16 (s.col.openBytes / 1024)
  else if off = 0x9001C then
    let t := Tab.get s.col.triggers idx {}
    t.kind + b2n t.en * 16 + b2n (s.col.captures.any fun c => c.trig == idx) * 32 + t.sels.length * 65536
  else if 0x90140 ≤ off ∧ off < 0x901A0 then
    let first : Option Nat := match (off - 0x90100) / 32 with
      | 2 => s.col.log.head?.map fun e => e.seq
      | 3 => s.col.slugs.head?.map fun e => e.seq
      | _ => s.col.snaps.head?.map fun e => e.1
    let pages := match (off - 0x90100) / 32 with
      | 2 => cdiv s.col.posLog 63 * 100 / 65536
      | 3 => cdiv s.col.posSlug 126 * 100 / 16384
      | _ => cdiv s.col.posSnap 4032 * 100 / 163840
    match off % 32 with
    | 0 => putBits v 8 8 (min 100 pages)
    | 4 => first.getD 0 % 2 ^ 32
    | 8 => first.getD 0 / 2 ^ 32
    | _ => v
  else v

/-- Mirrors of the GLB block (R600). -/
def State.mirrorGlb (s : State) (off v : Nat) : Nat :=
  if off = 0x28 then s.waitCond
  else if off = 0x34 then
    v % 256 + b2n s.token * 256 + b2n s.halted * 512 + b2n s.degraded * 1024 + s.get Reg.CHS_STAT_LAW * 2048 +
      b2n (decide (s.get Reg.PRS_GAL_STAT_BLIND ≠ 0)) * 4096 + b2n (decide (s.get Reg.FEN_GRP_STAT_MODE = 3)) * 8192 +
      s.get Reg.CHS_RMP_STAT_BREACH * 16384 + s.get Reg.HST_ING_STAT_LOST * 32768 +
      s.get Reg.COL_STAT_UNCLEAN * 65536 + b2n s.upd.plan.isSome * 131072
  else if off = 0x3C then putBits (putBits v 4 4 (s.get Reg.PRS_STAT_SVC)) 12 1 (s.get Reg.PRS_STAT_CHG)
  else if off = 0x80 then
    -- a textblock whose stack is in self-refresh reads 0 (R598)
    (List.range 4).foldl (fun v t =>
      if s.on Reg.GLB_BOOTSTAT_PRESS && s.get (Reg.PRS_TB_STAT_STATE t) == 0 then putBits v t 1 0 else v) v
  else if off = 0x88 then packBits 13 fun k => !(s.det (detN 1 k)).cause
  else v

/-- Mirrors of the BUP block: the cells and nodes of the rings (R444). -/
def State.mirrorBup (s : State) (off v : Nat) : Nat :=
  if 0x51000 ≤ off ∧ off < 0x53000 then
    let i := off % 0x800 / 4
    if 384 ≤ i then v
    else
      let n := Tab.get (Tab.get s.bup.rings ((off - 0x51000) / 0x800) {}).nodes (i / 16 + 1) {}
      match n.cells[i % 16]? with
      | none => v
      | some c => c.v % 65536 + 65536 * b2n c.valid + 131072 * b2n c.taint + 262144 * b2n c.wire + 524288 * b2n c.deriv +
          1048576 * b2n c.impl + 2097152 * b2n c.noisy + 16777216 * (c.snap % 256)
  else if 0x53000 ≤ off ∧ off < 0x53400 then
    let k := off % 0x100 / 4
    if 72 ≤ k then v
    else
      let n := Tab.get (Tab.get s.bup.rings ((off - 0x53000) / 0x100) {}).nodes (k / 3 + 1) {}
      match k % 3 with
      | 0 => n.sum + 1024 * b2n n.fault + 2048 * b2n n.lost + 4096 * b2n n.isEnd + 65536 * n.balon
      | 1 => (n.temp[0]?).getD 0 + 65536 * (n.temp[1]?).getD 0
      | _ => n.fw
  else v

/-- Mirrors of the PRS block (R179, R242). -/
def State.mirrorPrs (s : State) (off v : Nat) : Nat :=
  let xs := s.prs.slots.map (·.2)
  if off = 0x21004 then
    v / 65536 * 65536 + min 7 (xs.countP fun x => x.en && x.chosen && x.kindIs 0) +
      8 * b2n (xs.any fun x => x.en && x.chosen && x.kindIs 1) + 16 * b2n (xs.any fun x => x.code == 1) +
      32 * b2n (xs.any fun x => x.code == 2) + 64 * b2n (xs.any fun x => x.en && x.code == 4)
  else if 0x24000 ≤ off ∧ off < 0x25000 then
    let x := s.slotX ((off - 0x24000) / 16)
    let f := fun (g : Forme → Nat) => match x.forme with
      | some y => g y
      | none => 0
    match off % 16 / 4 with
    | 0 => x.code + 8 * b2n x.en + 16 * f (·.kind) + 256 * x.var.getD 0 + 65536 * (x.chg % 65536)
    | 1 => x.wcyc
    | 2 => f (·.fid)
    | _ => f (·.fver)
  else if 0x20100 ≤ off ∧ off < 0x20200 then
    let t := (off - 0x20100) / 64
    match off % 64 with
    | 0 => putBits (putBits v 2 1 (s.get Reg.PRS_STAT_QUIESCED)) 8 2 ((s.glb.mrRes[t]?).getD 0)
    | 8 => putBits (putBits v 0 8 (s.leavesLeft t)) 8 4 (s.foliosLeft t)
    | _ => v
  else v

/-- Mirrors of the CHS block (R331, R415). CHS_STAT.OPEN counts every open loop from stage CHASE on. -/
def State.mirrorChs (s : State) (off idx v : Nat) : Nat :=
  let n := idx % 256
  let x := Tab.get s.chs.loops n {}
  let isOpen := fun (k : Nat) => (Tab.get s.chs.loops k {}).isOpen
  let fe := fun (k : Nat) => bit (s.get (Reg.CHS_FESUM (k / 32))) (k % 32)
  if off = 0x30004 then
    v % 64 + 64 * bits v 6 2 + 256 * ((List.range 18).countP fun u => (s.unit 5 u).st == 0) +
      8192 * ((List.range 18).countP fun u => (s.unit 5 u).st == 1) + 65536 * (if s.glb.chaseUp then (List.range 166).countP isOpen else 0)
  else if off = 0x3002C then
    match s.chs.lists.find? fun l => l.done ≠ 0 || l.back.isSome with
    | some l => s.chs.lists.length + 256 * (l.done - 1) + 4096 * (l.steps.length % 16) + 65536 * (l.st.no % 65536)
    | none => s.chs.lists.length
  else if off = 0x3004C then putBits v 8 8 ((List.range 166).countP fe)
  else if off = 0x30084 then
    b2n x.isOpen + 2 * x.act + 4 * b2n x.sat + 8 * b2n (fe n) + 16 * b2n (s.inSvc n) + 32 * b2n x.hold + 65536 * x.fecnt
  else if off = 0x300A4 then ofS 32 x.u
  else if off = 0x300A8 then ofS 32 x.e
  else if off = 0x300AC then ofS 64 x.x % 2 ^ 32
  else if off = 0x300B0 then ofS 64 x.x / 2 ^ 32
  else if 0x30120 ≤ off ∧ off < 0x30138 then
    packBits 32 fun j => decide ((off - 0x30120) / 4 * 32 + j < 166) && isOpen ((off - 0x30120) / 4 * 32 + j)
  else v

/-- Mirrors of the STL block (R361); STL_OLTAU reads clamped to its range. -/
def State.mirrorStl (s : State) (off v : Nat) : Nat :=
  let st := fun q => s.get (Reg.STL_PSTAT_STATE q)
  if off = 0x40044 then min 60000 (max 10 v)
  else if off = 0x40008 then
    putBits (putBits v 8 8 ((List.range 156).countP fun q => s.get (Reg.STL_PSTAT_ROLE q) == 2)) 16 8
      ((List.range 156).countP fun q => st q == 7)
  else if 0x40100 ≤ off ∧ off < 0x40114 then
    packBits 32 fun j => decide ((off - 0x40100) / 4 * 32 + j < 156) &&
      s.get (Reg.STL_PSTAT_ROLE ((off - 0x40100) / 4 * 32 + j)) == 1
  else v

/-- Mirrors of the ROS block (R514). -/
def State.mirrorRos (s : State) (off v : Nat) : Nat :=
  if off = 0x70008 then
    putBits (putBits (putBits (putBits v 1 1 (b2n s.token)) 10 3 (min 4 (min s.ros.rRun s.ros.bRun))) 13 1
      (b2n s.ros.hand.isSome)) 14 1 (b2n s.ros.prove.isSome)
  else v

/-- An image slot: an absent one is as delivered (R540), slot A active and slot B empty. -/
def State.img (s : State) (t k : Nat) : ImgSlot := Tab.get s.upd.slots (2 * t + k) { st := if k = 0 then 3 else 0 }

/-- The version in an image header (R542). -/
def imgVer (h : List Byte) : Nat := rd h 16 4

/-- The active slot of a type, 0 A or 1 B. -/
def State.activeSlot (s : State) (t : Nat) : Nat := if (s.img t 0).st = 3 then 0 else 1

/-- A version lies within entry `t` of a header; 0 to 0 places no limit (R543). -/
def within (h : List Byte) (t v : Nat) : Bool :=
  let lo := rd h (40 + 8 * (t - 1)) 4
  let hi := rd h (44 + 8 * (t - 1)) 4
  (lo == 0 && hi == 0) || decide (lo ≤ v ∧ v ≤ hi)

/-- A ring node's firmware lies outside the compatibility table of the active images (R74). -/
def State.fwOut (s : State) (n : NodeX) : Bool :=
  n.fw != 0 && [1, 2, 3, 4, 6].any fun t => !within (s.img t (s.activeSlot t)).hdr 5 n.fw

/-- The active version of a type; of type 5 the lowest version running on any node (R562). -/
def State.version (s : State) (t : Nat) : Nat :=
  if t = 5 then
    let vs := (List.range 4).flatMap fun st => (Tab.get s.bup.rings st {}).nodes.map fun e => e.2.fw
    (vs.min?).getD (imgVer (s.img 5 (s.activeSlot 5)).hdr)
  else imgVer (s.img t (s.activeSlot t)).hdr

/-- Mirrors of the UPD block (R562). -/
def State.mirrorUpd (s : State) (off v : Nat) : Nat :=
  if off = 0xA0008 then
    let p := match s.upd.plan with
      | none => 0
      | some p => if p.rolling then 3 else if p.soak.isSome then 2 else 1
    let run := s.upd.plan.bind fun p => p.steps.find? fun x => x.st == 1
    v / 4096 % 16 * 4096 + p + 4 * (match run with
      | some x => x.type
      | none => 0) + 32 * b2n (run.any fun x => x.peer) +
      64 * packBits 6 (fun j => (Tab.find s.upd.sess (j + 1)).isSome) +
      65536 * ((s.upd.nextPlan - 1) % 65536)
  else if 0xA0020 ≤ off ∧ off < 0xA0038 then s.version ((off - 0xA0020) / 4 + 1)
  else if 0xA0040 ≤ off ∧ off < 0xA0058 then
    let t := (off - 0xA0040) / 4 + 1
    let (src, r) := match Tab.find s.upd.sess t with
      | none => (0, 0)
      | some x => match x.src with
        | .ring r => (1, r)
        | .peer => (2, 0)
        | .flyleaf => (3, 0)
    (s.img t 0).st + 8 * (s.img t 1).st + 256 * src + 65536 * r
  else v

/-- Counts of the SPR block (R585). -/
def State.mirrorSpr (s : State) (off v : Nat) : Nat :=
  if off = 0xC0008 then
    packBits 10 s.spareLow + 1024 * b2n s.spr.repair.isSome +
      65536 * satU 16 (s.spr.units.countP fun e => e.2.worn && e.2.st == 0)
  else if 0xC0100 ≤ off ∧ off < 0xC0128 then
    s.spareLeft ((off - 0xC0100) / 4) + 65536 * s.spareTotal ((off - 0xC0100) / 4)
  else v

/-- What a register reads as beyond its stored fields. -/
def State.mirror (s : State) (off idx v : Nat) : Nat :=
  match off / 0x10000 with
  | 0 => s.mirrorGlb off v
  | 1 => s.mirrorHst off idx v
  | 2 => s.mirrorPrs off v
  | 3 => s.mirrorChs off idx v
  | 4 => s.mirrorStl off v
  | 5 => s.mirrorBup off v
  | 8 => s.mirrorEra off idx v
  | 7 => s.mirrorRos off v
  | 9 => s.mirrorCol off idx v
  | 10 => s.mirrorUpd off v
  | 12 => s.mirrorSpr off v
  | _ => v

/-- The entry that the window of a register selects (R587): the ring, loop and bank, phase, link, detector or trigger named
by its select register; a FILT of 3 acts as 2. -/
def State.window (s : State) (off : Nat) : Nat :=
  match off / 0x10000 with
  | 1 => s.get Reg.HST_RSEL_RING
  | 3 => s.get Reg.CHS_LSEL_LOOP + 256 * s.get Reg.CHS_LSEL_BANK
  | 4 =>
    if off < 0x40080 then s.get Reg.STL_OLSEL_CLASS + 4 * min 2 (s.get Reg.STL_OLSEL_FILT)
    else if off < 0x400A0 then s.get Reg.STL_PSEL_PHASE
    else s.get Reg.STL_LSEL_LINK
  | 8 => s.get Reg.ERA_DSEL_DET
  | 9 => s.get Reg.COL_TSEL_TRIG
  | _ => 0

/-- A window entry exists (R522). -/
def windowOk (off idx : Nat) : Bool :=
  match off / 0x10000 with
  | 1 => decide (idx < 16384)
  | 3 => decide (idx % 256 < 166 ∧ idx < 512)
  | 4 => if off < 0x40080 then decide (idx < 12) else if off < 0x400A0 then decide (idx < 156) else decide (idx < 40)
  | 8 => decide (idx < 384)
  | 9 => decide (idx < 64)
  | _ => decide (idx = 0)

/-- What the register at `off` reads as, in the window entry `idx`. -/
def State.read (s : State) (off idx : Nat) : Nat := s.mirror off idx (s.stored off idx)

/-- The bytes of the registers at `offs`, in order (the images that the query commands write). -/
def State.regBytes (s : State) (offs : List Nat) (idx : Nat := 0) : List Byte :=
  offs.flatMap fun o => le 4 (s.read o idx)

end Sys2Proof.Machine
end

