-- ==== Sys2Proof/Machine/Host.lean ====
section
/-!
DEFINITION. The host island: rings, doorbells, descriptors, completions, MSI-X and PTM (R81 to R121), and the commands
NOP, FENCE, RING_QUERY and PTM_RESYNC of R109.
-/
namespace Sys2Proof.Machine

/-! ## Ring set-up (R88 to R92) -/

/-- A ring class lets a PRIV value (R92). -/
def privAllowed (cls p : Nat) : Bool :=
  match cls with
  | 2 | 3 | 5 => decide (1 ≤ p)
  | 7 => p == 3
  | _ => true

/-- A ring class lets a SLOT code (R92). -/
def slotAllowed (cls c : Nat) : Bool :=
  match cls with
  | 0 | 1 | 2 | 3 => c == 0
  | 4 => decide (c ≤ 10)
  | 5 | 7 => decide (1 ≤ c ∧ c ≤ 10)
  | 6 => decide (6 ≤ c ∧ c ≤ 10)
  | _ => false

/-- A ring class that the host fills (R92). -/
def hostFilled (cls : Nat) : Bool := cls == 0 || cls == 2 || cls == 3

/-- The checks of ENABLE in the order of R89: the code of the first that fails. -/
def State.enableCheck (s : State) (r : Nat) : Option Nat :=
  let size := s.get (Reg.HST_RCFG_SIZE r)
  let cls := s.get (Reg.HST_RCFG_CLASS r)
  let base := s.get (Reg.HST_RBASE r)
  let data := s.get (Reg.HST_RDATA r)
  let slot := s.get (Reg.HST_RAUX_SLOT r)
  let cpl := s.get (Reg.HST_RCFG_CPLRING r)
  if size = 0 then some 1
  else if size < 4 ∨ 16 < size then some 2
  else if 8 ≤ cls then some 3
  else if base = 0 ∨ base % 4096 ≠ 0 ∨ (slot ≠ 0 ∧ (data = 0 ∨ data % 4096 ≠ 0)) then some 4
  else if hostFilled cls ∧ !(s.on (Reg.HST_RSTAT_EN cpl) && s.get (Reg.HST_RCFG_CLASS cpl) == 1) then some 5
  else if !privAllowed cls (s.get (Reg.HST_RCFG_PRIV r)) then some 6
  else if !slotAllowed cls slot then some 7
  else if hostFilled cls ∧ (s.get (Reg.HST_RCFG_CMODE r) = 3 ∨ 10 < s.get (Reg.HST_RAUX_BATCH r)) then some 0xC
  else if s.on (Reg.HST_RCFG_SHADOW r) ∧ cls ≠ 2 ∧ cls ≠ 3 then some 3
  else none

/-- A ring enters error (R100, R101, R112, R115): ERR and ECODE; the failing access is latched unless one is; RING_ERROR
is posted on every EVT ring not in error whose mask holds the host family. `kind` is 0 when no memory access failed. -/
def State.ringError (s : State) (r ecode kind addr : Nat) : State :=
  let s := (s.set (Reg.HST_RSTAT_ERR r) 1).set (Reg.HST_RSTAT_ECODE r) ecode
  let s := if kind = 0 ∨ s.on Reg.HST_DMAERR_INFO_LATCHED then s
    else (((s.set Reg.HST_DMAERR addr).set Reg.HST_DMAERR_INFO_RING r).set Reg.HST_DMAERR_INFO_KIND kind).set
      Reg.HST_DMAERR_INFO_LATCHED 1
  let s : State := if kind = 3 ∨ kind = 4 then { s with hst := { s.hst with aer := s.hst.aer ||| (if kind = 3 then 0x4000 else 0x1000) } } else s
  let s := s.evt 1 0x0110 (le 2 r ++ le 1 ecode ++ le 1 kind ++ le 8 addr)
  let s := if kind = 0 then s else s.raise (detN 6 3) 0 r
  if s.get (Reg.HST_RCFG_CLASS r) = 1 then s.stallBound r else s

/-- The seats compare the configuration of a shadow ring (R115): a difference puts the standby's ring in error. -/
def State.shadowCompare (s : State) (r : Nat) (mismatch : Bool) : State :=
  if s.on (Reg.HST_RCFG_SHADOW r) && mismatch && s.standby && s.ringLive r then (s.raise (detN 6 2) 0 r).ringError r 0xB 0 0 else s

/-- ENABLE of HST_RCMD (R89). `mismatch`: the other seat has a different configuration of this shadow ring (R115); on a ring that
is enabled already it is the comparison at the other seat's enable, and nothing else changes (log entry 79). -/
def State.ringEnable (s : State) (r : Nat) (mismatch : Bool) : State :=
  let s := s.logC regOrigin 1 0 0 1 0x14 0 1
  if s.on (Reg.HST_RSTAT_EN r) then s.shadowCompare r mismatch
  else
    match s.enableCheck r with
    | some e => s.set (Reg.HST_RSTAT_ECODE r) e
    | none =>
      let s := ((s.set (Reg.HST_RSTAT_EN r) 1).set (Reg.HST_RSTAT_ERR r) 0).set (Reg.HST_RSTAT_ECODE r) 0
      let s := ((s.set (Reg.HST_RPTR_HEAD r) 0).set (Reg.HST_RPTR_TAIL r) 0).set (Reg.HST_RCNT r) 0
      let s := (s.set (Reg.HST_RSTAT_STALL r) 0).set (Reg.HST_RSTAT_SGAP r) 0
      let s := s.ringMod r fun x =>
        { x with phase := true, seq := 0, lost := false, since := 0, fetched := [], savedTail := none, takeover := false, peerHead := 0 }
      let cls := s.get (Reg.HST_RCFG_CLASS r)
      let s := if hostFilled cls then s.stallBound (s.get (Reg.HST_RCFG_CPLRING r)) else if cls = 1 then s.stallBound r else s
      s.shadowCompare r mismatch

/-- ENABLE written to HST_RCMD: what the other seat has comes over the Roscor link, and is a free value here (R115). -/
def State.ringEnableW (s : State) (r : Nat) : State :=
  if s.on (Reg.HST_RCFG_SHADOW r) && s.standby then let (v, s) := s.draw; s.ringEnable r (v % 2 == 1) else s.ringEnable r false

/-- The descriptors fetched and not begun complete ABORTED when their ring is disabled (R90), after the command that has begun
(R113). -/
def State.abortAll (s : State) (r : Nat) : State :=
  let s := (s.ringMod r fun x => { x with aborts := x.aborts ++ x.fetched, fetched := [] }).ringGoes r
  s.fencesOver s.hst.fences.length

/-- DISABLE of HST_RCMD (R90). -/
def State.ringDisable (s : State) (r : Nat) : State :=
  let s := s.logC regOrigin 1 0 0 1 0x14 0 2
  if !s.on (Reg.HST_RSTAT_EN r) then s
  else if s.get (Reg.HST_RCFG_CLASS r) = 1 ∧
      ((s.ring r).owed ≠ 0 ∨ (s.rings.map (·.1)).any fun q => s.on (Reg.HST_RSTAT_EN q) &&
        hostFilled (s.get (Reg.HST_RCFG_CLASS q)) && s.get (Reg.HST_RCFG_CPLRING q) == r) then
    s.set Reg.HST_STAT_CFGLOCK 1
  else (s.set (Reg.HST_RSTAT_EN r) 0).abortAll r

/-- Where the BARs act: the host island is out of reset, the rails are up, PERST# is not asserted, and the function is in D0. -/
def State.barUp (s : State) : Bool := s.glb.powered && !s.hst.perst && !s.hst.d3

/-- A write by the host reaches the registers and doorbells from stage HOST on; before that it is ignored and counted (R63). -/
def State.hostWrite (s : State) (f : State → State) : State :=
  if !s.barUp || s.stage == 0xE then s
  else if !s.glb.hostUp then s.bump Reg.GLB_EARLYWR
  else f s

/-- RING_ENABLE (R89). -/
def execRingEnable (r : Nat) (mismatch : Bool) (s : State) : Out State := .next (s.hostWrite fun s => s.ringEnable r mismatch)

/-- RING_DISABLE (R90). -/
def execRingDisable (r : Nat) (s : State) : Out State := .next (s.hostWrite fun s => s.ringDisable r)

/-! ## Doorbells (R68, R91, R99 to R101) -/

/-- A class is served now (R68): TRACE and SCORE from PRESS, PROOF from the first proof closed into the galley, PACE from the
first imprint, the others from stage HOST. -/
def State.served (s : State) (cls : Nat) : Bool :=
  match cls with
  | 2 | 3 => s.on Reg.GLB_BOOTSTAT_PRESS
  | 5 => s.glb.firstImprint
  | 6 => s.glb.firstProof
  | _ => true

/-- The tail that a shadow ring of the standby takes: at least the active seat's reported head (R116). Of two indices that lies
further on which lies further from this seat's own head; a reported head half a ring on or more lies behind (log entry 79). -/
def State.tailFloor (s : State) (r v : Nat) : Nat :=
  let n := s.ringLen r
  let h := s.get (Reg.HST_RPTR_HEAD r)
  let p := (s.ring r).peerHead % n
  let ahead := fun k => (k + n - h % n) % n
  if s.standby && s.on (Reg.HST_RCFG_SHADOW r) && decide (ahead p < n / 2 ∧ ahead v < ahead p) then p else v

/-- A new tail of a host-filled ring (R100, R116). -/
def State.newTail (s : State) (r v : Nat) : State :=
  if s.ringLen r ≤ v then s.ringError r 8 0 0 else s.set (Reg.HST_RPTR_TAIL r) (s.tailFloor r v)

/-- A new head of a device-filled ring (R101). -/
def State.newHead (s : State) (r v : Nat) : State :=
  if s.ringLen r ≤ v then s.ringError r 8 0 0
  else
    let s := s.set (Reg.HST_RPTR_HEAD r) v
    if s.get (Reg.HST_RCFG_CLASS r) = 1 then s.flushCpl r (s.ring r).held.length else s

/-- A doorbell write (R99): malformed writes are ignored and marked, writes to a disabled ring are counted, a ring in error
does no more work, and a ring whose class is not yet served keeps the last value, which HST_RPTR shows (R120). -/
def State.doorbell (s : State) (r v : Nat) (wellSized : Bool) : State :=
  if !wellSized ∨ 65536 ≤ v then s.set Reg.HST_STAT_DBBAD 1
  else if !s.on (Reg.HST_RSTAT_EN r) then s.bump (Reg.HST_RDBIGN r)
  else if s.on (Reg.HST_RSTAT_ERR r) then s
  else
    let cls := s.get (Reg.HST_RCFG_CLASS r)
    let s := s.count 5 3 1
    if !s.served cls then
      (s.set (if hostFilled cls then Reg.HST_RPTR_TAIL r else Reg.HST_RPTR_HEAD r) v).ringMod r fun x => { x with savedTail := some v }
    else if hostFilled cls then s.newTail r v
    else s.newHead r v

/-- Service of classes begins: each of their rings acts on the last doorbell value it kept (R68). -/
def State.serveSaved (s : State) : State :=
  (s.rings.map (·.1)).foldl (fun s r =>
    let cls := s.get (Reg.HST_RCFG_CLASS r)
    match (s.ring r).savedTail with
    | none => s
    | some v =>
      if !s.served cls then s
      else
        let s := s.ringMod r fun x => { x with savedTail := none }
        if !s.ringLive r then s else if hostFilled cls then s.newTail r v else s.newHead r v) s

/-- DOORBELL_TAIL (R100). -/
def execDoorbellTail (r v : Nat) (wellSized : Bool) (s : State) : Out State := .next (s.hostWrite fun s => s.doorbell r v wellSized)

/-- DOORBELL_HEAD (R101). -/
def execDoorbellHead (r v : Nat) (wellSized : Bool) (s : State) : Out State := .next (s.hostWrite fun s => s.doorbell r v wellSized)

/-! ## Descriptors (R90, R100, R103, R108) -/

/-- Descriptors that a ring may fetch now: from its head to its tail, at most 16 (R100). None while memory requests are
off (R84), while its CPL ring is full, holds completions or is in error (R103, R112), or before its class is served. -/
def State.fetchable (s : State) (r : Nat) : Nat :=
  let cls := s.get (Reg.HST_RCFG_CLASS r)
  let p := s.get (Reg.HST_RCFG_CPLRING r)
  if s.ringLive r && hostFilled cls && s.dmaOn && s.served cls && (s.ring p).held.isEmpty && s.ringLive p &&
      s.ringFree p then
    min 16 ((s.get (Reg.HST_RPTR_TAIL r) + s.ringLen r - s.get (Reg.HST_RPTR_HEAD r)) % s.ringLen r)
  else 0

/-- The ring fetches the descriptors of host memory from its head on; those whose opcode is not defined complete BADOP in
their turn (R108). DESIGN CHOICE (unsafe): a descriptor counts as consumed in HST_RCNT when it is fetched, as the head passes
it (log entry 97). -/
def State.fetch (s : State) (r : Nat) (ds : List (Nat × Desc)) : State :=
  let n := min (s.fetchable r) ds.length
  if n = 0 then s
  else
    let h := s.get (Reg.HST_RPTR_HEAD r)
    let m := s.ringLen r
    let got := (ds.take n).zipIdx.map fun (e, i) => (e.1, { e.2 with idx := (h + i) % m })
    let s := (s.set (Reg.HST_RPTR_HEAD r) ((h + n) % m)).add (Reg.HST_RCNT r) n
    let s := s.ringMod r fun x => { x with fetched := x.fetched ++ got, nFetched := x.nFetched + n }
    let s := s.ringMod (s.get (Reg.HST_RCFG_CPLRING r)) fun x => { x with owed := x.owed + n }
    let s := (s.count 5 1 n).ringGoes r
    s.fencesOver s.hst.fences.length

/-- DESCRIPTOR_FETCH (R100). -/
def execDescriptorFetch (r : Nat) (ds : List (Nat × Desc)) (s : State) : Out State := .next (s.fetch r ds)

/-- DMA_ERROR (R112): a descriptor fetch (ECODE DESC_DMA) or the write of an entry or data slot (ENTRY_DMA) failed. -/
def execDmaError (r kind addr : Nat) (s : State) : Out State :=
  .next (if s.ringLive r then
    s.ringError r (if hostFilled (s.get (Reg.HST_RCFG_CLASS r)) then 9 else 0xA) kind addr else s)

/-- What waited for memory requests leaves once they are enabled: result buffers, completions, messages (R84). -/
def State.dmaFlush (s : State) : State :=
  if s.dmaOn then
    let s := s.hst.dmaWait.foldl (fun s e => s.emit (.dma e.1 e.2)) s
    let s : State := { s with hst := { s.hst with dmaWait := [] } }
    ((s.rings.map (·.1)).foldl (fun s r => if (s.ring r).held.isEmpty then s else s.flushCpl r (s.ring r).held.length) s).msixFlush
  else s

/-- Bus Master Enable and DMA_EN take values (R84). -/
def State.dmaChange (s : State) (bme en : Bool) : State :=
  (({ s with hst := { s.hst with busMaster := bme } } : State).setB Reg.HST_CTL_DMA_EN en).dmaFlush

/-- DMA_ENABLE_CHANGE (R84). -/
def execDmaEnableChange (bme en : Bool) (s : State) : Out State := .next (s.dmaChange bme en)

/-- MSIX_MODERATION_TIMER (R86): MTIME has passed since the first entry without a message. -/
def execMsixModerationTimer (r : Nat) (s : State) : Out State :=
  .next (if s.dmaOn && s.on (Reg.HST_RIRQ_IEN r) && s.get (Reg.HST_RIRQ_MTIME r) != 0 && (s.ring r).since != 0 then
    (s.ringMod r fun x => { x with since := 0 }).msixSend (s.get (Reg.HST_RIRQ_VECTOR r)) else s)

/-- BATCH_IDLE_TIMEOUT (R106): the ring has been empty for 100 us with a batch open. -/
def execBatchIdleTimeout (r : Nat) (s : State) : Out State :=
  .next (if s.get (Reg.HST_RPTR_HEAD r) = s.get (Reg.HST_RPTR_TAIL r) ∧ (s.ring r).fetched.isEmpty then s.closeBatch r
    else s)

/-! ## The shadow hold (R117) -/

/-- Held completions parted into those that may go, each behind none of its ring that still waits, and the rest: `wait` are the
rings that still wait. -/
def holdsGo : List ShadowHold → List Nat → List ShadowHold × List ShadowHold
  | [], _ => ([], [])
  | h :: t, wait =>
    if h.ok && !wait.contains h.ring then let (a, b) := holdsGo t wait; (h :: a, b)
    else let (a, b) := holdsGo t (h.ring :: wait); (a, h :: b)

/-- A completion that was held is written, and its descriptor has completed (R109). -/
def State.holdDone (s : State) (h : ShadowHold) : State :=
  (s.ringMod h.ring fun x => { x with nDone := x.nDone + 1 }).completeMode h.ring h.opcode h.desc h.status h.done h.result

/-- Held completions of shadow rings that `p` holds of are released; those of a ring are written in its index order (R113). FENCEs that
waited for them end (R109), and the open batch of a ring that is disabled closes behind the last of them (R90). -/
def State.releaseHold (s : State) (p : ShadowHold → Bool) : State :=
  let (go, rest) := holdsGo (s.hst.shadowHold.map fun h => { h with ok := h.ok || p h }) []
  let s : State := { s with hst := { s.hst with shadowHold := rest } }
  let s := go.foldl State.holdDone s
  let s := go.foldl (fun s h => s.ringGoes h.ring) s
  s.fencesOver s.hst.fences.length

/-- The standby reports itself ready, or not: without a ready standby nothing is held (R117). -/
def State.peerReady (s : State) (b : Bool) : State :=
  let s := s.setB Reg.ROS_STAT_PREADY b
  if b then s else s.releaseHold fun _ => true

/-- SHADOW_HOLD_TIMEOUT (R117): in the active seat the completion held longest on the ring is written; the standby has
lost data, marks the gap, and leaves its proofs out of comparison until the gap has left the input windows (R500). -/
def execShadowHoldTimeout (r : Nat) (s : State) : Out State :=
  .next (if s.standby then
    let s := (s.set (Reg.HST_RSTAT_SGAP r) 1).bump Reg.HST_SGAP
    let s := { s with ros := { s.ros with exclTo := s.time / 20000 + 205, pGood := 0 } }
    s.raise (detN 6 2) 0 r
  else
    match s.hst.shadowHold.find? fun h => h.ring == r && !h.ok with
    | none => s
    | some h => s.releaseHold fun g => g == h)

/-! ## PTM (R87) -/

/-- A PTM dialogue ends: a good one gives the offset of host time minus shelf time, a bad one sets FAIL (R87). -/
def State.ptm (s : State) (good : Bool) (ofs : Int) : State :=
  if good then
    let s := ((s.setS Reg.HST_PTM_OFS ofs).set Reg.HST_PTM_STAT_VALID 1).set Reg.HST_ING_STAT_UNANCH 0
    ({ s with hst := { s.hst with ptmLast := some s.time } }).levelOff (detN 6 1)
  else s.set Reg.HST_PTM_STAT_FAIL 1

/-- PTM_DIALOGUE (R87): runs while PTM Enable and AUTO are set and PERIOD is not 0. -/
def execPtmDialogue (good : Bool) (ofs : Int) (s : State) : Out State :=
  .next (if s.hst.ptmEnable && s.on Reg.HST_PTM_CTL_AUTO && s.get Reg.HST_PTM_CTL_PERIOD != 0 then s.ptm good ofs else s)

/-- PTM_TIMEOUT (R87): no dialogue has succeeded for 100 ms. -/
def execPtmTimeout (s : State) : Out State := .next ((s.set Reg.HST_PTM_STAT_VALID 0).levelOn (detN 6 1) 0 0)

/-! ## Commands (R109) -/

/-- NOP (R109): completes OK. TRACE and SCORE rings take their own opcode only (R122). -/
def execNop (r : Nat) (d : Desc) (s : State) : Out State := .next (s.cmd r 0x0000 d { priv := 0 } fun s => ok s)

/-- FENCE (R109): completes once every descriptor of the named ring fetched before it has completed. -/
def execFence (r : Nat) (d : Desc) (s : State) : Out State :=
  .next (s.cmd r 0x0100 d { priv := 0 } fun s =>
    let q := bits d.p0 0 14
    let x := s.ring q
    let upTo := if q = r then x.nDone else x.nFetched
    if upTo ≤ x.nDone then okR s (s.get (Reg.HST_RPTR_HEAD q))
    else
      { s := { s with hst := { s.hst with
                fences := s.hst.fences ++ [{ ring := r, desc := d, target := q, upTo := upTo }] } }
        status := none })

/-- RING_QUERY (R109): the 14 context registers of the ring, then 8 bytes RSV; nothing is cleared or selected. -/
def execRingQuery (r : Nat) (d : Desc) (s : State) : Out State :=
  .next (s.cmd r 0x0103 d { priv := 0, buf := .writes, lenOk := fun n => 64 ≤ n } fun s =>
    image s 64 (s.regBytes ((List.range 14).map fun i => 0x10018 + 4 * i) (bits d.p0 0 14)))

/-- PTM_RESYNC (R109): one PTM dialogue; RESULT holds the offset, held within ±2^31 ns. DESIGN CHOICE (unsafe): a dialogue that
fails sets FAIL and leaves the offset as it was, and with PTM Enable clear the dialogue counts as failed (log entry 12). -/
def execPtmResync (r : Nat) (d : Desc) (good : Bool) (ofs : Int) (s : State) : Out State :=
  .next (s.cmd r 0x0104 d { priv := 1 } fun s =>
    let s := (s.logC (.host r) 2 0 0x0104 1 0 0 0).ptm (good && s.hst.ptmEnable) ofs
    okR s (ofS 32 (satS 32 (s.getS Reg.HST_PTM_OFS))))

end Sys2Proof.Machine
end

