-- ==== Sys2Proof/Machine/Ingest.lean ====
section
/-!
DEFINITION. Ingest (R122 to R148): the buffers of TRACE and SCORE rings, their records, stream states, schedule, windows,
history, capacity and the assignment of streams to textblocks.
-/
namespace Sys2Proof.Machine

/-! ## Streams -/

/-- Changes Ingest. -/
def State.ingMod (s : State) (f : Ing → Ing) : State := { s with ing := f s.ing }

/-- A bound stream. -/
def State.stream (s : State) (n : Nat) : Option Stream := Tab.find s.ing.streams n

/-- Puts a stream. -/
def State.putStream (s : State) (n : Nat) (x : Stream) : State :=
  s.ingMod fun i => { i with streams := Tab.put i.streams n x }

/-- Shelf time of a host time, in ns (R127); the device subtracts the offset of PTM. -/
def State.shelfOf (s : State) (host : Nat) : Int := (host : Int) - s.getS Reg.HST_PTM_OFS

/-- The stale threshold in ns (R137, R148): 0 and 5 to 7 act as 4 press cycles. -/
def State.staleNs (s : State) : Nat :=
  let c := s.get Reg.HST_ING_CTL_STALE
  (if c = 0 ∨ 5 ≤ c then 4 else c) * 20000

/-- The state that a stream's lag gives it (R137). -/
def State.lagState (s : State) (time : Nat) : Nat :=
  let lag := s.time - time
  if lag ≤ s.staleNs then 2 else if lag ≤ 2000000 then 3 else 4

/-- Bound streams in a state. -/
def State.streamsIn (s : State) (c : Nat) : Nat := s.ing.streams.countP fun e => e.2.state == c

/-- Loss of ingest begins when more than 90 percent of the bound streams are SILENT, and ends when half of them are
LIVE (R138). -/
def State.lossCheck (s : State) : State :=
  let bound := s.ing.streams.length
  let silent := s.streamsIn 4
  let live := s.streamsIn 2
  if !s.on Reg.HST_ING_STAT_LOST then
    if bound * 9 < silent * 10 then
      let s := (s.set Reg.HST_ING_STAT_LOST 1).ingMod fun i => { i with lostAt := s.time }
      (s.evt 1 0x0121 (le 2 bound ++ le 2 silent ++ zeros 8)).levelOn (detN 6 4) 0 0
    else s
  else if bound ≤ live * 2 then
    let s := (s.set Reg.HST_ING_STAT_LOST 0).levelOff (detN 6 4)
    s.evt 1 0x0122 (le 2 bound ++ le 2 live ++ le 4 ((s.time - s.ing.lostAt) / 1000) ++ zeros 4)
  else s

/-! ## Capacity (R141) and assignment (R142) -/

/-- Streams modelled singly and pooled capacity in the hierarchy in service (R141). -/
def State.capacity (s : State) : Nat × Nat :=
  let svc := s.get Reg.PRS_STAT_SVC
  let lost := if svc ≤ 1 then 0 else 8 * s.tbs.length - (s.tbs.foldl (fun a t => a + (s.quiresOf t).length) 0)
  let one := match svc with | 0 => 0 | 1 => 256 | n => 2048 * svcTbs n
  let all := match svc with | 0 => 0 | 1 => 1024 | _ => 8192
  (one - 256 * lost, all - 1024 * lost)

/-- Surrogates of a textblock in service: 256 per quire (R141). -/
def State.tbRoom (s : State) (t : Nat) : Nat := 256 * (s.quiresOf t).length

/-- Pools of a textblock while streams are taken in order: tray, class, first stream, members. -/
abbrev Pools := List (Nat × Nat × Nat × Nat)

/-- A stream of a textblock that is full joins a pool of its tray and die class with fewer than 4 members, or opens one
while a surrogate is free, or is held (R141). Which streams share a pool is the model's choice (log entry 13). -/
def poolOne (room : Nat) (pool : Bool) (a : Pools × List (Nat × Stream)) (e : Nat × Stream) :
    Pools × List (Nat × Stream) :=
  let x := e.2
  match (if pool then a.1.find? fun p => p.1 == x.tray && p.2.1 == x.dclass && decide (p.2.2.2 < 4) else none) with
  | some p => (a.1.map (fun q => if q == p then (p.1, p.2.1, p.2.2.1, p.2.2.2 + 1) else q),
               a.2 ++ [(e.1, { x with lead := p.2.2.1, pooled := true, held := false })])
  | none =>
    if a.1.length < room then
      (a.1 ++ [(x.tray, x.dclass, e.1, 1)], a.2 ++ [(e.1, { x with lead := e.1, pooled := false, held := false })])
    else (a.1, a.2 ++ [(e.1, { x with lead := e.1, pooled := false, held := true })])

/-- The streams of a textblock in assignment order. -/
def State.tbStreams (s : State) (t : Nat) : List (Nat × Stream) :=
  sortBy (fun a b => decide (a.2.order ≤ b.2.order)) (s.ing.streams.filter fun e => e.2.tb == t)

/-- The streams beyond the pooled capacity of the hierarchy in service, by order of assignment (R141): without pooling, and where the
table gives more streams singly than pooled, the number modelled singly bounds them (log entry 93). -/
def State.beyond (s : State) : List Nat :=
  let (one, all) := s.capacity
  ((sortBy (fun a b => decide (a.2.order ≤ b.2.order)) s.ing.streams).drop
    (if s.on Reg.HST_ING_CTL_POOL then max one all else one)).map (·.1)

/-- Capacity is worked out again after a binding, a leaving, a change of the hierarchy or of POOL; CAPACITY is posted when a stream
changes to or from pooled or held (R141, R147). DESIGN CHOICE (unsafe): while nothing is in service, which the table of R141 has no row for,
HST_ING_CAP and the pooled and held flags stay as they were (log entry 13). -/
def State.recap (s : State) : State :=
  if s.tbs.isEmpty then s else
  let out := s.beyond
  let done := (List.range 4).foldl (fun acc t =>
    let (held, xs) := (s.tbStreams t).partition fun e => out.contains e.1
    let acc := acc ++ held.map fun e => (e.1, { e.2 with lead := e.1, pooled := false, held := true })
    if xs.length ≤ s.tbRoom t then acc ++ xs.map fun e => (e.1, { e.2 with lead := e.1, pooled := false, held := false })
    else
      let r := xs.foldl (poolOne (s.tbRoom t) (s.on Reg.HST_ING_CTL_POOL)) ([], [])
      -- the first member of a pool of several shares its surrogate too
      acc ++ r.2.map fun e => if r.1.any fun p => p.2.2.1 == e.1 && decide (2 ≤ p.2.2.2) then (e.1, { e.2 with pooled := true }) else e) []
  let changed := done.any fun e => match s.stream e.1 with
    | some x => x.pooled != e.2.pooled || x.held != e.2.held
    | none => false
  let s := done.foldl (fun s e => s.putStream e.1 e.2) s
  let held := done.countP fun e => e.2.held
  let (one, all) := s.capacity
  let s := ((s.set Reg.HST_ING_CAP_SINGLE one).set Reg.HST_ING_CAP_POOLED all).setB Reg.HST_ING_STAT_OVERCAP (held != 0)
  if changed then s.evt 1 0x0123 (le 2 one ++ le 2 all ++ le 2 done.length ++ le 2 held ++ zeros 4) else s

/-- The textblock in service with the fewest bound streams, ties to the lower number (R142). -/
def State.fewest (s : State) : Nat :=
  let n := fun t => s.ing.streams.countP fun e => e.2.tb == t
  s.tbs.foldl (fun b t => if n t < n b then t else b) (s.physTb 0)

/-- The textblock for `span` streams of a tray (R142): the one that has streams of the tray while there is room. DESIGN CHOICE
(unsafe): room is taken as 4 streams for each surrogate of the textblock, whatever HST_ING_CTL.POOL says; the manual does not say
what "where the room permits" measures (log entry 93). -/
def State.chooseTb (s : State) (tray span : Nat) (skip : List Nat) : Nat :=
  match s.ing.streams.find? fun e => e.2.tray == tray && !skip.contains e.1 && s.tbs.contains e.2.tb with
  | some e =>
    let n := s.ing.streams.countP fun f => f.2.tb == e.2.tb
    if n + span ≤ 4 * s.tbRoom e.2.tb then e.2.tb else s.fewest
  | none => s.fewest

/-- Streams `ns` are assigned again (R142): their windows move with them, or are built anew after a textblock is lost
(R170). -/
def State.reassign (s : State) (ns : List Nat) (clear : Bool) : State :=
  let s := ns.foldl (fun s n => match s.stream n with
    | some x => s.putStream n { x with tb := 4 }
    | none => s) s
  let s := ns.foldl (fun s n => match s.stream n with
    | some x =>
      let t := s.chooseTb x.tray 1 [n]
      s.putStream n { x with tb := t, win := if clear then [] else x.win, order := s.ing.nextOrder } |>.ingMod
        fun i => { i with nextOrder := i.nextOrder + 1 }
    | none => s) s
  s.recap

/-- The streams of textblocks that are no longer in service move to the others; after a growth all are assigned anew. -/
def State.reassignAll (s : State) (all clear : Bool) : State :=
  s.reassign ((s.ing.streams.filter fun e => all || !s.tbs.contains e.2.tb).map (·.1)) clear

/-! ## Records -/

/-- The placement of a record whose first sample has host time `t0` and whose last lies `span` us after it: shelf ns of
the first, and whether it is placed by its commit time (R127, R131). -/
def State.place (s : State) (t0 span : Nat) : Int × Bool :=
  if s.on Reg.HST_ING_STAT_UNANCH then
    ((s.time : Int) - (s.get Reg.HST_ING_CTL_LAT * 1000 : Nat) - (span * 1000 : Nat), true)
  else (s.shelfOf t0, false)

/-- Of a value that a record changed from `a` to `b` and that now reads `c`, what is left without the record. -/
def backTo {α : Type} [DecidableEq α] (a b c : α) : α := if c = b then a else c

/-- A stream that now reads `c` without the record that turned `a` into `b`: what later records gave it stays. -/
def Stream.without (a b c : Stream) : Stream :=
  let w := Tab.drop c.win fun k => (Tab.find b.win k).isSome && (Tab.find a.win k).isNone
  let w := (a.win.filter fun e => (Tab.find b.win e.1).isNone).foldl (fun w e => Tab.put w e.1 e.2) w
  { dieid := backTo a.dieid b.dieid c.dieid, tray := backTo a.tray b.tray c.tray, slot := backTo a.slot b.slot c.slot
    dclass := backTo a.dclass b.dclass c.dclass, rate := backTo a.rate b.rate c.rate, tb := backTo a.tb b.tb c.tb
    state := backTo a.state b.state c.state
    time := if c.time = b.time then w.foldl (fun m e => max m ((e.1 + 1) * 1000)) a.time else c.time
    lastSeq := backTo a.lastSeq b.lastSeq c.lastSeq, anySeq := backTo a.anySeq b.anySeq c.anySeq
    ring := backTo a.ring b.ring c.ring, win := w, unanch := backTo a.unanch b.unanch c.unanch, lead := backTo a.lead b.lead c.lead
    pooled := backTo a.pooled b.pooled c.pooled, held := backTo a.held b.held c.held, order := backTo a.order b.order c.order }

/-- What one descriptor or record changed, between the ingest `old` and `new`. -/
def cutRec (r idx : Nat) (old new : Ing) : CutRec :=
  let ks := ((old.streams ++ new.streams).map (·.1)).eraseDups.filter fun k => Tab.find old.streams k != Tab.find new.streams k
  let of_ := fun (l : List SchedE) (k : Nat) => l.filter fun e => e.stream == k
  let es := ((old.sched ++ new.sched).map (·.stream)).eraseDups.filter fun k => of_ old.sched k != of_ new.sched k
  { ring := r, index := idx, streams := ks.map fun k => (k, Tab.find old.streams k, Tab.find new.streams k)
    sched := es.map fun k => (k, of_ old.sched k, of_ new.sched k), leaves := (old.leaves, new.leaves) }

/-- The streams without what `c` changed. -/
def CutRec.undoStreams (c : CutRec) (xs : Tab Stream) : Tab Stream :=
  c.streams.foldl (fun xs e => match e.2, Tab.find xs e.1 with
    | (some a, some b), some x => Tab.put xs e.1 (a.without b x)
    | (some a, none), none => Tab.put xs e.1 a
    | (none, some b), some x => if x.dieid = b.dieid then Tab.del xs e.1 else xs
    | _, _ => xs) xs

/-- The schedule without what `c` changed: entries it added go, those it ended or withdrew return unless a later one begins at the same
time. -/
def CutRec.undoSched (c : CutRec) (xs : List SchedE) : List SchedE :=
  c.sched.foldl (fun xs e =>
    let (_, a, b) := e
    let xs := xs.filter fun x => !(b.contains x && !a.contains x)
    xs ++ a.filter fun x => !b.contains x && !(xs.any fun y => y.stream == x.stream && y.start == x.start)) xs

/-- The LEAVE records that wait, without what `c` changed. -/
def CutRec.undoLeaves (c : CutRec) (xs : List (Nat × Nat × Nat)) : List (Nat × Nat × Nat) :=
  let xs := xs.filter fun x => !(c.leaves.2.contains x && !c.leaves.1.contains x)
  xs ++ c.leaves.1.filter fun x => !c.leaves.2.contains x && !xs.contains x

/-- The record carried from `old` on is the last one on crossing 0 (R24). -/
def State.carried (s : State) (r : Nat) (old : Ing) : State :=
  s.ingMod fun i => { i with last := some (cutRec r 0 old i) }

/-- What becomes of a record's SEQ (R128): none when it is a duplicate, else whether records are missing before it. -/
def seqCheck (last : Option Nat) (seq : Nat) : Option Bool :=
  match last with
  | none => some false
  | some l =>
    let d := (seq + 2 ^ 32 - l) % 2 ^ 32
    if d = 1 then some false
    else if 2 ≤ d ∧ d < 2 ^ 31 then some true
    else none

/-- Grid positions older than the 4,096 latest stay only for the history (R144). DESIGN CHOICE (unsafe): they stay 16,384 positions; a
sample that comes later still joins a history sample that is made anew from what is held of its 25 positions (log entry 93). -/
def trimWin (w : Tab Nat) (latest : Nat) : Tab Nat := Tab.drop w fun k => decide (k + 16384 < latest)

/-- Puts one sample over its 2^r grid positions; a position that already holds one keeps it. Answers how many were kept. -/
def putSample (a : Nat × Tab Nat) (pos : Int) (r v : Nat) : Nat × Tab Nat :=
  (List.range (2 ^ r)).foldl (fun a j =>
    let p := pos + (j : Int)
    if p < 0 then a
    else match Tab.find a.2 p.toNat with
      | some _ => (a.1 + 1, a.2)
      | none => (a.1, Tab.put a.2 p.toNat v)) a

/-- The discards of R130, in the order of its table: the counter, or none. -/
def State.traceDiscard (s : State) (r n : Nat) (base : Int) : Option Fld :=
  match s.stream n with
  | none => some Reg.HST_ING_UNB
  | some x =>
    if (match x.ring, Tab.find s.ing.ringTime n with
        | some q, some t => q != r && decide (s.time < t + 2000000)
        | _, _ => false) then some Reg.HST_ING_RING
    else if (s.time : Int) + 100000 < base then some Reg.HST_ING_FUT
    else none

/-- The history sample over the 25 grid positions from `t`: the mean of what is not absent, or 0x8000 (R144). -/
def Stream.hist25 (x : Stream) (t : Nat) : Nat :=
  let xs := (List.range 25).filterMap fun j => match Tab.find x.win (t + j) with
    | some v => if v = 0x8000 then none else some (toS 16 v)
    | none => none
  if xs.isEmpty then 0x8000 else ofS 16 (divRne (xs.foldl (· + ·) 0) xs.length)

/-- The history samples over the 25 us from each of `ts` are made anew as soon as a record has brought samples for them, once those 25 us
have passed (R144); samples older than the window go there only. -/
def State.lateHistory (s : State) (n : Nat) (x : Stream) (ts : List Nat) : State :=
  let ts := ts.eraseDups.filter fun t => decide ((t + 25) * 1000 ≤ s.time)
  if ts.isEmpty then s
  else s.ingMod fun i => { i with
    hist := ts.foldl (fun h t => (x.tb * 8192 + n, t, x.hist25 t) :: h) i.hist }

/-- The record last carried to textblock `t` is discarded on its way (R24, R154): the window of its stream is as before. -/
def State.dropRecord (s : State) (t : Nat) : State :=
  match Tab.find s.ing.lastRec t with
  | none => s
  | some (n, w) =>
    let s := match s.stream n with
      | some x => s.putStream n { x with win := w }
      | none => s
    s.ingMod fun i => { i with lastRec := Tab.del i.lastRec t }

/-- A trace record or keep-alive that carries `samples` is taken in (R125 to R131, R137). Answers whether it was discarded
under R130. DESIGN CHOICE (unsafe): a record that overlaps counts once in HST_ING_OLD, however many of its samples do (log entry 93). -/
def State.takeTrace (s : State) (r n seq t0 : Nat) (samples : List Nat) : Bool × State :=
  let rate := match s.stream n with
    | some x => x.rate
    | none => 0
  let (base, un) := s.place t0 ((samples.length - 1) * 2 ^ rate)
  match s.traceDiscard r n base, s.stream n with
  | some f, _ => (true, (s.bump f).count 5 8 1)
  | none, none => (true, s)
  | none, some x =>
    let was := x.win
    match (seqCheck x.lastSeq seq).or (if x.anySeq then some false else none) with
    | none => (false, s.bump Reg.HST_ING_DUP)
    | some gap =>
      let s := if gap then s.bump Reg.HST_ING_GAP else s
      let s := s.add Reg.HST_ING_GAP (samples.countP (· == 0x8000))
      let pos := base / 1000
      let (kept, win) := samples.zipIdx.foldl (fun a e => putSample a (pos + (e.2 * 2 ^ rate : Nat)) rate e.1) (0, x.win)
      let s := if kept = 0 then s else s.bump Reg.HST_ING_OLD
      let last : Nat := if samples.isEmpty then base.toNat else (pos + (samples.length * 2 ^ rate : Nat)).toNat * 1000
      let time := max x.time last
      let x := { x with
        lastSeq := some seq, anySeq := false, ring := some r, win := trimWin win (time / 1000), time := time, unanch := un
        state := s.lagState time }
      let ps : List Int := samples.zipIdx.map fun e => pos + ((e.2 * 2 ^ rate : Nat) : Int)
      let s := s.lateHistory n { x with win := win } ((ps.filter fun p => decide (0 ≤ p)).flatMap fun p => [p.toNat / 25 * 25, (p.toNat + 2 ^ rate - 1) / 25 * 25])
      let s := (s.putStream n x).ingMod fun i => { i with
        ringTime := Tab.put i.ringTime n s.time, lastRec := Tab.put i.lastRec x.tb (n, was) }
      (false, (s.lossCheck).count 5 7 1)

/-- BIND (R132, R142): `span` streams from `n` are bound to consecutive dies; a stream already bound is a new die, without window or
stream time, which its first record sets (R131). DESIGN CHOICE (unsafe): a LEAVE that waits for its time outlives the binding, since R132
names only the window and the stream time among what BIND clears (log entry 93). -/
def State.bind (s : State) (ring n span die tray slot cls rate : Nat) : State :=
  let old := match s.stream n with
    | some x => x.dieid
    | none => 0
  let ns := (List.range span).map (n + ·)
  let s := s.ingMod fun i => { i with streams := Tab.drop i.streams fun k => decide (n ≤ k ∧ k < n + span) }
  let tb := s.chooseTb tray span []
  let s := ns.foldl (fun s k => s.putStream k
    { dieid := (die + (k - n)) % 2 ^ 64, tray := tray, slot := slot + (k - n), dclass := cls, rate := rate, tb := tb,
      state := 1, time := 0, lead := k, order := s.ing.nextOrder + (k - n) }) s
  let s := s.ingMod fun i => { i with nextOrder := i.nextOrder + span }
  (s.logC (.host ring) 5 0 0x1002 1 n old die).recap

/-- A stream is unbound and its die leaves the model (R133, R137): reason 1 LEAVE, 2 silence. -/
def State.unbind (s : State) (n reason : Nat) : State :=
  match s.stream n with
  | none => s
  | some x =>
    let s := s.ingMod fun i =>
      { i with streams := Tab.del i.streams n, leaves := i.leaves.filter fun l => l.1 != n }
    let s := (s.bump Reg.HST_ING_LEFT).evt 1 0x0120 (le 2 n ++ le 1 reason ++ le 1 x.state ++ le 8 x.dieid)
    s.recap.lossCheck

/-- LEAVE (R133): the streams leave at the converted time, at once when it is past. It may be queued before its stream is bound, and
then takes out the die bound at its time (log entry 93). -/
def State.leave (s : State) (ring n span t reason : Nat) : State :=
  let at_ := (s.shelfOf t).toNat
  let s := s.logC (.host ring) 5 0 0x1002 1 n 0 reason
  ((List.range span).map (n + ·)).foldl (fun s k =>
    if at_ ≤ s.time then s.unbind k 1
    else s.ingMod fun i => { i with leaves := (i.leaves.filter fun l => l.1 != k) ++ [(k, at_, reason)] }) s

/-- The streams that a SCHED or CANCEL record covers: its span, or every bound stream for span 0 (R140). -/
def State.spanStreams (s : State) (n span : Nat) : List Nat :=
  if span = 0 then s.ing.streams.map (·.1)
  else ((List.range span).map (n + ·)).filter fun k => (s.stream k).isSome

/-- One schedule entry of one stream meets the entries before it (R136); one without duration is open until the next one for its stream,
which may be held already (R134). DESIGN CHOICE (unsafe): an entry whose duration reaches over one that starts later leaves that one as
it is, and both hold where they overlap (log entry 93). -/
def State.schedOne (s : State) (e : SchedE) : State :=
  let next := ((s.ing.sched.filter fun f => f.stream == e.stream && decide (e.start < f.start)).map (·.start)).min?
  let e := { e with stop := e.stop.or next }
  if (match e.stop with
      | some t => decide (t < s.time)
      | none => false) then s.bump Reg.HST_ING_OLD
  else if s.time + 16000000000 < e.start then s.bump Reg.HST_ING_FUT
  else
    let same := s.ing.sched.any fun f => f.stream == e.stream && f.start == e.start
    if !same && decide (65536 ≤ s.ing.sched.length) then
      ((s.set Reg.HST_ING_STAT_SCHOVF 1).bump Reg.HST_ING_SOVF).raise (detN 6 5) 0 0
    else
      s.ingMod fun i =>
        let kept := i.sched.filter fun f => !(f.stream == e.stream && f.start == e.start)
        let cut := kept.map fun f =>
          if f.stream == e.stream && decide (f.start < e.start) &&
              (match f.stop with
               | some t => decide (e.start < t)
               | none => true) then { f with stop := some e.start } else f
        { i with sched := cut ++ [e] }

/-- SCHED (R134, R136); an entry that begins before shelf time 0 ends its duration after that beginning. Answers whether the record was discarded for want of a bound stream. -/
def State.sched (s : State) (n span : Nat) (es : List SchedRec) : Bool × State :=
  let s := s.ingMod fun i => { i with sched := s.schedHeld }
  let ks := s.spanStreams n span
  if ks.isEmpty ∧ span ≠ 0 then (true, s.bump Reg.HST_ING_UNB)
  else
    (false, es.foldl (fun s e => ks.foldl (fun s k =>
      let st := s.shelfOf e.t
      s.schedOne { stream := k, start := st.toNat, stop := if e.dur = 0 then none else some (st + (e.dur * 1000 : Nat)).toNat,
                   kind := e.kind, kclass := e.kclass, level := e.level, arg := e.arg }) s) s)

/-- CANCEL (R135, R136). Answers whether the record was discarded for want of a bound stream. DESIGN CHOICE (unsafe): an earlier entry
that a withdrawn one had ended stays ended (log entry 93). -/
def State.cancel (s : State) (n span t : Nat) : Bool × State :=
  let ks := s.spanStreams n span
  if ks.isEmpty ∧ span ≠ 0 then (true, s.bump Reg.HST_ING_UNB)
  else
    let at_ := s.shelfOf t
    (false, s.ingMod fun i => { i with sched := i.sched.filter fun f =>
      !(ks.contains f.stream && decide (at_ ≤ (f.start : Int))) })

/-! ## Buffers (R122 to R124) -/

/-- A record of a buffer. -/
inductive Rec
  | trace (n seq t0 : Nat) (samples : List Nat)
  | bind (n span die tray slot cls rate : Nat)
  | leave (n span t reason : Nat)
  | sched (n span : Nat) (es : List SchedRec)
  | cancel (n span t : Nat)
deriving DecidableEq, Repr

/-- `k` 16-bit values from a byte string. -/
def halves : Nat → List Byte → List Nat
  | 0, _ => []
  | k + 1, b => rd b 0 2 :: halves k (b.drop 2)

/-- `k` schedule entries from a byte string (R134). -/
def schedEntries : Nat → List Byte → List SchedRec
  | 0, _ => []
  | k + 1, b =>
    { t := rd b 0 8, dur := rd b 8 4, kind := rd b 12 1, kclass := rd b 13 1, level := rd b 14 1, arg := rd b 15 1 } ::
      schedEntries k (b.drop 16)

/-- The record at the front of a buffer of a TRACE (`trace` true) or SCORE ring, and its length in bytes; none when it is
malformed (R124). DESIGN CHOICE (safe: what follows in the buffer is not taken): a BIND TRAY of 128 or more (R132), a trace COUNT above
4,096 (R125), a SCHED COUNT above 64 (R134) and a non-zero COUNT in BIND, LEAVE or CANCEL count as malformed, though the list of R124
does not name them; pad bytes other than zero (R125), a LEAVE REASON outside 1 to 4 (R133) and a SCHED KIND outside 1 to 5 (R134), which
it does not name either, do not make a record malformed (log entry 93). -/
def parseRec (trace : Bool) (b : List Byte) : Option (Rec × Nat) :=
  let typ := rd b 0 1
  let rlen := rd b 2 2
  let n := rd b 4 2
  let count := rd b 6 2
  let seq := rd b 8 4
  let span := rd b 12 4
  let len := 8 * rlen
  if b.length < 16 ∨ rd b 1 1 ≠ 1 ∨ rlen = 0 ∨ b.length < len ∨ 8192 ≤ n ∨ 8192 < n + span then none
  else if trace then
    if typ = 0x01 ∧ count ≤ 4096 ∧ rlen = cdiv (24 + 2 * count) 8 ∧ span = 0 then
      some (.trace n seq (rd b 16 8) (halves count (b.drop 24)), len)
    else none
  else if seq ≠ 0 then none
  else
    match typ with
    | 0x10 =>
      if count = 0 ∧ rlen = 4 ∧ span ≠ 0 ∧ rd b 24 1 < 128 ∧ rd b 26 1 < 64 ∧ rd b 27 1 < 4 ∧ rd b 28 4 = 0 then
        some (.bind n span (rd b 16 8) (rd b 24 1) (rd b 25 1) (rd b 26 1) (rd b 27 1), len) else none
    | 0x11 =>
      if count = 0 ∧ rlen = 4 ∧ span ≠ 0 ∧ rd b 25 7 = 0 then some (.leave n span (rd b 16 8) (rd b 24 1), len) else none
    | 0x12 =>
      let es := schedEntries count (b.drop 16)
      if 1 ≤ count ∧ count ≤ 64 ∧ rlen = 2 + 2 * count ∧ es.all (fun e => e.kind == 2 || e.arg == 0) then
        some (.sched n span es, len) else none
    | 0x13 => if count = 0 ∧ rlen = 4 ∧ rd b 24 8 = 0 then some (.cancel n span (rd b 16 8), len) else none
    | _ => none

/-- One record is taken in from ring `r`; answers whether it was discarded under R130 or for want of a bound stream. -/
def State.takeRec (s : State) (r : Nat) (x : Rec) : Bool × State :=
  let (dis, t) : Bool × State := match x with
    | .trace n seq t0 xs => s.takeTrace r n seq t0 xs
    | .bind n span die tray slot cls rate => (false, s.bind r n span die tray slot cls rate)
    | .leave n span t reason => (false, s.leave r n span t reason)
    | .sched n span es => s.sched n span es
    | .cancel n span t => s.cancel n span t
  (dis, if dis then t else t.carried r s.ing)

/-- The records of a buffer from offset `o` on: bytes taken in, records discarded, whether a malformed record ended it. -/
def State.takeRecs (s : State) (r : Nat) (trace : Bool) : Nat → Nat → Nat → List Byte → Nat × Nat × Bool × State
  | 0, o, k, _ => (o, k, false, s)
  | fuel + 1, o, k, b =>
    if b.isEmpty then (o, k, false, s)
    else match parseRec trace b with
      | none => (o, k, true, s)
      | some (x, n) =>
        let (dis, s) := s.takeRec r x
        State.takeRecs s r trace fuel (o + n) (k + b2n dis) (b.drop n)

/-- What a descriptor has changed of the ingest `old` is noted at a standby whose ring is a shadow (R146). -/
def State.noteCut (s : State) (r idx : Nat) (old : Ing) : State :=
  if s.standby && s.on (Reg.HST_RCFG_SHADOW r) then
    let c := cutRec r idx old s.ing
    if c.streams.isEmpty && c.sched.isEmpty then s else s.ingMod fun i => { i with above := i.above ++ [c] }
  else s

/-- The descriptor lies at or above the cut index of its ring (R145); a ring without one has none below. -/
def State.aboveCut (s : State) (cuts : List (Nat × Nat)) (c : CutRec) : Bool :=
  let n := s.ringLen c.ring
  match cuts.find? fun e => e.1 == c.ring with
  | none => true
  | some e => decide ((c.index + n - e.2 % n) % n < n / 2)

/-- The inputs that a set of cut indices leaves: the streams and schedule without what the descriptors at or above them have changed,
the latest undone first (R146); what another ring has changed since stays. -/
def State.cutInputs (s : State) (cuts : List (Nat × Nat)) : Tab Stream × List SchedE :=
  (s.ing.above.filter (s.aboveCut cuts)).reverse.foldl (fun a c => (c.undoStreams a.1, c.undoSched a.2)) (s.ing.streams, s.ing.sched)

/-- The record last carried on crossing 0 is discarded (R24): streams, schedule and waiting LEAVEs are as without it. -/
def State.recordMissed (s : State) : State :=
  match s.ing.last with
  | none => s
  | some c => s.ingMod fun i => { i with
      streams := c.undoStreams i.streams, sched := c.undoSched i.sched, leaves := c.undoLeaves i.leaves, last := none }

/-- A buffer of a TRACE or SCORE ring (R122 to R124). -/
def State.recBuf (s : State) (r op : Nat) (d : Desc) (trace : Bool) : State :=
  s.cmdOn (if trace then 2 else 3) r op d
    { priv := 1, buf := .reads, lenOk := fun n => n % 8 = 0 && decide (n ≤ 1048576),
      parOk := decide (d.p0 = 0 ∧ d.p1 = 0 ∧ d.p2 = 0) } fun s =>
    let b := bufBytes d
    let old := s.ing
    let (done, k, badRec, s) := s.takeRecs r trace (b.length / 8 + 1) 0 0 b
    let s := s.noteCut r d.idx old
    if badRec then { s := s, status := some 0x15, done := done } else { s := s, done := done, result := k }

/-- TRACE_RECORD (R127): one record of a TRACE ring, with samples. -/
def execTraceRecord (r stream seq t0 : Nat) (samples : List Nat) (s : State) : Out State :=
  .next (s.takeRec r (.trace stream seq t0 samples)).2

/-- KEEP_ALIVE (R129): a trace record without samples; the stream time becomes its T0. -/
def execKeepAlive (r stream seq t0 : Nat) (s : State) : Out State := .next (s.takeRec r (.trace stream seq t0 [])).2

/-- BIND (R132). -/
def execBind (r stream span dieid tray slot dclass rate : Nat) (s : State) : Out State :=
  .next (s.takeRec r (.bind stream span dieid tray slot dclass rate)).2

/-- LEAVE (R133). -/
def execLeave (r stream span t reason : Nat) (s : State) : Out State := 
  .next (s.takeRec r (.leave stream span t reason)).2

/-- LEAVE_TIME_REACHED (R133). -/
def execLeaveTimeReached (stream : Nat) (s : State) : Out State :=
  .next (if s.ing.leaves.any fun l => l.1 == stream && decide (l.2.1 ≤ s.time) then s.unbind stream 1 else s)

/-- SCHED (R136). -/
def execSched (r stream span : Nat) (entries : List SchedRec) (s : State) : Out State :=
  .next (s.takeRec r (.sched stream span entries)).2

/-- CANCEL (R135). -/
def execCancel (r stream span t : Nat) (s : State) : Out State := .next (s.takeRec r (.cancel stream span t)).2

/-- STREAM_LAG_CHANGE (R137): the stream takes the state of its lag; a stream that has had no record stays BOUND. -/
def State.lagChange (s : State) (n : Nat) : State :=
  match s.stream n with
  | none => s
  | some x => if x.state = 1 then s else (s.putStream n { x with state := s.lagState x.time }).lossCheck

/-- STREAM_LAG_CHANGE (R137). -/
def execStreamLagChange (stream : Nat) (s : State) : Out State := .next (s.lagChange stream)

/-- STREAM_SILENCE_TIMEOUT (R137, R138): a stream SILENT for 2 ms leaves, unless ingest counts as lost. -/
def execStreamSilenceTimeout (stream : Nat) (s : State) : Out State :=
  .next (match s.stream stream with
    | none => s
    | some x => if x.state = 4 ∧ !s.on Reg.HST_ING_STAT_LOST then s.unbind stream 2 else s)

/-- UNANCHOR_TIMEOUT (R131): VALID has been clear for 1 s. -/
def execUnanchorTimeout (s : State) : Out State :=
  .next (if s.on Reg.HST_PTM_STAT_VALID then s else s.set Reg.HST_ING_STAT_UNANCH 1)

/-! ## Windows and history (R144) -/

/-- The mean of a stream over the last 1 ms before grid position `p`, 0 without a sample: what a held die counts at (R141). -/
def Stream.mean1ms (x : Stream) (p : Nat) : Int :=
  let xs := (x.win.filter fun e => decide (e.1 < p ∧ p ≤ e.1 + 1000 ∧ e.2 ≠ 0x8000)).map fun e => toS 16 e.2
  if xs.isEmpty then 0 else divRne (xs.foldl (· + ·) 0) xs.length

/-- What the Press counts the held dies at before grid position `p`, in mA (R141). -/
def heldDraw (xs : Tab Stream) (p : Nat) : Int :=
  divRne (((xs.filter fun e => e.2.held).map fun e => e.2.mean1ms p).foldl (· + ·) 0) 10

/-- The sample of a stream at grid position `p` (us): none when absent or older than the 4,096 latest positions. -/
def Stream.sample (x : Stream) (p : Nat) : Option Int :=
  match Tab.find x.win p with
  | none => none
  | some v => if v = 0x8000 ∨ p + 4096 < x.time / 1000 then none else some (toS 16 v)

/-- HISTORY_SAMPLE (R144): one history sample of each bound stream for the 25 us from `t`, aligned to 25 us. -/
def execHistorySample (t : Nat) (s : State) : Out State :=
  .next (if t % 25 = 0 ∧ (t + 25) * 1000 ≤ s.time then
    s.ingMod fun i => { i with hist := i.streams.foldl (fun h e => (e.2.tb * 8192 + e.1, t, e.2.hist25 t) :: h) i.hist }
  else s)

/-- The cut indices of a press cycle (R145): for each TRACE and SCORE ring in service, the lowest descriptor index whose
records are not all committed. -/
def State.cutIndices (s : State) : List (Nat × Nat) :=
  (s.ringsOf 2 ++ s.ringsOf 3).map fun r =>
    (r, (s.get (Reg.HST_RPTR_HEAD r) + s.ringLen r - (s.ring r).fetched.length % s.ringLen r - b2n (s.ring r).busy) % s.ringLen r)

end Sys2Proof.Machine
end

