-- ==== Sys2Proof/Machine/Run.lean ====
section
/-!
DEFINITION. How a run executes its sorts (R209, R210, R225 to R231): which run holds the sequencer of a textblock, the
next sort, loops, barriers, seeds; tensor elements read and written with their conversions (R207, R208, R181, R196 to
R198). Textblocks are named by their logical numbers.
-/
namespace Sys2Proof.Machine

/-! ## The sequencer -/

/-- Rank of a run (R231): PROOF, then PLAN, then TRAIN and AUX. -/
def runRank (kind : Nat) : Nat := min kind 2

/-- Cycles of TRAIN runs that a textblock allows in 1 ms (R280). -/
def State.trainLimit (s : State) : Nat := s.get Reg.PRS_TRN_CTL_SHARE * 1000000 / 256

/-- Steps are run only in state RUN (R278, R285): in any other state a step in progress stays where it is. -/
def State.stepHeld (s : State) (r : Run) : Bool :=
  r.kind == 2 && s.trn.plan[1]? == some r.slot && s.get Reg.PRS_TRN_STAT_STATE != 2

/-- The slot of a run waits for its variant, or has none: it runs nothing in the meantime (R203, R237). -/
def State.heldRun (s : State) (r : Run) : Bool :=
  let x := s.slotX r.slot
  x.forme.isSome && !x.ready && x.inst == r.inst

/-- The run that holds the sequencer of textblock `t` (R231): the first of highest rank that has not ended there, of a slot whose
variant is in its leaves. A TRAIN run yields when its share is used (R280) and while training is deferred (R26, R31, R32, R54). A
step yields while the trainer is not in state RUN (R285). -/
def State.runOf (s : State) (t : Nat) : Option Run :=
  let open_ := s.prs.runs.filter fun r => match r.tbs[t]? with
    | some x => !x.ended && (r.v.nq[t]?).getD 0 != 0 && !s.heldRun r && !s.stepHeld r &&
        (r.kind != 2 || (s.trn.defer.isEmpty && decide ((s.trn.used[t]?).getD 0 < s.trainLimit)))
    | none => false
  match (open_.map fun r => runRank r.kind).min? with
  | none => none
  | some k => open_.find? fun r => runRank r.kind == k

/-- A run's place in a textblock. -/
def Run.tb (r : Run) (t : Nat) : TbRun := (r.tbs[t]?).getD {}

/-- Changes a run's place in a textblock. -/
def Run.tbMod (r : Run) (t : Nat) (f : TbRun → TbRun) : Run := { r with tbs := r.tbs.modify t f }

/-- Replaces the run of a slot. -/
def State.runPut (s : State) (r : Run) : State :=
  s.prsMod fun p => { p with runs := p.runs.map fun q => if q.slot = r.slot then r else q }

/-- Loops that end at `pc` go round or close (R225). -/
def endLoops (pc : Nat) : List LoopX → Nat × List LoopX
  | [] => (pc, [])
  | l :: t =>
    if l.after = pc then
      if 1 < l.left then (l.first, { l with left := l.left - 1, it := l.it + 1 } :: t)
      else endLoops pc t
    else (pc, l :: t)

/-- The place after a sort has retired. -/
def TbRun.next (x : TbRun) (pc : Nat) : TbRun :=
  let p := endLoops pc x.loops
  { x with pc := p.1, loops := p.2, wait := 0 }

/-- What a sort is executed in: the run, the textblock, the place and the sort. -/
structure Ctx where
  run : Run
  t : Nat
  x : TbRun
  w : SortW
deriving DecidableEq, Repr

/-- The seed of the sort (R210). -/
def Ctx.seed (c : Ctx) : Nat :=
  let it := match c.x.loops with
    | l :: _ => l.it
    | [] => 0
  ((c.run.f.seedbase ^^^ (c.w.seedofs * 0x9E3779B9 % 2 ^ 32)) + c.run.step + it * 0x6A09E667) % 2 ^ 32

/-- The next sort of textblock `t`, when its run is not held at a barrier or a volume reduction. -/
def State.nextSort (s : State) (t : Nat) : Option Ctx :=
  match s.runOf t with
  | none => none
  | some r =>
    let x := r.tb t
    if x.wait ≠ 0 then none
    else (r.v.sorts[x.pc]?).map fun w => { run := r, t := t, x := x, w := w }

/-! ## Saturations (R157, R201) -/

/-- Saturations met in logical textblock `t`: those not yet tagged with a textblock get it. -/
def tagSats (t : Nat) (ks : Sats) : Sats := ks.map fun k => if k < 16 then k + 16 * (t + 1) else k

/-- The flag of a kind of saturation. -/
def satFlag (k : Nat) : Fld := match k % 16 with
  | 0 => Reg.PRS_SAT_LEAF
  | 1 => Reg.PRS_SAT_FOLIO
  | 2 => Reg.PRS_SAT_QUIRE
  | 3 => Reg.PRS_SAT_TBLK
  | 4 => Reg.PRS_SAT_VOL
  | 5 => Reg.PRS_ASAT_ALIGN
  | 6 => Reg.PRS_ASAT_RESC
  | 7 => Reg.PRS_ASAT_OUT
  | 8 => Reg.PRS_ASAT_ELEM
  | _ => Reg.PRS_ASAT_EXPLO

/-- The saturations of a sort set their flags, are counted, and the first latches its position with the logical textblock where
it occurred, `t` where the saturation names none (R157, R201). -/
def State.sats (s : State) (c : Ctx) (ks : Sats) (t : Nat := c.t) : State :=
  let s := ks.dedup.foldl (fun s k => s.set (satFlag k) 1) s
  let at_ := fun (k : Nat) => if k < 16 then t else k / 16 - 1
  match ks.filter (· % 16 ≤ 8) with
  | [] => s
  | k :: ts =>
    let s := s.add Reg.PRS_ASAT_CNT (ts.length + 1)
    let s := (k :: ts).foldl (fun s j => s.count (s.physTb (at_ j)) 14 1 c.run.kind) s
    if s.on Reg.PRS_ASAT_POS_VALID then s
    else ((((s.set Reg.PRS_ASAT_POS_SORT c.x.pc).set Reg.PRS_ASAT_POS_FORME c.run.slot).set Reg.PRS_ASAT_POS_TB (at_ k)).set
      Reg.PRS_ASAT_POS_KIND (k % 16)).set Reg.PRS_ASAT_POS_VALID 1

/-! ## Tensor elements -/

/-- The instance of a tensor: logical textblock, logical quire, logical folio. -/
structure Inst where
  t : Nat
  q : Nat := 0
  f : Nat := 0
deriving DecidableEq, Repr

/-- The instances of a DIST in textblock `t` for a variant (R207): 1 each folio, 2 each quire, 3 the textblock, 4 the
volume, which lies in logical textblock 0. -/
def insts (v : Variant) (t d : Nat) : List Inst :=
  let nq := (v.nq[t]?).getD 0
  match d with
  | 1 => (List.range nq).flatMap fun q => (List.range 16).map fun f => ⟨t, q, f⟩
  | 2 => (List.range nq).map fun q => ⟨t, q, 0⟩
  | 3 => [⟨t, 0, 0⟩]
  | _ => if t = 0 then [⟨0, 0, 0⟩] else []

/-- The physical quire of a logical one. -/
def State.physQ (s : State) (pt q : Nat) : Nat := ((s.quiresOf pt)[q]?).getD 0

/-- OFFSET of a tensor, advanced by the loop of its depth (R207, R225). -/
def Ctx.offset (c : Ctx) (x : Tensor) : Nat :=
  let n := c.x.loops.length
  if x.looplvl = 0 ∨ n < x.looplvl then x.offset
  else x.offset + x.istride * (match c.x.loops[n - x.looplvl]? with
    | some l => l.it
    | none => 0)

/-- First byte of a tensor of DRAM within its stack (R207): offsets in the slot's area, or in the region. -/
def Ctx.dramOff (c : Ctx) (x : Tensor) : Nat :=
  regionBase x.region + (match x.region with
    | 2 => c.run.f.marea
    | 3 => c.run.f.sarea
    | 4 => c.run.f.rarea
    | _ => 0) + c.offset x

/-- The address of row `r` of a tensor in an instance; a tensor of DIST 4 lies in logical textblock 0 (R207). -/
def State.rowAddr (s : State) (c : Ctx) (x : Tensor) (i : Inst) (r : Nat) : Nat :=
  let t := s.physTb (if x.dist = 4 then 0 else i.t)
  let o := c.offset x + r * x.stride
  match x.space with
  | 1 => actAddr t (s.physQ t i.q) i.f o
  | 2 => qbufAddr t (s.physQ t (if x.dist = 2 then i.q else 0)) o
  | _ => dramAddr t (c.dramOff x + r * x.stride)

/-- The scale byte of block `b` of a row (R208). -/
def State.scaleAt (s : State) (x : Tensor) (row b : Nat) : Nat := (s.pbyte (row + x.cols * fmtW x.fmt / 8 + b)).toNat

/-- The stored integer of element `k` of the row at `row`: a mantissa (R181) or a FIXED value. -/
def State.rawAt (s : State) (x : Tensor) (row k : Nat) : Int :=
  if isBlk x.fmt then
    let w := fmtW x.fmt
    if w ≤ 8 then toS w ((s.pbyte (row + w * k / 8)).toNat / 2 ^ (w * k % 8)) else toS w (s.pnum (row + w * k / 8) 2)
  else
    let n := fmtBits x.fmt / 8
    toS (8 * n) (s.pnum (row + n * k) n)

/-- Block `b` of the row at `row`. -/
def State.blkAt (s : State) (x : Tensor) (row b : Nat) : Blk :=
  { m := (List.range 32).map fun j => s.rawAt x row (32 * b + j), scale := s.scaleAt x row b }

/-- The exponent of element `k`'s block, or 0 for a FIXED value; `none` from a block whose zero flag is set. -/
def State.expAt (s : State) (x : Tensor) (row k : Nat) : Option Int :=
  if isBlk x.fmt then
    let b := s.scaleAt x row (k / 32)
    if bit b 7 then none else some (toS 7 b)
  else some 0

/-- Element `k` as a wide value at exponent `a` (R198). -/
def State.wide (s : State) (a : Int) (x : Tensor) (row k : Nat) : W Int :=
  let v := s.rawAt x row k
  if isBlk x.fmt then
    match s.expAt x row k with
    | none => (0, [])
    | some e => align 48 5 v e a
  else (v, [])

/-- The bytes of a row of blocks: mantissas, then scale bytes (R181, R208). -/
def blkBytes (w : Nat) (bs : List Blk) : List Byte :=
  let bitsOf := fun (b : Blk) => b.m.zipIdx.foldl (fun (a : Nat) p => a + ofS w p.1 * 2 ^ (w * p.2)) 0
  (bs.flatMap fun b => le (4 * w) (bitsOf b)) ++ bs.map fun b => byte b.scale

/-- The values of a list by 32, padded with zeros (R197). -/
def by32 : Nat → List (Int × Nat) → List (List (Int × Nat))
  | 0, _ => []
  | n + 1, vs => if vs.isEmpty then [] else (vs.take 32 ++ List.replicate (32 - vs.length) (0, 0)) :: by32 n (vs.drop 32)

/-! ## Slots, the galley and results discarded (R153, R173, R176) -/

/-- Changes a slot. -/
def State.slotMod (s : State) (i : Nat) (f : Slot → Slot) : State :=
  s.prsMod fun p => { p with slots := Tab.put p.slots i (f (s.slotX i)) }

/-- Slots of a kind that are enabled and can run, in ascending order. -/
def State.live (s : State) (kind : Nat) : List Nat :=
  (s.prs.slots.filter fun e => e.2.en && e.2.canRun && e.2.kindIs kind).map (·.1)

/-- Changes the galley. -/
def State.galMod (s : State) (f : Gal → Gal) : State := { s with gal := f s.gal }

/-- A plan run's outcome is dropped without having driven (R261): reason 1 run abandoned, 2 status, 3 basis. -/
def State.planDrop (s : State) (basis reason status : Nat) : State :=
  let s := (s.bump Reg.PRS_GAL_PDISC).galMod fun g => { g with basis := Tab.del g.basis basis }
  s.evt 2 0x0303 (le 4 basis ++ le 1 reason ++ le 1 status ++ zeros 6)

/-- A variant uses logical textblock `t`. -/
def Variant.usesTb (v : Variant) (t : Nat) : Bool := (v.nq[t]?).getD 0 != 0

/-- What physical textblock `t` makes of the press cycle in progress is discarded (R153, R170, R173, R176): the proof, where
an enabled PROOF forme uses the textblock; the runs in progress there; the plans whose run ended in this cycle. -/
def State.discardTb (s : State) (t : Nat) : State :=
  match s.tbs.idxOf? t with
  | none => s
  | some l =>
    let proof := (s.live 0).any fun i => (s.slotX i).variant.any fun v => v.usesTb l
    let s := s.prsMod fun p => { p with
      discard := p.discard || proof
      runs := p.runs.map fun r => if r.kind ≤ 1 && r.v.usesTb l then { r with bad := true } else r }
    let gone := s.gal.planWait.filter fun w => w.cyc == s.get Reg.PRS_GAL_CYC && w.tbs.contains l
    gone.foldl (fun s w => s.planDrop w.basis 1 w.status)
      (s.galMod fun g => { g with planWait := g.planWait.filter fun w => !gone.contains w })

/-! ## Writes of DRAM (R176) -/

/-- A row of `n` bytes at `a` of DRAM that the sort may write (R176): within scratch or reserve; for the forme of the step
slot, also within the work area that the training plan gives it in its model area (R272, R278). -/
def State.dramWritable (s : State) (c : Ctx) (a n : Nat) : Bool :=
  let o := a % 2 ^ 36
  decide (regionBase 3 ≤ o ∧ o + n ≤ dramSize) ||
    (c.run.kind == 2 && s.trn.plan[1]? == some c.run.slot &&
      (let w := regionBase 2 + c.run.f.marea + (s.trn.plan[4]?).getD 0
       decide (w ≤ o ∧ o + n ≤ w + (s.trn.plan[5]?).getD 0)))

/-- A write of a sort to DRAM outside the regions that its forme may write is blocked: the textblock's result of the press
cycle is discarded and the DRAM-access detector is raised (R176). -/
def State.dramBlocked (s : State) (c : Ctx) : State :=
  (s.discardTb (s.physTb c.t)).raise (detN (8 + s.physTb c.t) 5) 0 c.run.slot

/-- `n` bytes of a row of a tensor written at `a`, unless R176 blocks it. -/
def State.guarded (s : State) (c : Ctx) (x : Tensor) (a n : Nat) (f : State → Nat → State) : State :=
  if x.space = 4 ∧ !s.dramWritable c a n then s.dramBlocked c else f s a

/-- The bytes from the start of a row of a tensor to the end of `n` of its values; a block row ends with its scale bytes. -/
def Tensor.reach (x : Tensor) (n : Nat) : Nat := rowBytes x.fmt (if isBlk x.fmt then x.cols else n)

/-! ## Rows written -/

/-- Writes columns `c0` on of the row at `row` of a destination from wide values at the sort's A through OUT (R196, R197); `chans`
is C of R186, and `c0` a multiple of 32. -/
def State.rowPut (s : State) (c : Ctx) (x : Tensor) (i : Inst) (r chans c0 : Nat) (vs : List Int) (row : Nat) : State :=
  if 1 ≤ c.w.out ∧ c.w.out ≤ 3 then
    let n := 16 * c.w.out
    let os := vs.map (outFixed n)
    (s.pwrite (row + c0 * n / 8) (os.flatMap fun o => le (n / 8) (ofS n o.1))).sats c (os.flatMap (·.2)) i.t
  else
    let w := fmtW (c.w.out - 4)
    let seed := (c.seed + 0x9E3779B9) % 2 ^ 32
    let us := vs.zipIdx.map fun p => (p.1, srBits seed ((r * chans + c0 + p.2) % 2 ^ 32))
    let bs := (by32 (vs.length + 1) us).map (requant w c.w.rnd c.w.a)
    let s := s.pwrite (row + c0 * w / 8) ((blkBytes w (bs.map (·.1))).take (bs.length * 4 * w))
    (s.pwrite (row + x.cols * w / 8 + c0 / 32) (bs.map fun b => byte b.1.scale)).sats c (bs.flatMap (·.2)) i.t

/-- The same at row `r` of the destination, unless R176 blocks it. -/
def State.putRowAt (s : State) (c : Ctx) (x : Tensor) (i : Inst) (r chans c0 : Nat) (vs : List Int) : State :=
  s.guarded c x (s.rowAddr c x i r) (x.reach (c0 + vs.length)) fun s a => s.rowPut c x i r chans c0 vs a

/-- Writes a row from its first column. -/
def State.putRow (s : State) (c : Ctx) (x : Tensor) (i : Inst) (r chans : Nat) (vs : List Int) : State :=
  s.putRowAt c x i r chans 0 vs

/-- A wide operation element by element: every instance of the destination in the textblock, every row, every element;
`op` is given the instance, the row and the element. -/
def State.elems (s : State) (c : Ctx) (d : Tensor) (op : State → Inst → Nat → Nat → W Int) : State :=
  (insts c.run.v c.t d.dist).foldl (fun s i =>
    (List.range c.w.n1).foldl (fun s r =>
      let vs := (List.range c.w.n2).map (op s i r)
      (s.sats c (vs.flatMap (·.2)) i.t).putRow c d i r c.w.n2 (vs.map (·.1))) s) s

/-- A handle's tensor. -/
def Ctx.tensor (c : Ctx) (h : Nat) : Option Tensor := c.run.v.tensor h

/-- Element (r, k) of a tensor in an instance as a wide value. -/
def State.wideAt (s : State) (c : Ctx) (x : Tensor) (i : Inst) (r k : Nat) : W Int :=
  s.wide c.w.a x (s.rowAddr c x i r) k

/-! ## Weights (R208, R212) -/

/-- The leaf that holds reduction part `u` of channel group `g` of a WEIGHT tensor, as the products of SCOPE `l` place them
(R212): its instance and its leaf. -/
def weightPart (v : Variant) (x : Tensor) (l g u : Nat) : Inst × Nat :=
  let qs := v.used.flatMap fun t => (List.range ((v.nq[t]?).getD 0)).map fun q => (t, q)
  let at_ := fun (n : Nat) => (qs[n]?).getD (0, 0)
  match l with
  | 1 => let (t, q) := at_ (g / x.p); (⟨t, q, g % x.p⟩, u)
  | 2 => let (t, q) := at_ g; (⟨t, q, u / x.l⟩, u % x.l)
  | 3 =>
    let t := (v.used[g]?).getD 0
    (⟨t, u / (x.l * x.p), u / x.l % x.p⟩, u % x.l)
  | _ => let (t, q) := at_ (u / (x.l * x.p)); (⟨t, q, u / x.l % x.p⟩, u % x.l)

/-- The address of block `b` of channel `ch` in a leaf, and that of its scale byte (R208). -/
def State.weightAddr (s : State) (c : Ctx) (x : Tensor) (i : Inst) (l b ch : Nat) : Nat × Nat :=
  let w := fmtW x.fmt
  let t := s.physTb i.t
  let o := (c.offset x + b) * 128 * w + ch % 32 * 4 * w
  (leafAddr t (s.physQ t i.q) i.f l o, leafAddr t (s.physQ t i.q) i.f l (2 ^ 16 + o / 8))

/-- A weight block. -/
def State.weightBlk (s : State) (c : Ctx) (x : Tensor) (i : Inst) (l b ch : Nat) : Blk :=
  let w := fmtW x.fmt
  let (a, e) := s.weightAddr c x i l b ch
  let n := s.pnum a (4 * w)
  { m := (List.range 32).map fun j => toS w (n / 2 ^ (w * j)), scale := (s.pbyte e).toNat }

/-- The instance of channel group `g` of a product of SCOPE `l` (R212). -/
def groupInst (v : Variant) (y : Tensor) (l g : Nat) : Inst :=
  let i := (weightPart v y l g 0).1
  match l with
  | 1 => i
  | 2 => { i with f := 0 }
  | 3 => { i with q := 0, f := 0 }
  | _ => ⟨0, 0, 0⟩

/-! ## Sort tagging (R568, R569) -/

/-- The LFSR of a textblock steps and its countdown is loaded (R568). -/
def State.tagLoad (s : State) (pt : Nat) (x : Tag) : Tag :=
  let k := min 20 (max 4 (s.get Reg.PRF_TAG_K))
  let seed := s.get Reg.PRF_TSEED ^^^ pt
  let l0 := if x.lfsr = 0 then (if seed = 0 then 1 else seed) else x.lfsr
  let l := if l0 % 2 = 1 then (l0 / 2) ^^^ 0x80200003 else l0 / 2
  { x with lfsr := l, left := 2 ^ (k - 1) + l % 2 ^ k }

/-- A product sort meets, in its textblock, a block whose zero flag is set: only such a block is skipped (R152, R183). -/
def State.skipsZero (s : State) (c : Ctx) : Bool :=
  match c.tensor c.w.src1, c.tensor c.w.src2 with
  | some x, some y =>
    if c.w.op = 0x10 then
      (List.range (mmulGroups c.run.v c.w y)).any fun g =>
        (List.range (mmulParts c.run.v c.w y)).any fun u =>
          let (j, leaf) := weightPart c.run.v y c.w.scope g u
          j.t == c.t && (List.range y.nb).any fun b =>
            (List.range c.w.n1).any (fun r => bit (s.scaleAt x (s.rowAddr c x j r) (u * y.nb + b)) 7) ||
            (List.range (min 32 (c.w.n2 - 32 * g))).any fun k =>
              bit (s.pbyte (s.weightAddr c y j leaf b (32 * g + k)).2).toNat 7
    else if c.w.op = 0x38 then
      [x, y].any fun z => isBlk z.fmt && (insts c.run.v c.t z.dist).any fun i => (List.range c.w.n1).any fun r =>
        (List.range (z.cols / 32)).any fun b => bit (s.scaleAt z (s.rowAddr c z i r) b) 7
    else false
  | _, _ => false

/-- The zero blocks that a sort skips are counted (R566): how many is the hardware's own figure, a free value of at least 1. -/
def State.countZero (s : State) (c : Ctx) (pt : Nat) : State :=
  if s.counting pt 5 && s.skipsZero c then
    let (v, s) := s.draw
    s.count pt 5 (v + 1) c.run.kind
  else s

/-- The record of a tagged sort (R569): its stage offsets before S8 are the hardware's own (free values). -/
def State.tagRecord (s : State) (c : Ctx) (pt no cyc : Nat) : State :=
  let z := b2n (s.skipsZero c)
  let n0 := s.free
  let stages := (List.range 8).map fun j => Config.freeValue (n0 + j) % 2 ^ 32
  let s := { s with free := n0 + 8 }
  let p := le 4 no ++ le 1 pt ++ le 1 c.run.slot ++ le 1 c.run.kind ++ le 1 (4 * z) ++ le 2 c.x.pc ++ le 1 c.w.op ++
    le 1 c.w.scope ++ le 4 c.run.cycle ++ le 8 s.time ++ le 4 (s.get (Reg.PRF_CYC pt)) ++ stages.flatMap (le 4) ++ le 4 cyc
  let inl := le 4 no ++ le 1 pt ++ le 1 c.w.op ++ le 2 c.x.pc ++ le 4 cyc
  let s := s.bump Reg.PRF_TCNT
  ((s.ringsOf 4).filter fun r => bit (s.get (Reg.HST_REVMASK r)) 11 && decide (1 ≤ s.get (Reg.HST_RAUX_SLOT r))).foldl
    (fun s r => s.postEntry r 0x0C00 11 false (fun _ => inl) p) s

/-- A sort is issued in physical textblock `pt`: the countdown falls, and at 0 the sort is tagged (R568). A sort retires
with the command that issues it, so no tagged sort is in flight at the next one. -/
def State.tagSort (s : State) (c : Ctx) (pt cyc : Nat) : State :=
  let km := s.get Reg.PRF_TAG_KMASK
  if s.get Reg.PRF_TAG_K = 0 || !bit (s.get Reg.PRF_TAG_TBMASK) pt || !(km == 0 || bit km c.run.kind) then s
  else
    let x := Tab.get s.prf.tags pt {}
    let x := if x.left = 0 then s.tagLoad pt x else x
    let put := fun (s : State) (y : Tag) => { s with prf := { s.prf with tags := Tab.put s.prf.tags pt y } }
    if x.left = 1 then (put s { s.tagLoad pt x with no := x.no + 1 }).tagRecord c pt x.no cyc
    else put s { x with left := x.left - 1 }

/-- Cycles that a sort took count in its run, and in the share of a TRAIN run (R280). -/
def State.charge (s : State) (c : Ctx) (t cyc : Nat) : State :=
  let n := min cyc (sortCycles c.run.v c.w)
  let s := s.prsMod fun p => { p with runs := p.runs.map fun q =>
    if q.slot = c.run.slot then q.tbMod t fun x => { x with cyc := x.cyc + n } else q }
  let s := if c.run.kind = 2 then { s with trn := { s.trn with used := s.trn.used.modify t (· + n) } } else s
  let pt := s.physTb t
  ((((s.count pt 1 n c.run.kind).count pt 2 1 c.run.kind).count pt 3 1 c.run.kind).countZero c pt).tagSort c pt n

/-- What a sort writes into rows over the spine is noted until the next one: the ports each row passes, and its bytes before and after
(R154). Without such a row the note stays as it is. -/
def State.noteMove (s : State) (rows : List (List Nat × Nat × Nat)) (eff : State → State) : State :=
  if rows.isEmpty then eff s
  else
    let t := eff s
    t.prsMod fun p => { p with lastMove := rows.map fun r => (r.1, r.2.1, s.pbytes r.2.1 r.2.2, t.pbytes r.2.1 r.2.2) }

/-- The rows of a destination that a reduction over the textblocks writes: their parts pass the ports of all of them (R154). -/
def State.volumeRows (s : State) (c : Ctx) (d : Tensor) (n cols : Nat) : List (List Nat × Nat × Nat) :=
  if c.w.scope ≠ 4 ∨ c.run.v.used.length < 2 then []
  else (c.run.v.used.flatMap fun u => insts c.run.v u d.dist).flatMap fun i =>
    (List.range n).map fun r => (c.run.v.used.map s.physTb, s.rowAddr c d i r, d.reach cols)

/-- The run moves on in a textblock after the sort at `pc`. -/
def State.advance (s : State) (slot t pc : Nat) : State :=
  s.prsMod fun p => { p with runs := p.runs.map fun q =>
    if q.slot = slot then q.tbMod t fun x => x.next pc else q }

/-- Textblock `t` issues its next sort when it is one of opcode `op`; `cyc` is the time it takes, within its bound. -/
def State.issue (s : State) (t op cyc : Nat) (eff : State → Ctx → State) : State :=
  match s.nextSort t with
  | none => s
  | some c =>
    if c.w.op ≠ op then s
    else ((eff s c).charge c t cyc).advance c.run.slot t (c.x.pc + 1)

/-- As `issue`, for a sort that may have SCOPE 4: then every textblock of the run waits at it (level 5), and it is executed
when the last has come, over all of them (log entry 17). -/
def State.issueV (s : State) (t op cyc : Nat) (eff : State → Ctx → State) : State :=
  match s.nextSort t with
  | none => s
  | some c =>
    if c.w.op ≠ op then s
    else if c.w.scope ≠ 4 then ((eff s c).charge c t cyc).advance c.run.slot t (c.x.pc + 1)
    else
      let s := (s.charge c t cyc).runPut ((((s.charge c t cyc).prs.runs.find? fun q => q.slot == c.run.slot).getD c.run).tbMod t
        fun x => { x with wait := 5, since := s.time })
      let r := (s.prs.runs.find? fun q => q.slot == c.run.slot).getD c.run
      if c.run.v.used.all fun u => (r.tb u).wait == 5 && (r.tb u).pc == c.x.pc then
        c.run.v.used.foldl (fun s u => s.advance c.run.slot u (c.x.pc + 1)) (eff s c)
      else s

end Sys2Proof.Machine
end

