-- ==== Sys2Proof/Machine/Sorts.lean ====
section
/-!
DEFINITION. The sorts of the Press (R211 to R226), one meaning each. A sort command names the logical textblock whose
sequencer issues its next sort, and the cycles that the sort takes; the operands are those of the sort word in the forme.
-/
namespace Sys2Proof.Machine

/-! ## Control sorts (R225, R226) -/

/-- SORT_NOP (R226). -/
def execSortNop (t cyc : Nat) (s : State) : Out State := .next (s.issue t 0x00 cyc fun s _ => s)

/-- END (R226): the run has ended in the textblock; no sort after it is read. -/
def State.sortEnd (s : State) (t cyc : Nat) : State :=
  match s.nextSort t with
  | none => s
  | some c =>
    if c.w.op ≠ 1 then s
    else
      let s := s.charge c t cyc
      s.prsMod fun p => { p with runs := p.runs.map fun q =>
        if q.slot = c.run.slot then q.tbMod t fun x => { x with ended := true, loops := [] } else q }

/-- END (R226). -/
def execEndSort (t cyc : Nat) (s : State) : Out State := .next (s.sortEnd t cyc)

/-- BAR (R226, R158): the textblock waits at a barrier of the sort's scope. -/
def State.sortBar (s : State) (t cyc : Nat) : State :=
  match s.nextSort t with
  | none => s
  | some c =>
    if c.w.op ≠ 2 then s
    else
      let s := s.charge c t cyc
      s.prsMod fun p => { p with runs := p.runs.map fun q =>
        if q.slot = c.run.slot then q.tbMod t fun x => { x with wait := c.w.scope, since := s.time } else q }

/-- BAR (R226). -/
def execBar (t cyc : Nat) (s : State) : Out State := .next (s.sortBar t cyc)

/-- LOOP (R225): the N1 sorts that follow run N2 times; none of them for N2 = 0. -/
def State.sortLoop (s : State) (t cyc : Nat) : State :=
  match s.nextSort t with
  | none => s
  | some c =>
    if c.w.op ≠ 3 then s
    else
      let s := s.charge c t cyc
      let pc := c.x.pc
      if c.w.n2 = 0 then s.advance c.run.slot t (pc + 1 + c.w.n1)
      else
        s.prsMod fun p => { p with runs := p.runs.map fun q =>
          if q.slot = c.run.slot then q.tbMod t fun x =>
            { x with pc := pc + 1, loops := { first := pc + 1, after := pc + 1 + c.w.n1, left := c.w.n2, it := 0 } :: x.loops }
          else q }

/-- LOOP (R225). -/
def execLoop (t cyc : Nat) (s : State) : Out State := .next (s.sortLoop t cyc)

/-! ## Data movement (R222 to R224) -/

/-- Copies the first `n` elements of row `r` between two tensors of one format: mantissas or values, and scale bytes. DESIGN CHOICE (unsafe):
the bytes go as they are, also those of a block whose zero flag is set (R182; log entry 93). -/
def State.copyRow (s : State) (d x : Tensor) (dst src n : Nat) : State :=
  if isBlk x.fmt then
    let w := fmtW x.fmt
    let s := s.pwrite dst (s.pbytes src (n * w / 8))
    s.pwrite (dst + d.cols * w / 8) (s.pbytes (src + x.cols * w / 8) (cdiv n 32))
  else s.pwrite dst (s.pbytes src (rowBytes x.fmt n))

/-- The scope of the first product of the variant that reads a WEIGHT tensor: it places the tensor's rows. -/
def weightScope (v : Variant) (h : Nat) : Nat :=
  match v.sorts.find? fun w => w.op == 0x10 && w.src2 == h with
  | some w => w.scope
  | none => 2

/-- LOAD of block `b` of row `r` into leaf `leaf` of instance `i` (R212); the column's CRC-16 is computed over its blocks (R222). -/
def State.loadBlock (s : State) (c : Ctx) (d x : Tensor) (r src : Nat) (i : Inst) (leaf b : Nat) : State :=
  let w := fmtW x.fmt
  let p := s.weightAddr c d i leaf (b % d.nb) r
  let s := (s.pwrite p.1 (s.pbytes (src + b * 4 * w) (4 * w))).pwrite p.2 [s.pbyte (src + x.cols * w / 8 + b)]
  let col := (List.range d.nb).flatMap fun n => s.pbytes (s.weightAddr c d i leaf n r).1 (4 * w)
  s.prsMod fun y => { y with wcrc := Tab.put y.wcrc (s.weightAddr c d i leaf 0 r).1 (Config.columnCrc col) }

/-- LOAD of one row into the leaves: row `r` is channel `r`, its blocks in part order (R212, R222). -/
def State.loadWeights (s : State) (c : Ctx) (d x : Tensor) (r src : Nat) : State :=
  let l := weightScope c.run.v c.w.dst
  (List.range (c.w.n2 / 32)).foldl (fun s b =>
    let p := weightPart c.run.v d l (r / 32) (b / d.nb)
    if p.1.t ≠ c.t then s else s.loadBlock c d x r src p.1 p.2 b) s

/-- LOAD (R222): N1 rows of N2 elements from DRAM to an on-chip tensor, in every instance, or to the leaves. -/
def State.sortLoad (s : State) (c : Ctx) : State :=
  match c.tensor c.w.dst, c.tensor c.w.src1 with
  | some d, some x =>
    if d.space = 3 then
      (List.range c.w.n1).foldl (fun s r => s.loadWeights c d x r (s.rowAddr c x ⟨c.t, 0, 0⟩ r)) s
    else
      (insts c.run.v c.t d.dist).foldl (fun s i => (List.range c.w.n1).foldl (fun s r =>
        s.copyRow d x (s.rowAddr c d i r) (s.rowAddr c x ⟨c.t, 0, 0⟩ r) c.w.n2) s) s
  | _, _ => s

/-- LOAD (R222). -/
def execLoad (t cyc : Nat) (s : State) : Out State := .next (s.issue t 0x08 cyc State.sortLoad)

/-- STORE (R222); a write outside scratch and reserve is blocked, the result of the press cycle is discarded and the
DRAM-access detector is raised (R176). -/
def State.sortStore (s : State) (c : Ctx) : State :=
  match c.tensor c.w.dst, c.tensor c.w.src1 with
  | some d, some x =>
    (insts c.run.v c.t d.dist).foldl (fun s i => (List.range c.w.n1).foldl (fun s r =>
      s.guarded c d (s.rowAddr c d i r) (d.reach c.w.n2) fun s a => s.copyRow d x a (s.rowAddr c x i r) c.w.n2) s) s
  | _, _ => s

/-- STORE (R222). -/
def execStore (t cyc : Nat) (s : State) : Out State := .next (s.issue t 0x09 cyc State.sortStore)

/-- COPY (R222): within the textblock, or with SCOPE 4 to the logical textblock of MOD [1:0], or to every one. -/
def State.sortCopy (s : State) (c : Ctx) : State :=
  match c.tensor c.w.dst, c.tensor c.w.src1 with
  | some d, some x =>
    let dsts := if c.w.scope ≠ 4 then [c.t] else if bit c.w.mod 2 then c.run.v.used else [bits c.w.mod 0 2]
    let moved := (dsts.filter (· != c.t)).flatMap fun u => (insts c.run.v c.t x.dist).flatMap fun i => (List.range c.w.n1).map fun r =>
      ([s.physTb c.t, s.physTb u], s.rowAddr c d { i with t := u } r, d.reach c.w.n2)
    s.noteMove moved fun s =>
      dsts.foldl (fun s u => (insts c.run.v c.t x.dist).foldl (fun s i => (List.range c.w.n1).foldl (fun s r =>
        s.copyRow d x (s.rowAddr c d { i with t := u } r) (s.rowAddr c x i r) c.w.n2) s) s) s
  | _, _ => s

/-- COPY (R222). -/
def execCopy (t cyc : Nat) (s : State) : Out State := .next (s.issue t 0x0A cyc State.sortCopy)

/-- The surrogates of a textblock in assignment order (R142, R223): first stream and members. -/
def surrogates (ing : Inputs) (t : Nat) : List (Nat × List Stream) :=
  let xs := sortBy (fun a b => decide (a.2.order ≤ b.2.order)) (ing.streams.filter fun e => e.2.tb == t && !e.2.held)
  (xs.filter fun e => e.2.lead == e.1).map fun e => (e.1, (xs.filter fun f => f.2.lead == e.1).map (·.2))

/-- The sample of a surrogate at grid position `p` (R223): the sum over its streams, saturating; none when absent. -/
def surSample (ms : List Stream) (p : Nat) : Option Int :=
  match ms.filterMap fun x => x.sample p with
  | [] => none
  | xs => some (satS 16 (xs.foldl (· + ·) 0))

/-- The measured shelf output current at a time in ns (R264): the newest sample up to it. -/
def iAt : List (Nat × Int) → Nat → Int
  | [], _ => 0
  | e :: t, ns => if e.1 ≤ ns then e.2 else iAt t ns

/-- Unit code 0 under blind INGEST (R264): the sample of a period, taken 520 ns into it (R23), holds over the whole of it. -/
def State.blindInput (s : State) (n p : Nat) : Int :=
  let sg := s.get Reg.PRS_GAL_SHARE_SIGMA
  if sg = 0 ∨ n = 0 then 0 else satS 16 (divRne (iAt s.chs.iHist (p * 1000 + 520) * 655360) (sg * n))

/-- A token of unit code 1 (R223): the values of a schedule entry relative to the cycle start, in us ÷ 2^k. -/
def schedToken (start k : Nat) (e : SchedE) : List Int :=
  let sc := fun (z : Int) => satS 16 (z / (2 ^ k : Nat))
  [sc (((e.start : Int) - start) / 1000), sc (match e.stop with
    | some t => ((t - e.start) / 1000 : Nat)
    | none => 0), e.kind, e.kclass, e.level, e.arg, 0, 0]

/-- The schedule entries of a stream that end at or after the cycle start, earliest first. -/
def tokensOf (ing : Inputs) (n start : Nat) : List SchedE :=
  sortBy (fun a b => decide (a.start ≤ b.start)) (ing.sched.filter fun e => e.stream == n && (match e.stop with
    | some t => decide (start ≤ t)
    | none => true))

/-- The epoch's capture that a run draws with step number `step` (R277), by the seed base of the step slot: its record's offset in each
stack and S. -/
def State.epochCapture (s : State) (step : Nat) : Option CaptureR :=
  let seedbase := (((s.trn.plan[1]?).bind fun i => (s.slotX i).forme).map (·.seedbase)).getD 0
  let xs := (s.trn.halves[s.get Reg.PRS_TRN_STAT_EPOCH]?).getD []
  if xs.isEmpty then none else xs[srBits seedbase step % xs.length]?

/-- Row `r`, column `k` of INPUT: its value, none when absent (R223, R264, R277). -/
def State.inputAt (s : State) (c : Ctx) (sur : List (Nat × List Stream)) (r k : Nat) : Option Int :=
  let ing := c.run.inputs
  let start := ing.cycle * 20000
  match bits c.w.imm 0 2 with
  | 0 =>
    match sur[r]? with
      | none => some 0
      | some x =>
        if ing.lost then some (s.blindInput (((List.range 4).map fun t => (surrogates ing t).length).foldl (· + ·) 0)
          (start / 1000 + k - c.w.n2))
        else if start / 1000 + k < c.w.n2 then none else surSample x.2 (start / 1000 + k - c.w.n2)
  | 1 =>
    if ing.lost then some 0
    else match sur[r]? with
      | none => some 0
      | some x => match (tokensOf ing x.1 start)[k / 8]? with
        | none => some 0
        | some e => some (((schedToken start (bits c.w.imm 2 6) e)[k % 8]?).getD 0)
  | _ =>
    match s.epochCapture c.run.step with
    | none => some 0
    | some e =>
      let t := s.physTb c.t
      let n := (e.ns[t]?).getD 0
      if n ≤ r then some 0
      else
        let j := if bit c.w.imm 2 then 2048 + k else 2048 - c.w.n2 + k
        let v := s.pnum (dramAddr t ((e.offs[t]?).getD 0 + 64 + 4 * n + (r * 4096 + j) * 2)) 2
        if v = 0x8000 then none else some (toS 16 v)

/-- A row of the absence mask (R223) in the format of its tensor: a block format holds its ones at exponent 0, with the zero flag
on a block without any. -/
def State.maskRow (s : State) (m : Tensor) (a : Nat) (vs : List Nat) : State :=
  if isBlk m.fmt then
    let w := fmtW m.fmt
    let bs := (by32 (vs.length + 1) (vs.map fun v => ((v : Int), 0))).map fun b =>
      let q := b.map (·.1)
      ({ m := q, scale := if q.all (· == 0) then 0x80 else 0 } : Blk)
    (s.pwrite a ((blkBytes w bs).take (bs.length * 4 * w))).pwrite (a + m.cols * w / 8) (bs.map fun b => byte b.scale)
  else s.pwrite a (vs.flatMap fun v => le (fmtBits m.fmt / 8) v)

/-- INPUT (R223): the inputs of the press cycle into a FIXED16 tensor, absent values as 0, and the mask of absence. -/
def State.sortInput (s : State) (c : Ctx) : State :=
  match c.tensor c.w.dst with
  | none => s
  | some d =>
    let sur := surrogates c.run.inputs (s.physTb c.t)
    let i : Inst := ⟨c.t, 0, 0⟩
    (List.range c.w.n1).foldl (fun s r =>
      let vs := (List.range c.w.n2).map (s.inputAt c sur r)
      let s := s.guarded c d (s.rowAddr c d i r) (d.reach c.w.n2) fun s a => s.pwrite a (vs.flatMap fun v => le 2 (ofS 16 (v.getD 0)))
      match c.tensor c.w.src2 with
      | none => s
      | some m => s.guarded c m (s.rowAddr c m i r) (m.reach c.w.n2) fun s a => s.maskRow m a (vs.map fun v => b2n v.isNone)) s

/-- INPUT (R223). -/
def execInput (t cyc : Nat) (s : State) : Out State := .next (s.issue t 0x0B cyc State.sortInput)

/-- The values of a galley target with the held dies counted in: those of a rack current (targets 0, 2, 8 and 9, R244). DESIGN CHOICE
(unsafe): the Press counts each held die at its mean (R141) by adding the means to the proofs it emits; the manual does not say where
they enter (log entry 13). -/
def heldIn (ing : Inputs) (tgt : Nat) (vs : List Int) : List Int :=
  if tgt = 0 ∨ tgt = 2 ∨ tgt = 8 ∨ tgt = 9 then
    let h := heldDraw ing.streams (ing.cycle * 20)
    vs.map fun v => satS 32 (v + h)
  else vs

/-- EMIT (R224): N2 FIXED32 values to a galley target; logical textblock 0 holds them. -/
def State.sortEmit (s : State) (c : Ctx) : State :=
  match c.tensor c.w.src1 with
  | none => s
  | some x =>
    if c.t ≠ 0 then s
    else
      let row := s.rowAddr c x ⟨0, 0, 0⟩ 0
      let tgt := bits c.w.imm 0 4
      let vs := heldIn c.run.inputs tgt ((List.range c.w.n2).map (s.rawAt x row))
      let s := s.prsMod fun p => { p with
        lastEmit := some (c.run.slot, tgt, Tab.find c.run.emits tgt)
        runs := p.runs.map fun q => if q.slot = c.run.slot then { q with emits := Tab.put q.emits tgt vs } else q }
      if tgt ≤ 3 then { s with gal := { s.gal with tgt := Tab.put s.gal.tgt tgt vs } } else s

/-- EMIT (R224). -/
def execEmit (t cyc : Nat) (s : State) : Out State := .next (s.issue t 0x0C cyc State.sortEmit)

/-! ## Products (R212 to R215) -/

/-- The contribution of one folio: leaf results by digit pair and leaf, then the folio sum (R189, R191). -/
def State.folioOf (s : State) (c : Ctx) (x y : Tensor) (l g r ch : Nat) (parts : List Nat) : W (Option (Int × Int)) :=
  let da := fmtD x.fmt
  let dw := fmtD y.fmt
  let blocks := parts.map fun u =>
    let (i, leaf) := weightPart c.run.v y l g u
    let row := s.rowAddr c x i r
    (List.range y.nb).map fun b => (s.blkAt x row (u * y.nb + b), s.weightBlk c y i leaf b ch)
  let ls := (List.range (da * dw)).flatMap fun p => blocks.map fun bs => leafResult x.fmt y.fmt (p / dw) (p % dw) bs
  let f := folioResult (ls.map (·.1))
  (f.1, ls.flatMap (·.2) ++ f.2)

/-- A quire's pass sum: its P folios of L leaves each (R192). -/
def State.quireOf (s : State) (c : Ctx) (x y : Tensor) (l g r ch q : Nat) : W Int :=
  let fs := (List.range y.p).map fun f =>
    s.folioOf c x y l g r ch ((List.range y.l).map fun k => (q * y.p + f) * y.l + k)
  let p := passSum c.w.a (fs.map (·.1))
  (p.1, fs.flatMap (·.2) ++ p.2)

/-- The sum of row `r`, channel `ch` at the highest level of the sort (R192, R193, R213), from the running sum `acc`. -/
def State.mmulAt (s : State) (c : Ctx) (x y : Tensor) (g r ch : Nat) (acc : Int) : W Int :=
  let qsum := fun (qs : List Nat) (kind : Nat) =>
    let ps := qs.map fun q => s.quireOf c x y c.w.scope g r ch q
    let t := treeSum 48 kind (ps.map (·.1))
    ((t.1, ps.flatMap (·.2) ++ t.2) : W Int)
  -- the saturations of a textblock's part of a volume product lie in that textblock (R201)
  let inTb := fun (t : Nat) (p : W Int) => ((p.1, tagSats t p.2) : W Int)
  let add := fun (p : W Int) (kind : Nat) =>
    let a := satK 48 kind (acc + p.1)
    ((a.1, p.2 ++ a.2) : W Int)
  match c.w.scope with
  | 2 => add (s.quireOf c x y 2 g r ch 0) 2
  | 3 => add (qsum (List.range c.run.v.minQ) 3) 3
  | _ =>
    let ts := c.run.v.used.map fun t =>
      inTb t (qsum ((List.range ((c.run.v.nq[t]?).getD 0)).map ((c.run.v.nq.take t).foldl (· + ·) 0 + ·)) 3)
    let t := treeSum 48 4 (ts.map (·.1))
    add (t.1, ts.flatMap (·.2) ++ t.2) 4

/-- A channel-scale record (R194). -/
def State.scaleRec (s : State) (c : Ctx) (x : Tensor) (i : Inst) (ch : Nat) : ScaleRec :=
  let a := s.rowAddr c x i ch
  { m := toS 32 (s.pnum a 4), s := bits (s.pnum (a + 4) 1) 0 6, rnd := bits (s.pnum (a + 5) 1) 0 1 }

/-- One value of MMUL (R213, R214): the sum, and the channel rescale, or at SCOPE 1 the folio result at A (R195), to which ACC adds
the value of DST at 48 bits. -/
def State.mmulVal (s : State) (c : Ctx) (x y d : Tensor) (i : Inst) (g r ch : Nat) : W Int :=
  if c.w.scope = 1 then
    let f := s.folioOf c x y 1 g r ch (List.range y.l)
    let p : W Int := match f.1 with
      | none => (0, f.2)
      | some (v, e) => let a := align 48 5 v e c.w.a; (a.1, f.2 ++ a.2)
    if bit c.w.mod 0 then
      let o := satK 48 8 (s.rawAt d (s.rowAddr c d i r) ch + p.1)
      (o.1, p.2 ++ o.2)
    else p
  else
    let acc := if bit c.w.mod 0 then s.rawAt d (s.rowAddr c d i r) ch else 0
    let v := s.mmulAt c x y g r ch acc
    match c.tensor c.w.src3 with
    | none => v
    | some z =>
      let o := rescale (s.scaleRec c z i ch) v.1 (srBits c.seed ((r * c.w.n2 + ch) % 2 ^ 32))
      (o.1, v.2 ++ o.2)

/-- MMUL (R212 to R214): every channel group of the textblock writes its 32 channels of each row. -/
def State.sortMmul (s : State) (c : Ctx) : State :=
  match c.tensor c.w.dst, c.tensor c.w.src1, c.tensor c.w.src2 with
  | some d, some x, some y =>
    s.noteMove (s.volumeRows c d c.w.n1 c.w.n2) fun s => (List.range (mmulGroups c.run.v c.w y)).foldl (fun s g =>
      let i := groupInst c.run.v y c.w.scope g
      let n := min 32 (c.w.n2 - 32 * g)
      if (c.w.scope ≠ 4 ∧ i.t ≠ c.t) ∨ n = 0 then s
      else (List.range c.w.n1).foldl (fun s r =>
        let vs := (List.range n).map fun k => s.mmulVal c x y d i g r (32 * g + k)
        (s.sats c (vs.flatMap (·.2)) i.t).putRowAt c d i r c.w.n2 (32 * g) (vs.map (·.1))) s) s
  | _, _, _ => s

/-- MMUL (R212). -/
def execMmul (t cyc : Nat) (s : State) : Out State := .next (s.issueV t 0x10 cyc State.sortMmul)

/-- The exponent of an element for GOUTER: its block's, or 0 for a FIXED value; a zero block contributes 0 (R215). -/
def State.gOperand (s : State) (x : Tensor) (row k : Nat) : Int × Int :=
  match s.expAt x row k with
  | none => (0, 0)
  | some e => (s.rawAt x row k, e)

/-- The unit of SCOPE that holds row `r` of GOUTER (R215), as an instance: leaf units, 16 to a folio, 256 to a quire. A SCOPE below
the textblock has its units in the folio or quire of the destination's instance `i`. -/
def Ctx.rowInst (c : Ctx) (i : Inst) (r : Nat) : Inst :=
  let units := match c.w.scope with
    | 1 => 16
    | 2 => 256
    | 3 => 256 * c.run.v.minQ
    | _ => 256 * c.run.v.quires
  let u := if c.w.n1 < units then r else r / (c.w.n1 / units)
  match c.w.scope with
  | 1 => i
  | 2 => { i with f := u / 16 % 16 }
  | 3 => ⟨i.t, u / 256, u / 16 % 16⟩
  | _ =>
    let (t, q) := ((c.run.v.used.flatMap fun t => (List.range ((c.run.v.nq[t]?).getD 0)).map fun q => (t, q))[u / 256]?).getD (i.t, 0)
    ⟨t, q, u / 16 % 16⟩

/-- The kind of an addition that joins values of the given units (R157): within one folio it is an element addition, since
FOLIO is for the folio adder alone (R191); across folios, quires and textblocks it is of the level that joins them. A level
below the volume names the textblock it lies in. -/
def spanKind (js : List Inst) : Nat :=
  match js with
  | [] => 8
  | j :: t =>
    if t.any fun k => k.t != j.t then 4
    else (if t.any fun k => k.q != j.q then 3 else if t.any fun k => k.f != j.f then 2 else 8) + 16 * (j.t + 1)

/-- One value of GOUTER (R215). -/
def State.gouterAt (s : State) (c : Ctx) (x y d : Tensor) (i : Inst) (ch k : Nat) : W Int :=
  let ps := (List.range c.w.n1).map fun r =>
    let j := c.rowInst i r
    let (a, ea) := s.gOperand x (s.rowAddr c x j r) k
    let (b, eb) := s.gOperand y (s.rowAddr c y j r) ch
    let p := align 48 5 (a * b) (ea + eb) c.w.a
    (p.1, tagSats j.t p.2, j)
  let t := spanSum 48 spanKind (ps.map fun p => (p.1, p.2.2))
  let g := if bit c.w.mod 0 then 0 else s.rawAt d (s.rowAddr c d i ch) k
  let o := satK 48 8 (g + t.1)
  (o.1, ps.flatMap (·.2.1) ++ t.2 ++ o.2)

/-- GOUTER (R215): a gradient outer product is added into its FIXED48 destination. -/
def State.sortGouter (s : State) (c : Ctx) : State :=
  match c.tensor c.w.dst, c.tensor c.w.src1, c.tensor c.w.src2 with
  | some d, some x, some y =>
    s.noteMove (s.volumeRows c d c.w.n2 d.cols) fun s =>
     ((if c.w.scope = 4 then c.run.v.used else [c.t]).flatMap fun u => insts c.run.v u d.dist).foldl (fun s i =>
      (List.range c.w.n2).foldl (fun s ch =>
        let vs := (List.range d.cols).map fun k => s.gouterAt c x y d i ch k
        (s.sats c (vs.flatMap (·.2)) i.t).putRow c d i ch d.cols (vs.map (·.1))) s) s
  | _, _, _ => s

/-- GOUTER (R215). -/
def execGouter (t cyc : Nat) (s : State) : Out State := .next (s.issueV t 0x38 cyc State.sortGouter)

/-! ## Element, rescale and reduction sorts (R216, R217) -/

/-- A two-operand wide operation (R216): y from SRC2, from its one row under BCAST, or the immediate. -/
def State.sortElem (op : Int → Int → Int → W Int) (s : State) (c : Ctx) : State :=
  match c.tensor c.w.dst, c.tensor c.w.src1 with
  | some d, some x =>
    s.elems c d fun s i r k =>
      let a := s.wideAt c x i r k
      let b : W Int := match c.tensor c.w.src2 with
        | some y => s.wideAt c y i (if bit c.w.mod 0 then 0 else r) k
        | none => (toS 16 c.w.imm, [])
      let o := op c.w.a a.1 b.1
      (o.1, a.2 ++ b.2 ++ o.2)
  | _, _ => s

/-- ADD (R216). -/
def execAdd (t cyc : Nat) (s : State) : Out State := .next (s.issue t 0x18 cyc (State.sortElem fun _ x y => wAdd x y))

/-- SUB (R216). -/
def execSub (t cyc : Nat) (s : State) : Out State := .next (s.issue t 0x19 cyc (State.sortElem fun _ x y => wSub x y))

/-- MUL (R216). -/
def execMul (t cyc : Nat) (s : State) : Out State := .next (s.issue t 0x1A cyc (State.sortElem fun a x y => wMul a x y))

/-- MAX (R216). -/
def execMax (t cyc : Nat) (s : State) : Out State := .next (s.issue t 0x1B cyc (State.sortElem fun _ x y => (max x y, [])))

/-- MIN (R216). -/
def execMin (t cyc : Nat) (s : State) : Out State := .next (s.issue t 0x1C cyc (State.sortElem fun _ x y => (min x y, [])))

/-- A one-operand wide operation. -/
def State.sortUnary (op : Ctx → Int → W Int) (s : State) (c : Ctx) : State :=
  match c.tensor c.w.dst, c.tensor c.w.src1 with
  | some d, some x =>
    s.elems c d fun s i r k =>
      let a := s.wideAt c x i r k
      let o := op c a.1
      (o.1, a.2 ++ o.2)
  | _, _ => s

/-- SHIFT (R216): by k = IMM, signed. -/
def execShift (t cyc : Nat) (s : State) : Out State :=
  .next (s.issue t 0x1D cyc (State.sortUnary fun c x => wShift c.w.a x (toS 16 c.w.imm)))

/-- CONVERT (R216): x through OUT unchanged. -/
def execConvert (t cyc : Nat) (s : State) : Out State := .next (s.issue t 0x21 cyc (State.sortUnary fun _ x => (x, [])))

/-- CLAMP (R216): max(min(x, high), low); the low bound wins; BCAST applies to both bounds. -/
def State.sortClamp (s : State) (c : Ctx) : State :=
  match c.tensor c.w.dst, c.tensor c.w.src1, c.tensor c.w.src2, c.tensor c.w.src3 with
  | some d, some x, some lo, some hi =>
    s.elems c d fun s i r k =>
      let q := if bit c.w.mod 0 then 0 else r
      let a := s.wideAt c x i r k
      let l := s.wideAt c lo i q k
      let h := s.wideAt c hi i q k
      (max (min a.1 h.1) l.1, a.2 ++ l.2 ++ h.2)
  | _, _, _, _ => s

/-- CLAMP (R216). -/
def execClamp (t cyc : Nat) (s : State) : Out State := .next (s.issue t 0x1E cyc State.sortClamp)

/-- RESCALE (R216): the record of channel c applied to each FIXED48 value. -/
def State.sortRescale (s : State) (c : Ctx) : State :=
  match c.tensor c.w.dst, c.tensor c.w.src1, c.tensor c.w.src2 with
  | some d, some x, some z =>
    s.elems c d fun s i r k =>
      rescale (s.scaleRec c z i k) (s.rawAt x (s.rowAddr c x i r) k) (srBits c.seed ((r * c.w.n2 + k) % 2 ^ 32))
  | _, _, _ => s

/-- RESCALE (R216). -/
def execRescale (t cyc : Nat) (s : State) : Out State := .next (s.issue t 0x20 cyc State.sortRescale)

/-- RSUM and RMAX (R217): with SCOPE 0 along an axis within each instance; with a higher SCOPE element by element over the
instances of the source up to that level, into the next DIST up (log entry 18). `op` is given each value with its instance. -/
def State.sortReduce (op : List (Int × Inst) → W Int) (s : State) (c : Ctx) : State :=
  match c.tensor c.w.dst, c.tensor c.w.src1 with
  | some d, some x =>
    let line := fun (vs : List (W Int × Inst)) =>
      let o := op (vs.map fun v => (v.1.1, v.2))
      ((o.1, vs.flatMap (fun v => tagSats v.2.t v.1.2) ++ o.2) : W Int)
    if c.w.scope = 0 then
      (insts c.run.v c.t d.dist).foldl (fun s i =>
        if bit c.w.mod 0 then
          (List.range c.w.n1).foldl (fun s r =>
            let o := line ((List.range c.w.n2).map fun k => (s.wideAt c x i r k, i))
            (s.sats c o.2 i.t).putRow c d i r 1 [o.1]) s
        else
          let os := (List.range c.w.n2).map fun k => line ((List.range c.w.n1).map fun r => (s.wideAt c x i r k, i))
          (s.sats c (os.flatMap (·.2)) i.t).putRow c d i 0 c.w.n2 (os.map (·.1))) s
    else
      let from_ := (if c.w.scope = 4 then c.run.v.used else [c.t]).flatMap fun u => insts c.run.v u x.dist
      let dsts := (if c.w.scope = 4 then [0] else [c.t]).flatMap fun u => insts c.run.v u d.dist
      s.noteMove (s.volumeRows c d c.w.n1 c.w.n2) fun s => dsts.foldl (fun s i =>
        let src := from_.filter fun j => (d.dist != 2 || j.q == i.q) && (d.dist != 1 || j == i)
        (List.range c.w.n1).foldl (fun s r =>
          let os := (List.range c.w.n2).map fun k => line (src.map fun j => (s.wideAt c x j r k, j))
          (s.sats c (os.flatMap (·.2)) i.t).putRow c d i r c.w.n2 (os.map (·.1))) s) s
  | _, _ => s

/-- RSUM (R217): by the tree of R155 at 48 bits. -/
def execRsum (t cyc : Nat) (s : State) : Out State := .next (s.issueV t 0x24 cyc (State.sortReduce (spanSum 48 spanKind)))

/-- RMAX (R217). -/
def execRmax (t cyc : Nat) (s : State) : Out State :=
  .next (s.issueV t 0x25 cyc (State.sortReduce fun xs => ((maxI (xs.map (·.1))).getD 0, [])))

/-! ## Lookup and sequence sorts (R218 to R220) -/

/-- A lookup table (R218). -/
structure LutT where
  n : Nat
  k : Nat
  ey : Int
  base : Int
  addr : Nat

/-- The table of a LUT tensor in an instance. -/
def State.lutOf (s : State) (c : Ctx) (x : Tensor) (i : Inst) : LutT :=
  let a := s.rowAddr c x i 0
  { n := s.pnum a 2, k := s.pnum (a + 2) 1, ey := toS 8 (s.pnum (a + 3) 1), base := toS 48 (s.pnum (a + 4) 6), addr := a + 16 }

/-- Entry i of a table. -/
def State.lutY (s : State) (t : LutT) (i : Nat) : Int := toS 16 (s.pnum (t.addr + 2 * i) 2)

/-- The interpolated entry value for an input at the table's input exponent (R218). -/
def State.lutV (s : State) (t : LutT) (x : Int) : Int :=
  let d := x - t.base
  if d < 0 then s.lutY t 0
  else
    let i := (d / (2 ^ t.k : Nat)).toNat
    let f := d - (i * 2 ^ t.k : Nat)
    if t.n ≤ i + 1 then s.lutY t (t.n - 1)
    else s.lutY t i + rne ((s.lutY t (i + 1) - s.lutY t i) * f) t.k

/-- LUT (R218): x is taken at the input exponent IMM [7:0]. -/
def State.sortLut (s : State) (c : Ctx) : State :=
  match c.tensor c.w.dst, c.tensor c.w.src1, c.tensor c.w.src2 with
  | some d, some x, some z =>
    let ai := toS 8 (bits c.w.imm 0 8)
    s.elems c d fun s i r k =>
      let t := s.lutOf c z i
      let a := s.wide ai x (s.rowAddr c x i r) k
      let o := align 48 8 (s.lutV t a.1) t.ey c.w.a
      (o.1, a.2 ++ o.2)
  | _, _, _ => s

/-- LUT (R218). -/
def execLut (t cyc : Nat) (s : State) : Out State := .next (s.issue t 0x28 cyc State.sortLut)

/-- One channel of SCAN over its inputs: the outputs in time order and the last state (R219). -/
def scanChan (a : Int) : List Int → Int → List (W Int) × Int
  | [], h => ([], h)
  | x :: t, h =>
    let o := satK 48 8 (rne (a * h) 15 + x)
    let r := scanChan a t o.1
    (o :: r.1, r.2)

/-- SCAN (R219): the recurrence of each channel over N1 time rows; the last states go back to SRC3. -/
def State.sortScan (s : State) (c : Ctx) : State :=
  match c.tensor c.w.dst, c.tensor c.w.src1, c.tensor c.w.src2, c.tensor c.w.src3 with
  | some d, some x, some y, some z =>
    (insts c.run.v c.t d.dist).foldl (fun s i =>
      let st := s.rowAddr c z i 0
      let dec := s.rowAddr c y i 0
      let cols := (List.range c.w.n2).map fun k =>
        let xs := (List.range c.w.n1).map fun r => s.wideAt c x i r k
        let h := if bit c.w.mod 0 then 0 else s.rawAt z st k
        let o := scanChan (s.rawAt y dec k) (xs.map (·.1)) h
        (o.1, o.2, xs.flatMap (·.2))
      let s := s.sats c (cols.flatMap fun o => o.2.2 ++ o.1.flatMap (·.2))
      let s := (List.range c.w.n1).foldl (fun s r =>
        s.putRow c d i r c.w.n2 (cols.map fun o => ((o.1[r]?).getD (0, [])).1)) s
      s.pwrite st (cols.flatMap fun o => le 6 (ofS 48 o.2.1))) s
  | _, _, _, _ => s

/-- SCAN (R219). -/
def execScan (t cyc : Nat) (s : State) : Out State := .next (s.issue t 0x2C cyc State.sortScan)

/-- One query row of ATTN (R220): the output values. Keys and values are wide values at the sort's A. -/
def State.attnRow (s : State) (c : Ctx) (x y z : Tensor) (i : Inst) (r dv : Nat) : List Int × Sats :=
  let dk := bits c.w.imm 0 8
  let sg := bits c.w.imm 8 8
  let q := (List.range dk).map fun j => s.wideAt c x i r j
  let rows := (List.range c.w.n2).map fun n =>
    ((List.range dk).map (fun j => s.wideAt c y i n j), (List.range dv).map fun j => s.wideAt c y i n (dk + j))
  let sc := rows.map fun k =>
    satK 48 8 (rne (treeSum 0 8 ((q.zip k.1).map fun p => p.1.1 * p.2.1)).1 sg)
  let m := (maxI (sc.map (·.1))).getD 0
  let t := s.lutOf c z i
  let ps := sc.map fun v => s.lutV t (m - v.1)
  let den := (treeSum 0 8 ps).1
  let out := (List.range dv).map fun j =>
    if den ≤ 0 then 0
    else divRneI (treeSum 0 8 ((ps.zip rows).map fun p => p.1 * ((p.2.2[j]?).getD (0, [])).1)).1 den
  (out, q.flatMap (·.2) ++ (rows.flatMap fun k => (k.1 ++ k.2).flatMap (·.2)) ++ sc.flatMap (·.2) ++
    (if den ≤ 0 then [8] else []))

/-- ATTN (R220): N1 query rows over N2 tokens. -/
def State.sortAttn (s : State) (c : Ctx) : State :=
  match c.tensor c.w.dst, c.tensor c.w.src1, c.tensor c.w.src2, c.tensor c.w.src3 with
  | some d, some x, some y, some z =>
    (insts c.run.v c.t d.dist).foldl (fun s i => (List.range c.w.n1).foldl (fun s r =>
      let o := s.attnRow c x y z i r d.cols
      (s.sats c o.2).putRow c d i r d.cols o.1) s) s
  | _, _, _, _ => s

/-- ATTN (R220). -/
def execAttn (t cyc : Nat) (s : State) : Out State := .next (s.issue t 0x30 cyc State.sortAttn)

/-- GAPPLY (R221): weights less the gradient at its learning rate, written as blocks. -/
def State.sortGapply (s : State) (c : Ctx) : State :=
  match c.tensor c.w.dst, c.tensor c.w.src1, c.tensor c.w.src2 with
  | some d, some x, some y =>
    let ag := toS 8 (bits c.w.imm 0 8) - (bits c.w.imm 8 8 : Nat)
    s.elems c d fun s i r k =>
      let w := s.wideAt c x i r k
      let u := align 48 8 (s.rawAt y (s.rowAddr c y i r) k) ag c.w.a
      let o := wSub w.1 u.1
      (o.1, w.2 ++ u.2 ++ o.2)
  | _, _, _ => s

/-- GAPPLY (R221). -/
def execGapply (t cyc : Nat) (s : State) : Out State := .next (s.issue t 0x39 cyc State.sortGapply)

end Sys2Proof.Machine
end

