-- ==== Sys2Proof/Machine/Galley.lean ====
section
/-!
DEFINITION. Forme slots and their variants as runs see them (R203, R231, R232, R237), and the galley (R243 to R271):
entries, bands, verdicts, staleness, references to Chase with their rollbacks, the plan, blind operation and export.
-/
namespace Sys2Proof.Machine

/-! ## Slots -/

/-- A variant fits the hierarchy in service (R237). -/
def State.fitsNow (s : State) (v : Variant) : Bool :=
  v.svc == s.get Reg.PRS_STAT_SVC && (List.range 4).all fun t =>
    decide ((v.nq[t]?).getD 0 ≤ (match s.tbs[t]? with
      | some p => (s.quiresOf p).length
      | none => 0))

/-- The fitting variant with the most quires, the lowest index among equals (R237). -/
def State.select (s : State) (f : Forme) : Option Nat :=
  let ok := (f.variants.zipIdx.filter fun v => s.fitsNow v.1)
  match (ok.map fun v => v.1.quires).max? with
  | none => none
  | some m => (ok.find? fun v => v.1.quires == m).map (·.2)

/-- Cycles allowed to the PROOF slots together: values above 18,000 act as 18,000 (R242). -/
def State.pbudget (s : State) : Nat := min 18000 (s.get Reg.PRS_FCTL_PBUDGET)

/-- PLANDIV, 0 acting as 50. -/
def State.planDiv (s : State) : Nat := if s.get Reg.PRS_FCTL_PLANDIV = 0 then 50 else s.get Reg.PRS_FCTL_PLANDIV

/-- WCYC of the enabled PROOF slots together, slot `skip` left out. -/
def State.proofSum (s : State) (skip : Nat) : Nat :=
  (s.prs.slots.filter fun e => e.2.en && e.2.kindIs 0 && e.1 != skip).foldl (fun a e => a + e.2.wcyc) 0

/-- A slot of a kind with a worst case of `w` cycles fits the budget of R230. -/
def State.budgetOk (s : State) (i kind w : Nat) : Bool :=
  match kind with
  | 0 => decide (s.proofSum i + w ≤ s.pbudget)
  | 1 => decide (w ≤ s.planDiv * (19000 - s.proofSum i))
  | _ => true

/-- The byte ranges of a leaf that the WEIGHT tensors of a variant occupy: blocks, and their scale bytes (R208). -/
def Variant.leafRows (v : Variant) : List (Nat × Nat) :=
  (v.tensors.filter fun x => x.space == 3).flatMap fun x =>
    let lo := x.offset * 128 * fmtW x.fmt
    let hi := (x.offset + x.nb) * 128 * fmtW x.fmt
    [(lo, hi), (2 ^ 16 + lo / 8, 2 ^ 16 + cdiv hi 8)]

/-- The weights of a slot's selected variant are loaded into its leaves from the model region of each stack (R235, R237). -/
def State.loadLeaves (s : State) (i : Nat) : State :=
  let x := s.slotX i
  match x.forme, x.var, x.variant with
  | some f, some n, some v =>
    let ws := v.used.map fun t =>
      let p := s.physTb t
      ({ t := p, lt := t, quires := (s.quiresOf p).take ((v.nq[t]?).getD 0), rows := v.leafRows, var := n,
         model := f.digest ++ s.pbytes (dramAddr p (regionBase 2 + f.marea)) f.mbytes } : WLoad)
    s.prsMod fun p => { p with
      wmem := Tab.drop p.wmem fun a => ws.any fun w => (w.logical a).isSome
      wcrc := Tab.drop p.wcrc fun a => ws.any fun w => (w.logical a).isSome
      wloads := ws ++ p.wloads.filter fun w => !ws.any fun z => z.t == w.t && z.quires == w.quires && z.rows == w.rows }
  | _, _, _ => s

/-- Cycles of a PROOF run of the present press cycle count in the textblocks that it used (R242). -/
def State.countProof (s : State) (r : Run) : State :=
  s.prsMod fun p => { p with proofCyc := (List.range 4).map fun t => (p.proofCyc[t]?).getD 0 + (r.tb t).cyc }

/-- Cycles of a run: the greatest over its textblocks. -/
def Run.cycles (r : Run) : Nat := (r.tbs.map (·.cyc)).foldl max 0

/-- A run has reached END in every textblock that it uses. -/
def Run.over (r : Run) : Bool := r.v.used.all fun t => (r.tb t).ended

/-- A run that has ended leaves the list, and counts for the forme load that it began under (R241); the areas of a replaced
forme are free once the first run of the new one has ended (R235). -/
def State.runDone (s : State) (r : Run) : State :=
  let s := s.prsMod fun p => { p with runs := p.runs.filter fun q => q.slot != r.slot }
  let s := if (s.slotX r.slot).inst = r.inst then
      s.slotMod r.slot fun x => { x with lastCyc := r.cycles, runs := x.runs + 1, old := none }
    else s
  if r.kind = 0 then s.countProof r else s

/-- Removes a run that did not end (R232, R159): it is counted, FORME_ABANDONED is posted and 12.7 raised. Causes 1 galley
close, 2 plan overdue or shadow run not ended in time, 3 barrier, 4 FORME_RUN timeout. The press cycle of an abandoned PROOF run
gives no proof (R159, R245); its cycles count in PRS_FCYC (R242). DESIGN CHOICE (unsafe): a FORME_RUN whose run is abandoned for another
cause than its timeout completes with ABORTED, for which R111 and R233 name no status (log entry 92). -/
def State.abandon (s : State) (slot cause : Nat) : State :=
  match s.prs.runs.find? fun r => r.slot == slot with
  | none => s
  | some r =>
    let at_ := (r.tbs.zipIdx.find? fun x => !x.1.ended && (r.v.nq[x.2]?).getD 0 != 0)
    let (tb, pc) := match at_ with
      | some x => (x.2, x.1.pc)
      | none => (0, 0)
    let s := s.prsMod fun p => { p with runs := p.runs.filter fun q => q.slot != slot }
    let s := if (s.slotX slot).inst = r.inst then s.slotMod slot fun x => { x with abandoned := x.abandoned + 1 } else s
    let s := s.bump Reg.PRS_FABANDON
    let s := if r.kind = 0 ∧ r.cycle = s.get Reg.PRS_GAL_CYC then (s.countProof r).prsMod fun p => { p with discard := true } else s
    let s := r.v.used.foldl (fun s t => s.count (s.physTb t) 13 1 r.kind) s
    let s := s.evt 2 0x0213 (le 1 slot ++ le 1 cause ++ le 1 tb ++ le 1 0 ++ le 4 pc ++ le 4 (s.get Reg.PRS_GAL_CYC))
    let s := s.raise (detN 12 7) 0 slot
    match r.cmd with
    | some (ring, d) => s.completeLate ring 0x0217 d (if cause = 4 then 0x1C else 0x1D) 0 0
    | none => s

/-- A run begins in every textblock that the variant uses (R231). -/
def State.beginRun (s : State) (slot cycle step : Nat) (ing : Inputs) (cmd : Option (Nat × Desc)) : State :=
  match (s.slotX slot).forme, (s.slotX slot).variant with
  | some f, some v =>
    let r : Run := { slot := slot, kind := f.kind, cycle := cycle, step := step, v := v, f := f,
                     tbs := List.replicate 4 {}, inputs := ing, cmd := cmd, inst := (s.slotX slot).inst }
    s.prsMod fun p => { p with runs := p.runs ++ [r] }
  | _, _ => s

/-- The last result carried to the galley in the press cycle is discarded on its way (R24, R154): its target is as before. -/
def State.emitDrop (s : State) : State :=
  match s.prs.lastEmit with
  | none => s
  | some (slot, tgt, was) =>
    let back := fun (x : Tab (List Int)) => match was with
      | some v => Tab.put x tgt v
      | none => Tab.del x tgt
    let s := s.prsMod fun p => { p with
      lastEmit := none
      runs := p.runs.map fun r => if r.slot = slot then { r with emits := back r.emits } else r }
    if tgt ≤ 3 then { s with gal := { s.gal with tgt := back s.gal.tgt } } else s

/-- The last transfer of a sort through port `t` of the spine is discarded (R154): its rows are as before it, where nothing has been
written since. -/
def State.moveDrop (s : State) (t : Nat) : State :=
  let s := s.prs.lastMove.foldl (fun s r => if r.1.contains t && s.pbytes r.2.1 r.2.2.2.length == r.2.2.2 then s.pwrite r.2.1 r.2.2.1 else s) s
  s.prsMod fun p => { p with lastMove := p.lastMove.filter fun r => !r.1.contains t }

/-! ## Entries, share and band (R243 to R247) -/

/-- Entry `i` of the galley. -/
def State.entry (s : State) (i : Nat) : Entry := (s.gal.entries[i]?).getD {}

/-- Changes entry `i`. -/
def State.entryMod (s : State) (i : Nat) (f : Entry → Entry) : State :=
  s.galMod fun g => { g with entries := g.entries.modify i f }

/-- The share in force (R246). -/
def State.sigma (s : State) : Nat := s.get Reg.PRS_GAL_SHARE_SIGMA

/-- A value at rack scale under the share (R246). -/
def State.shelfV (s : State) (v : Int) : Int := rne (v * s.sigma) 16

/-- pct(x) of R247: x in 0.1 percent of the rated current of 412,500 mA. -/
def pct (x : Nat) : Nat := 412500 * x / 1000

/-- BAND of PRS_GAL_CTL, 0 acting as 40. -/
def State.bandDef (s : State) : Nat := if s.get Reg.PRS_GAL_CTL_BAND = 0 then 40 else s.get Reg.PRS_GAL_CTL_BAND

/-- Value `i` of a target of an entry. -/
def Entry.value (e : Entry) (tgt i : Nat) : Int := (((Tab.find e.tgt tgt).getD [])[i]?).getD 0

/-- Point `i` of the fine proof at shelf scale. -/
def State.pS (s : State) (e : Entry) (i : Nat) : Int := s.shelfV (e.value 0 i)

/-- The band half-width at fine point `i` (R247). -/
def State.band (s : State) (e : Entry) (i : Nat) : Int :=
  let bmax := if s.get Reg.PRS_GAL_CTL_BMAX = 0 then 255 else s.get Reg.PRS_GAL_CTL_BMAX
  let b : Int := match Tab.find e.tgt 1 with
    | some _ => min (max (s.shelfV (max (e.value 1 i) 0)) (pct (s.get Reg.PRS_GAL_CTL_BMIN))) (pct bmax)
    | none => pct s.bandDef
  if e.blind then b * (max 1 (s.get Reg.PRS_GAL_CTL_WIDEN) : Nat) else b

/-- The newest entry that `p` holds of. -/
def State.newest (s : State) (p : Entry → Bool) : Option Nat :=
  let c := (List.range 8).filter fun j => p (s.entry j)
  match c with
  | [] => none
  | j :: t => some (t.foldl (fun b i => if (s.entry b).cyc < (s.entry i).cyc then i else b) j)

/-! ## Export (R267, R268) -/

/-- The forecast values of a target at 25 mA per LSB. -/
def State.exportVals (s : State) (e : Entry) (tgt n : Nat) : List Byte :=
  (List.range n).flatMap fun i => le 2 (ofS 16 (satS 16 (divRne (s.shelfV (e.value tgt i)) 25)))

/-- The digest of two targets, at rack scale as emitted, 0 for a band not emitted (R268). -/
def Entry.digest (e : Entry) (a b n : Nat) : Nat :=
  crc32 (((List.range n).flatMap fun i => le 4 (ofS 32 (e.value a i))) ++
    (List.range n).flatMap fun i => le 4 (ofS 32 (e.value b i)))

/-- The mode in effect and the truncation mark of a ring with slot code `c` (R268): FULL in a slot of 4 KiB stays FULL, cut after its fine
points. -/
def exportMode (mode c : Nat) : Nat × Bool :=
  if mode = 3 then (3, false)
  else if c ≤ 6 then (1, true)
  else if c = 7 then (mode, mode == 2)
  else (mode, false)

/-- The payload of a mode. -/
def State.exportPayload (s : State) (e : Entry) (mode : Nat) : List Byte :=
  match mode with
  | 0 => s.exportVals e 0 2048
  | 1 => s.exportVals e 2 2000
  | 2 => s.exportVals e 0 2048 ++ s.exportVals e 2 2000
  | _ => le 4 (e.digest 0 1 2048) ++ le 4 (e.digest 2 3 2000)

/-- A cycle is one that PRS_GAL_EXP.DIV exports. -/
def State.exported (s : State) (cyc : Nat) : Bool :=
  let d := s.get Reg.PRS_GAL_EXP_DIV
  d != 0 && cyc % d == 0

/-- The FORECAST entries of a cycle, one on each PROOF ring (R267, R268). -/
def State.forecast (s : State) (e : Entry) (confirmed : Bool) : State :=
  if !s.exported e.cyc then s
  else
    let var := match s.prs.slots.find? fun e => e.2.en && e.2.kindIs 0 with
      | some x => x.2.var.getD 0
      | none => 0
    (s.ringsOf 6).foldl (fun s r =>
      let (m, cut) := exportMode (s.get Reg.PRS_GAL_EXP_MODE) (s.get (Reg.HST_RAUX_SLOT r))
      s.postEntry r 0x0300 2 confirmed
        (fun _ => le 4 e.cyc ++ le 4 s.sigma ++ le 1 e.state ++ le 1 (m + 128 * b2n cut) ++ le 1 var ++
          le 1 (s.get Reg.PRS_GAL_STAT_BLIND))
        ((s.exportPayload e m).take (slotLen (s.get (Reg.HST_RAUX_SLOT r)))) (some (e.cyc * 20000))) s

/-- The VERDICT entries of a cycle whose FORECAST went out at its close (R267, R268). -/
def State.verdictOut (s : State) (e : Entry) : State :=
  if !s.exported e.cyc then s
  else
    (s.ringsOf 6).foldl (fun s r => s.postEntry r 0x0301 2 (e.state == 4)
      (fun _ => le 4 e.cyc ++ le 1 e.state ++ le 1 e.cause ++ zeros 2 ++ le 4 e.dev) [] (some (e.cyc * 20000))) s

/-! ## Blind operation (R263) -/

/-- The lowest cause of blind operation that holds now; start-blind (R72) holds code 1. -/
def State.blindCause (s : State) : Nat :=
  if s.get Reg.PRS_STAT_SVC = 0 ∨ s.gal.startBlind then 1
  else if s.on Reg.PRS_STAT_QUIESCED || s.prs.fwStep || s.halted || !s.on Reg.PRS_FCTL_RUN || (s.live 0).isEmpty then 2
  else 0

/-- Changes the trainer. -/
def State.trnMod (s : State) (f : Trn → Trn) : State := { s with trn := f s.trn }

/-- Length of a capture record of `n` surrogates. -/
def captureLen (n : Nat) : Nat := 64 + 8196 * n

/-- No capture is taken of the press cycle in progress (R274): a condition that excludes it holds. -/
def State.captureOff (s : State) : State :=
  s.trnMod fun x => { x with due := x.due.filter fun d => d.1 != s.get Reg.PRS_GAL_CYC }

/-- The blind code changes: BLIND_CHANGED with the duration of the blind period that ended (R270). -/
def State.setBlind (s : State) (c : Nat) : State :=
  let old := s.get Reg.PRS_GAL_STAT_BLIND
  if old = c then s
  else
    let dur := if old = 0 then 0 else (s.time - s.gal.blindAt) / 1000
    let s := (s.set Reg.PRS_GAL_STAT_BLIND c).galMod fun g => { g with blindAt := s.time }
    -- no capture is taken of a cycle in which BLIND is not 0 (R274)
    let s := if c = 0 then s else s.captureOff
    s.evt 2 0x0305 (le 1 old ++ le 1 c ++ zeros 2 ++ le 4 dur ++ zeros 4)

/-- Codes 1 and 2 come into force as soon as their cause holds, the lowest first; code 3 at a cycle whose cut follows the
loss (R263, R264). They end with a proof that closes after their cause. -/
def State.blindTick (s : State) (cycleStart : Bool) : State :=
  let c := s.blindCause
  let b := s.get Reg.PRS_GAL_STAT_BLIND
  if c ≠ 0 then s.setBlind c
  else if b = 0 ∧ cycleStart ∧ s.on Reg.HST_ING_STAT_LOST then s.setBlind 3
  else s

/-! ## The press cycle: start and close (R243, R245, R265) -/

/-- The variant that the proof runs with: that of the lowest-numbered enabled PROOF slot, as FORECAST shows it (R268). -/
def State.proofVariant (s : State) : Nat :=
  match s.prs.slots.find? fun e => e.2.en && e.2.kindIs 0 with
  | some x => x.2.var.getD 0
  | none => 0

/-- The entry of press cycle `k` opens; a cycle that starts takes the inputs of its cut. -/
def State.openEntry (s : State) (k : Nat) : State :=
  let s := s.entryMod (k % 8) fun _ => { cyc := k, state := 1, blind := s.on Reg.HST_ING_STAT_LOST, var := s.proofVariant }
  let s := s.galMod fun g => { g with tgt := [] }
  s.prsMod fun p => { p with discard := false, spine := [], proofCyc := [0, 0, 0, 0], lastEmit := none, lastMove := [] }

/-- What a judged or void cycle means for the plan whose basis it is (R261), and for the statuses of R409. -/
def State.basisIs (s : State) (cyc code : Nat) : State :=
  let s := s.galMod fun g =>
    { g with
      imprintSt := if code = 4 then (((g.ended.filter fun e => e.1 == cyc).map (·.2)) ++ g.imprintSt).take 3 else g.imprintSt
      ended := g.ended.filter fun e => e.1 != cyc }
  match Tab.find s.gal.basis cyc with
  | some 0 => s.galMod fun g => { g with basis := Tab.put g.basis cyc code }
  | _ => s

/-- A cycle without an entry in PROOF: counted, and PROOF_GAP at the fourth in a row (R265). -/
def State.noProof (s : State) (k : Nat) : State :=
  let n := s.gal.gap + 1
  let s := s.galMod fun g => { g with gap := n, gapFirst := if n = 1 then k else g.gapFirst }
  if n = 4 then s.evt 2 0x0304 (le 4 s.gal.gapFirst ++ zeros 8) else s

/-- Streams are bound and each holds at least 4.096 ms of stream time (R72). -/
def State.startOver (s : State) : Bool :=
  !s.ing.streams.isEmpty && s.ing.streams.all fun e => e.2.win.head?.any fun w => decide (w.1 + 4096 ≤ e.2.time / 1000)

/-- Start-blind ends once and for all when its condition is met (R72). -/
def State.startTick (s : State) : State :=
  if s.gal.startBlind && s.startOver then s.galMod fun g => { g with startBlind := false } else s

/-- A point of R68 is reached: the doorbells kept for the class that is served from it act. -/
def State.firstOf (s : State) (f : Glb → Glb) : State :=
  let t : State := { s with glb := f s.glb }
  if s.glb.firstProof == t.glb.firstProof && s.glb.firstImprint == t.glb.firstImprint then s else t.serveSaved

/-- GALLEY_CLOSE (R245): 19.0 us after the start of the present cycle. A PROOF run that has ended in every textblock counts as
ended, whether its RUN_END has come or not; any other is abandoned (R232). -/
def State.galleyClose (s : State) : State :=
  let k := s.get Reg.PRS_GAL_CYC
  let e := s.entry (k % 8)
  if e.state ≠ 1 ∨ e.cyc ≠ k then s
  else
    let s := (s.prs.runs.filter fun r => r.kind == 0).foldl (fun s r =>
      if r.over then (if r.bad then s.prsMod fun p => { p with discard := true } else s).runDone r else s.abandon r.slot 1) s
    let last := satU 16 (s.prs.proofCyc.foldl max 0)
    let s := (s.set Reg.PRS_FCYC_LAST last).set Reg.PRS_FCYC_MAX (max last (s.get Reg.PRS_FCYC_MAX))
    let s := s.startTick
    let good := (Tab.find s.gal.tgt 0).isSome && (Tab.find s.gal.tgt 2).isSome && !s.prs.discard && s.on Reg.PRS_FCTL_RUN &&
      !s.halted && !s.gal.startBlind
    let s := s.galMod fun g => { g with undo := (g.gap, g.gapFirst, s.get Reg.PRS_GAL_STAT_BLIND) }
    if good then
      let s := s.entryMod (k % 8) fun e => { e with state := 3, tgt := s.gal.tgt }
      let s := (s.galMod fun g => { g with gap := 0 }).firstOf fun g => { g with firstProof := true }
      let s := if s.blindCause = 0 then s.setBlind (if e.blind then 3 else 0) else s
      if s.on Reg.PRS_GAL_EXP_WHEN then s.forecast (s.entry (k % 8)) false else s
    else
      let s := (s.entryMod (k % 8) fun e => { e with state := 2 }).bump Reg.PRS_GAL_VOID
      (s.basisIs k 2).noProof k

/-- The transfer of the last proof to Chase was missed (R24): its entry is VOID, and what its close ended goes on (R265). -/
def State.proofMissed (s : State) : State :=
  let k := s.get Reg.PRS_GAL_CYC
  let j := if (s.entry (k % 8)).state = 3 ∧ (s.entry (k % 8)).cyc = k then some (k % 8)
    else s.newest fun e => e.state == 3
  match j with
  | none => s
  | some j =>
    let cyc := (s.entry j).cyc
    let (gap, first, b) := s.gal.undo
    let s := (s.entryMod j fun e => { e with state := 2, verdict := none }).bump Reg.PRS_GAL_VOID
    let s := (s.basisIs cyc 2).galMod fun g => { g with gap := gap, gapFirst := first }
    (if b ≠ 0 ∧ s.get Reg.PRS_GAL_STAT_BLIND = 0 then s.setBlind b else s).noProof cyc

/-! ## Confirmation (R248, R249) -/

/-- A measured sample at instant `t` ns joins every proof whose confirmation window holds it. -/
def State.confirmSample (s : State) (t : Nat) (i : Option Int) : State :=
  (List.range 8).foldl (fun s j => s.entryMod j fun e =>
    if (e.state = 1 ∨ e.state = 3) ∧ !e.judged ∧ e.cyc * 20000 + 20000 ≤ t ∧ t < e.cyc * 20000 + 36000 then
      { e with samples := ((t - e.cyc * 20000) / 1000, i) :: e.samples } else e) s

/-- The verdict on an entry (R249): 0 confirmed, else the cause of withdrawal; with the greatest deviation. -/
def State.verdictOf (s : State) (e : Entry) : Nat × Nat :=
  let devs := e.samples.filterMap fun p => p.2.map fun m => (p.1, (m - s.pS e p.1).natAbs)
  let dev := (devs.map (·.2)).foldl max 0
  if devs.any fun p => decide (s.band e p.1 < (p.2 : Int)) then (1, dev)
  else if e.samples.isEmpty ∨ e.samples.any (fun p => p.2.isNone) then (2, dev)
  else (0, dev)

/-- Chase takes the verdicts that are due in a period whose full law completes: the window is over, or ends before the
next sample instant `next` (R248). -/
def State.takeVerdicts (s : State) (next : Nat) : State :=
  (List.range 8).foldl (fun s j =>
    let e := s.entry j
    if e.state = 3 ∧ !e.judged ∧ e.cyc * 20000 + 36000 ≤ next then
      let (v, d) := s.verdictOf e
      s.entryMod j fun e => { e with verdict := some v, judged := true, dev := d }
    else s) s

/-! ## The period boundary (R258) -/

/-- A verdict takes effect on entry `j` (R249 to R253). -/
def State.applyVerdict (s : State) (j : Nat) : State :=
  let e := s.entry j
  match e.verdict with
  | none => s
  | some v =>
    let s := s.entryMod j fun e => { e with verdict := none }
    if e.state ≠ 3 then s
    else if v = 0 then
      let s := ((s.entryMod j fun e => { e with state := 4 }).bump Reg.PRS_GAL_CONF).basisIs e.cyc 4
      let s := s.firstOf fun g => { g with firstImprint := true }
      let s := { s with trn := { s.trn with nWin := s.trn.nWin + 1, nSec := s.trn.nSec + 1 } }
      if s.on Reg.PRS_GAL_EXP_WHEN then s.verdictOut (s.entry j) else s.forecast (s.entry j) true
    else
      let s := ((s.entryMod j fun e => { e with state := 5, cause := v }).bump Reg.PRS_GAL_WDRAW).basisIs e.cyc 5
      let s := { s with trn := { s.trn with nWin := s.trn.nWin + 1, nSec := s.trn.nSec + 1, wdWin := s.trn.wdWin + 1,
                                            wdSec := s.trn.wdSec + 1 } }
      let s := s.set Reg.PRS_GAL_LASTDEV e.dev
      let s := s.galMod fun g => { g with wdN := g.wdN + 1, wdFirst := if g.wdN = 0 then e.cyc else g.wdFirst,
                                          wdMax := max g.wdMax e.dev }
      let s := (List.range 8).foldl (fun s i => s.entryMod i fun x =>
        let x := if (x.state = 1 ∨ x.state = 3) ∧ x.cyc * 20000 < s.time then { x with susp := true } else x
        if x.state ≠ 0 ∧ x.cyc < e.cyc then { x with barred := true } else x) s
      if s.on Reg.PRS_GAL_EXP_WHEN then s.verdictOut (s.entry j) else s

/-- Entries older than 80 us become STALE (R252). -/
def State.staleEntries (s : State) : State :=
  (List.range 8).foldl (fun s j =>
    let e := s.entry j
    if (e.state = 3 ∨ e.state = 4) ∧ e.cyc * 20000 + 80000 < s.time then
      let s := s.entryMod j fun e => { e with state := 6, verdict := none }
      if e.state = 3 then
        -- a live proof that was not withdrawn (R288)
        let s : State := { s with trn := { s.trn with nWin := s.trn.nWin + 1, nSec := s.trn.nSec + 1 } }
        let s := (s.bump Reg.PRS_GAL_STALE).basisIs e.cyc 6
        if s.on Reg.PRS_GAL_EXP_WHEN then s.verdictOut (s.entry j) else s
      else s
    else s) s

/-- The governing proof and the governing imprint are chosen (R253). -/
def State.govern (s : State) : State :=
  let p := s.newest fun e => !e.barred && ((e.state == 3 && !e.susp) || e.state == 4)
  let i := s.newest fun e => e.state == 4
  let s := s.galMod fun g => { g with govP := p, govI := i }
  let s := (s.set Reg.PRS_GAL_STAT_GOVP (p.getD 0)).setB Reg.PRS_GAL_STAT_GOVPV p.isSome
  let s := (s.set Reg.PRS_GAL_STAT_GOVI (i.getD 0)).setB Reg.PRS_GAL_STAT_GOVIV i.isSome
  s.set Reg.PRS_GAL_STAT_GOVST (match p with
    | some j => (s.entry j).state
    | none => 0)

/-- A plan that awaits use is taken into use once its basis has been confirmed, or dropped (R261); while runs are not allowed the
Press produces no plan (R242). -/
def State.planOne (s : State) (p : Plan) : State :=
  let out := s.galMod fun g => { g with planWait := g.planWait.filter fun q => q.basis != p.basis }
  if !s.on Reg.PRS_FCTL_RUN then out.planDrop p.basis 1 p.status
  else match Tab.get s.gal.basis p.basis 0 with
  | 0 => s
  | 4 => (out.galMod fun g => { g with plan := some p, planStale := false, basis := Tab.del g.basis p.basis }).set Reg.PRS_GAL_STAT_PLAN 1
  | _ => out.planDrop p.basis 3 p.status

/-- The plans that await use, in the order in which their runs ended (R261). -/
def State.planTake (s : State) : State := s.gal.planWait.foldl State.planOne s

/-- PLANAGE in ns, 0 acting as 3 ms (R262). -/
def State.planLife (s : State) : Nat :=
  (if s.get Reg.PRS_GAL_CTL_PLANAGE = 0 then 3 else s.get Reg.PRS_GAL_CTL_PLANAGE) * 1000000

/-- The plan in use becomes stale at the end of its life (R262). -/
def State.planAge (s : State) : State :=
  match s.gal.plan with
  | none => s
  | some p =>
    if p.basis * 20000 + s.planLife ≤ s.time then
      (s.galMod fun g => { g with plan := none, planStale := true }).set Reg.PRS_GAL_STAT_PLAN 0
    else s

/-- PLAN_STALE (R262). -/
def execPlanStale (s : State) : Out State := .next s.planAge

/-- Value `j` of the plan step that holds the present time (R260). -/
def State.planVal (s : State) (j : Nat) : Option Int :=
  match s.gal.plan with
  | none => none
  | some p => p.steps[(s.time - p.basis * 20000) / 10000000 * 8 + j]?

/-- Moves `v` towards `t` by no more than `d`. -/
def stepTo (v t : Int) (d : Nat) : Int := if v ≤ t then min t (v + d) else max t (v - d)

/-- A reference at a period boundary (R256, R257): without a source it rolls back to neutral; a source that takes it over
during or after a rollback, or a proof that takes it over from a plan, draws it by the same step, and drives it freely once
reached. The first source of all drives it at once. `plan` says that the source is the plan in use. -/
def Ref.tick (r : Ref) (src : Option Int) (neutral : Int) (d : Nat) (plan : Bool := false) : Ref :=
  match src with
  | none =>
    let v := if r.ever then stepTo r.val neutral d else neutral
    { val := v, src := false, rb := v != neutral, ever := r.ever }
  | some x =>
    if (r.src && !r.rb && !(r.plan && !plan)) || !r.ever then { val := x, src := true, rb := false, ever := true, plan := plan }
    else let v := stepTo r.val x d; { val := v, src := true, rb := v != x, ever := true, plan := plan }

/-- The least share of a current divided by floor among `n` strings, the remainder to the lowest-numbered (R255, R305):
the amount of the string of rank `k` among them. -/
def splitI (z : Int) (n k : Nat) : Int := z / (n : Int) + (if (k : Int) < z % (n : Int) then 1 else 0)

/-- The strings with armed phases; a resting string counts as one without (R460). -/
def State.armedStrings (s : State) : List Nat :=
  (List.range 4).filter fun st => s.strArmed st && !s.on (Reg.BUP_EST_STAT_RESTING st)

/-- The share of string `st` of a bus current divided among the strings with armed phases; none gets any when none is. -/
def State.stringShare (s : State) (z : Int) (st : Nat) : Int :=
  let xs := s.armedStrings
  if xs.contains st then splitI z xs.length (xs.findIdx (· == st)) else 0

/-- I_base (R255): the shelf current at 800 V that the present grid-draw target supplies. -/
def State.iBase (s : State) : Int := (s.get Reg.CHS_RMP_OUT * 5 / 4 : Nat)

/-- A value of a period in us times a rate per us; the period is a multiple of 2.5 us. -/
def State.perPeriod (s : State) (rate : Nat) : Nat := rate * s.periodNs / 1000

/-- The arming demand from the governing proof (R255). -/
def State.armFrom (s : State) (e : Entry) (l : Nat) : Int :=
  let w := if s.get Reg.PRS_GAL_REF_ARMWIN = 0 then 64 else s.get Reg.PRS_GAL_REF_ARMWIN
  ((maxI ((List.range w).map fun j => let i := min 2047 (l + j); s.pS e i + s.band e i)).getD 0)

/-- The storage correction of a string without armed phases (R255): none, whatever its source. A string armed again takes up the source
that it had; a source that is new since a rollback draws it by the step (R257). -/
def Ref.unarmed (r : Ref) (src : Bool) : Ref := { val := 0, src := r.src && !r.rb && src, rb := false, ever := r.ever }

/-- The references of R255 at a period boundary, with rollback and takeover (R256, R257). Before the first imprint of an active
role they come from measurement only (R77, R328). The grid-draw target is held in uW, so that the quiet slope of a short period
is not lost. -/
def State.references (s : State) : State :=
  let gov := if s.chs.waitImp then none else s.gal.govP.map s.entry
  let plan := fun j => if s.chs.waitImp then none else s.planVal j
  let l := match gov with
    | some e => min 2047 ((s.time - e.cyc * 20000) / 1000 + s.get Reg.PRS_GAL_REF_LEAD)
    | none => 0
  let istr := s.perPeriod (if s.get Reg.PRS_GAL_RB_ISTR = 0 then 2000 else s.get Reg.PRS_GAL_RB_ISTR)
  let vtrim := s.perPeriod (if s.get Reg.PRS_GAL_RB_VTRIM = 0 then 100 else s.get Reg.PRS_GAL_RB_VTRIM)
  -- arming demand
  let neutralD := s.chs.iLast + (pct s.bandDef : Nat)
  let d : Ref := match gov with
    | some e => { val := s.armFrom e l, src := true }
    | none => { val := neutralD }
  let hold := if s.gal.armD.src && gov.isNone && decide (neutralD < s.gal.armD.val) then
      s.time + s.get Reg.PRS_GAL_REF_ARMHOLD * 100000 else s.gal.holdUntil
  -- plan currents, then the storage correction
  let plans := (List.range 4).map fun k => (((s.gal.iplan[k]?).getD {}).tick (plan k) 0 istr)
  let total := (plans.map (·.val)).foldl (· + ·) 0
  let delta := gov.map fun e => s.pS e l - s.iBase - total
  let deltas := (List.range 4).map fun k =>
    let r := (s.gal.delta[k]?).getD {}
    if s.armedStrings.contains k then r.tick (delta.map fun z => s.stringShare z k) 0 istr else r.unarmed delta.isSome
  let trim := s.gal.trim.tick ((plan 4).map (clampI (-8000) 8000)) 0 vtrim
  -- grid-draw target
  let target : Option Int := match plan 5 with
    | some v => some v
    | none => gov.map fun (e : Entry) => s.shelfV (e.value 2 0) * 4 / 5
  let neutral := if target.isNone && (s.gal.grid.src || !s.gal.grid.ever) then (s.get Reg.CHS_PGRID : Int)
    else s.gal.gridNeutral
  let goal := target.getD neutral * 1000000
  let slope := s.get (if s.gal.grid.val ≤ goal then Reg.CHS_RMP_SUP else Reg.CHS_RMP_SDN) * s.periodNs / 8
  let grid := s.gal.grid.tick (target.map (· * 1000000)) (neutral * 1000000) slope (plan 5).isSome
  -- the proof that the target comes from, also while it moves away from it (R27)
  let proof := match (plan 5).isNone, gov with
    | true, some e => some (e.cyc, e.state)
    | _, _ => if grid.rb then s.gal.gridProof else none
  let s := s.galMod fun g =>
    { g with armD := d, holdUntil := hold, iplan := plans, delta := deltas, trim := trim, grid := grid, gridNeutral := neutral,
             gridProof := proof }
  -- a quantity with a source rolls back no more: it moves to that source (R257)
  s.setB Reg.PRS_GAL_STAT_RB ((plans ++ deltas ++ [trim, grid]).any fun r => r.rb && !r.src)

/-- WITHDRAWALS (R270), at a press-cycle boundary at least 1 ms after the last one. -/
def State.withdrawals (s : State) : State :=
  if s.gal.wdN = 0 ∨ s.time < s.gal.wdAt + 1000000 then s
  else
    let s := s.evt 2 0x0302 (le 4 s.gal.wdN ++ le 4 s.gal.wdFirst ++ le 4 s.gal.wdMax)
    s.galMod fun g => { g with wdN := 0, wdMax := 0, wdAt := s.time }

/-- A condition that excludes the press cycle in progress from the captures has come up in it (R274). -/
def State.captureTick (s : State) : State :=
  if s.on Reg.HST_ING_STAT_LOST || s.on Reg.HST_ING_STAT_OVERCAP || s.on Reg.PRS_STAT_CHG then s.captureOff else s

/-- What the galley does at a period boundary, in the order of R258; `press` says that it is a press-cycle boundary. The first
imprint of an active role lets the references be read (R77). -/
def State.galleyTick (s : State) (press : Bool) : State :=
  let s := (List.range 8).foldl (fun s j => s.applyVerdict j) s
  let s := s.staleEntries.planAge
  let s := if press then s.set Reg.PRS_GAL_SHARE_SIGMA s.gal.share else s
  let s := s.govern.planTake
  let s : State := { s with chs := { s.chs with waitImp := s.chs.waitImp && s.gal.govI.isNone } }
  -- the plain law reads no galley reference (R317)
  let s := if s.on Reg.CHS_STAT_LAW then s else s.references
  (if press then s.withdrawals else s).captureTick

/-! ## GALLEY_QUERY (R269) -/

/-- An entry is suspended now (R253): a proof open or closed before a withdrawal, or one that an older withdrawal bars. -/
def Entry.suspended (e : Entry) : Bool := (e.state == 3 && e.susp) || ((e.state == 3 || e.state == 4) && e.barred)

/-- One entry of the GALLEY_QUERY image. -/
def Entry.image (e : Entry) : List Byte :=
  le 4 e.cyc ++ le 1 e.state ++ le 1 (b2n e.suspended + 2 * b2n e.blind + 4 * b2n (Tab.find e.tgt 1).isSome) ++ le 1 e.cause ++
    le 1 0 ++ le 4 e.dev

/-- GALLEY_QUERY (R269). -/
def execGalleyQuery (r : Nat) (d : Desc) (s : State) : Out State :=
  .next (s.cmd r 0x0300 d { priv := 0, buf := .writes, lenOk := fun n => 128 ≤ n } fun s =>
    let g := s.gal
    image s 128 (le 8 (s.get Reg.PRS_GAL_CYC) ++ le 1 (g.govP.getD 0xFF) ++ le 1 (g.govI.getD 0xFF) ++
      le 1 (s.get Reg.PRS_GAL_STAT_BLIND) ++ le 1 (s.get Reg.PRS_GAL_STAT_RB) ++
      le 4 (match g.plan with
        | some p => p.basis
        | none => 0) ++
      le 1 (if g.plan.isSome then 2 else if !g.planWait.isEmpty then 1 else if g.planStale then 3 else 0) ++ zeros 3 ++
      le 4 s.sigma ++ zeros 8 ++ g.entries.flatMap Entry.image))

end Sys2Proof.Machine
end

