-- ==== Sys2Proof/Machine/Colophon.lean ====
section
/-!
DEFINITION. The Colophon: records as bytes, snapshots and their triggers, commits of the stores, and the commands (R515 to
R539).
-/
namespace Sys2Proof.Machine

/-- Changes the Colophon. -/
def State.colMod (s : State) (f : Col → Col) : State := { s with col := f s.col }

/-! ## Records (R526, R528, R530) -/

/-- The CRC-32 of bytes follows them. -/
def sealed (b : List Byte) : List Byte := b ++ le 4 (crc32 b)

/-- A change-log entry (R530). -/
def LogEntry.bytes (e : LogEntry) : List Byte :=
  sealed (le 8 e.seq ++ le 6 e.opTime ++ le 3 e.pcc ++ le 1 e.origin ++ le 2 (e.kind + 32768 * b2n e.digest) ++ le 4 e.detail ++
    le 4 e.chgNo ++ le 2 e.opcode ++ le 1 e.block ++ le 1 0 ++ le 4 e.target ++ le 8 e.old ++ le 8 e.new ++ le 8 e.time)

/-- A slug (R528). -/
def Slug.bytes (e : Slug) : List Byte :=
  sealed (le 2 e.code ++ le 2 e.sub ++ le 4 e.hours ++ le 4 e.pcc ++ le 4 e.p0 ++ le 4 e.p1 ++ le 4 e.p2 ++ le 4 e.p3)

/-! ## Words of a snapshot (R522, R523) -/

/-- The KIND 2 word of a galley entry (R522): press-cycle number and state code. -/
def Entry.tag (e : Entry) : Nat := e.cyc % 2 ^ 28 + 2 ^ 28 * (e.state % 16)

/-- The entry whose rollback a reference follows: the newest one withdrawn or stale (R523). -/
def State.rolledBack (s : State) : Option Nat := s.newest fun e => e.state == 5 || e.state == 6

/-- The tag of what drives a reference: the governing entry, or the entry whose rollback it follows (R523). -/
def State.sourceTag (s : State) : Nat :=
  match s.gal.govP with
  | some j => (s.entry j).tag
  | none => match s.rolledBack with
    | some j => (s.entry j).tag
    | none => 0

/-- The tag of the last withdrawn entry (R523). -/
def State.withdrawnTag (s : State) : Nat :=
  match s.newest fun e => e.state == 5 with
  | some j => (s.entry j).tag
  | none => 0

/-- A galley reference by its code, with whether its source is the plan (R522). -/
def State.refOf (s : State) (code : Nat) : Ref × Bool :=
  if code = 0 then (s.gal.armD, false)
  else if code ≤ 4 then ((s.gal.delta[code - 1]?).getD {}, false)
  else if code ≤ 8 then ((s.gal.iplan[code - 5]?).getD {}, true)
  else if code = 9 then (s.gal.trim, true)
  else (s.gal.grid, s.gal.plan.isSome)

/-- A reference is captured as its value: its source is an imprint, the plan in use, or it is neutral with nothing rolling
back (R523). -/
def State.refPlain (s : State) (code : Nat) : Bool :=
  let (r, byPlan) := s.refOf code
  if r.rb then false
  else if !r.src then true
  else byPlan || (match s.gal.govP with
    | some j => (s.entry j).state == 4
    | none => false)

/-- The score registers PRS_TRN_ELIVE, ECAND and WITH. -/
def scoreReg (off : Nat) : Bool := decide (0x2301C ≤ off ∧ off < 0x23030)

/-- The word that a selector names, and whether it is a tag (R522, R523). DESIGN CHOICE (unsafe): no record holds a score (R284), so
a selector that names a score register captures 0, though R523 lets it name any register (log entry 98). -/
def State.selWord (s : State) (sel : List Byte) : Nat × Bool :=
  let addr := rd sel 0 4
  let idx := rd sel 4 2
  match rd sel 6 1 with
  | 0 =>
    let off := addr % 2 ^ 20
    if off = 0x30214 ∧ s.get Reg.CHS_RMP_STAT_CLASS ≠ 0 then (s.sourceTag, true)
    else if off = 0x22034 then (s.withdrawnTag, true)
    else if scoreReg off then (0, false)
    else (s.read off idx, false)
  | 1 =>
    let v := (s.refOf addr).1.val
    if s.refPlain addr then (ofS 32 (if addr = 10 then divRne v 1000000 else v), false) else (s.sourceTag, true)
  | _ => ((s.entry (addr % 8)).tag, false)

/-- A selector of a register without window. -/
def plainSel (off : Nat) : List Byte := le 4 off ++ zeros 4

/-- The fixed list of the built-in snapshots (R525). -/
def fixedList : List (List Byte) :=
  ([0x24, 0x20, 0x80008, 0x8000C, 0x80010, 0x80014, 0x30004, 0x30010, 0x30014, 0x30018, 0x3001C, 0x30040, 0x30044, 0x30048,
    0x30200, 0x40008, 0x40010, 0x40014, 0x20004, 0x22010, 0x70008, 0x6021C, 0x60008, 0x50024,
    0x54104, 0x54124, 0x54144, 0x54164, 0x54110, 0x54130, 0x54150, 0x54170] : List Nat).map plainSel

/-! ## Snapshots (R521 to R527) -/

/-- Bytes of records that a bank of the snapshot store holds: 640 MiB in pages of 4,032 body bytes (R515, R516). -/
def snapCap : Nat := 163840 * 4032

/-- The newest records whose bytes fit `cap`, of a list in sequence order. -/
def keepNewest (cap : Nat) (l : List (Nat × List Byte)) : List (Nat × List Byte) :=
  (l.reverse.foldl (fun (a : Nat × List (Nat × List Byte)) e =>
    if cap < a.1 + e.2.length then (cap + 1, a.2) else (a.1 + e.2.length, e :: a.2)) (0, [])).2

/-- A snapshot record is written (R526): words with their taint marks, and the indices of those not taken in time.
SNAPSHOT is posted (R538). Answers the record's sequence. -/
def State.snapRecord (s : State) (trig cause : Nat) (inj now : Bool) (ws : List (Nat × Bool)) (late : List Nat) : Nat × State :=
  let seq := s.get (Reg.COL_SNEXT 4)
  let ws := ws.zipIdx.map fun e => if late.contains e.2 then (0, false) else e.1
  let nw := ws.length
  let taint := (List.range (cdiv nw 32)).flatMap fun w =>
    le 4 (packBits 32 fun j => (ws[32 * w + j]?).any (·.2))
  let lateF := (List.range nw).any fun j => late.contains j
  let flags := b2n inj + 2 * b2n lateF + 4 * s.get Reg.GLB_SEAT_SEAT + 8 * b2n s.token + 16 * b2n now
  let head := le 4 0x9640534E ++ le 8 seq ++ le 6 (s.get Reg.COL_OPT) ++ le 3 (s.get Reg.COL_PCC_PCC) ++ le 1 trig ++ le 2 nw ++
    le 8 s.time ++ le 4 cause ++ le 4 (s.get Reg.CHS_PNUM) ++ le 1 flags ++ le 1 0 ++ le 2 (satU 16 (Tab.get s.col.dropped trig 0)) ++
    zeros 16
  let body := ws.flatMap (fun w => le 4 w.1) ++ taint
  let rec_ := head ++ le 4 (crc32 (head ++ body)) ++ body
  let old := s.col.posSnap
  let s := s.colMod fun c =>
    { c with snaps := keepNewest snapCap (c.snaps ++ [(seq, rec_)]), posSnap := old + rec_.length, openSnap := c.openSnap + 1,
             dropped := Tab.put c.dropped trig 0 }
  let s := (s.set (Reg.COL_SNEXT 4) (seq + 1)).openAdd rec_.length
  let s := if old / snapCap < s.col.posSnap / snapCap then
      (s.bump (Reg.COL_SSTAT_WRAPS 4)).evt 9 0x0A02 (le 1 4 ++ zeros 3 ++ le 4 ((s.col.snaps.head?.map (·.1)).getD 0) ++ zeros 4)
    else s
  (seq, s.evt 9 0x0A00 (le 1 trig ++ le 1 flags ++ le 2 nw ++ le 4 seq ++ le 4 cause))

/-- Snapshots are refused once the POWERLOSS snapshot has been captured (R533). -/
def State.snapsOver (s : State) : Bool := decide (3 ≤ s.glb.lossStep)

/-- A snapshot refused by R533 is lost and counted. -/
def State.snapLost (s : State) : State :=
  (s.bump Reg.COL_LOST).colMod fun c => { c with lossRecs := c.lossRecs + 1 }

/-- A definition's capture is made (R524): its record, its count, its holdoff. Answers the sequence. -/
def State.capture1 (s : State) (c : Capture) (late : List Nat) : Nat × State :=
  let ws := c.defn.sels.map s.selWord
  let (seq, s) := s.snapRecord c.trig c.cause c.injected c.now ws late
  let s := s.bump (Reg.COL_TFIRE c.trig)
  (seq, s.colMod fun x =>
    { x with lastCap := Tab.put x.lastCap c.trig s.time,
             recent := s.time :: x.recent.filter fun t => decide (s.time < t + 1000000000) })

/-- A built-in snapshot (R525): never dropped for rate. -/
def State.builtIn (s : State) (trig cause : Nat) (inj : Bool) (ws : List (Nat × Bool)) (late : List Nat) : Nat × State :=
  s.snapRecord trig cause inj false ws late

/-- The rate rule of R527 for a capture at `due`: captures within a second of it. SNAPMAX 0 stops kinds 1 to 4 and 8 only
(R536). -/
def State.rateAllows (s : State) (kind due : Nat) : Bool :=
  let m := s.get Reg.COL_CTL_SNAPMAX
  if m = 0 then decide (5 ≤ kind ∧ kind ≤ 7)
  else
    let near := fun (t : Nat) => decide (t < due + 1000000000 ∧ due < t + 1000000000)
    decide (s.col.recent.countP near + s.col.captures.countP (fun c => near c.due) < m)

/-- A firing is dropped (R527). -/
def State.fireDrop (s : State) (trig : Nat) : State :=
  (s.bump (Reg.COL_TDROP trig)).colMod fun c => { c with dropped := Tab.put c.dropped trig (Tab.get c.dropped trig 0 + 1) }

/-- The occurrence is one that the definition names (R521). -/
def State.occurs (s : State) (t : Trigger) (cause : Nat) : Bool :=
  match t.kind with
  | 1 => cause == t.a && (s.det cause).status && decide (t.b ≤ (s.det cause).cls)
  | 2 => cause == t.a
  | 3 => true
  | 5 => s.halted
  | 6 => decide (s.glb.lossStep ≠ 0)
  | 7 => s.glb.reported
  | 8 => t.a == 0 || cause == t.a
  | _ => false

/-- TRIGGER_FIRE (R524, R527): a firing of an enabled definition outside its holdoff waits for its DELAY, or is dropped. -/
def State.fire (s : State) (trig cause : Nat) (inj : Bool) : State :=
  let t := Tab.get s.col.triggers trig {}
  let held := match Tab.find s.col.lastCap trig with
    | some x => decide (s.time < x + t.holdoff * 1000000)
    | none => false
  let due := s.time + t.delay * 1000000
  if !t.en || !s.occurs t cause || held || (s.get Reg.COL_CTL_SNAPMAX == 0 && !(decide (5 ≤ t.kind ∧ t.kind ≤ 7))) then s
  else if s.snapsOver then s.snapLost
  else if (s.col.captures.any fun c => c.trig == trig) || !s.rateAllows t.kind due then s.fireDrop trig
  else s.colMod fun c =>
    { c with captures := c.captures ++ [{ trig := trig, cause := cause, injected := inj, now := false, due := due, defn := t }] }

/-- TRIGGER_FIRE (R524). -/
def execTriggerFire (trig cause : Nat) (inj : Bool) (s : State) : Out State := .next (s.fire trig cause inj)

/-- The POWERLOSS snapshot and its slug (R525, R529), and with it the definitions of kind 6 (R533). -/
def State.lossSnap (s : State) (late : List Nat) : State :=
  let (seq, s) := s.builtIn 0x82 (detN 3 0) false (fixedList.map s.selWord) late
  let s := s.slug 3 s.glb.lossBy (s.get Reg.GLB_VRSV_VRSV) (s.get Reg.GLB_VIN_VALUE) seq 0
  let ts := s.col.triggers.filter fun e => e.2.en && e.2.kind == 6
  let s := s.colMod fun c => { c with captures := c.captures.filter fun x => x.defn.kind != 6 }
  ts.foldl (fun s e =>
    (s.capture1 { trig := e.1, cause := 0, injected := false, now := false, due := s.time, defn := e.2 } late).2) s

/-- The HALT snapshot and its slug (R525, R529). -/
def State.haltSnap (s : State) (late : List Nat) : State :=
  let n := s.get Reg.ERA_HALT_FIRST
  let (seq, s) := s.builtIn 0x81 n (s.det n).injected (fixedList.map s.selWord) late
  let s : State := { s with era := { s.era with haltSnap := false } }
  s.slug 2 0 n (s.get Reg.ERA_HALT_MORE) seq (s.get Reg.CHS_PNUM)

/-- SNAPSHOT_CAPTURE (R524, R525): a capture whose DELAY has passed, or the built-in one that is owed. `late` lists the
words that did not come within 1.0 us. -/
def execSnapshotCapture (trig : Nat) (late : List Nat) (s : State) : Out State :=
  .next (
    if trig = 0x81 then
      if !s.era.haltSnap then s else if s.snapsOver then s.snapLost else s.haltSnap late
    else if trig = 0x82 then
      if s.glb.lossStep = 2 then { (s.lossSnap late) with glb := { s.glb with lossStep := 3 } } else s
    else match s.col.captures.find? fun c => c.trig == trig with
      | none => s
      | some c =>
        let s := s.colMod fun x => { x with captures := x.captures.filter fun y => y.trig != trig }
        if s.snapsOver then s.snapLost else (s.capture1 c late).2)

/-! ## Commits (R517, R518, R533, R534) -/

/-- A whole image of store 0 or 1 has been committed to the bank that does not hold the newest one (R517). -/
def State.imageDone (s : State) (store : Nat) : State :=
  s.set (Reg.COL_SSTAT_NEWB store) (1 - s.get (Reg.COL_SSTAT_NEWB store))

/-- A page of a store (R516). -/
def pageBytes (store page cseq first : Nat) (closed : Bool) (body : List Byte) : List Byte :=
  let head := le 4 0x96405047 ++ le 1 store ++ le 1 (b2n closed) ++ le 2 body.length ++ le 4 page ++ le 8 cseq ++ le 8 first ++ zeros 32
  let b := fit 4032 body
  head ++ le 4 (crc32 (head ++ b)) ++ b

/-- Pages in a bank of store 2, 3 or 4 (R515, R516). -/
def bankPages (store : Nat) : Nat := if store = 2 then 65536 else if store = 3 then 16384 else 163840

/-- A copy of a page goes to the bank that does not hold its newest one, with the store's next commit sequence (R517). -/
def State.pageCopy (s : State) (store page first : Nat) (closed : Bool) (body : List Byte) : State :=
  let k := store * 2 ^ 20 + page
  let bank := 1 - Tab.get s.col.pageBank k 1
  let c := Tab.get s.col.cseq store 0 + 1
  let s := s.colMod fun x => { x with cseq := Tab.put x.cseq store c, pageBank := Tab.put x.pageBank k bank }
  (s.set (Reg.COL_SSTAT_NEWB store) bank).emit (.flash store bank (pageBytes store page c first closed body))

/-- A page is committed; one that is closed goes to the other bank as well (R517), and so does every page of the final commit (R533). -/
def State.pageWrite (s : State) (store page first : Nat) (closed : Bool) (body : List Byte) : State :=
  let s := s.pageCopy store page first closed body
  if closed || s.col.finalCommit != 0 then s.pageCopy store page first closed body else s

/-- Records with the place in the store's byte stream at which each begins; the last one ends at `stop`. -/
def placed (stop : Nat) (l : List (Nat × List Byte)) : List (Nat × Nat × List Byte) :=
  (l.reverse.foldl (fun (a : Nat × List (Nat × Nat × List Byte)) e => (a.1 - e.2.length, (a.1 - e.2.length, e) :: a.2)) (stop, [])).2

/-- The pages of a log store that hold its last `n` bytes are committed (R516, R518): `recs` are its last records, `stop` the place at
which they end. -/
def State.commitStore (s : State) (store : Nat) (recs : List (Nat × List Byte)) (stop n : Nat) : State :=
  let xs := placed stop recs
  let p := (stop - n) / 4032
  (List.range (if n = 0 then 0 else (stop - 1) / 4032 + 1 - p)).foldl (fun s i =>
    let lo := 4032 * (p + i)
    let es := xs.filter fun e => decide (e.1 < lo + 4032 ∧ lo < e.1 + e.2.2.length)
    let body := ((es.flatMap fun e => e.2.2).drop (lo - ((es.head?.map (·.1)).getD lo))).take 4032
    s.pageWrite store ((p + i) % bankPages store) (((es.find? fun e => decide (lo ≤ e.1)).map (·.2.1)).getD 0) (decide (lo + 4032 ≤ stop))
      body) s

/-- The open pages of the log stores are committed: records of 64 and 32 bytes lie 63 and 126 to a page, and at most 63 snapshots begin in
one (R516). -/
def State.commitLogs (s : State) : State :=
  let c := s.col
  let last := fun {α : Type} (k : Nat) (l : List α) => l.drop (l.length - k)
  let snaps := last c.openSnap c.snaps
  let s := s.commitStore 2 ((last (c.openLog + 62) c.log).map fun e => (e.seq, e.bytes)) (64 * c.posLog) (64 * c.openLog)
  let s := s.commitStore 3 ((last (c.openSlug + 125) c.slugs).map fun e => (e.seq, e.bytes)) (32 * c.posSlug) (32 * c.openSlug)
  s.commitStore 4 (last (c.openSnap + 63) c.snaps) c.posSnap ((snaps.map (·.2.length)).foldl (· + ·) 0)

/-- Every open page is in flash (R518); the settings image carries the operating time and the count of R520. -/
def State.pagesDone (s : State) : State :=
  let s := s.commitLogs
  let s : State := { s with nv := { s.nv with opTime := s.get Reg.COL_OPT, pcc := s.get Reg.COL_PCC_PCC } }
  let n := s.get (Reg.COL_SNEXT 0)
  let s := ((s.set (Reg.COL_SFIRST 0) n).set (Reg.COL_SNEXT 0) (n + 1)).imageDone 0
  s.colMod fun c => { c with openBytes := 0, openLog := 0, openSlug := 0, openSnap := 0 }

/-- A page write fails: counted, and detector 21.0 is raised (R539). -/
def State.writeFails (s : State) : Nat → State
  | 0 => s
  | n + 1 => State.writeFails ((s.bump Reg.COL_WERR).raise (detN 21 0) 0 0) n

/-- PAGE_COMMIT (R518): the commit period has passed or 4 MiB wait, and every open page is committed. -/
def execPageCommit (failed : Nat) (s : State) : Out State :=
  .next (if s.col.finalCommit ≠ 0 then s else ((s.writeFails (min failed 65536)).pagesDone))

/-- The final commit begins (R533): journal, settings, change log, slugs, snapshots. -/
def State.finalBegin (s : State) : State := s.colMod fun c => { c with finalCommit := 1, committing := true }

/-- FINAL_COMMIT_DONE (R533): slug 0x0004 is written and committed, and the clean-shutdown mark follows. -/
def execFinalCommitDone (us : Nat) (s : State) : Out State :=
  .next (
    if s.col.finalCommit ≠ 1 || s.glb.exhausted then s
    else
      let bytes := s.col.openBytes
      let s := s.pagesDone
      let s := s.slug 4 0 s.col.lossRecs bytes us 0
      let s := s.pagesDone
      let s : State := { s with nv := { s.nv with cleanMark := true } }
      s.colMod fun c => { c with finalCommit := 2, committing := false })

/-- COL_COMMIT_TIMEOUT (R537): the commit is still running after 1 s. -/
def execColCommitTimeout (s : State) : Out State :=
  .next (
    let ws := s.col.waiting
    let s := s.colMod fun c => { c with waiting := [] }
    ws.foldl (fun s w => s.completeLate w.1 0x0A05 w.2 0x1C 0 0) s)

/-! ## Commands (R537) -/

/-- COL_QUERY (R537). -/
def execColQuery (r : Nat) (d : Desc) (s : State) : Out State :=
  .next (s.cmd r 0x0A00 d { priv := 0, buf := .writes, lenOk := (256 ≤ ·) } fun s =>
    image s 256 (s.regBytes ([0x90008, 0x9000C, 0x90010, 0x90014] ++
      (List.range 5).flatMap fun t => (List.range 6).map fun k => 0x90100 + 0x20 * t + 4 * k)))

/-- The 8-byte selectors of a definition. -/
def readSels : Nat → List Byte → List (List Byte)
  | 0, _ => []
  | n + 1, b => b.take 8 :: readSels n (b.drop 8)

/-- A definition as its bytes spell it (R521). -/
def readTrigger (b : List Byte) : Trigger :=
  { kind := rd b 0 1, en := bit (rd b 1 1) 0, a := rd b 4 4, b := rd b 8 4, delay := rd b 12 2, holdoff := rd b 14 2,
    sels := readSels (rd b 2 2) (b.drop 16) }

/-- A selector names a register and an entry of its window (R537, reason 2). -/
def selNamed (w : List Byte) : Bool :=
  let a := rd w 0 4
  if rd w 6 1 = 0 then
    match regRow a with
    | none => false
    | some row => if row.windowed then windowOk a (rd w 4 2) else decide (rd w 4 2 = 0)
  else decide (rd w 6 1 ≤ 2)

/-- A reference code is at most 10 and an entry at most 7 (R537, reason 3). -/
def selRange (w : List Byte) : Bool :=
  if rd w 6 1 = 1 then decide (rd w 0 4 ≤ 10) else if rd w 6 1 = 2 then decide (rd w 0 4 ≤ 7) else true

/-- Why a definition is refused (R536, R537). -/
def triggerBad (b : List Byte) : Option Nat :=
  let t := readTrigger b
  if 8 < t.kind ∨ 512 < rd b 2 2 ∨ b.length ≠ 16 + 8 * rd b 2 2 ∨ (t.kind = 3 ∧ t.a = 0) then some 1
  else if t.sels.any fun w => !selNamed w then some 2
  else if t.sels.any fun w => !selRange w then some 3
  else none

/-- TRIG_WRITE (R537). -/
def execTrigWrite (r : Nat) (d : Desc) (s : State) : Out State :=
  .next (s.cmd r 0x0A01 d { priv := 2, standby := true, buf := .reads, lenOk := (16 ≤ ·) } fun s =>
    let b := bufBytes d
    let i := bits d.p0 0 6
    match triggerBad b with
    | some x => refuse s x
    | none =>
      let (n, s) := s.stage1 r 9 0x0A01 i (digest8 (trigBytes (Tab.get s.col.triggers i {}))) (digest8 b) s.leadPeriod
        (.trigger i (readTrigger b)) true
      { staged s n with done := b.length })

/-- A staged definition is imposed; a capture that is pending keeps the one in force at its firing (R535). -/
def State.imposeTrigger (s : State) (i : Nat) (t : Trigger) : State :=
  s.colMod fun c => { c with triggers := Tab.put c.triggers i t }

/-- TRIG_READ (R537). -/
def execTrigRead (r : Nat) (d : Desc) (s : State) : Out State :=
  .next (s.cmd r 0x0A02 d { priv := 0, buf := .writes, lenOk := (16 ≤ ·) } fun s =>
    let b := trigBytes (Tab.get s.col.triggers (bits d.p0 0 6) {})
    if d.len < b.length then bad s 0x12 else image s b.length b)

/-- SNAP_NOW (R537). -/
def execSnapNow (r : Nat) (d : Desc) (s : State) : Out State :=
  .next (s.cmd r 0x0A03 d { priv := 1 } fun s =>
    let i := bits d.p0 0 6
    let t := Tab.get s.col.triggers i {}
    if !t.en then bad s 0x14
    else if s.snapsOver then refuse s.snapLost 4
    else if (s.col.captures.any fun c => c.trig == i) || !s.rateAllows t.kind s.time then refuse (s.fireDrop i) 4
    else
      let (seq, s) := s.capture1 { trig := i, cause := 0, injected := false, now := true, due := s.time, defn := t } []
      okR (s.logC (.host r) 2 0 0x0A03 9 i 0 0) seq)

/-- The records of a log store: sequence and bytes (R537). -/
def State.records (s : State) (store : Nat) : List (Nat × List Byte) :=
  match store with
  | 2 => s.col.log.map fun e => (e.seq, e.bytes)
  | 3 => s.col.slugs.map fun e => (e.seq, e.bytes)
  | _ => s.col.snaps

/-- As many whole records, in order, as `n` bytes hold. -/
def wholeRecs : Nat → List (Nat × List Byte) → List (List Byte)
  | _, [] => []
  | n, e :: t => if e.2.length ≤ n then e.2 :: wholeRecs (n - e.2.length) t else []

/-- COL_READ (R537). -/
def execColRead (r : Nat) (d : Desc) (s : State) : Out State :=
  .next (s.cmd r 0x0A04 d { priv := 0, buf := .writes, lenOk := (64 ≤ ·), parOk := decide (2 ≤ d.p0 ∧ d.p0 ≤ 4) } fun s =>
    let from_ := d.p1 + d.p2 * 2 ^ 32
    let out := wholeRecs d.len ((s.records d.p0).filter fun e => decide (from_ ≤ e.1))
    let b := out.flatMap fun x => x
    { image s b.length b with result := out.length })

/-- COL_COMMIT (R537). -/
def execColCommit (r : Nat) (d : Desc) (s : State) : Out State :=
  .next (s.cmd r 0x0A05 d { priv := 1 } fun s =>
    let s := s.logC (.host r) 2 0 0x0A05 9 0 0 0
    { s := s.colMod fun c => { c with committing := true, waiting := c.waiting ++ [(r, d)] }, status := none })

end Sys2Proof.Machine
end

