-- ==== Sys2Proof/Machine/Perf.lean ====
section
/-!
DEFINITION. The performance counters (R563 to R572): the cycle counters, what the hardware's own timing makes the others
count, the coherent readings of PRF_SNAPSHOT and PRF_ZERO, and a write to a counter. The counting itself
(`State.count`) is in Machine/Ops.lean, the tagging of sorts in Machine/Run.lean.
-/
namespace Sys2Proof.Machine

/-- The island of a set counts (R563): a textblock's does not while it is out of service, nor the host's while it is in reset. -/
def State.setRuns (s : State) (n : Nat) : Bool :=
  if n < 4 then bit (s.get Reg.PRS_STAT_TBSVC) n else n == 4 || !bit (s.get Reg.GLB_ISL_RST_ISL) 7

/-- The cycle counter of a set passes on by `k`; a wrap sets its sticky bit (R563, R564). -/
def State.addCycles (s : State) (n k : Nat) : State :=
  let v := s.get (Reg.PRF_CYC n) + k
  let s := s.set (Reg.PRF_CYC n) v
  if 2 ^ 64 ≤ v then s.set (Reg.PRF_OVF_CYC n) 1 else s

/-- The events of a set whose number in a period the hardware's own timing fixes (R566): stalls, bursts and lines of a
textblock, bytes over PCIe and paused cycles of the host island. Each adds a free value (log entry 47). -/
def openEvents (n : Nat) : List Nat :=
  if n < 4 then [4, 6, 7, 8, 9, 10, 11, 12, 15] else if n = 5 then [5, 6, 9] else []

/-- What an open event counts in a period: one value for each selection of runs, where KMASK restricts the event. An event that counts cycles
counts at most those of the period. -/
def State.eventCount (s : State) (n c base : Nat) : Nat :=
  let ev := s.get (Reg.PRF_SEL_EVENT n c)
  let m := if n < 4 ∧ (ev < 8 ∨ (12 ≤ ev ∧ ev < 15)) then s.get (Reg.PRF_SEL_KMASK n c) else 0
  let v := Config.freeValue (base + 16 * ev + (if m = 0 then 15 else m))
  if (if n < 4 then ev = 4 ∨ ev = 6 ∨ ev = 7 ∨ ev = 15 else ev = 9) then v % (s.periodNs + 1) else v

/-- A counter that selects an open event counts a free number. -/
def State.countOpen (s : State) (n base c : Nat) : State :=
  if s.on (Reg.PRF_SEL_EN n c) && (openEvents n).contains (s.get (Reg.PRF_SEL_EVENT n c)) then
    s.countTo n c (s.get (Reg.PRF_CNT n c) + s.eventCount n c base)
  else s

/-- The open events of a set in a period, unless its counters are frozen (R565). -/
def State.countAll (s : State) (n : Nat) : State :=
  if s.on Reg.PRF_CTL_FRZ then s
  else (List.range (setCounters n)).foldl (fun t c => t.countOpen n s.free c) { s with free := s.free + 256 }

/-- A period's cycles and open events count in every set that runs (R563, R566). -/
def State.countCycles (s : State) : State :=
  ((List.range 6).filter s.setRuns).foldl (fun s n =>
    (s.addCycles n (if n = 4 then s.get Reg.CHS_PERIOD_CYC else s.periodNs)).countAll n) s

/-- The cycles that a set counts from the boundary until it latches: none in Chase, 40 to 120 in another that runs (R567; a free value). -/
def State.latchLag (s : State) (n : Nat) : Nat :=
  if n = 4 || !s.setRuns n then 0 else 40 + Config.freeValue (s.free + n) % 81

/-- One set of the snapshot image (R567). -/
def State.setImage (s : State) (n : Nat) : List Byte :=
  le 8 (s.get (Reg.PRF_CYC n) + s.latchLag n) ++ le 4 (s.get (Reg.PRF_OVF_CNT n) + 256 * s.get (Reg.PRF_OVF_CYC n)) ++ zeros 4 ++
    (List.range 8).flatMap (fun c => le 8 (if c < setCounters n then s.get (Reg.PRF_CNT n c) else 0)) ++ zeros 16

/-- The snapshot image (R567). -/
def State.perfImage (s : State) : List Byte :=
  le 8 (s.get Reg.CHS_PNUM) ++ le 8 s.time ++ zeros 48 ++ (List.range 6).flatMap s.setImage

/-- The programmable counters of a set and their sticky bits clear (R567). -/
def State.zeroSet (s : State) (n : Nat) : State :=
  ((List.range (setCounters n)).foldl (fun s c => s.set (Reg.PRF_CNT n c) 0) s).set (Reg.PRF_OVF_CNT n) 0

/-- A waiting PRF_SNAPSHOT or PRF_ZERO is carried out at the boundary (R567); one whose ring has been disabled meanwhile
completes no more. -/
def State.latchOne (s : State) (w : Nat × Nat × Desc) : State :=
  if w.1 = 0x0C00 then
    if (s.ring w.2.1).busy then (image { s with free := s.free + 6 } 640 s.perfImage).finish w.2.1 0x0C00 w.2.2 else s
  else
    let s := ((List.range 6).filter fun n => bit w.2.2.p0 n).foldl State.zeroSet s
    if (s.ring w.2.1).busy then (ok s).finish w.2.1 0x0C01 w.2.2 else s

/-- Everything that waits for the boundary is latched or cleared, in order (R567). -/
def State.latchCounters (s : State) : State :=
  let ws := s.prf.waiting
  ws.foldl State.latchOne { s with prf := { s.prf with waiting := [] } }

/-- PRF_SNAPSHOT (R567). -/
def execPrfSnapshot (r : Nat) (d : Desc) (s : State) : Out State :=
  .next (s.cmd r 0x0C00 d { priv := 0, buf := .writes, lenOk := fun n => decide (640 ≤ n) } fun s =>
    { s := { s with prf := { s.prf with waiting := s.prf.waiting ++ [(0x0C00, r, d)] } }, status := none })

/-- PRF_ZERO (R567). -/
def execPrfZero (r : Nat) (d : Desc) (s : State) : Out State :=
  .next (s.cmd r 0x0C01 d { priv := 1, parOk := bits d.p0 0 6 != 0 } fun s =>
    let s := s.logC (.host r) 2 0 0x0C01 0xB 0 0 (bits d.p0 0 6)
    { s := { s with prf := { s.prf with waiting := s.prf.waiting ++ [(0x0C01, r, d)] } }, status := none })

/-- A write to half `hi` of counter `c` of set `n` (R565): ignored, with WIGN set, while the counter counts; a write to
CNT_LO is held, and the write to CNT_HI that follows loads both halves. Where a set lacks the counter R12 applies. -/
def State.counterWrite (s : State) (n c : Nat) (hi : Bool) (v : Nat) : State :=
  if 6 ≤ n ∨ setCounters n ≤ c then s
  else if s.on (Reg.PRF_SEL_EN n c) && !s.on Reg.PRF_CTL_FRZ then s.set Reg.PRF_STAT_WIGN 1
  else
    let k := 8 * n + c
    if hi then
      let lo := Tab.get s.prf.lo k (s.get (Reg.PRF_CNT n c) % 2 ^ 32)
      { (s.set (Reg.PRF_CNT n c) (lo + v % 65536 * 2 ^ 32)) with prf := { s.prf with lo := Tab.del s.prf.lo k } }
    else { s with prf := { s.prf with lo := Tab.put s.prf.lo k (v % 2 ^ 32) } }

/-- COUNTER_WRITE (R565). -/
def execCounterWrite (n c : Nat) (hi : Bool) (v : Nat) (s : State) : Out State := .next (s.hostWrite fun s => s.counterWrite n c hi v)

/-- Before a write to PRF_TSEED (R568): the LFSRs that no countdown has been loaded from take the seed that they had at reset. -/
def State.keepSeed (s : State) : State :=
  let seed := s.get Reg.PRF_TSEED
  let tags := (List.range 4).foldl (fun t k =>
    let x := Tab.get t k {}
    if x.lfsr = 0 then Tab.put t k { x with lfsr := if seed ^^^ k = 0 then 1 else seed ^^^ k } else t) s.prf.tags
  { s with prf := { s.prf with tags := tags } }

end Sys2Proof.Machine
end

