-- ==== Sys2Proof/Machine/Loss.lean ====
section
/-!
DEFINITION. What a failure of the Press or of a Chase lane costs, and what replaces it (R153 to R173, R237, R573 to
R582): variants selected again, the hierarchy in service, spares brought in, units lost, hierarchy changes rolled back,
DRAM rows and banks spared, wear.
-/
namespace Sys2Proof.Machine

/-! ## Variants selected again (R237) -/

/-- Quires in service by physical textblock, one byte each. -/
def State.quireCounts (s : State) : List Byte := (List.range 4).map fun t => byte (s.quiresOf t).length

/-- WCYC of variant `v` of a forme. -/
def Forme.wcycAt (f : Forme) (v : Nat) : Nat := (f.variants[v]?.map (·.wcyc)).getD 0

/-- A slot takes a variant, or none (R237): its weights are still to be loaded; FORME_VARIANT or FORME_NOVAR tells of a change. -/
def State.takeVariant (s : State) (i : Nat) (v : Option Nat) : State :=
  let x := s.slotX i
  match x.forme, v with
  | none, _ => s
  | some _, none =>
    let s := s.slotMod i fun y => { y with var := none, ready := false, loaded := false }
    if x.var.isSome then
      s.evt 2 0x0212 (le 1 i ++ le 1 (s.get Reg.PRS_STAT_SVC) ++ zeros 2 ++ s.quireCounts ++ zeros 4)
    else s
  | some f, some v =>
    let s := s.slotMod i fun y => { y with var := some v, ready := false, loaded := false }
    if x.var = some v then s
    else s.evt 2 0x0211 (le 1 i ++ le 1 (x.var.getD 0xFF) ++ le 1 v ++ le 1 (s.get Reg.PRS_STAT_SVC) ++ le 4 (f.wcycAt v) ++ zeros 4)

/-- The variant of one slot is selected again; one that breaks the budget of R230 leaves the slot NOVAR. -/
def State.reselectOne (s : State) (i : Nat) : State :=
  let x := s.slotX i
  match x.forme with
  | none => s
  | some f => s.takeVariant i ((s.select f).filter fun v => !x.en || s.budgetOk i f.kind (f.wcycAt v))

/-- The slots that keep their choice `c` under the budget of R230, of the enabled PROOF slots in the order given: the sum of their
cycles with them, from `sum`. -/
def proofFits (limit : Nat) : List (Nat × Nat) → Nat → List Nat × Nat
  | [], sum => ([], sum)
  | (i, w) :: t, sum =>
    if sum + w ≤ limit then let (xs, n) := proofFits limit t (sum + w); (i :: xs, n) else proofFits limit t sum

/-- Every slot selects again (R237). All choices are made first; the budget of R230 is then held against the ones that changed,
enabled PROOF slots in ascending order beside those that keep their variant, then the PLAN slot. -/
def State.reselect (s : State) : State :=
  let picks := s.prs.slots.filterMap fun e => e.2.forme.map fun f => (e.1, e.2, f, s.select f)
  let proofs := picks.filter fun p => p.2.1.en && p.2.2.1.kind == 0
  let w := fun (p : Nat × Slot × Forme × Option Nat) => (p.2.2.2.map p.2.2.1.wcycAt).getD 0
  let same := proofs.filter fun p => p.2.2.2.isSome && p.2.2.2 == p.2.1.var
  let new := proofs.filter fun p => p.2.2.2.isSome && p.2.2.2 != p.2.1.var
  let (fits, sum) := proofFits s.pbudget (new.map fun p => (p.1, w p)) ((same.map w).foldl (· + ·) 0)
  picks.foldl (fun s p =>
    let keep := !p.2.1.en || p.2.2.2 == p.2.1.var || (match p.2.2.1.kind with
      | 0 => fits.contains p.1
      | 1 => decide (w p ≤ s.planDiv * (19000 - sum))
      | _ => true)
    s.takeVariant p.1 (if keep then p.2.2.2 else none)) s

/-- The selected variant of a slot is in its leaves from now on (R237). DESIGN CHOICE (unsafe): a run of the slot that had begun starts
again from its first sort with the variant now loaded; the manual says only that the slot runs nothing in the meantime (log entry 93). -/
def State.variantReady (s : State) (i : Nat) : State :=
  match (s.slotX i).variant with
  | none => s
  | some v =>
    let s := (s.loadLeaves i).slotMod i fun y => { y with ready := true, loaded := false }
    s.prsMod fun p => { p with runs := p.runs.map fun r =>
      if r.slot = i ∧ r.inst = (s.slotX i).inst then { r with v := v, tbs := List.replicate 4 {}, emits := [] } else r }

/-! ## The hierarchy in service -/

/-- A number with bit `k` set or cleared. -/
def setBit (v k : Nat) (b : Bool) : Nat := v - b2n (bit v k) * 2 ^ k + b2n b * 2 ^ k

/-- No scrub runs on a stack that is in self-refresh, or whose textblock is lost (R164, R174). -/
def State.scrubStop (s : State) : State :=
  let off := (List.range 4).filter fun t => s.get (Reg.PRS_TB_STAT_STATE t) == 0 || s.get (Reg.PRS_TB_STAT_STATE t) == 3
  off.foldl (fun s t => s.set (Reg.PRS_TB_STAT_SCRUB t) 0) (s.prsMod fun p => { p with fastScrub := p.fastScrub.filter fun t => !off.contains t })

/-- The textblocks `ts` are in service under the configured hierarchy `cfg` (R161 to R163). -/
def State.putService (s : State) (cfg : Nat) (ts : List Nat) : State :=
  let s := (List.range 4).foldl (fun s t =>
    let good := s.quiresGood t
    let qs := if !ts.contains t then [] else if cfg = 1 then good.take 1 else good
    let s := s.set (Reg.PRS_TB_QMAP_SVC t) (qs.foldl (fun a q => a + 2 ^ q) 0)
    if s.get (Reg.PRS_TB_STAT_STATE t) = 3 then s
    else s.set (Reg.PRS_TB_STAT_STATE t) (if ts.contains t then 2 else 0)) s
  ((s.set Reg.PRS_STAT_TBSVC (ts.foldl (fun a t => a + 2 ^ t) 0)).set Reg.PRS_STAT_SVC (svcCode cfg ts.length)).scrubStop

/-- A change of the hierarchy in service empties both halves of the training sets; training waits in FILL (R276). DESIGN CHOICE (unsafe):
a step in progress or to be rerun ends with them, its capture being gone; the next step takes its number (R278, log entry 93). -/
def State.emptyHalves (s : State) : State :=
  let s := { s with trn := { s.trn with
    halves := [[], []], filling := 0, closed := false, due := [], rerun := false, stepDone := false, endHeld := false } }
  let s := s.prsMod fun p => { p with runs := p.runs.filter fun r => !(r.kind == 2 && s.trn.plan[1]? == some r.slot) }
  let s := s.set Reg.PRS_TRN_STAT_NCAP 0
  if s.get Reg.PRS_TRN_STAT_STATE = 2 ∨ s.get Reg.PRS_TRN_STAT_STATE = 4 then s.set Reg.PRS_TRN_STAT_STATE 1 else s

/-- The service has changed from code `old`: SVC_CHANGED (R178), streams and capacity (R141, R142), variants (R237), and
the Press detector 12.4 while nothing is in service for want of units. `lost`: windows of moved streams are built anew; `all`: every
stream is assigned again, after a growth. DESIGN CHOICE (unsafe): 'textblocks in service' in SVC_CHANGED is their count (log entry 93). -/
def State.serviceChanged (s : State) (old : Nat) (lost : Bool) (all : Bool := false) : State :=
  let new := s.get Reg.PRS_STAT_SVC
  let s := s.evt 2 0x0202 (le 1 old ++ le 1 new ++ le 1 s.tbs.length ++ le 1 0 ++ s.quiresLost ++ zeros 4)
  let s := if old = new then s else s.emptyHalves
  let s := if s.tbs.isEmpty then s else (s.reassignAll all lost).recap
  s.reselect.blindTick false

/-- Detector 12.4: no quire survives anywhere (R70, R170). -/
def State.pressOut (s : State) : State :=
  s.level (detN 12 4) 0 0 (s.tbsGood.all fun t => (s.quiresGood t).isEmpty)

/-! ## Hierarchy changes (R166 to R169) -/

/-- Textblocks of a configured hierarchy: the lowest-numbered that are not lost (R162). -/
def State.wanted (s : State) (cfg : Nat) : List Nat := s.tbsGood.take (svcTbs cfg)

/-- Microseconds since a hierarchy change began. -/
def State.hierUs (s : State) (h : HierChg) : Nat := (s.time - h.at_) / 1000

/-- A REPAIR ends (R579, R583): its completion, and REPAIR_DONE. Outcomes 0 passed, 2 failed, 4 abandoned. -/
def State.repairEnd (s : State) (out us : Nat) : State :=
  match s.spr.repair with
  | none => s
  | some p =>
    let s := { s with spr := { s.spr with repair := none } }
    let s := (s.set Reg.SPR_RSTAT_OUT out).evt 0xC 0x0D03
      (le 1 p.kind ++ le 1 out ++ le 1 (s.unit p.kind p.unit).fails ++ le 1 0 ++ le 4 p.unit ++ le 4 us)
    s.completeLate p.ring 0x0D01 p.desc (if out = 0 then 0 else 0x1E) 0 out

/-- A textblock begins to come into service without a command: 1 in place of a lost one (R165), 2 after a repair (R579). -/
def State.hierSelf (s : State) (why : Nat) (ts : List Nat) : State :=
  let cfg := s.get Reg.GLB_HIER_CFG
  let st : Staged := { no := 0, block := 2, opcode := 0x0200, target := 0, old := cfg, new := cfg, ring := 0x10000,
                       due := s.get Reg.CHS_PNUM, act := .own }
  let h : HierChg := { st := st, old := cfg, new := cfg, begun := true, at_ := s.time, why := why, tbs := ts, prevTbs := s.tbs }
  let s := s.prsMod fun p => { p with hier := some h }
  let s := ts.foldl (fun s t => s.set (Reg.PRS_TB_STAT_STATE t) 1) s
  ((s.set Reg.PRS_STAT_QUIESCED 1).set Reg.PRS_STAT_CHG 1).blindTick false

/-- With nothing in service, textblocks that are not lost come in (R165): in T and Q the one after `u`, else the lowest. DEDUCED: in V2,
whose row of R170 leaves a survivor, the spares of R165 come in as well once both textblocks are lost (log entry 20). -/
def State.replaceIdle (s : State) (u : Nat) : State :=
  let cfg := s.get Reg.GLB_HIER_CFG
  if cfg ≤ 3 ∧ s.tbs.isEmpty ∧ s.prs.hier.isNone ∧ s.prs.quireRepl.isNone then
    if cfg = 3 then (if s.tbsGood.isEmpty then s else s.hierSelf 1 (s.tbsGood.take 2))
    else
      match (s.tbsGood.filter (u < ·) ++ s.tbsGood).head? with
      | some t => s.hierSelf 1 [t]
      | none => s
  else s

/-- The same from PRESS on (R61): before it make-ready brings the textblocks in. -/
def State.replaceLater (s : State) (u : Nat) : State := if s.on Reg.GLB_BOOTSTAT_PRESS then s.replaceIdle u else s

/-- The service before a change that removed textblocks, with the streams where they were (R169). -/
def State.serviceBack (s : State) (h : HierChg) : State :=
  if h.old = h.new ∨ s.get Reg.GLB_HIER_CFG ≠ h.new then s
  else
    let old := s.get Reg.PRS_STAT_SVC
    let s := (s.setNv Reg.GLB_HIER_CFG h.old).set Reg.PRS_STAT_CFG h.old
    let s := s.putService h.old (h.prevTbs.filter s.tbsGood.contains)
    let s := h.prevStreams.foldl (fun s e => match s.stream e.1 with
      | some x => if s.tbs.contains e.2 then s.putStream e.1 { x with tb := e.2 } else s
      | none => s) s
    s.serviceChanged old false

/-- A hierarchy change is rolled back (R169): reason 1 step failed, 2 unit lost, 3 250 ms passed. The previous hierarchy and the
assignment of the streams return. A replacement in T or Q whose step failed is followed by the next (R165). DESIGN CHOICE (safe): the blind
duration in HIER_ROLLBACK runs from the imposition to the rollback, though blind ends with the first proof after it (R178, log entry 94). -/
def State.hierRollback (s : State) (reason : Nat) : State :=
  match s.prs.hier with
  | none => s
  | some h =>
    let s := (s.prsMod fun p => { p with hier := none }).serviceBack h
    let s := h.tbs.foldl (fun s t =>
      if s.get (Reg.PRS_TB_STAT_STATE t) = 1 then s.set (Reg.PRS_TB_STAT_STATE t) (if h.why = 2 then 3 else 0) else s) s
    let s := (((s.set Reg.PRS_STAT_QUIESCED 0).set Reg.PRS_STAT_CHG 0).set Reg.GLB_HIER_TARGET 0).scrubStop
    let s := (s.evt 2 0x0201 (le 4 h.st.no ++ le 1 h.step ++ le 1 reason ++ zeros 2 ++ le 4 (s.hierUs h))).raise (detN 12 8) 0 h.step
    if h.why = 0 then
      let s := s.changeDone h.st 1 0 0x14
      if reason = 2 then s else s.replaceLater 3
    else if h.why = 2 then s.repairEnd 2 (s.hierUs h)
    else if reason = 2 then s
    else s.replaceIdle ((h.tbs.head?).getD 3)

/-! ## Units lost (R170) -/

/-- A unit of the Press in textblock `t` is lost: a hierarchy change that has begun is rolled back (R169), as is a promotion (R286), the
repair of a quire or textblock fails (R581), and the textblock's result of the press cycle in progress is discarded. -/
def State.pressHit (s : State) (t : Nat) : State :=
  let s : State := { s with trn := { s.trn with promo := s.trn.promo.map fun p => { p with hit := true } } }
  let s := match s.prs.hier with
    | some h => if h.begun then s.hierRollback 2 else s
    | none => s
  let s := match s.spr.repair with
    | some p => if p.kind = 3 ∨ p.kind = 4 then { s with spr := { s.spr with repair := some { p with broken := true } } } else s
    | none => s
  s.discardTb t

/-- Textblock `t` is lost (R170): V4 goes to V3, V3 to V2, V2 to T; in T and Q the next one that is not lost replaces it
(R165). -/
def State.tbFail (s : State) (t : Nat) (inj note : Bool) : State :=
  if s.get (Reg.PRS_TB_STAT_STATE t) = 3 then s
  else
    let served := bit (s.get Reg.PRS_STAT_TBSVC) t
    -- it was to come into service itself, as the replacement of another or with a replacement quire
    let coming := s.prs.quireRepl.any (fun p => p.1 == t) || s.prs.hier.any fun h => h.why == 1 && h.tbs.contains t
    let s := s.pressHit t
    let s := s.unitOut 4 t 1 inj
    let s := (s.set (Reg.PRS_TB_STAT_STATE t) 3).set (Reg.PRS_TB_QMAP_SVC t) 0
    let s := s.prsMod fun p => { p with quireRepl := p.quireRepl.filter fun q => q.1 != t }
    let s := if note then s.raise (detN (8 + t) 3) 0 t inj else s
    if served then
      let old := s.get Reg.PRS_STAT_SVC
      let cfg := s.get Reg.GLB_HIER_CFG
      let rest := (List.range 4).filter fun u => u != t && bit (s.get Reg.PRS_STAT_TBSVC) u
      let s := (s.putService cfg rest).pressOut
      (s.serviceChanged old true).replaceIdle t
    else if coming then s.pressOut.replaceIdle t
    else s.pressOut.replaceLater t

/-- Quire `q` of textblock `t` is lost (R170): its textblock runs with fewer; in Q the next quire replaces it (R165). -/
def State.quireFail (s : State) (t q : Nat) (inj note : Bool) : State :=
  if bit (s.get (Reg.PRS_TB_QMAP_LOST t)) q then s
  else
    let served := bit (s.get (Reg.PRS_TB_QMAP_SVC t)) q
    let u := leafUnit t q 0 0
    let s := s.pressHit t
    let s := s.unitOut 3 u 1 inj
    let s := s.set (Reg.PRS_TB_QMAP_LOST t) (setBit (s.get (Reg.PRS_TB_QMAP_LOST t)) q true)
    let s := if note then s.raise (detN (8 + t) 2) 0 u inj else s
    if (s.quiresGood t).isEmpty then s.tbFail t inj true
    else if s.prs.quireRepl = some (t, q) then
      s.prsMod fun p => { p with quireRepl := some (t, ((s.quiresGood t).head?).getD 0) }
    else if !served then s
    else
      let old := s.get Reg.PRS_STAT_SVC
      if s.get Reg.GLB_HIER_CFG = 1 then
        let s := (s.putService 1 []).prsMod fun p => { p with quireRepl := some (t, ((s.quiresGood t).head?).getD 0) }
        let s := s.set (Reg.PRS_TB_STAT_STATE t) 1
        s.serviceChanged old true
      else (s.putService (s.get Reg.GLB_HIER_CFG) s.tbs).serviceChanged old false

/-- The unit under a leaf, folio or lane test is the only candidate for a spare that `p` asks for: its test is abandoned
(R581). -/
def State.onlyCandidate (s : State) (p : Repair → Bool) : State :=
  match s.spr.repair with
  | some r => if p r then { s with spr := { s.spr with repair := some { r with abandoned := true } } } else s
  | none => s

/-- The logical index of a leaf (kind 1) or folio (2): that of the unit it has replaced, else its own (R156). -/
def State.unitIdx (s : State) (kind u : Nat) : Nat := (s.unit kind u).idx.getD (if kind = 1 then unitL u else unitF u)

/-- The weights of a leaf (kind 1) or of the leaves of a folio (2) are loaded again from the model region (R153, R170): what LOAD has
written over a variant's weights there is gone. -/
def State.reloadUnit (s : State) (kind u : Nat) : State :=
  let f := s.unitIdx 2 (leafUnit (unitT u) (unitQ u) (unitF u) 0)
  let lo := leafAddr (unitT u) (unitQ u) f (if kind = 1 then s.unitIdx 1 u else 0) 0
  let n := if kind = 1 then 2 ^ 18 else 2 ^ 22
  let gone := fun a => decide (lo ≤ a ∧ a < lo + n) && s.prs.wloads.any fun w => (w.logical a).isSome
  s.prsMod fun p => { p with wmem := Tab.drop p.wmem gone, wcrc := Tab.drop p.wcrc gone }

/-- A spare leaf or folio `w` takes the logical index of unit `u` (R156, R170): it leaves its pool now, and is brought in, with its weights
loaded, at the next press-cycle boundary. -/
def State.spareAssign (s : State) (kind u w : Nat) : State :=
  let i := s.unitIdx kind u
  let s := s.unitMod kind w fun x => { x with st := 0, idx := some i }
  (s.prsMod fun p => { p with spareIn := p.spareIn ++ [(kind, u, w)] }).reserveCheck (kind - 1)

/-- The spares that wait are brought in, at a press-cycle boundary (R170). -/
def State.sparesEnter (s : State) : State :=
  let xs := s.prs.spareIn
  xs.foldl (fun s e => (s.reloadUnit e.1 e.2.2).unitSpared (e.1 - 1) 1 e.2.1 e.2.2) (s.prsMod fun p => { p with spareIn := [] })

/-- Folio `f` fails (R170): the quire's spare folio takes its index, or the quire is lost. -/
def State.folioFail (s : State) (u : Nat) (inj note : Bool) : State :=
  let t := unitT u
  let q := unitQ u
  let v := leafUnit t q (unitF u) 0
  let was := (s.unit 2 v).st
  if 2 ≤ was then s
  else
    let s := s.unitOut 2 v 1 inj
    if was = 1 then s.reserveCheck 1
    else
      match s.poolFolio t q with
      | some w =>
        let s := (s.pressHit t).spareAssign 2 v w
        if note then s.raise (detN (8 + t) 1) 0 v inj else s
      | none =>
        (s.onlyCandidate fun r => r.kind == 2 && unitT r.unit == t && unitQ r.unit == q).quireFail t q inj true

/-- Leaf `u` fails (R156, R170): its folio's spare leaf takes its index, then the quire's spare folio. -/
def State.leafFail (s : State) (u : Nat) (inj : Bool) : State :=
  let t := unitT u
  let q := unitQ u
  let f := unitF u
  let was := (s.unit 1 u).st
  if 2 ≤ was then s
  else
    let s := s.unitOut 1 u 1 inj
    if was = 1 then s.reserveCheck 0
    else
      match s.poolLeaf t q f with
      | some w => (s.pressHit t).spareAssign 1 u w
      | none =>
        (s.onlyCandidate fun r => r.kind == 1 && unitT r.unit == t && unitQ r.unit == q && unitF r.unit == f).folioFail u inj true

/-- Chase lane `u` fails (R300): a spare lane enters, or the law runs on fewer lanes (R575). -/
def State.laneFail (s : State) (u : Nat) (inj : Bool) : State :=
  let was := (s.unit 5 u).st
  if 2 ≤ was then s
  else
    let s := s.unitOut 5 u 1 inj
    if was = 1 then s.reserveCheck 3
    else
      match s.poolLane with
      | some w => ((s.unitMod 5 w fun x => { x with st := 0 }).unitSpared 3 1 u w).reserveCheck 3
      | none => s.onlyCandidate fun r => r.kind == 5

/-! ## Wear (R577, R578) -/

/-- One happening of wear on a unit: those of the last `win` ns count, and at `thr` of them (0: never) the unit is worn.
`k` is the pool's kind of R573; kinds of the map are those of REPAIR, 6 a link. -/
def State.wearHit (s : State) (kind k u win thr : Nat) : State :=
  let x := s.unit kind u
  let xs := (s.time :: x.wear).filter fun t => decide (s.time < t + win)
  let worn := thr != 0 && decide (thr ≤ xs.length)
  let s := s.unitMod kind u fun y =>
    { y with wear := xs, worn := y.worn || worn,
             retire := if worn && !y.worn && s.on Reg.SPR_CTL_PREEMPT && y.retire == 0 then 2 else y.retire }
  if worn && !x.worn then s.evt 0xC 0x0D01 (le 1 k ++ zeros 3 ++ le 4 u ++ le 4 xs.length) else s

/-- A leaf, folio or lane that is to be retired leaves service at its point when a spare is free (R578). Nothing is lost. -/
def State.retireUnit (s : State) (kind u : Nat) : State :=
  let x := s.unit kind u
  let spare := match kind with
    | 1 => s.poolLeaf (unitT u) (unitQ u) (unitF u)
    | 2 => s.poolFolio (unitT u) (unitQ u)
    | _ => s.poolLane
  let k := match kind with | 1 => 0 | 2 => 1 | _ => 3
  match spare with
  | some w =>
    if x.retire = 0 ∨ x.st ≠ 0 then s
    else
      let i := s.unitIdx kind u
      let s := (s.unitOut kind u x.retire false).unitMod kind w fun y => { y with st := 0, idx := if kind ≤ 2 then some i else none }
      let s := if kind ≤ 2 then s.reloadUnit kind w else s
      (s.unitSpared k x.retire u w).reserveCheck k
  | none => s

/-! ## DRAM rows and banks (R172, R173) -/

/-- The key of a bank, and of a row, of a stack. -/
def bankKey (t bank : Nat) : Nat := t * 2 ^ 40 + bank

/-- A bank is spared: its copy starts, or the textblock is lost when no spare bank remains (R172). -/
def State.bankSpare (s : State) (t bank off : Nat) : State :=
  let n := s.get (Reg.PRS_TB_SPARE_BANK t)
  if s.prs.bankCopy.contains (t, bank) then s
  else if n = 0 then (s.raise (detN (8 + t) 8) 0 bank).tbFail t false true
  else
    let s := s.set (Reg.PRS_TB_SPARE_BANK t) (n - 1)
    let s := s.prsMod fun p => { p with bankCopy := p.bankCopy ++ [(t, bank)] }
    (s.evt 2 0x0204 (le 1 t ++ le 1 2 ++ le 2 (n - 1) ++ le 8 off)).reserveCheck 2

/-- A bank is spared when 48 of its spare rows are in use, or when none is left beside those that scrub has retired (R172). -/
def State.bankDue (s : State) (t bank off : Nat) : State :=
  let used := Tab.get s.prs.bankRows (bankKey t bank) 0
  if 48 ≤ used ∨ 64 ≤ used + Tab.get s.prs.bankBad (bankKey t bank) 0 then s.bankSpare t bank off else s

/-- A row is spared into a spare row of its bank (R172), or with none left the bank. -/
def State.rowSpare (s : State) (t bank off : Nat) : State :=
  let used := Tab.get s.prs.bankRows (bankKey t bank) 0
  if 64 ≤ used + Tab.get s.prs.bankBad (bankKey t bank) 0 then s.bankSpare t bank off
  else
    let s := s.prsMod fun p => { p with bankRows := Tab.put p.bankRows (bankKey t bank) (used + 1) }
    let s := s.bump (Reg.PRS_TB_SPARE_ROWSP t)
    let s := s.evt 2 0x0204 (le 1 t ++ le 1 1 ++ le 2 (s.get (Reg.PRS_TB_SPARE_BANK t)) ++ le 8 off)
    s.bankDue t bank off

/-! ## Degrade orders on units of the Press and on lanes (R474) -/

/-- What a degrade order on a Press detector or a lane isolates; `unit` is the parameter of the raise. -/
def State.pressOrder (s : State) (n unit : Nat) (inj : Bool) : State :=
  let f := n / 16
  let i := n % 16
  if 8 ≤ f ∧ f ≤ 11 then
    match i with
    | 0 => s.leafFail unit inj
    | 1 => s.folioFail unit inj false
    | 2 => s.quireFail (f - 8) (unitQ unit) inj false
    | 3 => s.tbFail (f - 8) inj false
    | 4 =>
      -- the unit that a barrier of the level waited for in three press cycles (R159)
      match s.prs.barLevel with
      | 1 => s.leafFail unit inj
      | 2 => s.folioFail unit inj true
      | _ => s.quireFail (f - 8) (unitQ unit) inj true
    | _ => s
  else if n < detN 12 4 ∧ detN 12 0 ≤ n then s.tbFail (n - detN 12 0) inj true
  else if n = detN 12 5 ∧ unit < 4 then s.tbFail unit inj true
  else if n = detN 13 1 then s.laneFail unit inj
  else if f = 4 ∧ i < 4 then s.tbFail i inj true
  else s

/-- A detector whose orders go to the Press or the lanes. -/
def pressDet (n : Nat) : Bool := decide (8 ≤ n / 16 ∧ n / 16 ≤ 12) || n == detN 13 1 || decide (n / 16 = 4 ∧ n % 16 < 4)

/-- The degrade orders on the Press and the lanes are carried out, in the order of R476. -/
def State.settlePress (s : State) : State :=
  let os := sortBy (fun a b => decide (a.1 ≤ b.1)) (s.era.orders.filter fun o => pressDet o.1)
  let s := { s with era := { s.era with orders := s.era.orders.filter fun o => !pressDet o.1 } }
  let s := os.foldl (fun s o => s.pressOrder o.1 o.2.1 o.2.2) s
  -- a replacement that such a loss has rolled back is begun again (R165)
  let s := if !os.isEmpty then s.replaceLater 3 else s
  -- what those actions raised names units that are isolated already
  { s with era := { s.era with orders := s.era.orders.filter fun o => !pressDet o.1 } }

end Sys2Proof.Machine
end

