-- ==== Sys2Proof/Machine/Stage.lean ====
section
/-!
DEFINITION. The stage links and the power-stage phases (R332 to R361, R606, R609): frames out and in, links up and down,
phase states, arming, shedding and burst, over-current, failures and spares.
-/
namespace Sys2Proof.Machine

/-! ## Access -/

/-- Changes what Chase holds beside its registers. -/
def State.chsMod (s : State) (f : Chs → Chs) : State := { s with chs := f s.chs }

/-- Changes a phase. -/
def State.phaseMod (s : State) (q : Nat) (f : Phase → Phase) : State :=
  s.chsMod fun c => { c with phases := Tab.put c.phases q (f (s.phase q)) }

/-- A stage link beside its registers. -/
def State.link (s : State) (l : Nat) : Link := Tab.get s.chs.links l {}

/-- Changes a link. -/
def State.linkMod (s : State) (l : Nat) (f : Link → Link) : State :=
  s.chsMod fun c => { c with links := Tab.put c.links l (f (s.link l)) }

/-- A control loop beside its banks. -/
def State.loop (s : State) (n : Nat) : LoopC := Tab.get s.chs.loops n {}

/-- Changes a loop. -/
def State.loopMod (s : State) (n : Nat) (f : LoopC → LoopC) : State :=
  s.chsMod fun c => { c with loops := Tab.put c.loops n (f (s.loop n)) }

/-- Bits [31:0] of the period number, as events carry it. -/
def State.pnum32 (s : State) : List Byte := le 4 (s.get Reg.CHS_PNUM)

/-- The role of a phase (R333): 0 ACTIVE, 1 SPARE, 2 FAILED. -/
def State.role (s : State) (q : Nat) : Nat := s.get (Reg.STL_PSTAT_ROLE q)

/-- Only a module that holds the seat token and is not halted acts on phases (R609). -/
def State.holder (s : State) : Bool := s.token && !s.halted

/-- The link that carries board `l`: its own, or the spare link while it stands in (R345). -/
def State.carrier (s : State) (l : Nat) : Option Nat :=
  if s.linkUp l then some l
  else if s.on Reg.STL_STAT_SPAREV && s.get Reg.STL_STAT_SPARED == l && s.linkUp 39 then some 39
  else none

/-- The board of a link's frames: link 39 carries the board that it stands in for, or that SELECT has named (R345). -/
def State.boardOf (s : State) (l : Nat) : Nat := if l = 39 then s.chs.selTo.getD (s.get Reg.STL_STAT_SPARED) else l

/-- Link 39 is in use: it stands in for a link, or trains to do so (R345). -/
def State.spareUsed (s : State) : Bool := s.on Reg.STL_STAT_SPAREV || s.chs.selTo.isSome

/-! ## Loops open and close (R308, R309) -/

/-- The loops that the plain law keeps open: groups and energy (R317). -/
def plainOpen : List Nat := [156, 157, 158, 159, 160, 162, 163, 164, 165]

/-- A loop opens: its output and integrator stay as they are. -/
def State.loopOpen (s : State) (n : Nat) : State :=
  if (s.loop n).isOpen then s else s.loopMod n fun x => { x with isOpen := true, openFor := 0, reclose := none }

/-- A loop recloses with u_f (R309). -/
def State.loopClose (s : State) (n : Nat) (uf : Int) : State :=
  s.loopMod n fun x => { x with isOpen := false, openFor := 0, reclose := some uf }

/-- A loop goes out of service: open, with output 0 (R302). -/
def State.loopOut (s : State) (n : Nat) : State :=
  s.loopMod n fun x => { x with isOpen := true, u := 0, openFor := 0, reclose := none, hold := false, fecnt := 0 }

/-! ## Frames out (R336 to R340, R343) -/

/-- The FLAGS byte of SYNC and DUTY (R337). -/
def State.syncFlags (s : State) (safe : Bool) : Nat :=
  let per := s.get Reg.CHS_PERIOD_CYC
  b2n (s.token && !safe) + 2 * b2n safe + 4 * s.get Reg.GLB_SEAT_SEAT +
    8 * (if per = 500 then 1 else if per = 1000 then 2 else 3) +
    32 * b2n (s.time % 5000 == 0) + 64 * b2n (s.time % 10000 == 0)

/-- Bytes 0 to 7 of SYNC and DUTY (R337). -/
def State.syncHead (s : State) (typ l : Nat) (safe : Bool) : List Byte :=
  le 1 typ ++ le 1 l ++ le 1 (s.syncFlags safe) ++ le 1 0 ++ le 2 s.chs.epoch ++ le 2 (s.get Reg.CHS_PNUM)

/-- A frame with its CRC-32 (R334). -/
def withCrc (b : List Byte) : List Byte := b ++ le 4 (crc32 b)

/-- The links on which frames are sent: those of the settings map, and the spare link while it stands in (R606, R345). -/
def State.liveLinks (s : State) : List Nat :=
  (List.range 39).filter s.linkMapped ++ (if s.spareUsed then [39] else [])

/-- SYNC on every link (R336). -/
def State.syncOut (s : State) (safe : Bool) : State :=
  if s.glb.stlIdle then s
  else s.liveLinks.foldl (fun s l => s.emit (.sync l (withCrc (s.syncHead 1 l safe)))) s

/-- Duty and mode of a slot of a DUTY frame. With SAFE every phase is sent WARM (R342). -/
def State.slotDuty (s : State) (safe : Bool) (q : Nat) : Nat × Nat :=
  if safe then (0, 1) else ((s.phase q).duty, (s.phase q).sent)

/-- Bytes 8 to 19 of a DUTY frame (R338). -/
def State.dutyBody (s : State) (safe : Bool) (l : Nat) : List Byte :=
  let xs := (List.range 4).map fun j => s.slotDuty safe (4 * s.boardOf l + j)
  (xs.flatMap fun x => le 2 x.1) ++ xs.flatMap fun x => le 1 x.2

/-- DUTY on every link (R336). -/
def State.dutyOut (s : State) (safe : Bool) : State :=
  if s.glb.stlIdle then s
  else s.liveLinks.foldl (fun s l => (s.emit (.duty l (withCrc (s.syncHead 2 l safe ++ s.dutyBody safe l)))).count 4 6 1) s

/-- The first SAFE frames of a halt leave at once (R343). -/
def State.safeFirst (s : State) : State :=
  if s.glb.safeLeft = 10 then
    let s := (s.syncOut true).dutyOut true
    { s with glb := { s.glb with safeLeft := 9 } }
  else s

/-- The value of a configuration address for a link (R340). -/
def State.cfgValue (s : State) (l addr : Nat) : Nat :=
  match addr with
  | 1 => if s.boardOf l < 13 then s.get Reg.STL_SC_GRID else s.get Reg.STL_SC_STOR
  | 2 => s.get Reg.STL_BURST_BURSTI
  | _ => min 8 (max 2 (s.get Reg.STL_CTL_WDOG))

/-- A CFG frame (R334, R336, R340): 12 bytes. -/
def cfgFrame (l addr v : Nat) : List Byte := withCrc (le 1 3 ++ le 1 l ++ le 1 addr ++ zeros 1 ++ le 4 v)

/-- A SELECT frame (R334, R336, R345): 8 bytes. -/
def selectFrame (l : Nat) : List Byte := withCrc (le 1 4 ++ le 1 l ++ zeros 2)

/-- Configuration sends, at most one a link in a period, by the token holder only (R336, R340). -/
def State.cfgOut (s : State) : State :=
  if !s.holder || s.standby then s
  else
    s.liveLinks.foldl (fun s l =>
      let x := s.link l
      match x.cfg with
      | a :: _ =>
        if s.linkUp l && !x.sent then
          (s.emit (.stlCfg l (cfgFrame l a (s.cfgValue l a)))).linkMod l fun x => { x with sent := true, tries := x.tries + 1 }
        else s
      | [] => s) s

/-- The addresses `as` are to be sent to every board (R340); one whose send is under way is sent once more, with its new value. -/
def State.cfgAll (s : State) (as : List Nat) : State :=
  s.liveLinks.foldl (fun s l => s.linkMod l fun x =>
    { x with cfg := x.cfg ++ as.filter fun a => !(if x.sent then x.cfg.drop 1 else x.cfg).contains a }) s

/-- A board has shown each of its three addresses (R340). -/
def State.cfgShown (s : State) (l : Nat) : Bool :=
  match s.carrier l with
  | some c => [1, 2, 3].all fun a => (s.link c).shown.contains a
  | none => false

/-- A phase may be armed as far as its board's configuration goes (R340). -/
def State.cfgReady (s : State) (q : Nat) : Bool := !s.chs.cfgGate || s.cfgShown (q / 4)

/-- The device sheds or arms nothing in a group that is held WARM (R354). -/
def State.groupHeld (s : State) (g : Nat) : Bool := s.chs.heldGrp.contains g

/-! ## Phases change state (R346) -/

/-- A phase enters a state. -/
def State.phaseTo (s : State) (q st factor : Nat) : State :=
  let s := (s.set (Reg.STL_PSTAT_STATE q) st).set (Reg.STL_PSTAT_FACTOR q) factor
  s.phaseMod q fun p => { p with since := s.time }

/-- A phase goes to a state out of service: its loop with it. -/
def State.phaseOut (s : State) (q st : Nat) : State :=
  ((s.phaseTo q st 0).loopOut q).phaseMod q fun p => { p with nOpen := 0, nSense := 0, leaving := false }

/-- A phase comes into RUN at 8/8 and its loop closes with u_f (R309, R348). -/
def State.phaseRun (s : State) (q : Nat) (uf : Int) : State := (s.phaseTo q 4 8).loopClose q uf

/-- A phase is sent WARM and wakes (R351). -/
def State.wake (s : State) (q : Nat) : State := s.phaseTo q 1 0

/-- A phase has been removed for its link (R344, R606): role FAILED with cause 5. -/
def State.linkGone (s : State) (q : Nat) : Bool := s.role q == 2 && s.get (Reg.STL_PSTAT_CAUSE q) == 5

/-- The role of a phase changes; it is held in the settings store (R333). -/
def State.setRole (s : State) (q r : Nat) : State := s.setNv (Reg.STL_PSTAT_ROLE q) r

/-- Run time of a phase in whole ms (R348). -/
def State.runMs (s : State) (q : Nat) : Nat := s.get (Reg.STL_PRUN q)

/-- The element of a list least by a key, the first among equals. -/
def leastBy {α : Type} (key : α → Nat) : List α → Option α
  | [] => none
  | a :: t =>
    match leastBy key t with
    | none => some a
    | some b => if key b < key a then some b else some a

/-- The spare of a group with the least run time, the lower number among equals (R358). -/
def State.pickSpare (s : State) (g : Nat) : Option Nat :=
  leastBy s.runMs ((groupPhases g).filter fun q =>
    s.role q == 1 && s.pst q == 0 && (s.phase q).job == 0 && (s.carrier (q / 4)).isSome)

/-- A spare is brought in for phase `p` that failed at `t` (R358); with none left detector 15.8 is raised. Answers it. -/
def State.bringSpare (s : State) (p t : Nat) : Option Nat × State :=
  match s.pickSpare (phaseGroup p) with
  | none => (none, s.raise (detN 15 8) 0 (phaseGroup p))
  | some q =>
    (some q, (s.wake q).phaseMod q fun x =>
      { x with job := 1, jobN := 0, jobSum := 0, jobBad := false, jobFor := p, jobAt := t })

/-- The kind of a phase's pool (R573). -/
def phaseKind (q : Nat) : Nat := 5 + phaseGroup q

/-- PHASE_FAILED (R360). -/
def State.phaseFailed (s : State) (q cause : Nat) (spare : Option Nat) : State :=
  s.evt 4 0x0600 (le 1 q ++ le 1 cause ++ le 1 (spare.getD 0xFF) ++ le 1 0 ++ s.pnum32 ++
    le 4 (ofS 32 ((s.phase q).cur.getD (s.phase q).raw)))

/-- A phase goes FAILED (R354 to R358) and is replaced. A spare in use that fails makes way for the next one. A failure for
its link is not counted against it (R344). -/
def State.phaseFail (s : State) (q cause : Nat) (inj : Bool) : State :=
  if s.pst q = 8 then s
  else
    let x := s.phase q
    -- a phase under estimate has its spare already; one that waited in the pool is not replaced
    let idle := x.estAt.isSome || !s.holder || (s.role q == 1 && x.job == 0)
    let s := (s.phaseOut q 8).setRole q 2
    let s := s.setNv (Reg.STL_PSTAT_CAUSE q) cause
    let s := if cause = 5 then s else s.unitOut 7 q 1 inj
    let s := s.phaseMod q fun p => { p with job := 0, estAt := none }
    -- a spare that failed leaves its place to the next
    let (sp, s) := if idle then (none, s) else if x.job ≠ 0 then s.bringSpare x.jobFor x.jobAt else s.bringSpare q s.time
    (s.phaseFailed q cause sp).reserveCheck (phaseKind q)

/-- A phase removed without being replaced by a spare, because it leaves the map (R606) or a link is down at start; a halted module
changes no role (R609). -/
def State.phaseUnmapped (s : State) (q : Nat) : State :=
  if s.pst q = 8 || s.halted then s
  else
    let s := (s.phaseOut q 8).setRole q 2
    let s := s.setNv (Reg.STL_PSTAT_CAUSE q) 5
    s.phaseMod q fun p => { p with job := 0, estAt := none }

/-- A phase returns to the role SPARE and its group's pool (R344, R359). -/
def State.phaseSpare (s : State) (q : Nat) : State :=
  let s := (s.phaseTo q 0 0).setRole q 1
  let s := (s.setNv (Reg.STL_PSTAT_CAUSE q) 0).unitMod 7 q fun x => { x with st := 0, injected := false }
  (s.phaseMod q fun p => { p with nOpen := 0, nSense := 0 }).reserveCheck (phaseKind q)

/-- A phase is to be removed, or to go to EST (code 8), at the next boundary (R356). -/
def State.phaseGone (s : State) (q code : Nat) : State :=
  if s.chs.gone.any fun g => g.1 == q then s else s.chsMod fun c => { c with gone := c.gone ++ [(q, code)] }

/-! ## Links up and down (R344, R345, R606) -/

/-- LINK_STATE (R360), at each change of a link between up and down. -/
def State.linkEvt (s : State) (l : Nat) (up : Bool) : State :=
  s.evt 4 0x0603 (le 1 l ++ le 1 (b2n up) ++ le 1 (b2n (l == 39)) ++ le 1 0 ++ s.pnum32 ++ zeros 4)

/-- Bit `l` of STL_UP, and the ready bit LINKS with it (R61). -/
def State.setUp (s : State) (l : Nat) (up : Bool) : State :=
  let v := s.get Reg.STL_UP
  let v' := v - b2n (bit v l) * 2 ^ l + b2n up * 2 ^ l
  let s := (s.set Reg.STL_UP v').setB (Reg.STL_LSTAT_UP l) up
  (s.linkEvt l up).setReady Reg.GLB_BOOTSTAT_LINKS (b2n (s.linksTrained))

/-- A condition of a level detector that serves several units begins for one of them: each new unit raises (R476). -/
def State.unitOn (s : State) (n unit : Nat) : State :=
  if (s.det n).cause then
    (if (s.det n).real then s else s.detMod n fun y => { y with real := true }).raise n 0 unit
  else s.levelOn n 0 unit

/-- The spare link stops standing in (R345). -/
def State.spareFree (s : State) : State :=
  if s.spareUsed then
    let s := if s.linkUp 39 then s.setUp 39 false else s
    (((s.set Reg.STL_STAT_SPAREV 0).chsMod fun c => { c with selTo := none }).linkMod 39 fun _ => {}).levelOff (detN 14 4)
  else s

/-- Link 39 is used for link `l`: it stands in for it, or trains to do so. -/
def State.sparesFor (s : State) (l : Nat) : Bool := s.spareUsed && s.boardOf 39 == l

/-- Link 39 is up for link `l` and carries its traffic (R345). -/
def State.spareUp (s : State) (l : Nat) : State :=
  let s := ((s.set Reg.STL_STAT_SPARED l).set Reg.STL_STAT_SPAREV 1).chsMod fun c => { c with selTo := none }
  (s.unitOn (detN 14 4) l).reserveCheck 4

/-- A link has come up: its configuration is sent, and the phases removed with it return as spares (R340, R344, R345). A standby takes
its phases from the copy, and a halted module changes none (R609). -/
def State.linkRise (s : State) (l : Nat) : State :=
  let s := s.linkMod l fun x => { x with training := false, miss := 0, cfg := [1, 2, 3], shown := [], tries := 0, sent := false }
  let b := s.boardOf l
  let s := if l ≠ 39 ∧ s.sparesFor l then s.spareFree else if l = 39 then s.spareUp b else s
  let s := s.setUp l true
  let s := if s.standby || s.halted then s
    else ((List.range 4).map fun j => 4 * b + j).foldl (fun s q => if s.linkGone q then s.phaseSpare q else s) s
  if ((List.range 39).any fun k => s.linkMapped k && !s.linkUp k && !(s.link k).training) then s else s.levelOff (detN 14 0)

/-- The spare link is to take a board's traffic: SELECT, and link 39 trains (R345). -/
def State.spareTake (s : State) (l : Nat) : State :=
  let s := (s.chsMod fun c => { c with selTo := some l }).emit (.select (selectFrame l))
  s.linkMod 39 fun _ => { training := true }

/-- A link goes down (R344): its phases are removed at the next boundary, detector 14.0 is raised, and the spare link
takes over when it is fitted and free. A standby takes its phases from the copy, and a halted module changes none (R609). -/
def State.linkFall (s : State) (l : Nat) : State :=
  let b := s.boardOf l
  let s := s.setUp l false
  let s := s.linkMod l fun x => { x with training := false, good := 0, miss := 0, cfg := [], shown := [], tries := 0,
                                         sent := false, retry := s.time + 1000000 }
  let s := if s.standby || s.halted then s
    else ((List.range 4).map fun j => 4 * b + j).foldl (fun s q => s.phaseGone q 5) s
  let s := s.unitOn (detN 14 0) l
  if l ≠ 39 ∧ s.on Reg.STL_CTL_SPAREEN ∧ !s.spareUsed then s.spareTake l else s

/-- SPAREEN has been cleared (R345): link 39 goes idle, and the phases that it carried go as with a link down. -/
def State.spareIdle (s : State) : State :=
  if s.on Reg.STL_CTL_SPAREEN || !s.spareUsed then s
  else
    let b := s.boardOf 39
    let s := if s.standby || s.halted || !s.linkUp 39 then s
      else ((List.range 4).map fun j => 4 * b + j).foldl (fun s q => s.phaseGone q 5) s
    s.spareFree

/-- Training of a link begins (R344). -/
def State.linkTrain (s : State) (l : Nat) : State :=
  s.linkMod l fun x => { x with training := true, good := 0 }

/-- A link is trained or up, so that its frames are taken. -/
def State.linkHears (s : State) (l : Nat) : Bool := s.linkUp l || (s.link l).training

/-- An injection of detector `n` on unit `param` is active (R483). -/
def State.injectedOn (s : State) (n param : Nat) : Bool :=
  s.era.injections.any fun x => x.det == n && x.param == param

/-! ## SAMPLE frames in (R334, R339, R344) -/

/-- What a SAMPLE reports of slot `j` of a board. -/
def State.slotIn (s : State) (b j : Nat) (f : List Byte) : State :=
  let q := 4 * b + j
  let st := rd f (30 + j) 1
  let trip := bit st 0
  let s := if trip && !s.on (Reg.STL_PSTAT_TRIP q) then
      s.setNv (Reg.STL_PTRIP_TRIPS q) (satU 16 (s.get (Reg.STL_PTRIP_TRIPS q) + 1)) else s
  let s := (s.setB (Reg.STL_PSTAT_TRIP q) trip).set (Reg.STL_POFS_ZD q) (rd f (18 + 2 * j) 2)
  s.phaseMod q fun p =>
    { p with got := true, raw := 2 * toS 16 (rd f (8 + 2 * j) 2), drv := bit st 1, sflt := bit st 2, gon := bit st 3,
             ot := bit st 4, mode := bits st 5 3 }

/-- A good SAMPLE of link `l`. -/
def State.sampleIn (s : State) (l : Nat) (f : List Byte) : State :=
  let b := s.boardOf l
  let fl := rd f 2 1
  let s := ((s.setB (Reg.STL_LSTAT_OBEY l) (bit fl 1)).setB (Reg.STL_LSTAT_CONFLICT l) (bit fl 2)).setB
    (Reg.STL_LSTAT_WDOG l) (bit fl 3)
  let s := (s.set (Reg.STL_LSTAT_BTYPE l) (bits fl 4 4)).set (Reg.STL_LSTAT_EPOCH l) (rd f 4 2)
  let s := s.linkMod l fun x => { x with got := true, seen := true, ibrd := 2 * toS 16 (rd f 16 2), vbus := 25 * rd f 26 2,
                                         temp := toS 16 (rd f 28 2), cack := rd f 3 1 }
  let s := if bit fl 2 then s.levelOn (detN 14 2) 0 l
    else if (List.range 40).any fun k => s.on (Reg.STL_LSTAT_CONFLICT k) then s else s.levelOff (detN 14 2)
  let s := if bit fl 3 then s.raise (detN 14 3) 0 l else s
  (List.range 4).foldl (fun s j => s.slotIn b j f) s

/-- SAMPLE (R334, R339): a frame on a link that trains or is up. -/
def State.sample (s : State) (l : Nat) (f : List Byte) : State :=
  if !s.glb.chaseUp || !s.linkHears l || s.injectedOn (detN 14 0) l then s
  else if f.length ≠ 40 ∨ rd f 0 1 ≠ 8 ∨ rd f 36 4 ≠ crc32 (f.take 36) then
    (s.bump (Reg.STL_LCRC l)).wearHit 6 4 l 3600000000000 (s.get Reg.SPR_WTHR0_LINKCRC)
  else if rd f 1 1 ≠ s.boardOf l then s.raise (detN 14 1) 0 l
  else s.sampleIn l f

/-- SAMPLE (R339). -/
def execSample (link : Nat) (frame : List Byte) (s : State) : Out State := .next (s.sample link frame)

/-- At the sample cut a link without a good frame has missed (R298, R344), and the answer to a configuration send is read
(R340). -/
def State.cutLink (s : State) (l : Nat) : State :=
  let x := s.link l
  if x.training then
    if !x.got then s.linkMod l fun x => { x with training := false, good := 0, retry := s.time + 1000000 }
    else if 15 ≤ x.good then s.linkRise l
    else s.linkMod l fun x => { x with good := x.good + 1 }
  else if !s.linkUp l then s
  else if !x.got then
    let s := (s.bump (Reg.STL_LMISS l)).linkMod l fun x => { x with miss := x.miss + 1 }
    if 3 ≤ (s.link l).miss then s.linkFall l else s
  else
    let s := s.linkMod l fun x => { x with miss := 0 }
    match x.cfg with
    | a :: t =>
      if !x.sent then s
      else if x.cack = a then
        s.linkMod l fun x => { x with cfg := t, shown := if t.contains a then x.shown else a :: x.shown, tries := 0, sent := false }
      else if 3 ≤ x.tries then (s.bump (Reg.STL_LMISS l)).linkFall l
      else s.linkMod l fun x => { x with sent := false }
    | [] => s

/-- The samples of every link are fixed at the cut. -/
def State.cutLinks (s : State) : State := (List.range 40).foldl (fun s l => s.cutLink l) s

/-! ## Measured currents (R299, R356, R357) -/

/-- A sample of this period is at hand for a phase. -/
def State.hasSample (s : State) (q : Nat) : Bool :=
  match s.carrier (q / 4) with
  | some c => (s.link c).got && (s.phase q).got
  | none => false

/-- The corrected current of a phase, none when its sample is missing: the offset of R358 is taken off. -/
def State.corrected (s : State) (q : Nat) : Option Int :=
  if s.hasSample q then some ((s.phase q).raw - s.getS (Reg.STL_POFS_OFS q)) else none

/-- The residual r_j (R356): board current less the other phases of the board in RUN, SHED or BURST. -/
def State.residual (s : State) (q : Nat) : Option Int :=
  match s.carrier (q / 4) with
  | none => none
  | some c =>
    if !(s.link c).got then none
    else
      let others := ((List.range 4).map fun j => 4 * (q / 4) + j).filter fun k =>
        k != q && (s.pst k == 4 || s.pst k == 5 || s.pst k == 6)
      some ((s.link c).ibrd - (others.map fun k => (s.corrected k).getD 0).foldl (· + ·) 0)

/-- Healthy neighbours of a phase under estimate: phases of its group in RUN with a sample (R357). -/
def State.neighbours (s : State) (q : Nat) : List Nat :=
  (groupPhases (phaseGroup q)).filter fun k => k != q && s.pst k == 4 && (s.phase k).estAt.isNone && s.hasSample k

/-- Phases of its group in RUN that measure their own current: at least 2 let a phase go on under estimate (R357). -/
def State.runPeers (s : State) (q : Nat) : Nat :=
  (groupPhases (phaseGroup q)).countP fun k => k != q && s.pst k == 4 && (s.phase k).estAt.isNone

/-- Duty above zero current. -/
def State.overZ (s : State) (q : Nat) : Int := (s.loop q).u - (s.get (Reg.STL_POFS_ZD q) : Nat)

/-- The estimate of R357. -/
def State.estimate (s : State) (q : Nat) : Option Int :=
  let ns := s.neighbours q
  let den := (ns.map s.overZ).foldl (· + ·) 0
  if 0 < den then
    some (divRne ((ns.map fun k => (s.corrected k).getD 0).foldl (· + ·) 0 * s.overZ q) den.toNat)
  else s.residual q

/-- Currents and residuals of every phase for the period; calibration and run-at-0 samples of spares (R358). -/
def State.measurePhase (s : State) (q : Nat) : State :=
  let p := s.phase q
  let i := if p.estAt.isSome then s.estimate q else s.corrected q
  let r := s.residual q
  let openi := s.get Reg.STL_DET_OPENI
  let s := s.phaseMod q fun p => { p with cur := i, res := r }
  match p.job with
  | 2 => if s.hasSample q then s.phaseMod q fun p => { p with jobN := p.jobN + 1, jobSum := p.jobSum + p.raw } else s
  | 3 =>
    match i, r with
    | some z, some w =>
      if z.natAbs ≤ openi ∧ (z - w).natAbs ≤ s.get Reg.STL_DET2_SENSEI then s.phaseMod q fun p => { p with jobN := p.jobN + 1 }
      else s.phaseMod q fun p => { p with jobBad := true }
    | _, _ => s
  | _ => s

/-- The sum of the currents of a group's armed phases, none when one of them is missing (R299). -/
def State.groupSum (s : State) (g : Nat) : Option Int :=
  ((groupPhases g).filter s.armed).foldl (fun a q =>
    match a, (s.phase q).cur with
    | some x, some y => some (x + y)
    | _, _ => none) (some 0)

/-! ## The overload limit (R355) -/

/-- The class of the overload table of a phase. -/
def phaseClass (q : Nat) : Nat := if q < 52 then 0 else 1

/-- tau_k in ms, held within 10 to 60,000, and L_k in mA, of a class. -/
def State.olTau (s : State) (c k : Nat) : Nat := min 60000 (max 10 (s.get (Reg.STL_OLTAU (c + 4 * k))))
def State.olLim (s : State) (c k : Nat) : Nat := s.get (Reg.STL_OLLIM (c + 4 * k))

/-- The factor of a filter at the present period. -/
def State.olK (s : State) (c k : Nat) : Int := divRne ((s.periodNs : Int) * 2 ^ 32) (s.olTau c k * 1000000)

/-- The three filters after a period with current `i`. -/
def State.olStep (s : State) (c : Nat) (th : List Int) (i : Int) : List Int :=
  th.zipIdx.map fun x => x.1 + rne ((i * i - x.1) * s.olK c x.2) 32

/-- Filters at or above (15 L / 16)^2. -/
def State.olHot (s : State) (c : Nat) (th : List Int) : List Nat :=
  (th.zipIdx.filter fun x => decide ((15 * s.olLim c x.2 : Nat) ^ 2 ≤ (x.1 * 256).toNat ∧ 0 ≤ x.1)).map (·.2)

/-- The clamp after a period: set above L^2, kept while a filter is hot, at the least 15 L / 16 of the hot filters. -/
def State.olClamp (s : State) (c : Nat) (th : List Int) (was : Option Nat) : Option Nat :=
  let hot := s.olHot c th
  let set := th.zipIdx.any fun x => decide (((s.olLim c x.2 : Nat) : Int) ^ 2 < x.1)
  if was.isSome || set then (hot.map fun k => 15 * s.olLim c k / 16).min? else none

/-- A filter is above (9 L / 8)^2. -/
def State.olTrip (s : State) (c : Nat) (th : List Int) : Bool :=
  th.zipIdx.any fun x => decide (81 * ((s.olLim c x.2 : Nat) : Int) ^ 2 < 64 * x.1)

/-- The filter that stands highest against its limit, the lower among equals, and that ratio in 1/65,536. -/
def State.olWorst (s : State) (c : Nat) (th : List Int) : Nat × Nat :=
  let rs := th.zipIdx.map fun x => (x.2, (x.1.toNat * 65536) / max 1 (s.olLim c x.2 ^ 2))
  rs.foldl (fun a b => if a.2 < b.2 then b else a) (rs.headD (0, 0))

/-- OVERLOAD when a clamp is set or released (R360). -/
def State.olEvt (s : State) (item c : Nat) (th : List Int) (was now : Option Nat) : State :=
  if was.isSome = now.isSome then s
  else
    let (k, v) := s.olWorst c th
    s.evt 4 0x0604 (le 1 item ++ le 1 k ++ le 1 (b2n now.isSome) ++ le 1 0 ++ le 4 (satU 32 v) ++ s.pnum32)

/-- The overload filters of a phase for the period. -/
def State.olPhase (s : State) (q : Nat) : State :=
  let p := s.phase q
  let c := phaseClass q
  let i := p.cur.getD p.lastI
  let th := s.olStep c p.th i
  let cl := s.olClamp c th p.clamp
  let s := (s.phaseMod q fun p => { p with th := th, clamp := cl, lastI := i }).setB (Reg.STL_PSTAT_OVL q) cl.isSome
  let s := s.olEvt q c th p.clamp cl
  if s.holder && s.olTrip c th && s.pst q != 8 then (s.phaseGone q 4).raise (detN 15 2) 0 q else s

/-- A converter's item: 0 grid, s + 1 string s. -/
def State.conv (s : State) (g : Nat) : Conv := Tab.get s.chs.convs g {}

/-- Changes a converter's item. -/
def State.convMod (s : State) (g : Nat) (f : Conv → Conv) : State :=
  s.chsMod fun c => { c with convs := Tab.put c.convs g (f (s.conv g)) }

/-- The group detector of a group (R354, R355): its trips or its converter's overload hold. -/
def State.groupDet (s : State) (g : Nat) : State :=
  let n := detN 15 (3 + g)
  if !s.holder then s
  else s.level n 0 g ((s.conv g).hot || decide (4 ≤ (Tab.get s.chs.trips g []).length) || s.chs.heldGrp.contains g)

/-- The overload filters of a converter for the period. -/
def State.olConv (s : State) (g : Nat) : State :=
  let x := s.conv g
  let c := if g = 0 then 2 else 3
  let i := ((s.chs.igrp[g]?).getD none).getD x.lastI
  let th := s.olStep c x.th i
  let cl := s.olClamp c th x.clamp
  let s := s.convMod g fun x => { x with th := th, clamp := cl, lastI := i, hot := s.olTrip c th }
  (s.olEvt (0xF0 + c) c th x.clamp cl).groupDet g

/-! ## Findings (R354, R356, R357) -/

/-- A short-circuit trip is found: the phase goes FAILED in the same period, and four trips of a group within 1 ms hold
the group WARM (R354). -/
def State.tripFound (s : State) (q : Nat) : State :=
  if !s.on (Reg.STL_PSTAT_TRIP q) || s.pst q == 8 || !s.hasSample q then s
  else
    let g := phaseGroup q
    -- the DUTY of this period sends WARM, whether its law completes or not
    let s := ((s.phaseFail q 1 false).raise (detN 15 1) 0 q).phaseMod q fun p => { p with sent := 1 }
    let ts := (s.time :: Tab.get s.chs.trips g []).filter fun t => decide (s.time < t + 1000000)
    let s := s.chsMod fun c => { c with trips := Tab.put c.trips g ts }
    if 4 ≤ ts.length then
      (s.chsMod fun c => { c with heldGrp := if c.heldGrp.contains g then c.heldGrp else g :: c.heldGrp }).groupDet g
    else s

/-- The tests of R356 on a phase in RUN; the findings are taken by a holder only, also of a count that it had reached as a standby
(R609). -/
def State.findFault (s : State) (q : Nat) : State :=
  if s.pst q ≠ 4 ∨ (s.phase q).estAt.isSome ∨ (s.chs.gone.any fun g => g.1 == q) then s
  else
    let p := s.phase q
    match p.cur with
    | none => s.phaseMod q fun p => { p with nOpen := 0, nSense := 0 }
    | some i =>
      let openi := s.get Reg.STL_DET_OPENI
      let duty := decide (s.get Reg.STL_DET_OPENU < (s.overZ q).natAbs)
      let small := match p.res with
        | some r => decide (r.natAbs ≤ openi)
        | none => false
      let broke := duty && decide (i.natAbs ≤ openi) && small
      let apart := match p.res with
        | some r => decide (s.get Reg.STL_DET2_SENSEI < (i - r).natAbs)
        | none => false
      let own := p.sflt || p.raw == -65536 || p.raw == 65534
      -- without IBRD, what holds on i_j alone finds the phase failed open
      let broke := broke || (p.res.isNone && (own || (duty && decide (i.natAbs ≤ openi))))
      let sense := own || apart
      let nO := if broke then p.nOpen + 1 else 0
      let nS := if sense && !broke then p.nSense + 1 else 0
      let s := s.phaseMod q fun p => { p with nOpen := nO, nSense := nS }
      if !s.holder then s
      else if 3 ≤ nO then (s.phaseGone q 2).raise (detN 15 0) 0 q
      else if 3 ≤ nS then (s.phaseGone q 8).raise (detN 15 0) 0 q
      else s

/-- A phase whose sense failed goes to EST, or FAILED with cause 3 where R357 allows no estimate. -/
def State.toEst (s : State) (q : Nat) : State :=
  let g := phaseGroup q
  let second := (groupPhases g).any fun k => k != q && (s.phase k).estAt.isSome
  if s.runPeers q < 2 ∨ second ∨ s.pst q ≠ 4 then s.phaseFail q 3 false
  else
    let s := (s.phaseTo q 7 8).phaseMod q fun p => { p with estAt := some s.time, nOpen := 0, nSense := 0 }
    (s.bringSpare q s.time).2

/-- The removals found in the last period take effect (R356). -/
def State.takeGone (s : State) : State :=
  let gs := s.chs.gone
  let s := s.chsMod fun c => { c with gone := [] }
  gs.foldl (fun s g => if g.2 = 8 then s.toEst g.1 else s.phaseFail g.1 g.2 false) s

/-! ## Spares come in (R358) -/

/-- SPARE_IN (R360), and the pool's record of the replacement (R584). -/
def State.spareIn (s : State) (q : Nat) : State :=
  let p := s.phase q
  let s := s.evt 4 0x0601 (le 1 q ++ le 1 p.jobFor ++ zeros 2 ++ le 4 ((s.time - p.jobAt) / 1000) ++
    le 4 (ofS 32 (s.getS (Reg.STL_POFS_OFS q))))
  (s.phaseMod q fun p => { p with job := 0 }).unitSpared (phaseKind q) 1 p.jobFor q

/-- A phase that carries load is to leave service by a shed (R333, R357): at once, or as soon as a burst or the plain law is over. -/
def State.shedOff (s : State) (q : Nat) : State :=
  let s := s.phaseMod q fun p => { p with leaving := true }
  if (s.pst q = 4 ∨ s.pst q = 7) ∧ !s.on Reg.CHS_STAT_LAW then s.phaseTo q 5 7 else s

/-- SPARE_STEP_DONE (R358): a spare that has completed its step takes the next one; one that failed its step goes FAILED
with cause 6, and the next spare is tried. Under the plain law none comes into RUN (R317), nor before its board has shown its
configuration (R340). -/
def State.spareStep (s : State) (q : Nat) : State :=
  let p := s.phase q
  match p.job with
  | 1 => if s.pst q = 2 then (s.phaseTo q 3 0).phaseMod q fun p => { p with job := 2, jobN := 0, jobSum := 0 } else s
  | 2 =>
    if 256 ≤ p.jobN then
      let s := s.setNv (Reg.STL_POFS_OFS q) (ofS 16 (satS 16 (rne p.jobSum 8)))
      (s.loopClose q (s.get (Reg.STL_POFS_ZD q) : Nat)).phaseMod q fun p => { p with job := 3, jobN := 0, jobBad := false }
    else s
  | 3 =>
    if p.jobBad then (s.phaseFail q 6 false).raise (detN 15 0) 0 q
    else if 64 ≤ p.jobN ∧ !s.on Reg.CHS_STAT_LAW ∧ s.cfgReady q then
      let s := ((s.setRole q 0).phaseTo q 4 1).phaseMod q fun p => { p with job := 4 }
      let s := s.reserveCheck (phaseKind q)
      -- the phase under estimate is shed over 8 periods once its spare is in RUN (R357)
      if (s.phase p.jobFor).estAt.isSome then s.shedOff p.jobFor else s
    else s
  | 4 =>
    let f := s.get (Reg.STL_PSTAT_FACTOR q) + 1
    if s.pst q ≠ 4 then s
    else if f < 8 then s.set (Reg.STL_PSTAT_FACTOR q) f
    else (s.set (Reg.STL_PSTAT_FACTOR q) 8).spareIn q
  | _ => s

/-- SPARE_STEP_DONE (R358). -/
def execSpareStepDone (q : Nat) (s : State) : Out State := .next (if s.holder then s.spareStep q else s)

/-! ## Timeouts of R351 and R357 -/

/-- PHASE_WAKE_TIMEOUT (R351): no DRV within 40 us of the DUTY that sent WARM: FAILED with cause 6. -/
def State.wakeTimeout (s : State) (q : Nat) : State :=
  if s.pst q = 1 ∧ (s.phase q).since + 40000 < s.time then (s.phaseFail q 6 false).raise (detN 15 0) 0 q else s

/-- PHASE_WAKE_TIMEOUT (R351). -/
def execPhaseWakeTimeout (q : Nat) (s : State) : Out State := .next (if s.holder then s.wakeTimeout q else s)

/-- WARM_HOLD_EXPIRY (R351): WARM for WARMHOLD ms, unless that field is 0; not in a held group (R354), nor while the phase waits its turn
in the arming order (R328). -/
def State.warmExpiry (s : State) (q : Nat) : State :=
  let h := s.get Reg.STL_SHED_WARMHOLD
  if s.pst q = 2 ∧ h ≠ 0 ∧ (s.phase q).job = 0 ∧ (s.phase q).since + h * 1000000 ≤ s.time ∧ !s.groupHeld (phaseGroup q) ∧ !s.chs.turn.contains q then
    s.phaseOut q 0
  else s

/-- WARM_HOLD_EXPIRY (R351). -/
def execWarmHoldExpiry (q : Nat) (s : State) : Out State := .next (if s.holder then s.warmExpiry q else s)

/-- EST_TIMEOUT (R357): ESTMAX has run out, or fewer than 2 healthy neighbours are left: FAILED with cause 3 at once. -/
def State.estTimeout (s : State) (q : Nat) : State :=
  match (s.phase q).estAt with
  | some t =>
    if (s.pst q = 7 ∨ s.pst q = 4) ∧ (t + min 200 (s.get Reg.STL_DET2_ESTMAX) * 1000000 ≤ s.time ∨ s.runPeers q < 2) then s.phaseFail q 3 false
    else s
  | none => s

/-- EST_TIMEOUT (R357). -/
def execEstTimeout (q : Nat) (s : State) : Out State := .next (if s.holder then s.estTimeout q else s)

/-! ## Shedding and burst (R349 to R353) -/

/-- A group keeps at most WARMN phases WARM: those WARM longest go COLD (R351). A held group stays WARM (R354). -/
def State.warmLimit (s : State) (g : Nat) : State :=
  let ws := (groupPhases g).filter fun q => s.pst q == 2 && (s.phase q).job == 0
  if s.groupHeld g then s
  else ((sortBy (fun a b => decide ((s.phase a).since ≤ (s.phase b).since)) ws).take (ws.length - s.get Reg.STL_SHED_WARMN)).foldl
    (fun s q => s.phaseOut q 0) s

/-- A phase in SHED at a boundary: its next period, or WARM after the 8th; one under estimate goes FAILED (R349, R357). -/
def State.shedStep (s : State) (q : Nat) : State :=
  if s.pst q ≠ 5 then s
  else
    let f := s.get (Reg.STL_PSTAT_FACTOR q)
    if f ≠ 0 then s.set (Reg.STL_PSTAT_FACTOR q) (f - 1)
    else if (s.phase q).estAt.isSome then s.phaseFail q 3 false
    else if s.role q = 1 then s.phaseOut q 0
    else s.phaseOut q 2

/-- Sheds that are aborted are counted (R566), as objectives of rank 5 that yield (R6). -/
def State.shedYields (s : State) (n : Nat) : State := (s.count 4 8 n).chsMod fun c => { c with yields := c.yields + n }

/-- Sheds of the groups named are aborted (R350) and counted (R566); that of a phase under estimate, or no longer ACTIVE, goes
on. -/
def State.abortSheds (s : State) (gs : List Nat) : State :=
  let qs := (List.range 156).filter fun q =>
    s.pst q == 5 && (s.phase q).estAt.isNone && s.role q == 0 && gs.contains (phaseGroup q)
  (qs.foldl (fun s q => (s.phaseTo q 4 8).phaseMod q fun p => { p with noShed := s.time + 1000000 }) s).shedYields qs.length

/-- Every shed is aborted as the plain law begins, also that of a phase under estimate or no longer ACTIVE (R317): it is shed again once
the full law is back. -/
def State.plainSheds (s : State) : State :=
  let qs := (List.range 156).filter fun q => s.pst q == 5
  (qs.foldl (fun s q => (s.phaseTo q 4 8).phaseMod q fun p =>
    { p with noShed := s.time + 1000000, leaving := p.estAt.isSome || s.role q != 0 }) s).shedYields qs.length

/-- Strings counted in N (R347, R427): RING[s] set and not falling to a ring loss. -/
def State.ringOn (s : State) (st : Nat) : Bool := bit (s.get Reg.GLB_BOOTSTAT_RING) st
def State.ringStrings (s : State) : List Nat := (List.range 4).filter s.ringOn

/-- A string in the estimator. -/
def State.strX (s : State) (st : Nat) : StrX := Tab.get s.bup.strs st {}

/-- Changes a string. -/
def State.strMod (s : State) (st : Nat) (f : StrX → StrX) : State :=
  { s with bup := { s.bup with strs := Tab.put s.bup.strs st (f (s.strX st)) } }

/-- The rest clamp in mA at the bus: RCLAMP × V_str / V_bus, rounded down (R455). -/
def State.restClamp (s : State) (st : Nat) : Nat :=
  let v := s.get Reg.CHS_VBUS
  if v = 0 then 0 else s.get Reg.BUP_EST_REST_RCLAMP * 10 * (s.strX st).volt / v

/-- Step 5 of R455: the rest clamp with its linear ramps (R460). -/
def State.restLimit (s : State) (st lim : Nat) : Nat :=
  let x := s.strX st
  let c := s.restClamp st
  let ramp := s.get Reg.BUP_EST_REST_RAMP * 1000000
  let el := s.time - x.since
  let l := match x.rest with
    | 1 => if ramp ≤ el then min lim c else lim - (lim - c) * el / ramp
    | 2 => min lim c
    | 3 => if ramp ≤ el then lim else min lim c + (lim - c) * el / ramp
    | _ => lim
  if x.held then min l c else l

/-- Steps 6 and 7 of R455: stale cells (R448), the derate of R396, the loss of the ring (R427) and missing phases (R576). -/
def State.limSteps (s : State) (st a : Nat) : Nat :=
  let n := (groupPhases (st + 1)).countP fun q => s.role q == 0 && s.pst q != 8
  let a := if s.on (Reg.BUP_EST_STAT_STALE st) then a / 2 else a
  let a := a * s.chs.rmp.f / 65536
  let a := a * min n 24 / 24
  match Tab.find s.chs.ringLoss st with
  | none => a
  | some t =>
    let ms := (if s.get Reg.BUP_CTL_LOSS = 0 then 500 else s.get Reg.BUP_CTL_LOSS)
    a * (ms * 1000000 - (s.time - t)) / (ms * 1000000)

/-- A string's limits as they stand now, from those of steps 1 to 4 of R455. -/
def State.stringLimit (s : State) (st lim : Nat) : Nat := s.limSteps st (s.restLimit st lim)

/-- The discharge and charge limits of a string in mA at the bus. -/
def State.limD (s : State) (st : Nat) : Nat := s.stringLimit st (s.strX st).ld
def State.limC (s : State) (st : Nat) : Nat := s.stringLimit st (s.strX st).lc

/-- Those limits without the rest clamp: what acts at rank 1 (R455). -/
def State.hardD (s : State) (st : Nat) : Nat := s.limSteps st (s.strX st).ld
def State.hardC (s : State) (st : Nat) : Nat := s.limSteps st (s.strX st).lc

/-- Rank 1 keeps a storage phase out of a burst (R4): the over-voltage hold, an overload clamp of the phase or of its string's converter
(R355), or a discharge limit of 0 (R455). It stays on its loop, or returns to it. -/
def State.burstBarred (s : State) (q : Nat) : Bool :=
  let g := phaseGroup q
  s.chs.ovp || (s.phase q).clamp.isSome || (s.conv g).clamp.isSome || s.hardD (g - 1) == 0

/-- A burst is decided (R352): every healthy storage phase goes to BURST with the DUTY of the same period, unless rank 1 bars it (R4). The
sheds that it ends are counted (R6, R350). A loop that comes from WARM counts as closed and overridden; one that a change list holds open
stays open (R308). -/
def State.burstStart (s : State) (why v : Nat) : State :=
  let sheds := ((List.range 104).map (52 + ·)).countP fun q =>
    s.pst q == 5 && (s.phase q).estAt.isNone && s.role q == 0 && !s.groupHeld (phaseGroup q) && !s.burstBarred q
  let s := s.shedYields sheds
  let s := (s.set Reg.STL_STAT_BURST 1).chsMod fun c =>
    { c with burstN := 0, burstLow := v, burstWhy := why, burstOver := false, abort := [0, 1, 2, 3, 4] }
  ((List.range 104).map (52 + ·)).foldl (fun s q =>
    let st := s.pst q
    if s.groupHeld (phaseGroup q) then s
    else if s.burstBarred q then s
    else if st = 4 ∨ st = 5 ∨ st = 7 then s.phaseTo q 6 8
    else if st = 2 ∧ (s.phase q).job = 0 ∧ s.cfgReady q then
      (s.phaseTo q 6 8).loopMod q fun x => { x with isOpen := false, openFor := 0, reclose := none }
    else if st = 0 ∧ s.role q = 0 then s.wake q
    else s) s

/-- The burst ends at a boundary (R353): its phases go to RUN, and their loops reclose with u_f the last burst duty; one that a change list
holds open stays open at that duty (R308). A phase under estimate goes to RUN too and keeps its estimate (log entry 21). A list in its hold
begins the hold again (R323). -/
def State.burstEnd (s : State) : State :=
  let qs := (List.range 156).filter fun q => s.pst q == 6
  let s := s.evt 4 0x0602 (le 1 (satU 8 s.chs.burstN) ++ le 1 qs.length ++ le 1 s.chs.burstWhy ++ le 1 0 ++
    le 4 s.chs.burstLow ++ s.pnum32)
  let s := (s.set Reg.STL_STAT_BURST 0).chsMod fun c => { c with burstOver := false, burstAgo := 0 }
  qs.foldl (fun s q =>
    let s := s.phaseTo q 4 8
    if (s.loop q).isOpen then s else s.loopClose q (s.phase q).duty) s

/-! ## Arming (R328, R347, R348) -/

/-- Phases of a group that can be used: role ACTIVE, not FAILED. -/
def State.healthy (s : State) (g : Nat) : Nat := (groupPhases g).countP fun q => s.role q == 0 && s.pst q != 8

/-- The minimum run set. -/
def State.mrset (s : State) : List Nat := (List.range 52).filter fun g => bit (s.get Reg.STL_MRSET) g

/-- ceil(z / d) for a current, 0 for one below 0. -/
def ceilI (z : Int) (d : Nat) : Nat := cdiv z.toNat d

/-- The count of phases that a group needs (R347), capped at its healthy ACTIVE phases. -/
def State.need (s : State) (g : Nat) : Nat :=
  let head := s.get Reg.STL_SHED_HEAD
  let n := if g = 0 then
      let pt : Nat := s.get Reg.CHS_RMP_OUT
      let dg := max (((s.chs.igrp[0]?).getD none).getD 0) ((cdiv (pt * 5) 4 : Nat) : Int)
      let ai := if s.get Reg.STL_ARMI_GRID = 0 then 8000 else s.get Reg.STL_ARMI_GRID
      max s.mrset.length (ceilI dg ai + head)
    else
      let rings := s.ringStrings.length
      let is := (((s.chs.igrp[g]?).getD none).getD 0).natAbs
      let r := ((s.chs.rs[g - 1]?).getD 0).natAbs
      let share := if rings = 0 then 0 else ceilI (s.gal.armD.val - s.iBase) rings
      let ai := if s.get Reg.STL_ARMI_STOR = 0 then 4000 else s.get Reg.STL_ARMI_STOR
      max (s.get Reg.STL_SHED_MINS) (cdiv (max is (max r share)) ai + head)
  if g ≠ 0 ∧ !s.ringOn (g - 1) then 0 else min n (s.healthy g)

/-- Removes the first `n` of a list in the order of a key, ascending. -/
def firstBy {α : Type} (key : α → Nat) (n : Nat) (l : List α) : List α :=
  (sortBy (fun a b => decide (key a ≤ key b)) l).take n

/-- The excess of RUN phases of a group over its need begins, goes on or lapses (R349), whether the device sheds or not. -/
def State.excessTick (s : State) (g : Nat) : State :=
  if s.need g + 1 < (groupPhases g).countP fun q => s.pst q == 4 then
    match Tab.find s.chs.excess g with
    | none => s.chsMod fun c => { c with excess := Tab.put c.excess g s.time }
    | some _ => s
  else s.chsMod fun c => { c with excess := Tab.del c.excess g }

/-- Arming of one group at a boundary, and the sheds that it ends (R348, R350). -/
def State.armNeed (s : State) (g : Nat) : State :=
  let n := s.need g
  let inn := fun (s : State) (k : Nat) => (groupPhases g).filter fun q => s.pst q == k
  let nrs := (inn s 4).length + (inn s 5).length
  let shedding := (inn s 5).filter fun q => (s.phase q).estAt.isNone && s.role q == 0
  -- the count has risen to the phases in RUN and SHED: SHED phases return first
  let s := if !shedding.isEmpty && decide (nrs ≤ n) then s.abortSheds [g] else s
  let s :=
    if nrs < n then
      let warm := firstBy (fun q => s.runMs q * 256 + q) (min 8 (n - nrs))
        ((inn s 2).filter fun q => s.role q == 0 && (s.phase q).drv && (s.phase q).job == 0 && s.cfgReady q)
      let s := warm.foldl (fun s q => s.phaseRun q (s.get (Reg.STL_POFS_ZD q) : Nat)) s
      let waking := ((inn s 1).filter fun q => s.role q == 0).length + ((inn s 2).filter fun q => s.role q == 0).length
      let cold := firstBy (fun q => s.runMs q * 256 + q) (n - nrs - warm.length - waking)
        ((inn s 0).filter fun q => s.role q == 0 && (s.carrier (q / 4)).isSome)
      cold.foldl (fun s q => s.wake q) s
    else s
  s

/-- One phase of a group in excess for 1 ms is shed (R349); one that is to leave service goes first. -/
def State.shedOne (s : State) (g : Nat) : State :=
  let inn := fun (k : Nat) => (groupPhases g).filter fun q => s.pst q == k
  match (groupPhases g).find? fun q => (s.phase q).leaving && (s.pst q == 4 || s.pst q == 7) && decide ((s.phase q).noShed ≤ s.time) with
  | some q => s.phaseTo q 5 7
  | none =>
    match Tab.find s.chs.excess g with
    | some t =>
      if t + 1000000 ≤ s.time ∧ (inn 5).isEmpty ∧ s.gal.holdUntil ≤ s.time then
        let c := (inn 4).filter fun q => decide ((s.phase q).noShed ≤ s.time) && (s.phase q).job == 0
        -- a worn phase goes first (R578), then the greatest run time, then the higher number
        match leastBy (fun q => (if (s.unit 7 q).retire ≠ 0 then 0 else 2 ^ 80) + (2 ^ 72 - s.runMs q) * 256 + (255 - q)) c with
        | some q => s.phaseTo q 5 7
        | none => s
      else s
    | none => s

/-- Arming and shedding of one group at a boundary (R348 to R351); a held group takes no part (R354). -/
def State.armGroup (s : State) (g : Nat) : State :=
  if s.groupHeld g then s.excessTick g else (((s.armNeed g).excessTick g).shedOne g).warmLimit g

/-- A phase of the arming order may take its turn (R328, R340). -/
def State.turnReady (s : State) (q : Nat) : Bool := s.pst q == 2 && (s.phase q).drv && s.cfgShown (q / 4)

/-- The phases of the order that wait: COLD ones are sent WARM. -/
def State.turnSet (s : State) (qs : List Nat) : State :=
  let s := qs.foldl (fun s q => if s.pst q = 0 then s.wake q else s) s
  s.chsMod fun c => { c with turn := qs }

/-- A loop closes under R309, unless the plain law keeps it open (R317). -/
def State.loopBack (s : State) (n : Nat) (uf : Int) : State :=
  if s.on Reg.CHS_STAT_LAW && plainOpen.contains n then s else s.loopClose n uf

/-- The storage phases of the arming order: every ACTIVE phase of the strings whose ring is set, string by string. -/
def State.storageTurn (s : State) : List Nat :=
  s.ringStrings.flatMap fun st => (groupPhases (st + 1)).filter fun q => s.role q == 0 && s.pst q != 8

/-- The outer loops of R327. -/
def outerLoops : List Nat := (List.range 10).map (156 + ·)

/-- Phases of the order that still wait; those of a held group take no turn (R354). -/
def State.turnRest (s : State) : List Nat := s.chs.turn.filter fun q => !(s.armed q || s.pst q == 8 || s.groupHeld (phaseGroup q))

/-- One boundary of the arming order of R328. -/
def State.armOrder (s : State) : State :=
  match s.chs.order with
  | 1 =>
    let s := ((s.turnRest.filter s.turnReady).take 4).foldl (fun s q =>
      (s.phaseTo q 4 8).loopMod q fun x => { x with isOpen := false, x := 0, u := 0, openFor := 0, reclose := none }) s
    if s.turnRest.isEmpty then
      let s := s.turnSet s.storageTurn
      (s.loopBack 156 (s.loop 156).u).chsMod fun c => { c with order := 2 }
    else s.chsMod fun c => { c with turn := s.turnRest }
  | 2 =>
    -- every phase of a string before any of the next
    let rest := s.turnRest
    let first := match rest with
      | q :: _ => phaseGroup q
      | [] => 0
    let s := (((rest.filter fun q => phaseGroup q == first).filter s.turnReady).take 2).foldl
      (fun s q => s.phaseRun q (s.get (Reg.STL_POFS_ZD q) : Nat)) s
    if s.turnRest.isEmpty then
      let s := (outerLoops.drop 1).foldl (fun s n => s.loopBack n 0) s
      s.chsMod fun c => { c with order := 3, turn := [] }
    else s.chsMod fun c => { c with turn := s.turnRest }
  | _ => s

/-- The token is taken from WAIT: Chase arms the shelf (R328). The epoch is one newer than the newest of the boards
(R343), compared in 16-bit serial arithmetic (R342). -/
def epochNewer (a b : Nat) : Bool := let d := (a + 65536 - b % 65536) % 65536; decide (1 ≤ d ∧ d ≤ 32767)

/-- The newest epoch that the boards report. -/
def State.newestEpoch (s : State) : Nat :=
  let es := ((List.range 40).filter fun l => (s.link l).seen).map fun l => s.get (Reg.STL_LSTAT_EPOCH l)
  es.foldl (fun a b => if epochNewer b a then b else a) (es.headD 0)

/-- A phase that is to carry load no more goes WARM, with its loop out of service; a SPARE phase goes COLD (R346). -/
def State.phaseRest (s : State) (q : Nat) : State :=
  if s.role q = 1 then (if s.pst q = 0 ∨ s.pst q = 8 then s else s.phaseOut q 0)
  else if s.armed q || s.pst q == 3 then s.phaseOut q 2 else s

/-- Phases that carry load are let go; sparing and estimates end (R342, R476). -/
def State.phasesSafe (s : State) : State :=
  let s := (List.range 156).foldl (fun s q =>
    let s := s.phaseRest q
    s.phaseMod q fun p => { p with job := 0, estAt := none, nOpen := 0, nSense := 0 }) s
  (s.set Reg.STL_STAT_BURST 0).chsMod fun c =>
    { c with gone := [], turn := [], order := 0, abort := [], excess := [], burstOver := false, cfgGate := false }

/-- The seat token is held: every configuration address goes to each board (R340). -/
def State.tokenOn (s : State) : State :=
  ({ s with glb := { s.glb with hadToken := true } } : State).set Reg.CHS_STAT_TOKEN 1 |>.cfgAll [1, 2, 3]

/-- The arming order begins (R328): the grid-draw target has no source yet, and the limiter takes the measured P_grid. -/
def State.armBegin (s : State) : State :=
  let s := (List.range 166).foldl (fun s n => s.loopOut n) s.phasesSafe
  let s : State := { s with gal := { s.gal with grid := {}, gridProof := none } }
  let s := (s.set Reg.CHS_STAT_WINARM 0).set Reg.CHS_STAT_SOFT 1
  let s := s.chsMod fun c =>
    { c with setMv := c.v0, winSince := none, order := 1, waitImp := true, epoch := (s.newestEpoch + 1) % 65536,
             cfgGate := true, links := c.links.map fun e => (e.1, { e.2 with shown := [] })
             rmp := { c.rmp with reload := true, yProof := none } }
  let s := s.turnSet (s.mrset.filter fun q => s.pst q != 8)
  s.tokenOn

/-- After a takeover the phases go on as the copy gives them (R504), and the boards get their configuration (R340). -/
def State.copyArmed (s : State) : State := (s.chsMod fun c => { c with cfgGate := false }).tokenOn

/-! ## Degrade orders on phases, links and groups (R312, R344, R354, R474) -/

/-- A detector whose orders go to the stage links and phases. -/
def stageDet (n : Nat) : Bool := n == detN 13 3 || n == detN 14 0 || decide (n / 16 = 15 ∧ n % 16 < 8)

/-- What a degrade order on a phase, a link or a group isolates. A phase already FAILED, under estimate or about to be
removed is isolated already (R476). -/
def State.stageOrder (s : State) (n unit : Nat) (inj : Bool) : State :=
  let free := decide (unit < 156) && s.holder && s.pst unit != 8 && (s.phase unit).estAt.isNone &&
    !(s.chs.gone.any fun g => g.1 == unit)
  if n = detN 13 3 then
    -- the cause code of a phase latched off by a following error is open (log entry 21)
    if free then
      let (v, s) := s.draw
      s.phaseFail unit (v % 16) inj
    else s
  else if n = detN 14 0 then if unit < 40 ∧ s.linkUp unit then s.linkFall unit else s
  else if n = detN 15 0 then if free then s.phaseFail unit 2 inj else s
  else if n = detN 15 1 then if free then s.phaseFail unit 1 inj else s
  else if n = detN 15 2 then if free then s.phaseFail unit 4 inj else s
  else
    let g := n - detN 15 3
    s.chsMod fun c => { c with heldGrp := if c.heldGrp.contains g then c.heldGrp else g :: c.heldGrp }

/-- The degrade orders on the stage are carried out; a halted module carries out none of them (R476). -/
def State.settleStage (s : State) : State :=
  let os := sortBy (fun a b => decide (a.1 ≤ b.1)) (s.era.orders.filter fun o => stageDet o.1)
  let s := { s with era := { s.era with orders := s.era.orders.filter fun o => !stageDet o.1 } }
  let s := if s.halted then s else os.foldl (fun s o => s.stageOrder o.1 o.2.1 o.2.2) s
  { s with era := { s.era with orders := s.era.orders.filter fun o => !stageDet o.1 } }

/-! ## Worn phases and links (R577, R578) -/

/-- A phase whose trips or time in service reach their thresholds is worn. -/
def State.phaseWear (s : State) (q : Nat) : State :=
  let a := s.get Reg.SPR_WTHR1_PTRIP
  let h := s.get Reg.SPR_WTHR1_PHOURS
  let trips := s.get (Reg.STL_PTRIP_TRIPS q)
  let worn := (a != 0 && decide (a ≤ trips)) || (h != 0 && decide (h * 3600000000 ≤ s.runMs q))
  if worn && !(s.unit 7 q).worn then
    let s := s.unitMod 7 q fun x => { x with worn := true, retire := if s.on Reg.SPR_CTL_PREEMPT then 2 else x.retire }
    s.evt 0xC 0x0D01 (le 1 (phaseKind q) ++ zeros 3 ++ le 4 q ++ le 4 trips)
  else s

/-- A worn phase in SHED or WARM is retired when a spare of its group is free (R578). -/
def State.phaseRetire (s : State) (q : Nat) : State :=
  if (s.unit 7 q).retire = 0 ∨ (s.pst q ≠ 5 ∧ s.pst q ≠ 2) ∨ (s.phase q).job ≠ 0 then s
  else
    match s.pickSpare (phaseGroup q) with
    | none => s
    | some _ =>
      let s := ((s.phaseOut q 8).setRole q 2).setNv (Reg.STL_PSTAT_CAUSE q) 0
      let s := s.unitOut 7 q 2 false
      let (sp, s) := s.bringSpare q s.time
      let s := match sp with
        | some k => s.unitSpared (phaseKind q) 2 q k
        | none => s
      s.reserveCheck (phaseKind q)

/-- A worn link is retired to the spare link while no burst, shed or change list is in progress (R578). -/
def State.linkRetire (s : State) (l : Nat) : State :=
  if (s.unit 6 l).retire = 0 ∨ !s.linkUp l ∨ l = 39 ∨ !s.on Reg.STL_CTL_SPAREEN ∨ s.spareUsed ∨
      s.on Reg.STL_STAT_BURST ∨ !s.chs.lists.isEmpty ∨ (List.range 156).any (fun q => s.pst q == 5) then s
  else
    let s := (s.unitOut 6 l 2 false).spareTake l
    let x := s.link l
    let s := s.setUp l false
    let s := (s.linkMod 39 fun _ => { x with training := false, miss := 0, sent := false }).spareUp l
    ((s.setUp 39 true).linkMod l fun _ => {}).unitSpared 4 2 l 39

end Sys2Proof.Machine
end

