-- ==== Sys2Proof/Machine/StageCmd.lean ====
section
/-!
DEFINITION. The STL commands (R359), the retraining of links (R344) and the settings map of links (R606).
-/
namespace Sys2Proof.Machine

/-- PHASE_QUERY (R359). -/
def execPhaseQuery (r : Nat) (d : Desc) (s : State) : Out State :=
  .next (s.cmd r 0x0600 d
      { priv := 0, buf := .writes, lenOk := fun n => decide (16 * d.p1 ≤ n),
        parOk := decide (1 ≤ d.p1 ∧ d.p1 ≤ 156 ∧ d.p0 + d.p1 ≤ 156) } fun s =>
    image s (16 * d.p1) ((List.range d.p1).flatMap fun k =>
      s.regBytes [0x40084, 0x40088, 0x4008C, 0x40094] (d.p0 + k)))

/-- A condition that keeps a phase out is still reported, or its link is down (R359). -/
def State.phaseBad (s : State) (q : Nat) : Bool :=
  s.on (Reg.STL_PSTAT_TRIP q) || (s.phase q).sflt || (s.phase q).ot || (s.carrier (q / 4)).isNone

/-- CLRTRIP goes to a phase with its next DUTY (R359). -/
def State.sendClr (s : State) (q : Nat) : State :=
  if s.holder then s.phaseMod q fun p => { p with clr := true } else s

/-- PHASE_CLEAR (R359) of one phase. -/
def State.clearPhase (s : State) (r q : Nat) : Reply :=
  if s.role q ≠ 2 ∧ s.pst q ≠ 8 then ok s
  else
    let s := s.sendClr q
    if s.phaseBad q then bad s 0x1B
    else ok ((s.phaseSpare q).logC (.host r) 2 0 0x0601 4 q 2 1)

/-- PHASE_CLEAR (R359) of a held group: its tripped phases return, and the hold ends. -/
def State.clearGroup (s : State) (r g : Nat) : Reply :=
  let qs := (groupPhases g).filter fun q => (s.pst q == 8 || s.role q == 2) && s.get (Reg.STL_PSTAT_CAUSE q) == 1
  let s := qs.foldl (fun s q => s.sendClr q) s
  if qs.any s.phaseBad then bad s 0x1B
  else
    let s := qs.foldl (fun s q => s.phaseSpare q) s
    let s := s.chsMod fun c => { c with heldGrp := c.heldGrp.filter (· != g), trips := Tab.del c.trips g }
    ok ((s.groupDet g).logC (.host r) 2 0 0x0601 4 (0x80 + g) 1 0)

/-- PHASE_CLEAR (R359). The codes 0x80 to 0x84 name a group while that group is held, and else the phase of that number
(log entry 21). -/
def execPhaseClear (r : Nat) (d : Desc) (s : State) : Out State :=
  let q := bits d.p0 0 8
  .next (s.cmd r 0x0601 d { priv := 2, standby := true, parOk := decide (q < 156) } fun s =>
    if 0x80 ≤ q ∧ q ≤ 0x84 ∧ s.groupHeld (q - 0x80) then s.clearGroup r (q - 0x80) else s.clearPhase r q)

/-- PHASE_ROLE (R359). -/
def execPhaseRole (r : Nat) (d : Desc) (s : State) : Out State :=
  let q := bits d.p0 0 8
  .next (s.cmd r 0x0602 d { priv := 2, standby := true, parOk := decide (q < 156 ∧ d.p1 ≤ 1) } fun s =>
    if s.pst q = 8 ∨ s.role q = 2 then refuse s 1
    else if d.p1 = 1 ∧ q < 52 ∧ s.mrset.contains q then refuse s 2
    else
      let (n, s) := s.stage1 r 4 0x0602 q (s.role q) d.p1 s.leadPeriod (.phaseRole q d.p1)
      staged s n)

/-- A role is imposed (R333): a phase that becomes SPARE leaves service, shed over 8 periods when it carries load; in a burst it is shed
once the burst has ended. -/
def State.imposeRole (s : State) (q role : Nat) : State :=
  if s.role q = 2 then s
  else
    let s := s.setRole q role
    if role = 0 then (s.phaseMod q fun p => { p with leaving := false }).reserveCheck (phaseKind q)
    else
      let s := if s.pst q = 4 ∨ s.pst q = 6 then s.shedOff q else if s.pst q = 1 ∨ s.pst q = 2 then s.phaseOut q 0 else s
      s.reserveCheck (phaseKind q)

/-- LINK_RETRAIN (R359). An up link is taken down without a detector and its phases keep their states. -/
def execLinkRetrain (r : Nat) (d : Desc) (s : State) : Out State :=
  let l := bits d.p0 0 6
  .next (s.cmd r 0x0603 d { priv := 2, standby := true, parOk := decide (l < 40) } fun s =>
    if 39 ≤ l ∨ !s.linkMapped l then refuse s 1
    else if s.linkUp l then
      if ((List.range 4).map fun j => 4 * l + j).any fun q => s.pst q != 8 && s.pst q != 0 then bad s 0x16
      else ok (((s.setUp l false).linkTrain l).logC (.host r) 2 0 0x0603 4 l 1 0)
    else if (s.link l).training then ok s
    else ok ((s.linkTrain l).logC (.host r) 2 0 0x0603 4 l 0 0))

/-- LINK_RETRAIN_ATTEMPT (R344): training of a down link is tried once its 1 ms is over. -/
def State.retrain (s : State) (l : Nat) : State :=
  let due := s.glb.chaseUp && !s.linkUp l && !(s.link l).training && decide ((s.link l).retry ≤ s.time)
  let has := if l = 39 then s.spareUsed else s.linkMapped l
  if due && has then s.linkTrain l else s

/-- LINK_RETRAIN_ATTEMPT (R344). -/
def execLinkRetrainAttempt (link : Nat) (s : State) : Out State := .next (s.retrain link)

/-! ## The settings map (R606) -/

/-- The value that a field will have once its pending writes have taken effect (R603). -/
def State.pendOf (s : State) (f : Fld) : Nat :=
  ((s.pendW.filter fun w => w.fld == f.key).getLast?.map (·.value)).getD (s.get f)

/-- A write to a half of STL_LMAP waits for the next period boundary and is logged (R361, R606). -/
def State.linkMapWrite (s : State) (hi : Bool) (v : Nat) : State :=
  let sh := if hi then 32 else 0
  let p := s.pendOf Reg.STL_LMAP
  let v := if hi then v % 256 else v
  let s := s.later Reg.STL_LMAP (putBits p sh 32 v) .period
  s.logC regOrigin 1 0 0 4 (if hi then 0x50 else 0x4C) (bits p sh 32) v

/-- LINK_MAP_WRITE (R606). -/
def execLinkMapWrite (hi : Bool) (v : Nat) (s : State) : Out State := .next (s.hostWrite fun s => s.linkMapWrite hi v)

/-- A link leaves the map: idle, with the spare link that stood in for it; its armed phases removed and replaced, no detector raised
(R606). A halted module changes no role (R609). -/
def State.mapLeave (s : State) (l : Nat) : State :=
  let s := if s.sparesFor l then s.spareFree else s
  let s := if s.linkUp l then s.setUp l false else s
  let s := s.linkMod l fun _ => {}
  let s := ((List.range 4).map fun j => 4 * l + j).foldl
    (fun s q => if s.armed q && !s.halted then s.phaseFail q 5 false else s.phaseUnmapped q) s
  if (List.range 39).any fun k => s.linkMapped k && !s.linkUp k && !(s.link k).training then s else s.levelOff (detN 14 0)

/-- The map has changed from `old` at a boundary: it is held in the settings store (R606). -/
def State.mapApply (s : State) (old : Nat) : State :=
  let new := s.get Reg.STL_LMAP
  let s := if new = old then s else s.setNv Reg.STL_LMAP new
  if !s.glb.chaseUp then s
  else
    (List.range 39).foldl (fun s l =>
      if bit old l && !bit new l then s.mapLeave l
      else if !bit old l && bit new l then s.linkTrain l
      else s) s

/-- Stage CHASE begins: a phase whose role is FAILED is FAILED (R346), the links of the map train, and the phases of the others are
FAILED with cause 5 (R344, R606). -/
def State.stageStart (s : State) : State :=
  let s := (List.range 156).foldl (fun s q => if s.role q = 2 then s.set (Reg.STL_PSTAT_STATE q) 8 else s) s
  (List.range 39).foldl (fun s l =>
    if s.linkMapped l then s.linkTrain l
    else ((List.range 4).map fun j => 4 * l + j).foldl (fun s q => s.phaseUnmapped q) s) s

end Sys2Proof.Machine
end

