-- ==== Sys2Proof/Machine/Law.lean ====
section
/-!
DEFINITION. The Chase law (R298 to R319): measured quantities, protection and window logic, the ramp limiter (R388 to
R395), the control loops with their supervision, the duties, and the overrun of the law.
-/
namespace Sys2Proof.Machine

/-! ## Loops (R302 to R313) -/

/-- A coefficient bank of a loop (R307). -/
structure Bank where
  kp : Int
  ki : Int
  ulo : Int
  uhi : Int
  slew : Nat
  fel : Nat
  fet : Nat
  per : Nat
deriving DecidableEq, Repr

/-- Where a bank of a loop stands in the register file. -/
def bankIdx (n b : Nat) : Nat := n + 256 * b

/-- Bank `b` of loop `n`. -/
def State.bank (s : State) (n b : Nat) : Bank :=
  let i := bankIdx n b
  { kp := s.getS (Reg.CHS_LKP i), ki := s.getS (Reg.CHS_LKI i), ulo := s.getS (Reg.CHS_LULO i), uhi := s.getS (Reg.CHS_LUHI i),
    slew := s.get (Reg.CHS_LSLEW i), fel := s.get (Reg.CHS_LFEL i), fet := s.get (Reg.CHS_LFET_FET i),
    per := s.get (Reg.CHS_LFET_PER i) }

/-- The law of R303, and in the first period after a reclose that of R309: integrator, v, w and u. -/
def loopLaw (b : Bank) (x : LoopC) (e : Int) : Int × Int × Int × Int :=
  let lo := b.ulo * 65536
  let hi := b.uhi * 65536
  match x.reclose with
  | some uf =>
    let star := clampI b.ulo b.uhi uf
    let i := clampI lo hi (star * 65536 - b.kp * e)
    let v := rne (b.kp * e + i) 16
    let w := clampI b.ulo b.uhi v
    (i, v, w, if b.slew = 0 then w else clampI (uf - b.slew) (uf + b.slew) w)
  | none =>
    let i := if b.ki = 0 then x.x else clampI lo hi (x.x + b.ki * e)
    let v := rne (b.kp * e + i) 16
    let w := clampI b.ulo b.uhi v
    (i, v, w, if b.slew = 0 then w else clampI (x.u - b.slew) (x.u + b.slew) w)

/-- A loop whose output this period is not set by its law (R310): a period that set no SAT, clean when the output lies in its limits. -/
def loopCalm (b : Bank) (x : LoopC) : LoopC := { x with clean := if b.ulo ≤ x.u ∧ x.u ≤ b.uhi then x.clean + 1 else 0 }

/-- One period of a loop: `ry` none makes it a HOLD period (R298). An open loop keeps its output and integrator (R308). -/
def loopPeriod (b : Bank) (x : LoopC) (ry : Option (Int × Int)) : LoopC :=
  let inLim := fun (u : Int) => decide (b.ulo ≤ u ∧ u ≤ b.uhi)
  match ry with
  | none => loopCalm b { x with hold := true }
  | some (r, y) =>
    let e := satS 32 (r - y)
    if x.isOpen then loopCalm b { x with e := e, hold := false }
    else
      let (i, v, w, u) := loopLaw b x e
      let sat := v != w || w != u
      { x with x := i, u := u, e := e, hold := false, reclose := none, sat := x.sat || sat,
               clean := if sat || !inLim u then 0 else x.clean + 1 }

/-- The detector of a loop's kind (R312). -/
def loopDet (n : Nat) : Nat := if n < 156 then detN 13 3 else if n < 161 then detN 13 4 else if n = 161 then detN 13 5 else detN 13 6

/-- A following error is latched on loop `n`. -/
def State.feOn (s : State) (n : Nat) : Bool := bit (s.get (Reg.CHS_FESUM (n / 32))) (n % 32)

/-- Following-error supervision of a loop that has run (R312). -/
def State.supervise (s : State) (n : Nat) : State :=
  let x := s.loop n
  let b := s.bank n x.act
  if x.isOpen || x.hold || b.fel = 0 then s
  else
    let big := decide (b.fel < x.e.natAbs)
    let c := if big then satU 16 (x.fecnt + 1) else x.fecnt - 1
    let s := s.loopMod n fun x => { x with fecnt := c }
    if big ∧ x.fecnt < max 1 b.fet ∧ max 1 b.fet ≤ c ∧ s.holder then
      let s := s.loopMod n fun x => { x with fe := true }
      let w := s.get (Reg.CHS_FESUM (n / 32))
      let s := s.set (Reg.CHS_FESUM (n / 32)) (if bit w (n % 32) then w else w + 2 ^ (n % 32))
      let s := s.evt 3 0x0503 (le 2 n ++ le 1 (s.baseClass (loopDet n)) ++ le 1 x.act ++ le 4 (ofS 32 x.e) ++ s.pnum32)
      s.raise (loopDet n) 0 n
    else s

/-- A loop whose output its law does not set this period, at `u` (R310). -/
def State.loopAt (s : State) (n : Nat) (u : Int) : State :=
  s.loopMod n fun x => loopCalm (s.bank n x.act) { x with u := u }

/-- Loops whose law does not run this period: their outputs stand (R310). -/
def State.loopsCalm (s : State) (ns : List Nat) : State := ns.foldl (fun s n => s.loopAt n (s.loop n).u) s

/-- A loop takes its period: out of service its output is 0. -/
def State.loopRun (s : State) (n : Nat) (ry : Option (Int × Int)) : State :=
  if !s.inSvc n then (s.loopMod n fun x => { x with hold := false }).loopAt n 0
  else
    let b := s.bank n (s.loop n).act
    (s.loopMod n fun x => loopPeriod b x ry).supervise n

/-- Every loop takes a HOLD period (R299). -/
def State.holdAll (s : State) : State := (List.range 166).foldl (fun s n => s.loopRun n none) s

/-- A clear of following-error bits `v` of word `w` (R313): refused for a loop whose error still stands. -/
def State.fesumClear (s : State) (w v : Nat) : State :=
  (List.range 32).foldl (fun s j =>
    let n := 32 * w + j
    let x := s.loop n
    let b := s.bank n x.act
    if bit v j && s.feOn n then
      if s.inSvc n && !x.isOpen && b.fel != 0 && decide (b.fel < x.e.natAbs) then s.set Reg.CHS_FESTAT_CAUSE 1
      else s.set (Reg.CHS_FESUM w) (s.get (Reg.CHS_FESUM w) - 2 ^ j)
    else s) s

/-- FESUM_CLEAR (R313). -/
def execFesumClear (w v : Nat) (s : State) : Out State := .next (s.hostWrite fun s => s.fesumClear w v)

/-! ## Measured quantities (R299) -/

/-- V_bus: the median of the three named links, the mean of two, or the one that is left. -/
def State.vbusNow (s : State) : Option Nat :=
  let vs := sortBy (fun a b => decide (a ≤ b)) ([Reg.CHS_BUSV_L0, Reg.CHS_BUSV_L1, Reg.CHS_BUSV_L2].filterMap fun f =>
    match s.carrier (s.get f) with
    | some c => if (s.link c).got then some (s.link c).vbus else none
    | none => none)
  match vs with
  | [a] => some a
  | [a, b] => some (rne (a + b : Nat) 1).toNat
  | [_, b, _] => some b
  | _ => none

/-- The sum of five group currents, none when one of them is invalid. -/
def sumGroups (gs : List (Option Int)) : Option Int :=
  gs.foldl (fun a g => match a, g with
    | some x, some y => some (x + y)
    | _, _ => none) (some 0)

/-- V_bus is looked for: by the holder, and by any other seat once a link named in CHS_BUSV is up. DESIGN CHOICE (unsafe): before that no
seat could leave its start if the invalid V_bus of untrained links were a halt (R78, R299; log entry 21). -/
def State.busSeen (s : State) : Bool :=
  s.holder || [Reg.CHS_BUSV_L0, Reg.CHS_BUSV_L1, Reg.CHS_BUSV_L2].any fun f => (s.carrier (s.get f)).isSome

/-- The measured quantities of the period are formed, and its I_out joins the confirmation windows (R248, R299). -/
def State.measure (s : State) : State :=
  let s := (List.range 156).foldl (fun s q => s.measurePhase q) s
  let gs := (List.range 5).map s.groupSum
  let i := sumGroups gs
  let v := s.vbusNow
  let t := s.time + 520
  let s := s.chsMod fun c =>
    { c with igrp := gs, iPrev := c.iNow, iNow := i, v0 := v, v1 := c.v0, v2 := c.v1, iLast := i.getD c.iLast,
             vBad := if v.isNone && s.busSeen then c.vBad + 1 else 0,
             iHist := ((t, i.getD c.iLast) :: c.iHist).filter fun p => decide (t < p.1 + 4200000) }
  let s := match v with
    | some x => s.set Reg.CHS_VBUS x
    | none => s
  let s := match i with
    | some x => s.setS Reg.CHS_IOUT x
    | none => s
  let s := if s.glb.meterOk then s.set Reg.CHS_PGRID s.glb.meterW else s
  let s := s.confirmSample t i
  s.level (detN 13 0) 0 0 (decide (3 ≤ s.chs.vBad))

/-! ## Protection and window logic (R314, R315, R352, R353) -/

/-- The window is armed, or still waits for 1 ms within 780 V to 820 V (R315). -/
def State.windowArm (s : State) (within : Bool) : State :=
  if s.on Reg.CHS_STAT_WINARM || !s.token then s
  else if !within then s.chsMod fun c => { c with winSince := none }
  else
    match s.chs.winSince with
    | none => s.chsMod fun c => { c with winSince := some s.time }
    | some t => if t + 1000000 ≤ s.time then s.set Reg.CHS_STAT_WINARM 1 else s

/-- Why a burst is due: 1 level, 2 slope, 0 none (R314). -/
def State.burstDue (s : State) (v : Nat) : Nat :=
  let dvdt := s.get Reg.CHS_WIN0_DVDT
  if v < s.get Reg.CHS_WIN0_VBURST * 100 then 1
  else
    match s.chs.v2 with
    | some w => if dvdt ≠ 0 ∧ v + dvdt * 2 * s.periodNs / 1000 < w then 2 else 0
    | none => 0

/-- Burst goes on, or ends at the next boundary (R353, R601). -/
def State.burstGo (s : State) : State :=
  if !s.on Reg.STL_STAT_BURST then s.chsMod fun c => { c with burstAgo := c.burstAgo + b2n s.token }
  else
    let n := s.chs.burstN + b2n s.token
    let maxp := min 8 (max 2 (s.get Reg.STL_BURST2_MAXP))
    let low := match s.chs.v0 with
      | some v => min s.chs.burstLow v
      | none => s.chs.burstLow
    let good := match s.chs.v0, s.chs.v1 with
      | some v, some w => decide (s.get Reg.STL_BURST2_EXITV * 100 ≤ v ∧ w ≤ v)
      | _, _ => false
    s.chsMod fun c => { c with burstN := n, burstLow := low, burstOver := (decide (2 ≤ n) && good) || decide (maxp ≤ n) }

/-- Something of rank 1 governs the grid draw: the over-voltage hold or the grid converter's clamp (R395). -/
def State.gridHeld (s : State) : Bool := s.chs.ovp || (s.conv 0).clamp.isSome

/-- Something of rank 1 governs that the window may yield to (R4, R355, R395, R455, R602): the grid draw is held, the output gap of a
takeover lasts, an overload clamp is set, a string limit other than the rest clamp clamped a reference in the last law, or, as `cap`
says, the derate cap governs. -/
def State.rank1 (s : State) (cap : Bool) : Bool :=
  s.gridHeld || s.chs.gap || cap || s.chs.rmp.limHit || ((List.range 156).any fun q => (s.phase q).clamp.isSome) ||
    (List.range 5).any fun g => (s.conv g).clamp.isSome

/-- The proof that y comes from once it is `n` (R27): that of the grid-draw target, also while the target rolls back from it; then the
same one until y has reached a target `t` of another source. A measured y comes from none. -/
def State.yFrom (s : State) (n t : Int) : Option (Nat × Nat) :=
  if s.gridHeld then none
  else match s.gal.gridProof with
    | some p => some p
    | none => if n = t then none else s.chs.rmp.yProof

/-- The state that the entry of a proof is in now, or was in when it was last seen. -/
def State.proofNow (s : State) (p : Nat × Nat) : Nat :=
  let e := (s.gal.entries[p.1 % 8]?).getD {}
  if e.cyc = p.1 ∧ e.state ≠ 0 then e.state else p.2

/-- The Colophon record of a breach (R6, R395, R529). A greatest change that a proof drove is left out of it, and a reference to
that proof's entry is written instead (R27, log entry 91). -/
def State.breachSlug (s : State) (ranks dur w start n : Nat) (proof : Option (Nat × Nat)) : State :=
  match proof with
  | none => s.slug 0x10 ranks dur w start n
  | some p => (s.slug 0x10 ranks dur 0 start n).slug 0x30 (s.proofNow p) p.1 0x10 0 0

/-- An excursion from the bus window that lasts while rank 1 governs, or that began in the output gap of a takeover and has not come back
inside since; it ends after 1 ms without a period of it (R395, R602). An unarmed window is not in force (R315, log entry 91). -/
def State.excursion (s : State) (outside : Bool) (dy : Nat) (proof : Option (Nat × Nat) := none) (cap : Bool := false) : State :=
  let r := s.chs.rmp
  if !s.holder then s
  else if outside && ((s.on Reg.CHS_STAT_WINARM && s.rank1 cap) || (r.exAt.isSome && r.exGap)) then
    s.chsMod fun c => { c with rmp := match r.exAt with
      | none => { r with exAt := some s.time, exLast := s.time, exMax := dy, exN := 1, exProof := proof, exGap := c.gap }
      | some _ => { r with exLast := s.time, exMax := max r.exMax dy, exN := r.exN + 1, exProof := proof.or r.exProof } }
  else
    let s := if outside then s else s.chsMod fun c => { c with rmp := { c.rmp with exGap := false } }
    match r.exAt with
    | none => s
    | some t =>
      if s.time < r.exLast + 1000000 then s else
      let dur := (r.exLast + s.periodNs - t) / 1000
      let w := (r.exMax + 500000) / 1000000
      let s := s.evt 3 0x0510 (le 1 2 ++ le 1 1 ++ zeros 2 ++ le 4 dur ++ le 4 w)
      let s := (s.breachSlug (2 * 256 + 1) dur w (t / 1000000) r.exN r.exProof).raise (detN 13 8) 0 2
      s.chsMod fun c => { c with rmp := { c.rmp with exAt := none } }

/-- Protection and window logic, before any loop, with V_bus valid. The burst waits for the window to be armed; the window governs
whenever V_bus is outside it (R314). -/
def State.windowLogic (s : State) (v : Nat) : State :=
  let within := decide (780000 ≤ v ∧ v ≤ 820000)
  let s := s.windowArm within
  let armed := s.on Reg.CHS_STAT_WINARM
  let ovp := decide (s.get Reg.CHS_WIN1_VOVP * 100 < v) || (s.chs.ovp && !decide (v < s.get Reg.CHS_WIN1_VOVR * 100))
  let s := s.chsMod fun c => { c with govern := !within, ovp := ovp }
  let s := if s.holder then s.level (detN 13 9) 0 0 ovp else s
  -- rank 1 over rank 2 (R4): no burst begins in the over-voltage hold, which wants storage at its charge limit
  let why := if ovp then 0 else s.burstDue v
  if s.holder && armed && why != 0 && !s.on Reg.STL_STAT_BURST && (decide (2 ≤ s.chs.burstAgo) || decide (v < 780000)) then
    s.burstStart why v
  else s

/-! ## The shelf envelope and the ramp limiter (R388 to R395) -/

/-- The rack values in force: UP, DOWN, PMIN, PMAX (R399, R405). -/
def State.rackVals (s : State) : List Nat :=
  s.grp.rack.getD [s.get Reg.FEN_GRP_UP, s.get Reg.FEN_GRP_DN, s.get Reg.FEN_GRP_PMIN, s.get Reg.FEN_GRP_PMAX]

/-- A rack value of index `i` at shelf scale (R388). -/
def State.rackShare (s : State) (i : Nat) : Nat := (rne (((s.rackVals[i]?).getD 0 : Nat) * s.sigma) 16).toNat

/-- The derate cap of PMAX_s, when one applies (R396). -/
def State.derateCap (s : State) : Option Nat := if s.chs.rmp.f < 65536 then some (345000 * s.chs.rmp.f / 65536) else none

/-- The shelf envelope S_up, S_dn, PMIN_s, PMAX_s is derived anew (R388). -/
def State.envelope (s : State) : State :=
  let pmax := match s.derateCap with
    | some c => min (s.rackShare 3) c
    | none => s.rackShare 3
  let s := (s.set Reg.CHS_RMP_SUP (s.rackShare 0)).set Reg.CHS_RMP_SDN (s.rackShare 1)
  (s.set Reg.CHS_RMP_PMIN (min (s.rackShare 2) pmax)).set Reg.CHS_RMP_PMAX pmax

/-- The class of R390: true for QUIET. -/
def State.quiet (s : State) : Bool :=
  if s.gal.grid.rb then true
  else if !s.gal.grid.src || s.gal.plan.isSome then false
  else s.get Reg.PRS_GAL_STAT_GOVST != 4

/-- y takes a value; CHS_RMP_OUT shows it in W. -/
def State.setY (s : State) (y : Int) : State :=
  (s.chsMod fun c => { c with rmp := { c.rmp with y := y } }).set Reg.CHS_RMP_OUT (max 0 (divRne y 1000000)).toNat

/-- The limiter is held: y keeps its value and is loaded before it steps again (R392, R393). -/
def State.limiterHold (s : State) : State :=
  (s.set Reg.CHS_RMP_STAT_HOLD 1).chsMod fun c => { c with rmp := { c.rmp with reload := true, upAt := none } }

/-- One step of the limiter (R389, R394), from y: the new y, and whether the up or the down step clamped it. -/
def rampStep (governs : Bool) (unmet t up dn y : Int) : Int × Bool × Bool :=
  let d := t - y
  let free := governs && ((decide (0 < unmet) && decide (y < t)) || (decide (unmet < 0) && decide (t < y)))
  let n := if free then t else y + min (max d (-dn)) up
  let n := if governs then clampI 0 345000000000 n else n
  (n, !free && decide (up < d), !free && decide (d < -dn))

/-- A breach of the envelope ends (R395): ENVELOPE_BREACH, its record, detector 13.8. -/
def State.breachEnd (s : State) : State :=
  let r := s.chs.rmp
  match r.brAt with
  | none => s
  | some t =>
    let dur := (r.brLast + s.periodNs - t) / 1000
    let w := (r.brMax + 500000) / 1000000
    let s := s.evt 3 0x0510 (le 1 3 ++ le 1 r.brRank ++ zeros 2 ++ le 4 dur ++ le 4 w)
    let s := (s.breachSlug (3 * 256 + r.brRank) dur w (t / 1000000) r.brN r.brProof).raise (detN 13 8) 0 3
    (s.set Reg.CHS_RMP_STAT_BREACH 0).chsMod fun c => { c with rmp := { c.rmp with brAt := none } }

/-- A breach period, or its absence for 1 ms (R395). -/
def State.breachTick (s : State) (breach : Bool) (rank dy : Nat) (proof : Option (Nat × Nat) := none) : State :=
  let r := s.chs.rmp
  if !s.holder then s
  else if breach then
    let s := (s.bump Reg.CHS_RMP_BRCH).set Reg.CHS_RMP_STAT_BREACH 1
    s.chsMod fun c => { c with rmp := match r.brAt with
      | none => { c.rmp with brAt := some s.time, brLast := s.time, brRank := rank, brMax := dy, brN := 1, brProof := proof }
      | some _ => { c.rmp with brLast := s.time, brRank := min rank r.brRank, brMax := max r.brMax dy, brN := r.brN + 1, brProof := proof.or r.brProof } }
  else if s.time < r.brLast + 1000000 then s
  else s.breachEnd

/-- The limiter does not run in this period: y keeps its value, no breach period comes, and an excursion goes on (R392, R393,
R395). -/
def State.limiterOff (s : State) (v : Nat) : State :=
  (s.limiterHold.breachTick false 2 0).excursion (decide (v < 780000 ∨ 820000 < v)) 0

/-- The ramp limiter in a period of the full law, with V_bus valid (R389 to R395). -/
def State.limiter (s : State) (v : Nat) : State :=
  let s := s.envelope
  let quiet := s.quiet
  let s := (s.setB Reg.CHS_RMP_STAT_CLASS quiet).setB Reg.CHS_RMP_STAT_WINGOV s.chs.govern
  if !s.glb.meterOk then s.limiterOff v
  else
    let s := s.set Reg.CHS_RMP_STAT_HOLD 0
    let pg : Int := (s.get Reg.CHS_PGRID : Nat) * 1000000
    let r := s.chs.rmp
    -- after a hold y is loaded with the measured draw, and G0 recloses at its held output (R392, R393)
    let s := if r.reload then
        let s := if (s.loop 156).isOpen then s else s.loopClose 156 (s.loop 156).u
        s.chsMod fun c => { c with rmp := { c.rmp with y := pg, reload := false } }
      else s
    let y := s.chs.rmp.y
    let pmin : Int := (s.get Reg.CHS_RMP_PMIN : Nat)
    let pmax : Int := (s.get Reg.CHS_RMP_PMAX : Nat)
    let full : Int × Int := ((s.get Reg.CHS_RMP_SUP * s.periodNs : Nat), (s.get Reg.CHS_RMP_SDN * s.periodNs : Nat))
    let up := if quiet then full.1 / 8 else full.1
    let dn := if quiet then full.2 / 8 else full.2
    let es := ((List.range 4).map fun k => (s.loop (162 + k)).u).foldl (· + ·) 0
    let tin := s.gal.grid.val + divRne (es * (v : Int)) 1000000 * 1000000
    let t := clampI (pmin * 1000000) (pmax * 1000000) tin
    let t := if s.chs.govern then t + r.unmet * (v : Int) else t
    let (n, cu, cd) := if s.gridHeld then (pg, false, false) else rampStep s.chs.govern r.unmet t up dn y
    -- a derate cap that falls faster than the step of the class governs (R391)
    let falls := decide ((if quiet then s.get Reg.CHS_RMP_SDN / 8 else s.get Reg.CHS_RMP_SDN) < r.capRate)
    let (n, cap) : Int × Bool := match s.derateCap with
      | some c => if (c : Int) * 1000000 < n ∧ falls ∧ !s.gridHeld then ((c : Int) * 1000000, true) else (n, false)
      | none => (n, false)
    let from_ := s.yFrom n t
    let proof := from_.or r.yProof
    let dy := (n - y).natAbs
    let off := decide (full.1 < n - y) || decide (n - y < -full.2) || decide (n < pmin * 1000000) || decide (pmax * 1000000 < n)
    let rank := if s.gridHeld || cap then 1 else 2
    let s := s.setY n
    let s := (s.setB Reg.CHS_RMP_STAT_CLAMPUP cu).setB Reg.CHS_RMP_STAT_CLAMPDN cd
    let s := s.chsMod fun c => { c with rmp := { c.rmp with upAt := if cu then some (c.rmp.upAt.getD s.time) else none, yProof := from_ } }
    let s := s.breachTick (off && (s.gridHeld || s.chs.govern || cap)) rank dy proof
    s.excursion (decide (v < 780000 ∨ 820000 < v)) dy proof cap

/-! ## The law (R301, R305, R306) -/

/-- The bus setpoint: the soft start of R328, then 800,000 mV and the trim (R304), which the plain law does not read (R317). -/
def State.busSet (s : State) (v : Nat) : State :=
  if !s.on Reg.CHS_STAT_SOFT then
    s.chsMod fun c => { c with setMv := some (if s.on Reg.CHS_STAT_LAW then 800000 else (800000 + s.gal.trim.val).toNat) }
  else
    let d := (if s.get Reg.CHS_SOFT_SLOPE = 0 then 20 else s.get Reg.CHS_SOFT_SLOPE) * s.periodNs / 1000
    let m := s.chs.setMv.getD v
    let n := if m ≤ 800000 then min 800000 (m + d) else max 800000 (m - d)
    (s.setB Reg.CHS_STAT_SOFT (decide (n ≠ 800000))).chsMod fun c => { c with setMv := some n }

/-- A storage group reference before its clamp (R305): I_plan + Delta + I_v + E. -/
def State.refRaw (s : State) (st : Nat) : Int :=
  ((s.gal.iplan[st]?).getD {}).val + ((s.gal.delta[st]?).getD {}).val + s.stringShare (s.loop 161).u st + (s.loop (162 + st)).u

/-- The clamped storage group references, and the unmet bus demand (R305, R394). In the over-voltage hold storage is driven
to its charge limit (R314). -/
def State.storageRefs (s : State) : State :=
  let xs := (List.range 4).map fun st => (s.refRaw st, clampI (-(s.limC st : Nat)) (s.limD st : Nat) (s.refRaw st))
  let u := (xs.map fun x => x.1 - x.2).foldl (· + ·) 0
  let rs := if s.chs.ovp then (List.range 4).map fun st => -((s.limC st : Nat) : Int) else xs.map (·.2)
  let hit := (List.range 4).any fun st => let z := s.refRaw st; decide (z < -(s.hardC st : Int) ∨ (s.hardD st : Int) < z)
  s.chsMod fun c => { c with rs := rs, rmp := { c.rmp with unmet := u, limHit := hit } }

/-- The energy loop of a string: every 10th period, and not in a burst or a rest (R306, R352, R460). -/
def State.energyIn (s : State) (st : Nat) : Option (Int × Int) :=
  if s.get Reg.CHS_PNUM % 10 ≠ 0 ∨ s.on Reg.STL_STAT_BURST ∨ s.on (Reg.BUP_EST_STAT_RESTING st) then none
  else some ((s.get (Reg.BUP_EST_TGT_TGT st) : Nat), (s.get (Reg.BUP_EST_SOC_EST st) : Nat))

/-- Phases of a group in RUN, SHED, BURST or EST. -/
def State.groupArmed (s : State) (g : Nat) : Nat := (groupPhases g).countP s.armed

/-- The reference of each armed phase of a group, clamped for the converter's overload (R355). The over-voltage hold drives a storage group
to its charge limit also where its loop is open or holds (R4, R314). -/
def State.groupOut (s : State) (plain : Bool) (g : Nat) : Int :=
  let n := s.groupArmed g
  let x := s.loop (156 + g)
  let u : Int :=
    if g = 0 then x.u
    else if !plain && s.chs.ovp && (x.isOpen || x.hold) then (if n = 0 then 0 else -((s.limC (g - 1) : Nat) : Int) / (n : Int))
    else if !plain then x.u
    else if n = 0 then 0
    else (if s.chs.ovp then -((s.limC (g - 1) : Nat) : Int) else s.stringShare (s.loop 161).u (g - 1)) / (n : Int)
  match (s.conv g).clamp with
  | some c => if n = 0 then u else clampI (-(c / n : Nat)) (c / n : Nat) u
  | none => u

/-- The reference of a phase: the group output by its factor, within its own overload clamp (R349, R355, R358). -/
def State.phaseRef (s : State) (q : Nat) (gu : Int) : Int :=
  let u := if s.pst q = 3 then 0 else gu * (s.get (Reg.STL_PSTAT_FACTOR q) : Nat) / 8
  match (s.phase q).clamp with
  | some c => clampI (-(c : Nat)) (c : Nat) u
  | none => u

/-- The MODE sent to a phase (R338, R346). -/
def State.phaseMode (s : State) (q : Nat) : Nat :=
  if (s.phase q).clr then 4
  else
    match s.pst q with
    | 0 => 0
    | 3 => if (s.phase q).job = 3 then 2 else 1
    | 4 | 5 | 7 => 2
    | 6 => if s.burstBarred q then 2 else 3
    | 8 => if (s.carrier (q / 4)).isSome then 1 else 0
    | _ => 1

/-- The loop of a phase runs and its duty is packed (R304, R308, R314, R352). Rank 1 takes a phase of a burst back to its loop, which
closes with its last burst duty (R4), unless a change list holds it open (R308). -/
def State.phaseLaw (s : State) (q : Nat) (gu : Int) : State :=
  let barred := s.burstBarred q
  let s := if s.pst q = 6 && barred && !(s.loop q).isOpen && (s.phase q).sent == 3 then s.loopClose q (s.loop q).u else s
  let s :=
    if s.pst q = 6 && !barred then s.loopAt q (min 62259 (s.get (Reg.STL_POFS_ZD q) + s.get Reg.STL_BURST_BOFS) : Nat)
    else if q < 52 ∧ s.chs.ovp then s.loopAt q 0
    else s.loopRun q ((s.phase q).cur.map fun i => (s.phaseRef q gu, i))
  s.phaseMod q fun p => { p with duty := (s.loop q).u.toNat, sent := s.phaseMode q }

/-- Parts 5 to 13 of the law with V_bus valid. -/
def State.lawBody (s : State) (plain : Bool) (v : Nat) : State :=
  let s := s.busSet v
  let bus := some (((s.chs.setMv.getD 800000 : Nat) : Int), (v : Int))
  let s :=
    if plain then ((s.limiterOff v).loopRun 161 bus).loopsCalm plainOpen
    else
      let s := s.limiter v
      let s := s.loopRun 156 (if s.glb.meterOk then some ((s.get Reg.CHS_RMP_OUT : Nat), (s.get Reg.CHS_PGRID : Nat)) else none)
      let s := s.loopRun 161 bus
      let s := (List.range 4).foldl (fun s st => s.loopRun (162 + st) (s.energyIn st)) s
      let s := s.storageRefs
      (List.range 4).foldl (fun s st => s.loopRun (157 + st)
        (if s.on Reg.STL_STAT_BURST && !s.chs.ovp && s.hardD st != 0 then none
         else ((s.chs.igrp[st + 1]?).getD none).map fun i => ((s.chs.rs[st]?).getD 0, i))) s
  let gu := (List.range 5).map (s.groupOut plain)
  (List.range 156).foldl (fun s q => s.phaseLaw q ((gu[phaseGroup q]?).getD 0)) s

/-- The protection and window logic of a period, whether its law completes or not (R314, R353). -/
def State.protect (s : State) : State :=
  (match s.chs.v0 with
    | some v => s.windowLogic v
    | none => s).burstGo

/-- The law of the period, with all its parts (R301); V_bus invalid makes every loop hold (R299, R314). -/
def State.law (s : State) : State :=
  let plain := s.on Reg.CHS_STAT_LAW
  let s := s.protect
  let s := if plain then s else s.takeVerdicts (s.time + s.periodNs + 520)
  match s.chs.v0 with
  | some v => s.lawBody plain v
  | none => s.holdAll.breachTick false 2 0

/-! ## Duration and overrun (R300, R301, R316 to R319) -/

/-- Lanes in service. -/
def State.lanes (s : State) : Nat := (List.range 18).countP fun u => (s.unit 5 u).st == 0

/-- The greatest duration of a law on `l` lanes, in cycles from cycle 200 (R301). -/
def lawBound (plain : Bool) (l : Nat) : Nat := if l = 0 then 65535 else if plain then cdiv 1668 l + 12 else cdiv 2030 l + 24

/-- The window of the law in cycles (R297). -/
def State.lawWindow (s : State) : Nat := s.get Reg.CHS_PERIOD_CYC * 8 / 10 - 240

/-- An overrun (R316, R319). -/
def State.overrun (s : State) (dur : Nat) : State :=
  let plain := s.on Reg.CHS_STAT_LAW
  let c := min 3 (s.get Reg.CHS_STAT_OVRC + 1)
  let s := (((s.bump Reg.CHS_OVR).count 4 3 1).set Reg.CHS_STAT_OVRC c).chsMod fun x => { x with plainOk := 0, overran := true }
  let s := s.evt 3 0x0501 (s.pnum32 ++ le 1 c ++ le 1 (b2n plain) ++ le 1 s.lanes ++ le 1 0 ++ le 4 dur)
  if !plain && decide (2 ≤ c) then s.chsMod fun x => { x with lawDue := some 1 }
  else if plain && decide (3 ≤ c) then s.raise (detN 13 2) 0 0
  else s

/-- The law runs on the clock of the period: its own duration is `cyc`, never above the bound of R301, and each residue
mismatch of `ls` adds 4 cycles. -/
def State.lawTimed (s : State) (cyc : Nat) (ls : List Nat) : State :=
  let plain := s.on Reg.CHS_STAT_LAW
  let s := ls.foldl (fun s u => s.wearHit 5 3 u 3600000000000 (s.get Reg.SPR_WTHR0_LANEREP)) s
  let s := ((List.range 18).filter fun u => decide (2 ≤ ls.count u)).foldl (fun s u => s.raise (detN 13 1) 0 u) s
  let dur := min cyc (lawBound plain s.lanes) + 4 * ls.length
  let s := (s.count 4 2 dur).count 4 4 ls.length
  let s := (s.set Reg.CHS_LAWCYC_LAST (satU 16 dur)).set Reg.CHS_LAWCYC_MAX (max (satU 16 dur) (s.get Reg.CHS_LAWCYC_MAX))
  if s.lawWindow < dur then ((s.overrun dur).protect).loopsCalm (List.range 166)
  else
    let s := (s.set Reg.CHS_STAT_OVRC 0).chsMod fun x => { x with overran := false, plainOk := if plain then x.plainOk + 1 else 0 }
    s.law

/-- SAMPLE_CUT (R298 to R301): missing samples are fixed, quantities and filters formed, findings taken, and the law runs:
that of the holder. A standby's law runs at SHADOW_LAW (R498). -/
def State.sampleCut (s : State) (cyc : Nat) (ls : List Nat) : State :=
  if !s.glb.chaseUp then s
  else
    let s := s.cutLinks.measure
    let s := (List.range 156).foldl (fun s q => s.olPhase q) s
    let s := (List.range 5).foldl (fun s g => s.olConv g) s
    let s := if s.holder then (List.range 156).foldl (fun s q => s.tripFound q) s else s
    let s := (List.range 156).foldl (fun s q => s.findFault q) s
    let s := if s.holder then s.lawTimed cyc ls else s
    s.cfgOut

/-- SAMPLE_CUT (R301). -/
def execSampleCut (cyc : Nat) (lanes : List Nat) (s : State) : Out State := .next (s.sampleCut cyc lanes)

/-- The duty digest of the outputs that are now ready (R499): the CRC-32 over bytes 8 to 19 of the DUTY frames of the boards
of links 0 to 38, in link order. -/
def State.dutyDigest (s : State) : Nat := crc32 ((List.range 39).flatMap fun l => s.dutyBody false l)

/-- OUTPUT_LATCH (R296): the token holder sends its duties; after a halt the SAFE frames of R343 go out. -/
def State.outputLatch (s : State) : State :=
  if !s.glb.chaseUp then s
  else if 9 ≤ s.glb.safeLeft then s.safeFirst
  else if s.glb.safeLeft ≠ 0 then
    let s := s.dutyOut true
    { s with glb := { s.glb with safeLeft := s.glb.safeLeft - 1 } }
  else if s.holder then
    let s := s.dutyOut false
    let s := (List.range 156).foldl (fun s q =>
      if (s.phase q).clr && (s.phase q).sent == 4 then s.phaseMod q fun p => { p with clr := false } else s) s
    let s := s.chsMod fun c => { c with gap := false }
    { s with ros := { s.ros with duty := s.dutyDigest } }
  else s

/-- OUTPUT_LATCH (R296). -/
def execOutputLatch (s : State) : Out State := .next s.outputLatch

end Sys2Proof.Machine
end

