-- ==== Sys2Proof/Machine/Cells.lean ====
section
/-!
DEFINITION. Cell state estimation (R445 to R468): the tables, the cell model, the limits, reported SoC, string records,
rests and the drift check.
-/
namespace Sys2Proof.Machine

/-! ## Tables (R449 to R451) -/

/-- The default temperature points, 0.1 C (R449). -/
def tempPoints : List Int := [-200, -100, 0, 100, 200, 300, 450, 600]

/-- The default rate points, 0.01 C (R449). -/
def ratePoints : List Int := [-500, -100, 0, 100, 500, 1000]

/-- The SoC table as delivered: the manual gives its axes and not its voltages. They are open, and rise strictly along
each curve (R451). -/
def socDelivered : SocTab where
  temps := tempPoints
  rates := ratePoints
  volts := (List.range 528).map fun k =>
    (List.range (k % 11 + 1)).foldl (fun a j => a + Config.storeValue (k - k % 11 + j) % 5957 + 1) 0

/-- The default impedance table as delivered: open values within the limits of R451. -/
def impDelivered : ImpTab where
  temps := tempPoints
  ent := (List.range 88).map fun k => (List.range 5).map fun j =>
    let v := Config.storeValue (1000 + 5 * k + j)
    if j = 2 ∨ j = 4 then 40 + v % 65496 else 100 + v % 19901

/-- The SoC table in force. -/
def State.socTab (s : State) : SocTab := s.est.soc.getD socDelivered

/-- The default impedance table in force. -/
def State.impTab (s : State) : ImpTab := s.est.imp.getD impDelivered

/-- The record of position `st`: its index (R458). -/
def State.recIdx (s : State) (st : Nat) : Option Nat := (List.range 8).find? fun k => (s.est.recs[k]?).any fun r => r.pos == st

/-- The record of position `st`. -/
def State.rec_ (s : State) (st : Nat) : StrRec := ((s.recIdx st).bind fun k => s.est.recs[k]?).getD {}

/-- Changes the settings store's part of the estimator. -/
def State.estMod (s : State) (f : EstNv → EstNv) : State := { s with est := f s.est }

/-- Changes the record of position `st`. -/
def State.recMod (s : State) (st : Nat) (f : StrRec → StrRec) : State :=
  match s.recIdx st with
  | none => s
  | some k => s.estMod fun e => { e with recs := e.recs.modify k f }

/-- The impedance table of a string. -/
def State.strTab (s : State) (st : Nat) : ImpTab := (s.rec_ st).table.getD s.impTab

/-- The capacity of a string in mAh: 0 acts as 10,000 (R467). -/
def State.capOf (s : State) (st : Nat) : Nat := let c := (s.rec_ st).cap; if c = 0 then 10000 else c

/-- lerp of R451. -/
def lerp (x x0 x1 y0 y1 : Int) : Int := y0 + divRne ((y1 - y0) * (x - x0)) (x1 - x0).toNat

/-- A value held between the ends of an axis, and the index of the axis step it lies in. -/
def axisPos (axis : List Int) (x : Int) : Int × Nat :=
  let c := clampI (axis.head?.getD 0) (axis.getLast?.getD 0) x
  (c, min (axis.length - 2) ((axis.drop 1).findIdx fun y => decide (c < y)))

/-- Interpolation along one axis: `f` gives the value at an axis point. -/
def alongAxis (axis : List Int) (x : Int) (f : Nat → Int) : Int :=
  let (c, k) := axisPos axis x
  lerp c ((axis[k]?).getD 0) ((axis[k + 1]?).getD 0) (f k) (f (k + 1))

/-- The curve V[0] to V[10] in uV at a temperature and a rate: temperature first, then rate (R451, R452). -/
def SocTab.curve (t : SocTab) (temp rate : Int) : List Int :=
  (List.range 11).map fun j => alongAxis t.rates rate fun r =>
    alongAxis t.temps temp fun k => (((t.volts[11 * (6 * k + r) + j]?).getD 0 * 100 : Nat) : Int)

/-- The SoC points of both tables in fine units. -/
def socPoints : List Int := (List.range 11).map fun j => ((10000000 * j : Nat) : Int)

/-- Parameter `k` of an impedance table at a temperature and a SoC: temperature first, then SoC (R451). -/
def ImpTab.look (t : ImpTab) (temp z : Int) (k : Nat) : Int :=
  alongAxis socPoints z fun j => alongAxis t.temps temp fun i =>
    (((((t.ent[11 * i + j]?).getD [])[k]?).getD 0 : Nat) : Int)

/-- A list rises strictly. -/
def rises : List Int → Bool
  | a :: b :: t => decide (a < b) && rises (b :: t)
  | _ => true

/-- The bytes of a SoC table (R449). -/
def SocTab.bytes (t : SocTab) : List Byte :=
  let b := le 2 1 ++ zeros 2 ++ t.temps.flatMap (fun x => le 2 (ofS 16 x)) ++ t.rates.flatMap (fun x => le 2 (ofS 16 x)) ++
    t.volts.flatMap (le 2)
  b ++ le 4 (crc32 b)

/-- The bytes of an impedance table (R450). -/
def ImpTab.bytes (t : ImpTab) : List Byte :=
  let b := le 2 1 ++ zeros 2 ++ t.temps.flatMap (fun x => le 2 (ofS 16 x)) ++ zeros 12 ++
    t.ent.flatMap fun e => e.flatMap (le 2)
  b ++ le 4 (crc32 b)

/-- A SoC table from its bytes, when R451 takes it. -/
def socOf (b : List Byte) : Option SocTab :=
  let t : SocTab := { temps := (List.range 8).map fun i => toS 16 (rd b (4 + 2 * i) 2)
                      rates := (List.range 6).map fun i => toS 16 (rd b (20 + 2 * i) 2)
                      volts := (List.range 528).map fun i => rd b (32 + 2 * i) 2 }
  let curves := (List.range 48).all fun c => rises ((List.range 11).map fun j => (((t.volts[11 * c + j]?).getD 0 : Nat) : Int))
  if b.length = 1092 ∧ rd b 0 2 = 1 ∧ rd b 1088 4 = crc32 (b.take 1088) ∧ rises t.temps ∧ rises t.rates ∧ curves then some t
  else none

/-- An impedance table from its bytes, when R451 takes it. -/
def impOf (b : List Byte) : Option ImpTab :=
  let t : ImpTab := { temps := (List.range 8).map fun i => toS 16 (rd b (4 + 2 * i) 2)
                      ent := (List.range 88).map fun k => (List.range 5).map fun j => rd b (32 + 10 * k + 2 * j) 2 }
  let good := t.ent.all fun e => e.zipIdx.all fun (v, j) =>
    if j = 2 ∨ j = 4 then decide (40 ≤ v) else decide (100 ≤ v ∧ v ≤ 20000)
  if b.length = 916 ∧ rd b 0 2 = 1 ∧ rd b 912 4 = crc32 (b.take 912) ∧ rises t.temps ∧ good then some t else none

/-! ## The cell model (R446, R452) -/

/-- The current of every cell of a string in mA, positive for discharge (R446); 0 before the string has a voltage. -/
def State.cellCur (s : State) (st : Nat) (istr : Option Int) (vbus : Nat) : Int :=
  match istr with
  | some i => if (s.strX st).volt = 0 then 0 else divRne (i * (vbus : Nat)) (s.strX st).volt
  | none => 0

/-- A reading for the estimator: uV, full weight or a quarter, from the coarse path (R448). -/
structure CellIn where
  uv : Nat
  full : Bool
  coarse : Bool := false
deriving DecidableEq, Repr

/-- SoC of a compensated voltage on a curve (R452). -/
def curveSoc (v : List Int) (u : Int) : Int :=
  let at_ := fun k => (v[k]?).getD 0
  if u ≤ at_ 0 then 0
  else if at_ 10 ≤ u then 100000000
  else
    let j := ((v.drop 1).findIdx fun y => decide (u < y))
    10000000 * (j : Int) + divRne ((u - at_ j) * 10000000) (at_ (j + 1) - at_ j).toNat

/-- One reading of a cell (R452). `z0` is where impedance is looked up for a cell that has no estimate yet: the manual does
not say (log entry 8). -/
def CellX.step (c : CellX) (curve : List Int) (tab : ImpTab) (temp i z0 : Int) (now tf : Nat) (x : CellIn) : CellX :=
  let z := if c.on then c.z else z0
  let look := tab.look temp z
  let dt := (now - c.time) / 1000
  let a := fun k => max 0 (65536 - divRne (((dt * 65536 : Nat)) : Int) (look k * 1000).toNat)
  let rc := fun (v : Int) (kr kt : Nat) =>
    if c.on then rne (a kt * v + (65536 - a kt) * divRne (i * look kr) 1000) 16 else 0
  let v1 := rc c.v1 1 2
  let v2 := rc c.v2 3 4
  let u := (x.uv : Int) + divRne (i * look 0) 1000 + v1 + v2
  let zi := curveSoc curve u
  let w0 := min 65536 (divRne ((((dt / 1000) * 65536 : Nat)) : Int) tf)
  let w := if x.full then w0 else w0 / 4
  { c with on := true, z := if c.on then c.z + rne ((zi - c.z) * w) 16 else zi, v1 := v1, v2 := v2, u := u, zi := zi,
           uv := x.uv, full := x.full, coarse := x.coarse, time := now }

/-! ## Temperatures (R447) -/

/-- A thermistor that reads neither open nor shorted. -/
def thermGood (v : Nat) : Bool := v != 0x7FFF && v != 0x8000

/-- The mean of temperature readings. -/
def meanTemp (l : List Nat) : Option Int :=
  if l.isEmpty then none else some (divRne ((l.map (toS 16)).foldl (· + ·) 0) l.length)

/-- A ring. -/
def State.bring (s : State) (st : Nat) : BRing := Tab.get s.bup.rings st {}

/-- Changes a ring. -/
def State.bringMod (s : State) (st : Nat) (f : BRing → BRing) : State :=
  { s with bup := { s.bup with rings := Tab.put s.bup.rings st (f (s.bring st)) } }

/-- A node of a ring. -/
def BRing.node (r : BRing) (a : Nat) : NodeX := Tab.get r.nodes a {}

/-- Changes a node. -/
def State.nodeMod (s : State) (st a : Nat) (f : NodeX → NodeX) : State :=
  s.bringMod st fun r => { r with nodes := Tab.put r.nodes a (f (r.node a)) }

/-- The temperature of the cells of a node, and whether no thermistor of the string served (R447). -/
def State.nodeTemp (s : State) (st a : Nat) : Int × Bool :=
  let r := s.bring st
  match meanTemp ((r.node a).temp.filter thermGood) with
  | some t => (t, false)
  | none =>
    match meanTemp (r.nodes.flatMap fun e => e.2.temp.filter thermGood) with
    | some t => (t, false)
    | none => (toS 16 (s.get Reg.CHS_COOL_TEMP_HI), true)

/-! ## The string: S, V_str, limits (R453 to R456) -/

/-- The cells of a string that the estimator knows, with their node. -/
def State.liveCells (s : State) (st : Nat) : List (Nat × CellX) :=
  (s.bring st).nodes.flatMap fun e => (e.2.cells.filter (·.on)).map fun c => (e.1, c)

/-- The least of a list of numbers, and the greatest. -/
def leastI : List Int → Option Int
  | [] => none
  | x :: t => some (t.foldl min x)

/-- A value in 0.01 % as a register shows it (R445). -/
def pctOf (z : Int) : Nat := (clampI 0 65535 (divRne z 10000)).toNat

/-- z_cc of R463. -/
def State.zcc (s : State) (st : Nat) : Int :=
  let x := s.strX st
  x.ref - divRne (x.q * 100000000) (s.capOf st * 3600000 * 1000000)

/-- The registers of a string (R468). -/
def State.strRegs (s : State) (st : Nat) : State :=
  let x := s.strX st
  let s := (s.set (Reg.BUP_EST_SOC_REP st) (pctOf x.rep)).set (Reg.BUP_EST_SOC_EST st) (pctOf x.soc)
  let s := s.set (Reg.BUP_EST_CC_ZCC st) (pctOf (s.zcc st))
  let s := (s.set (Reg.BUP_EST_ULIM_UMIN st) (clampI 0 65535 (divRne x.umin 1000)).toNat).set (Reg.BUP_EST_ULIM_UMAX st)
    (clampI 0 65535 (divRne x.umax 1000)).toNat
  let s := (s.set (Reg.BUP_EST_ILIM_LD st) (s.limD st / 100)).set (Reg.BUP_EST_ILIM_LC st) (s.limC st / 100)
  s.set (Reg.BUP_EST_AGE_AGE st) (satU 32 ((s.time - x.last.getD 0) / 1000000000))

/-- S of R453 from the cell estimates. -/
def jumpView (zs : List Int) : Int :=
  match leastI zs with
  | none => 0
  | some lo =>
    let hi := zs.foldl max lo
    let d := 100000000 - (hi - lo)
    if d = 0 then 0 else divRne (lo * 100000000) d.toNat

/-- S of the string is formed anew; at the first estimate S_rep is set to it (R453, R456). -/
def State.putSoc (s : State) (st : Nat) : State :=
  let cs := s.liveCells st
  if cs.isEmpty then s
  else
    let v := jumpView (cs.map fun e => e.2.z)
    s.strMod st fun x => { x with soc := v, rep := if x.on then x.rep else v, ref := if x.on then x.ref else v, on := true }

/-- V_str in mV: the sum of the latest readings (R446). -/
def State.putVolt (s : State) (st : Nat) : State :=
  let v := ((s.liveCells st).map fun e => e.2.uv).foldl (· + ·) 0 / 1000
  s.strMod st fun x => { x with volt := v }

/-- The MINMAX values of a node compensated with the node cell whose last full reading was lowest, or highest (R454). -/
def NodeX.comp (n : NodeX) (tab : ImpTab) (temp i : Int) (low : Bool) (uv : Nat) : Int :=
  let cs := n.cells.filter (·.on)
  let pick := cs.foldl (fun (b : Option CellX) c => match b with
    | none => some c
    | some d => if (if low then decide (c.uv < d.uv) else decide (d.uv < c.uv)) then some c else some d) none
  match pick with
  | none => uv
  | some c => uv + divRne (i * tab.look temp c.z 0) 1000 + c.v1 + c.v2

/-- The MINMAX values in FAST, in uV, with their node (R431, R454): of the nodes whose fine path is good and has measured. -/
def State.minmaxOf (s : State) (st : Nat) : List (Nat × NodeX × Nat × Nat) :=
  let r := s.bring st
  if !r.fast then []
  else (r.nodes.filter fun e => !e.2.fault).filterMap fun e => match e.2.minmax with
    | some (lo, hi) => if lo = 0xFFFF ∨ hi = 0xFFFF then none else some (e.1, e.2, lo * 100, hi * 100)
    | none => none

/-- Raw readings from which v_lo and v_hi are formed, low and high, with their node (R454): the usable readings, in FAST the MINMAX values,
and of coarse-only cells what CMARG makes of theirs (R455). -/
def State.rawCells (s : State) (st : Nat) : List (Nat × Int × Int) :=
  let m : Int := (s.get Reg.BUP_EST_TAP_CMARG * 10000 : Nat)
  let mm := s.minmaxOf st
  let cs := if mm.isEmpty then s.liveCells st else (s.liveCells st).filter fun e => e.2.coarse
  cs.map (fun e => (e.1, (e.2.uv : Int) - (if e.2.coarse then m else 0), (e.2.uv : Int) + (if e.2.coarse then m else 0))) ++
    mm.map fun e => (e.1, ((e.2.2.1 : Nat) : Int), ((e.2.2.2 : Nat) : Int))

/-- The extremes of R454: u_min, u_max, v_lo, v_hi in uV, none while nothing has been read. -/
def State.extremes (s : State) (st : Nat) : Option (Int × Int × Int × Int) :=
  let r := s.bring st
  let m : Int := (s.get Reg.BUP_EST_TAP_CMARG * 10000 : Nat)
  let cs := (s.liveCells st).map (·.2)
  let mar := fun (c : CellX) => if c.coarse then m else 0
  let i := s.cellCur st ((s.chs.igrp[st + 1]?).join) (s.get Reg.CHS_VBUS)
  let mm := s.minmaxOf st
  let tab := s.strTab st
  let lows := mm.map fun (a, n, lo, _) => n.comp tab (s.nodeTemp st a).1 i true lo
  let highs := mm.map fun (a, n, _, hi) => n.comp tab (s.nodeTemp st a).1 i false hi
  let us := cs.map (fun c => c.u - mar c) ++ lows
  let uh := cs.map (fun c => c.u + mar c) ++ highs
  let raw := s.rawCells st
  match leastI us, leastI (raw.map (·.2.1)) with
  | some a, some c => some (a, uh.foldl max a, c, (raw.map (·.2.2)).foldl max c)
  | _, _ => none

/-- A limit after its taper (R455, step 2): `room` is the distance to the threshold in uV, `b` the band in mV. -/
def taper (lim : Nat) (room : Int) (b : Nat) : Nat :=
  if b = 0 then (if 0 < room then lim else 0)
  else lim * (clampI 0 ((b * 1000 : Nat) : Int) room).toNat / (b * 1000)

/-- A cell-limit condition of a string: EST_LIMIT at its beginning (R455, R466). -/
def State.limitKinds (s : State) (st : Nat) (now : List (Nat × Nat × Int)) : State :=
  let old := (s.strX st).kinds
  let s := s.strMod st fun x => { x with kinds := now.map (·.1) }
  let new := now.filter fun e => !old.contains e.1
  let s := new.foldl (fun s (e : Nat × Nat × Int) =>
    s.evt 5 0x0813 (le 1 st ++ le 1 e.1 ++ le 1 e.2.1 ++ le 1 0 ++ le 4 (ofS 32 e.2.2) ++ le 4 (s.get Reg.CHS_PNUM))) s
  if now.isEmpty then s.levelOff (detN 18 (12 + st)) else s.levelOn (detN 18 (12 + st)) 0 st

/-- The limits L_d and L_c of steps 1 to 4 (R455). -/
def State.putLimits (s : State) (st : Nat) : State :=
  match s.extremes st with
  | none => s
  | some (ulo, uhi, vlo, vhi) =>
    let mv := fun f => ((s.get f * 1000 : Nat) : Int)
    let b := s.get Reg.BUP_EST_TAP_VTAP * (if s.on (Reg.BUP_EST_STAT_CONF st) then 1 else 2)
    let d := taper (s.get Reg.BUP_EST_LIM_IDMAX * 100) (ulo - mv Reg.BUP_EST_THR_VEOD) b
    let c := taper (s.get Reg.BUP_EST_LIM_ICMAX * 100) (mv Reg.BUP_EST_THR_VEOC - uhi) b
    let nodes := (s.bring st).nodes.filter fun e => e.2.cells.any (·.on)
    let temps := nodes.map fun e => (e.1, (s.nodeTemp st e.1).1)
    let hot := temps.find? fun e => decide (s.getS Reg.BUP_EST_TEMP_TMAX ≤ e.2)
    let cold := temps.find? fun e => decide (e.2 ≤ s.getS Reg.BUP_EST_TEMP_TCMIN)
    let low := decide (vlo ≤ mv Reg.BUP_EST_HARD_VCUT)
    let high := decide (mv Reg.BUP_EST_HARD_VMAX ≤ vhi)
    let nodeOf := fun (p : Nat × Int × Int → Bool) => (((s.rawCells st).find? p).map (·.1)).getD 0
    let kinds : List (Nat × Nat × Int) :=
      (if low then [(1, nodeOf fun e => e.2.1 == vlo, vlo / 1000)] else []) ++
      (if high then [(2, nodeOf fun e => e.2.2 == vhi, vhi / 1000)] else []) ++
      (hot.map fun e => (3, e.1, e.2)).toList ++ (cold.map fun e => (4, e.1, e.2)).toList
    let s := s.strMod st fun x =>
      { x with ld := if low || hot.isSome then 0 else d, lc := if high || hot.isSome || cold.isSome then 0 else c
               umin := ulo, umax := uhi }
    s.limitKinds st kinds

/-- The estimator asks for FAST: u_min within 2B of VEOD, or u_max within 2B of VEOC (R455). -/
def State.estFast (s : State) (st : Nat) : Bool :=
  let x := s.strX st
  let b := ((s.get Reg.BUP_EST_TAP_VTAP * (if s.on (Reg.BUP_EST_STAT_CONF st) then 1 else 2) * 2000 : Nat) : Int)
  x.on && (decide (x.umin ≤ (s.get Reg.BUP_EST_THR_VEOD * 1000 : Nat) + b) ||
    decide (((s.get Reg.BUP_EST_THR_VEOC * 1000 : Nat) : Int) - b ≤ x.umax))

/-- The string after readings: V_str, S, limits, registers. -/
def State.strUpdate (s : State) (st : Nat) : State := (((s.putVolt st).putSoc st).putLimits st).strRegs st

/-! ## Rests (R460 to R464) -/

/-- A bit of BUP_EST_RSTAT.EARLY. -/
def State.setEarly (s : State) (st : Nat) (b : Bool) : State :=
  let v := s.get Reg.BUP_EST_RSTAT_EARLY
  s.set Reg.BUP_EST_RSTAT_EARLY (v - b2n (bit v st) * 2 ^ st + b2n b * 2 ^ st)

/-- CONF takes a value; CONFIDENCE at a change (R463, R466). -/
def State.setConf (s : State) (st : Nat) (b : Bool) : State :=
  if s.on (Reg.BUP_EST_STAT_CONF st) == b then s
  else (s.setB (Reg.BUP_EST_STAT_CONF st) b).evt 5 0x0812
    (le 1 st ++ le 1 (b2n b) ++ zeros 2 ++ le 4 (pctOf (s.strX st).soc) ++ le 4 (pctOf (s.zcc st)))

/-- The condition of R462 that fails first, 0 when none does: 1 another rest, 2 burst, 3 window, 4 ring, 5 margin. -/
def State.restFails (s : State) (st : Nat) : Nat :=
  let others := (List.range 4).filter (· != st)
  let lim := others.foldl (fun a k => a + (if 0 ≤ ((s.chs.igrp[k + 1]?).join).getD 0 then s.limD k else s.limC k)) 0
  let cur := (others.foldl (fun (a : Int) k => a + ((s.chs.igrp[k + 1]?).join).getD 0) 0).natAbs
  let ring := s.get (Reg.BUP_RSTAT_STATE st)
  if others.any fun k => (s.strX k).rest != 0 then 1
  else if s.on Reg.STL_STAT_BURST then 2
  else if !s.on Reg.CHS_STAT_WINARM || s.chs.govern then 3
  else if !s.ringOn st ∨ (ring ≠ 1 ∧ ring ≠ 2) then 4
  else if lim * 100 ≤ cur * (100 + s.get Reg.BUP_EST_TAP_RMARG) then 5
  else 0

/-- The string whose rest is due: an early one, else, with a rotation, the one whose last completed rest is oldest. -/
def State.restDue (s : State) : Option Nat :=
  let early := (List.range 4).find? fun st => bit (s.get Reg.BUP_EST_RSTAT_EARLY) st && decide ((s.strX st).tryAt ≤ s.time)
  match early with
  | some st => some st
  | none =>
    if s.get Reg.BUP_EST_REST_REST = 0 ∨ s.get Reg.BUP_EST_REST_INTV = 0 then none
    else
      let key : Nat → Nat := fun st => match (s.strX st).last with
        | some t => t + 1
        | none => 0
      (s.ringStrings.filter fun st => decide ((s.strX st).tryAt ≤ s.time) && (s.strX st).rest == 0).foldl
        (fun (b : Option Nat) st => match b with
          | none => some st
          | some c => if key st < key c then some st else some c) none

/-- REST_DUE (R460, R462): the rest begins, or is deferred; one deferred for 5 min is told once. -/
def execRestDue (s : State) : Out State :=
  .next (match s.restDue with
    | none => s
    | some st =>
      let k := s.restFails st
      if k ≠ 0 then
        let t0 := (s.strX st).defer.getD s.time
        let s := s.strMod st fun x => { x with defer := some t0 }
        if t0 + 300000000000 ≤ s.time ∧ !(s.strX st).told then
          let s := ((s.strMod st fun x => { x with told := true }).bump Reg.BUP_EST_RSTAT_DEFER)
          s.evt 5 0x0811 (le 1 st ++ le 1 k ++ zeros 2 ++ le 4 ((s.time - t0) / 60000000000) ++ zeros 4)
        else s
      else
        let i := s.cellCur st ((s.chs.igrp[st + 1]?).join) (s.get Reg.CHS_VBUS)
        let s := s.strMod st fun x =>
          { x with rest := 1, since := s.time, pass := 0, pre := i, learn := none, defer := none, told := false }
        let s := s.bringMod st fun r => { r with nodes := r.nodes.map fun e =>
          (e.1, { e.2 with cells := e.2.cells.map fun c => { c with pre := if c.on && c.full && c.snap == r.setId then some c.uv else none } }) }
        ((s.set (Reg.BUP_EST_STAT_RESTING st) 1).set Reg.BUP_EST_RSTAT_STR (st + 1)).setEarly st false)

/-- A rest ends without a reference (R462), which is counted as an objective that yields (R6); it is tried again after 30 s. -/
def State.restAbort (s : State) (st : Nat) : State :=
  let s := s.chsMod fun c => { c with yields := c.yields + 1 }
  let s := s.strMod st fun x => { x with rest := 0, learn := none, tryAt := s.time + 30000000000 }
  let s := (s.set (Reg.BUP_EST_STAT_RESTING st) 0).set Reg.BUP_EST_RSTAT_STR 0
  (s.setEarly st true).evt 5 0x0810
    (le 1 st ++ le 1 1 ++ zeros 2 ++ le 4 (pctOf (s.strX st).soc) ++ le 4 (pctOf (s.zcc st)))

/-- The fine readings of a string that are VALID and untainted (R435). -/
def State.cleanCells (s : State) (st : Nat) : List Int :=
  (s.bring st).nodes.flatMap fun e => (e.2.cells.filter fun c => c.valid && !c.taint).map fun c => ((c.v : Nat) : Int)

/-- Each SNAP of a resting string tests its current (R460): the rest clock starts at the third that passes in a row. -/
def State.restTest (s : State) (st id : Nat) (i : Option Int) : State :=
  let x := s.strX st
  if x.rest ≠ 1 ∨ s.time < x.since + s.get Reg.BUP_EST_REST_RAMP * 1000000 then s
  else
    let ok_ := match i with
      | some v => decide (v.natAbs ≤ s.restClamp st)
      | none => false
    if !ok_ then s.strMod st fun x => { x with pass := 0 }
    else if x.pass < 2 then s.strMod st fun x => { x with pass := x.pass + 1 }
    else s.strMod st fun x => { x with pass := 3, rest := 2, since := s.time, learn := some id }

/-- The median of a list: the mean of the two middle values of an even count. -/
def median (l : List Int) : Int :=
  let q := sortBy (fun a b => decide (a ≤ b)) l
  let n := q.length
  if n % 2 = 1 then (q[n / 2]?).getD 0 else divRne ((q[n / 2 - 1]?).getD 0 + (q[n / 2]?).getD 0) 2

/-- The index of the axis point nearest to a value. -/
def nearest (axis : List Int) (x : Int) : Nat :=
  (axis.zipIdx.foldl (fun (b : Nat × Nat) e => let d := (e.1 - x).natAbs; if d < b.2 then (e.2, d) else b) (0, 2 ^ 64)).1

/-- R0 learning at t_r (R464), from the readings of the SNAP `id` that started the rest clock. -/
def State.learnR0 (s : State) (st id : Nat) (iTr : Int) : State :=
  let x := s.strX st
  let s := s.strMod st fun x => { x with learn := none }
  let rs := if s.capOf st ≤ x.pre.natAbs ∧ x.pre ≠ iTr then
      (s.liveCells st).filterMap fun e =>
        if e.2.full && e.2.snap == id then e.2.pre.map fun v =>
          let d := x.pre - iTr
          let n := ((e.2.uv : Int) - v) * 1000
          if 0 < d then divRne n d.toNat else divRne (-n) (-d).toNat
        else none
    else []
  if rs.isEmpty then s
  else
    let temps := (s.bring st).nodes.map fun e => (s.nodeTemp st e.1).1
    let tab := s.strTab st
    let k := 11 * nearest tab.temps (median temps) + nearest socPoints x.soc
    let r0 : Int := ((((tab.ent[k]?).getD [])[0]?).getD 0 : Nat)
    let v := (clampI 100 20000 (r0 + divRne (median rs - r0) 8)).toNat
    let tab := { tab with ent := tab.ent.modify k fun e => e.set 0 v }
    s.recMod st fun r => { r with table := some tab, learned := satU 16 (r.learned + 1) }

/-! ## Time (R456, R457, R463) -/

/-- The cycle count of a string goes to the settings store (R458). -/
def State.cyclesKeep (s : State) (st : Nat) : State :=
  let n := s.get (Reg.BUP_EST_CYC_CYC st)
  (s.setNv (Reg.BUP_EST_CYC_CYC st) n).recMod st fun r => { r with cycles := n }

/-- What a Chase period does: the charge count, the cycle count and the end or abort of a rest (R446, R458, R460 to R463). -/
def State.estTick (s : State) : State :=
  (List.range 4).foldl (fun s st =>
    let x := s.strX st
    let s :=
      if x.volt = 0 then s
      else
        let i := s.cellCur st ((s.chs.igrp[st + 1]?).join) (s.get Reg.CHS_VBUS)
        let full := s.capOf st * 3600000000
        let d := x.disc + i.toNat * s.periodNs
        let s := s.strMod st fun y => { y with q := y.q + i * (s.periodNs : Nat), disc := d % full }
        if d < full then s
        else
          let n := (s.get (Reg.BUP_EST_CYC_CYC st) + d / full) % 2 ^ 32
          let s := s.set (Reg.BUP_EST_CYC_CYC st) n
          if (s.rec_ st).cycles / 100 = n / 100 then s else s.cyclesKeep st
    if (x.rest = 1 ∨ x.rest = 2) ∧ (s.on Reg.STL_STAT_BURST ∨ s.chs.govern) then s.restAbort st
    else if x.rest = 3 ∧ x.since + s.get Reg.BUP_EST_REST_RAMP * 1000000 ≤ s.time then s.strMod st fun y => { y with rest := 0 }
    else s) s

/-- S_rep moves towards S by at most SLEW fine units (R456). -/
def slewTo (slew : Nat) (rep soc : Int) : Int :=
  if slew = 0 then soc else rep + clampI (-(slew : Nat)) (slew : Nat) (soc - rep)

/-- The entries of the RAW rings, one a string, every 100 ms (R457). -/
def State.rawEntries (s : State) : State :=
  (s.ringsOf 7).foldl (fun s r => (List.range 4).foldl (fun s st =>
    let x := s.strX st
    s.postEntry r 0x0818 5 false (fun _ => le 1 st ++
      le 1 (s.get (Reg.BUP_EST_STAT_CONF st) + 2 * s.get (Reg.BUP_EST_STAT_RESTING st)) ++ le 2 (pctOf x.soc) ++
      le 2 (pctOf x.rep) ++ le 2 (pctOf (s.zcc st)) ++ le 2 (s.get (Reg.BUP_EST_ULIM_UMIN st)) ++
      le 2 (s.get (Reg.BUP_EST_ULIM_UMAX st))) []) s) s

/-- SOC_SLEW_TICK (R456, R457): every 1 ms. -/
def execSocSlewTick (s : State) : Out State :=
  .next (
    let s := (List.range 4).foldl (fun s st =>
      if !(s.strX st).on then s
      else (s.strMod st fun x => { x with rep := slewTo (s.get Reg.BUP_EST_CTL_SLEW) x.rep x.soc }).strRegs st) s
    let n := s.bup.tick + 1
    let s := { s with bup := { s.bup with tick := n % 100 } }
    if n % 100 = 0 then s.rawEntries else s)

/-- DRIFT_ALARM (R463): |S - z_cc| has exceeded DTHR for DTIME seconds. -/
def execDriftAlarm (st : Nat) (s : State) : Out State :=
  .next (
    let thr := s.get Reg.BUP_EST_DRIFT_DTHR
    if thr ≠ 0 ∧ s.get Reg.BUP_EST_DRIFT_DTIME ≠ 0 ∧ (s.strX st).on ∧ thr * 10000 < ((s.strX st).soc - s.zcc st).natAbs then
      (s.setConf st false).setEarly st true
    else s)

/-- CELL_STALE (R448): a cell has had no usable reading for STALE; its string's limits are halved until it is read. -/
def execCellStale (st i : Nat) (s : State) : Out State :=
  .next (
    let c := (((s.bring st).node (i / 16 + 1)).cells[i % 16]?).getD {}
    let stale := (if s.get Reg.BUP_EST_TAP_STALE = 0 then 20 else s.get Reg.BUP_EST_TAP_STALE) * 100000000
    if c.on && decide (s.time < c.time + stale) then s
    else (s.set (Reg.BUP_EST_STAT_STALE st) 1).strRegs st)

/-- STALE clears once every cell has been read again (R448). -/
def State.staleJudge (s : State) (st : Nat) : State :=
  if !s.on (Reg.BUP_EST_STAT_STALE st) then s
  else
    let stale := (if s.get Reg.BUP_EST_TAP_STALE = 0 then 20 else s.get Reg.BUP_EST_TAP_STALE) * 100000000
    if (s.bring st).nodes.all fun e => e.2.cells.all fun c => c.on && decide (s.time < c.time + stale) then
      s.set (Reg.BUP_EST_STAT_STALE st) 0
    else s

/-! ## String records and a swapped string (R458, R459) -/

/-- The values of an identity on which a record agrees: ID code, thermistor map, serial number. -/
def StrRec.agrees (r : StrRec) (code therm serial : Nat) : Nat :=
  b2n (r.idCode == code) + b2n (r.therm == therm) + b2n (r.serial == serial)

/-- The estimator starts afresh for a string (R452, R456, R459): it rests at once, and its limits hold at the rest clamp
until then. -/
def State.strFresh (s : State) (st : Nat) : State :=
  let s := s.bringMod st fun r => { r with nodes := r.nodes.map fun e =>
    (e.1, { e.2 with cells := e.2.cells.map fun c => { c with on := false, v1 := 0, v2 := 0, z := 0 } }) }
  let s := s.strMod st fun x => { x with on := false, soc := 0, q := 0, held := true, tryAt := 0, rest := 0 }
  (s.setConf st false).setEarly st true

/-- The identity read at an enumeration is matched against the records (R459). Answers whether it had changed. -/
def State.matchRecord (s : State) (st code therm serial : Nat) : Bool × State :=
  let seen := s.get Reg.COL_OPT
  let own := s.recIdx st
  let full := (own.bind fun k => s.est.recs[k]?).any fun r => r.agrees code therm serial == 3
  if full then (false, s.recMod st fun r => { r with seen := seen })
  else
    let old := (s.rec_ st).serial
    let order := own.toList ++ (List.range 8).filter fun k => some k != own
    let found := order.find? fun k => (s.est.recs[k]?).any fun r => decide (2 ≤ r.agrees code therm serial)
    let free := ((List.range 8).filter fun k => (s.est.recs[k]?).any fun r => decide (3 < r.pos)).foldl
      (fun (b : Option Nat) k => match b with
        | none => some k
        | some j => if ((s.est.recs[k]?).map (·.seen)).getD 0 < ((s.est.recs[j]?).map (·.seen)).getD 0 then some k else some j) none
    let k := found.getD (free.getD 0)
    let s := s.recMod st fun r => { r with pos := 0xFF }
    let s := s.estMod fun e => { e with recs := e.recs.modify k fun r =>
      let r := if found.isSome then r else {}
      { r with idCode := code, therm := therm, serial := serial, pos := st, seen := seen } }
    let s := (s.setNv (Reg.BUP_EST_STAT_REC st) k).setNv (Reg.BUP_EST_CYC_CYC st) (s.rec_ st).cycles
    let s := (s.logC (.fw 3) 2 0 0 5 st old serial).strFresh st
    (true, s.evt 5 0x0814 (le 1 st ++ le 1 k ++ le 1 (if found.isSome then 1 else 2) ++ le 1 0 ++ le 4 (s.rec_ st).cycles ++ zeros 4))

/-! ## Commands (R465) -/

/-- EST_QUERY (R465). -/
def execEstQuery (r : Nat) (d : Desc) (s : State) : Out State :=
  .next (s.cmd r 0x0810 d { priv := 0, buf := .writes, lenOk := fun n => 64 ≤ n } fun s =>
    let st := bits d.p0 0 2
    image s 64 (le 4 (s.read 0x54020 0) ++ s.regBytes ((List.range 8).map fun k => 0x54100 + 0x20 * st + 4 * k)))

/-- The length of a table by its kind. -/
def tableLen (k : Nat) : Nat := if k = 0 then 1092 else 916

/-- EST_TABLE (R451, R465): imposed at the next SNAP. -/
def execEstTable (r : Nat) (d : Desc) (s : State) : Out State :=
  .next (s.cmd r 0x0811 d
    { priv := 2, standby := true, buf := .reads, lenOk := fun n => n == tableLen d.p0, parOk := decide (d.p0 ≤ 2) } fun s =>
    let b := bufBytes d
    let pos := bits d.p1 0 2
    let good := if d.p0 = 0 then (socOf b).isSome else (impOf b).isSome
    if !good then refuse s 1
    else
      let old := if d.p0 = 0 then s.socTab.bytes else if d.p0 = 1 then s.impTab.bytes else (s.strTab pos).bytes
      let (n, s) := s.stage1 r 5 0x0811 (d.p0 + 4 * pos) (digest8 old) (digest8 b) s.leadPeriod (.estTable d.p0 pos b) true
      { staged s n with done := d.len })

/-- A staged EST_TABLE is imposed. -/
def State.imposeTable (s : State) (k pos : Nat) (b : List Byte) : State :=
  match k with
  | 0 => s.estMod fun e => { e with soc := socOf b }
  | 1 => s.estMod fun e => { e with imp := impOf b }
  | _ => s.recMod pos fun r => { r with table := impOf b }

/-- EST_TABLE_READ (R465). -/
def execEstTableRead (r : Nat) (d : Desc) (s : State) : Out State :=
  .next (s.cmd r 0x0812 d
    { priv := 0, buf := .writes, lenOk := fun n => decide (tableLen d.p0 ≤ n), parOk := decide (d.p0 ≤ 2) } fun s =>
    image s (tableLen d.p0) (if d.p0 = 0 then s.socTab.bytes else if d.p0 = 1 then s.impTab.bytes
      else (s.strTab (bits d.p1 0 2)).bytes))

/-- REST_NOW (R465). -/
def execRestNow (r : Nat) (d : Desc) (s : State) : Out State :=
  .next (s.cmd r 0x0813 d { priv := 1, standby := true } fun s =>
    ok (((s.logC (.host r) 2 0 0x0813 5 (bits d.p0 0 2) 0 1).setEarly (bits d.p0 0 2) true).strMod (bits d.p0 0 2) fun x => { x with tryAt := 0 }))

/-- The head of a record (R458). -/
def StrRec.head (r : StrRec) : List Byte :=
  le 1 r.idCode ++ le 1 r.pos ++ le 6 r.therm ++ le 8 r.serial ++ le 4 r.cycles ++ le 4 r.cap ++ le 6 r.seen ++ le 2 r.learned

/-- EST_RECORDS (R465). -/
def execEstRecords (r : Nat) (d : Desc) (s : State) : Out State :=
  .next (s.cmd r 0x0814 d { priv := 0, buf := .writes, lenOk := fun n => 256 ≤ n } fun s =>
    image s 256 (s.est.recs.flatMap StrRec.head))

end Sys2Proof.Machine
end

