-- ==== Sys2Proof/Machine/Errata.lean ====
section
/-!
DEFINITION. Errata: detector events, ALIVE and the keep word, clearing, leaving HALTED, unlock and injection, and the
Errata commands (R469 to R486).
-/
namespace Sys2Proof.Machine

/-! ## Events -/

/-- DETECTOR_EVENT (R471): the owning block reports detector `n` for a unit. A level detector carries whether its
condition is present; `esc` is the class its owner's escalation rule gives (0 none). -/
def State.detectorEvent (s : State) (n esc param : Nat) (present : Bool) : State :=
  if (detInfo n).level then s.level n esc param present
  else if present then s.raise n esc param
  else s

/-- KEEP_TIMEOUT (R477): the keep word has not been written for 1 ms; detector 0.7 is raised. -/
def execKeepTimeout (s : State) : Out State :=
  .next (({ s with era := { s.era with keep := false } }).raise (detN 0 7) 0 0)

/-- ALIVE_TOGGLE (R477, R38): every 500 us ALIVE is inverted while the keep word stands, HALTED is clear, the module runs
from stage ERRATA on and no loss sequence runs; otherwise it is low. `readback` is the level read back, which detector
0.5 compares with the level driven. -/
def State.aliveToggle (s : State) (readback : Bool) : State :=
  let run := s.era.keep && !s.halted && decide (1 ≤ s.stage) && decide (s.stage ≠ 0xE) && decide (s.glb.lossStep = 0)
  let v := run && !s.glb.alive
  let s := ({ s with glb := { s.glb with alive := v } }).emit (.pin .alive v)
  s.level (detN 0 5) 0 0 (readback != v)

/-- ALIVE_TOGGLE (R477). -/
def execAliveToggle (readback : Bool) (s : State) : Out State := .next (s.aliveToggle readback)

/-! ## Clearing and leaving HALTED (R478, R479) -/

/-- One detector's status is cleared, unless its level cause is present (R9, R478). Answers whether it was refused. -/
def State.clearDet (s : State) (n ring : Nat) : Bool × State :=
  let x := s.det n
  if !x.status then (false, s)
  else if (detInfo n).level && x.cause then (true, s.set Reg.ERA_STAT_CAUSE 1)
  else
    let s := s.detMod n fun y => { y with status := false, cls := 0, injected := false }
    let s := ((s.set (Reg.ERA_DFIRST n) 0).set (Reg.ERA_DLAST n) 0).set (Reg.ERA_DINFO_ESC n) 0
    let s := s.logC (.host ring) (if ring = 0xFFFF then 1 else 2) 0 (if ring = 0xFFFF then 0 else 0x0902) 8 n 1 0
    (false, s.evt 8 0x0901 (le 2 n ++ zeros 2 ++ le 4 (s.get (Reg.ERA_DINFO_COUNT n)) ++ le 4 ring))

/-- Clears of several detectors, in ascending number; answers how many were refused. -/
def State.clearDets (s : State) (ns : List Nat) (ring : Nat) : Nat × State :=
  ns.foldl (fun a n => let (r, t) := a.2.clearDet n ring; (a.1 + b2n r, t)) (0, s)

/-- The highest stage from CHASE to WAIT whose conditions hold (R60, R75, R479). -/
def State.topStage (s : State) : Nat :=
  if !s.glb.chaseUp then s.glb.preHalt
  else if s.waitCond % 32 = 31 then 6
  else if s.glb.hostUp then 5
  else 4

/-- The device leaves HALTED once every halt-class status bit is clear, unless the halt was for power loss or a lockstep
miscompare, which end in rails off and in a reset (R479). -/
def State.leaveHalted (s : State) : State :=
  if s.halted && !s.haltSet && decide (s.glb.lossStep = 0) && decide (s.get (Reg.ERA_DINFO_COUNT 0) = 0) then
    let dur := (s.time - s.get Reg.ERA_HALT_TIME) / 1000
    let s := s.evt 8 0x0902 (le 2 (s.get Reg.ERA_HALT_FIRST) ++ zeros 2 ++ le 4 dur ++ zeros 4)
    let s := (s.set Reg.ERA_STAT_HALTED 0).set Reg.ERA_HALT_VALID 0
    let s := { s with glb := { s.glb with hbHeld := false, permit := false }, era := { s.era with haltPend := false } }
    s.setStage s.topStage
  else s

/-- ERA_DSTAT_CLEAR (R478): a W1C write of `v` to ERA_DSTAT word `w`. -/
def State.dstatClear (s : State) (w v : Nat) : State :=
  let ns := ((List.range 32).filter fun j => bit v j).map fun j => 32 * w + j
  (s.clearDets ns 0xFFFF).2.leaveHalted

/-- ERA_DSTAT_CLEAR (R478). -/
def execEraDstatClear (w v : Nat) (s : State) : Out State := .next (s.hostWrite fun s => s.dstatClear w v)

/-! ## Injection (R482 to R484) -/

/-- Posts INJECTION (R486) and logs it (R483). -/
def State.injEvt (s : State) (det mode action number param ring : Nat) : State :=
  let s := s.evt 8 0x0903 (le 2 det ++ le 1 mode ++ le 1 action ++ le 4 number ++ le 4 param)
  s.logC (if ring = 0x10000 then .fw 0 else .host ring) 7 0 (if action = 2 then 0x0906 else 0x0905) 8 det action (mode + param * 256)

/-- One injection ends (R482, R483): a level cause that it drove ends with it. -/
def State.withdraw (s : State) (x : Injection) (ring : Nat) : State :=
  let s := { s with era := { s.era with injections := s.era.injections.filter fun y => y.number != x.number } }
  let s := s.detMod x.det fun y => { y with cause := y.real, injCause := false }
  s.injEvt x.det x.mode 2 x.number x.param ring

/-- Every active injection that `p` holds of ends. -/
def State.withdrawAll (s : State) (p : Injection → Bool) (ring : Nat) : State :=
  (s.era.injections.filter p).foldl (fun s x => s.withdraw x ring) s

/-- The unlock ends and withdraws every injection (R482). -/
def State.lock (s : State) (ring : Nat) : State :=
  let s := ((s.set Reg.ERA_STAT_UNLOCKED 0).set Reg.ERA_STAT_ULEVEL 0).withdrawAll (fun _ => true) ring
  s.logC (if ring = 0x10000 then .fw 0 else .host ring) 7 0 0x0907 8 0 1 0

/-- UNLOCK_EXPIRY (R482): ULIFE minutes have passed. -/
def execUnlockExpiry (s : State) : Out State :=
  .next (if s.on Reg.ERA_STAT_UNLOCKED then s.lock 0x10000 else s)

/-- INJECTION_HOLD_EXPIRY (R483): a HOLD injection on a detector reaches its PARAM1 ms. -/
def execInjectionHoldExpiry (n : Nat) (s : State) : Out State :=
  .next (s.withdrawAll (fun x => x.det == n && x.mode == 1 && x.left != 0) 0x10000)

/-- The interval between the SNAPs of a ring, ns, at the rate in force (R431). -/
def State.snapNs (s : State) (st : Nat) : Nat :=
  if bit (s.get Reg.BUP_STAT_FAST) st then 1000000 else (if s.get Reg.BUP_SNAP_NPER = 0 then 10 else s.get Reg.BUP_SNAP_NPER) * 1000000

/-- The check interval of a detector in ns (R483): the window, or the time of the frame, sample, SNAP or period, at which its owner judges
its cause; one period for any other event. -/
def State.checkNs (s : State) (n : Nat) : Nat :=
  let f := n / 16
  let i := n % 16
  if n = detN 0 5 then 500000                                   -- each toggle of ALIVE (R477)
  else if n = detN 0 1 ∨ n = detN 0 7 ∨ f = 1 ∨ n = detN 3 1 then 1000000   -- windows of 1 ms (R22, R32, R477)
  else if f = 4 then (if 8 ≤ i ∧ i ≤ 10 then 1000000000 else 1000000)       -- 1 s (R396); the inputs of each ms (R43, R54)
  else if n = detN 6 1 then 100000000                           -- 100 ms without a dialogue (R87)
  else if n = detN 7 0 then 100000000                           -- the watchdog period (R59)
  else if 8 ≤ f ∧ f ≤ 11 ∧ i = 4 ∨ n = detN 12 5 then 20000     -- each press cycle (R159)
  else if f = 17 ∧ i < 4 ∨ f = 18 then s.snapNs (i % 4)         -- each SNAP
  else if n = detN 19 0 then 1000000000                         -- strangers within 1 s (R379)
  else if f = 19 ∧ (i = 1 ∨ i = 2) then 10000000                -- each beacon instant (R383, R404)
  else if n = detN 20 3 then 20000                              -- the proof digest of each press cycle (R495)
  else s.periodNs

/-! ## Commands (R485) -/

/-- ERA_QUERY (R485). -/
def execEraQuery (r : Nat) (d : Desc) (s : State) : Out State :=
  .next (s.cmd r 0x0900 d { priv := 0, buf := .writes, lenOk := fun n => 64 ≤ n } fun s =>
    image s 64 (s.regBytes ([0x80008, 0x8000C, 0x80010, 0x80014] ++ (List.range 12).map fun w => 0x80100 + 4 * w)))

/-- ERA_DETAIL (R485). -/
def execEraDetail (r : Nat) (d : Desc) (s : State) : Out State :=
  .next (
    let n := bits d.p0 0 9
    s.cmd r 0x0901 d { priv := 0, buf := .writes, lenOk := fun n => 32 ≤ n, parOk := decide (n ≤ 383) } fun s =>
      image s 32 (le 4 (s.read 0x8001C n) ++ le 8 (s.get (Reg.ERA_DFIRST n)) ++ le 8 (s.get (Reg.ERA_DLAST n)) ++
        le 4 (s.get (Reg.ERA_DPARAM n)) ++ le 4 (s.checkNs n / 1000) ++
        le 1 (b2n (s.det n).cause + 2 * b2n (s.era.injections.any fun x => x.det == n))))

/-- ERA_CLEAR (R478, R485): one detector, or all for 0x1FF; CAUSE_PRESENT with the number refused. -/
def execEraClear (r : Nat) (d : Desc) (s : State) : Out State :=
  .next (
    let n := bits d.p0 0 9
    s.cmd r 0x0902 d { priv := 1, parOk := decide (n ≤ 383 ∨ n = 0x1FF) } fun s =>
      let (k, s) := s.clearDets (if n = 0x1FF then List.range 384 else [n]) r
      let s := s.leaveHalted
      if k = 0 then ok s else { s := s, status := some 0x1B, result := k })

/-- ERA_CLASS (R471, R485): staged; a class below the default is refused. -/
def execEraClass (r : Nat) (d : Desc) (s : State) : Out State :=
  .next (s.cmd r 0x0903 d { priv := 2, standby := true, parOk := decide (d.p0 ≤ 383 ∧ d.p1 ≤ 2) } fun s =>
    if d.p1 ≠ 0 ∧ d.p1 < (detInfo d.p0).cls then refuse s 1
    else
      let (n, s) := s.stage1 r 8 0x0903 d.p0 (s.get (Reg.ERA_DINFO_CLASS d.p0)) d.p1 s.leadPeriod (.detClass d.p0 d.p1)
      staged s n)

/-- A staged ERA_CLASS is imposed. -/
def State.imposeClass (s : State) (n c : Nat) : State := s.setNv (Reg.ERA_DINFO_CLASS n) c

/-- ERA_UNLOCK (R482, R485): reason 3 under lockout, reason 2 for a wrong key; three refusals within 10 min lock out. -/
def execEraUnlock (r : Nat) (d : Desc) (s : State) : Out State :=
  .next (s.cmd r 0x0904 d
    { priv := 3, buf := .reads, lenOk := fun n => 16 ≤ n, parOk := decide (d.p0 = 1 ∨ d.p0 = 2) } fun s =>
    let key := if d.p0 = 1 then s.nv.injKey1 else s.nv.injKey2
    if !s.on Reg.ERA_STAT_LOCKOUT && key == some ((bufBytes d).take 16) then
      let s := (s.set Reg.ERA_STAT_UNLOCKED 1).set Reg.ERA_STAT_ULEVEL d.p0
      okN (s.logC (.host r) 7 0 0x0904 8 0 0 d.p0) d.len
    else
      let locked := s.on Reg.ERA_STAT_LOCKOUT
      let rs := (s.time :: s.era.refusals).filter fun t => decide (s.time < t + 600000000000)
      let s := ({ s with era := { s.era with refusals := rs } }).raise (detN 23 0) 0 d.p0
      let s := if !locked ∧ 3 ≤ rs.length then (s.set Reg.ERA_STAT_LOCKOUT 1).levelOn (detN 23 1) 0 0 else s
      refuse s (if locked then 3 else 2))

/-- ERA_WITHDRAW (R485). -/
def execEraWithdraw (r : Nat) (d : Desc) (s : State) : Out State :=
  .next (s.cmd r 0x0906 d { priv := 3, parOk := decide (d.p0 ≤ 383 ∨ d.p0 = 0x1FF) } fun s =>
    ok (s.withdrawAll (fun x => d.p0 == 0x1FF || x.det == d.p0) r))

/-- ERA_LOCK (R482, R485). -/
def execEraLock (r : Nat) (d : Desc) (s : State) : Out State :=
  .next (s.cmd r 0x0907 d { priv := 3 } fun s => ok (s.lock r))

end Sys2Proof.Machine
end

