-- ==== Sys2Proof/Machine/Report.lean ====
section
/-!
DEFINITION. The health report (R79, R80): its bytes, and what the module does when it builds it.
-/
namespace Sys2Proof.Machine

/-- Units of a kind of a textblock that are FAILED or RETIRED. -/
def State.unitsOut (s : State) (kind t : Nat) : Nat :=
  s.spr.units.countP fun e => e.1 / 65536 == kind && unitT e.1 == t && decide (2 ≤ e.2.st)

/-- A textblock in the report. -/
def State.reportTb (s : State) (t : Nat) : List Byte :=
  le 2 (satU 16 (s.unitsOut 1 t)) ++ le 1 (satU 8 (s.unitsOut 2 t)) ++
    le 1 ((List.range 8).countP fun q => bit (s.get (Reg.PRS_TB_QMAP_LOST t)) q) ++
    le 2 (satU 16 (s.get (Reg.PRS_TB_SPARE_ROWSP t))) ++ le 1 (16 - s.get (Reg.PRS_TB_SPARE_BANK t)) ++
    le 1 ((s.glb.mrRes[t]?).getD 0)

/-- A detector raised during start-up, in the report. -/
def raiseBytes (e : Nat × Nat × Nat) : List Byte := le 1 (e.1 / 16) ++ le 1 (e.1 % 16) ++ le 1 e.2.1 ++ le 1 e.2.2

/-- The flags byte of the report: those found at the start, UNCLEAN, and start-blind. -/
def State.reportFlags (s : State) : Nat :=
  setBit (setBit s.glb.hflags 0 (s.on Reg.COL_STAT_UNCLEAN)) 3 (s.get Reg.PRS_GAL_STAT_BLIND == 1)

/-- The 256 bytes of the report (R79). -/
def State.reportBuild (s : State) : List Byte :=
  let straps := s.get Reg.GLB_SEAT_SEAT + 2 * s.get Reg.GLB_SEAT_POS + 16 * s.get Reg.GLB_SEAT_IDPAR
  let rings := packBits 4 (fun st => s.get (Reg.BUP_RSTAT_STATE st) == 1) +
    16 * packBits 4 (fun st => s.on (Reg.BUP_RSTAT_IDCHG st))
  sealed (le 4 0x96404852 ++ le 2 1 ++ le 2 256 ++ le 6 (s.get Reg.COL_OPT) ++ zeros 2 ++ le 3 (s.get Reg.COL_PCC_PCC) ++
    le 1 (s.get Reg.GLB_RSTCAUSE_CAUSE) ++ le 1 s.stage ++ le 1 s.reportFlags ++ le 1 straps ++
    le 1 (s.get Reg.GLB_HIER_CFG + 16 * s.get Reg.PRS_STAT_SVC) ++ (List.range 4).flatMap s.reportTb ++
    le 5 (s.get Reg.STL_UP) ++ le 5 (packBits 40 fun l => (Tab.get s.chs.links l {}).seen) ++
    (List.range 4).flatMap (fun st => le 1 (satU 8 (Tab.get s.bup.rings st {}).nodes.length)) ++ le 1 rings ++ le 1 0 ++
    [1, 2, 3, 4, 5, 6].flatMap (fun t => le 4 (s.version t)) ++ le 2 (s.get Reg.GLB_VRSV_VRSV) ++ le 2 (s.get Reg.GLB_VIN_VALUE) ++
    le 4 s.glb.mrTime ++ le 4 s.glb.waitTime ++ le 4 s.glb.raisesAll ++ fit 140 (s.glb.raises.flatMap raiseBytes))

/-- The report is built (R79): the START snapshot and its slug (R525, R529), and HEALTH (R599). -/
def State.reportNow (s : State) : State :=
  let b := s.reportBuild
  let s : State := { s with glb := { s.glb with reported := true, report := b } }
  let (seq, s) := s.builtIn 0x80 0 false ((List.range 64).map fun k => (rd b (4 * k) 4, false)) []
  let s := s.slug 1 (s.get Reg.GLB_RSTCAUSE_CAUSE) s.stage s.reportFlags seq s.glb.waitTime
  s.evtP 0 1 (fun cut => le 1 (s.get Reg.GLB_RSTCAUSE_CAUSE) ++ le 1 s.stage ++ le 1 s.reportFlags ++ le 1 (b2n cut) ++
    le 4 (s.get Reg.COL_PCC_PCC) ++ le 4 s.glb.raisesAll) b

/-- The report is built when WAIT, FLYLEAF or HALTED is first entered after a reset (R79). -/
def State.reportDue (s : State) : State :=
  let due := s.stage == 6 || s.stage == 0xE || s.halted
  if !s.glb.reported && due then s.reportNow else s

end Sys2Proof.Machine
end

