-- ==== Sys2Proof/Machine/Rings.lean ====
section
/-!
DEFINITION. The Bupilin rings (R416 to R444): frames, mastering, enumeration, breaks and split service, SNAPs, readings and
their checks, balancing, open-wire tests.
-/
namespace Sys2Proof.Machine

/-! ## Frames (R421 to R424) -/

/-- One bit of the CRC-16 with polynomial 0x1021 (R422). -/
def crc16Bit (c : Nat) : Nat := if 32768 ≤ c then (2 * c % 65536) ^^^ 0x1021 else 2 * c

/-- The CRC-16 of R422: initial value 0xFFFF. -/
def crc16 (b : List Byte) : Nat :=
  b.foldl (fun c x =>
    crc16Bit (crc16Bit (crc16Bit (crc16Bit (crc16Bit (crc16Bit (crc16Bit (crc16Bit (c ^^^ (x.toNat * 256))))))))) ) 0xFFFF

/-- A frame from its header on (R422). -/
def bupFrame (cmd addr flags : Nat) (args recs : List Byte) : List Byte :=
  let b := le 1 cmd ++ le 1 addr ++ le 1 flags ++ le 1 args.length ++ args ++ recs
  b ++ le 2 (crc16 b)

/-- This module masters ring `st` (R419). -/
def State.masters (s : State) (st : Nat) : Bool := bit (s.get Reg.BUP_STAT_MASTER) st

/-- The master sends a frame from a port; FLAGS carries its seat. -/
def State.bupSend (s : State) (st port cmd addr flags : Nat) (args : List Byte) (recs : List Byte := []) : State :=
  s.emit (.bupilin st port (bupFrame cmd addr (flags + s.get Reg.GLB_SEAT_SEAT) args recs))

/-- A ring is split. -/
def State.ringSplit (s : State) (st : Nat) : Bool := s.get (Reg.BUP_RSTAT_STATE st) == 2

/-- The master sends a frame to every node: on BUP_OUT, and on BUP_RET too in split service (R426). -/
def State.bupAll (s : State) (st cmd addr : Nat) (args : List Byte) (recs : List Byte := []) : State :=
  let s := s.bupSend st 0 cmd addr 0 args recs
  if s.ringSplit st then s.bupSend st 1 cmd addr 0 args recs else s

/-! ## Ring state (R61, R73, R427, R442) -/

/-- Posts RING_STATE (R442). -/
def State.ringEvt (s : State) (st : Nat) : State :=
  let seat := s.get Reg.GLB_SEAT_SEAT
  s.evt 5 0x0800 (le 1 st ++ le 1 (s.get (Reg.BUP_RSTAT_STATE st)) ++ le 1 (s.get (Reg.BUP_RSTAT_NOUT st)) ++
    le 1 (s.get (Reg.BUP_RSTAT_NRET st)) ++ le 1 (if s.masters st then seat else 1 - seat) ++ zeros 3 ++
    le 4 (s.get Reg.CHS_PNUM))

/-- A bit of a field takes a value. -/
def State.putBit (s : State) (f : Fld) (k : Nat) (b : Bool) : State :=
  let v := s.get f
  s.set f (v - b2n (bit v k) * 2 ^ k + b2n b * 2 ^ k)

/-- BUP_RSTAT.STATE takes a value; RING_STATE at a change (R427). -/
def State.ringTo (s : State) (st v : Nat) : State :=
  let s := s.putBit Reg.BUP_STAT_SPLIT st (v == 2)
  if s.get (Reg.BUP_RSTAT_STATE st) = v then s else (s.set (Reg.BUP_RSTAT_STATE st) v).ringEvt st

/-- The peer holds the seat token, as its last heartbeat says. -/
def State.peerToken (s : State) : Bool := s.ros.hb.any fun h => h.token

/-- This module masters a ring no longer (R419): it relays, and sends no tone. -/
def State.ringYield (s : State) (st : Nat) : State :=
  let s := s.putBit Reg.BUP_STAT_MASTER st false
  let s := { s with glb := { s.glb with tone := s.glb.tone.set st false, toneRet := s.glb.toneRet.set st false } }
  s.ringEvt st |>.bringMod st fun r => { r with enum := 0, cfg := [], echo := none }

/-- A frame of the other seat's master: this one yields at once when the other seat holds the token (R419). `flags` are the frame's. -/
def State.ringSeat (s : State) (st flags : Nat) : State :=
  if s.masters st && b2n (bit flags 0) != s.get Reg.GLB_SEAT_SEAT && !s.token && s.peerToken then s.ringYield st else s

/-- A frame with a good CRC: command, address, flags, arguments, records. A bad one is discarded, and counted by the master
(R422). -/
def State.bupTake (s : State) (st : Nat) (f : List Byte) (k : Nat → Nat → Nat → List Byte → List Byte → State → State) :
    State :=
  let n := f.length
  if n < 6 ∨ crc16 (f.take (n - 2)) ≠ rd f (n - 2) 2 then
    if s.masters st then s.bump (Reg.BUP_RCRC st) else s
  else
    let al := rd f 3 1
    k (rd f 0 1) (rd f 1 1) (rd f 2 1) ((f.drop 4).take al) (((f.take (n - 2)).drop (4 + al))) (s.ringSeat st (rd f 2 1))

/-- RING[s] takes a value (R61, R73). -/
def State.setRing (s : State) (st : Nat) (b : Bool) : State :=
  let v := s.get Reg.GLB_BOOTSTAT_RING
  s.setReady Reg.GLB_BOOTSTAT_RING (v - b2n (bit v st) * 2 ^ st + b2n b * 2 ^ st)

/-- RING[s] follows its condition: set under R73 once, it holds while all 24 nodes are served (R74, R427). -/
def State.ringJudge (s : State) (st : Nat) : State :=
  let r := s.bring st
  let served := (s.get (Reg.BUP_RSTAT_STATE st) == 1 || s.ringSplit st) && r.judged && !(r.nodes.any fun e => e.2.lost || s.fwOut e.2)
  s.setRing st served

/-- A node has appended no record: at the third in a row it is LOST (R427). -/
def State.noRecord (s : State) (st a : Nat) : State :=
  let s := s.bump (Reg.BUP_RMISS st)
  let s := s.nodeMod st a fun n => { n with miss := n.miss + 1 }
  let n := (s.bring st).node a
  if n.miss = 3 ∧ !n.lost then
    let s := (s.nodeMod st a fun n => { n with lost := true }).set (Reg.BUP_RSTAT_LOST st) 1
    let s := s.evt 5 0x0802 (le 1 st ++ le 1 a ++ le 1 2 ++ le 1 0 ++ zeros 8)
    ((s.unitOn (detN 17 st) (st * 32 + a)).ringJudge st)
  else s

/-! ## CFG values (R423, R438) -/

/-- The value of a CFG address. -/
def State.bupCfg (s : State) (st addr : Nat) : Nat :=
  match addr with
  | 1 => s.get (Reg.BUP_RTGT_TGT st)
  | 2 => s.get Reg.BUP_BAL_HYS * 10
  | 3 => s.get Reg.BUP_BAL_BLEAD * 10
  | 4 => if s.get Reg.BUP_SLEEP_SCHK = 0 then 60 else s.get Reg.BUP_SLEEP_SCHK
  | 5 => s.get Reg.BUP_SLEEP_BALMAX
  | 6 => s.get Reg.BUP_WAKE_WAKELO + s.get Reg.BUP_WAKE_WAKEHI * 65536
  | _ => s.get Reg.BUP_SLEEP_WAKET

/-- Sends the first CFG value that waits, with an acknowledgement record of zeros. -/
def State.cfgSend (s : State) (st : Nat) : State :=
  match (s.bring st).cfg with
  | [] => s
  | a :: _ =>
    let s := s.bringMod st fun r => { r with tries := r.tries + 1 }
    s.bupAll st 4 0 (le 1 a ++ le 1 0 ++ le 4 (s.bupCfg st a) ++ zeros 2) (zeros 3)

/-- CFG values join those that wait at the master; the first is sent when none was waiting. -/
def State.cfgAdd (s : State) (st : Nat) (as : List Nat) : State :=
  if !s.masters st then s else
  let idle := (s.bring st).cfg.isEmpty
  let s := s.bringMod st fun r =>
    { r with cfg := r.cfg ++ as.filter fun a => !r.cfg.contains a
             missing := if idle then (List.range 24).map (· + 1) else r.missing, tries := if idle then 0 else r.tries }
  if idle then s.cfgSend st else s

/-- The next CFG value after the first is done with. -/
def State.cfgNext (s : State) (st : Nat) : State :=
  (s.bringMod st fun r => { r with cfg := r.cfg.drop 1, tries := 0, missing := (List.range 24).map (· + 1) }).cfgSend st

/-- The nodes that a frame which came back at `port` has passed: all of a closed ring, those of its side when split. -/
def State.side (s : State) (st port : Nat) : List Nat :=
  let all := (List.range 24).map (· + 1)
  if !s.ringSplit st then all
  else if port = 0 then all.filter fun a => decide (a ≤ s.get (Reg.BUP_RSTAT_NOUT st))
  else (all.filter fun a => decide (24 < a + s.get (Reg.BUP_RSTAT_NRET st))).reverse

/-- BUPILIN_CFG (R423): a CFG frame has come back with its acknowledgement record. -/
def execBupilinCfg (ring port : Nat) (frame : List Byte) (s : State) : Out State :=
  .next (s.bupTake ring frame fun cmd _ _ args recs s =>
    if cmd ≠ 4 ∨ args.length ≠ 8 ∨ !s.masters ring ∨ (s.bring ring).cfg.head? ≠ some (rd args 0 1) then s
    else
      let ack := rd recs 0 3
      let s := s.bringMod ring fun r => { r with missing := r.missing.filter fun a => !bit ack (a - 1) }
      let left := (s.bring ring).missing
      let here := (s.side ring port).filter fun a => left.contains a
      if left.isEmpty then s.cfgNext ring
      else if here.isEmpty then s
      else if (s.bring ring).tries < 3 then s.cfgSend ring
      else (here.foldl (fun s a => s.noRecord ring a) s).cfgNext ring)

/-! ## Enumeration (R425, R73) -/

/-- Sends ENUM. -/
def State.enumSend (s : State) (st port n mode : Nat) : State := s.bupSend st port 1 0 0 (le 1 n ++ le 1 mode)

/-- The master begins an enumeration. -/
def State.enumStart (s : State) (st : Nat) : State :=
  if !s.masters st then s
  else
    let s := s.bringMod st fun r => { r with enum := 1, num := 1, seen := [], retry := none, echo := none, judged := false,
                                             cfg := [], nodes := r.nodes.map fun e => (e.1, { e.2 with isEnd := false }) }
    let s := ((s.enumSend st 0 0 1).enumSend st 1 0 1).set (Reg.BUP_RSTAT_NOUT st) 0
    (s.set (Reg.BUP_RSTAT_NRET st) 0).enumSend st 0 1 0

/-- A ring fault at enumeration (R73): tried again after 5 s. -/
def State.enumFault (s : State) (st : Nat) : State :=
  let s := s.bringMod st fun r => { r with enum := 0, retry := some (s.time + 5000000000) }
  ((s.ringTo st 3).levelOn (detN 17 st) 0 st).setRing st false

/-- The identity of the string is read and matched (R417, R459). -/
def State.readIdentity (s : State) (st : Nat) : State :=
  let r := s.bring st
  let map := r.nodes.foldl (fun a (e : Nat × NodeX) => a + e.2.therm % 4 * 4 ^ (e.1 - 1)) 0
  let n1 := r.node 1
  let s := ((s.set (Reg.BUP_RID st) n1.idCode).set (Reg.BUP_RTH st) map).set (Reg.BUP_RSER st) n1.serial
  let (chg, s) := s.matchRecord st n1.idCode map n1.serial
  let s := (s.setB (Reg.BUP_RSTAT_IDCHG st) chg).bringMod st fun r => { r with idRead := true }
  if chg then s.evt 5 0x0804 (le 1 st ++ le 1 1 ++ le 1 n1.idCode ++ le 1 0 ++ le 8 n1.serial) else s

/-- The master's heartbeat tone on BUP_RET begins or ends: a ring that is broken or split has it on both ports (R426). -/
def State.retTone (s : State) (st : Nat) (b : Bool) : State :=
  { s with glb := { s.glb with toneRet := s.glb.toneRet.set st (b && s.masters st) } }

/-- The nodes have their addresses: 24 are served, over a closed loop or from both sides. A loop that does not close is enumerated
again (R73). -/
def State.enumHeld (s : State) (st : Nat) (closed : Bool) : State :=
  let s := s.bringMod st fun r => { r with enum := 0, seen := [], turn := 1, next := s.time,
                                           retry := if closed then none else some (s.time + 5000000000) }
  let s := s.bringMod st fun r => { r with nodes := r.nodes.map fun e => (e.1, { e.2 with lost := false, miss := 0 }) }
  let s := (s.set (Reg.BUP_RSTAT_LOST st) 0).ringTo st (if closed then 1 else 2)
  let s := s.retTone st (!closed)
  let s := if closed then s.levelOff (detN 17 st) else s.levelOn (detN 17 st) 0 st
  s.readIdentity st

/-- The assigning is over: 24 nodes are served, or the ring is faulty. -/
def State.enumDone (s : State) (st : Nat) (closed : Bool) : State :=
  let n := s.get (Reg.BUP_RSTAT_NOUT st) + s.get (Reg.BUP_RSTAT_NRET st)
  if !closed ∧ n ≠ 24 then s.enumFault st
  else ((s.enumHeld st closed).cfgAdd st [1, 2, 3, 4, 5, 6, 7]).ringJudge st

/-- A node's ENUM record (R424). -/
def State.takeEnum (s : State) (st a : Nat) (rec_ : List Byte) : State :=
  (s.nodeMod st a fun n =>
    { n with fw := rd rec_ 2 4, serial := rd rec_ 6 8, idCode := rd rec_ 14 1, therm := rd rec_ 15 1 % 4 }).bringMod st fun r =>
      { r with seen := a :: r.seen }

/-- What a relaying seat takes of an enumeration that passes it (R419): the clear, the records of the nodes with the side they answered
from, and the check, which closes a loop of 24. DESIGN CHOICE (unsafe): the manual does not say how a relay tells the end of an
enumeration; a loop that is left open counts as served from both sides once 24 nodes have answered (log entry 98). -/
def State.relayEnum (s : State) (st port n mode delay : Nat) (back : Bool) (rec_ : List Byte) : State :=
  let r := s.bring st
  if mode = 1 then
    ((s.set (Reg.BUP_RSTAT_NOUT st) 0).set (Reg.BUP_RSTAT_NRET st) 0).bringMod st fun r => { r with seen := [], judged := false }
  else if back ∧ mode = 0 ∧ 1 ≤ n ∧ n ≤ 24 ∧ !r.seen.contains n then
    let s := s.takeEnum st n rec_
    let s := if port = 0 then s.set (Reg.BUP_RSTAT_NOUT st) n else s.set (Reg.BUP_RSTAT_NRET st) (25 - n)
    if port ≠ 0 ∧ s.get (Reg.BUP_RSTAT_NOUT st) + s.get (Reg.BUP_RSTAT_NRET st) = 24 then (s.enumHeld st false).ringJudge st else s
  else if mode = 2 ∧ r.seen.length = 24 then
    (((s.set (Reg.BUP_RLOOP st) delay).set (Reg.BUP_RSTAT_NRET st) 24).enumHeld st true).ringJudge st
  else s

/-- ENUM (R425): a reply (BACK set, with an ENUM record) comes to the port it was asked from, or the frame emerges at the
other port. A reply at 25, or an address taken twice, is a ring fault. `delay` is the loop delay measured, ns. -/
def execEnum (ring port : Nat) (frame : List Byte) (delay : Nat) (s : State) : Out State :=
  .next (s.bupTake ring frame fun cmd _ flags args recs s =>
    let r := s.bring ring
    let n := rd args 0 1
    let back := bit flags 1
    if cmd ≠ 1 ∨ args.length ≠ 2 then s
    else if !s.masters ring then s.relayEnum ring port n (rd args 1 1) delay back recs
    else if r.enum ≠ 3 ∧ n ≠ r.num then s
    else if r.enum = 1 ∧ port = 0 ∧ back then
      if n = 25 ∨ r.seen.contains n then s.enumFault ring
      else
        let s := (s.takeEnum ring n recs).set (Reg.BUP_RSTAT_NOUT ring) n
        (s.bringMod ring fun r => { r with num := n + 1 }).enumSend ring 0 (n + 1) 0
    else if r.enum = 1 ∧ port = 1 ∧ !back then
      if n ≠ 25 then s.enumFault ring
      else (s.bringMod ring fun r => { r with enum := 3 }).enumSend ring 1 0 2
    else if r.enum = 2 ∧ port = 1 ∧ back then
      if r.seen.contains n then s.enumFault ring
      else
        let s := (s.takeEnum ring n recs).set (Reg.BUP_RSTAT_NRET ring) (25 - n)
        if n = 1 then s.enumDone ring false
        else (s.bringMod ring fun r => { r with num := n - 1 }).enumSend ring 1 (n - 1) 0
    else if r.enum = 3 ∧ port = 0 ∧ !back then
      let s := (s.set (Reg.BUP_RLOOP ring) delay).set (Reg.BUP_RSTAT_NRET ring) 24
      s.enumDone ring true
    else s)

/-- ENUM_TIMEOUT (R425): neither a reply nor the frame within 300 us. -/
def execEnumTimeout (ring : Nat) (s : State) : Out State :=
  .next (
    let r := s.bring ring
    if !s.masters ring then s
    else
      match r.enum with
      | 1 => (s.bringMod ring fun r => { r with enum := 2, num := 24 }).enumSend ring 1 24 0
      | 2 => s.enumDone ring false
      | 3 => s.enumFault ring
      | _ => s)

/-- The module becomes, or stops being, the master of ring `st` (R419, R420). A new master keeps the addresses and the split
state it has observed, and enumerates a ring that has never been. -/
def State.setMaster (s : State) (st : Nat) (b : Bool) : State :=
  if s.masters st == b then s
  else
    if !b then s.ringYield st
    else
      let s := s.putBit Reg.BUP_STAT_MASTER st true
      let s := { s with glb := { s.glb with tone := s.glb.tone.set st true, toneRet := s.glb.toneRet.set st (s.ringSplit st) } }
      let s := s.ringEvt st
      if s.get (Reg.BUP_RSTAT_STATE st) = 0 then s.enumStart st
      else s.bringMod st fun r => { r with next := max r.next s.time }

/-! ## Breaks and split service (R426) -/

/-- RING_BREAK (R426): BUP_RET has carried nothing for 200 us. SNAPs are suspended and the break is looked for from both
sides. -/
def execRingBreak (ring : Nat) (s : State) : Out State :=
  .next (
    if !s.masters ring ∨ s.get (Reg.BUP_RSTAT_STATE ring) ≠ 1 ∨ (s.bring ring).echo.isSome then s
    else
      let s := (s.bringMod ring fun r => { r with echo := some s.time }).retTone ring true
      let s := (s.set (Reg.BUP_RSTAT_NOUT ring) 0).set (Reg.BUP_RSTAT_NRET ring) 0
      let s := (List.range 24).foldl (fun s k => s.bupSend ring 0 5 (k + 1) 0 []) s
      let s := (List.range 24).foldl (fun s k => s.bupSend ring 1 5 (24 - k) 0 []) s
      s.unitOn (detN 17 ring) ring)

/-- SPLIT is sent to the end node of each side, `k` on BUP_OUT and the next on BUP_RET: set or cleared (R423, R426). -/
def State.splitSend (s : State) (st k : Nat) (b : Bool) : State :=
  let s := if k = 0 then s else s.bupSend st 0 6 k 0 (le 1 k ++ le 1 (b2n b))
  if k = 24 then s else s.bupSend st 1 6 (k + 1) 0 (le 1 (k + 1) ++ le 1 (b2n b))

/-- SPLIT is sent to both end nodes and the ring is served split. -/
def State.splitNow (s : State) (st : Nat) : State :=
  let k := s.get (Reg.BUP_RSTAT_NOUT st)
  let s := (s.splitSend st k true).bringMod st fun r => { r with echo := none, next := s.time, nodes := r.nodes.map fun e =>
    (e.1, { e.2 with isEnd := (e.1 == k && k != 0) || (e.1 == k + 1) }) }
  (s.ringTo st 2).ringJudge st

/-- ECHO (R426): a node answers from one side. When the sides meet the ring is served split. -/
def execEcho (ring port : Nat) (frame : List Byte) (s : State) : Out State :=
  .next (s.bupTake ring frame fun cmd a flags _ _ s =>
    if cmd ≠ 5 ∨ !bit flags 1 ∨ !s.masters ring ∨ (s.bring ring).echo.isNone ∨ a = 0 ∨ 24 < a then s
    else
      let s := if port = 0 then s.set (Reg.BUP_RSTAT_NOUT ring) (max a (s.get (Reg.BUP_RSTAT_NOUT ring)))
        else s.set (Reg.BUP_RSTAT_NRET ring) (max (25 - a) (s.get (Reg.BUP_RSTAT_NRET ring)))
      if s.get (Reg.BUP_RSTAT_NOUT ring) + s.get (Reg.BUP_RSTAT_NRET ring) = 24 then s.splitNow ring else s)

/-- RING_PROBE (R426): every 10 s a frame with PROBE set is sent on BUP_OUT of a split ring; when it emerges at BUP_RET the
ring is closed again. -/
def execRingProbe (ring : Nat) (emerged : Bool) (s : State) : Out State :=
  .next (
    if !s.masters ring ∨ !s.ringSplit ring then s
    else
      let s := s.bupSend ring 0 5 0 4 []
      if !emerged then s
      else
        let k := s.get (Reg.BUP_RSTAT_NOUT ring)
        let s := ((s.splitSend ring k false).bringMod ring fun r =>
          { r with nodes := r.nodes.map fun e => (e.1, { e.2 with isEnd := false }) }).retTone ring false
        let s := (s.set (Reg.BUP_RSTAT_NOUT ring) 24).set (Reg.BUP_RSTAT_NRET ring) 24
        ((s.ringTo ring 1).levelOff (detN 17 ring)).ringJudge ring)

/-- The Bupilin island is powered and out of reset (R440, R598). -/
def State.ringsRun (s : State) : Bool := bit (s.get Reg.GLB_ISL_PWR_ISL) 8 && !bit (s.get Reg.GLB_ISL_RST_ISL) 8

/-- WAKE_TONE (R440): heard by a module whose Bupilin island runs. -/
def execWakeTone (ring : Nat) (s : State) : Out State :=
  .next (if !s.ringsRun then s else
    let s := (s.putBit Reg.BUP_STAT_WAKE ring true).raise (detN 17 (4 + ring)) 0 ring
    let s := s.evt 5 0x0803 (le 1 ring ++ zeros 3 ++ le 4 (s.time / 1000000) ++ zeros 4)
    if s.get (Reg.BUP_RSTAT_STATE ring) = 0 then s else s.enumStart ring)

/-! ## SNAPs (R428 to R431) -/

/-- The duties of the switching phases of a string: CAL, RUN, SHED, BURST or EST (R429). -/
def State.duties (s : State) (st : Nat) : List Nat :=
  ((groupPhases (st + 1)).filter fun q => decide (3 ≤ s.pst q ∧ s.pst q ≤ 7)).map fun q => (s.phase q).duty

/-- The edge-free half-width in ns about a valley, or a peak (R429). -/
def State.halfWidth (s : State) (st : Nat) (valley : Bool) : Nat :=
  match s.duties st with
  | [] => 5000
  | d :: t => if valley then 5000 * t.foldl min d / 65536 else 5000 * (65536 - t.foldl max d) / 65536

/-- c_P of R428, ns. -/
def State.carrierOfs (s : State) : Nat :=
  let p := s.get Reg.CHS_PERIOD_CYC
  if p = 500 then 2600 else if p = 2000 then 8600 else 4600

/-- The first time at or after `t` that lies at 10 us × n + `o`. -/
def nextAt (t o : Nat) : Nat := if t ≤ o then o else o + cdiv (t - o) 10000 * 10000

/-- The sample instant of a SNAP due at `due`, and whether it is a valley (R429). -/
def State.sampleInstant (s : State) (st due : Nat) : Nat × Bool :=
  let t := due + 40000
  let v := nextAt t s.carrierOfs
  let p := nextAt t ((s.carrierOfs + 5000) % 10000)
  let hv := s.halfWidth st true
  let hp := s.halfWidth st false
  let late := t + s.get Reg.BUP_SNAP_DEFER * 100000
  let okV := decide (2000 ≤ hv) && (decide (v ≤ late) || decide (v ≤ p))
  let okP := decide (2000 ≤ hp) && (decide (p ≤ late) || decide (p ≤ v))
  if okV && okP then (if v ≤ p then (v, true) else (p, false))
  else if okV then (v, true)
  else if okP then (p, false)
  else if hp ≤ hv then (v, true)
  else (p, false)

/-- A cause of FAST holds (R431). -/
def State.fastCause (s : State) (st : Nat) : Bool :=
  let i := ((s.chs.igrp[st + 1]?).join).getD 0
  (s.get Reg.BUP_CTL_FASTI != 0 && decide (s.get Reg.BUP_CTL_FASTI * 100 ≤ i.natAbs)) || s.on Reg.STL_STAT_BURST ||
    s.estFast st || decide (s.time < (s.bring st).force)

/-- A change list that holds PERIOD runs (R429). -/
def State.periodRuns (s : State) : Bool :=
  s.chs.lists.any fun l => decide (l.done ≠ 0) && l.steps.any fun x => x.any fun r => r.type == 5

/-- Staged tables are imposed at the next SNAP (R465); the management cluster hands none over while it restarts (R59). -/
def State.imposeTables (s : State) : State :=
  let go := s.staged.filter fun c => !s.glb.mgmtDown && decide (c.due ≤ s.get Reg.CHS_PNUM) && (match c.act with
    | .estTable _ _ _ => true
    | _ => false)
  go.foldl (fun s c =>
    let s := { s with staged := s.staged.filter fun d => d.no != c.no }
    match c.act with
    | .estTable k p b => (s.imposeTable k p b).changeDone c 0 1 0xFF
    | _ => s) s

/-- What waits for a SNAP takes effect: register writes (R444), with the CFG values they change (R438), and tables. -/
def State.snapPoint (s : State) (st : Nat) : State :=
  let old := (List.range 7).map fun k => s.bupCfg st (k + 1)
  let s := (s.applyW .snap).imposeTables
  let chg := ((List.range 7).filter fun k => some (s.bupCfg st (k + 1)) != old[k]?).map (· + 1)
  if chg.isEmpty then s else s.cfgAdd st chg

/-- SNAP_DUE (R429 to R431): the master chooses the sample instant and sends the SNAP, which announces the next one, unless the SNAP waits;
what waits for a SNAP waits with it. At a module that relays the ring, SNAP_DUE is the master's SNAP. -/
def State.snapDue (s : State) (st : Nat) : State :=
  let r := s.bring st
  let state := s.get (Reg.BUP_RSTAT_STATE st)
  if !s.masters st then s.snapPoint st
  else if (state ≠ 1 ∧ state ≠ 2) ∨ r.enum ≠ 0 ∨ r.echo.isSome ∨ s.periodRuns then s
  else
    let s := s.snapPoint st
    let id := (s.get (Reg.BUP_RSTAT_SNAP st) + 1) % 256
    let cause := s.fastCause st
    let hold := if cause then s.time + s.get Reg.BUP_SNAP_FHOLD * 100000000 else r.hold
    -- the rate that the SNAP before announced holds for this one; the one that it announces, from the next on (R431)
    let fast := r.announced
    let want := cause || decide (s.time < hold)
    let owN := (r.owAsk.head?).getD 0
    let ms := if fast then (if owN = 0 then 1 else 3) else (if s.get Reg.BUP_SNAP_NPER = 0 then 10 else s.get Reg.BUP_SNAP_NPER)
    let grp := s.get (Reg.BUP_RTGT_GRP st)
    let mode := grp + 4 * b2n want + 8 * b2n (decide (r.owNext ≠ 0)) + 16 * owN
    let (t, valley) := s.sampleInstant st (max s.time r.next)
    let s := (s.set (Reg.BUP_RSTAT_SNAP st) id).putBit Reg.BUP_STAT_FAST st fast
    let s := s.bringMod st fun r =>
      { r with snaps := (({ id := id, at_ := t, ow := r.owNext, valley := valley } : SnapX) :: r.snaps).take 16
               next := max s.time r.next + ms * 1000000, fast := fast, announced := want, hold := hold, owNext := owN
               owAsk := r.owAsk.drop 1, turn := if fast && r.fast then r.turn else 1 }
    s.bupAll st 2 0 (le 1 id ++ le 2 (ms * 100) ++ le 1 mode ++ zeros 2)

/-- SNAP_DUE (R429). -/
def execSnapDue (ring : Nat) (s : State) : Out State := .next (s.snapDue ring)

/-- A SNAP's string current and V_bus: those of the period that held its instant, or the present ones. -/
def State.snapCur (s : State) (st : Nat) (x : SnapX) : Option Int × Nat :=
  x.cur.getD ((s.chs.igrp[st + 1]?).join, s.get Reg.CHS_VBUS)

/-- What a relaying module takes of a SNAP that passes it (R419, R444): its id, the group and the rate in force, the rate and the wire set
announced, and when the next is due. DESIGN CHOICE (unsafe): it takes the sample instant as the first valley or peak from 468 us before
the frame has come back, the time that the frame takes on the line (log entry 46). -/
def State.relaySnap (s : State) (st id nxt mode : Nat) : State :=
  let r := s.bring st
  if r.snaps.head?.any fun x => x.id == id then s
  else
    let t := s.time - 468000
    let v := nextAt t s.carrierOfs
    let p := nextAt t ((s.carrierOfs + 5000) % 10000)
    let s := ((s.set (Reg.BUP_RSTAT_SNAP st) id).set (Reg.BUP_RTGT_GRP st) (bits mode 0 2)).putBit Reg.BUP_STAT_FAST st r.announced
    s.bringMod st fun r =>
      { r with snaps := (({ id := id, at_ := min v p, ow := if bit mode 3 then r.owNext else 0, valley := decide (v ≤ p) } : SnapX) ::
                 r.snaps).take 16
               next := t + nxt * 10000, fast := r.announced, announced := bit mode 2, owNext := bits mode 4 2 }

/-- SNAP (R430, R431, R454, R460): a SNAP frame has come back with the MINMAX records of the SNAP before it. A resting
string is tested, and the master reads the node records. -/
def execSnap (ring port : Nat) (frame : List Byte) (s : State) : Out State :=
  .next (s.bupTake ring frame fun cmd _ _ args recs s =>
    if cmd ≠ 2 ∨ args.length ≠ 6 then s
    else
      let id := rd args 0 1
      let s := if s.masters ring then s else s.relaySnap ring id (rd args 1 2) (rd args 3 1)
      let r := s.bring ring
      let prevOw := match r.snaps.dropWhile fun x => x.id != id with
        | _ :: y :: _ => y.ow != 0
        | _ => false
      let s := if prevOw then s
        else (s.side ring port).zipIdx.foldl (fun s e =>
          if recs.length < 4 * e.2 + 4 then s
          else s.nodeMod ring e.1 fun n => { n with minmax := some (rd recs (4 * e.2) 2, rd recs (4 * e.2 + 2) 2) }) s
      let s := match r.snaps.find? fun x => x.id == id with
        | some x => s.restTest ring id (s.snapCur ring x).1
        | none => s
      let s := if r.fast then (s.putLimits ring).strRegs ring else s
      if !s.masters ring then s
      else if r.fast then
        let set := if r.turn = 1 then id else r.setId
        let s := s.bringMod ring fun r => { r with setId := set, turn := if 23 ≤ r.turn then 1 else r.turn + 2 }
        s.bupAll ring 3 0 (le 1 set ++ le 1 r.turn ++ le 1 2 ++ le 1 0)
      else (s.bringMod ring fun r => { r with setId := id }).bupAll ring 3 0 (le 1 id ++ le 1 1 ++ le 1 24 ++ le 1 0))

/-! ## Readings (R432 to R437) -/

/-- A wire of a node is open. -/
def BRing.wireOpen (r : BRing) (a w : Nat) : Bool := (Tab.find r.openW (32 * a + w)).isSome

/-- Posts WIRE_OPEN (R442). -/
def State.wireEvt (s : State) (st a w open_ drop : Nat) : State :=
  s.evt 5 0x0801 (le 1 st ++ le 1 a ++ le 1 w ++ le 1 open_ ++ le 4 drop ++ zeros 4)

/-- The verdict of an open-wire SNAP on one wire of a node (R436), from the reading of its cell before and now. -/
def State.wireTest (s : State) (st a w : Nat) (before now : Nat) : State :=
  let key := 32 * a + w
  let s := s.bringMod st fun r => { r with suspect := r.suspect.filter (· != key) }
  let drop := before - now
  if s.get Reg.BUP_OWT_OWDROP * 10 < drop then
    if (s.bring st).wireOpen a w then s.bringMod st fun r => { r with openW := Tab.put r.openW key 0 }
    else
      let s := s.bringMod st fun r => { r with openW := Tab.put r.openW key 0 }
      (s.wireEvt st a w 1 (drop / 10)).unitOn (detN 18 (4 + st)) key
  else
    match Tab.find (s.bring st).openW key with
    | none => s
    | some n =>
      if n < 2 then s.bringMod st fun r => { r with openW := Tab.put r.openW key (n + 1) }
      else
        let s := (s.bringMod st fun r => { r with openW := Tab.del r.openW key }).wireEvt st a w 0 (drop / 10)
        if (s.bring st).openW.isEmpty then s.levelOff (detN 18 (4 + st)) else s

/-- An open-wire SNAP of a node: the wires of the set are judged (R436). Nothing of it reaches the estimator. -/
def State.owRecord (s : State) (st a set : Nat) (fine : List Nat) : State :=
  let cells := ((s.bring st).node a).cells
  ((List.range 17).filter fun w => w % 2 = set % 2).foldl (fun s w =>
    let c := if w = 0 then 0 else w - 1
    match (cells[c]?).bind (·.prev), fine[c]? with
    | some b, some n => if n = 0xFFFF then s else s.wireTest st a w b n
    | _, _ => s) s

/-- The wires of a node that this SNAP makes suspect (R437). -/
def suspects (dev : Nat) (d : List Int) : List Nat :=
  let m := median d
  let dd := d.map (· - m)
  ((List.range 15).filter fun k =>
    let x := (dd[k]?).getD 0
    let y := (dd[k + 1]?).getD 0
    decide (dev < x.natAbs ∧ dev < y.natAbs ∧ x * y < 0 ∧ 4 * (x + y).natAbs ≤ dev)).map (· + 1)

/-- The fine and coarse sums of a node are compared (R433): 3 SNAPs in a row beyond PLSUM make its fine path faulty, 100 in
agreement clear it. -/
def State.pathJudge (s : State) (st a : Nat) (agree : Bool) (fine coarse : Nat) : State :=
  let n := (s.bring st).node a
  let s := s.nodeMod st a fun n => if agree then { n with differ := 0, agree := n.agree + 1 } else { n with differ := n.differ + 1, agree := 0 }
  if !agree ∧ n.differ + 1 = 3 ∧ !n.fault then
    let s := s.nodeMod st a fun n => { n with fault := true, agree := 0 }
    let s := s.evt 5 0x0802 (le 1 st ++ le 1 a ++ le 1 1 ++ le 1 0 ++ le 4 (fine / 10) ++ le 4 (50 * coarse))
    s.unitOn (detN 18 (8 + st)) (st * 32 + a)
  else if agree ∧ n.fault ∧ 100 ≤ n.agree + 1 then
    let s := s.nodeMod st a fun n => { n with fault := false }
    if (s.bring st).nodes.any fun e => e.2.fault then s else s.levelOff (detN 18 (8 + st))
  else s

/-- The reading of cell `c` of a node is tainted: its switch, or one beside it, was found on (R434). -/
def tainted (balon c : Nat) : Bool := bit balon c || (decide (c ≠ 0) && bit balon (c - 1)) || bit balon (c + 1)

/-- The flags and the value of one cell of a node's record (R432, R434, R436). -/
def cellOf (r : BRing) (a c id : Nat) (n : NodeX) (fine : List Nat) (coarse balon vlo vhi : Nat) (noisy : Bool)
    (x : CellX) : CellX :=
  let at_ := fun k => (fine[k]?).getD 0xFFFF
  let v := at_ c
  let others := ((List.range 16).filter (· != c)).foldl (fun t k => t + at_ k) 0
  let deriv := (c == 0 && r.wireOpen a 0) || (c == 15 && r.wireOpen a 16)
  let wire := deriv || (decide (c ≠ 15) && r.wireOpen a (c + 1)) || (decide (c ≠ 0) && r.wireOpen a c)
  let v := if deriv then 500 * coarse - others else v
  let taint := decide (v ≠ 0xFFFF) && tainted balon c
  let impl := decide (v ≠ 0xFFFF) && (decide (v < vlo * 10) || decide (vhi * 10 < v))
  { x with v := v, taint := taint, wire := wire, deriv := deriv, impl := impl, noisy := noisy, snap := id
           valid := decide (v ≠ 0xFFFF) && !wire && !impl && !n.fault
           prev := if at_ c = 0xFFFF then x.prev else some (at_ c) }

/-- What the estimator takes of a cell (R448): uV and weight; none for an excluded reading. The cells beside an open wire go in as their
sum, whatever each of them reads (R436). -/
def inputOf (r : BRing) (a c : Nat) (n : NodeX) (fine : List Nat) (coarse balon : Nat) (x : CellX) : Option CellIn :=
  let at_ := fun k => (fine[k]?).getD 0xFFFF
  let out := fun k => at_ k == 0xFFFF || tainted balon k
  let pair := fun (k : Nat) =>
    if out k || out (k + 1) then none else some { uv := (at_ k + at_ (k + 1)) * 100 / 2, full := !x.noisy : CellIn }
  if n.fault then
    if coarse = 0x3FF then none else some { uv := 50000 * coarse / 16, full := false, coarse := true }
  else if x.deriv then (if x.taint || x.impl || x.v == 0xFFFF then none else some { uv := x.v * 100, full := !x.noisy })
  else if decide (c ≠ 15) && r.wireOpen a (c + 1) then pair c
  else if decide (c ≠ 0) && r.wireOpen a c then pair (c - 1)
  else if x.taint || x.impl || x.v == 0xFFFF then none
  else some { uv := x.v * 100, full := !x.noisy }

/-- A node record of a SNAP that was not an OW SNAP (R432 to R437, R448, R452). -/
def State.cellRecord (s : State) (st a : Nat) (x : SnapX) (rec_ : List Byte) : State :=
  let fine := (List.range 16).map fun k => rd rec_ (4 + 2 * k) 2
  let coarse := rd rec_ 36 2 % 1024
  let sum := fine.foldl (· + ·) 0
  let whole := fine.all (· != 0xFFFF) && coarse != 0x3FF
  let agree := decide ((if sum ≤ 500 * coarse then 500 * coarse - sum else sum - 500 * coarse) ≤ s.get Reg.BUP_PLAUS_PLSUM * 100)
  let r0 := s.bring st
  let prevs := (r0.node a).cells.map (·.prev)
  let s := if whole then s.pathJudge st a agree sum coarse else s
  -- suspicion
  let sus := if whole && agree && prevs.all Option.isSome then
      suspects (s.get Reg.BUP_PLAUS_WIREDEV * 10) ((fine.zip prevs).map fun e => (e.1 : Int) - (e.2.getD 0 : Nat))
    else []
  let s := if sus.isEmpty then s else s.bringMod st fun r =>
    { r with suspect := r.suspect ++ (sus.map (32 * a + ·)).filter fun k => !r.suspect.contains k
             owAsk := r.owAsk ++ ((sus.map fun w => 2 - w % 2).eraseDups).filter fun k => !r.owAsk.contains k }
  -- the readings
  let r := s.bring st
  let n := r.node a
  let vlo := s.get Reg.BUP_LIM_VLO
  let vhi := s.get Reg.BUP_LIM_VHI
  let wasImpl := n.cells.any (·.impl)
  let cs := n.cells.zipIdx.map fun (y, c) => cellOf r a c x.id n fine coarse (rd rec_ 38 2) vlo vhi x.noisy y
  let (iStr, vb) := s.snapCur st x
  let i := s.cellCur st iStr vb
  let (temp, fall) := s.nodeTemp st a
  let tab := s.strTab st
  let curve := s.socTab.curve temp (divRne (i * 100) (s.capOf st))
  let tf := if s.get Reg.BUP_EST_CTL_TF = 0 then 200 else s.get Reg.BUP_EST_CTL_TF
  let (z0, s) := s.draw
  let cs := cs.zipIdx.map fun (y, c) =>
    match inputOf r a c n fine coarse (rd rec_ 38 2) y with
    | some e => y.step curve tab temp i ((z0 % 100000001 : Nat) : Int) x.at_ tf e
    | none => { y with full := false }
  let s := s.nodeMod st a fun n => { n with cells := cs }
  let s := s.add (Reg.BUP_RTAINT st) (cs.countP (·.taint))
  let s := if fall then s.set (Reg.BUP_EST_STAT_TFALL st) 1 else s.set (Reg.BUP_EST_STAT_TFALL st) 0
  if cs.any (·.impl) then
    if wasImpl then s
    else
      let s := s.evt 5 0x0802 (le 1 st ++ le 1 a ++ le 1 3 ++ le 1 0 ++ le 4 (sum / 10) ++ le 4 (50 * coarse))
      s.unitOn (detN 18 st) (st * 32 + a)
  else if (s.bring st).nodes.any fun e => e.2.cells.any (·.impl) then s
  else s.levelOff (detN 18 st)

/-- One node record of a COLLECT frame (R424). -/
def State.nodeRecord (s : State) (st : Nat) (rec_ : List Byte) : State :=
  let a := rd rec_ 0 1
  if a = 0 ∨ 24 < a then s
  else
    let status := rd rec_ 2 2
    let s := s.nodeMod st a fun n =>
      { n with miss := 0, temp := [rd rec_ 40 2, rd rec_ 42 2], sum := rd rec_ 36 2 % 1024, balon := rd rec_ 38 2 }
    let s := if ((s.bring st).node a).lost then
        let s := s.nodeMod st a fun n => { n with lost := false }
        let s := if (s.bring st).nodes.any fun e => e.2.lost then s
          else (s.set (Reg.BUP_RSTAT_LOST st) 0).levelOff (detN 17 st)
        s.ringJudge st
      else s
    let s := s.bringMod st fun r => { r with seen := if r.seen.contains a then r.seen else a :: r.seen }
    -- a node outside the compatibility table is not served (R74)
    if bit status 3 || s.fwOut ((s.bring st).node a) then s
    else
      match (s.bring st).snaps.find? fun x => x.id == rd rec_ 1 1 with
      | none => if bit status 0 then s else s.cellRecord st a { id := rd rec_ 1 1, at_ := s.time, ow := 0, valley := true } rec_
      | some x =>
        if x.ow ≠ 0 then s.owRecord st a x.ow ((List.range 16).map fun k => rd rec_ (4 + 2 * k) 2)
        else s.cellRecord st a x rec_

/-- The first full set of a closed ring after an enumeration sets RING[s] when every cell lies within the plausibility limits (R73). -/
def State.fullSet (s : State) (st : Nat) : State :=
  if (s.bring st).seen.length < 24 then s
  else
    let r := s.bring st
    let good := r.nodes.all fun e => e.2.cells.all fun c => c.v != 0xFFFF && !c.impl
    let s := s.bringMod st fun r => { r with seen := [], judged := r.judged || (r.idRead && good && decide (r.enum = 0) && s.get (Reg.BUP_RSTAT_STATE st) == 1) }
    s.ringJudge st

/-- Every node that is not lost has given its record of SNAP `id` (R464). -/
def State.hasAll (s : State) (st id : Nat) : Bool := (s.bring st).nodes.all fun e => e.2.lost || e.2.cells.all fun c => c.snap == id

/-- COLLECT (R423, R427, R432 to R437, R452): a COLLECT frame has come back. Nodes that it named and that appended nothing
are counted. -/
def execCollect (ring port : Nat) (frame : List Byte) (s : State) : Out State :=
  .next (s.bupTake ring frame fun cmd _ _ args recs s =>
    if cmd ≠ 3 ∨ args.length ≠ 4 then s
    else
      let got := (List.range (recs.length / 44)).map fun k => (recs.drop (44 * k)).take 44
      let named := (s.side ring port).filter fun a => decide (rd args 1 1 ≤ a ∧ a < rd args 1 1 + rd args 2 1)
      let s := got.foldl (fun s b => s.nodeRecord ring b) s
      let s := (named.filter fun a => !(got.any fun b => rd b 0 1 == a)).foldl (fun s a => s.noRecord ring a) s
      let s := match (s.strX ring).learn, (s.bring ring).snaps.find? fun x => some x.id == (s.strX ring).learn with
        | some id, some x => if s.hasAll ring id then s.learnR0 ring id (s.cellCur ring (s.snapCur ring x).1 (s.snapCur ring x).2) else s
        | _, _ => s
      ((s.staleJudge ring).strUpdate ring).fullSet ring)

/-! ## Balancing, tests and rates (R431, R435, R436) -/

/-- The group in force as BUP_RTGT shows it: none after a halt, or while the spread is small (R435). -/
def State.putGroup (s : State) (st : Nat) : State :=
  let r := s.bring st
  s.set (Reg.BUP_RTGT_GRP st) (if r.balance && !s.halted then r.group else 0)

/-- REST_END (R460, R461): the reference, and with it the balancing target, which goes to the nodes, and
whether a group balances (R435, R438). -/
def State.restEnd (s : State) (st : Nat) : State :=
  if (s.strX st).rest ≠ 2 then s
  else
    let zc := pctOf (s.zcc st)
    let s := s.bringMod st fun r => { r with nodes := r.nodes.map fun e =>
      (e.1, { e.2 with cells := e.2.cells.map fun c => if c.on && c.full then { c with z := c.zi } else c }) }
    let s := s.putSoc st
    let s := s.strMod st fun x => { x with rep := x.soc, q := 0, ref := x.soc, last := some s.time, held := false,
                                           rest := 3, since := s.time, learn := none }
    let s := s.setConf st true
    let cs := s.cleanCells st
    let s := match leastI cs with
      | none => s
      | some lo =>
        let spread := cs.foldl max lo - lo
        ((((s.set (Reg.BUP_RTGT_TGT st) lo.toNat).bringMod st fun r =>
          { r with balance := decide (((s.get Reg.BUP_BAL_SPREAD * 10 : Nat) : Int) < spread) }).putGroup st).cfgAdd st [1])
    let s := (s.set (Reg.BUP_EST_STAT_RESTING st) 0).set Reg.BUP_EST_RSTAT_STR 0
    (s.strRegs st).evt 5 0x0810 (le 1 st ++ le 1 0 ++ zeros 2 ++ le 4 (pctOf (s.strX st).soc) ++ le 4 zc)

/-- REST_END (R461). -/
def execRestEnd (st : Nat) (s : State) : Out State := .next (s.restEnd st)

/-- BALANCE_ALT (R435): the groups alternate. -/
def execBalanceAlt (ring : Nat) (s : State) : Out State :=
  .next ((s.bringMod ring fun r => { r with group := 3 - r.group }).putGroup ring)

/-- An OW SNAP of a wire set is asked for (R436). -/
def State.owAsk (s : State) (st set : Nat) : State :=
  s.bringMod st fun r => if r.owAsk.contains set then r else { r with owAsk := r.owAsk ++ [set] }

/-- OW_TEST_DUE (R436): a periodic test, alternating the sets; suspects ask for their own set. -/
def execOwTestDue (ring : Nat) (s : State) : Out State :=
  .next (
    let r := s.bring ring
    let s := r.suspect.foldl (fun s k => s.owAsk ring (2 - k % 32 % 2)) s
    if s.get Reg.BUP_OWT_OWPER = 0 then s
    else (s.owAsk ring (3 - r.owLast)).bringMod ring fun r => { r with owLast := 3 - r.owLast })

/-- FAST_HOLD_EXPIRY (R431): FHOLD has passed since the last cause; the next SNAP announces NORMAL. -/
def execFastHoldExpiry (ring : Nat) (s : State) : Out State :=
  .next (if s.fastCause ring then s else s.bringMod ring fun r => { r with hold := 0 })

/-! ## What a period boundary does for the rings -/

/-- A SNAP whose instant lay in the period that ends takes that period's current, and is NOISY when the half-width then was
below 1.2 us (R429, R446). -/
def State.snapTick (s : State) (st : Nat) : State :=
  match (s.bring st).snaps with
  | [] => s
  | x :: t =>
    if x.cur.isSome then s
    -- the duties on the near side of the instant are those last sent before it (R429)
    else if s.time ≤ x.at_ then s.bringMod st fun r => { r with snaps := { x with before := s.halfWidth st x.valley } :: t }
    else
      let noisy := decide (min x.before (s.halfWidth st x.valley) < 1200)
      let y := { x with cur := some ((s.chs.igrp[st + 1]?).join, s.get Reg.CHS_VBUS), noisy := noisy }
      let s := s.bringMod st fun r => { r with snaps := y :: t }
      if noisy then s.bump (Reg.BUP_RNOISY st) else s

/-- A break that has not been bridged within 20 ms is a fault (R426, R427), and enumeration is due again in 5 s (R73). -/
def State.echoTick (s : State) (st : Nat) : State :=
  match (s.bring st).echo with
  | some t =>
    if t + 20000000 ≤ s.time then
      ((s.bringMod st fun r => { r with echo := none, retry := some (s.time + 5000000000) }).ringTo st 3).setRing st false
    else s
  | none => s

/-- A failed enumeration is tried again when its time has come (R73). -/
def State.retryTick (s : State) (st : Nat) : State :=
  match (s.bring st).retry with
  | some t => if t ≤ s.time ∧ s.masters st ∧ (s.bring st).enum = 0 then s.enumStart st else s
  | none => s

/-- A cause of FAST holds it for FHOLD from its last period on (R431). -/
def State.fastTick (s : State) (st : Nat) : State :=
  if s.fastCause st then s.bringMod st fun r => { r with hold := max r.hold (s.time + s.get Reg.BUP_SNAP_FHOLD * 100000000) } else s

/-- What a boundary does for one ring: the SNAP of the period, a break without answer, a failed enumeration, its rate. -/
def State.ringTick (s : State) (st : Nat) : State := (((s.snapTick st).echoTick st).retryTick st).fastTick st

/-! ## Commands (R441) -/

/-- RING_QUERY of the ring block (R441). -/
def execBupRingQuery (r : Nat) (d : Desc) (s : State) : Out State :=
  .next (s.cmd r 0x0800 d { priv := 0, buf := .writes, lenOk := fun n => 64 ≤ n } fun s =>
    let st := bits d.p0 0 2
    image s 64 (le 4 (s.read 0x50024 0) ++ s.regBytes ((List.range 8).map fun k => 0x50100 + 0x40 * st + 4 * k)))

/-- CELL_READ (R441). -/
def execCellRead (r : Nat) (d : Desc) (s : State) : Out State :=
  .next (s.cmd r 0x0801 d { priv := 0, buf := .writes, lenOk := fun n => 1536 ≤ n } fun s =>
    image s 1536 (s.regBytes ((List.range 384).map fun i => 0x51000 + 0x800 * bits d.p0 0 2 + 4 * i)))

/-- RING_ENUM (R441): reason 1 while a phase of the string is armed, unless forced. -/
def execRingEnum (r : Nat) (d : Desc) (s : State) : Out State :=
  .next (s.cmd r 0x0802 d { priv := 2, standby := true } fun s =>
    let st := bits d.p0 0 2
    if s.strArmed st && !bit d.p1 0 then refuse s 1
    else ok ((s.logC (.host r) 2 0 0x0802 5 st 0 (bits d.p1 0 1)).enumStart st))

/-- OW_TEST (R441). -/
def execOwTest (r : Nat) (d : Desc) (s : State) : Out State :=
  .next (s.cmd r 0x0803 d { priv := 2, standby := true, parOk := decide (d.p1 = 1 ∨ d.p1 = 2) } fun s =>
    ok ((s.logC (.host r) 2 0 0x0803 5 (bits d.p0 0 2) 0 d.p1).owAsk (bits d.p0 0 2) d.p1))

/-- BUP_FAST (R441): forces FAST for a time; 0 ends the force, and FHOLD runs from there (R431). -/
def execBupFast (r : Nat) (d : Desc) (s : State) : Out State :=
  .next (s.cmd r 0x0804 d { priv := 1, standby := true, parOk := decide (d.p1 ≤ 3600) } fun s =>
    let f := s.time + d.p1 * 1000000000
    ok ((s.logC (.host r) 2 0 0x0804 5 (bits d.p0 0 2) 0 d.p1).bringMod (bits d.p0 0 2) fun x => { x with force := f, hold := f + s.get Reg.BUP_SNAP_FHOLD * 100000000 }))

end Sys2Proof.Machine
end

