-- ==== Sys2Proof/Machine/Isolate.lean ====
section
/-!
DEFINITION. The degrade actions of every block (R474) carried out together, and DETECTOR_EVENT.
-/
namespace Sys2Proof.Machine

/-- The Roscor link goes down (R489): ROSCOR and readiness clear, and detector 20.0 is raised. -/
def State.roscorDown (s : State) : State :=
  let s := ((s.set Reg.ROS_STAT_UP 0).set Reg.ROS_STAT_READY 0).setReady Reg.GLB_BOOTSTAT_ROSCOR 0
  (s.levelOn (detN 20 0) 0 0).peerReady false

/-- The grid measurement is marked invalid (R42). -/
def State.meterBad (s : State) : State :=
  { s with glb := { s.glb with meterOk := false, meterSeq := none, meterRun := 0, meterMiss := 0 } }

/-- A wire of string `st` is taken as open on an injection (R436, R482); `key` is 32 × node + wire, as its raise numbers it. -/
def State.wireFound (s : State) (st key : Nat) : State :=
  let s := if (s.bring st).wireOpen (key / 32) (key % 32) then s else s.wireEvt st (key / 32) (key % 32) 1 0
  s.bringMod st fun r => { r with openW := Tab.put r.openW key 0 }

/-- The fine path of a node is taken as faulty on an injection (R433, R482). -/
def State.pathFault (s : State) (st a : Nat) : State := s.nodeMod st a fun n => { n with fault := true, agree := 0 }

/-- A degrade order on a ring, a cell, the input current, the meter or the Roscor link. The owner of a real cause has isolated the unit when it raised
the detector; an injected raise takes the path that a real cause would (R482). Other detectors name no unit to isolate. -/
def State.otherOrder (s : State) (n unit : Nat) (inj : Bool) : State :=
  if !inj then s
  else if detN 17 0 ≤ n ∧ n < detN 17 4 then s.enumFault (n - detN 17 0)
  else if detN 18 4 ≤ n ∧ n < detN 18 8 then s.wireFound (n - detN 18 4) unit
  else if detN 18 8 ≤ n ∧ n < detN 18 12 then s.pathFault (n - detN 18 8) (unit % 32)
  else if n = detN 3 2 then
    s.pwrChange fun s => (s.prsMod fun p => { p with i4Cap := true }).set Reg.GLB_PWRSTAT_CAP4 1
  else if n = detN 16 0 then s.meterBad
  else if n = detN 20 0 then s.roscorDown
  else s

/-- The degrade orders given so far are carried out (R474, R476); none is left. While the safe frames of a halt are owed,
the first ones leave at once (R343, R473); a halt during the start builds the health report (R79). -/
def State.settle (s : State) : State :=
  let s := s.settlePress.settleStage
  let os := s.era.orders
  let s := os.foldl (fun s o => s.otherOrder o.1 o.2.1 o.2.2) s
  let s : State := { s with era := { s.era with orders := [] } }
  (if s.glb.safeLeft = 10 then s.safeFirst else s).reportDue

/-- DETECTOR_EVENT (R471, R473 to R476). -/
def execDetectorEvent (n esc param : Nat) (present : Bool) (s : State) : Out State :=
  .next ((s.detectorEvent n esc param present).settle)

end Sys2Proof.Machine
end

