-- ==== Sys2Proof/Machine/Formes.lean ====
section
/-!
DEFINITION. Formes as the host loads, enables and runs them, and what becomes of their runs (R202, R203, R230 to R241).
-/
namespace Sys2Proof.Machine

/-- A hierarchy change or an activation of Press firmware is in progress: the forme commands give BUSY (R233). -/
def State.pressBusy (s : State) : Bool := s.prs.hier.isSome || s.prs.fwStep

/-! ## Loading (R233) -/

/-- FORME_OPEN (R233). -/
def execFormeOpen (r : Nat) (d : Desc) (s : State) : Out State :=
  .next (s.cmd r 0x0210 d { priv := 2, standby := true, parOk := decide (128 ≤ d.p1 ∧ d.p1 ≤ 268435456) } fun s =>
    let i := bits d.p0 0 8
    if s.pressBusy || (s.slotX i).load.any (fun l => l.ring != r) then bad s 0x16
    else ok ((s.logC (.host r) 2 0 0x0210 2 i 0 d.p1).slotMod i fun x => { x with load := some { ring := r, tlen := d.p1 } }))

/-- FORME_WRITE (R233). -/
def execFormeWrite (r : Nat) (d : Desc) (s : State) : Out State :=
  .next (s.cmd r 0x0211 d
    { priv := 2, standby := true, buf := .reads, lenOk := fun n => 8 ≤ n && n ≤ 1048576 && n % 8 == 0,
      parOk := d.p1 % 8 == 0 } fun s =>
    let i := bits d.p0 0 8
    match (s.slotX i).load with
    | none => bad s 0x16
    | some l =>
      if l.ring ≠ r then bad s 0x16
      else if l.tlen < d.p1 + d.len then bad s 0x14
      else okN ((s.logC (.host r) 2 0 0x0211 2 i d.p1 d.len).slotMod i fun x =>
        { x with load := some { l with chunks := (d.p1, bufBytes d) :: l.chunks } }) d.len)

/-- FORME_ABORT (R233). -/
def execFormeAbort (r : Nat) (d : Desc) (s : State) : Out State :=
  .next (s.cmd r 0x0213 d { priv := 2, standby := true } fun s =>
    ok ((s.logC (.host r) 2 0 0x0213 2 (bits d.p0 0 8) 0 0).slotMod (bits d.p0 0 8) fun x => { x with load := none }))

/-- FORME_LOAD_TIMEOUT (R233): 10 s without FORME_WRITE or FORME_COMMIT. -/
def execFormeLoadTimeout (slot : Nat) (s : State) : Out State := .next (s.slotMod slot fun x => { x with load := none })

/-- Byte `i` of a load: the newest write that covers it; none where nothing was written. -/
def Load.byteAt (l : Load) (i : Nat) : Option Byte :=
  match l.chunks.find? fun c => decide (c.1 ≤ i ∧ i < c.1 + c.2.length) with
  | some c => c.2[i - c.1]?
  | none => none

/-- The container as written, when every byte from 0 to TLEN - 1 is. -/
def Load.whole (l : Load) : Option (List Byte) := (List.range l.tlen).mapM l.byteAt

/-- The areas of a region that slots hold: formes in place, staged, and replaced ones not yet freed. -/
def State.areas (s : State) (area size : Forme → Nat) : List (Nat × Nat) :=
  s.prs.slots.flatMap fun e =>
    (e.2.forme.toList ++ (e.2.staged.map (·.1)).toList ++ e.2.old.toList).map fun f => (area f, size f)

/-- A place for the areas of a forme in the model, scratch and reserve regions, the same in every stack (check 11). -/
def State.placeForme (s : State) (f : Forme) : Option Forme :=
  match firstFit (regionSize 2) f.mbytes (s.areas (·.marea) (·.mbytes)),
        firstFit (regionSize 3) f.sbytes (s.areas (·.sarea) (·.sbytes)),
        firstFit (regionSize 4) f.rbytes (s.areas (·.rarea) (·.rbytes)) with
  | some m, some c, some v => some { f with marea := m, sarea := c, rarea := v }
  | _, _, _ => none

/-- Slot `i` is enabled once the staged FORME_ENABLE commands are imposed: the last one for it decides. -/
def State.willEn (s : State) (i : Nat) : Bool :=
  s.staged.foldl (fun b c => match c.act with
    | .formeEnable j en => if j = i then en else b
    | _ => b) (s.slotX i).en

/-- The kind of a slot's forme, the staged one where there is one. -/
def Slot.willKind (x : Slot) : Option Nat := ((x.staged.map (·.1)).or x.forme).map (·.kind)

/-- Slots of a kind that are enabled, or will be by staged commands, slot `i` left out. -/
def State.willEnOf (s : State) (kind i : Nat) : Nat :=
  s.prs.slots.countP fun e => s.willEn e.1 && e.2.willKind == some kind && e.1 != i

/-- Most slots of a kind that may be enabled (R202). -/
def enLimit (kind : Nat) : Nat := match kind with | 0 => 4 | 1 => 1 | _ => 256

/-- A slot of a kind with a worst case of `w` cycles fits the budget of R230 beside the PROOF slots that are enabled or will be. -/
def State.willFit (s : State) (i kind w : Nat) : Bool :=
  let sum := (s.prs.slots.filter fun e => s.willEn e.1 && e.2.kindIs 0 && e.1 != i).foldl (fun a e => a + e.2.wcyc) 0
  match kind with
  | 0 => decide (sum + w ≤ s.pbudget)
  | 1 => decide (w ≤ s.planDiv * (19000 - sum))
  | _ => true

/-- The checks of R234 in order: the refusal, or the forme with its areas. DESIGN CHOICE (safe): a forme whose kind would make a fifth PROOF
or a second PLAN slot of an enabled slot is refused with reason 17, which R234 states for FORME_ENABLE (log entry 93). -/
def State.commitCheck (s : State) (i : Nat) (l : Load) : Refused ⊕ Forme :=
  match l.whole with
  | none => .inl (1, 0, 0)
  | some b =>
    match containerCheck b with
    | some x => .inl x
    | none =>
      let f := readForme b
      let cfg := s.get Reg.GLB_HIER_CFG
      match formeCheck cfg f with
      | some x => .inl x
      | none =>
        match s.placeForme f with
        | none => .inl (11, 0, 0)
        | some f =>
          match formeCheck2 f with
          | some x => .inl x
          | none =>
            if f.kind ≤ 1 ∧ !(f.variants.any fun v => v.serves cfg (fullQuires cfg)) then .inl (15, 0, 0)
            else if s.willEn i ∧ (s.willEnOf f.kind i ≥ enLimit f.kind) then .inl (17, 0, 0)
            else if s.willEn i ∧ !s.willFit i f.kind (((s.select f).map f.wcycAt).getD 0) then .inl (16, 0, 0) else .inr f

/-- REFUSED with a reason of R234: it is shown in PRS_FSTAT. -/
def State.refuseForme (s : State) (i : Nat) (x : Refused) : Reply :=
  refuse ((s.set Reg.PRS_FSTAT_LASTREF x.1).set Reg.PRS_FSTAT_LASTSLOT i) (x.1 + x.2.1 * 256 + x.2.2 * 16777216)

/-- The first 8 bytes of the digest of a slot's forme, 0 for none (R530). -/
def Slot.mark (x : Slot) : Nat := match x.forme with
  | some f => ofLe (f.digest.take 8)
  | none => 0

/-- A staged change leaves the list of those that wait. -/
def State.unstage (s : State) (n : Nat) : State := { s with staged := s.staged.filter fun c => c.no != n }

/-- A committed forme that still waits in slot `i` gives way: its change is rolled back (R110). -/
def State.stagedOff (s : State) (i : Nat) : State :=
  match (s.slotX i).staged with
  | some (_, b) => ((s.unstage b.no).slotMod i fun x => { x with staged := none, due := none }).changeDone b 1 0 0x14
  | none => s

/-- FORME_COMMIT (R234): refused loads stay open. -/
def execFormeCommit (r : Nat) (d : Desc) (s : State) : Out State :=
  .next (s.cmd r 0x0212 d { priv := 2, standby := true } fun s =>
    let i := bits d.p0 0 8
    if s.pressBusy then bad s 0x16
    else
      match (s.slotX i).load with
      | none => bad s 0x16
      | some l =>
        if l.ring ≠ r then bad s 0x16
        else
          match s.commitCheck i l with
          | .inl x => s.refuseForme i x
          | .inr f =>
            let (n, s) := s.stage1 r 2 0x0212 i (s.slotX i).mark (ofLe (f.digest.take 8)) 0 .own true
            match s.staged.find? fun c => c.no == n with
            | some c =>
              staged ((s.stagedOff i).slotMod i fun x => { x with load := none, staged := some (f, c), due := none }) n
            | none => staged s n)

/-! ## The training plan, and a promotion given up (R272, R286, R287) -/

/-- Field `i` of the training plan (R272): SUBJ, STEP, SHAD, CAND, WORK, CLEN, PSRC, PDST, PLEN, PRIOR. -/
def State.planN (s : State) (i : Nat) : Nat := (s.trn.plan[i]?).getD 0

/-- State of the trainer: 0 IDLE, 1 FILL, 2 RUN, 3 HELD, 4 OFFERED, 5 PROMOTING. -/
def State.trnState (s : State) : Nat := s.get Reg.PRS_TRN_STAT_STATE

/-- FILL until there is an epoch; then OFFERED while an offer is open, for steps stay stopped (R285), else RUN. -/
def State.trnResume (s : State) : State :=
  s.set Reg.PRS_TRN_STAT_STATE (if s.get Reg.PRS_TRN_STAT_NCAP = 0 then 1 else if s.trn.offer.isSome then 4 else 2)

/-- Address of offset `o` in the model area of a slot, in the stack of textblock `t`. -/
def State.modelAddr (s : State) (slot t o : Nat) : Nat :=
  dramAddr t (regionBase 2 + (match (s.slotX slot).forme with
    | some f => f.marea
    | none => 0) + o)

/-- `n` bytes move between the model areas of two slots, in every stack in service. -/
def State.copyArea (s : State) (src so dst dof n : Nat) : State :=
  s.tbs.foldl (fun s t => s.pwrite (s.modelAddr dst t dof) (s.pbytes (s.modelAddr src t so) n)) s

/-- The model-set digest (R238). -/
def State.modelDigest (s : State) : List Byte :=
  let t := (s.tbs.head?).getD 0
  sha384 (s.prs.slots.flatMap fun e => match e.2.forme with
    | some f => le 1 e.1 ++ fit 48 f.digest ++ sha384 (s.pbytes (dramAddr t (regionBase 2 + f.marea)) f.mbytes)
    | none => [])

/-- The first 8 bytes of the model-set digest, as the change log carries them (R287). -/
def State.setMark (s : State) : Nat := ofLe (s.modelDigest.take 8)

/-- The change of a promotion or revert is done (R287): its log entries hold generations and digests. -/
def State.promoDone (s : State) (p : Promo) (outcome steps failure : Nat) : State :=
  let s := s.logC (changeOrigin p.st.ring 2) (if outcome = 0 then 3 else 4) p.st.no p.st.opcode 2 p.st.target p.oldDigest
    s.setMark true
  s.changeDone p.st outcome steps failure

/-- A promotion or revert that has not been imposed is given up (R286): the prior area of a promotion is copied back. -/
def State.promoBack (s : State) (outcome failure : Nat) : State :=
  match s.trn.promo with
  | none => s
  | some p =>
    let s := if p.kind = 1 then s.copyArea (s.planN 1) (s.planN 9) (s.planN 0) (s.planN 7) (s.planN 8) else s
    let s := (s.trnMod fun x => { x with promo := none }).trnResume
    s.promoDone p outcome 0 failure

/-- The load or unload of slot `i` rolls back a promotion whose subject or step slot it is (R286), before the areas change. -/
def State.promoEnds (s : State) (i : Nat) : State := if i = s.planN 0 ∨ i = s.planN 1 then s.promoBack 1 0x14 else s

/-! ## Imposition (R235, R236) -/

/-- The model set goes to the model store, in place of the older of the two sets there (R70, R515, log entry 28). -/
def State.storeModel (s : State) : State :=
  let t := (s.tbs.head?).getD 0
  let xs := s.prs.slots.filterMap fun e => e.2.forme.map fun f =>
    (e.1, ({ f with data := [(0, s.pbytes (dramAddr t (regionBase 2 + f.marea)) f.mbytes)] }, e.2.en))
  s.prsMod fun p => { p with prevStore := p.store, store := xs }

/-- The DATA sections of a forme are copied to its model area in every stack in service (R205). -/
def State.copyData (s : State) (f : Forme) : State :=
  s.tbs.foldl (fun s t => f.data.foldl (fun s x => s.pwrite (dramAddr t (regionBase 2 + f.marea + x.1)) x.2) s) s

/-- A committed forme takes its slot with the variant chosen (R235). -/
def State.formeTakes (s : State) (i : Nat) (f : Forme) (c : Staged) (v : Nat) : State :=
  let s := ((s.promoEnds i).copyData f).slotMod i fun y =>
    { y with forme := some f, var := some v, staged := none, due := none, loaded := false, old := y.forme, lastCyc := 0, runs := 0, abandoned := 0,
             chg := c.no, inst := y.inst + 1, gen := 0 }
  let s := (s.variantReady i).storeModel
  let s := s.evt 2 0x0210 (le 4 c.no ++ le 1 i ++ le 1 v ++ zeros 2 ++ le 4 f.fid)
  let s := if s.trn.plan.head? = some i then s.set Reg.PRS_TRN_GEN 0 else s
  s.changeDone c 0 1 0xFF

/-- Slots of a kind that are enabled, slot `i` left out. -/
def State.enabledOf (s : State) (kind i : Nat) : Nat :=
  s.prs.slots.countP fun e => e.2.en && e.2.kindIs kind && e.1 != i

/-- The checks of R234 hold at an imposition too: the number of enabled slots of the kind, and the budget of R230. -/
def State.takesOk (s : State) (i : Nat) (f : Forme) (v : Nat) : Bool :=
  !(s.slotX i).en || (decide (s.enabledOf f.kind i < enLimit f.kind) && s.budgetOk i f.kind (f.wcycAt v))

/-- A committed forme is imposed, or rolled back when the copy failed or no variant fits (R235); `pick` selects the variant, for the
hierarchy that is in service from this boundary on (R236). -/
def State.formeImpose (s : State) (i : Nat) (copied : Bool) (pick : Forme → Option Nat := s.select) : State :=
  let x := s.slotX i
  match x.staged with
  | none => s
  | some (f, c) =>
    let s := s.unstage c.no
    match if copied then (pick f).filter (s.takesOk i f) else none with
    | none => (s.slotMod i fun y => { y with staged := none, due := none }).changeDone c 1 0 0x14
    | some v => s.formeTakes i f c v

/-- VARIANT_LOAD_DONE (R237): the weights are in the leaves; the variant runs from the next press-cycle boundary on. -/
def execVariantLoadDone (slot : Nat) (s : State) : Out State :=
  .next (if (s.slotX slot).ready || (s.slotX slot).variant.isNone then s else s.slotMod slot fun x => { x with loaded := true })

/-- The variants whose load has ended run from this press-cycle boundary on (R237). -/
def State.variantsEnter (s : State) : State :=
  s.prs.slots.foldl (fun s e => if e.2.loaded && !e.2.ready then s.variantReady e.1 else s) s

/-- A staged FORME_UNLOAD takes effect: the slot becomes EMPTY. -/
def State.imposeUnload (s : State) (i n : Nat) : State :=
  ((s.promoEnds i).slotMod i fun x => { load := x.load, staged := x.staged, due := x.due, chg := n, inst := x.inst + 1 }).storeModel

/-- A staged FORME_ENABLE takes effect; PLAN runs count from the next press cycle on (R231). -/
def State.imposeEnable (s : State) (i n : Nat) (en : Bool) : State :=
  (s.slotMod i fun x => { x with en := en, chg := n, enAt := if en && !x.en then s.time / 20000 else x.enAt }).storeModel

/-- FORME_UNLOAD (R233). -/
def execFormeUnload (r : Nat) (d : Desc) (s : State) : Out State :=
  .next (s.cmd r 0x0214 d { priv := 2, standby := true } fun s =>
    let i := bits d.p0 0 8
    if s.pressBusy then bad s 0x16
    else
      let (n, s) := s.stage1 r 2 0x0214 i (s.slotX i).mark 0 s.leadPeriod (.formeUnload i) true
      staged s n)

/-- The checks of R234 hold at the imposition of a FORME_ENABLE too: the number of slots of the kind, and the budget of R230. -/
def State.enableHolds (s : State) (i : Nat) : Bool :=
  match (s.slotX i).forme with
  | none => true
  | some f => decide (s.enabledOf f.kind i < enLimit f.kind) && s.budgetOk i f.kind (s.slotX i).wcyc

/-- FORME_ENABLE (R234): reasons 17, 16 and 19. Enables that are staged count as done. -/
def execFormeEnable (r : Nat) (d : Desc) (s : State) : Out State :=
  .next (s.cmd r 0x0215 d { priv := 2, standby := true } fun s =>
    let i := bits d.p0 0 8
    let en := bit d.p1 0
    let x := s.slotX i
    let kind := match x.forme with
      | some f => f.kind
      | none => 3
    if s.pressBusy then bad s 0x16
    else if en ∧ enLimit kind ≤ s.willEnOf kind i then s.refuseForme i (17, 0, 0)
    else if en ∧ !s.willFit i kind x.wcyc then s.refuseForme i (16, 0, 0)
    else if x.code ≠ 3 then s.refuseForme i (19, 0, 0)
    else
      let (n, s) := s.stage1 r 2 0x0215 i (b2n x.en) (b2n en) s.leadPeriod (.formeEnable i en)
      staged s n)

/-- FORME_QUERY (R241). -/
def execFormeQuery (r : Nat) (d : Desc) (s : State) : Out State :=
  .next (s.cmd r 0x0216 d { priv := 0, buf := .writes, lenOk := fun n => 64 ≤ n } fun s =>
    let i := bits d.p0 0 8
    let x := s.slotX i
    let f := fun (p : Forme → Nat) => match x.forme with
      | some f => p f
      | none => 0
    image s 64 (le 1 i ++ le 1 x.code ++ le 1 (f (·.kind)) ++ le 1 (x.var.getD 0xFF) ++ le 1 (b2n x.en) ++ zeros 3 ++
      le 4 (f (·.fid)) ++ le 4 (f (·.fver)) ++ le 4 x.wcyc ++ le 4 x.lastCyc ++ le 4 x.runs ++ le 4 x.abandoned ++
      le 4 (f (·.mbytes)) ++ le 4 (f (·.sbytes)) ++ (match x.forme with
        | some f => f.digest.take 24
        | none => [])))

/-- FORME_DIGEST (R238). -/
def execFormeDigest (r : Nat) (d : Desc) (s : State) : Out State :=
  .next (s.cmd r 0x0218 d { priv := 0, buf := .writes, lenOk := fun n => 48 ≤ n } fun s => image s 48 s.modelDigest)

/-! ## Runs (R231, R232) -/

/-- FORME_RUN (R233): an AUX forme runs once; the command completes when the run ends. A run whose variant still loads waits for it. -/
def execFormeRun (r : Nat) (d : Desc) (s : State) : Out State :=
  .next (s.cmd r 0x0217 d { priv := 3, standby := true } fun s =>
    let i := bits d.p0 0 8
    let x := s.slotX i
    if x.forme.any fun f => f.kind != 3 then bad s 0x14
    else if !x.chosen || !s.on Reg.PRS_FCTL_RUN then bad s 0x17
    else if s.pressBusy || s.prs.runs.any (fun q => q.cmd.isSome) then bad s 0x16
    else { s := (s.logC (.host r) 2 0 0x0217 2 i 0 0).beginRun i (s.get Reg.PRS_GAL_CYC) 0 s.prs.inputs (some (r, d)), status := none })

/-- A run is abandoned, with what follows for its kind: a plan is dropped (R261), a training step is counted as abandoned
(R278, R289). -/
def State.stopRun (s : State) (slot cause : Nat) : State :=
  match s.prs.runs.find? fun r => r.slot == slot with
  | none => s
  | some r =>
    let s := s.abandon slot cause
    if r.kind = 1 then s.planDrop r.cycle 1 0
    else if r.kind = 2 ∧ s.trn.plan[1]? = some slot then { s with trn := { s.trn with aborts := s.trn.aborts + 1, rerun := true } }
    else s

/-- PLAN_RUN_OVERDUE (R232): the next PLAN run is due, and the last has not ended in every textblock. -/
def execPlanRunOverdue (s : State) : Out State :=
  .next ((s.prs.runs.filter fun r => r.kind == 1 && !r.over && decide (r.cycle + s.planDiv ≤ s.get Reg.PRS_GAL_CYC)).foldl
    (fun s r => s.stopRun r.slot 2) s)

/-- FORME_RUN_TIMEOUT (R233): a FORME_RUN still runs after 100 ms. -/
def execFormeRunTimeout (slot : Nat) (s : State) : Out State :=
  .next (if s.prs.runs.any fun r => r.slot == slot && r.cmd.isSome then s.stopRun slot 4 else s)

/-- The status of a PLAN run that has ended joins those of R409 with its basis. -/
def State.planStatus (s : State) (cycle status : Nat) : State :=
  s.galMod fun g =>
    match Tab.find g.basis cycle with
    | some 4 => { g with imprintSt := (status :: g.imprintSt).take 3 }
    | some 0 => { g with ended := g.ended ++ [(cycle, status)] }
    | _ => g

/-- A PLAN run ends (R261): its plan awaits its basis, or is dropped for its status. A run that has not emitted targets 4 and 5 gives no
plan, but one of status 2 or 3 is dropped all the same; one whose result is discarded, or that ends while runs are not allowed, is
dropped (R153, R242). -/
def State.planEnd (s : State) (r : Run) : State :=
  match Tab.find r.emits 5 with
  | some info =>
    let status := ((info.head?).getD 3).toNat
    if r.bad ∨ !s.on Reg.PRS_FCTL_RUN then s.planDrop r.cycle 1 0
    else if 2 ≤ status ∨ (info.head?).getD 3 < 0 then (s.planStatus r.cycle status).planDrop r.cycle 2 status
    else
      match Tab.find r.emits 4 with
      | some st => (s.planStatus r.cycle status).galMod fun g => { g with
          planWait := g.planWait ++ [{ basis := r.cycle, steps := st, status := status, cyc := s.get Reg.PRS_GAL_CYC, tbs := r.v.used }] }
      | none => s
  | none => s

/-- A run has reached END in every textblock that it uses: its results stand (R231). -/
def State.runEnd (s : State) (r : Run) : State :=
  let s := s.runDone r
  match r.kind with
  | 0 => if r.bad then s.prsMod fun p => { p with discard := true } else s
  | 1 => s.planEnd r
  | 2 =>
    if s.trn.plan[1]? = some r.slot then { s with trn := { s.trn with stepDone := true, aborts := 0 } }
    else
      { s with trn := { s.trn with queue := s.trn.queue.map fun q =>
          if q.cyc = r.cycle then { q with cand := Tab.find r.emits 8 } else q } }
  | _ => match r.cmd with
    | some (ring, d) => s.completeLate ring 0x0217 d 0 0 r.cycles
    | none => s

/-- RUN_END (R231). -/
def execRunEnd (slot : Nat) (s : State) : Out State :=
  .next (match s.prs.runs.find? fun r => r.slot == slot with
    | none => s
    | some r => if r.over then s.runEnd r else s)

end Sys2Proof.Machine
end

