-- ==== Sys2Proof/Machine/Press.lean ====
section
/-!
DEFINITION. The Press as the host asks for it and as it changes: its commands, hierarchy changes, checks of leaves, spine
and barriers, DRAM errors and scrubbing (R149 to R178).
-/
namespace Sys2Proof.Machine

/-! ## Commands (R166, R177) -/

/-- PRESS_QUERY (R177). -/
def execPressQuery (r : Nat) (d : Desc) (s : State) : Out State :=
  .next (s.cmd r 0x0201 d { priv := 0, buf := .writes, lenOk := fun n => 64 ≤ n } fun s =>
    image s 64 (s.regBytes ([0x20000, 0x20004, 0x20008, 0x2000C] ++
      (List.range 4).flatMap fun t => [0x20100 + 0x40 * t, 0x20104 + 0x40 * t, 0x20108 + 0x40 * t])))

/-- The offset of MEM_READ. -/
def memOff (d : Desc) : Nat := d.p1 + bits d.p2 0 4 * 2 ^ 32

/-- 8-byte words of [o, o + n) of a stack that are poisoned (R173). -/
def State.poisonedIn (s : State) (t o n : Nat) : List Nat :=
  s.prs.poison.filter fun p => decide (dramAddr t o ≤ p ∧ p < dramAddr t (o + n))

/-- MEM_READ (R177): poisoned words are written as 0 and counted. -/
def execMemRead (r : Nat) (d : Desc) (s : State) : Out State :=
  .next (
    let o := memOff d
    s.cmd r 0x0202 d
      { priv := 3, buf := .writes, lenOk := fun n => 64 ≤ n && n ≤ 1048576 && n % 64 == 0,
        parOk := o % 64 == 0 && decide (o + d.len ≤ dramSize) } fun s =>
      let t := bits d.p0 0 2
      if !bit (s.get Reg.PRS_STAT_TBSVC) t then bad s 0x17
      else
        let ps := s.poisonedIn t o d.len
        let data := (List.range d.len).map fun k =>
          if ps.contains (dramAddr t (o + k / 8 * 8)) then 0 else s.pbyte (dramAddr t (o + k))
        { s := s, done := d.len, result := ps.length, data := data })

/-- A fast scrub pass begins on a stack (R167, R177). -/
def State.scrubStart (s : State) (t : Nat) : State :=
  (s.prsMod fun p => { p with fastScrub := p.fastScrub.filter (· != t) ++ [t] }).set (Reg.PRS_TB_STAT_SCRUB t) 1

/-- SCRUB_NOW (R177). -/
def execScrubNow (r : Nat) (d : Desc) (s : State) : Out State :=
  .next (s.cmd r 0x0203 d { priv := 2 } fun s =>
    let t := bits d.p0 0 2
    if bit (s.get Reg.PRS_STAT_TBSVC) t then ok ((s.logC (.host r) 2 0 0x0203 2 t 0 0).scrubStart t) else bad s 0x17)

/-- HIER_SET (R166): its checks in the order of its table; BUSY also while any slot is STAGED (R233). -/
def execHierSet (r : Nat) (d : Desc) (s : State) : Out State :=
  .next (
    let c := bits d.p0 0 4
    s.cmd r 0x0200 d { priv := 2, standby := true, parOk := decide (1 ≤ c ∧ c ≤ 4 ∧ d.p1 = 0 ∧ d.p2 = 0) } fun s =>
      if s.pressBusy || s.prs.slots.any (fun e => e.2.staged.isSome) then bad s 0x16
      else if s.prs.slots.any (fun e => e.2.forme.any fun f => decide (f.kind ≤ 1) && !f.variants.any fun v => v.svc == c) then
        refuse s 1
      else if s.tbsGood.length < svcTbs c then refuse s 2
      else
        let old := s.get Reg.GLB_HIER_CFG
        if c = old then ok s
        else
          let (n, s) := s.stage1 r 2 0x0200 0 old c 0 .own
          match s.staged.find? fun x => x.no == n with
          | some st =>
            let h : HierChg := { st := st, old := old, new := c, at_ := s.time + 1000000 }
            staged ((s.prsMod fun p => { p with hier := some h }).set Reg.GLB_HIER_TARGET c) n
          | none => staged s n)

/-! ## Hierarchy changes (R167 to R169) -/

/-- Whether a change brings units in: textblocks, or the other quires of one in Q (log entry 20). Such a change may take others out too:
the configurations below V4 use the lowest-numbered textblocks that are not lost (R162). -/
def State.hierGrows (s : State) (h : HierChg) : Bool :=
  !(s.wanted h.new).all s.tbs.contains || (h.old == 1 && h.new != 1)

/-- The change is imposed (R166 to R168): the Press quiesces; a shrinking one moves the streams of the textblocks that it
removes, whose stacks go into self-refresh. What a rollback restores is noted (R169). DESIGN CHOICE (safe): PRS_STAT.CHGNO takes the number
of the change when it is imposed, not when it is staged (R179, log entry 94). -/
def State.hierStart (s : State) (h : HierChg) : State :=
  let s := (s.unstage h.st.no).set Reg.PRS_STAT_CHGNO (h.st.no % 65536)
  let s := ((s.set Reg.PRS_STAT_QUIESCED 1).set Reg.PRS_STAT_CHG 1).blindTick false
  let s := s.captureTick
  let h := { h with begun := true, at_ := s.time, prevTbs := s.tbs, prevStreams := s.ing.streams.map fun e => (e.1, e.2.tb) }
  if s.hierGrows h then
    let add := (s.wanted h.new).filter fun t => !bit (s.get Reg.PRS_STAT_TBSVC) t
    let s := add.foldl (fun s t => s.set (Reg.PRS_TB_STAT_STATE t) 1) s
    s.prsMod fun p => { p with hier := some { h with tbs := add } }
  else
    let old := s.get Reg.PRS_STAT_SVC
    let s := s.setNv Reg.GLB_HIER_CFG h.new
    let s := (s.set Reg.PRS_STAT_CFG h.new).putService h.new ((s.tbs.filter (s.wanted h.new).contains).take (svcTbs h.new))
    let s := s.serviceChanged old false
    s.prsMod fun p => { p with hier := some { h with tbs := [] } }

/-- HIER_CHANGE_START (R166): at the first press-cycle boundary at least 1 ms after the command completed; held while the management
cluster restarts (R59). -/
def execHierChangeStart (s : State) : Out State :=
  .next (match s.prs.hier with
    | some h => if !h.begun && !s.glb.mgmtDown && decide (h.at_ ≤ s.time) && s.time % 20000 == 0 then s.hierStart h else s
    | none => s)

/-- The formes that wait in the slots give way, as does a promotion (R110, R286): the model set is about to be replaced. -/
def State.slotsGiveWay (s : State) : State := (s.prs.slots.map (·.1)).foldl State.stagedOff (s.promoBack 1 0x14)

/-- The model set of the model store is loaded (R70, step 8): its formes, their model bytes, their variants. -/
def State.loadModel (s : State) : State :=
  let xs := s.prs.store
  let s := s.slotsGiveWay
  let s := s.prsMod fun p => { p with slots := xs.map fun e => (e.1, { forme := some e.2.1, en := e.2.2 }) }
  let s := (xs.foldl (fun s e => s.copyData e.2.1) s).reselect
  (s.prs.slots.map (·.1)).foldl State.variantReady s

/-- PRESS is set (R61, R70) with the model set loaded: make-ready has ended in every textblock and some hierarchy is in service. The
classes that wait for the Press are served (R68). -/
def State.pressReady (s : State) : State :=
  if s.on Reg.GLB_BOOTSTAT_PRESS || s.tbs.isEmpty || s.glb.mrStep.any (fun k => decide (k < 8)) then s
  else ((s.setReady Reg.GLB_BOOTSTAT_PRESS 1).serveSaved).blindTick false

/-- PRESS is set once the model set is loaded, where nothing is compared with a peer's. -/
def State.pressUp (s : State) : State :=
  if s.glb.modelWait || s.on Reg.GLB_BOOTSTAT_PRESS || s.tbs.isEmpty || s.glb.mrStep.any (fun k => decide (k < 8)) then s
  else s.loadModel.pressReady

/-- The formes and model state of the stack of textblock `t` are filled in: from the stack of a textblock in service (R167), or with
none from the model store (R70, R173). -/
def State.fillStack (s : State) (t : Nat) (src : Option Nat) : State :=
  s.prs.slots.foldl (fun s e => match e.2.forme with
    | none => s
    | some f =>
      let a := regionBase 2 + f.marea
      match src with
      | some u => s.pwrite (dramAddr t a) (s.pbytes (dramAddr u a) f.mbytes)
      | none =>
        let data := match Tab.find s.prs.store e.1 with
          | some x => if x.1.digest = f.digest then x.1.data else f.data
          | none => f.data
        data.foldl (fun s x => s.pwrite (dramAddr t (a + x.1)) x.2) s) s

/-- The first press cycle in the new hierarchy (R167, R168): added stacks hold the formes and model state, variants are in their leaves,
blind ends with the first proof. A repaired textblock joins where the configured hierarchy is short of one, and stands by otherwise (R162).
DESIGN CHOICE (safe): the blind duration in HIER_CHANGED runs from the imposition to this boundary, though blind ends with the first proof
after it (R178, log entry 94). -/
def State.hierFinish (s : State) (h : HierChg) : State :=
  let old := s.get Reg.PRS_STAT_SVC
  let grown := h.why != 0 || s.hierGrows h
  let s :=
    if grown then
      let s := if h.why = 2 then h.tbs.foldl (fun s t => (s.unitMod 4 t fun x => { x with st := 0, injected := false }).set
        (Reg.PRS_TB_STAT_STATE t) 1) s else s
      let s := (s.setNv Reg.GLB_HIER_CFG h.new).set Reg.PRS_STAT_CFG h.new
      let src := s.tbs.head?
      let s := h.tbs.foldl (fun s t => s.fillStack t src) s
      let ts := if h.why = 1 then h.tbs
        else if h.why = 2 ∧ svcTbs h.new ≤ s.tbs.length then s.tbs
        else if h.why = 2 then (List.range 4).filter fun t => bit (s.get Reg.PRS_STAT_TBSVC) t || h.tbs.contains t
        else s.wanted h.new
      (s.putService h.new ts).serviceChanged old false true
    else s
  let s := (s.prs.slots.map (·.1)).foldl State.variantReady s
  let s := ((s.set Reg.PRS_STAT_QUIESCED 0).set Reg.PRS_STAT_CHG 0).set Reg.GLB_HIER_TARGET 0
  let s := (s.prsMod fun p => { p with hier := none, hierEnd := some s.time }).pressOut.pressUp
  if h.why = 0 then
    let s := s.evt 2 0x0200 (le 4 h.st.no ++ le 1 h.old ++ le 1 h.new ++ le 1 (s.get Reg.PRS_STAT_SVC) ++ le 1 0 ++
      le 4 (s.hierUs h))
    s.changeDone h.st 0 1 0xFF
  else if h.why = 2 then s.repairEnd 0 (s.hierUs h)
  else s

/-- Steps that a change passes before its first press cycle: six rows of R167, or the one of R168. -/
def State.hierSteps (s : State) (h : HierChg) : Nat := if h.why ≠ 0 ∨ s.hierGrows h then 6 else 1

/-- HIER_CHANGE_STEP_DONE (R167): the next row is passed; with the first, the added stacks have left self-refresh and a fast scrub pass
is started on each. -/
def execHierChangeStepDone (s : State) : Out State :=
  .next (match s.prs.hier with
    | some h =>
      if h.begun then
        let s := s.prsMod fun p => { p with hier := some { h with step := min (h.step + 1) (s.hierSteps h) } }
        if h.step = 0 then h.tbs.foldl State.scrubStart s else s
      else s
    | none => s)

/-- At a press-cycle boundary a change whose steps have all passed comes into force. -/
def State.hierTick (s : State) : State :=
  match s.prs.hier with
  | some h => if h.begun && decide (s.hierSteps h ≤ h.step) then s.hierFinish h else s
  | none => s

/-- HIER_ROLLBACK (R169); reason 3 needs 250 ms since the imposition. -/
def execHierRollback (reason : Nat) (s : State) : Out State :=
  .next (match s.prs.hier with
    | some h => if h.begun && (reason != 3 || decide (h.at_ + 250000000 ≤ s.time)) then s.hierRollback reason else s
    | none => s)

/-- REPLACEMENT_QUIRE_IN_SERVICE (R165): in Q, the replacement quire is in service. -/
def execReplacementQuireInService (s : State) : Out State :=
  .next (match s.prs.quireRepl with
    | none => s
    | some (t, _) =>
      let s := s.prsMod fun p => { p with quireRepl := none }
      let old := s.get Reg.PRS_STAT_SVC
      ((s.putService 1 [t]).serviceChanged old false).pressUp)

/-! ## Checks of leaves and of the spine (R153, R154) -/

/-- LEAF_RESIDUE_MISMATCH (R153). -/
def execLeafResidueMismatch (unit : Nat) (s : State) : Out State :=
  .next (
    ((s.discardTb (unitT unit)).raise (detN (8 + unitT unit) 0) 0 unit).settlePress)

/-- A weight CRC mismatch (R153): the leaf's weights are reloaded; a second one within 1 s raises the leaf detector. -/
def State.leafCrc (s : State) (u : Nat) : State :=
  let again := match Tab.find s.prs.leafCrc u with
    | some t => decide (s.time < t + 1000000000)
    | none => false
  let s := ((s.discardTb (unitT u)).reloadUnit 1 u).prsMod fun p => { p with leafCrc := Tab.put p.leafCrc u s.time }
  let s := s.wearHit 1 0 u 86400000000000 (s.get Reg.SPR_WTHR0_LEAFCRC)
  if again then (s.raise (detN (8 + unitT u) 0) 0 u).settlePress else s

/-- WEIGHT_CRC_SWEEP (R153). -/
def execWeightCrcSweep (unit : Nat) (bad : Bool) (s : State) : Out State := .next (if bad then s.leafCrc unit else s)

/-- A transfer on the spine port of textblock `t` is discarded (R154): the last result that the port carried to the galley in this
press cycle, the last data between textblocks or reduction that passed it, or the last record carried to the textblock. Which of them it
was is open (a free value). -/
def State.spineDrop (s : State) (t : Nat) : State :=
  let (z, s) := s.draw
  if z % 3 = 0 ∧ t = s.physTb 0 ∧ s.prs.lastEmit.isSome then s.emitDrop
  else if z % 3 = 1 ∧ s.prs.lastMove.any (fun r => r.1.contains t) then s.moveDrop t
  else s.dropRecord t

/-- An uncorrectable error of a spine port discards its transfer; the third of a port in a press cycle is degrade class (R154). -/
def State.spineUe (s : State) (port : Nat) (inj : Bool) : State := (s.spineDrop port).spineRaise port inj

/-- SPINE_ERROR (R154). -/
def execSpineError (port : Nat) (corrected : Bool) (s : State) : Out State :=
  .next (if corrected then s.bump Reg.PRS_SPN_ERR_CE
  else
    (s.spineUe port false).settlePress)

/-! ## Barriers (R158, R159) -/

/-- A barrier is released to the runs that wait at it in a textblock; a volume barrier once every textblock of the run
has reached it. -/
def State.barRelease (s : State) (t level : Nat) : State :=
  s.prs.runs.foldl (fun s r =>
    if level = 4 then
      if r.v.used.all fun u => (r.tb u).wait == 4 then r.v.used.foldl (fun s u => s.advance r.slot u ((r.tb u).pc + 1)) s else s
    else if (r.tb t).wait = level then s.advance r.slot t ((r.tb t).pc + 1) else s) s

/-- BARRIER_RELEASE (R158). -/
def execBarrierRelease (t level : Nat) (s : State) : Out State := .next (s.barRelease t level)

/-- The barrier of a level that has waited longest from its first arrival: the run that waits at it, in textblock `t`, or for the
volume in any of its textblocks (R159, R160). -/
def State.barrierFirst (s : State) (t level : Nat) : Option Run :=
  let first := fun (r : Run) => ((if level = 4 then r.v.used else [t]).filterMap fun u =>
    if (r.tb u).wait = level then some (r.tb u).since else none).min?
  s.prs.runs.foldl (fun b r => match first r with
    | none => b
    | some n => match b with
      | none => some r
      | some q => if n < (first q).getD 0 then some r else b) none

/-- A barrier is abandoned (R159): the pass is aborted, and the barrier detector names the first participant that did not
arrive; named in three consecutive press cycles, it is treated as failed. -/
def State.barTimeout (s : State) (t level unit : Nat) : State :=
  match s.barrierFirst t level with
  | none => s
  | some r =>
    ((s.stopRun r.slot 3).barRaise (if level = 4 then detN 12 5 else detN (8 + s.physTb t) 4) level unit false).settlePress

/-- An injected occurrence of a barrier detector (R483): the barrier that waits in the textblock, or for the volume, is abandoned, and the
detector names the unit of the injection. With none waiting the unit is taken as one of level 3, or of the volume (log entry 50). -/
def State.barInject (s : State) (d unit : Nat) : State :=
  let t := d / 16 - 8
  let ls := if d = detN 12 5 then [(0, 4)]
    else (List.range 4).flatMap fun l => if s.physTb l = t then [(l, 1), (l, 2), (l, 3)] else []
  match ls.findSome? fun e => (s.barrierFirst e.1 e.2).map fun r => (r.slot, e.2) with
  | some (slot, level) => (s.stopRun slot 3).barRaise d level unit true
  | none => s.barRaise d (if d = detN 12 5 then 4 else 3) unit true

/-- BARRIER_TIMEOUT (R159). -/
def execBarrierTimeout (t level unit : Nat) (s : State) : Out State := .next (s.barTimeout t level unit)

/-! ## DRAM (R171 to R174) -/

/-- Correctable errors in a word (R172): the row is spared for two bits, or for CETHR single corrections within 24 h;
the bank for a pattern that spans its rows. -/
def State.dramCe (s : State) (t bank row off nbits : Nat) (spans : Bool) : State :=
  let s := s.bump (Reg.PRS_TB_CE t)
  let key := bankKey t bank * 2 ^ 32 + row
  let xs := (s.time :: Tab.get s.prs.ceRows key []).filter fun x => decide (s.time < x + 86400000000000)
  let thr := s.get Reg.PRS_SCRUB_CTL_CETHR
  let s := if nbits = 1 then s.prsMod fun p => { p with ceRows := Tab.put p.ceRows key xs } else s
  if spans then s.bankSpare t bank off
  else if nbits = 2 ∨ (thr ≠ 0 ∧ thr ≤ xs.length) then
    (s.prsMod fun p => { p with ceRows := Tab.del p.ceRows key }).rowSpare t bank off
  else s

/-- DRAM_CORRECTABLE (R172). -/
def execDramCorrectable (t bank row offset nbits : Nat) (spans : Bool) (s : State) : Out State :=
  .next (s.dramCe t bank row offset nbits spans)

/-- The error latch and the event of an uncorrectable error (R173). -/
def State.dramLatch (s : State) (t off : Nat) (scrub : Bool) : State :=
  let reg := regionOf off
  let s :=
    if s.on (Reg.PRS_TB_EINFO_LATCHED t) then s
    else (((s.set (Reg.PRS_TB_EADDR t) off).set (Reg.PRS_TB_EINFO_REGION t) reg).setB (Reg.PRS_TB_EINFO_SCRUB t) scrub).set
      (Reg.PRS_TB_EINFO_LATCHED t) 1
  s.evt 2 0x0203 (le 1 t ++ le 1 reg ++ zeros 2 ++ le 8 off)

/-- The model set of textblock `t` is loaded again from the model store (R173): its words are sound again, and the slots that use the
textblock run nothing until their weights have been loaded. -/
def State.modelReload (s : State) (t : Nat) : State :=
  let hit : Slot → Bool := fun x => match s.tbs.idxOf? t with
    | some l => x.variant.any fun v => v.usesTb l
    | none => false
  let s := (s.prs.slots.map (·.1)).foldl (fun s i => if hit (s.slotX i) then s.slotMod i fun x => { x with ready := false } else s) s
  let s := s.prsMod fun p => { p with poison := p.poison.filter fun a => !(a / 2 ^ 36 == t && regionOf (a % 2 ^ 36) == 2) }
  s.fillStack t none

/-- The captures of the training sets that a poisoned word of textblock `t` lies in are dropped (R173); without an epoch left training
waits in FILL. -/
def State.captureDrop (s : State) (t off : Nat) : State :=
  let s := s.trnMod fun x => { x with halves := x.halves.map fun (h : List CaptureR) => h.filter fun c =>
    let o := (c.offs[t]?).getD 0
    !(decide (o ≤ off ∧ off < o + captureLen ((c.ns[t]?).getD 0))) }
  let n := ((s.trn.halves[s.get Reg.PRS_TRN_STAT_EPOCH]?).getD []).length
  if n < s.get Reg.PRS_TRN_STAT_NCAP then
    let s := s.set Reg.PRS_TRN_STAT_NCAP n
    if n = 0 ∧ s.get Reg.PRS_TRN_STAT_STATE = 2 then s.set Reg.PRS_TRN_STAT_STATE 1 else s
  else s

/-- An uncorrectable error (R173): the word is poisoned, the row spared, and the region decides the rest. DESIGN CHOICE (unsafe): a poisoned
word stays so when it is written again, until its region is loaded anew (log entry 93). -/
def State.dramUe (s : State) (t bank off : Nat) (scrub : Bool) : State :=
  let s := s.prsMod fun p => { p with poison := p.poison.filter (· != dramAddr t off) ++ [dramAddr t off] }
  let s := ((s.bump (Reg.PRS_TB_UE t)).dramLatch t off scrub).rowSpare t bank off
  match regionOf off with
  | 2 => (((s.discardTb t).modelReload t).raise (detN (8 + t) 6) 0 t).settlePress
  | 1 => (s.captureDrop t off).raise (detN (8 + t) 7) 0 1
  | 0 => s.raise (detN (8 + t) 7) 0 0
  | k => (s.discardTb t).raise (detN (8 + t) 7) 0 k

/-- DRAM_UNCORRECTABLE (R173). -/
def execDramUncorrectable (t bank _row offset : Nat) (scrub : Bool) (s : State) : Out State :=
  .next (s.dramUe t bank offset scrub)

/-- BANK_SPARE_DONE (R172): the copy is complete; the spare bank has its own spare rows. -/
def execBankSpareDone (t bank : Nat) (s : State) : Out State :=
  .next (if s.prs.bankCopy.contains (t, bank) then
    s.prsMod fun p => { p with
      bankCopy := p.bankCopy.filter (· != (t, bank))
      banksSpared := p.banksSpared ++ [(t, bank)]
      bankRows := Tab.put p.bankRows (bankKey t bank) 0
      bankBad := Tab.put p.bankBad (bankKey t bank) 0 }
  else s)

/-- Patrol scrub (R174): progress of a stack's pass; a bit error in a spare row or bank that is not in use retires it. -/
def State.scrub (s : State) (t percent : Nat) (badRow badBank : Bool) (bank : Nat) : State :=
  let f := match t with
    | 0 => Reg.PRS_SCRUB_STAT_PROG0
    | 1 => Reg.PRS_SCRUB_STAT_PROG1
    | 2 => Reg.PRS_SCRUB_STAT_PROG2
    | _ => Reg.PRS_SCRUB_STAT_PROG3
  let fast := s.prs.fastScrub.contains t
  if !fast ∧ (!bit (s.get Reg.PRS_STAT_TBSVC) t ∨ !s.on Reg.PRS_SCRUB_CTL_EN) then s
  else
    let s := (s.set f percent).setB (Reg.PRS_TB_STAT_SCRUB t) (percent < 100)
    let s := if percent = 100 then s.prsMod fun p => { p with fastScrub := p.fastScrub.filter (· != t) } else s
    let s := if badRow then
        let n := min (64 - Tab.get s.prs.bankRows (bankKey t bank) 0) (Tab.get s.prs.bankBad (bankKey t bank) 0 + 1)
        let s := s.prsMod fun p => { p with bankBad := Tab.put p.bankBad (bankKey t bank) n }
        -- without a spare row left, the bank is spared (R172); the offset that its event shows is the scrub's own (a free value)
        let (z, s) := s.draw
        s.bankDue t bank (z % dramSize)
      else s
    let n := s.get (Reg.PRS_TB_SPARE_BANK t)
    if badBank && n != 0 then (s.set (Reg.PRS_TB_SPARE_BANK t) (n - 1)).reserveCheck 2 else s

/-- PATROL_SCRUB (R174). -/
def execPatrolScrub (t percent : Nat) (badRow badBank : Bool) (bank : Nat) (s : State) : Out State :=
  .next (s.scrub t percent badRow badBank bank)

end Sys2Proof.Machine
end

