-- ==== Sys2Proof/Machine/Train.lean ====
section
/-!
DEFINITION. Training the predictor on the device (R272 to R294): captures, steps, shadow runs and their scores, offers,
promotion, probation and revert.
-/
namespace Sys2Proof.Machine

/-- State passes to HELD (R289). -/
def State.trnHold (s : State) (cause : Nat) : State :=
  let s := (s.set Reg.PRS_TRN_STAT_STATE 3).set Reg.PRS_TRN_STAT_HCAUSE cause
  s.evt 2 0x0404 (le 1 cause ++ zeros 3 ++ le 4 (s.get Reg.PRS_TRN_STEP) ++ zeros 4)

/-- The open offer closes (R285): reason 1 rejected, 2 expired, 3 takeover, 4 setup; steps resume. -/
def State.offerClose (s : State) (reason : Nat) : State :=
  match s.trn.offer with
  | none => s
  | some n =>
    let s := (s.trnMod fun x => { x with offer := none }).evt 2 0x0403 (le 4 n ++ le 1 reason ++ zeros 7)
    if s.trnState = 4 then s.trnResume else s

/-- Scoring starts again from nothing (R283), and with it the window whose withdrawn fraction a judgement takes (R288). -/
def State.clearScores (s : State) : State :=
  let s := ((s.set Reg.PRS_TRN_MATCH 0).set Reg.PRS_TRN_ELIVE 0).set Reg.PRS_TRN_ECAND 0
  let s := (s.set Reg.PRS_TRN_WITH_WLIVE 0).set Reg.PRS_TRN_WITH_WCAND 0
  s.trnMod fun x => { x with wl := 0, wc := 0, wdWin := 0, nWin := 0 }

/-! ## Setup (R272, R273) -/

/-- The fields of a training plan's bytes. -/
def readPlan (b : List Byte) : List Nat :=
  [rd b 0 1, rd b 1 1, rd b 2 1, rd b 4 4, rd b 8 4, rd b 12 4, rd b 16 4, rd b 20 4, rd b 24 4, rd b 28 4]

/-- Intervals [a, a + n) and [b, b + m) do not meet. -/
def apart (a n b m : Nat) : Bool := decide (a + n ≤ b ∨ b + m ≤ a)

/-- The cases of R273 that give BADPARAM. -/
def State.planBad (s : State) (p : List Nat) : Bool :=
  let g := fun i => (p[i]?).getD 0
  let size := fun (i : Nat) => match (s.slotX i).forme with
    | some f => f.mbytes
    | none => 0
  let kind := fun (i k : Nat) => (s.slotX i).kindIs k
  let m := size (g 1)
  !kind (g 0) 0 || !kind (g 1) 2 || !kind (g 2) 2 ||
  g 5 == 0 || g 5 % 64 != 0 || g 8 == 0 || g 8 % 64 != 0 ||
  !apart (g 3) (g 5) (g 4) (g 5) || !apart (g 3) (g 5) (g 9) (g 8) || !apart (g 4) (g 5) (g 9) (g 8) ||
  decide (m < g 3 + g 5 ∨ m < g 4 + g 5 ∨ m < g 9 + g 8) ||
  decide (g 5 < g 6 + g 8) || decide (size (g 0) < g 7 + g 8)

/-- TRAIN_SETUP (R273): it takes effect at the next press-cycle boundary. -/
def execTrainSetup (r : Nat) (d : Desc) (s : State) : Out State :=
  .next (s.cmd r 0x0400 d { priv := 2, standby := true, buf := .reads, lenOk := fun n => 32 ≤ n } fun s =>
    let b := (bufBytes d).take 32
    if rd b 3 1 ≠ 0 ∨ s.planBad (readPlan b) then bad s 0x14
    else if s.trnState ≠ 0 ∧ s.trnState ≠ 3 then bad s 0x16
    else
      let (n, s) := s.stage1 r 2 0x0400 (rd b 0 1) 0 (digest8 b) (s.get Reg.CHS_PNUM) (.trainSetup b) true
      { staged s n with done := d.len })

/-- A staged setup takes effect (R273): step 0, sums cleared, an offer closed, captures kept. Runs of the former plan end; the
generation is that of the subject slot now named (R283). -/
def State.imposeSetup (s : State) (b : List Byte) : State :=
  let s := s.prsMod fun p => { p with runs := p.runs.filter fun r => r.kind != 2 }
  let s := (s.trnMod fun x =>
    { x with plan := readPlan b, aborts := 0, stepDone := false, endHeld := false, rerun := false, queue := [] }).set Reg.PRS_TRN_STEP 0
  let s := (s.set Reg.PRS_TRN_GEN (s.slotX (s.planN 0)).gen).clearScores.offerClose 4
  if s.trnState = 0 then s.trnResume else s

/-! ## Areas -/

/-- BULK segments of at most 1,024 payload bytes (R491): the kind (1 model set, 2 checkpoint, 3 image, 4 promoted bytes, 5 the standby's
confirmation of them, 6 its request to push a type again), a byte that marks the last segment, and the data (log entry 27). -/
def bulkSegs (kind : Nat) : Nat → List Byte → List (List Byte)
  | 0, _ => []
  | n + 1, b =>
    let rest := b.drop 1022
    (le 1 kind ++ le 1 (b2n rest.isEmpty) ++ b.take 1022) :: (if rest.isEmpty then [] else bulkSegs kind n rest)

/-- Something goes out in BULK segments. -/
def State.bulkOut (s : State) (kind : Nat) (b : List Byte) : State :=
  (bulkSegs kind (b.length + 1) b).foldl (fun s x => s.rosOut 8 x) s

/-- The holder sends something in BULK segments. -/
def State.sendBulk (s : State) (kind : Nat) (b : List Byte) : State := if s.token then s.bulkOut kind b else s

/-! ## Captures (R274 to R276) -/

/-- The sample rows of a capture of cycle `k` in textblock `t`: values, none when absent. -/
def State.captureRows (s : State) (t k : Nat) : List (Nat × Nat × List (Option Int)) :=
  (surrogates { streams := s.ing.streams } t).map fun x =>
    (x.1, ((x.2.head?).map (·.dclass)).getD 0,
      (List.range 4096).map fun j => if k * 20 + j < 2048 then none else surSample x.2 (k * 20 + j - 2048))

/-- A capture record (R275). -/
def captureBytes (k sigma gen : Nat) (rows : List (Nat × Nat × List (Option Int))) : List Byte :=
  let n := rows.length
  let absent := (rows.map fun x => x.2.2.countP (·.isNone)).foldl (· + ·) 0
  let head := le 8 k ++ le 4 sigma ++ le 2 n ++ le 2 (satU 16 (absent * 65536 / max 1 (4096 * n))) ++ le 4 gen ++ zeros 40
  head ++ le 4 (crc32 head) ++ (rows.flatMap fun x => le 2 x.1 ++ le 1 x.2.1 ++ le 1 0) ++
    rows.flatMap fun x => x.2.2.flatMap fun v => le 2 (match v with
      | some z => ofS 16 z
      | none => 0x8000)

/-- Where the next record of textblock `t` begins in half `h`, as an offset in the stack. -/
def captureEnd (h : Nat) (xs : List CaptureR) (t : Nat) : Nat :=
  match xs.getLast? with
  | some x => (x.offs[t]?).getD 0 + captureLen ((x.ns[t]?).getD 0)
  | none => regionBase 1 + h * 4000000000

/-- The capture of cycle `k` is written to the half that fills; the half closes when a next record of the same length
would not fit (R276). A capture that finds both halves taken is not written. -/
def State.capture (s : State) (k sigma gen : Nat) : State :=
  let h := s.trn.filling
  let xs := (s.trn.halves[h]?).getD []
  if s.trn.closed then s
  else
    let rows := (List.range 4).map fun t => if s.tbs.contains t then s.captureRows t k else []
    let offs := (List.range 4).map (captureEnd h xs)
    let ns := rows.map (·.length)
    let lim := regionBase 1 + (h + 1) * 4000000000
    let fits := fun (m : Nat) => (offs.zip ns).all fun p => decide (p.1 + m * captureLen p.2 ≤ lim)
    if !fits 1 then s.trnMod fun x => { x with closed := true }
    else
      let s := s.tbs.foldl (fun s t =>
        s.pwrite (dramAddr t ((offs[t]?).getD 0)) (captureBytes k sigma gen ((rows[t]?).getD []))) s
      s.trnMod fun x => { x with halves := x.halves.modify h (· ++ [{ cyc := k, offs := offs, ns := ns }]), closed := !fits 2 }

/-- CAPTURE (R274): the first press-cycle boundary at or after T_k + 2,100 us of a cycle that is to be captured. -/
def execCapture (s : State) : Out State :=
  .next (match s.trn.due with
    | (k, sigma, gen) :: t =>
      if k * 20000 + 2100000 ≤ s.time then (s.capture k sigma gen).trnMod fun x => { x with due := t } else s
    | [] => s)

/-- At the start of cycle `k`: a cycle of CAPDIV is noted for capture unless R274 excludes it. -/
def State.captureDue (s : State) (k : Nat) : State :=
  let d := s.get Reg.PRS_TRN_CTL2_CAPDIV
  if d ≠ 0 ∧ k % d = 0 ∧ s.get Reg.PRS_GAL_STAT_BLIND = 0 ∧ !s.on Reg.HST_ING_STAT_LOST ∧ !s.on Reg.HST_ING_STAT_OVERCAP ∧
      !s.on Reg.PRS_STAT_CHG then
    s.trnMod fun x => { x with due := x.due ++ [(k, s.sigma, s.get Reg.PRS_TRN_GEN)] }
  else s

/-- At a step boundary a closed half becomes the epoch, and the former epoch half is emptied and filled (R276). There is none between
an abandoned step and its rerun, which draws as it did (R278). -/
def State.epochSwitch (s : State) : State :=
  if s.trn.closed ∧ !s.trn.stepDone ∧ !s.trn.rerun ∧ !(s.prs.runs.any fun r => s.trn.plan[1]? == some r.slot) then
    let h := s.trn.filling
    let n := ((s.trn.halves[h]?).getD []).length
    let s := s.trnMod fun x => { x with halves := x.halves.modify (1 - h) fun _ => [], filling := 1 - h, closed := false }
    let s := (s.set Reg.PRS_TRN_STAT_EPOCH h).set Reg.PRS_TRN_STAT_NCAP n
    if s.trnState = 1 then s.trnResume else s
  else s

/-! ## Steps (R278) -/

/-- A step has ended in every textblock: the work area is copied over the candidate area (R278). While steps are stopped the candidate
stays as it is, and the copy waits until they resume (R285). -/
def State.stepEnd (s : State) : State :=
  if !s.trn.stepDone then s
  else if s.trnState ≠ 2 then s.trnMod fun x => { x with endHeld := true }
  else
    let s := s.trnMod fun x => { x with stepDone := false, endHeld := false, rerun := false }
    let s := s.copyArea (s.planN 1) (s.planN 4) (s.planN 1) (s.planN 3) (s.planN 5)
    s.set Reg.PRS_TRN_STEP (s.get Reg.PRS_TRN_STEP + 1)

/-- TRAIN_STEP_END (R278). -/
def execTrainStepEnd (s : State) : Out State := .next s.stepEnd

/-- TRAIN_SHARE_WINDOW (R280). -/
def execTrainShareWindow (s : State) : Out State := .next (s.trnMod fun x => { x with used := [0, 0, 0, 0] })

/-! ## Promotion and revert (R285 to R288) -/

/-- A promotion (kind 1) or a revert (kind 2) begins: the bytes are copied at once (R286, R288). A promotion closes the open offer; a
revert leaves it open (R285). -/
def State.promoStart (s : State) (kind reason : Nat) (auto : Bool) (st : Staged) : State :=
  let subj := s.planN 0
  let step := s.planN 1
  let mark := s.setMark
  let s :=
    if kind = 1 then
      (s.copyArea subj (s.planN 7) step (s.planN 9) (s.planN 8)).copyArea step (s.planN 3 + s.planN 6) subj (s.planN 7) (s.planN 8)
    else s.copyArea step (s.planN 9) subj (s.planN 7) (s.planN 8)
  let s := s.sendBulk 4 (s.pbytes (s.modelAddr subj ((s.tbs.head?).getD 0) (s.planN 7)) (s.planN 8))
  (s.set Reg.PRS_TRN_STAT_STATE 5).trnMod fun x =>
    { x with offer := if kind = 1 then none else x.offer,
             promo := some { kind := kind, st := st, reason := reason, auto := auto, copied := some s.time, oldDigest := mark } }

/-- A promotion or revert is asked for: it is staged, and begins. Answers its change number. -/
def State.promoStage (s : State) (r op kind reason : Nat) : Nat × State :=
  let g := s.get Reg.PRS_TRN_GEN
  let (n, s) := s.stage1 r 2 op (s.planN 0) g ((g + 1) % 2 ^ 32) 0 .own
  match s.staged.find? fun c => c.no == n with
  | some c => (n, (s.unstage n).promoStart kind reason (r == 0x10000) c)
  | none => (n, s)

/-- A standby that has not got the bytes by N imposes nothing (R290): it takes the holder's model set under R71, and its proofs are left
out of the digest comparison until the digests agree. -/
def State.promoAlone (s : State) : State :=
  let s := (s.trnMod fun x => { x with promo := none }).trnResume
  { s with ros := { s.ros with exclTo := max 1 (s.time / 20000), pGood := 0, modelAsk := true } }

/-- PROMOTION_IMPOSE (R286): the first press-cycle boundary after the reload, at least 2 ms after the copies. It is held while the
management cluster restarts (R59). A promotion that a lost unit has hit is rolled back. -/
def State.promoImpose (s : State) : State :=
  match s.trn.promo with
  | none => s
  | some p =>
    if s.time % 20000 ≠ 0 ∨ s.time < p.copied.getD s.time + 2000000 ∨ s.glb.mgmtDown then s
    else if p.hit then s.promoBack 1 0x14
    else if s.standby ∧ !p.got then s.promoAlone
    else
      let s := (s.variantReady (s.planN 0)).storeModel
      let g := (s.get Reg.PRS_TRN_GEN + 1) % 2 ^ 32
      let s := (s.slotMod (s.planN 0) fun x => { x with gen := g }).set Reg.PRS_TRN_GEN g
      let s := s.trnMod fun x => { x with promo := none }
      if p.kind = 1 then
        let s := s.evt 2 0x0401 (le 4 p.st.no ++ le 4 g ++ le 4 (s.time / 20000))
        let n := s.get Reg.PRS_TRN_CTL2_PROBE
        let s := ((s.set Reg.PRS_TRN_STAT_PRIOR 1).setB Reg.PRS_TRN_STAT_PROBE (n != 0)).trnMod fun x =>
          { x with probeLeft := n, wdSec := 0, nSec := 0 }
        (s.promoDone p 0 1 0xFF).trnResume
      else
        let s := s.evt 2 0x0402 (le 4 p.st.no ++ le 4 g ++ le 1 p.reason ++ zeros 3)
        let s := (s.set Reg.PRS_TRN_STAT_PRIOR 0).set Reg.PRS_TRN_STAT_PROBE 0
        let s := s.promoDone p 0 1 0xFF
        if p.reason = 1 then s.trnHold 4 else s.trnResume

/-- PROMOTION_IMPOSE (R286). -/
def execPromotionImpose (s : State) : Out State := .next s.promoImpose

/-- A promotion is rolled back at the next press-cycle boundary by a hierarchy change or a lost unit (R286); the load or unload of its
slots rolls it back at once. -/
def State.promoCheck (s : State) : State :=
  if s.trn.promo.any fun p => p.hit || s.on Reg.PRS_STAT_CHG then s.promoBack 1 0x14 else s

/-- TRAIN_PROMOTE (R291). -/
def execTrainPromote (r : Nat) (d : Desc) (s : State) : Out State :=
  .next (s.cmd r 0x0402 d { priv := 2, standby := true } fun s =>
    match s.trn.offer with
    | none => refuse s 2
    | some n => if n ≠ d.p0 then refuse s 3 else let (c, s) := s.promoStage r 0x0402 1 0; staged s c)

/-- TRAIN_REJECT (R291). -/
def execTrainReject (r : Nat) (d : Desc) (s : State) : Out State :=
  .next (s.cmd r 0x0403 d { priv := 1, standby := true } fun s =>
    match s.trn.offer with
    | none => refuse s 2
    | some n => ok ((s.logC (.host r) 2 0 0x0403 2 0 n 0).offerClose 1))

/-- TRAIN_REVERT (R288, R291). -/
def execTrainRevert (r : Nat) (d : Desc) (s : State) : Out State :=
  .next (s.cmd r 0x0404 d { priv := 2, standby := true } fun s =>
    if !s.on Reg.PRS_TRN_STAT_PRIOR then refuse s 4
    else if s.trnState = 5 then bad s 0x16
    else let (c, s) := s.promoStage r 0x0404 2 2; staged s c)

/-- OFFER_EXPIRY (R285). -/
def execOfferExpiry (s : State) : Out State :=
  .next (if s.get Reg.PRS_TRN_CTL2_OFFER = 0 then s else s.offerClose 2)

/-- A fraction in units of 1/65,536; 0 of none. -/
def frac16 (a n : Nat) : Nat := if n = 0 then 0 else a * 65536 / n

/-- PROBATION_CHECK (R288): once a second the withdrawn fraction is held against the prior one. -/
def State.probation (s : State) : State :=
  if !s.on Reg.PRS_TRN_STAT_PROBE then s
  else
    let f := frac16 s.trn.wdSec s.trn.nSec
    let past := decide (max (2 * s.trn.fPrior) 655 < f)
    let s := s.trnMod fun x => { x with wdSec := 0, nSec := 0, probeLeft := x.probeLeft - 1 }
    let s := if s.trn.probeLeft = 0 then s.set Reg.PRS_TRN_STAT_PROBE 0 else s
    if past ∧ s.trn.promo.isNone then ((s.set Reg.PRS_TRN_STAT_PROBE 0).promoStage 0x10000 0x0404 2 1).2 else s

/-- PROBATION_CHECK (R288). -/
def execProbationCheck (s : State) : Out State := .next s.probation

/-- CANDIDATE_CHECKPOINT (R290): the holder sends the candidate area and the step number to the standby, with a mark whether an offer is
open, which closes at a takeover (R285). -/
def State.checkpoint (s : State) : State :=
  s.sendBulk 2 (le 4 (s.get Reg.PRS_TRN_STEP) ++ le 1 (b2n s.trn.offer.isSome) ++
    s.pbytes (s.modelAddr (s.planN 1) ((s.tbs.head?).getD 0) (s.planN 3)) (s.planN 5))

/-- CANDIDATE_CHECKPOINT (R290). -/
def execCandidateCheckpoint (s : State) : Out State :=
  .next (if s.get Reg.PRS_TRN_CTL3_CKPT = 0 ∨ s.trnState = 0 then s else s.checkpoint)

/-! ## Scores (R281 to R283) -/

/-- A shadowed cycle that is not matched. -/
def State.skip (s : State) : State := s.bump Reg.PRS_TRN_SKIP

/-- Shadow runs and scoring go on: state RUN or OFFERED, SHDIV not 0, and the seat is not the standby (R285, R290). -/
def State.shadowing (s : State) : Bool :=
  (s.trnState == 2 || s.trnState == 4) && s.get Reg.PRS_TRN_CTL_SHDIV != 0 && !s.standby

/-- When cycle `k` has closed, the live targets of a shadowed cycle join the score queue (R282); a VOID one is skipped. -/
def State.scorePush (s : State) (k : Nat) : State :=
  if !s.shadowing || k % s.get Reg.PRS_TRN_CTL_SHDIV != 0 then s
  else
    let e := s.entry (k % 8)
    if e.state = 3 ∧ s.trn.queue.length < 128 then
      s.trnMod fun x => { x with queue := x.queue ++
        [{ cyc := k, live := Tab.get e.tgt 0 [], band := Tab.find e.tgt 1, sigma := s.sigma, inputs := s.prs.inputs }] }
    else s.skip

/-- GALLEY_CLOSE (R245, R282). -/
def execGalleyClose (s : State) : Out State :=
  .next (
    let k := s.get Reg.PRS_GAL_CYC
    let was := (s.entry (k % 8)).state
    let s := s.galleyClose
    if was = 1 then s.scorePush k else s)

/-- The shadow run of the oldest queued cycle that has had none begins when the shadow slot is free; one that has not begun by
T_k + 800 us is given up (R281). -/
def State.shadowTick (s : State) : State :=
  let slot := s.planN 2
  let x := s.slotX slot
  let late := s.trn.queue.filter fun q => q.cand.isNone && !q.begun && decide (q.cyc * 20000 + 800000 < s.time)
  let s := late.foldl (fun s q => (s.trnMod fun y => { y with queue := y.queue.filter fun z => z.cyc != q.cyc }).skip) s
  if !s.shadowing || !x.en || !x.canRun || s.get Reg.PRS_TRN_CTL_SHARE == 0 || !s.on Reg.PRS_FCTL_RUN ||
      s.prs.runs.any (fun r => r.slot == slot) then s
  else
    match s.trn.queue.find? fun q => q.cand.isNone && !q.begun with
    | some q =>
      let s := s.trnMod fun y => { y with queue := y.queue.map fun z => if z.cyc = q.cyc then { z with begun := true } else z }
      s.beginRun slot q.cyc (s.get Reg.PRS_TRN_STEP) q.inputs none
    | none => s

/-- A step begins when training runs, its slot is ready and no step is in progress (R278, R280). -/
def State.stepTick (s : State) : State :=
  let slot := s.planN 1
  let x := s.slotX slot
  if s.trnState = 2 ∧ x.en ∧ x.canRun ∧ s.get Reg.PRS_TRN_CTL_SHARE ≠ 0 ∧ s.on Reg.PRS_FCTL_RUN ∧ !s.standby ∧ !s.trn.stepDone ∧
      s.trn.promo.isNone ∧ !(s.prs.runs.any fun r => r.slot == slot) then
    s.beginRun slot (s.get Reg.PRS_GAL_CYC) (s.get Reg.PRS_TRN_STEP) s.prs.inputs none
  else s

/-- Holds and their ends (R289). A slot whose variant is on its way to the leaves is READY (R203). -/
def State.holdTick (s : State) : State :=
  let st := s.trnState
  let ready := fun (i : Nat) => (s.slotX i).en && (s.slotX i).chosen
  let slots := ready (s.planN 1) && ready (s.planN 2)
  if st = 1 ∨ st = 2 ∨ st = 4 then
    if s.on Reg.PRS_STAT_CHG then s.trnHold 5
    else if !slots then s.trnHold 2
    else if 3 ≤ s.trn.aborts then (s.trnMod fun x => { x with aborts := 0 }).trnHold 3
    else s
  else if st = 3 then
    match s.get Reg.PRS_TRN_STAT_HCAUSE with
    | 2 => if slots then s.trnResume else s
    | 5 => if s.on Reg.PRS_STAT_CHG then s else s.trnResume
    | _ => s
  else s

/-- The measured rack current at `k` ms grid position `p`, none when a modelled stream has no sample there (R282). A
held die without one counts at its mean over the last 1 ms (R141). -/
def State.measured (s : State) (p : Nat) : Option Int :=
  let xs := s.ing.streams.map fun e => (e.2.held, (e.2.sample p).or (if e.2.held then some (e.2.mean1ms p) else none))
  if xs.any fun x => !x.1 && x.2.isNone then none
  else some (divRne ((xs.map fun x => x.2.getD 0).foldl (· + ·) 0) 10)

/-- The band of a shadowed cycle at point `i` at rack scale; without one and under a share of 0 it is open. -/
def State.scoreBand (s : State) (q : Score) (i : Nat) : Int :=
  match q.band with
  | some b => (b[i]?).getD 0
  | none => if q.sigma = 0 then (Config.freeValue (s.free * 2 ^ 64 + 2 ^ 62 + i) : Int) else divRne ((pct s.bandDef : Nat) * 65536) q.sigma

/-- A candidate that passes (R285). -/
def State.candidatePasses (s : State) (el ec : Nat) : State :=
  match s.get Reg.PRS_TRN_CTL_POLICY with
  | 1 =>
    if s.trn.offer.isSome ∨ s.trnState ≠ 2 then s
    else
      let n := s.get Reg.PRS_TRN_STEP
      let (open_, s) := s.draw
      let ratio := if el = 0 then open_ else (divRne (ec * 65536 : Nat) el).toNat
      let s := (s.trnMod fun x => { x with offer := some n }).set Reg.PRS_TRN_STAT_STATE 4
      (s.evt 2 0x0400 (le 4 n ++ le 4 ratio ++ le 2 (satU 16 s.trn.wc) ++ le 2 (satU 16 s.trn.wl))).checkpoint
  | 2 => if s.trnState = 2 ∨ s.trnState = 4 then (s.promoStage 0x10000 0x0402 1 0).2 else s
  | _ => s

/-- The candidate is judged once MINCYC × 1,000 cycles have matched (R283); none is while SHDIV is 0 (R293). -/
def State.judge (s : State) : State :=
  if s.get Reg.PRS_TRN_MATCH < max 1 (s.get Reg.PRS_TRN_CTL3_MINCYC) * 1000 ∨ s.get Reg.PRS_TRN_CTL_SHDIV = 0 then s
  else
    let el := s.get Reg.PRS_TRN_ELIVE
    let ec := s.get Reg.PRS_TRN_ECAND
    let pass := decide (ec * 1024 ≤ el * (1024 - s.get Reg.PRS_TRN_CTL_MARGIN)) && decide (s.trn.wc ≤ s.trn.wl)
    let s := s.trnMod fun x => { x with fPrior := frac16 x.wdWin x.nWin, wdWin := 0, nWin := 0 }
    let s := if pass then s.candidatePasses el ec else s
    s.clearScores

/-- Cycle `q` is scored against the measured windows (R282); a shadow run that has not ended by now is abandoned (R281). -/
def State.score (s : State) (q : Score) : State :=
  match q.cand with
  | none => (if s.prs.runs.any fun r => r.slot == s.planN 2 && r.cycle == q.cyc then s.abandon (s.planN 2) 2 else s).skip
  | some cand =>
    let os := (List.range 2048).map fun i => (i, s.measured (q.cyc * 20 + i))
    let valid := os.filterMap fun p => p.2.map fun o => (p.1, o)
    if valid.length < 1843 then s.skip
    else
      let dev := fun (v : List Int) (p : Nat × Int) => ((v[p.1]?).getD 0 - p.2).natAbs
      let sum := fun (v : List Int) => (valid.map (dev v)).foldl (· + ·) 0
      let w := fun (v : List Int) => valid.any fun p =>
        decide (20 ≤ p.1 ∧ p.1 ≤ 35) && decide (s.scoreBand q p.1 < (dev v p : Int))
      let s := (s.set Reg.PRS_TRN_ELIVE (s.get Reg.PRS_TRN_ELIVE + sum q.live)).set Reg.PRS_TRN_ECAND
        (s.get Reg.PRS_TRN_ECAND + sum cand)
      let s := s.trnMod fun x => { x with wl := x.wl + b2n (w q.live), wc := x.wc + b2n (w cand) }
      let s := (s.set Reg.PRS_TRN_WITH_WLIVE (satU 16 s.trn.wl)).set Reg.PRS_TRN_WITH_WCAND (satU 16 s.trn.wc)
      (s.set Reg.PRS_TRN_MATCH (s.get Reg.PRS_TRN_MATCH + 1)).judge

/-- SHADOW_SCORE (R282): at the first press-cycle boundary at or after T_k + 2,100 us. With SHDIV 0 there are no shadow runs, and a cycle
that still waits is not matched (R293). -/
def execShadowScore (s : State) : Out State :=
  .next (match s.trn.queue with
    | q :: t =>
      if q.cyc * 20000 + 2100000 ≤ s.time then
        (s.trnMod fun x => { x with queue := t }).score (if s.get Reg.PRS_TRN_CTL_SHDIV = 0 then { q with cand := none } else q)
      else s
    | [] => s)

/-- What the trainer does at a press-cycle boundary. -/
def State.trainTick (s : State) : State :=
  let s := s.promoCheck.holdTick
  let s := if s.trn.endHeld && s.trnState == 2 then s.stepEnd else s
  s.epochSwitch.shadowTick.stepTick

/-! ## TRAIN_RUN and TRAIN_QUERY (R291) -/

/-- TRAIN_RUN (R291): start leaves a hold of cause 1, 3 or 4; hold passes to HELD unless a promotion is in progress. -/
def execTrainRun (r : Nat) (d : Desc) (s : State) : Out State :=
  .next (s.cmd r 0x0401 d { priv := 2, standby := true } fun s =>
    if s.trnState = 0 then refuse s 1
    else
      let s := s.logC (.host r) 2 0 0x0401 2 0 0 (bits d.p0 0 1)
      let c := s.get Reg.PRS_TRN_STAT_HCAUSE
      if bit d.p0 0 then
        ok (if s.trnState = 3 ∧ c ≠ 2 ∧ c ≠ 5 then (s.trnMod fun x => { x with aborts := 0 }).trnResume else s)
      else ok (if s.trnState = 5 then s else s.trnHold 1))

/-- TRAIN_QUERY (R291). -/
def execTrainQuery (r : Nat) (d : Desc) (s : State) : Out State :=
  .next (s.cmd r 0x0405 d { priv := 0, buf := .writes, lenOk := fun n => 64 ≤ n } fun s =>
    image s 64 (s.regBytes ((List.range 10).map fun i => 0x2300C + 4 * i)))

end Sys2Proof.Machine
end

