-- ==== Sys2Proof/Machine/Cycle.lean ====
section
/-!
DEFINITION. The start of a press cycle (R19, R145, R231, R243, R259): its inputs, its entry, and the runs that begin at it.
-/
namespace Sys2Proof.Machine

/-- The mean shelf output current over the last 1 ms (R259). -/
def State.meanOut (s : State) : Int :=
  let xs := s.chs.iHist.filter fun p => decide (s.time < p.1 + 1000000)
  divRne ((xs.map (·.2)).foldl (· + ·) 0) (max 1 xs.length)

/-- The plan input block of R259. -/
def State.planBlock (s : State) (k : Nat) : List Int :=
  [(s.sigma : Int), s.meanOut, (s.get Reg.CHS_PGRID : Nat)] ++
  ((List.range 4).map fun st => ((s.get (Reg.BUP_EST_SOC_REP st) : Nat) : Int)) ++
  ([s.get Reg.CHS_VBUS, s.get Reg.CHS_RMP_SUP, s.get Reg.CHS_RMP_SDN, s.get Reg.CHS_RMP_PMIN, s.get Reg.CHS_RMP_PMAX,
    k % 2 ^ 32].map fun n => (n : Int)) ++ List.replicate 51 0

/-- Where the plan input block lies: the last 256 bytes of quire buffer 0 of the first textblock (R259). -/
def State.planBlockAt (s : State) : Nat :=
  let t := s.physTb 0
  qbufAddr t (s.physQ t 0) 0x3FFF00

/-- The plan input block is written to the last 256 bytes of the quire buffer of logical quire 0 of logical textblock 0. -/
def State.putPlanBlock (s : State) (k : Nat) : State :=
  s.pwrite s.planBlockAt ((s.planBlock k).flatMap fun z => le 4 (ofS 32 z))

/-- A PLAN run whose turn has come begins (R231). The one before it gives its plan when it has ended in every textblock, whether its
RUN_END has come or not; else it is abandoned, and its plan dropped (R232, R261). -/
def State.planBegin (s : State) (i k : Nat) : State :=
  let x := s.slotX i
  if k < x.enAt ∨ (k - x.enAt) % s.planDiv ≠ 0 then s
  else
    let s := match s.prs.runs.find? fun r => r.slot == i with
      | some r => if r.over then s.runEnd r else s.stopRun i 2
      | none => s
    let s := (s.putPlanBlock k).galMod fun g => { g with basis := Tab.put g.basis k 0 }
    s.beginRun i k 0 s.prs.inputs none

/-- The PROOF and PLAN runs of press cycle `k` begin (R231). -/
def State.beginRuns (s : State) (k : Nat) : State :=
  if !s.on Reg.PRS_FCTL_RUN then s
  else
    let s := (s.live 0).foldl (fun s i => s.beginRun i k 0 s.prs.inputs none) s
    (s.live 1).foldl (fun s i => s.planBegin i k) s

/-- The inputs of press cycle `k` are fixed by its cut (R145). -/
def State.takeInputs (s : State) (k : Nat) : State :=
  let s := s.ingMod fun i => { i with cuts := s.cutIndices }
  s.prsMod fun p => { p with inputs := { cycle := k, streams := s.ing.streams, sched := s.ing.sched, lost := s.on Reg.HST_ING_STAT_LOST } }

/-- Press cycles start (R61, R165, R263): the Press has passed make-ready and something is in service, and no change of
hierarchy, firmware step or halt holds them off. -/
def State.cyclesRun (s : State) : Bool :=
  s.on Reg.GLB_BOOTSTAT_PRESS && s.get Reg.PRS_STAT_SVC != 0 && !s.on Reg.PRS_STAT_QUIESCED && !s.prs.fwStep && !s.halted

/-- Cycle k opens its entry and its runs begin, unless cycles do not start (R72): then it counts as one without proof. The
standby's runs begin only at the PCYC of the holder. -/
def State.openOrNot (s : State) (k : Nat) : State :=
  if !s.cyclesRun then s.noProof k
  else
    let s := s.openEntry k
    if s.standby then s else s.beginRuns k

/-- The formes whose FORME_IMPOSE came before this boundary are imposed at it, ahead of a change of the hierarchy, for which their
variants are chosen (R235, R236). They are held while the management cluster restarts (R59). -/
def State.formesDue (s : State) : State :=
  let pick := s.hierTick.select
  if s.glb.mgmtDown then s else s.prs.slots.foldl (fun s e => match e.2.due with
    | some copied => s.formeImpose e.1 copied pick
    | none => s) s

/-- The runs of slot `i` that began at this boundary with the forme replaced by a later FORME_IMPOSE give way to those of the new one. -/
def State.beginAnew (s : State) (i : Nat) : State :=
  let k := s.get Reg.PRS_GAL_CYC
  let gone := fun (r : Run) => r.slot == i && r.cycle == k && r.kind ≤ 1 && r.inst != (s.slotX i).inst
  if !(s.prs.runs.any gone) then s
  else
    let s := s.prsMod fun p => { p with runs := p.runs.filter fun r => !gone r }
    if !(s.slotX i).en then s
    else if (s.slotX i).kindIs 0 then
      let s := s.beginRun i k 0 s.prs.inputs none
      s.prsMod fun p => { p with
        runs := sortBy (fun a b => decide (a.slot ≤ b.slot)) (p.runs.filter fun r => r.kind == 0) ++ p.runs.filter fun r => r.kind != 0 }
    else if (s.slotX i).kindIs 1 then s.planBegin i k
    else s

/-- The variant chosen at this boundary is for the hierarchy in service from it on (R236), whether the press cycle has begun or not. -/
def State.pickNow (s : State) : Forme → Option Nat :=
  if s.get Reg.PRS_GAL_CYC = s.time / 20000 then s.select else s.hierTick.select

/-- FORME_IMPOSE (R235): the copy and the load have ended. At a press-cycle boundary the forme is imposed there, unless a change of the
hierarchy has come into force at it already: an imposition takes effect first (R236). Else it is marked, and imposed at the next. -/
def execFormeImpose (slot : Nat) (copied : Bool) (s : State) : Out State :=
  .next (
    if s.time % 20000 = 0 ∧ s.prs.hierEnd ≠ some s.time ∧ !s.glb.mgmtDown then (s.formeImpose slot copied s.pickNow).beginAnew slot
    else if (s.slotX slot).staged.isSome then s.slotMod slot fun x => { x with due := some copied }
    else s)

/-- A press-cycle boundary (R19, R243). A standby begins the runs of the cycle once it holds the cut indices of the active
seat (R146). -/
def State.cycleStart (s : State) : State :=
  let old := s.get Reg.PRS_GAL_CYC
  let s := if (s.entry (old % 8)).state = 1 then s.galleyClose else s
  let k := s.time / 20000
  let s := ((((s.set Reg.PRS_GAL_CYC k).sparesEnter.variantsEnter).formesDue).hierTick).takeInputs k
  let s := s.startTick.blindTick true
  ((s.openOrNot k).captureDue k).trainTick

end Sys2Proof.Machine
end

