-- ==== Sys2Proof/Machine/Fennal.lean ====
section
/-!
DEFINITION. The Fennal carrier (R362 to R387): group time, frames and their authentication, keys, medium access, tone
masks and erasure.
-/
namespace Sys2Proof.Machine

/-- Changes the carrier's state. -/
def State.fenMod (s : State) (f : Fen → Fen) : State := { s with fen := f s.fen }

/-! ## Group time (R375, R382) -/

/-- o_pred at shelf time `t` (R382). -/
def State.gofs (s : State) (t : Nat) : Int :=
  s.getS Reg.FEN_GOFS + divRne (s.getS Reg.FEN_RATE * ((t : Int) - s.fen.upd)) 10000000

/-- Group time now, in ns. -/
def State.groupTime (s : State) : Int := s.time + s.gofs s.time

/-- The number of the beacon instant nearest to now. -/
def State.instant (s : State) : Nat := ((s.groupTime + 5000000) / 10000000).toNat

/-- The carrier is enabled, drives its pins and has a group (R52, R381, R384). -/
def State.fenUp (s : State) : Bool := s.on Reg.FEN_CTL_EN && s.glb.fenOn && s.get Reg.FEN_GROUP != 0

/-- Inside the window of R375: 800 us before a beacon instant to the end of the beacon, or to 400 us after the instant
when none is heard. -/
def State.fenQuiet (s : State) : Bool :=
  let g := s.groupTime
  let o := g % 10000000
  decide (9200000 ≤ o) ||
    (if s.fen.bNum = some ((g / 10000000).toNat % 2 ^ 32) then decide (s.time < s.fen.bEnd) else decide (o < 400000))

/-- A 32-bit serial number is newer than another (R377). -/
def newer32 (a b : Nat) : Bool := let d := (a + 2 ^ 32 - b % 2 ^ 32) % 2 ^ 32; decide (0 < d ∧ d < 2 ^ 31)

/-- Airtime of a frame of `n` bytes, in ns (R364). -/
def airtime (n : Nat) : Nat := 12000 * (2 + cdiv n 6)

/-! ## Tones and symbols (R362 to R365) -/

/-- The tone of data tone d (R362). -/
def dataTone (d : Nat) : Nat := d + d / 15 + 1

/-- The tones that carry raw bit b, in ascending order (R363). -/
def copies (b : Nat) : List Nat := (List.range 5).map fun c => dataTone (b + 48 * c)

/-- A tone set from its members. -/
def toneSet (p : Nat → Bool) : Nat := (List.range 256).foldl (fun a i => a + b2n (p i) * 2 ^ i) 0

/-- The group tone mask in force. -/
def State.mask (s : State) : Nat := (List.range 8).foldl (fun a w => a + s.get (Reg.FEN_MASK w) * 2 ^ (32 * w)) 0

/-- The mask that this station uses: none before it has received the one in force (R365). -/
def State.useMask (s : State) : Nat := if s.on Reg.FEN_STAT_JOINED then s.mask else 0

/-- The 48 raw bits of data symbol `k` of a frame: bit j of byte 6k + i is raw bit 8i + j, and the bytes that fill the last symbol are 0
(R364). -/
def rawBits (b : List Byte) (k : Nat) : Nat := ofLe ((b.drop (6 * k)).take 6)

/-- A data symbol under a mask: raw bit b goes out on the data tones b + 48c; a masked tone carries nothing (R363, R365). -/
def dataSymbol (mask raw : Nat) : Symbol :=
  { carried := toneSet fun i => !bit mask i
    ones := toneSet fun i => !bit mask i && i % 16 != 0 && bit raw ((i - i / 16 - 1) % 48) }

/-- A frame on the wire: two preamble symbols on all tones, then the data symbols (R364). -/
def wire (mask : Nat) (b : List Byte) : List Symbol :=
  (List.range 2).map (fun i => { carried := toneSet fun _ => true, ones := Config.preamble i }) ++
    (List.range (cdiv b.length 6)).map fun k => dataSymbol mask (rawBits b k)

/-- The usable ones of the 240 data tones, in order: neither masked nor erased (R363). -/
def usable (mask erased : Nat) : List Bool :=
  (List.range 240).map fun d => !bit mask (dataTone d) && !bit erased (dataTone d)

/-- The six bytes of a symbol: a raw bit is 1 when the sum of the soft values of its usable copies is positive (R363). -/
def symBytes (use : List Bool) (soft : List Int) : List Byte :=
  let v := (use.zip soft).map fun x => if x.1 then x.2 else 0
  let sums := (List.range 5).foldl (fun a c => a.zipWith (· + ·) ((v.drop (48 * c)).take 48)) (List.replicate 48 0)
  le 6 (sums.foldr (fun x a => b2n (decide (0 < x)) + 2 * a) 0)

/-- The tones erased for a symbol that begins at shelf time `t` (R367). -/
def State.erasedAt (s : State) (t : Nat) : Nat :=
  match s.fen.erase.find? fun e => decide (e.1 ≤ t) with
  | some e => e.2
  | none => 0

/-- The bytes that the data symbols of a frame give, its first preamble sample at shelf time `rx`, under a mask. -/
def State.demodWith (s : State) (mask rx : Nat) (syms : List (List Int)) : List Byte :=
  syms.zipIdx.flatMap fun x => symBytes (usable mask (s.erasedAt (rx + 24000 + 12000 * x.2))) x.1

/-- A frame as received (R363, R364): a frame whose TYPE is BEACON carries no mask (R365). The bytes that fill its last symbol are
ignored; where the symbols are not those of a frame of its LEN, all bytes stand, and the check of R370 fails. -/
def State.demod (s : State) (rx : Nat) (syms : List (List Int)) : List Byte :=
  let b := s.demodWith s.useMask rx syms
  let b := if rd b 0 1 = 2 then s.demodWith 0 rx syms else b
  let n := 28 + rd b 12 2
  if syms.length = cdiv n 6 then b.take n else b

/-! ## Keys (R376, R378) -/

/-- The key of a slot. -/
def State.fenKey (s : State) (slot : Nat) : Option (List Byte) := (s.nv.fenKeys[slot]?).join

/-- The check value of a key (R378). -/
def kcv (k : Option (List Byte)) : Nat :=
  match k with
  | none => 0
  | some k => ofLe ((cmac k (zeros 16)).take 2)

/-- A key slot takes a key, or none: the settings store holds it, its check value shows (R378). -/
def State.putKey (s : State) (slot : Nat) (k : Option (List Byte)) : State :=
  let s := { s with nv := { s.nv with fenKeys := s.nv.fenKeys.set slot k } }
  let s := s.setNv Reg.FEN_STAT_KEYV (b2n (s.fenKey 0).isSome + 2 * b2n (s.fenKey 1).isSome)
  let s := s.setNv (if slot = 0 then Reg.FEN_KEYCHK_KCV0 else Reg.FEN_KEYCHK_KCV1) (kcv k)
  s.fenMod fun f => { f with last := Tab.drop f.last fun i => i / 16 == slot }

/-- A staged FENNAL_KEY or FENNAL_KEYDEL is imposed; it fails when the slot has become the transmit slot. -/
def State.imposeKey (s : State) (slot : Nat) (k : Option (List Byte)) : Bool × State :=
  if s.get Reg.FEN_STAT_KEYTX = slot then (false, s) else (true, s.putKey slot k)

/-- A staged FENNAL_KEYTX is imposed; it fails when the slot holds no valid key. -/
def State.imposeKeytx (s : State) (slot : Nat) : Bool × State :=
  if (s.fenKey slot).isSome then (true, s.setNv Reg.FEN_STAT_KEYTX slot) else (false, s)

/-! ## Frames (R368, R369) -/

/-- LEN of the defined types. -/
def fenLen (typ : Nat) : Option Nat :=
  match typ with
  | 1 => some 4
  | 2 => some 140
  | 3 => some 64
  | 0x10 => some 64
  | 0x11 => some 8
  | 0x12 => some 16
  | _ => none

/-- The bytes of a frame (R368) under a key: a unicast frame, an ACK too, has ACKREQ set. -/
def frameBytes (key : List Byte) (slot typ pri src dst group seq : Nat) (retry : Bool) (payload : List Byte) : List Byte :=
  let m := le 1 typ ++ le 1 (slot + 2 * b2n (dst != 0xFF) + 4 * b2n retry + 8 * pri) ++ le 1 src ++ le 1 dst ++
    le 4 group ++ le 4 seq ++ le 2 payload.length ++ zeros 2 ++ payload
  let b := m ++ (cmac key m).take 8
  b ++ le 4 (crc32 b)

/-- Takes the next SEQ: after a start from the stored mark plus 65,536, the new mark being written first; the mark is
written at every multiple of 65,536 (R377). -/
def State.takeSeq (s : State) : Nat × State :=
  match s.fen.seq with
  | some q =>
    let n := (q + 1) % 2 ^ 32
    let s := s.fenMod fun f => { f with seq := some n }
    let s : State := { s with nv := { s.nv with fenSent := match s.nv.fenSent with
      | [] => [(q, n)]
      | e :: t => (e.1, n) :: t } }
    (q, if n % 65536 = 0 then { s with nv := { s.nv with fenMark := n } } else s)
  | none =>
    let q := (s.nv.fenMark + 65536) % 2 ^ 32
    let n := (q + 1) % 2 ^ 32
    (q, ({ s with nv := { s.nv with fenMark := q, fenSent := (q, n) :: s.nv.fenSent } } : State).fenMod fun f => { f with seq := some n })

/-- This station has sent a SEQ (R377). -/
def State.fenSent (s : State) (q : Nat) : Bool :=
  s.nv.fenSent.any fun e => decide ((q + 2 ^ 32 - e.1) % 2 ^ 32 < (e.2 + 2 ^ 32 - e.1) % 2 ^ 32)

/-- A frame goes out under the transmit key, and under the mask in force but for a beacon (R365); it keeps the medium busy (R372).
Nothing is sent without a valid key. Answers its SEQ. -/
def State.sendOut (s : State) (x : FenTx) : Option Nat × State :=
  let slot := s.get Reg.FEN_STAT_KEYTX
  match s.fenKey slot with
  | none => (none, s)
  | some k =>
    let (q, s) := match x.seq with
      | some q => (q, s)
      | none => s.takeSeq
    let b := frameBytes k slot x.typ x.pri s.rank x.dst (s.get Reg.FEN_GROUP) q (decide (x.tries ≠ 0)) x.payload
    (some q, (s.emit (.fennal x.typ x.dst (wire (if x.typ = 2 then 0 else s.useMask) b))).fenMod fun f =>
      { f with txEnd := s.time + airtime b.length })

/-! ## Medium access (R372 to R374) -/

/-- CW_min and CW_max of a class. -/
def cwMin (c : Nat) : Nat := 2 ^ (5 - min c 3)
def cwMax (c : Nat) : Nat := 2 ^ (10 - 2 * min c 3)

/-- A back-off count below CW, drawn from the island's random generator: the value is open (log entry 8). -/
def State.backoff (s : State) (cw : Nat) : Nat × State := let (v, s) := s.draw; (v % cw, s)

/-- The medium is busy for this station: by what it senses, or by its own transmission (R372). -/
def State.medium (s : State) : Bool := s.fen.busy || decide (s.time < s.fen.txEnd)

/-- Since when the medium is idle. -/
def State.idleSince (s : State) : Nat := max s.fen.idleAt s.fen.txEnd

/-- AIFS of a class, in ns (R373). -/
def aifs (c : Nat) : Nat := 48000 + (3 - min c 3) * 12000

/-- The frame that contends for the medium: the oldest of the highest class (log entry 23). A halted station sends no REPORT (R473). -/
def State.nextFrame (s : State) : Option FenTx :=
  let xs := if s.halted then s.fen.queue.filter fun x => x.typ != 0x10 else s.fen.queue
  let top := xs.foldl (fun a x => max a x.pri) 0
  xs.find? fun x => x.pri == top

/-- Idle slots that have ended for a frame since the AIFS of its class (R374). -/
def State.slots (s : State) (x : FenTx) : Nat :=
  if s.medium then 0 else (s.time - max (s.idleSince + aifs x.pri) x.since) / 12000

/-- The back-off count of a frame has reached 0 with the medium idle (R374). -/
def State.mayBegin (s : State) (x : FenTx) : Bool :=
  !s.medium && decide (s.idleSince + aifs x.pri ≤ s.time) && decide (x.count ≤ s.slots x)

/-- The back-off count of the frame that contends stops where it is (R374). -/
def State.freeze (s : State) : State :=
  match s.nextFrame with
  | none => s
  | some x => s.fenMod fun f =>
    { f with queue := f.queue.map fun y => if y = x then { x with count := x.count - s.slots x, since := s.time } else y }

/-- A frame is sent out of turn: a beacon or an ACK. The frame that contends freezes. -/
def State.sendFrame (s : State) (x : FenTx) : Option Nat × State := s.freeze.sendOut x

/-- A frame waits for access, with its back-off count drawn (R374). -/
def State.queueFrame (s : State) (typ pri : Nat) (payload : List Byte) : State :=
  let (n, s) := s.freeze.backoff (cwMin pri)
  s.fenMod fun f => { f with queue := f.queue ++
    [{ typ := typ, pri := pri, dst := 0xFF, payload := payload, cw := cwMin pri, count := n, since := s.time }] }

/-- Sends the frame that contends. A broadcast is done with; a unicast frame waits for its ACK. Without a valid key it is not sent, and is
dropped uncounted (log entry 23). -/
def State.sendNext (s : State) : State :=
  match s.nextFrame with
  | none => s
  | some x =>
    let a := (s.fenMod fun f => { f with queue := f.queue.erase x }).sendOut x
    match a.1 with
    | none => a.2
    | some q =>
      if x.dst = 0xFF then a.2.bump Reg.FEN_TXOK
      else a.2.fenMod fun f => { f with flight := some { x with seq := some q } }

/-- The frame that contends begins once its count has reached 0, outside the window of R375; a station that is FAR sends only ACKs
(R383). -/
def State.access (s : State) : State :=
  if !s.fenUp || s.fenQuiet || s.on Reg.FEN_STAT_FAR then s
  else if s.nextFrame.any s.mayBegin then s.sendNext
  else s

/-- The medium is taken as busy (R372). -/
def State.senseBusy (s : State) : State := s.freeze.fenMod fun f => { f with busy := true, low := none }

/-- CARRIER_SENSE_CHANGE (R372): the medium is busy with a preamble (no level), or when the energy on the unmasked tones exceeds the noise
floor by more than CSTHR, in tenths of a dB; it is idle once the energy has stayed below that level for one symbol time. -/
def State.carrierSense (s : State) (level : Option Int) : State :=
  let thr : Int := s.get Reg.FEN_PHY_CSTHR * 10
  match level with
  | none => s.senseBusy
  | some e =>
    if thr < e then s.senseBusy
    else
      let low := if e < thr then some (s.fen.low.getD s.time) else none
      let quiet := low.any fun t => decide (t + 12000 ≤ s.time)
      s.fenMod fun f => { f with low := low, busy := f.busy && !quiet, idleAt := if f.busy && quiet then s.time else f.idleAt }

/-- CARRIER_SENSE_CHANGE (R372). -/
def execCarrierSenseChange (level : Option Int) (s : State) : Out State := .next (s.carrierSense level)

/-- ACK_TIMEOUT (R374): a collision. The frame is sent again with CW doubled, or dropped after RETRY repeats. -/
def execAckTimeout (s : State) : Out State :=
  .next (match s.fen.flight with
    | none => s
    | some x =>
      let s := s.fenMod fun f => { f with flight := none }
      if s.get Reg.FEN_CTL_RETRY ≤ x.tries then s.bump Reg.FEN_TXDROP
      else
        let cw := min (2 * x.cw) (cwMax x.pri)
        let (n, s) := s.freeze.backoff cw
        (s.bump Reg.FEN_RETRIES).fenMod fun f =>
          { f with queue := { x with tries := x.tries + 1, cw := cw, count := n, since := s.time } :: f.queue })

/-- An ACK that names the SEQ of the frame in flight: the frame is delivered (R371). -/
def State.takeAck (s : State) (src seq : Nat) : State :=
  match s.fen.flight with
  | none => s
  | some x => if x.dst = src ∧ x.seq = some seq then
      (s.bump Reg.FEN_TXOK).fenMod fun f => { f with flight := none }
    else s

/-! ## Tones (R363 to R367) -/

/-- The class of tone i in a list of classes, 2 bits a tone (R369). -/
def toneClass (v i : Nat) : Nat := bits v (2 * i) 2

/-- The class of an SNR in tenths of a dB (R369); 12 dB and 18 dB belong to the class above, as 18 dB is said to (log entry 98). -/
def snrClass (snr : Int) : Nat := if snr < 60 then 0 else if snr < 120 then 1 else if snr < 180 then 2 else 3

/-- The classes this station measured itself. -/
def State.ownTones (s : State) : Nat := (List.range 16).foldl (fun a w => a + s.get (Reg.FEN_SNR w) * 2 ^ (32 * w)) 0

/-- The lowest class reported for a tone within the last 3 s, with the station's own (R366). -/
def State.lowest (s : State) (i : Nat) : Nat :=
  (s.fen.tones.filter fun e => decide (s.time ≤ e.2.1 + 3000000000)).foldl (fun a e => min a (toneClass e.2.2 i))
    (toneClass s.ownTones i)

/-- Step 2 of R366: the copies of a raw bit to unmask, so that at least 2 remain. -/
def State.unmask (s : State) (m b : Nat) : Nat :=
  let cs := copies b
  let open_ := cs.countP fun i => !bit m i
  let order := [3, 2, 1, 0].flatMap fun k => cs.filter fun i => bit m i && s.lowest i == k
  (order.take (2 - open_)).foldl (fun m i => m - 2 ^ i) m

/-- The leader's candidate mask (R366). -/
def State.candMask (s : State) : Nat :=
  let m := s.mask
  let c := toneSet fun i => let k := s.lowest i; k == 0 || (k == 1 && bit m i)
  (List.range 48).foldl (fun m b => s.unmask m b) c

/-- A mask comes into force; MASK_CHANGED when it differs (R365, R386). -/
def State.putMask (s : State) (eff m : Nat) : State :=
  let old := s.mask
  let s := (List.range 8).foldl (fun s w => s.set (Reg.FEN_MASK w) (m / 2 ^ (32 * w))) s
  let s := s.set Reg.FEN_MASKBCN eff
  if old = m then s
  else s.evt 6 0x0702 (le 4 eff ++ le 2 ((List.range 256).countP fun i => bit m i) ++ zeros 6)

/-- The pending mask comes into force from its effective beacon number on (R365). -/
def State.maskDue (s : State) (n : Nat) : State :=
  match s.fen.pend with
  | some (e, m) => if newer32 e n then s else (s.fenMod fun f => { f with pend := none }).putMask e m
  | none => s

/-- The leader's decision at a beacon: a candidate that differs is announced 2 beacons ahead, at most once a second. -/
def State.maskJudge (s : State) (n : Nat) : State :=
  let soon := match s.fen.maskAt with
    | some t => decide (s.time < t + 1000000000)
    | none => false
  if soon || s.fen.pend.isSome then s
  else
    let c := s.candMask
    if c = s.mask then s
    else s.fenMod fun f => { f with pend := some ((n + 2) % 2 ^ 32, c), maskAt := some s.time }

/-- The group of an entry of FEN_NOTCH switches (R367): 0 grid, 1 to 4 a string, others always. -/
def State.notchOn (s : State) (g : Nat) : Bool :=
  if 5 ≤ g then true
  else (groupPhases g).any fun q => s.pst q == 4 || s.pst q == 5 || s.pst q == 6 || s.pst q == 7

/-- Tone i lies within the half-width of a line of base `b` (100 kHz units), width in 10 kHz units (R367). -/
def onLine (b w i : Nat) : Bool :=
  let c := 200 + 10 * i
  let k := c / (10 * b)
  (decide (1 ≤ k) && decide (c - k * (10 * b) ≤ w)) || decide ((k + 1) * (10 * b) ≤ c + w)

/-- The tones that this station erases, as a set (R367). The last usable copy of a raw bit is kept. -/
def State.erased (s : State) : Nat :=
  let lines := ((List.range 8).filter fun n =>
    s.get (Reg.FEN_NOTCH_BASE n) != 0 && s.notchOn (s.get (Reg.FEN_NOTCH_GROUP n))).map fun n => s.get (Reg.FEN_NOTCH_BASE n)
  if !s.on Reg.FEN_CTL_NOTCHEN || lines.isEmpty then 0
  else
    let e := toneSet fun i => lines.any fun b => onLine b (s.get Reg.FEN_PHY_NOTCHW) i
    let m := s.mask
    (List.range 48).foldl (fun e b =>
      let use := (copies b).filter fun i => !bit m i
      match use.head? with
      | some i => if use.all fun j => bit e j then e - 2 ^ i else e
      | none => e) e

/-- FEN_ERASE at a period boundary (R367): the set applies from the next symbol on; the last millisecond of sets is kept, for a frame that
is still under way. -/
def State.eraseTick (s : State) : State :=
  let e := s.erased
  let s := if s.erasedAt s.time = e then s
    else s.fenMod fun f => { f with erase := (s.time, e) :: (f.erase.takeWhile fun x => decide (s.time < x.1 + 1000000)) ++
      ((f.erase.find? fun x => decide (x.1 + 1000000 ≤ s.time)).toList) }
  (List.range 8).foldl (fun s w =>
    let v := e / 2 ^ (32 * w) % 2 ^ 32
    if s.get (Reg.FEN_ERASE w) = v then s else s.set (Reg.FEN_ERASE w) v) s

/-- A TONE_REPORT of a station (R366). -/
def State.takeTones (s : State) (src : Nat) (p : List Byte) : State :=
  s.fenMod fun f => { f with tones := Tab.put f.tones src (s.time, ofLe p) }

/-- The classes of the tones as measured, 2 bits a tone (R369). -/
def toneClasses (snr : List Int) : Nat := snr.foldr (fun x a => snrClass x + 4 * a) 0

/-- TONE_REPORT_DUE (R366): the station's own measurement, the SNR of each tone in tenths of a dB, sent once joined. While FAR it sends
only ACKs (R383). -/
def State.toneReport (s : State) (snr : List Int) : State :=
  let v := toneClasses snr
  let s := (List.range 16).foldl (fun s w => s.set (Reg.FEN_SNR w) (v / 2 ^ (32 * w) % 2 ^ 32)) s
  if s.fenUp && s.on Reg.FEN_STAT_JOINED && !s.on Reg.FEN_STAT_FAR then s.queueFrame 3 1 (le 64 s.ownTones) else s

/-- TONE_REPORT_DUE (R366). -/
def execToneReportDue (snr : List Int) (s : State) : Out State := .next (s.toneReport snr)

/-! ## Commands (R385) -/

/-- FENNAL_QUERY (R385). -/
def execFennalQuery (r : Nat) (d : Desc) (s : State) : Out State :=
  .next (s.cmd r 0x0700 d { priv := 0, buf := .writes, lenOk := fun n => 64 ≤ n } fun s =>
    image s 64 (s.regBytes [0x60008, 0x6000C, 0x60010, 0x60018, 0x6001C, 0x60020, 0x60024, 0x60028, 0x6002C, 0x6010C,
      0x60114, 0x60118]))

/-- FENNAL_KEY (R385): reason 1 for the transmit slot, reason 3 for a zero key (R384). -/
def execFennalKey (r : Nat) (d : Desc) (s : State) : Out State :=
  .next (
    let b := bufBytes d
    let slot := rd b 0 1
    s.cmd r 0x0701 d { priv := 3, standby := true, buf := .reads, lenOk := fun n => 32 ≤ n } fun s =>
      let key := (b.drop 16).take 16
      if 2 ≤ slot ∨ rd b 1 15 ≠ 0 then bad s 0x14
      else if s.get Reg.FEN_STAT_KEYTX = slot then refuse s 1
      else if ofLe key = 0 then refuse s 3
      else
        let (n, s) := s.stage1 r 6 0x0701 slot (kcv (s.fenKey slot)) (kcv (some key)) s.leadPeriod (.fennalKey slot (some key))
        { staged s n with done := 32 })

/-- FENNAL_KEYTX (R385): reason 2 when the slot holds no valid key. -/
def execFennalKeytx (r : Nat) (d : Desc) (s : State) : Out State :=
  .next (s.cmd r 0x0702 d { priv := 3, standby := true, parOk := decide (d.p0 < 2) } fun s =>
    if (s.fenKey d.p0).isNone then refuse s 2
    else
      let (n, s) := s.stage1 r 6 0x0702 d.p0 (kcv (s.fenKey (s.get Reg.FEN_STAT_KEYTX))) (kcv (s.fenKey d.p0)) s.leadPeriod (.fennalTx d.p0)
      staged s n)

/-- FENNAL_KEYDEL (R385): reason 1 for the transmit slot. -/
def execFennalKeydel (r : Nat) (d : Desc) (s : State) : Out State :=
  .next (s.cmd r 0x0703 d { priv := 3, standby := true, parOk := decide (d.p0 < 2) } fun s =>
    if s.get Reg.FEN_STAT_KEYTX = d.p0 then refuse s 1
    else
      let (n, s) := s.stage1 r 6 0x0703 d.p0 (kcv (s.fenKey d.p0)) 0 s.leadPeriod (.fennalKey d.p0 none)
      staged s n)

end Sys2Proof.Machine
end

