-- ==== Sys2Proof/Machine/Group.lean ====
section
/-!
DEFINITION. The rack group and its ramp contract (R396 to R415): versions and digests, modes, reports, classes and
shares, pace notices, cooling and derate.
-/
namespace Sys2Proof.Machine

/-- Changes the group's state. -/
def State.grpMod (s : State) (f : Grp → Grp) : State := { s with grp := f s.grp }

/-! ## Configured values and digests (R399, R412) -/

/-- NSHELF: 0 and above 8 act as 8. -/
def State.nshelf (s : State) : Nat := let n := s.get Reg.FEN_GRP_CTL_NSHELF; if n = 0 ∨ 8 < n then 8 else n

/-- LIFE in ns: 0 acts as 10. -/
def State.lifeNs (s : State) : Nat := (let n := s.get Reg.FEN_GRP_CTL_LIFE; if n = 0 then 10 else n) * 100000000

/-- The configured rack values UP, DOWN, PMIN, PMAX. -/
def State.ownRack (s : State) : List Nat :=
  [s.get Reg.FEN_GRP_UP, s.get Reg.FEN_GRP_DN, s.get Reg.FEN_GRP_PMIN, s.get Reg.FEN_GRP_PMAX]

/-- The configuration digest (R399). -/
def State.grpDigest (s : State) : List Byte :=
  sha384 ((s.ownRack ++ [s.get Reg.FEN_GRP_CTL_NSHELF, s.get Reg.FEN_GRP_CWIN_CMIN, s.get Reg.FEN_GRP_CWIN_CMAX]).flatMap (le 4))

/-- The static share of a standalone station (R405). -/
def State.staticShare (s : State) : Nat := 65536 / s.nshelf

/-- The REPORTs received within LIFE: rank and payload. -/
def State.liveReports (s : State) : List (Nat × List Byte) :=
  (s.grp.reports.filter fun e => decide (s.time ≤ e.2.1 + s.lifeNs)).map fun e => (e.1, e.2.2)

/-- The latest REPORT of a position within LIFE. -/
def State.reportOf (s : State) (p : Nat) : Option (List Byte) :=
  let t := fun r => match Tab.find s.grp.reports r with
    | some e => if s.time ≤ e.1 + s.lifeNs then some e else none
    | none => none
  match t (2 * p), t (2 * p + 1) with
  | some a, some b => some (if a.1 < b.1 then b.2 else a.2)
  | some a, none => some a.2
  | none, b => b.map (·.2)

/-! ## Who may lead, and in what mode (R397, R404, R405) -/

/-- The position is claimed by another shelf (R67, R377): the station does not join. -/
def State.posBad (s : State) : Bool := (s.det (detN 5 3)).cause

/-- The versions do not fit: the leader's CVER and this station's window, or this station's CVER and the leader's. -/
def State.verBad (s : State) : Bool :=
  let inW := fun v lo hi => decide (lo ≤ v ∧ v ≤ hi)
  s.on Reg.FEN_STAT_LRANKV && !s.on Reg.FEN_STAT_BEACONING &&
    ((match s.grp.heard with
      | some c => !inW c.cver (s.get Reg.FEN_GRP_CWIN_CMIN) (s.get Reg.FEN_GRP_CWIN_CMAX)
      | none => false) ||
     (match Tab.find s.grp.reports (s.get Reg.FEN_STAT_LRANK) with
      | some e => !inW (s.get Reg.FEN_GRP_CVER_CVER) (rd e.2 4 2) (rd e.2 6 2)
      | none => false))

/-- The standalone cause (R404, R405): 4 not joined, 1 version, 2 forced, 3 lapsed, 0 none. -/
def State.saCause (s : State) : Nat :=
  if !s.on Reg.FEN_STAT_JOINED then 4
  else if s.verBad then 1
  else if s.on Reg.FEN_GRP_CTL_FORCESA then 2
  else if s.grp.lapsed then 3
  else 0

/-- The group mode (R405, R415). -/
def State.grpMode (s : State) : Nat :=
  if s.standby then 5
  else if !s.glb.chaseUp then 0
  else if s.on Reg.FEN_STAT_FAR then 4
  else if s.saCause ≠ 0 then 3
  else if s.on Reg.FEN_STAT_BEACONING then 2
  else 1

/-- The station may lead (R397). -/
def State.eligible (s : State) : Bool :=
  s.fenUp && s.token && !s.halted && s.on Reg.FEN_GRP_CTL_LEADOK && !s.on Reg.FEN_STAT_FAR && !s.verBad && !s.posBad &&
    s.on Reg.GLB_SEAT_PAROK

/-- The contract of a beacon that was heard, or sent, within LIFE (R404). -/
def State.liveContract (s : State) : Option Contract := if s.time ≤ s.fen.bEnd + s.lifeNs then s.grp.heard else none

/-- A digest seen within LIFE that differs from the station's own: position and first 8 bytes (R404); of a contract's digest the manual
gives 4 bytes, and the rest are 0 (log entry 43). -/
def State.mismatch (s : State) : Option (Nat × List Byte) :=
  let rs := s.liveReports
  if rs.isEmpty && s.liveContract.isNone then none
  else
    let own := s.grpDigest
    match rs.find? fun e => (e.2.drop 8).take 16 != own.take 16 with
    | some e => some (e.1 / 2, (e.2.drop 8).take 8)
    | none =>
      match s.liveContract with
      | some c => if c.digest = rd own 0 4 then none else some (s.get Reg.FEN_STAT_LRANK / 2, le 4 c.digest ++ zeros 4)
      | none => none

/-- Whether digests agree is judged: conservative from the first that differs until all have agreed for LIFE (R404). -/
def State.digestJudge (s : State) : State :=
  match s.mismatch with
  | some (p, g) =>
    let was := s.on Reg.FEN_GRP_STAT_CONSV
    let s := (s.grpMod fun x => { x with differs := some s.time }).set Reg.FEN_GRP_STAT_CONSV 1
    if was then s else (s.evt 6 0x0712 (le 1 p ++ zeros 3 ++ g)).levelOn (detN 19 1) 0 p
  | none =>
    match s.grp.differs with
    | some t => if s.time < t + s.lifeNs then s
      else ((s.grpMod fun x => { x with differs := none }).set Reg.FEN_GRP_STAT_CONSV 0).levelOff (detN 19 1)
    | none => s

/-- Rack values of the station in a contract: those of the contract, or the conservative ones of all values seen (R404). -/
def State.rackOf (s : State) (c : Contract) : List Nat :=
  if s.on Reg.FEN_GRP_STAT_CONSV then
    let all := [s.ownRack, c.vals] ++ s.liveReports.map fun e => (List.range 4).map fun i => rd e.2 (24 + 4 * i) 4
    let col := fun i => all.map fun l => (l[i]?).getD 0
    let least := fun i => (col i).foldl min ((c.vals[i]?).getD 0)
    [least 0, least 1, (col 2).foldl max 0, least 3]
  else c.vals

/-- A LEAVE frame waits to be sent (R401). -/
def State.queueLeave (s : State) (reason : Nat) : State :=
  s.queueFrame 0x11 3 (le 1 (s.rank / 2) ++ le 1 (s.rank % 2) ++ le 1 reason ++ le 1 0 ++ le 4 (s.get Reg.FEN_GRP_CNUM))

/-- A station that sends beacons and may not stops (R398). -/
def State.stopLead (s : State) : State :=
  if s.on Reg.FEN_STAT_BEACONING && !s.eligible then
    (s.set Reg.FEN_STAT_BEACONING 0).fenMod fun f => { f with bWait := none }
  else s

/-- The ready bit FENNAL: joined and aligned (R61, R381). -/
def State.fenReady (s : State) : State :=
  s.setReady Reg.GLB_BOOTSTAT_FENNAL (b2n (s.on Reg.FEN_STAT_JOINED && s.on Reg.FEN_STAT_ALIGNED))

/-- The rack values in force and the share that comes into force, by the mode (R404, R405). A suspended station keeps its
contract until it lapses: FAR stands before the version and FORCESA in the table of R404. -/
def State.shareJudge (s : State) : State :=
  let sa := decide (s.saCause ≠ 0) && !(s.on Reg.FEN_STAT_FAR && decide (s.saCause < 3))
  let s := if sa then s.grpMod fun g => { g with inForce := none } else s
  match s.grp.inForce with
  | some c => s.grpMod fun g => { g with rack := some (s.rackOf c) }
  | none => (s.grpMod fun g => { g with rack := none }).galMod fun g => { g with share := s.staticShare }

/-- The station's place in the group is judged anew (R404, R405): GROUP_MODE at a change of mode, LEAVE on entering a
standalone cause of its own, detector 19.4 while it is standalone. -/
def State.groupJudge (s : State) : State :=
  let s := s.stopLead.digestJudge
  let old := s.get Reg.FEN_GRP_STAT_MODE
  let oldC := s.get Reg.FEN_GRP_STAT_SACAUSE
  let cause := s.saCause
  let mode := s.grpMode
  let s := ((s.set Reg.FEN_GRP_STAT_MODE mode).set Reg.FEN_GRP_STAT_SACAUSE cause).shareJudge
  let s := if cause ≠ oldC ∧ s.token ∧ s.fenUp ∧ (cause = 1 ∨ cause = 2) then s.queueLeave (if cause = 1 then 3 else 4) else s
  let s := s.level (detN 19 4) 0 0 (decide (mode = 3))
  let s := if old = mode then s
    else s.evt 6 0x0711 (le 1 old ++ le 1 mode ++ le 1 cause ++ le 1 0 ++ le 4 (s.get Reg.FEN_GRP_CNUM) ++ zeros 4)
  s.fenReady

/-! ## The contract in force (R399, R403) -/

/-- The contract that waits to be placed in force: joined, not suspended or standalone, EFF reached, and not yet placed.
A station takes its first contract only once it has a share in it (log entry 24). -/
def State.contractDue (s : State) : Option Contract :=
  match s.grp.heard with
  | none => none
  | some c =>
    let mine := (c.share[s.rank / 2]?).getD 0
    if s.saCause = 0 && !s.on Reg.FEN_STAT_FAR && !newer32 c.eff ((s.groupTime / 10000000).toNat % 2 ^ 32) &&
        s.grp.inForce != some c && (s.grp.inForce.isSome || mine != 0) then some c
    else none

/-- CONTRACT_EFFECTIVE (R403): at the first press-cycle boundary after EFF the station takes its share and the rack
values. The share applies from a press-cycle boundary on (R246): of a command that comes between two, from the next. -/
def State.contractEffective (s : State) : State :=
  match s.contractDue with
  | none => s
  | some c =>
    let mine := (c.share[s.rank / 2]?).getD 0
    let new := s.grp.inForce.map (·.cnum) != some c.cnum
    let old := s.sigma
    let s := s.grpMod fun g => { g with inForce := some c }
    let s := s.galMod fun g => { g with share := mine }
    let s := if s.time % 20000 = 0 then s.set Reg.PRS_GAL_SHARE_SIGMA mine else s
    let s := (s.set Reg.FEN_GRP_CNUM c.cnum).groupJudge.envelope
    if new then
      let s := s.logC (.fennal (s.get Reg.FEN_STAT_LRANK)) 3 0 0 6 c.cnum old mine
      s.evt 6 0x0710 (le 4 c.cnum ++ le 4 mine ++ le 1 (s.get Reg.FEN_STAT_LRANK) ++ le 1 (s.get Reg.FEN_GRP_STAT_CONSV) ++ zeros 2)
    else s

/-- CONTRACT_EFFECTIVE (R403). -/
def execContractEffective (s : State) : Out State := .next s.contractEffective

/-- CONTRACT_LAPSE (R403, R405): the contract in force has not been renewed for LIFE; the station runs standalone. -/
def execContractLapse (s : State) : Out State :=
  .next (if s.grp.inForce.isSome && !s.on Reg.FEN_STAT_BEACONING then
    ((s.grpMod fun g => { g with lapsed := true }).groupJudge).envelope else s)

/-! ## Reports (R400, R409) -/

/-- The available output in W (R396, R400): 6,400 W less for each grid phase missing from the design count of 48 (R576). -/
def State.available (s : State) : Nat :=
  330000 * s.chs.rmp.f / 65536 - 6400 * (48 - s.healthy 0)

/-- The sustainable output in W (R400). -/
def State.sustainable (s : State) : Nat :=
  s.get Reg.CHS_PGRID + (List.range 4).foldl (fun a st => a + s.limD st) 0 * s.get Reg.CHS_VBUS / 1000000

/-- A string discharges at or below SOCLO (R409). -/
def State.socLow (s : State) : Bool :=
  (List.range 4).any fun st =>
    decide (s.get (Reg.BUP_EST_SOC_REP st) ≤ s.get Reg.FEN_PACE_CTL_SOCLO) && s.get Reg.FEN_PACE_CTL_SOCLO != 0 &&
      (match (s.chs.igrp[st + 1]?).join with
        | some i => decide (0 < i)
        | none => false)

/-- The station's own pace request (R409): formed from measurement and imprints only. -/
def State.paceRequest (s : State) : Nat :=
  let level := s.socLow && (match s.chs.rmp.upAt with
    | some t => decide (t + 100000000 ≤ s.time)
    | none => false)
  if level then 2
  else if s.gal.imprintSt.length = 3 ∧ s.gal.imprintSt.all (· == 2) then 1
  else 0

/-- The payload of the station's REPORT (R400). -/
def State.reportBytes (s : State) : List Byte :=
  le 1 (s.rank / 2) ++ le 1 (s.rank % 2) ++ le 2 (s.get Reg.FEN_GRP_CVER_CVER) ++ le 2 (s.get Reg.FEN_GRP_CWIN_CMIN) ++
    le 2 (s.get Reg.FEN_GRP_CWIN_CMAX) ++ s.grpDigest.take 16 ++ s.ownRack.flatMap (le 4) ++ le 4 s.available ++
    le 4 (s.get Reg.CHS_PGRID) ++ le 4 s.sustainable ++ le 1 s.paceRequest ++
    le 1 (b2n (decide (s.saCause ≠ 0)) + 2 * b2n (decide (s.chs.rmp.f < 65536)) + 4 * b2n (!s.glb.meterOk)) ++ zeros 2 ++
    le 4 (s.get Reg.FEN_GRP_CNUM) ++ zeros 4

/-- REPORT_DUE (R400): an active seat that has joined and is not suspended or halted sends its REPORT, and keeps it. -/
def execReportDue (s : State) : Out State :=
  .next (
    let s := s.set Reg.FEN_PACE_STAT_REQ s.paceRequest
    if s.fenUp && s.token && !s.halted && s.on Reg.FEN_STAT_JOINED && !s.on Reg.FEN_STAT_FAR then
      let p := s.reportBytes
      (s.grpMod fun g =>
        { g with reports := Tab.put g.reports s.rank (s.time, p), frames := Tab.put g.frames (s.rank / 2) s.time }).queueFrame
          0x10 2 p
    else s)

/-- Any frame of a position counts as heard from it (R402). -/
def State.frameFrom (s : State) (src : Nat) : State :=
  s.grpMod fun g => { g with frames := Tab.put g.frames (src / 2) s.time }

/-- A REPORT of a station (R400 to R404). -/
def State.takeReport (s : State) (src : Nat) (p : List Byte) : State :=
  (s.grpMod fun g => { g with reports := Tab.put g.reports src (s.time, p), leaves := Tab.del g.leaves (src / 2)
                              draws := Tab.put g.draws (src / 2) (rd p 44 4) }).groupJudge

/-- A LEAVE of a station (R401). -/
def State.takeLeave (s : State) (src : Nat) (p : List Byte) : State :=
  s.grpMod fun g =>
    { g with leaves := Tab.put g.leaves (src / 2) (rd p 2 1, src)
             reports := if rd p 2 1 = 2 then (Tab.del (Tab.del g.reports (src / 2 * 2)) (src / 2 * 2 + 1))
               else Tab.del g.reports src }

/-! ## Classes and shares (R402, R406) -/

/-- The class of a position: 0 party, 1 standalone, 2 out (R402). -/
def State.posClass (s : State) (p : Nat) : Nat :=
  let rep := s.reportOf p
  let left := match Tab.find s.grp.leaves p with
    | some (2, _) => true
    | some (k, _) => (k == 1 || k == 5) && rep.isNone
    | none => false
  if left then 2
  else
    match rep with
    | some b => if bit (rd b 53 1) 0 then 1 else 0
    | none => if s.time ≤ (Tab.find s.grp.frames p).getD s.grp.since + 10000000000 then 1 else 2

/-- A remainder goes one at a time to the parties of lowest position. -/
def spread (rest : Nat) : List (Bool × Nat) → List Nat
  | [] => []
  | (party, v) :: t =>
    if party && decide (rest ≠ 0) then (v + 1) :: spread (rest - 1) t else v :: spread rest t

/-- The shares of the positions by the classes `cs` (R402). Where no party reports any output the manual gives no share,
and it is open (log entry 8). -/
def State.shares (s : State) (cs : List Nat) : List Nat × State :=
  let pool := 65536 - (cs.countP (· == 1)) * s.staticShare
  let av := cs.zipIdx.map fun (c, p) => if c = 0 then (match s.reportOf p with
    | some b => rd b 40 4
    | none => 0) else 0
  let sum := av.foldl (· + ·) 0
  if sum = 0 then
    let (v, s) := s.draw
    (cs.map fun c => if c = 0 then v % 65537 else 0, s)
  else
    let fl := cs.zip (av.map fun a => pool * a / sum)
    (spread (pool - (fl.map (·.2)).foldl (· + ·) 0) (fl.map fun (c, v) => (c == 0, v)), s)

/-- The classes as FEN_GRP_STAT shows them. -/
def State.putClasses (s : State) (cs : List Nat) : State :=
  let mask := fun k => cs.zipIdx.foldl (fun a (e : Nat × Nat) => a + b2n (e.1 == k) * 2 ^ e.2) 0
  (s.set Reg.FEN_GRP_STAT_PARTIES (mask 0)).set Reg.FEN_GRP_STAT_OUT (mask 2)

/-- A position that was heard has become Out: SHELF_LEFT and its record, from the leader (R406). -/
def State.shelfLeft (s : State) (p : Nat) : State :=
  let reason := match Tab.find s.grp.leaves p with
    | some (k, _) => k
    | none => 0
  let last := Tab.get s.grp.draws p 0
  let s := s.evt 6 0x0714 (le 1 p ++ le 1 reason ++ zeros 2 ++ le 4 last ++ le 4 (s.get Reg.FEN_GRP_CNUM))
  s.slug 0x20 reason p last (s.get Reg.FEN_GRP_CNUM) 0

/-- CONTRACT_RENEWAL (R402): at a renewal the leader classes the positions and renews the contract; when the content
changes CNUM rises and EFF is 2 beacons on. `n` is the beacon number; `fresh` marks the first contract of a new leader. -/
def State.renew (s : State) (n : Nat) (fresh : Bool) : State :=
  let was := s.get Reg.FEN_GRP_STAT_OUT
  let cs := (List.range 8).map s.posClass
  let s := s.putClasses cs
  let s := cs.zipIdx.foldl (fun s (e : Nat × Nat) =>
    if e.1 = 2 ∧ !bit was e.2 ∧ (Tab.find s.grp.frames e.2).isSome then s.shelfLeft e.2 else s) s
  let (sh, s) := s.shares cs
  let own := s.grpDigest
  let c : Contract := { cnum := 0, eff := 0, vals := s.ownRack, share := sh, digest := rd own 0 4,
                        cver := s.get Reg.FEN_GRP_CVER_CVER, flags := s.get Reg.FEN_GRP_STAT_CONSV }
  let same := match s.grp.heard with
    | some h => !fresh && h.vals == c.vals && h.share == c.share && h.digest == c.digest && h.cver == c.cver
    | none => false
  if same then s.grpMod fun g => { g with heard := g.heard.map fun h => { h with flags := c.flags } }
  else
    let k := (s.grp.cnumMax + 1) % 2 ^ 32
    s.grpMod fun g => { g with heard := some { c with cnum := k, eff := (n + 2) % 2 ^ 32 }, cnumMax := k }

/-- The contract fields of a beacon, 56 bytes (R399). -/
def Contract.bytes (c : Contract) : List Byte :=
  le 4 c.cnum ++ le 4 c.eff ++ c.vals.flatMap (le 4) ++ c.share.flatMap (le 3) ++ le 4 c.digest ++ le 2 c.cver ++
    le 1 c.flags ++ le 1 0

/-- The contract that a beacon carries. -/
def contractOf (p : List Byte) : Contract :=
  { cnum := rd p 84 4, eff := rd p 88 4, vals := (List.range 4).map fun i => rd p (92 + 4 * i) 4
    share := (List.range 8).map fun i => rd p (108 + 3 * i) 3, digest := rd p 132 4, cver := rd p 136 2, flags := rd p 138 1 }

/-! ## Pace notices (R410, R411) -/

/-- FEN_PACE_STAT.UNACK: a posted notice awaits PACE_ACK. -/
def State.unack (s : State) : State :=
  s.setB Reg.FEN_PACE_STAT_UNACK (s.grp.notices.any fun n => !n.acked && !n.lost && !n.entries.isEmpty)

/-- A notice is undeliverable (R411): counted and recorded, once. -/
def State.paceLost (s : State) (num cause : Nat) : State :=
  match s.grp.notices.find? fun n => n.num == num with
  | none => s
  | some n =>
    if n.lost || n.acked then s
    else
      let s := s.grpMod fun g => { g with notices := g.notices.map fun m => if m.num = num then { m with lost := true } else m }
      ((s.bump Reg.FEN_PACEUND).slug 0x21 cause num n.action 0 0).unack

/-- A PACE notice is posted on every enabled PACE ring of a party (R411). The class is served from the first imprint on (R68).
DESIGN CHOICE (unsafe): until then the notice is undeliverable under cause 3, as if no PACE ring were enabled (log entry 97). -/
def State.takePace (s : State) (p : List Byte) : State :=
  let num := rd p 0 4
  let act := rd p 4 1
  let s := (s.grpMod fun g => { g with noticeMax := num }).set Reg.FEN_PACE_STAT_ACT (if act = 3 then 0 else act)
  if s.grpMode ≠ 1 ∧ s.grpMode ≠ 2 then s
  else
    let now := s.groupTime
    let ms := toS 32 ((rd p 12 4 + 2 ^ 32 - ((now / 1000000) % (2 ^ 32 : Nat)).toNat) % 2 ^ 32)
    let stop := ((now / 1000000 + ms) * 1000000 - s.gofs s.time).toNat
    let rings := if s.served 5 then s.ringsOf 5 else []
    let got := rings.filter fun r => s.dmaOn && s.ringFree r
    let ent := got.map fun r => (r, s.get (Reg.HST_RPTR_TAIL r))
    let s := rings.foldl (fun s r =>
      s.postEntry r 0x0720 6 false (fun _ => le 4 num ++ le 1 act ++ le 1 0 ++ le 2 (rd p 6 2) ++ le 4 (rd p 8 4)) []
        (some stop)) s
    let n : Notice := { num := num, action := act, time := s.time, entries := ent }
    let keep := s.grp.notices.filter fun m => decide (s.time < m.time + 1000000000) && m.num != num
    let s := (s.grpMod fun g => { g with notices := keep ++ [n] }).unack
    if rings.isEmpty then s.paceLost num 3
    else if got.length < rings.length then s.paceLost num 1
    else s

/-- PACE_DUE (R410): the leader sets the rack action to the greatest request, and sends a PACE frame while it holds, or
the release after 1 s of none. -/
def execPaceDue (s : State) : Out State :=
  .next (
    if !(s.fenUp && s.on Reg.FEN_STAT_BEACONING && !s.halted) then s
    else
      let act := s.liveReports.foldl (fun a e => max a (rd e.2 52 1)) 0
      let s := s.grpMod fun g =>
        if act ≠ 0 then { g with zeroAt := none, owed := true }
        else if g.owed && g.zeroAt.isNone then { g with zeroAt := some s.time } else g
      let rel := match s.grp.zeroAt with
        | some t => s.grp.owed && decide (t + 1000000000 ≤ s.time)
        | none => false
      if act = 0 ∧ !rel then s.set Reg.FEN_PACE_STAT_ACT 0
      else
        let s := if rel then s.grpMod fun g => { g with owed := false, zeroAt := none } else s
        let parties := (List.range 8).filter fun p => bit (s.get Reg.FEN_GRP_STAT_PARTIES) p
        let sum := parties.foldl (fun a p => a + (match s.reportOf p with
          | some b => rd b 48 4
          | none => 0)) 0
        let p := le 4 (s.grp.noticeMax + 1) ++ le 1 (if rel then 3 else act) ++ le 1 0 ++
          le 2 (if act = 2 then satU 16 (sum / 1000) else 0xFFFF) ++ le 4 ((s.rackVals[0]?).getD 0) ++
          le 4 (((s.groupTime / 1000000 + 500) % (2 ^ 32 : Nat)).toNat)
        (s.queueFrame 0x12 3 p).takePace p)

/-- PACE_ACK_TIMEOUT (R411): no PACE_ACK has named the notice within 100 ms. -/
def execPaceAckTimeout (num : Nat) (s : State) : Out State := .next (s.paceLost num 4)

/-- PACE_UNREAD_TIMEOUT (R104, R411): the notice has stayed unread in a ring for 2 ms. -/
def execPaceUnreadTimeout (r num : Nat) (s : State) : Out State :=
  .next (
    let unread := s.grp.notices.any fun n => n.num == num && n.entries.any fun e => e.1 == r &&
      (let len := s.ringLen r
       let h := s.get (Reg.HST_RPTR_HEAD r)
       decide ((e.2 + len - h) % len < (s.get (Reg.HST_RPTR_TAIL r) + len - h) % len))
    if unread then s.paceLost num 2 else s)

/-! ## Commands (R413) -/

/-- GROUP_QUERY (R413). -/
def execGroupQuery (r : Nat) (d : Desc) (s : State) : Out State :=
  .next (s.cmd r 0x0710 d { priv := 0, buf := .writes, lenOk := fun n => 128 ≤ n } fun s =>
    let c := s.grp.inForce
    let sh := match c with
      | some c => c.share
      | none => List.replicate 8 0
    image s 128 (le 4 (s.read 0x6021C 0) ++ le 4 (s.get Reg.FEN_GRP_CNUM) ++
      le 4 (match c with
        | some c => c.eff
        | none => 0) ++ le 4 s.sigma ++ s.regBytes [0x30204, 0x30208, 0x3020C, 0x30210] ++ s.rackVals.flatMap (le 4) ++
      sh.flatMap (le 4) ++ le 4 s.chs.rmp.f ++ le 4 (s.read 0x60228 0) ++ le 4 s.grp.noticeMax ++
      le 4 (s.get Reg.CHS_RMP_OUT)))

/-- PACE_ACK (R413): reason 1 for a number not posted in the last 1 s. The acknowledgement is recorded with its delay. -/
def execPaceAck (r : Nat) (d : Desc) (s : State) : Out State :=
  .next (s.cmd r 0x0711 d { priv := 1, standby := true } fun s =>
    match s.grp.notices.find? fun n => n.num == d.p0 && !n.entries.isEmpty && decide (s.time < n.time + 1000000000) with
    | none => refuse s 1
    | some n =>
      let s := s.grpMod fun g => { g with notices := g.notices.map fun m => if m.num = n.num then { m with acked := true } else m }
      ok (((s.logC (.host r) 2 0 0x0711 6 n.num 0 0).slug 0x22 0 n.num ((s.time - n.time) / 1000) 0 0).unack))

/-! ## Breaches, cooling and derate (R395, R396) -/

/-- BREACH_END (R395): 1 ms has passed without a breach period. -/
def execBreachEnd (s : State) : Out State := .next s.breachEnd

/-- The derate target by the cooling items that have failed (R396). -/
def State.derateTarget (s : State) : Nat :=
  let bad := s.watch.coolBad
  let pumps := b2n (bad.contains 0) + b2n (bad.contains 1)
  if bad.isEmpty then 65536
  else if pumps = 1 ∧ !bad.contains 2 then min 100 (s.get Reg.CHS_COOL_CTL_DER1) * 65536 / 100
  else min 100 (s.get Reg.CHS_COOL_CTL_DER0) * 65536 / 100

/-- The derate factor takes a value; the shelf limits are rescaled (R388, R396), and the fall of the cap is noted (R391). -/
def State.putF (s : State) (f : Nat) : State :=
  let fall := 345000 * s.chs.rmp.f / 65536 - 345000 * f / 65536
  ((s.chsMod fun c => { c with rmp := { c.rmp with f := f, capRate := fall } }).set Reg.CHS_COOL_STAT_F (min f 65535)).envelope

/-- A derate plan starts at a change of target, from the present factor (R396), be it by a failure, a recovery or a new setting. -/
def State.derateStart (s : State) : State :=
  let t := s.derateTarget
  if s.chs.rmp.target = t then s
  else (s.chsMod fun c => { c with rmp := { c.rmp with target := t, f0 := c.rmp.f, start := some s.time } }).set
    Reg.CHS_COOL_STAT_PLAN 1

/-- The threshold of a cooling item in 10 Hz, and its last reading in Hz (R396, R415). -/
def State.coolItem (s : State) (i : Nat) : Nat × Nat :=
  match i with
  | 0 => (s.get Reg.CHS_COOL_CTL_TACHMIN, s.get Reg.CHS_COOL_TACH_LO)
  | 1 => (s.get Reg.CHS_COOL_CTL_TACHMIN, s.get Reg.CHS_COOL_TACH_HI)
  | _ => (s.get Reg.CHS_COOL_CTL_FLOWMIN, s.get Reg.CHS_COOL_FLOW_LO)

/-- The good bits of CHS_COOL_STAT. -/
def State.coolBits (s : State) : State :=
  ((s.setB Reg.CHS_COOL_STAT_P0OK (!s.watch.coolBad.contains 0)).setB Reg.CHS_COOL_STAT_P1OK
    (!s.watch.coolBad.contains 1)).setB Reg.CHS_COOL_STAT_FLOWOK (!s.watch.coolBad.contains 2)

/-- A cooling item fails, or is judged good again (R396). An item whose threshold is 0 is not judged (R412). -/
def State.cooling (s : State) (i : Nat) (failed : Bool) : State :=
  let was := s.watch.coolBad.contains i
  if was == failed ∨ (failed ∧ (s.coolItem i).1 = 0) then s
  else
    let s := { s with watch := { s.watch with
      coolBad := if failed then i :: s.watch.coolBad else s.watch.coolBad.filter (· != i) } }
    let s := s.coolBits.derateStart
    let s := s.level (detN 4 (8 + i)) 0 0 failed
    s.evt 3 0x0511 (le 1 (i + 1) ++ le 1 (b2n failed) ++ zeros 2 ++ le 4 s.chs.rmp.target ++ le 4 s.chs.rmp.f)

/-- COOLING_FAILURE (R396): an input has stayed below its threshold for 1 s, or above it for 10 s. -/
def execCoolingFailure (item : Nat) (failed : Bool) (s : State) : Out State := .next (s.cooling item failed)

/-- DERATE_STEP (R396): every 1 ms of a derate plan. -/
def execDerateStep (s : State) : Out State :=
  .next (match s.chs.rmp.start with
    | none => s
    | some t =>
      let r := s.chs.rmp
      let m := min 30000 ((s.time - t) / 1000000)
      let f := (r.f0 : Int) + divRne (((r.target : Int) - r.f0) * m) 30000
      let s := s.putF f.toNat
      if m = 30000 then (s.chsMod fun c => { c with rmp := { c.rmp with start := none, capRate := 0 } }).set Reg.CHS_COOL_STAT_PLAN 0 else s)

end Sys2Proof.Machine
end

