-- ==== Sys2Proof/Machine/Lists.lean ====
section
/-!
DEFINITION. Chase change lists and the commands of Chase (R320 to R329, R608): checking, imposing step by step, the
conditions of a hold, rollback, and the fall to the plain law and the return from it.
-/
namespace Sys2Proof.Machine

/-! ## Registers of the block (R326, R331) -/

/-- The bits of a row that a host may write and read back. -/
def rwMask (row : RegRow) : Nat :=
  row.fields.foldl (fun a f => if f.acc = .rw then a + (2 ^ f.width - 1) * 2 ^ f.lo else a) 0

/-- The bits of the register at `off` of the CHS block that a change list may write: its RW fields. -/
def chsMask (off : Nat) : Nat :=
  match regRow (0x30000 + off) with
  | some row => if off < 0x10000 then rwMask row else 0
  | none => 0

/-- `old` with the bits of `mask` taken from `v`. -/
def mix (old v mask : Nat) : Nat := (old &&& (0xFFFFFFFF ^^^ mask)) ||| (v &&& mask)

/-- The RW fields of the register at `off` (of BAR0), window entry `idx`, take the bits of `v`. -/
def State.putReg (s : State) (off idx v : Nat) : State :=
  match regRow off with
  | none => s
  | some row => row.fields.foldl (fun s f => if f.acc = .rw then s.set (f.home row off idx) (bits v f.lo f.width) else s) s

/-- The values of a CHS register that lie within its fields' ranges (R322, reason 7). -/
def chsRange (off v : Nat) : Bool :=
  match off with
  | 0x34 => decide (v / 65536 < v % 65536)
  | 0x38 => decide (bits v 0 6 ≤ 39 ∧ bits v 8 6 ≤ 39 ∧ bits v 16 6 ≤ 39)
  | 0x80 => decide (bits v 0 8 ≤ 165)
  | _ => true

/-! ## The law in force (R316 to R318) -/

/-- LAW_CHANGED (R330). -/
def State.lawEvt (s : State) (old new why : Nat) : State :=
  s.evt 3 0x0502 (le 1 old ++ le 1 new ++ le 1 why ++ le 1 0 ++ s.pnum32 ++ zeros 4)

/-- The law changes at a boundary (R317, R318): reason 1 overruns, 2 command, 3 return. Loops not yet closed in the arming
order stay open (R311). -/
def State.lawTo (s : State) (new why : Nat) : State :=
  let old := s.get Reg.CHS_STAT_LAW
  if old = new then s
  else
    let s := ((s.set Reg.CHS_STAT_LAW new).set Reg.CHS_STAT_OVRC 0).lawEvt old new why
    let s := s.chsMod fun c => { c with plainOk := 0, lawDue := none }
    if new = 1 then ((plainOpen.foldl (fun s n => s.loopOpen n) s).plainSheds).limiterHold
    else
      let due := if s.chs.order = 3 ∨ s.chs.order = 0 then plainOpen else if s.chs.order = 2 then [156] else []
      due.foldl (fun s n => s.loopClose n (s.loop n).u) s

/-! ## Records (R321, R324) -/

/-- The place of a record type in its step: OPEN, EXCHANGE, REGWRITE, PERIOD, LAW, CLOSE. -/
def recOrder (t : Nat) : Nat := match t with
  | 1 => 0
  | 3 => 1
  | 4 => 2
  | 5 => 3
  | 6 => 4
  | _ => 5

/-- The loops that a record names. -/
def ChgRec.loops (r : ChgRec) : List Nat := (List.range (r.last + 1 - r.first)).map (r.first + ·)

/-- A record applies; answers what its inverse needs. -/
def State.applyRec (s : State) (r : ChgRec) : Undo × State :=
  match r.type with
  | 1 =>
    let ls := r.loops.filter fun n => !(s.loop n).isOpen
    ({ r := r, loops := ls, old := 0 }, ls.foldl (fun s n => s.loopOpen n) s)
  | 2 =>
    let ls := r.loops.filter fun n => (s.loop n).isOpen
    ({ r := r, loops := ls, old := 0 }, ls.foldl (fun s n => s.loopBack n (s.loop n).u) s)
  | 3 => ({ r := r, loops := r.loops, old := 0 }, r.loops.foldl (fun s n => s.loopMod n fun x => { x with act := 1 - x.act }) s)
  | 4 =>
    let old := s.stored (0x30000 + r.first) 0
    ({ r := r, loops := [], old := old }, s.putReg (0x30000 + r.first) 0 (mix old r.value r.mask))
  | 5 => ({ r := r, loops := [], old := s.get Reg.CHS_PERIOD_CYC }, s.set Reg.CHS_PERIOD_CYC r.value)
  | _ => ({ r := r, loops := [], old := s.get Reg.CHS_STAT_LAW }, s.lawTo r.value 2)

/-- A step applies: its records in the order of their types, the undo entries newest first. -/
def State.applyStep (s : State) (st : List ChgRec) : List Undo × State :=
  (sortBy (fun a b => decide (recOrder a.type ≤ recOrder b.type)) st).foldl
    (fun a r => let (u, t) := a.2.applyRec r; (u :: a.1, t)) ([], s)

/-- The inverse of a record (R324). After a halt no OPEN or CLOSE is inverted (R473). -/
def State.undoRec (s : State) (halted : Bool) (u : Undo) : State :=
  match u.r.type with
  | 1 => if halted then s else u.loops.foldl (fun s n => s.loopBack n (s.loop n).u) s
  | 2 => if halted then s else u.loops.foldl (fun s n => s.loopOpen n) s
  | 3 => u.loops.foldl (fun s n => s.loopMod n fun x => { x with act := 1 - x.act }) s
  | 4 => s.putReg (0x30000 + u.r.first) 0 (mix (s.stored (0x30000 + u.r.first) 0) u.old u.r.mask)
  | 5 => s.set Reg.CHS_PERIOD_CYC u.old
  | _ => s.lawTo u.old 2

/-- A step, or its inverse, holds a PERIOD record: it waits for a 20 us boundary (R295, R323, R324). -/
def stepPeriod (st : List ChgRec) : Bool := st.any fun r => r.type == 5

/-! ## Reading a list (R321, R322 reasons 1 and 2) -/

/-- The bytes of a record that R321 gives as 0 for its type are 0. -/
def recZero (b : List Byte) : Bool :=
  let rsv := rd b 1 1 == 0 && rd b 14 2 == 0
  match rd b 0 1 with
  | 1 | 2 | 3 => rsv && rd b 4 4 == 0 && rd b 8 4 == 0
  | 4 => rsv && rd b 12 2 == 0
  | 5 | 6 => rsv && rd b 2 2 == 0 && rd b 8 4 == 0 && rd b 12 2 == 0
  | _ => rsv

/-- A record from its 16 bytes. -/
def ChgRec.read (b : List Byte) : ChgRec :=
  { type := rd b 0 1, first := rd b 2 2, value := rd b 4 4, mask := rd b 8 4, last := rd b 12 2 }

/-- Reads `n` steps; the left side names the step and record of a failure of reason 1. -/
def readSteps : Nat → Nat → List Byte → Except (Nat × Nat) (List (List ChgRec) × List Byte)
  | 0, _, b => .ok ([], b)
  | n + 1, k, b =>
    let nrec := rd b 0 2
    if b.length < 16 ∨ nrec = 0 ∨ 64 < nrec ∨ ((b.drop 2).take 14).any (fun x => x != 0) ∨ b.length < 16 + 16 * nrec then .error (k, 0)
    else
      let rs := (List.range nrec).map fun j => (b.drop (16 + 16 * j)).take 16
      match rs.findIdx? (fun r => !recZero r) with
      | some j => .error (k, j)
      | none =>
        match readSteps n (k + 1) (b.drop (16 + 16 * nrec)) with
        | .error e => .error e
        | .ok (t, rest) => .ok (rs.map ChgRec.read :: t, rest)

/-- A change list as submitted: CHECK, HOLD, CHKV and the steps. -/
structure ListIn where
  check : Nat
  hold : Nat
  chkv : Nat
  steps : List (List ChgRec)

/-- The bytes of a record (R321). -/
def ChgRec.bytes (r : ChgRec) : List Byte := le 1 r.type ++ le 1 0 ++ le 2 r.first ++ le 4 r.value ++ le 4 r.mask ++ le 2 r.last ++ le 2 0

/-- The bytes of a change list (R321). -/
def ListIn.bytes (l : ListIn) : List Byte :=
  le 1 l.steps.length ++ le 1 l.check ++ le 2 l.hold ++ le 2 l.chkv ++ zeros 10 ++
    l.steps.flatMap fun st => le 2 st.length ++ zeros 14 ++ st.flatMap ChgRec.bytes

/-- Reads a change list; reason 1 names the step and the record. -/
def ListIn.read (b : List Byte) : Except (Nat × Nat × Nat) ListIn :=
  let n := rd b 0 1
  if b.length < 16 ∨ n = 0 ∨ 16 < n ∨ 16 ≤ rd b 1 1 ∨ rd b 2 2 = 0 ∨ ((b.drop 6).take 10).any (fun x => x != 0) then .error (1, 0, 0)
  else
    match readSteps n 0 (b.drop 16) with
    | .error (k, j) => .error (1, k, j)
    | .ok (steps, rest) =>
      if rest.isEmpty then .ok { check := rd b 1 1, hold := rd b 2 2, chkv := rd b 4 2, steps := steps } else .error (1, n - 1, 0)

/-- The first record, by step and place, that `p` fails of. -/
def badRec (steps : List (List ChgRec)) (p : Nat → ChgRec → Bool) : Option (Nat × Nat) :=
  steps.zipIdx.foldl (fun a st =>
    match a with
    | some x => some x
    | none => (st.1.findIdx? fun r => !p st.2 r).map fun j => (st.2, j)) none

/-- Reason 2: the type is defined, the loops exist, and a REGWRITE names RW fields. -/
def recNames (r : ChgRec) : Bool :=
  match r.type with
  | 1 | 2 | 3 => decide (r.last ≤ 165 ∧ r.first ≤ r.last)
  | 4 => chsMask r.first != 0 && r.mask &&& (0xFFFFFFFF ^^^ chsMask r.first) == 0
  | 5 | 6 => true
  | _ => false

/-! ## Checking against the states a list passes through (R322) -/

/-- OPENMAX, 0 acting as 200 (R311). -/
def State.openMax (s : State) : Nat := if s.get Reg.CHS_CFG_OPENMAX = 0 then 200 else s.get Reg.CHS_CFG_OPENMAX

/-- The states that stand before each step: after the lists held already, each with the steps that it has left or, when it is rolling
back, with what is left of its rollback, and after each earlier step of this one. -/
def State.afterLists (s : State) : State :=
  s.chs.lists.foldl (fun s l =>
    if l.back.isSome then l.undo.foldl (fun s us => us.foldl (fun s u => s.undoRec false u) s) s
    else (l.steps.drop l.done).foldl (fun s st => (s.applyStep st).2) s) s

/-- The state after the OPEN records of a step. -/
def State.afterOpens (s : State) (st : List ChgRec) : State :=
  (st.filter fun r => r.type == 1).foldl (fun s r => (s.applyRec r).2) s

/-- The states before each step. -/
def State.before (s : State) : List (List ChgRec) → List State
  | [] => []
  | st :: t => s :: State.before (s.applyStep st).2 t

/-- The failure of reason 4 of an OPEN record at step `k`, place `j`: a loop of it is never closed by a later record, or the
CLOSE comes after more periods of hold than OPENMAX has allowed on the way, `omax m` after step `m`. -/
def openFails (steps : List (List ChgRec)) (hold : Nat) (omax : Nat → Nat) (k j : Nat) (r : ChgRec) : Option (Nat × Nat) :=
  let closer := fun (n : Nat) => (steps.zipIdx.drop k).findSome? fun st =>
    (st.1.findIdx? fun c => c.type == 2 && decide (c.first ≤ n ∧ n ≤ c.last)).map fun i => (st.2, i)
  r.loops.findSome? fun n =>
    match closer n with
    | none => some (k, j)
    | some (m, i) => if (List.range (m - k)).any fun d => decide (omax (k + d) < (d + 1) * hold) then some (m, i) else none

/-- Reason 4 over a list. -/
def openCheck (steps : List (List ChgRec)) (hold : Nat) (omax : Nat → Nat) : Option (Nat × Nat) :=
  steps.zipIdx.findSome? fun st => st.1.zipIdx.findSome? fun r =>
    if r.1.type = 1 then openFails steps hold omax st.2 r.2 r.1 else none

/-- The reason, step and record of the first check of R322 that a list fails (reasons 2 to 7). -/
def State.listBad (s : State) (l : ListIn) : Option (Nat × Nat × Nat) :=
  let tag := fun (n : Nat) (x : Nat × Nat) => (n, x.1, x.2)
  match badRec l.steps fun _ r => recNames r with
  | some x => some (tag 2 x)
  | none =>
    let bs := s.afterLists.before l.steps
    let at_ := fun (k : Nat) => (bs[k]?).getD s
    let opens := fun (k : Nat) => (at_ k).afterOpens ((l.steps[k]?).getD [])
    let r3 := badRec l.steps fun k r => r.type != 3 || r.loops.all fun n => ((opens k).loop n).isOpen
    let r5 := fun (k : Nat) (r : ChgRec) =>
      let t := ((at_ k).applyStep ((l.steps[k]?).getD [])).2
      r.type != 3 || r.loops.all fun n =>
        let p := (t.bank n (t.loop n).act).per
        p == 0 || [500, 1000, 2000][p - 1]? == some (t.get Reg.CHS_PERIOD_CYC)
    let r6 := fun (k : Nat) (r : ChgRec) => r.type != 5 || (List.range 156).all fun n => ((opens k).loop n).isOpen
    let r7 := fun (k : Nat) (r : ChgRec) =>
      match r.type with
      | 4 => chsRange r.first (((at_ k).applyStep ((l.steps[k]?).getD [])).2.stored (0x30000 + r.first) 0)
      | 5 => r.value == 500 || r.value == 1000 || r.value == 2000
      | 6 => decide (r.value ≤ 1)
      | _ => true
    match r3, openCheck l.steps l.hold (fun m => (at_ (m + 1)).openMax), badRec l.steps r5, badRec l.steps r6, badRec l.steps r7 with
    | some x, _, _, _, _ => some (tag 3 x)
    | none, some x, _, _, _ => some (tag 4 x)
    | none, none, some x, _, _ => some (tag 5 x)
    | none, none, none, some x, _ => some (tag 6 x)
    | none, none, none, none, some x => some (tag 7 x)
    | _, _, _, _, _ => none

/-! ## Acceptance (R320, R325) -/

/-- A list is accepted: it takes a change number, is logged, travels to a standby, and waits in the queue. -/
def State.listStage (s : State) (r opcode target old new : Nat) (digest : Bool) (l : ListIn) : Nat × State :=
  let (n, s) := s.newChange
  let c : Staged := { no := n, block := 3, opcode := opcode, target := target, old := old, new := new, ring := r,
                      due := s.leadPeriod, act := .own, digest := digest }
  let s := s.logC (changeOrigin r 3) 2 n opcode 3 target old new digest
  let s := s.chsMod fun x => { x with lists := x.lists ++ [{ st := c, check := l.check, hold := l.hold, chkv := l.chkv, steps := l.steps }] }
  (n, s.changeSend c l.bytes)

/-- RESULT of a refused list (R322). -/
def listResult (x : Nat × Nat × Nat) : Nat := x.1 + 256 * x.2.1 + 65536 * x.2.2

/-- A list submitted by a command: BUSY with 16 lists held, REFUSED with its reason, or STAGED. -/
def State.submit (s : State) (r opcode target old new : Nat) (digest : Bool) (l : ListIn) : Reply :=
  if 16 ≤ s.chs.lists.length then bad s 0x16
  else
    match s.listBad l with
    | some x => refuse s (listResult x)
    | none =>
      let (n, s) := s.listStage r opcode target old new digest l
      Sys2Proof.Machine.staged s n

/-- CHANGE_SUBMIT (R322, R329). -/
def execChangeSubmit (r : Nat) (d : Desc) (s : State) : Out State :=
  .next (s.cmd r 0x0501 d { priv := 2, standby := true, buf := .reads } fun s =>
    match ListIn.read (bufBytes d) with
    | .error x => if 16 ≤ s.chs.lists.length then bad s 0x16 else refuse s (listResult x)
    | .ok l =>
      let a := s.submit r 0x0501 0 0 (digest8 (bufBytes d)) true l
      { a with done := if a.status = some 2 then d.len else 0 })

/-- The list of R327. -/
def periodList (cyc : Nat) : ListIn :=
  let z : ChgRec := { type := 1, first := 0, value := 0, mask := 0, last := 0 }
  { check := 7, hold := 1, chkv := 100
    steps := [ [{ z with first := 156, last := 165 }]
             , [{ z with last := 155 }, { z with type := 3, last := 155 }, { z with type := 5, value := cyc }]
             , [{ z with type := 2, last := 155 }]
             , [{ z with type := 3, first := 156, last := 165 }, { z with type := 2, first := 156, last := 165 }] ] }

/-- PERIOD_SET (R327, R329). -/
def execPeriodSet (r : Nat) (d : Desc) (s : State) : Out State :=
  .next (s.cmd r 0x0504 d
      { priv := 2, standby := true, parOk := d.p0 == 500 || d.p0 == 1000 || d.p0 == 2000 } fun s =>
    s.submit r 0x0504 0 (s.get Reg.CHS_PERIOD_CYC) d.p0 false (periodList d.p0))

/-- LAW_SET (R329): the full law is refused when the lanes in service do not fit it. -/
def execLawSet (r : Nat) (d : Desc) (s : State) : Out State :=
  .next (s.cmd r 0x0505 d { priv := 2, standby := true, parOk := decide (d.p0 ≤ 1) } fun s =>
    if 16 ≤ s.chs.lists.length then bad s 0x16
    else if d.p0 = 0 ∧ s.lawWindow < lawBound false s.lanes then refuse s 7
    else s.submit r 0x0505 0 (s.get Reg.CHS_STAT_LAW) d.p0 false
      { check := 0, hold := 1, chkv := 0, steps := [[{ type := 6, first := 0, value := d.p0, mask := 0, last := 0 }]] })

/-- A dropped register write is latched in CHS_WREF (R326, R331). -/
def State.wref (s : State) (off why : Nat) : State :=
  ((s.set Reg.CHS_WREF_REASON why).set Reg.CHS_WREF_OFFSET off).set Reg.CHS_WREF_VALID 1

/-- A host write to the RW fields of a CHS register (R326): a one-step list, or dropped. CHS_LSEL takes effect at once. -/
def State.chsWrite (s : State) (off v : Nat) : State :=
  let m := chsMask off
  if m = 0 then s
  else if off = 0x80 then s.putReg 0x30080 0 v
  else
    let l : ListIn := { check := 0, hold := 1, chkv := 0,
                        steps := [[{ type := 4, first := off, value := v &&& m, mask := m, last := 0 }]] }
    if 16 ≤ s.chs.lists.length then s.wref off 0x10
    else
      match s.listBad l with
      | some x => s.wref off x.1
      | none => (s.listStage 0xFFFF 0 off (s.stored (0x30000 + off) 0) (v &&& m) false l).2

/-- CHS_REGISTER_WRITE (R326). -/
def execChsRegisterWrite (off v : Nat) (s : State) : Out State := .next (s.hostWrite fun s => s.chsWrite off v)

/-! ## Imposition, hold and rollback (R320, R323 to R325) -/

/-- Changes the first list. -/
def State.listMod (s : State) (f : ChgList → ChgList) : State :=
  s.chsMod fun c => { c with lists := match c.lists with
    | l :: t => f l :: t
    | [] => [] }

/-- The first list leaves, with its outcome (R608). A rollback that completes raises 13.7. -/
def State.listDone (s : State) (outcome failure : Nat) : State :=
  match s.chs.lists with
  | [] => s
  | l :: t =>
    let s := s.chsMod fun c => { c with lists := t }
    let s := ((s.set Reg.CHS_STAT_CHG 0).set Reg.CHS_STAT_RBK 0).changeDone l.st outcome l.done failure
    if outcome = 0 ∨ l.done = 0 then s else s.raise (detN 13 7) 0 l.st.no

/-- The first list is to be rolled back from this boundary on (R324). -/
def State.listBack (s : State) (outcome failure : Nat) : State :=
  match s.chs.lists with
  | l :: _ =>
    if l.done ≠ 0 ∧ l.back.isNone then (s.set Reg.CHS_STAT_RBK 1).listMod fun l => { l with back := some (outcome, failure) } else s
  | [] => s

/-- Loops of a list. -/
def ChgList.loops (l : ChgList) : List Nat := l.steps.flatMap fun st => st.flatMap fun r => if r.type ≤ 3 then r.loops else []

/-- The failure of the CHECK of a list in the period just ended, lowest bit first; none while every condition held (R323). -/
def State.listFails (s : State) (l : ChgList) : Option Nat :=
  if bit l.check 0 && l.loops.any (fun n => (s.loop n).fe) then some 0
  else if bit l.check 1 && (match s.chs.v0, s.chs.setMv with
      | some v, some m => decide (l.chkv * 100 < ((v : Int) - (m : Int)).natAbs)
      | _, _ => false) then some 1
  else if bit l.check 2 && s.chs.overran then some 2
  else if bit l.check 3 && l.loops.any (fun n => (s.loop n).sat) then some 3
  else none

/-- The next step of the first list is imposed, at a 20 us boundary when it holds PERIOD. -/
def State.listStep (s : State) : State :=
  match s.chs.lists with
  | [] => s
  | l :: _ =>
    match l.steps[l.done]? with
    | none => s.listDone 0 0xFF
    | some st =>
      if stepPeriod st && s.time % 20000 != 0 then s
      else
        let (u, s) := s.applyStep st
        (s.set Reg.CHS_STAT_CHG 1).listMod fun l => { l with done := l.done + 1, held := 0, undo := u :: l.undo }

/-- One step of a rollback. -/
def State.listUndo (s : State) (l : ChgList) (outcome failure : Nat) : State :=
  match l.undo with
  | [] => s.listDone outcome failure
  | us :: t =>
    if (us.any fun u => u.r.type == 5) && s.time % 20000 != 0 then s
    else
      let s := us.foldl (fun s u => s.undoRec (s.halted || failure == 0x12) u) s
      let s := s.listMod fun l => { l with undo := t }
      if t.isEmpty then s.listDone outcome failure else s

/-- The period that has ended counts towards the hold of the first list: a period with V_bus invalid does not when CHECK
holds bit 1. -/
def State.listHold (s : State) : State :=
  s.listMod fun l => if bit l.check 1 && s.chs.v0.isNone then l else { l with held := l.held + 1 }

/-- Change lists at a period boundary. `burstEnded` restarts a hold (R323). A list not begun is held while the management cluster restarts
(R59). -/
def State.listTick (s : State) (burstEnded : Bool) : State :=
  match s.chs.lists with
  | [] => s
  | l :: _ =>
    match l.back with
    | some (o, f) => s.listUndo l o f
    | none =>
      if l.done = 0 then (if l.st.due ≤ s.get Reg.CHS_PNUM && !s.halted && !s.glb.mgmtDown then s.listStep else s)
      else
        let s := s.listHold
        let s := if burstEnded then s.listMod fun l => { l with restarted := l.restarted + l.held, held := 0 } else s
        match s.chs.lists with
        | [] => s
        | l :: _ =>
          let fail := if s.get Reg.CHS_IMP_DEFER < l.restarted then some 0x10 else s.listFails l
          match fail with
          | some f =>
            let s := s.listBack 1 f
            s.listUndo l 1 f
          | none => if l.hold ≤ l.held ∧ !s.on Reg.STL_STAT_BURST then s.listStep else s

/-- Every list not begun is discarded, with its failure (R325). -/
def State.listDiscard (s : State) (failure : Nat) : State :=
  let (go, keep) := s.chs.lists.partition fun l => l.done == 0
  let s := s.chsMod fun c => { c with lists := keep }
  go.foldl (fun s l => s.changeDone l.st 2 0 failure) s

/-- CHANGE_ABORT (R329). -/
def execChangeAbort (r : Nat) (d : Desc) (s : State) : Out State :=
  .next (s.cmd r 0x0506 d { priv := 2, standby := true } fun s =>
    match s.chs.lists.find? fun l => l.st.no == d.p0 with
    | none => refuse s 1
    | some l =>
      let s := s.logC (.host r) 2 0 0x0506 3 d.p0 0 0
      if l.done = 0 then
        ok ((s.chsMod fun c => { c with lists := c.lists.filter fun x => x.st.no != d.p0 }).changeDone l.st 2 0 0xFF)
      else ok (s.listBack 2 0xFF))

/-! ## Banks and queries (R307, R329) -/

/-- The hard range of a loop's output (R304). -/
def hardRange (n : Nat) : Int × Int :=
  if n < 156 then (0, 62259) else if n = 156 then (0, 40000) else if n < 161 then (-16000, 16000)
  else if n = 161 then (-400000, 400000) else (-50000, 50000)

/-- A 32-byte bank record lies within its ranges. -/
def bankOk (b : List Byte) : Bool :=
  let n := rd b 0 2
  let lo := toS 32 (rd b 12 4)
  let hi := toS 32 (rd b 16 4)
  decide (n ≤ 165 ∧ rd b 2 1 ≤ 1 ∧ rd b 3 1 ≤ 3 ∧ rd b 30 2 = 0 ∧ lo ≤ hi ∧ (hardRange n).1 ≤ lo ∧ hi ≤ (hardRange n).2)

/-- The bank record of loop `n`, bank `k`. -/
def State.bankBytes (s : State) (n k : Nat) : List Byte :=
  let i := bankIdx n k
  le 2 n ++ le 1 k ++ le 1 (s.get (Reg.CHS_LFET_PER i)) ++ le 4 (s.get (Reg.CHS_LKP i)) ++ le 4 (s.get (Reg.CHS_LKI i)) ++
    le 4 (s.get (Reg.CHS_LULO i)) ++ le 4 (s.get (Reg.CHS_LUHI i)) ++ le 4 (s.get (Reg.CHS_LSLEW i)) ++
    le 4 (s.get (Reg.CHS_LFEL i)) ++ le 2 (s.get (Reg.CHS_LFET_FET i)) ++ zeros 2

/-- A bank takes the values of a record. -/
def State.bankPut (s : State) (b : List Byte) : State :=
  let i := bankIdx (rd b 0 2) (rd b 2 1)
  let s := ((s.set (Reg.CHS_LFET_PER i) (rd b 3 1)).set (Reg.CHS_LKP i) (rd b 4 4)).set (Reg.CHS_LKI i) (rd b 8 4)
  let s := ((s.set (Reg.CHS_LULO i) (rd b 12 4)).set (Reg.CHS_LUHI i) (rd b 16 4)).set (Reg.CHS_LSLEW i) (rd b 20 4)
  (s.set (Reg.CHS_LFEL i) (rd b 24 4)).set (Reg.CHS_LFET_FET i) (rd b 28 2)

/-- The first record that BANK_WRITE refuses, with its reason. -/
def State.bankBad (s : State) (rs : List (List Byte)) : Option (Nat × Nat) :=
  rs.zipIdx.findSome? fun r =>
    if !bankOk r.1 then some (2, r.2)
    else if (s.loop (rd r.1 0 2)).act = rd r.1 2 1 then some (1, r.2)
    else none

/-- BANK_WRITE (R307, R329): a refused buffer writes nothing. -/
def execBankWrite (r : Nat) (d : Desc) (s : State) : Out State :=
  .next (s.cmd r 0x0502 d
      { priv := 2, standby := true, buf := .reads, lenOk := fun n => decide (n % 32 = 0 ∧ n ≤ 10624) } fun s =>
    let b := bufBytes d
    let rs := (List.range (d.len / 32)).map fun k => (b.drop (32 * k)).take 32
    match s.bankBad rs with
    | some (why, k) => refuse s (why + 65536 * k)
    | none =>
      okN (rs.foldl (fun s x =>
        let old := digest8 (s.bankBytes (rd x 0 2) (rd x 2 1))
        (s.bankPut x).logC (.host r) 2 0 0x0502 3 (rd x 0 2) old (digest8 x) true) s) d.len)

/-- BANK_READ (R329). -/
def execBankRead (r : Nat) (d : Desc) (s : State) : Out State :=
  .next (s.cmd r 0x0503 d
      { priv := 0, buf := .writes, lenOk := fun n => decide (32 * d.p1 ≤ n),
        parOk := decide (1 ≤ d.p1 ∧ d.p1 ≤ 166 ∧ d.p0 + d.p1 ≤ 166 ∧ d.p2 ≤ 1) } fun s =>
    image s (32 * d.p1) ((List.range d.p1).flatMap fun k => s.bankBytes (d.p0 + k) d.p2))

/-- CHASE_QUERY (R329). -/
def execChaseQuery (r : Nat) (d : Desc) (s : State) : Out State :=
  .next (s.cmd r 0x0500 d { priv := 0, buf := .writes, lenOk := fun n => decide (64 ≤ n) } fun s =>
    image s 64 (s.regBytes [0x30004, 0x30008, 0x30010, 0x30014, 0x30020, 0x3002C, 0x30040, 0x30044, 0x30048, 0x3004C]))

end Sys2Proof.Machine
end

