-- ==== Sys2Proof/Machine/Roscor.lean ====
section
/-!
DEFINITION. What the rows of the seats and the Roscor link share (R488 to R511): counts converted between the seats, the
state copy, the duty digest compared, the token taken and released, planned handovers and proving runs. Where the manual
names a section of the state copy without its bytes, the layout below is the model's own (log entry 27).
-/
namespace Sys2Proof.Machine

/-- Changes the Roscor state. -/
def State.rosMod (s : State) (f : Ros → Ros) : State := { s with ros := f s.ros }

/-- Δp and Δk of R497: the holder's count minus this seat's. -/
def State.deltaP (s : State) : Int := toS 32 (s.get Reg.ROS_DPNUM)
def State.deltaK (s : State) : Int := toS 32 (s.get Reg.ROS_DPNUM / 2 ^ 32)

/-- A period number of the holder in this seat's own count (R497). -/
def State.ownPeriod (s : State) (h : Nat) : Nat := ((h : Int) - s.deltaP).toNat

/-- This seat's present period in the holder's count. -/
def State.heldPeriod (s : State) : Nat := ((s.get Reg.CHS_PNUM : Int) + s.deltaP).toNat

/-- This seat is ready as standby (R488). -/
def State.rosReady (s : State) : Bool :=
  s.standby && !s.haltSet && s.on Reg.ROS_STAT_UP && s.on Reg.ROS_STAT_LOCK && decide (16 ≤ s.ros.copyRun) &&
    s.ros.hb.any fun h => h.chg == s.ros.imposed

/-- The period counts of this seat and the peer count as silent on neither path: consecutive periods silent on both. -/
def State.silent (s : State) : Nat := min s.ros.rRun s.ros.bRun

/-! ## Frames that this seat sends -/

/-- The payload of HB (R494). -/
def State.hbBytes (s : State) : List Byte :=
  let fl := b2n (s.on Reg.ROS_STAT_READY) + 2 * b2n s.halted + 4 * s.get Reg.ROS_STAT_LOCK + 8 * s.get Reg.ROS_STAT_CFGLAG +
    16 * s.get Reg.ROS_STAT_PDIV + 32 * s.get Reg.ROS_STAT_DDIV + 64 * b2n s.ros.prove.isSome +
    128 * s.get Reg.ROS_CTL_SELFTEST
  -- the epoch held, or at a standby the last one copied
  let ep := match s.ros.copies with
    | (_, p) :: _ => if s.token then s.chs.epoch else rd p 8 2
    | [] => s.chs.epoch
  le 8 s.time ++ le 1 s.stage ++ le 1 fl ++ le 2 ep ++ le 4 s.ros.imposed ++
    le 8 (if s.token then 0 else s.get Reg.ROS_LASTCP) ++ zeros 8

/-- HB (R494). In a step of Errata the seat is absent to its peer (R552). -/
def State.hbOutFrame (s : State) : State := if s.stage = 0 then s else s.rosOut 1 s.hbBytes

/-- The marks of a reference in a copy. -/
def Ref.marks (r : Ref) : Nat := b2n r.src + 2 * b2n r.rb + 4 * b2n r.ever + 8 * b2n r.plan

/-- The references that a copy carries, in order; the grid-draw target follows them. -/
def Gal.refs (g : Gal) : List Ref := g.armD :: g.delta ++ g.iplan ++ [g.trim]

/-- One record of the loop section (R493). -/
def State.loopCopy (s : State) (n : Nat) : List Byte :=
  let x := s.loop n
  le 8 (ofS 64 x.x) ++ le 4 (ofS 32 x.u) ++ le 2 x.fecnt ++
    le 2 (b2n x.isOpen + 2 * x.act + 4 * b2n x.sat + 8 * b2n x.hold + 16 * b2n (s.inSvc n))

/-- One record of the phase section (R493). -/
def State.phaseCopy (s : State) (q : Nat) : List Byte :=
  le 1 (s.pst q) ++ le 1 (s.get (Reg.STL_PSTAT_FACTOR q)) ++ le 1 (satU 8 ((s.time - (s.phase q).since) / max 1 s.periodNs)) ++
    le 1 (s.role q + 16 * s.get (Reg.STL_PSTAT_CAUSE q))

/-- A proof in a copy: its cycle plus 1, or 0 for none, and its state. -/
def proofCopy (p : Option (Nat × Nat)) : List Byte :=
  match p with
  | some p => le 8 (p.1 + 1) ++ le 1 p.2
  | none => zeros 9

/-- The section of the limiter and the galley (R493). -/
def State.galCopy (s : State) : List Byte :=
  let g := s.gal
  fit 128 (le 8 (ofS 64 s.chs.rmp.y) ++ le 1 (s.get Reg.CHS_RMP_STAT_CLASS) ++ le 1 (b2n s.chs.govern) ++
    (g.refs.flatMap fun r => le 4 (ofS 32 r.val) ++ le 1 r.marks) ++ le 8 (ofS 64 g.grid.val) ++ le 1 g.grid.marks ++
    le 1 (g.govP.getD 0xFF) ++ le 1 (g.govI.getD 0xFF) ++
    le 1 (packBits 8 fun j => (s.entry j).susp) ++ le 8 (match g.plan with
      | some p => p.basis
      | none => 0) ++ le 4 (ofS 32 g.gridNeutral) ++ le 1 (packBits 8 fun j => (s.entry j).barred) ++
    le 8 (g.holdUntil - s.time) ++ proofCopy g.gridProof ++ proofCopy s.chs.rmp.yProof)

/-- The spares that come in, at most 12, with what each replaces and its time so far in us (R358); then the phases under estimate, at
most 5 (R357). -/
def State.jobCopy (s : State) : List Byte :=
  let us := fun t => le 3 ((s.time - t) / 1000)
  fit 72 (((List.range 156).filter fun q => (s.phase q).job != 0).flatMap fun q =>
      let x := s.phase q
      le 1 (q + 1) ++ le 1 x.job ++ le 1 x.jobFor ++ us x.jobAt) ++
    fit 20 ((List.range 156).flatMap fun q => match (s.phase q).estAt with
      | some t => le 1 (q + 1) ++ us t
      | none => [])

/-- The sequencing section (R493). -/
def State.seqCopy (s : State) : List Byte :=
  let c := s.chs
  fit 144 (le 2 c.burstN ++ le 4 c.burstLow ++ le 1 c.burstWhy ++ le 2 c.burstAgo ++ le 1 (b2n c.burstOver) ++
    le 1 (packBits 5 fun g => c.abort.contains g) ++ le 1 (packBits 5 fun g => c.heldGrp.contains g) ++ le 1 c.order ++
    le 1 (b2n c.waitImp) ++ le 20 (packBits 156 fun q => c.turn.contains q) ++ le 4 (c.setMv.getD 0) ++
    le 1 (s.get Reg.CHS_STAT_OVRC) ++ le 1 (s.get Reg.CHS_STAT_SOFT) ++ s.jobCopy)

/-- The record of a change list (R493); the period that ends counts towards its hold (R323). -/
def ChgList.copy (l : ChgList) (vBad : Bool) : List Byte :=
  let (o, f) := l.back.getD (0, 0)
  let held := if l.done = 0 ∨ l.back.isSome ∨ (bit l.check 1 && vBad) then l.held else l.held + 1
  fit 32 (le 4 l.st.no ++ le 2 l.done ++ le 4 held ++ le 4 l.restarted ++ le 1 (b2n l.back.isSome) ++ le 1 o ++ le 1 f)

/-- The payload of STATE for period `n` (R493). -/
def State.stateCopy (s : State) (n : Nat) : List Byte :=
  le 8 n ++ le 2 s.chs.epoch ++ le 1 (s.get Reg.CHS_STAT_LAW) ++
    le 1 (s.get Reg.CHS_STAT_WINARM + 2 * s.get Reg.STL_STAT_BURST + 4 * s.get Reg.PRS_GAL_STAT_RB) ++
    le 4 s.ros.duty ++ le 4 s.ros.imposed ++ le 1 s.lanes ++ zeros 11 ++
    (List.range 166).flatMap s.loopCopy ++ (List.range 156).flatMap s.phaseCopy ++ s.galCopy ++ s.seqCopy ++
    fit 512 (s.chs.lists.flatMap fun l => l.copy s.chs.v0.isNone)

/-- The entry of PCYC for ring `r`: its head and its cut index. -/
def State.pcycEntry (s : State) (r : Nat) : Nat × Nat :=
  (s.get (Reg.HST_RPTR_HEAD r), ((s.ing.cuts.find? fun c => c.1 == r).map (·.2)).getD 0)

/-- The frames of PCYC, at most 166 entries in each; the last one is FINAL (R495). -/
def pcycFrames (head : List Byte) : Nat → List (List Byte) → List (List Byte)
  | 0, _ => []
  | n + 1, es =>
    let rest := es.drop 166
    (head ++ le 2 (min 166 es.length) ++ le 1 (b2n rest.isEmpty) ++ zeros 3 ++ (es.take 166).flatten) ::
      (if rest.isEmpty then [] else pcycFrames head n rest)

/-- PCYC at the start of press cycle `k` (R495): the shadow rings whose head or cut index has changed, at most 2,048. -/
def State.pcycOut (s : State) (k : Nat) : State :=
  if !s.token || !s.on Reg.ROS_STAT_UP then s
  else
    let e := s.entry ((k + 7) % 8)
    let known := e.cyc + 1 == k
    let head := le 8 k ++ (if known && e.state != 2 then s.exportPayload e 3 else zeros 8) ++
      le 1 (if known then e.state else 0) ++ le 1 (if known then e.var else 0)
    let rs := ((s.rings.map (·.1)).filter fun r => s.ringLive r && s.on (Reg.HST_RCFG_SHADOW r) &&
      (let x := s.pcycEntry r
       (s.ring r).peerHead != x.1 || !(s.ros.cuts.contains (r, x.2)))).take 2048
    let es := rs.map fun r => let x := s.pcycEntry r
      le 2 r ++ le 2 x.1 ++ le 2 x.2
    let s := (pcycFrames head 14 es).foldl (fun s f => s.rosOut 5 f) s
    let s := rs.foldl (fun s r => s.ringMod r fun y => { y with peerHead := (s.pcycEntry r).1 }) s
    s.rosMod fun x => { x with cuts := (x.cuts.filter fun c => !rs.contains c.1) ++ rs.map fun r => (r, (s.pcycEntry r).2) }

/-! ## The state copy at the standby (R493, R498, R504, R609) -/

/-- The loops as a copy gives them. -/
def State.loadLoops (s : State) (p : List Byte) : State :=
  (List.range 166).foldl (fun s n =>
    let o := 32 + 16 * n
    let f := rd p (o + 14) 2
    s.loopMod n fun x => { x with x := toS 64 (rd p o 8), u := toS 32 (rd p (o + 8) 4), fecnt := rd p (o + 12) 2,
                                  isOpen := bit f 0, act := b2n (bit f 1), sat := bit f 2, hold := bit f 3 }) s

/-- The boundary at which a copy was formed, in this seat's time: the end of its period, in the holder's count. -/
def State.copyTime (s : State) (p : List Byte) : Nat := s.time - (s.heldPeriod - (rd p 0 8 + 1)) * s.periodNs

/-- A phase takes its spare's step and its estimate as a copy gives them (R357, R358). A seat that follows the same step keeps its own
count of samples. -/
def State.loadJob (s : State) (p : List Byte) (q : Nat) : State :=
  let o := 3480
  let us := fun i => s.copyTime p - rd p i 3 * 1000
  let est := ((List.range 5).find? fun i => rd p (o + 72 + 4 * i) 1 == q + 1).map fun i => us (o + 73 + 4 * i)
  s.phaseMod q fun x =>
    let x := { x with estAt := est }
    match (List.range 12).find? fun i => rd p (o + 6 * i) 1 == q + 1 with
    | none => { x with job := 0 }
    | some i =>
      let j := rd p (o + 6 * i + 1) 1
      let x := if x.job = j then x else { x with job := j, jobN := 0, jobSum := 0, jobBad := false }
      { x with jobFor := rd p (o + 6 * i + 2) 1, jobAt := us (o + 6 * i + 3) }

/-- The phases as a copy gives them; the roles go to this seat's own settings store (R609). A phase longer in its state than the copy can
say keeps the time at which this seat saw it enter. -/
def State.loadPhases (s : State) (p : List Byte) : State :=
  (List.range 156).foldl (fun s q =>
    let o := 2688 + 4 * q
    let rc := rd p (o + 3) 1
    let t := s.copyTime p - rd p (o + 2) 1 * s.periodNs
    let t := if rd p (o + 2) 1 = 255 ∧ s.pst q = rd p o 1 then min t (s.phase q).since else t
    let s := (s.set (Reg.STL_PSTAT_STATE q) (rd p o 1)).set (Reg.STL_PSTAT_FACTOR q) (rd p (o + 1) 1)
    let s := (s.setRole q (rc % 16)).setNv (Reg.STL_PSTAT_CAUSE q) (rc / 16)
    (s.phaseMod q fun x => { x with since := t }).loadJob p q) s

/-- A reference as a copy gives it: its value, and its marks. -/
def loadRef (val : Int) (f : Nat) : Ref := { val := val, src := bit f 0, rb := bit f 1, ever := bit f 2, plan := bit f 3 }

/-- A proof as a copy gives it, its cycle in this seat's count (R497). -/
def State.loadProof (s : State) (p : List Byte) (o : Nat) : Option (Nat × Nat) :=
  if rd p o 8 = 0 then none else some (((rd p o 8 : Int) - 1 - s.deltaK).toNat, rd p (o + 8) 1)

/-- The limiter and the galley as a copy gives them. The holder's entries are numbered by its own press-cycle count (R497); the deadline of
ARMHOLD travels as the time that is left. -/
def State.loadGal (s : State) (p : List Byte) : State :=
  let o := 3312
  let s := (s.setY (toS 64 (rd p o 8))).chsMod fun c => { c with govern := bit (rd p (o + 9) 1) 0 }
  let r := fun (i : Nat) => loadRef (toS 32 (rd p (o + 10 + 5 * i) 4)) (rd p (o + 14 + 5 * i) 1)
  let dk := (s.deltaK % 8).toNat
  let g := fun (n : Nat) => if n = 0xFF then none else some ((n + 8 - dk) % 8)
  let s := s.galMod fun x => { x with armD := r 0, delta := [r 1, r 2, r 3, r 4], iplan := [r 5, r 6, r 7, r 8], trim := r 9,
                                      grid := loadRef (toS 64 (rd p (o + 60) 8)) (rd p (o + 68) 1),
                                      govP := g (rd p (o + 69) 1), govI := g (rd p (o + 70) 1),
                                      gridNeutral := toS 32 (rd p (o + 80) 4)
                                      holdUntil := if rd p (o + 85) 8 = 0 then 0 else s.copyTime p + rd p (o + 85) 8
                                      gridProof := s.loadProof p (o + 93) }
  let s := s.chsMod fun c => { c with rmp := { c.rmp with yProof := s.loadProof p (o + 102) } }
  (List.range 8).foldl (fun s j => s.entryMod j fun e =>
    { e with susp := bit (rd p (o + 71) 1) ((j + dk) % 8), barred := bit (rd p (o + 84) 1) ((j + dk) % 8) }) s

/-- The sequencing section as a copy gives it. -/
def State.loadSeq (s : State) (p : List Byte) : State :=
  let o := 3440
  let s := ((s.set Reg.CHS_STAT_OVRC (rd p (o + 38) 1)).set Reg.CHS_STAT_SOFT (rd p (o + 39) 1)).chsMod fun c =>
    { c with burstN := rd p o 2, burstLow := rd p (o + 2) 4, burstWhy := rd p (o + 6) 1, burstAgo := rd p (o + 7) 2,
             burstOver := bit (rd p (o + 9) 1) 0, abort := (List.range 5).filter fun g => bit (rd p (o + 10) 1) g,
             heldGrp := (List.range 5).filter fun g => bit (rd p (o + 11) 1) g, order := rd p (o + 12) 1,
             waitImp := bit (rd p (o + 13) 1) 0, turn := (List.range 156).filter fun q => bit (rd p (o + 14) 20) q,
             setMv := if rd p (o + 34) 4 = 0 then c.setMv else some (rd p (o + 34) 4) }
  s

/-- The change lists take the holds and the rollback that a copy gives them, where the same steps have been imposed. -/
def State.loadLists (s : State) (p : List Byte) : State :=
  let rs := (List.range 16).map fun i => (p.drop (3584 + 32 * i)).take 32
  let step := fun (l : ChgList) =>
    match rs.find? (fun b => rd b 0 4 == l.st.no && l.st.no != 0 && rd b 4 2 == l.done) with
    | none => l
    | some b => { l with held := rd b 6 4, restarted := rd b 10 4, back := if rd b 14 1 = 1 then some (rd b 15 1, rd b 16 1) else l.back }
  s.chsMod fun c => { c with lists := c.lists.map step }

/-- The standby's Chase starts from a copy (R498, R504). -/
def State.loadCopy (s : State) (p : List Byte) : State :=
  let s := (s.set Reg.CHS_STAT_LAW (rd p 10 1)).set Reg.CHS_STAT_WINARM (rd p 11 1)
  let s := s.set Reg.STL_STAT_BURST (rd p 11 1 / 2)
  (((s.loadLoops p).loadPhases p).loadGal p).loadSeq p |>.loadLists p

/-- Duty digests of one period that both seats have are compared (R499); DDIV follows the run of matches and mismatches.
In a proving run the original seat counts mismatches in a row (R511). -/
def State.dutyCompare (s : State) (n : Nat) : State :=
  match Tab.find s.ros.own n, Tab.find s.ros.held n with
  | some a, some b =>
    let s := s.rosMod fun r => { r with own := r.own.filter fun e => n < e.1, held := r.held.filter fun e => n < e.1 }
    if a = b then
      let s := s.rosMod fun r => { r with dMiss := 0, dGood := r.dGood + 1, prove := r.prove.map fun v => { v with miss := 0 } }
      if 1000 ≤ s.ros.dGood then s.set Reg.ROS_STAT_DDIV 0 else s
    else
      let s := s.rosMod fun r => { r with dMiss := r.dMiss + 1, dGood := 0, ddTotal := r.ddTotal + 1,
                                          prove := r.prove.map fun v => { v with miss := v.miss + 1 } }
      let s := (s.bump Reg.ROS_DDMIS).raise (detN 20 4) 0 0
      if 16 ≤ s.ros.dMiss then s.set Reg.ROS_STAT_DDIV 1 else s
  | _, _ => s

/-! ## The token (R77, R343, R504, R506) -/

/-- Posts SEAT_ROLE (R513); roles are stages of R60. -/
def State.seatRole (s : State) (old new reason age : Nat) : State :=
  s.evt 7 0x0E00 (le 1 old ++ le 1 new ++ le 1 reason ++ le 1 0 ++ le 2 s.chs.epoch ++ zeros 2 ++ le 4 age)

/-- STANDBY or ACTIVE is reached: the boot-failure count clears (R65). -/
def State.roleStage (s : State) (v : Nat) : State :=
  let s := s.setStage v
  { s with nv := { s.nv with bootFail := 0 } }

/-- The rings have this module as their master, or have it no longer (R419). -/
def State.masterAll (s : State) (b : Bool) : State := (List.range 4).foldl (fun s st => s.setMaster st b) s

/-- The token is taken from WAIT (R77, R328, R343). -/
def State.tokenFromWait (s : State) : State :=
  let old := s.stage
  let s := (s.armBegin.roleStage 8).masterAll true
  { (s.seatRole old 8 6 0) with glb := { s.glb with roleDue := false } }

/-- The standby role is taken from WAIT (R76). -/
def State.standbyRole (s : State) : State :=
  let old := s.stage
  let s := (s.roleStage 7).seatRole old 7 6 0
  { s with glb := { s.glb with roleDue := false } }

/-- Service of a shadow ring goes on from the last head received (R118): what this seat had fetched from there on is fetched again, and
what lies before it counts as done, for FENCEs (R109) and for the CPL ring alike (R90). -/
def State.shadowRing (s : State) (r : Nat) : State :=
  let x := s.ring r
  let n := s.ringLen r
  let b := (s.get (Reg.HST_RPTR_HEAD r) + n - x.peerHead % n) % n
  let k := if b < n / 2 then x.nFetched - b else x.nFetched + (n - b)
  let s := s.ringMod (s.get (Reg.HST_RCFG_CPLRING r)) fun y => { y with owed := y.owed - x.fetched.length - x.aborts.length }
  (s.set (Reg.HST_RPTR_HEAD r) x.peerHead).ringMod r fun x =>
    { x with takeover := true, fetched := [], aborts := [], busy := false, nFetched := k, nDone := k }

/-- Service of the shadow rings goes on from the last heads received, and the first completion on each carries TAKEOVER
(R118). -/
def State.shadowTake (s : State) : State :=
  let s := ((s.rings.map (·.1)).filter fun r => s.on (Reg.HST_RSTAT_EN r) && s.on (Reg.HST_RCFG_SHADOW r)).foldl
    (fun s r => s.shadowRing r) s
  s.fencesOver s.hst.fences.length

/-- The token is taken under R504, at a takeover or a planned handover; score sums start at 0 and an open offer closes (R290): the epoch is the copied one plus 1; the newest copy
is loaded, or Chase arms from measurement when it is more than 8 periods old. SYNC of the boundary leaves with HOLD. -/
def State.tokenTake (s : State) (reason : Nat) : State :=
  let old := s.stage
  let now := s.heldPeriod
  let (age, s) := match s.ros.copies with
    | (n, p) :: _ =>
      let a := now - n
      let e := (rd p 8 2 + 1) % 65536
      let s := if 8 < a then s.armBegin else (s.loadCopy p).copyArmed
      (a, s.chsMod fun c => { c with epoch := e, gap := true })
    | [] => (0, s.armBegin)
  let s := (s.roleStage 8).masterAll true
  let s := if reason = 3 then s.bump Reg.ROS_TKO_HANDED else (s.bump Reg.ROS_TKO_TAKEN).raise (detN 20 5) 0 0
  let s := { s with nvm := Tab.put (Tab.put s.nvm Reg.ROS_TKO_HANDED.key (s.get Reg.ROS_TKO_HANDED)) Reg.ROS_TKO_TAKEN.key (s.get Reg.ROS_TKO_TAKEN) }
  let s := ((s.shadowTake.clearScores.offerClose 3).seatRole old 8 reason age).syncOut false
  (s.set Reg.ROS_STAT_READY 0).rosMod fun r => { r with asked := false, rRun := 0, bRun := 0, copies := [], copyRun := 0 }

/-- The seat token is released (R60, R506, R509): the outputs stop, a repair ends with its unit FAILED (R581), and an open offer closes
(R285). -/
def State.tokenRelease (s : State) (stage reason : Nat) : State :=
  let old := s.stage
  let s := s.releaseHold fun _ => true
  let s := if reason = 3 then s else s.phasesSafe
  let s := (s.set Reg.CHS_STAT_TOKEN 0).masterAll false
  let s := (s.repairEnd 2 0).offerClose 3
  (s.setStage stage).seatRole old stage reason 0

/-! ## Planned handovers and proving runs (R509 to R511) -/

/-- A burst, a change list, a rollback or the window stands in the way of a handover (R509). -/
def State.handBusy (s : State) : Bool :=
  s.on Reg.STL_STAT_BURST || s.chs.govern || s.chs.lists.any fun l => l.done != 0 || l.back.isSome

/-- A planned handover is refused, or cancelled before H, at the holder (R509); a holder in conflict over its seat keeps the token
(R40). -/
def State.handBlocked (s : State) : Bool := !s.on Reg.ROS_STAT_PREADY || s.handBusy || (s.det (detN 5 2)).cause

/-- The holder announces a planned handover of a kind (R509). -/
def State.handStart (s : State) (kind : Nat) (st : Option Staged) : State :=
  let h := s.leadPeriod
  (s.rosMod fun r => { r with hand := some { kind := kind, at_ := h, gives := true, st := st } }).rosOut 3
    (le 1 kind ++ zeros 7 ++ le 8 h)

/-- Posts HANDOVER (R513). -/
def State.handEvt (s : State) (kind outcome h : Nat) : State :=
  s.evt 7 0x0E02 (le 1 kind ++ le 1 outcome ++ zeros 2 ++ le 4 h ++ zeros 4)

/-- A proving run ends: PROVING, and the health report (R511, R512). -/
def State.proveEnd (s : State) (outcome : Nat) : State :=
  match s.ros.prove with
  | none => s
  | some v =>
    let s := s.evt 7 0x0E03 (le 1 outcome ++ zeros 3 ++ le 4 ((s.time - v.start) / 1000000000) ++ le 2 v.first ++ zeros 2)
    s.rosMod fun r => { r with prove := none, back := false, provedAt := v.start, provedOut := outcome }

/-- A handover does not take place (R509): its change ends, and a proving run that was to begin does not. -/
def State.handCancel (s : State) : State :=
  match s.ros.hand with
  | none => s
  | some h =>
    -- a return that is cancelled is tried again (R511)
    let s := (s.rosMod fun r => { r with hand := none, back := r.back || (h.gives && h.kind == 5) }).handEvt h.kind 1 h.at_
    match h.st with
    | some c => (s.unstage c.no).changeDone c 2 0 0x14
    | none => s

/-- The prover returns the token by a handover of kind 5 (R511); when the original seat is not ready it keeps the token. -/
def State.proveReturn (s : State) : State :=
  if !s.ros.prove.any (·.prover) || !s.token then s
  else if !s.on Reg.ROS_STAT_PREADY then s.proveEnd 3
  else if s.ros.hand.isSome then s
  else if s.handBlocked then s.rosMod fun r => { r with back := true }
  else s.handStart 5 none

end Sys2Proof.Machine
end

