-- ==== Sys2Proof/Machine/Update.lean ====
section
/-!
DEFINITION. Firmware and configuration update (R540 to R562): image headers and slots, sources and locks, the configuration
bundle, plans with their steps, rollback and commit, the ring-node push, and the test-port unlock. The Ed25519 verdict of
a signature is what a command carries.
-/
namespace Sys2Proof.Machine

/-- Changes the update state. -/
def State.updMod (s : State) (f : Upd → Upd) : State := { s with upd := f s.upd }

/-! ## Reset cause (R56, R593) -/

/-- How far a reset of a code reaches, the widest first (R55). DESIGN CHOICE (unsafe): R56 does not order the reaches of the host island
(0x02, 0x03), the management cluster (0x05) and an activated processor (0x06) against each other; they count as equally wide, so the lower
code is recorded (log entry 98). -/
def resetReach (c : Nat) : Nat := if c = 1 then 0 else if c = 4 ∨ c = 7 then 1 else 2

/-- The code recorded of two that act in the same 1 ms (R56). -/
def widerReset (a b : Nat) : Nat :=
  if resetReach a < resetReach b ∨ (resetReach a = resetReach b ∧ a ≤ b) then a else b

/-- What the end of every reset does: the test port is locked (R44), and the unlock nonce takes a new random value (R559). -/
def State.resetEnds (s : State) : State :=
  let (v, s) := s.draw
  { (s.set Reg.UPD_NONCE v) with glb := { s.glb with tapLocked := true } }

/-- GLB_RSTCAUSE records a reset (R56, R593). -/
def State.resetMark (s : State) (code : Nat) : State :=
  let old := s.glb.sources
  let cause := s.get Reg.GLB_RSTCAUSE_CAUSE
  let s := { s with glb := { s.glb with sources := old ++ [code] } }
  let s := (s.set Reg.GLB_RSTCAUSE_CAUSE (old.foldl widerReset code)).bump Reg.GLB_RSTCAUSE_COUNT
  let s := if old.isEmpty then (s.set Reg.GLB_RSTCAUSE_PREV cause).set Reg.GLB_RSTCAUSE_MULTI 0 else s.set Reg.GLB_RSTCAUSE_MULTI 1
  s.resetEnds

/-! ## Slots and headers (R540 to R544) -/

/-- An image type of R540. -/
def imgType (t : Nat) : Bool := decide (1 ≤ t ∧ t ≤ 6)

/-- The BLEN limit of a type (R540). -/
def imgLimit (t : Nat) : Nat :=
  match t with
  | 1 | 2 => 4 * 2 ^ 20
  | 3 => 32 * 2 ^ 20
  | 4 => 160 * 2 ^ 20
  | 5 => 256 * 2 ^ 10
  | _ => 16 * 2 ^ 20

/-- Changes a slot. -/
def State.imgMod (s : State) (t k : Nat) (f : ImgSlot → ImgSlot) : State :=
  s.updMod fun u => { u with slots := Tab.put u.slots (2 * t + k) (f (s.img t k)) }

/-- The slot of a type that is not active. -/
def State.spareSlot (s : State) (t : Nat) : Nat := 1 - s.activeSlot t

/-- The check of a header that fails first (R544): its reason, and the detector of family 22. -/
def State.headerBad (s : State) (h : List Byte) (t : Nat) (sig : Bool) : Option (Nat × Nat) :=
  let ver := rd h 16 4
  let rsv := rd h 13 1 / 2 + rd h 15 1 + rd h 38 2 + rd h 136 312
  if rd h 0 4 ≠ 0x9640494D ∨ rd h 4 2 ≠ 1 ∨ rd h 6 2 ≠ 512 ∨ rsv ≠ 0 then some (1, 0)
  else if rd h 8 4 ≠ 0x96400B00 then some (2, 0)
  else if !imgType (rd h 12 1) ∨ rd h 12 1 ≠ t then some (3, 0)
  else if 4 ≤ rd h 14 1 ∨ bit (s.get Reg.UPD_STAT_REVOKED) (rd h 14 1) then some (4, 2)
  else if !sig then some (5, 2)
  else if bit (rd h 13 1) 0 ∧ rd h 20 8 ≠ s.get Reg.GLB_SERIAL then some (6, 0)
  else if rd h 28 4 = 0 ∨ imgLimit t < rd h 28 4 then some (7, 0)
  else if ver < Tab.get s.upd.floors t 0 then some (8, 0)
  else none

/-! ## Sources and locks (R545, R546) -/

/-- A source opens the inactive slot of a type: the status, its reason or the session, and the state. -/
def State.imgOpen (s : State) (src : ImgSrc) (t : Nat) (h : List Byte) (sig : Bool) : Nat × Nat × State :=
  match s.headerBad h t sig with
  | some (reason, d) => (0x1E, reason, s.raise (detN 22 d) 0 0)
  | none =>
    let k := s.spareSlot t
    let put := fun (s : State) (no : Nat) =>
      let s := s.imgMod t k fun _ => { st := 1, hdr := h }
      s.updMod fun u => { u with sess := Tab.put u.sess t { no := no, src := src, hdr := h, last := s.time } }
    match Tab.find s.upd.sess t with
    | some x => if x.src = src then (0, x.no, put s x.no) else (0x1A, 0, s)
    | none =>
      if (s.img t k).st = 4 then (0x16, 0, s)
      else
        let no := s.upd.nextSess
        (0, no, put (s.updMod fun u => { u with nextSess := no + 1 }) no)

/-- A lock ends: the slot takes a state. -/
def State.unlockSlot (s : State) (t st : Nat) (x : Session) : State :=
  let s := s.updMod fun u => { u with sess := Tab.del u.sess t }
  -- a push refused for this lock is asked for again (R546, log entry 66)
  let s := if s.ros.push.contains t then (s.rosMod fun r => { r with push := r.push.filter (· != t) }).bulkOut 6 (le 1 t) else s
  s.imgMod t (s.spareSlot t) fun _ => if st = 2 then { st := 2, hdr := x.hdr, body := x.body } else {}

/-- The source byte of an event (R561), and the ring of a ring lock. -/
def ImgSrc.code : ImgSrc → Nat × Nat
  | .ring r => (0, r)
  | .peer => (1, 0xFFFF)
  | .flyleaf => (2, 0xFFFF)

/-! ## The configuration bundle (R549) -/

/-- The records of a bundle body: type and body; none when it is cut short. -/
def bundleRecs : Nat → List Byte → Option (List (Nat × List Byte))
  | 0, b => if b.isEmpty then some [] else none
  | n + 1, b =>
    if b.isEmpty then some []
    else
      let len := rd b 2 2
      let all := cdiv (4 + len) 8 * 8
      if b.length < 4 + len then none
      else (bundleRecs n (b.drop all)).map fun rs => (rd b 0 2, (b.drop 4).take len) :: rs

/-- Offset of the register that a setting record names. -/
def setOff (r : List Byte) : Nat := rd r 0 1 * 0x10000 + rd r 4 4

/-- A record names nothing that is defined. -/
def recBad (r : Nat × List Byte) : Bool :=
  let b := r.2
  match r.1 with
  | 1 => b.length != 16 || decide (0xC < rd b 0 1 ∨ 0x10000 ≤ rd b 4 4) || (match regRow (setOff b) with
    | none => true
    | some row => rwMask row &&& rd b 8 4 != rd b 8 4)
  | 2 => match rd b 0 4 with
    | 0 => (socOf (b.drop 4)).isNone
    | 1 => (impOf (b.drop 4)).isNone
    | _ => true
  | 3 => b.length != 24 || !(rd b 0 1 == 1 || rd b 0 1 == 2)
  | 4 => b.length != 8 || decide (4 ≤ rd b 0 1)
  | 5 => b.length != 8 || !imgType (rd b 0 1)
  | _ => true

/-- The keys revoked after the records. -/
def revokedBy (old : Nat) (rs : List (Nat × List Byte)) : Nat :=
  rs.foldl (fun a r => if r.1 = 4 then a ||| 2 ^ rd r.2 0 1 else a) old

/-- A bundle that is refused at IMG_FINISH (R549). -/
def State.bundleBad (s : State) (body : List Byte) : Bool :=
  match bundleRecs (body.length + 1) body with
  | none => true
  | some rs => rs.any recBad || revokedBy (s.get Reg.UPD_STAT_REVOKED) rs == 15

/-- A setting record on one field: an RW field that the mask touches takes the new bits, in the settings store as well. -/
def State.applyField (s : State) (b : List Byte) (row : RegRow) (off idx : Nat) (f : RField) : State :=
  let m := bits (rd b 8 4) f.lo f.width
  if f.acc = .rw ∧ m ≠ 0 then
    let h := f.home row off idx
    let old := bits (s.get h) f.sh f.width
    s.setNv h (putBits (s.get h) f.sh f.width (mix old (bits (rd b 12 4) f.lo f.width) m))
  else s

/-- A setting record on the fields of a register's row, if there is one. -/
def State.applyRow (s : State) (b : List Byte) (off idx : Nat) (row : Option RegRow) : State :=
  match row with
  | none => s
  | some row => row.fields.foldl (fun s f => s.applyField b row off idx f) s

/-- A setting record: each field of the register that it names. -/
def State.applySetting (s : State) (b : List Byte) : State :=
  s.applyRow b (setOff b) (s.window (setOff b)) (regRow (setOff b))

/-- One record of a bundle takes effect (R549). -/
def State.applyRecord (s : State) (o : Origin) (no : Nat) (r : Nat × List Byte) : State :=
  let b := r.2
  match r.1 with
  | 1 => (s.applySetting b).recap
  | 2 => s.imposeTable (rd b 0 4) 0 (b.drop 4)
  | 3 =>
    let k := (b.drop 8).take 16
    let s : State := if rd b 0 1 = 1 then { s with nv := { s.nv with injKey1 := some k } } else { s with nv := { s.nv with injKey2 := some k } }
    s.logC o 3 no 0x0B05 0xA 6 0 (rd b 0 1)
  | 4 =>
    let s := s.setNv Reg.UPD_STAT_REVOKED (s.get Reg.UPD_STAT_REVOKED ||| 2 ^ rd b 0 1)
    s.logC o 3 no 0x0B05 0xA 6 0 (rd b 0 1)
  | _ =>
    let t := rd b 0 1
    let s := s.updMod fun u => { u with floors := Tab.put u.floors t (max (Tab.get u.floors t 0) (rd b 4 4)) }
    s.logC o 3 no 0x0B05 0xA 6 0 (rd b 4 4)

/-! ## Finish, abort, expiry (R545, R546) -/

/-- An image READY in the holder is pushed to a ready standby (R546). -/
def State.imgPush (s : State) (x : Session) : State :=
  if s.on Reg.ROS_STAT_PREADY then s.sendBulk 3 (x.hdr ++ x.body) else s

/-- A push that the standby refused for a lock is offered again (R546). -/
def State.pushAgain (s : State) (t : Nat) : State :=
  let x := s.img t (s.spareSlot t)
  if x.st = 2 ∧ s.token then s.sendBulk 3 (x.hdr ++ x.body) else s

/-- The body is complete (R545): READY with IMG_READY, or EMPTY with 22.1, or refused as a bundle. The reason is 0 when
good, 10 otherwise. -/
def State.imgFinish (s : State) (t : Nat) (x : Session) : Nat × State :=
  let k := s.spareSlot t
  if x.body.length ≠ rd x.hdr 28 4 ∨ sha384 x.body ≠ (x.hdr.drop 88).take 48 then
    (10, (s.unlockSlot t 0 x).raise (detN 22 1) 0 0)
  else if t = 6 ∧ s.bundleBad x.body then (10, s.unlockSlot t 0 x)
  else
    let s := s.unlockSlot t 2 x
    let (c, r) := x.src.code
    let s := s.evt 0xA 0x0B00 (le 1 t ++ le 1 k ++ le 1 c ++ le 1 0 ++ le 4 (imgVer x.hdr) ++ le 2 r ++ zeros 2)
    (0, s.imgPush x)

/-- The lock of a type expires (R546). -/
def State.lockExpire (s : State) (t : Nat) : State :=
  match Tab.find s.upd.sess t with
  | none => s
  | some x =>
    let s := (s.unlockSlot t 0 x).updMod fun u => { u with expired := x.no :: u.expired }
    (s.raise (detN 22 4) 0 0).evt 0xA 0x0B03 (le 1 t ++ le 1 x.src.code.1 ++ zeros 2 ++ le 4 x.body.length ++ zeros 4)

/-- LOCK_EXPIRED (R546): no write from the lock holder for 30 s. -/
def execLockExpired (t : Nat) (s : State) : Out State := .next (s.lockExpire t)

/-- The open session that a ring names by its number. -/
def State.session (s : State) (r no : Nat) : Option (Nat × Session) :=
  s.upd.sess.find? fun e => e.2.no == no && e.2.src == .ring r

/-- UPD_QUERY (R560). -/
def execUpdQuery (r : Nat) (d : Desc) (s : State) : Out State :=
  .next (s.cmd r 0x0B00 d { priv := 0, buf := .writes, lenOk := fun n => decide (64 ≤ n) } fun s =>
    image s 64 (s.regBytes ([0xA0008] ++ ((List.range 6).map fun t => 0xA0020 + 4 * t) ++
      (List.range 6).map fun t => 0xA0040 + 4 * t)))

/-- IMG_OPEN (R545, R546). -/
def execImgOpen (r : Nat) (d : Desc) (sig : Bool) (s : State) : Out State :=
  .next (s.cmd r 0x0B01 d { priv := 3, buf := .reads, lenOk := fun n => n == 512, parOk := imgType (bits d.p0 0 3) } fun s =>
    let (st, v, s) := s.imgOpen (.ring r) (bits d.p0 0 3) (bufBytes d) sig
    if st = 0 then { s := s.logC (.host r) 2 0 0x0B01 0xA (bits d.p0 0 3) 0 v, done := 512, result := v } else if st = 0x1E then refuse s v else bad s st)

/-- IMG_WRITE (R560): the bytes go on from those written so far. -/
def execImgWrite (r : Nat) (d : Desc) (s : State) : Out State :=
  .next (s.cmd r 0x0B02 d { priv := 3, buf := .reads, lenOk := fun n => decide (8 ≤ n ∧ n ≤ 1048576) } fun s =>
    if s.upd.expired.contains d.p0 then refuse s 9
    else
      match s.session r d.p0 with
      | none => bad s 0x14
      | some (t, x) =>
        if d.p1 ≠ x.body.length then bad s 0x14
        else okN ((s.logC (.host r) 2 0 0x0B02 0xA t d.p1 (d.p1 + d.len)).updMod fun u => { u with
          sess := Tab.put u.sess t { x with body := x.body ++ bufBytes d, last := s.time } }) d.len)

/-- IMG_FINISH (R545, R549). -/
def execImgFinish (r : Nat) (d : Desc) (s : State) : Out State :=
  .next (s.cmd r 0x0B03 d { priv := 3 } fun s =>
    if s.upd.expired.contains d.p0 then refuse s 9
    else
      match s.session r d.p0 with
      | none => bad s 0x14
      | some (t, x) =>
        let (reason, s) := s.imgFinish t x
        if reason = 0 then ok (s.logC (.host r) 2 0 0x0B03 0xA t 0 0) else refuse s reason)

/-- IMG_ABORT (R560). -/
def execImgAbort (r : Nat) (d : Desc) (s : State) : Out State :=
  .next (s.cmd r 0x0B04 d { priv := 3 } fun s =>
    if s.upd.expired.contains d.p0 then refuse s 9
    else
      match s.session r d.p0 with
      | none => bad s 0x14
      | some (t, x) => ok ((s.logC (.host r) 2 0 0x0B04 0xA t 0 0).unlockSlot t 0 x))

/-- HDR_READ (R560). -/
def execHdrRead (r : Nat) (d : Desc) (s : State) : Out State :=
  .next (s.cmd r 0x0B09 d { priv := 0, buf := .writes, lenOk := fun n => decide (512 ≤ n),
                            parOk := imgType d.p0 && decide (d.p1 ≤ 1) } fun s =>
    let x := s.img d.p0 d.p1
    if x.st = 0 then refuse s 14 else image s 512 x.hdr)

/-- TAP_UNLOCK (R45, R559): the nonce changes whatever the outcome. -/
def execTapUnlock (r : Nat) (d : Desc) (sig : Bool) (s : State) : Out State :=
  .next (s.cmd r 0x0B08 d { priv := 3, standby := true, buf := .reads, lenOk := fun n => n == 128 } fun s =>
    let b := bufBytes d
    let good := rd b 0 4 == 0x96405441 && rd b 4 2 == 1 && decide (rd b 6 1 < 4) &&
      !bit (s.get Reg.UPD_STAT_REVOKED) (rd b 6 1) && sig
    let nonce := s.get Reg.UPD_NONCE
    let (v, s) := s.draw
    let s := s.set Reg.UPD_NONCE v
    if s.token then bad s 0x19
    else if !good then refuse s 5
    else if rd b 8 8 ≠ s.get Reg.GLB_SERIAL then refuse s 6
    else if rd b 16 8 ≠ nonce then refuse s 16
    else
      let s := { s with glb := { s.glb with tapLocked := false } }
      let s := s.raise (detN 5 5) 0 0
      { s := s.logC .debug 1 0 0x0B08 0xA 0 1 0, done := 128 })

/-! ## Compatibility (R543, R551) -/

/-- The header that type `t` runs under in a set: the new one for the types of `new`. -/
def State.setHdr (s : State) (new : List Nat) (t : Nat) : List Byte :=
  (s.img t (if new.contains t then s.spareSlot t else s.activeSlot t)).hdr

/-- The image types. -/
def imgTypes : List Nat := [1, 2, 3, 4, 5, 6]

/-- A set is compatible within the module. -/
def State.setGood (s : State) (new : List Nat) : Bool :=
  imgTypes.all fun a => imgTypes.all fun b => a == b || within (s.setHdr new a) b (imgVer (s.setHdr new b))

/-- Two seats, or the nodes of a ring, may run with the old and the new image of type `t` side by side. -/
def State.peersGood (s : State) (t : Nat) : Bool :=
  let o := s.setHdr [] t
  let n := s.setHdr [t] t
  within o t (imgVer n) && within n t (imgVer o)

/-- The first step after which `good` fails, the types of the earlier steps and its own being new. -/
def stepFails (good : List Nat → Nat → Bool) : List Nat → List Nat → Option Nat
  | _, [] => none
  | done, t :: ts => if good (t :: done) t then stepFails good (t :: done) ts else some t

/-! ## Plans (R550 to R555) -/

/-- PLAN_STEP (R561). -/
def State.planEvt (s : State) (p : UPlan) (x : PlanStep) : State :=
  let seat := s.get Reg.GLB_SEAT_SEAT
  let s := s.evt 0xA 0x0B01 (le 4 p.no ++ le 1 (if x.peer then 1 - seat else seat) ++ le 1 x.type ++ le 1 x.st ++ le 1 x.tries ++
    le 4 (if x.at_ = 0 then 0 else (s.time - x.at_) / 1000000))
  -- the journal is committed at every change of state of a step (R553)
  let n := s.get (Reg.COL_SNEXT 1)
  ((s.set (Reg.COL_SFIRST 1) n).set (Reg.COL_SNEXT 1) (n + 1)).imageDone 1

/-- Changes step `i` of the plan, and tells of it. -/
def State.stepPut (s : State) (i : Nat) (f : PlanStep → PlanStep) : State :=
  match s.upd.plan with
  | none => s
  | some p =>
    let p := { p with steps := p.steps.modify i f }
    let s := s.updMod fun u => { u with plan := some p }
    match p.steps[i]? with
    | some x => s.planEvt p x
    | none => s

/-- A step's processor takes the other image: forward, the READY slot becomes ACTIVE and the old one PRIOR; back, the PRIOR
slot becomes ACTIVE and the new one READY. -/
def State.swapImage (s : State) (x : PlanStep) (back : Bool) : State :=
  if back then (s.imgMod x.type x.slot fun y => { y with st := 2 }).imgMod x.type (1 - x.slot) fun y => { y with st := 3 }
  else (s.imgMod x.type x.slot fun y => { y with st := 3 }).imgMod x.type (1 - x.slot) fun y => { y with st := 4 }

/-- The nodes of a ring, and the rings that the push writes: those with nodes that this module masters. -/
def State.pushRings (s : State) : List Nat := (List.range 4).filter fun st => s.masters st && !(s.bring st).nodes.isEmpty

/-- The push of the active ring-node image to every ring begins (R548). -/
def State.pushStart (s : State) : State :=
  let v := imgVer (s.img 5 (s.activeSlot 5)).hdr
  s.pushRings.foldl (fun s st => s.updMod fun u => { u with push := Tab.put u.push st { step := 1, ver := v } }) s

/-- What the reset of a processor does at its step (R552). While the module itself starts, the processor takes its image in
the start's own course (R554). -/
def State.procReset (s : State) (t : Nat) : State :=
  if !s.glb.chaseUp then s else
  let s := if t ≤ 4 then s.resetMark 6 else s
  let s := if t ≤ 2 ∧ s.token then s.tokenRelease 6 4 else s
  match t with
  | 1 =>
    let s := (s.setStage 0).emit (.pin .alive false)
    { s with glb := { s.glb with alive := false }, era := { s.era with keep := false } }
  | 2 =>
    let s := (List.range 166).foldl (fun s n => s.loopOut n) s.phasesSafe
    ((s.setStage 3).set Reg.ROS_STAT_LOCK 0).rosMod fun r => { r with lockRun := 0 }
  | 3 =>
    let s := s.prsMod fun p => { p with fwStep := true, discard := true, runs := [] }
    let s := { s with glb := { s.glb with mrStep := [2, 2, 2, 2] } }
    (s.set Reg.PRS_STAT_QUIESCED 1).blindTick false
  | 4 => let s := s.setStage 2
    { s with glb := { s.glb with mgmtDown := true } }
  | _ => s

/-- The Press runs again after its step: make-ready has passed (R552). -/
def State.pressFwDone (s : State) : State :=
  if s.prs.fwStep then ((s.prsMod fun p => { p with fwStep := false }).set Reg.PRS_STAT_QUIESCED 0).blindTick false else s

/-- The processor of a step runs again (R552): the stage climbs back. -/
def State.procBack (s : State) (t : Nat) : State :=
  if !s.glb.chaseUp then s else
  let was := (s.upd.plan.map (·.stage)).getD 0
  match t with
  | 1 =>
    let s := { s with era := { s.era with keep := true } }
    s.setStage (min 6 (max 4 s.topStage))
  | 2 => s.setStage (min 6 (max 4 s.topStage))
  | 3 => s.pressFwDone
  | 4 =>
    let s := { s with glb := { s.glb with mgmtDown := false } }
    s.setStage (if s.token then 8 else if was = 7 then 7 else min 6 (max 4 s.topStage))
  | _ => s

/-- Step `i` begins, forward or back (R552, R553). -/
def State.stepBegin (s : State) (i : Nat) (x : PlanStep) (back : Bool) : State :=
  let s := s.updMod fun u => { u with plan := u.plan.map fun p => { p with stage := s.stage } }
  let s := s.stepPut i fun y => { y with st := 1, tries := y.tries + 1, at_ := s.time, due := s.leadPeriod }
  if x.type = 0 then s.handStart 3 none
  else if x.peer then s
  else
    let s := if back then s.swapImage x true else if x.tries = 0 then s.swapImage x false else s
    let s := s.procReset x.type
    if x.type = 5 then s.pushStart else s

/-- The step that comes next: forward the first PENDING one, in a rollback the last CONFIRMED one of this seat. -/
def UPlan.next (p : UPlan) : Option (Nat × PlanStep) :=
  let xs := p.steps.zipIdx.map fun e => (e.2, e.1)
  if p.rolling then (xs.filter fun e => e.2.st == 2 && !e.2.peer && e.2.type != 0).getLast?
  else xs.find? fun e => e.2.st == 0

/-- PLAN_DONE and the end of a plan (R554, R555): outcome 0 committed, 1 rolled back. -/
def State.planOver (s : State) (p : UPlan) (outcome : Nat) : State :=
  let s := s.updMod fun u => { u with plan := none }
  let s := s.evt 0xA 0x0B02 (le 4 p.no ++ le 1 outcome ++ le 1 p.failed ++ zeros 2 ++ le 4 p.st.no)
  s.changeDone p.st outcome 1 (if outcome = 0 then 0xFF else 0x14)

/-- A rollback is complete (R554): the prior settings image is back, the changes imposed during the plan are discarded and logged
(R555), and 22.3 is raised. -/
def State.rollbackDone (s : State) (p : UPlan) : State :=
  let s := p.during.foldl (fun s c =>
    s.logC (changeOrigin c.ring c.block) 4 c.no c.opcode c.block c.target c.new c.old c.digest) s
  let s := { s with nvm := p.settings, upd := { s.upd with sects := p.sects } }
  (s.planOver p 1).raise (detN 22 3) 0 0

/-- The plan goes on as far as it may: the next step begins when none runs; with every step CONFIRMED the soak begins; a
rollback with nothing left is complete. The handover waits until it may take place (R550). -/
def State.planGo (s : State) : State :=
  match s.upd.plan with
  | none => s
  | some p =>
    if p.steps.any fun x => x.st == 1 then s
    else
      match p.next with
      | some (i, x) => if x.type = 0 ∧ s.handBlocked then s else s.stepBegin i x p.rolling
      | none =>
        if p.rolling then s.rollbackDone p
        else if p.soak.isSome then s
        else s.updMod fun u => { u with plan := some { p with soak := some s.time } }

/-- A rollback begins (R554): the step that runs is undone first. -/
def State.planBack (s : State) (failed : Nat) : State :=
  match s.upd.plan with
  | none => s
  | some p =>
    let run := p.steps.any fun x => x.st == 1 && !x.peer
    let steps := p.steps.map fun x => { x with st := if x.st = 1 then 2 else x.st, tries := if x.st = 1 then 0 else x.tries }
    let s := s.updMod fun u => { u with plan := some { p with steps := steps, rolling := true, soak := none, failed := failed }, push := [] }
    let s := if run then { s with glb := { s.glb with mgmtDown := false } } else s
    s.pressFwDone.planGo

/-- The step that runs ends (R552, R555): CONFIRMED, or UNDONE in a rollback. -/
def State.stepDone (s : State) : State :=
  match s.upd.plan with
  | none => s
  | some p =>
    match (p.steps.zipIdx.map fun e => (e.2, e.1)).find? fun e => e.2.st == 1 with
    | none => s
    | some (i, x) =>
      let s := s.stepPut i fun y => { y with st := if p.rolling then 3 else 2 }
      let s := if x.peer then s else s.procBack x.type
      let s := s.logC (changeOrigin p.st.ring 0xA) (if p.rolling then 4 else 3) p.st.no 0x0B05 0xA x.type
        (if p.rolling then x.newVer else x.oldVer) (if p.rolling then x.oldVer else x.newVer)
      s.planGo

/-- A new image finds the section of its settings (R556): an older one is migrated, a newer one is refused. -/
def State.migrate (s : State) (t : Nat) : Bool × State :=
  let v := rd (s.img t (s.activeSlot t)).hdr 32 4
  let have_ := (s.upd.sects[t - 1]?).getD 0
  if t = 0 ∨ 4 < t then (true, s)
  else if v < have_ then (false, s)
  else (true, s.updMod fun u => { u with sects := u.sects.set (t - 1) v })

/-- The step that runs, when it is one of this seat. -/
def State.stepNow (s : State) : Option PlanStep := s.upd.plan.bind fun p => p.steps.find? fun x => x.st == 1

/-- STEP_CONFIRMED (R552): the processor meets its condition within the deadline. -/
def State.stepConfirm (s : State) : State :=
  match s.stepNow with
  | none => s
  | some x =>
    if x.type = 0 ∨ 5 ≤ x.type then s
    else if x.peer then s.stepDone
    else
      let (good, s) := s.migrate x.type
      if good || s.upd.plan.any (·.rolling) then s.stepDone else s.planBack x.type

/-- STEP_CONFIRMED (R552). -/
def execStepConfirmed (s : State) : Out State := .next s.stepConfirm

/-- STEP_DEADLINE (R554): a step that misses its deadline starts the rollback; a rollback is tried again. -/
def execStepDeadline (s : State) : Out State :=
  .next (match s.upd.plan, s.stepNow with
    | some p, some x =>
      if p.rolling then
        match (p.steps.zipIdx.map fun e => (e.2, e.1)).find? fun e => e.2.st == 1 with
        | some (i, _) => (s.stepPut i fun y => { y with tries := y.tries + 1, at_ := s.time }).procReset x.type
        | none => s
      else s.planBack x.type
    | _, _ => s)

/-- The plan of a set of types (R550). `two`: the standby is ready; `peer`: this seat is that standby, so that the parts
change places. -/
def State.planSteps (s : State) (ts : List Nat) (two peer : Bool) : List PlanStep :=
  let mk := fun (p : Bool) (t : Nat) =>
    { type := t, peer := p, prior := s.activeSlot t, slot := s.spareSlot t, oldVer := imgVer (s.setHdr [] t),
      newVer := imgVer (s.setHdr [t] t) : PlanStep }
  let own := [1, 2, 3, 4].filter ts.contains
  let push := if ts.contains 5 then [5] else []
  let cfg := if ts.contains 6 then [6] else []
  if two then
    (own.map (mk !peer)) ++ [{ type := 0, peer := peer }] ++ (own.map (mk peer)) ++ (push.map (mk !peer)) ++ cfg.map (mk false)
  else (own ++ push ++ cfg).map (mk false)

/-- A plan begins (R550, R553). -/
def State.planStart (s : State) (st : Staged) (ts : List Nat) (two peer force : Bool) : State :=
  let no := s.upd.nextPlan
  let steps := s.planSteps ts two peer
  let p : UPlan := { no := no, st := st, steps := steps, force := force, settings := s.nvm, sects := s.upd.sects }
  let s := s.updMod fun u => { u with plan := some p, nextPlan := no + 1 }
  let s := steps.foldl (fun s x => if x.type = 0 then s
    else s.logC (changeOrigin st.ring 0xA) 2 st.no 0x0B05 0xA x.type x.oldVer x.newVer) s
  s.planGo

/-- UPD_ACTIVATE (R550, R551). -/
def execUpdActivate (r : Nat) (d : Desc) (s : State) : Out State :=
  .next (s.cmd r 0x0B05 d { priv := 3, standby := true, parOk := bits d.p0 0 6 != 0 } fun s =>
    let ts := imgTypes.filter fun t => bit d.p0 (t - 1)
    let two := s.token && s.on Reg.ROS_STAT_PREADY
    if s.upd.plan.isSome || s.prs.hier.isSome || !s.chs.lists.isEmpty then bad s 0x16
    else
      match ts.find? fun t => (s.img t (s.spareSlot t)).st != 2 with
      | some t => refuse s (14 + 256 * t)
      | none =>
        match stepFails (fun new _ => s.setGood new) [] ts with
        | some t => refuse s (11 + 256 * t)
        | none =>
          match if two || ts.contains 5 then ts.find? fun t => (two || t == 5) && !s.peersGood t else none with
          | some t => refuse s (12 + 256 * t)
          | none =>
            if (ts.contains 1 || ts.contains 2) && s.token && !two && !bit d.p1 0 then refuse s (13 + 256 * ts.headD 0)
            else
              let (n, s) := s.newChange
              let st : Staged := { no := n, block := 0xA, opcode := 0x0B05, target := bits d.p0 0 6, old := 0, new := 0,
                                   ring := r, due := s.leadPeriod, act := .own }
              staged ((s.changeSend st []).planStart st ts two false (bit d.p1 0)) n)

/-- The plan is committed (R555): PRIOR slots become READY, the prior settings are discarded. -/
def State.planCommit (s : State) (o : Origin) : State :=
  match s.upd.plan with
  | none => s
  | some p =>
    let s := imgTypes.foldl (fun s t => (List.range 2).foldl (fun s k =>
      if (s.img t k).st = 4 then s.imgMod t k fun y => { y with st := 2 } else s) s) s
    (s.logC o 3 p.st.no 0x0B06 0xA 0 0 p.no).planOver p 0

/-- Every step of the plan is CONFIRMED. -/
def State.planWhole (s : State) : Bool := s.upd.plan.any fun p => !p.rolling && p.steps.all fun x => x.st == 2

/-- UPD_COMMIT (R555). -/
def execUpdCommit (r : Nat) (d : Desc) (s : State) : Out State :=
  .next (s.cmd r 0x0B06 d { priv := 3, standby := true } fun s =>
    if s.planWhole then ok ((s.logC (.host r) 2 0 0x0B06 0xA 0 0 0).planCommit (.host r)) else refuse s 15)

/-- UPD_ROLLBACK (R555). -/
def execUpdRollback (r : Nat) (d : Desc) (s : State) : Out State :=
  .next (s.cmd r 0x0B07 d { priv := 3, standby := true } fun s =>
    match s.upd.plan with
    | none => refuse s 15
    | some p =>
      let (n, s) := s.newChange
      let s := s.logC (.host r) 2 n 0x0B07 0xA 0 p.no 0
      let s := s.updMod fun u => { u with plan := some { p with st := { p.st with no := n, opcode := 0x0B07 } } }
      staged (if p.rolling then s else s.planBack 0) n)

/-- SOAK_END (R555): SOAK minutes have passed with every step CONFIRMED, and AUTO is set. -/
def execSoakEnd (s : State) : Out State :=
  .next (if s.planWhole && s.on Reg.UPD_CTL_AUTO && s.get Reg.UPD_CTL_SOAK != 0 then s.planCommit (.fw 3) else s)

/-- What the journal shows at stage SETTINGS (R554): 0 nothing, 1 resumed, 2 rolled back, 3 the soak goes on. -/
def State.journal (s : State) : Nat × State :=
  match s.upd.plan with
  | none => (0, s)
  | some p =>
    match p.steps.find? fun x => x.st == 1 with
    | some x =>
      if !p.rolling && decide (2 ≤ x.tries) then (2, s.planBack x.type)
      else
        let s := s.updMod fun u => { u with plan := some { p with steps := p.steps.map fun y =>
          if y.st = 1 then { y with st := if p.rolling then 2 else 0 } else y } }
        (if p.rolling then 2 else 1, s.planGo)
    | none =>
      if p.soak.isSome then (3, s.updMod fun u => { u with plan := some { p with soak := some s.time } })
      else (1, s.planGo)

/-! ## The ring-node push (R547, R548) -/

/-- Changes the push of a ring. -/
def State.pushMod (s : State) (st : Nat) (f : Push → Push) : State :=
  s.updMod fun u => { u with push := match Tab.find u.push st with
    | some x => Tab.put u.push st (f x)
    | none => u.push }

/-- The body of the active ring-node image. -/
def State.nodeBody (s : State) : List Byte := (s.img 5 (s.activeSlot 5)).body

/-- IMGWRITE frames from offset `pos` on, at most `n` (R547): 28 body bytes each. -/
def State.pushWrite (s : State) (st : Nat) : Nat → Nat → State
  | 0, _ => s
  | n + 1, pos =>
    let b := s.nodeBody
    if b.length ≤ pos then s
    else
      let s := s.bupAll st 7 0 (le 4 pos ++ fit 28 ((b.drop pos).take 28))
      State.pushWrite s st n (pos + 28)

/-- The push of a ring ends; when no ring has one left, the step is CONFIRMED (R548). -/
def State.pushEnd (s : State) (st : Nat) : State :=
  let s := s.updMod fun u => { u with push := Tab.del u.push st }
  if s.upd.push.isEmpty && s.stepNow.any fun x => x.type == 5 && !x.peer then s.stepDone else s

/-- Each SNAP period (10 ms) a ring in NORMAL takes 25 IMGWRITE frames; then IMGCHECK goes to every node; then the nodes
swap one at a time, at least 100 ms apart, none while its string rests or the ring is split (R548). -/
def State.pushTick (s : State) (st : Nat) : State :=
  match Tab.find s.upd.push st with
  | none => s
  | some x =>
    let b := s.nodeBody
    let ns := (s.bring st).nodes.map (·.1)
    if !s.masters st || s.get (Reg.BUP_RSTAT_STATE st) != 1 then s
    else if x.step = 1 then
      if (s.bring st).fast then s
      else if x.pos < b.length then (s.pushWrite st 25 x.pos).pushMod st fun y => { y with pos := x.pos + 700 }
      else (s.bupAll st 8 0 (le 4 b.length ++ le 4 (crc32 b))).pushMod st fun y => { y with step := 2, left := ns }
    else if x.step = 3 then
      match x.left with
      | [] => s.pushEnd st
      | a :: _ =>
        if x.node ≠ 0 ∨ s.time < x.at_ + 100000000 ∨ (s.strX st).rest ≠ 0 then s
        else
          let s := (s.bupAll st 9 a []).bupAll st 8 a (zeros 8)
          s.pushMod st fun y => { y with node := a, at_ := s.time }
    else s

/-- The push of every ring, and a bundle whose imposition has come (R549, R550): once a boundary. -/
def State.planTick (s : State) : State :=
  let s := if s.time % 10000000 = 0 then (s.upd.push.map (·.1)).foldl State.pushTick s else s
  match s.upd.plan, s.stepNow with
  | some p, some x =>
    if x.type = 5 ∧ !x.peer ∧ s.upd.push.isEmpty then s.stepDone
    else if x.type = 6 ∧ x.due ≤ s.get Reg.CHS_PNUM then
      if p.rolling then s.stepDone
      else
        let rs := (bundleRecs ((s.img 6 (s.activeSlot 6)).body.length + 1) (s.img 6 (s.activeSlot 6)).body).getD []
        (rs.foldl (fun s r => s.applyRecord (changeOrigin p.st.ring 0xA) p.st.no r) s).stepDone
    else s
  | some _, none => s.planGo
  | none, _ => s

/-- One record of an IMGCHECK reply: address, result, running version (R547). -/
def State.checkRecord (s : State) (st : Nat) (r : List Byte) : State :=
  let a := rd r 0 1
  let v := rd r 4 4
  let s := if Tab.find (s.bring st).nodes a |>.isSome then s.nodeMod st a fun n => { n with fw := v } else s
  match Tab.find s.upd.push st with
  | none => s
  | some x =>
    if x.step = 2 ∧ x.left.contains a then
      if rd r 1 1 = 0 then
        let left := x.left.filter (· != a)
        s.pushMod st fun y => if left.isEmpty then { y with step := 3, left := (s.bring st).nodes.map (·.1) } else { y with left := left }
      else s.planBack 5
    else if x.step = 3 ∧ x.node = a ∧ v = x.ver then s.pushMod st fun y => { y with node := 0, left := y.left.filter (· != a) }
    else s

/-- The records of a reply, 8 bytes each. -/
def checkRecords : Nat → List Byte → List (List Byte)
  | 0, _ => []
  | n + 1, b => if b.length < 8 then [] else b.take 8 :: checkRecords n (b.drop 8)

/-- IMGCHECK (R547, R548). -/
def execImgcheck (ring port : Nat) (frame : List Byte) (s : State) : Out State :=
  .next (s.bupTake ring frame fun cmd _ _ _ recs s =>
    if cmd ≠ 8 ∨ !s.masters ring ∨ 1 < port then s
    else (checkRecords (recs.length + 1) recs).foldl (fun s r => s.checkRecord ring r) s)

/-- NODE_SWAP_TIMEOUT (R548): the node is given IMGSWAP again, and the step fails. -/
def execNodeSwapTimeout (ring : Nat) (s : State) : Out State :=
  .next (match Tab.find s.upd.push ring with
    | none => s
    | some x => if x.step = 3 ∧ x.node ≠ 0 then (s.bupAll ring 9 x.node []).planBack 5 else s)

/-! ## Flyleaf (R557) -/

/-- A Flyleaf command ends with a reason, 0 when good. -/
def State.flyDone (s : State) (reason : Nat) : State := s.updMod fun u => { u with flyStat := 2 + 4 * reason }

/-- OPEN: the header is the first 512 bytes of the window. -/
def State.flyOpen (s : State) (t : Nat) (win : List Byte) (sig : Bool) : State :=
  let (st, v, s) := s.imgOpen .flyleaf t (fit 512 win) sig
  s.flyDone (if st = 0 then 0 else if st = 0x1E then v else st)

/-- WRITE: FLY_LEN bytes of the window. -/
def State.flyWrite (s : State) (t len : Nat) (win : List Byte) : State :=
  match Tab.find s.upd.sess t with
  | none => s.flyDone 9
  | some x =>
    let s := s.updMod fun u => { u with sess := Tab.put u.sess t { x with body := x.body ++ fit len win, last := s.time }, flyLen := len }
    s.flyDone 0

/-- FINISH. -/
def State.flyFinish (s : State) (t : Nat) : State :=
  match Tab.find s.upd.sess t with
  | none => s.flyDone 9
  | some x =>
    let (reason, s) := s.imgFinish t x
    s.flyDone reason

/-- ABORT. -/
def State.flyAbort (s : State) (t : Nat) : State :=
  match Tab.find s.upd.sess t with
  | none => s.flyDone 9
  | some x => (s.unlockSlot t 0 x).flyDone 0

/-- In Flyleaf a command acts; elsewhere there is no such register (R557). -/
def State.inFly (s : State) (f : State → State) : State := if s.stage = 0xE then f s else s

/-- FLY_OPEN (R557). -/
def execFlyOpen (t : Nat) (win : List Byte) (sig : Bool) (s : State) : Out State := .next (s.inFly fun s => s.flyOpen t win sig)

/-- FLY_WRITE (R557). -/
def execFlyWrite (t len : Nat) (win : List Byte) (s : State) : Out State := .next (s.inFly fun s => s.flyWrite t len win)

/-- FLY_FINISH (R557). -/
def execFlyFinish (t : Nat) (s : State) : Out State := .next (s.inFly fun s => s.flyFinish t)

/-- FLY_ABORT (R557). -/
def execFlyAbort (t : Nat) (s : State) : Out State := .next (s.inFly fun s => s.flyAbort t)

end Sys2Proof.Machine
end

