-- ==== Sys2Proof/Machine/Reset.lean ====
section
/-!
DEFINITION. What a reset reaches and what outlives it (R55 to R59, R534, R604): the reset of every island, the reset of the
host island alone, and the commands that ask for one.
-/
namespace Sys2Proof.Machine

/-- What a start finds in the stores of the Colophon: records of open pages that were not committed are lost (R519). The
trigger definitions are settings. -/
def Col.kept (c : Col) : Col :=
  { log := c.log.take (c.log.length - c.openLog), slugs := c.slugs.take (c.slugs.length - c.openSlug),
    snaps := c.snaps.take (c.snaps.length - c.openSnap), posLog := c.posLog - c.openLog, posSlug := c.posSlug - c.openSlug,
    posSnap := c.posSnap - ((c.snaps.drop (c.snaps.length - c.openSnap)).map (·.2.length)).foldl (· + ·) 0,
    triggers := c.triggers, cseq := c.cseq, pageBank := c.pageBank }

/-- The registers that outlive a reset of every island: GLB_RSTCAUSE (R593), the image sequences and newest banks of the
stores (R517), the spare banks and rows of the stacks (R574), and while the rails stay up those of the reservoir (R604). -/
def keptKey (rails : Bool) (k : Nat) : Bool :=
  let a := k / 32 % 0x100000
  let lo := k % 32
  a == 0x20 || (rails && a == 0x5C) ||
    (decide (0x90100 ≤ a ∧ a < 0x901A0) && (a % 32 == 4 || a % 32 == 12 || (a % 32 == 0 && lo == 0))) ||
    (decide (0x20100 ≤ a ∧ a < 0x20200) && a % 64 == 8 && decide (12 ≤ lo))

/-- What outlives a reset of a unit in the spare maps: its state, its failures and its wear counts (R574); shelf time begins
again, so a happening of wear counts from there on. -/
def UnitX.kept (x : UnitX) : UnitX := { x with wear := x.wear.map fun _ => 0 }

/-- What outlives a reset of the update block: slots, journal, floors, section versions; a LOCKED slot becomes EMPTY, and
its session is gone (R541, R546). -/
def Upd.kept (u : Upd) : Upd :=
  { slots := u.slots.map fun e => (e.1, if e.2.st = 1 then {} else e.2), plan := u.plan, nextPlan := u.nextPlan,
    floors := u.floors, sects := u.sects }

/-- Every island returns to its reset values (R55): what the settings store, the flash stores and the pins hold stays. `rails`
says that the rails, the reservoir charger and the oscillator of Errata stay up. -/
def State.coldReset (s : State) (code : Nat) (rails : Bool) : State :=
  { State.reset with
    regs := loadNvm (fun _ => true) s.nvm (s.regs.filter fun e => keptKey rails e.1)
    nvm := s.nvm, nv := s.nv, chgNext := if code = 1 then 1 else s.chgNext
    glb := { present := s.glb.present, inrush := s.glb.inrush, powered := rails, flyNext := s.glb.flyNext, resetCode := code
             sources := if code = 1 then [] else s.glb.sources }
    hst := { perst := s.hst.perst, perstPend := s.hst.perstPend }
    col := s.col.kept
    spr := { units := s.spr.units.map fun e => (e.1, e.2.kept) }
    prs := { bankRows := s.prs.bankRows, banksSpared := s.prs.banksSpared, store := s.prs.store, prevStore := s.prs.prevStore }
    est := s.est, upd := s.upd.kept, free := s.free, out := s.out, pending := s.pending }

/-- ALIVE and HB_OUT fall and UART_TX is high, as in every reset (R38, R52). -/
def State.pinsLow (s : State) : State := ((s.emit (.pin .alive false)).emit (.pin .hbOut false)).emit (.pin .uartTx true)

/-- Powered islands are in reset until their stage of the start (R598). -/
def State.islands (s : State) : State := (s.set Reg.GLB_ISL_PWR_ISL 0x1FFF).set Reg.GLB_ISL_RST_ISL 0x1FFF

/-- Islands leave reset (R598): the bits of `ks` clear. -/
def State.islandsRun (s : State) (ks : List Nat) : State :=
  s.set Reg.GLB_ISL_RST_ISL (ks.foldl (fun v k => setBit v k false) (s.get Reg.GLB_ISL_RST_ISL))

/-- A reset of code 0x04 or 0x07 (R55): every island but the Colophon, which the reset reaches once every open page is
committed (R534). The PCIe link trains again (R604). -/
def State.moduleReset (s : State) (code : Nat) : State :=
  -- a reset that reaches Errata ends the unlock, and with it every injection (R482)
  let s := if s.on Reg.ERA_STAT_UNLOCKED then s.lock 0x10000 else s
  let t := s.pinsLow.coldReset code true
  let regs := (s.regs.filter fun e => keyBlock e.1 == 9).foldl (fun t e => Tab.put t e.1 e.2) t.regs
  ({ t with regs := regs, col := { s.col with resetWait := some code, committing := true, waiting := [], captures := [] } }).islands

/-- The reset reaches the Colophon, and every island leaves it (R534, R604). -/
def State.resetGoes (s : State) (code : Nat) : State :=
  ((if s.glb.alive || s.glb.hbOut then s.pinsLow else s).coldReset code true).islands

/-- OPEN_PAGES_COMMITTED (R518, R534, R537): COL_COMMIT completes; a reset that waits goes on. -/
def State.openCommitted (s : State) : State :=
  let ws := s.col.waiting
  let s := (s.pagesDone).colMod fun c => { c with waiting := [], committing := false }
  let s := ws.foldl (fun s w => s.completeLate w.1 0x0A05 w.2 0 0 0) s
  match s.col.resetWait with
  | some code => s.resetGoes code
  | none => s

/-- OPEN_PAGES_COMMITTED (R534). -/
def execOpenPagesCommitted (s : State) : Out State :=
  .next (if s.col.committing ∧ s.col.finalCommit = 0 then s.openCommitted else s)

/-! ## The host island alone (R55, R58) -/

/-- A register field that lies in the host island: the HST block but for the ingest registers, which keep their values (R148), and the
counters of set 5, which every reset of their island clears (R563). -/
def hostKey (k : Nat) : Bool :=
  let a := k / 32 % 0x100000
  (keyBlock k == 1 && !decide (0x10100 ≤ a ∧ a < 0x10140)) || decide (0xB0600 ≤ a ∧ a < 0xB0660)

/-- What the reset of the host island clears: endpoint, ring contexts, MSI-X table, doorbells, and its counters. The SEQ check of the
streams is relaxed (R139). Commands that have begun complete nothing. -/
def State.hostReset (s : State) (link : Bool) : State :=
  let s := s.resetFields hostKey
  { s with
    rings := []
    hst := { perst := s.hst.perst, perstPend := s.hst.perstPend, linkUp := link && s.hst.linkUp }
    ing := { s.ing with streams := s.ing.streams.map fun e => (e.1, { e.2 with anySeq := true }), ringTime := [] }
    col := { s.col with waiting := [] }
    -- a PRF_ZERO that has begun clears all the same
    prf := { s.prf with waiting := (s.prf.waiting.filter fun w => w.1 == 0x0C01).map fun w => (w.1, 16384, w.2.2)
                        lo := s.prf.lo.filter fun e => e.1 / 8 != 5 }
    prs := { s.prs with runs := s.prs.runs.map fun r => { r with cmd := none } }
    spr := { s.spr with repair := s.spr.repair.map fun p => { p with ring := 16384 } }
    glb := { s.glb with modReset := none } }

/-- PERST_ASSERT (R55): the host island goes into reset, and stays in it while PERST# is asserted. -/
def execPerstAssert (s : State) : Out State :=
  .next (
    let s := s.hostReset false
    let s := { s with hst := { s.hst with perst := true, perstPend := false }, glb := { s.glb with hostUp := false } }
    s.set Reg.GLB_ISL_RST_ISL (setBit (s.get Reg.GLB_ISL_RST_ISL) 7 true))

/-- PERST_DEASSERT (R47, R593): before the PCIe rails are up it is held; a reset of the host island ends with it. -/
def execPerstDeassert (s : State) : Out State :=
  .next (
    if !s.hst.perst then s
    -- the PCIe rails come up with POWER_ON, as the last step of R46 that concerns them (log entry 56)
    -- and down with the power-down of the loss sequence (R49)
    else if !s.glb.powered || decide (2 ≤ s.glb.lossStep) then { s with hst := { s.hst with perstPend := true } }
    else
      -- a start that stands at stage CHASE reaches HOST by its own row (R60)
      let up := s.glb.hostSeen && decide (s.stage ≠ 0xE ∧ s.stage ≠ 4 ∧ !(s.halted && s.glb.preHalt == 4))
      let s := { s with hst := { s.hst with perst := false, perstPend := false }, glb := { s.glb with hostUp := up } }
      let s := if up then s.islandsRun [7] else s
      if 1 ≤ s.stage then s.resetMark 2 else s)

/-- FUNCTION_LEVEL_RESET (R55): as PERST#, with the link kept up. -/
def execFunctionLevelReset (s : State) : Out State := .next ((s.hostReset true).resetMark 3)

end Sys2Proof.Machine
end

