-- ==== Sys2Proof/Machine/Power.lean ====
section
/-!
DEFINITION. Power, pins and the module's own measurements: the 54 V input and the loss sequence (R26 to R52), straps (R39,
R40), the meter link (R41, R42), cooling inputs and junctions (R43, R54), the test port (R44), the clock windows and the
crossings (R22, R24).
-/
namespace Sys2Proof.Machine

/-! ## The input measurement (R26, R31, R32, R597) -/

/-- The 100 us means with their extremes since reset (R597). -/
def State.inputMeans (s : State) (vin iin pin : Nat) : State :=
  let low := if s.get Reg.GLB_VIN_EXT = 0 then vin else min vin (s.get Reg.GLB_VIN_EXT)
  let s := (s.set Reg.GLB_VIN_VALUE vin).set Reg.GLB_VIN_EXT low
  let s := (s.set Reg.GLB_IIN_VALUE iin).set Reg.GLB_IIN_EXT (max iin (s.get Reg.GLB_IIN_EXT))
  (s.set Reg.GLB_PIN_VALUE pin).set Reg.GLB_PIN_EXT (max pin (s.get Reg.GLB_PIN_EXT))

/-- Training sorts are deferred for a reason, or no longer for it (R26, R31, R32, R54). -/
def State.deferFor (s : State) (why : Nat) (b : Bool) : State :=
  let xs := s.trn.defer.filter (· != why)
  s.trnMod fun t => { t with defer := if b then why :: xs else xs }

/-- INPUT_POWER_LIMIT (R26): 820 W is reached, or the input has fallen below 800 W. -/
def execInputPowerLimit (reached : Bool) (vin iin pin : Nat) (s : State) : Out State :=
  .next ((s.inputMeans vin iin pin).pwrChange fun s => (s.deferFor 1 reached).setB Reg.GLB_PWRSTAT_DEFP reached)

/-- INPUT_LOW (R32): below 48.0 V for 1 ms, or no longer. -/
def execInputLow (low : Bool) (vin iin pin : Nat) (s : State) : Out State :=
  .next (((s.inputMeans vin iin pin).pwrChange fun s => (s.deferFor 3 low).setB Reg.GLB_PWRSTAT_DEFL low).level (detN 3 1) 0 0 low)

/-- INPUT_CURRENT_LIMIT (R31): level 1 is 15.4 A reached, 2 is 16.0 A reached, 0 is below 15.0 A again. At 16.0 A with
training deferred already, detector 3.2 is raised and the Press is capped until the excursion ends. -/
def State.currentLimit (s : State) (level : Nat) : State :=
  let was := !s.trn.defer.isEmpty
  let s := s.pwrChange fun s =>
    let s := (s.deferFor 2 (level != 0)).setB Reg.GLB_PWRSTAT_DEFI (level != 0)
    let cap := decide (level ≠ 0) && (s.prs.i4Cap || (decide (2 ≤ level) && was))
    (s.prsMod fun p => { p with i4Cap := cap }).setB Reg.GLB_PWRSTAT_CAP4 cap
  if level = 0 then s.levelOff (detN 3 2) else if 2 ≤ level ∧ was then s.levelOn (detN 3 2) 0 0 else s

/-- INPUT_CURRENT_LIMIT (R31). -/
def execInputCurrentLimit (level vin iin pin : Nat) (s : State) : Out State :=
  .next ((s.inputMeans vin iin pin).currentLimit level).settle

/-! ## Power on (R28, R46, R48) -/

/-- The rails and islands are brought up in the order of R46; the charger starts, and a deassertion of PERST# that was held until the
PCIe rails are up takes effect (R47). -/
def State.powerOn (s : State) : State :=
  if !s.glb.present || s.glb.powered then s
  else
    let s : State := { s with glb := { s.glb with powered := true, inrush := true, resetCode := 1, inputBack := false }
                              hst := { s.hst with perst := s.hst.perst && !s.hst.perstPend, perstPend := false } }
    s.islands.set Reg.GLB_VRSV_CHARGING 1

/-- POWER_ON (R46). -/
def execPowerOn (s : State) : Out State := .next s.powerOn

/-- PRESENT_CLOSE (R28): the module is inserted, and its inrush limiter may conduct. -/
def execPresentClose (s : State) : Out State := .next { s with glb := { s.glb with present := true, inrush := true } }

/-- The reservoir has a voltage, in 10 mV: RES follows 40.0 V (R48, R61). -/
def State.vrsv (s : State) (v : Nat) : State := (s.set Reg.GLB_VRSV_VRSV v).setReady Reg.GLB_BOOTSTAT_RES (b2n (decide (4000 ≤ v)))

/-- The reservoir charges (R48). -/
def State.reservoir (s : State) (vrsv : Nat) : State :=
  let s := (s.vrsv vrsv).setB Reg.GLB_VRSV_CHARGING (decide (vrsv < 5200))
  if 4000 ≤ vrsv then s.levelOff (detN 3 9) else s

/-- RESERVOIR_CHARGED (R48). -/
def execReservoirCharged (vrsv : Nat) (s : State) : Out State := .next (if s.glb.powered then s.reservoir vrsv else s)

/-! ## Loss of input power (R49 to R51) -/

/-- Loss of input power is declared (R49): by 1 R32, 2 R28. The power-loss detector halts the module, the reservoir feeds the
12 V bus, FEN_P/N and the heartbeat tones stop, and UART_TX is high (R52). -/
def State.lossStart (s : State) (by_ : Nat) : State :=
  if !s.glb.powered || s.glb.lossStep != 0 then s
  else
    let s : State := { s with glb := { s.glb with lossStep := 1, lossBy := by_, fenOn := false, inputBack := false,
                                                  tone := [false, false, false, false]
                                                  toneRet := [false, false, false, false] } }
    let s := (s.set Reg.GLB_VRSV_HOLDUP 1).set Reg.GLB_VRSV_CHARGING 0
    ((s.emit (.pin .uartTx true)).raise (detN 3 0) 0 0).settle

/-- INPUT_LOSS (R32): below 44.0 V for 20 us. -/
def execInputLoss (vin vrsv : Nat) (s : State) : Out State :=
  .next (((s.set Reg.GLB_VIN_VALUE vin).vrsv vrsv).lossStart 1)

/-- PRESENT_OPEN (R28). -/
def execPresentOpen (s : State) : Out State :=
  .next (
    let s : State := { s with glb := { s.glb with present := false, inrush := s.glb.inrush && s.glb.powered } }
    s.lossStart 2)

/-- Press, spine, stacks, PCIe, stage links and management cores 1 to 3 are powered down (R49, R52). -/
def State.powerDown (s : State) : State :=
  let s : State := { s with glb := { s.glb with stlIdle := true, safeLeft := 0, hostUp := false },
                            hst := { s.hst with linkUp := false, busMaster := false } }
  let s := ((s.setReady Reg.GLB_BOOTSTAT_PRESS 0).setReady Reg.GLB_BOOTSTAT_LINKS 0).setReady Reg.GLB_BOOTSTAT_ROSCOR 0
  let s := (s.prsMod fun p => { p with runs := [], discard := true }).set Reg.ROS_STAT_UP 0
  s.set Reg.GLB_ISL_PWR_ISL ([0, 1, 2, 3, 4, 7].foldl (fun v k => setBit v k false) (s.get Reg.GLB_ISL_PWR_ISL))

/-- LOSS_SEQUENCE (R49, R533): the next row of the sequence. -/
def State.lossNext (s : State) : State :=
  let to_ := fun (s : State) (n : Nat) => { s with glb := { s.glb with lossStep := n } }
  match s.glb.lossStep with
  | 1 => to_ s.powerDown 2
  | 2 => to_ (s.lossSnap []) 3
  | 3 => to_ ((List.range 4).foldl (fun s st => s.cyclesKeep st) s).finalBegin 4
  | 4 => if s.col.finalCommit = 2 then to_ s 5 else s
  | _ => s

/-- LOSS_SEQUENCE (R49). -/
def execLossSequence (s : State) : Out State := .next s.lossNext

/-- INPUT_RETURN (R50): the sequence completes before the module starts again. -/
def execInputReturn (s : State) : Out State :=
  .next (if s.glb.lossStep = 0 then s else { s with glb := { s.glb with inputBack := true } })

/-- RESERVOIR_EXHAUSTED (R51): at 20.0 V a commit that has not completed is lost. -/
def execReservoirExhausted (s : State) : Out State :=
  .next (
    let s := s.vrsv 2000
    if s.glb.lossStep ≠ 0 ∧ s.col.finalCommit ≠ 2 then { s with glb := { s.glb with exhausted := true } } else s)

/-- All rails go off (R49), once the final commit and the clean-shutdown mark are done, or the reservoir is exhausted (R51); when the input has returned, the module starts from the beginning of R46 (R50). -/
def State.railsOff (s : State) : State :=
  if !s.glb.exhausted ∧ (s.glb.lossStep < 4 ∨ s.col.finalCommit ≠ 2) then s
  else
    let back := s.glb.inputBack && s.glb.present
    let s := s.pinsLow.coldReset 1 false
    let s : State := { s with glb := { s.glb with inrush := s.glb.present, flyNext := false } }
    if back then s.powerOn else s

/-- RAILS_OFF (R49). -/
def execRailsOff (s : State) : Out State := .next s.railsOff

/-! ## Straps (R39, R40) -/

/-- The live straps. -/
def State.liveStraps (s : State) (seat pos idpar : Nat) : State :=
  ((s.set Reg.GLB_SEAT_LSEAT seat).set Reg.GLB_SEAT_LPOS pos).set Reg.GLB_SEAT_LIDPAR idpar

/-- The number of ones in three bits. -/
def ones3 (n : Nat) : Nat := bits n 0 1 + bits n 1 1 + bits n 2 1

/-- Errata leaves reset: the straps are sampled and stage ROM begins (R39, R60); the reset cause is written (R593). -/
def State.errataStarts (s : State) (seat pos idpar : Nat) : State :=
  let s := s.islandsRun [12]
  let s := (s.liveStraps seat pos idpar).set Reg.GLB_SEAT_SEAT seat
  let s := ((s.set Reg.GLB_SEAT_POS pos).set Reg.GLB_SEAT_IDPAR idpar).set Reg.GLB_SEAT_RANK (2 * pos + seat)
  let s := (s.set Reg.GLB_SEAT_PAROK ((seat + ones3 pos + idpar) % 2)).set Reg.GLB_SEAT_CHANGED 0
  let s := s.setStage 0
  if s.glb.resetCode = 1 then
    let s : State := { s with glb := { s.glb with sources := [1] } }
    let s := (s.set Reg.GLB_RSTCAUSE_CAUSE 1).set Reg.GLB_RSTCAUSE_PREV 0
    ((s.set Reg.GLB_RSTCAUSE_COUNT 0).set Reg.GLB_RSTCAUSE_MULTI 0).resetEnds
  else s.resetMark s.glb.resetCode

/-- ERRATA_LEAVES_RESET (R39): once for each reset of every island, after the commit of R534. -/
def execErrataLeavesReset (seat pos idpar : Nat) (s : State) : Out State :=
  .next (if s.glb.powered && bit (s.get Reg.GLB_ISL_RST_ISL) 12 && s.col.resetWait.isNone then s.errataStarts seat pos idpar else s)

/-- STRAP_CHANGE (R40): the sampled values stay. -/
def execStrapChange (seat pos idpar : Nat) (s : State) : Out State :=
  .next (
    let same := s.get Reg.GLB_SEAT_LSEAT == seat && s.get Reg.GLB_SEAT_LPOS == pos && s.get Reg.GLB_SEAT_LIDPAR == idpar
    if same then s else ((s.liveStraps seat pos idpar).set Reg.GLB_SEAT_CHANGED 1).raise (detN 5 1) 0 0)

/-! ## Junctions and cooling inputs (R43, R54) -/

/-- A die has a junction temperature, in 0.1 C: it is shown with its greatest value since reset. -/
def State.showTemp (s : State) (die : Nat) (t : Int) : State :=
  if die < 4 then
    (s.setS (Reg.PRS_TB_TEMP_TJ die) t).setS (Reg.PRS_TB_TEMP_MAX die) (max t (s.getS (Reg.PRS_TB_TEMP_MAX die)))
  else if die = 4 then s.setS Reg.GLB_TEMP_TJMAIN t
  else s.setS Reg.GLB_TEMP_TREG t

/-- A junction, or the hottest regulator (die 5), is measured (R54). -/
def State.junction (s : State) (die : Nat) (t : Int) : State :=
  let s := s.showTemp die t
  if 5 ≤ die then s.level (detN 4 5) 0 0 (decide (1100 < t))
  else
    let s : State := { s with watch := { s.watch with hot := Tab.put s.watch.hot die (t + 1000).toNat } }
    let cool := s.watch.hot.all fun e => decide (e.2 < 1900)
    let s := if 950 ≤ t then s.pwrChange fun s => (s.deferFor 4 true).set Reg.GLB_PWRSTAT_DEFT 1
      else if cool then s.pwrChange fun s => (s.deferFor 4 false).set Reg.GLB_PWRSTAT_DEFT 0
      else s
    (s.level (detN 4 die) (if 1150 ≤ t then 2 else 0) die (decide (1050 ≤ t))).settle

/-- JUNCTION_TEMP (R54). -/
def execJunctionTemp (die : Nat) (t : Int) (s : State) : Out State := .next (s.junction die t)

/-- An NTC that is open or shorted (R43). -/
def ntcBad (v : Nat) : Bool := v == 0x7FFF || v == 0x8000

/-- COOLING_SAMPLE (R43). -/
def execCoolingSample (tach0 tach1 flow tin tout : Nat) (s : State) : Out State :=
  .next (
    let s := (s.set Reg.CHS_COOL_TACH_LO tach0).set Reg.CHS_COOL_TACH_HI tach1
    let s := ((s.set Reg.CHS_COOL_FLOW_LO flow).set Reg.CHS_COOL_TEMP_LO tin).set Reg.CHS_COOL_TEMP_HI tout
    (s.coolBits.level (detN 4 6) 0 0 (ntcBad tin)).level (detN 4 7) 0 0 (ntcBad tout))

/-! ## The meter link (R41, R42) -/

/-- Grid power of a frame, in W: the sum of the phases' products at 25 mV and 25 mA, not below 0 (log entry 22). -/
def framePower (f : List Byte) : Nat :=
  let v := fun (o : Nat) => toS 16 (rd f o 2)
  (divRne ((v 2 * v 8 + v 4 * v 10 + v 6 * v 12) * 625) 1000000).toNat

/-- A frame is discarded: counted, and detector 16.1 is raised; a run of frames taken ends. -/
def State.meterDrop (s : State) : State :=
  let s : State := { s with watch := { s.watch with meterBad := s.watch.meterBad + 1 }, glb := { s.glb with meterRun := 0 } }
  s.raise (detN 16 1) 0 0

/-- A frame is taken, `d` ahead of the last one taken, none when there is none: the numbers passed over are lost. The grid
measurement becomes valid with 16 frames in a row, each 1 ahead of the frame before it. -/
def State.meterTake (s : State) (f : List Byte) (d : Option Nat) : State :=
  let run := if d = some 1 then s.glb.meterRun + 1 else 0
  let s : State := { s with watch := { s.watch with meterLost := s.watch.meterLost + (d.getD 1 - 1) }
                            glb := { s.glb with meterSeq := some (rd f 1 1), meterTime := s.time, meterMiss := 0,
                                                meterRun := run, meterW := framePower f, meterOk := s.glb.meterOk || decide (16 ≤ run) } }
  if s.glb.meterOk then s.levelOff (detN 16 0) else s

/-- A meter frame (R41, R42). DESIGN CHOICE (unsafe): a frame with a good CRC whose sync byte is not 0x5A, for which the manual gives no
outcome, is discarded as one with a bad CRC is (log entry 98). -/
def State.meterFrame (s : State) (f : List Byte) : State :=
  if !s.glb.chaseUp then s
  else if rd f 0 1 ≠ 0x5A ∨ crc32 (f.take 16) ≠ rd f 16 4 then s.meterDrop
  else
    match s.glb.meterSeq with
    | none => s.meterTake f none
    | some q =>
      let d := (rd f 1 1 + 256 - q % 256) % 256
      if 1 ≤ d ∧ d ≤ 16 then s.meterTake f (some d) else s.meterDrop

/-- METER_FRAME (R42). -/
def execMeterFrame (f : List Byte) (s : State) : Out State := .next (s.meterFrame f)

/-- METER_TIMEOUT (R42). -/
def execMeterTimeout (s : State) : Out State :=
  .next (if s.glb.chaseUp then (s.meterBad.levelOn (detN 16 0) 0 0).settle else s)

/-! ## The test port (R44) -/

/-- TDO is driven: it is at high impedance in reset and in the loss sequence (R52). -/
def State.tdoOn (s : State) : Bool := s.glb.powered && !bit (s.get Reg.GLB_ISL_RST_ISL) 12 && s.glb.lossStep == 0

/-- A word goes out on TDO, where it is driven. -/
def State.tdoOut (s : State) (v : Nat) : State := if s.tdoOn then s.emit (.tdo v) else s

/-- TAP_IDCODE (R44). -/
def execTapIdcode (s : State) : Out State := .next (s.tdoOut 0x29640A5F)

/-- TAP_BYPASS (R44): the bypass register delays TDI by one bit. -/
def execTapBypass (tdi : Bool) (s : State) : Out State :=
  .next (if s.glb.powered then { (s.tdoOut (b2n s.glb.bypass)) with glb := { s.glb with bypass := tdi } } else s)

/-! ## Clocks and crossings (R22, R24) -/

/-- The window of one clock: its deviation is shown; out of tolerance in two windows in a row, or stopped, it raises its
detector (R22). Entry 12 is the 25 MHz reference measured against Errata's own oscillator: out of tolerance raises 0.1,
stopped raises 1.12. -/
def State.clockOne (s : State) (k : Nat) (ppm : Int) (stopped : Bool) : State :=
  -- an injected clock fault offsets the measured count, by how much is open (R482)
  let hit := s.era.injections.any fun x => x.det == (if k < 12 then detN 1 k else detN 0 1)
  let (z, s) := if hit then s.draw else (0, s)
  let ppm := if hit then ((5001 + z % 900000 : Nat) : Int) else ppm
  let s := s.setS (Reg.ERA_CLKDEV k) ppm
  let n := if 5000 < ppm.natAbs then Tab.get s.watch.clkBad k 0 + 1 else 0
  let s : State := { s with watch := { s.watch with clkBad := Tab.put s.watch.clkBad k n } }
  if k < 12 then s.level (detN 1 k) 0 k (stopped || decide (2 ≤ n))
  else (s.level (detN 0 1) 0 0 (decide (2 ≤ n))).level (detN 1 12) 0 12 stopped

/-- CLOCK_CHECK_WINDOW (R22). -/
def execClockCheckWindow (ppm : List Int) (stopped : List Nat) (s : State) : Out State :=
  .next ((ppm.zipIdx.foldl (fun s e => s.clockOne e.2 e.1 (stopped.contains e.2)) s).settle)

/-- The transfer that missed its window on crossing `c` is discarded (R24): the last trace or score record; the start of the press cycle at the
textblocks, whose PROOF and PLAN runs do not begin; the last result to the galley; the proof to Chase (R265); the last state copy
to the peer. On the other crossings (cell samples, detector events, safe requests, Fennal frames, snapshot words, register
writes) a transfer that misses is one that no command brings: the destination keeps what it had (log entry 95). -/
def State.crossingDrop (s : State) (c : Nat) : State :=
  match c with
  | 0 => s.recordMissed
  | 1 => s.prsMod fun p => { p with
      discard := true
      runs := p.runs.filter fun r => !(decide (r.kind ≤ 1) && r.cycle == s.get Reg.PRS_GAL_CYC) }
  | 2 => s.emitDrop
  | 3 => s.proofMissed
  | 5 => { s with out := (s.out.reverse.eraseP fun o => match o with
      | .roscor 2 _ => true
      | _ => false).reverse }
  | _ => s

/-- A miss of crossing `c` (R24): its transfer is discarded, it is counted and raised; the third in a row and those after it at halt or
degrade class. -/
def State.crossingMiss (s : State) (c : Nat) (first : Bool) (inj : Bool := false) : State :=
  let s := (s.crossingDrop c).missRaise c first inj
  if c = 7 ∧ s.halted ∧ 0 < s.glb.safeLeft then { s with glb := { s.glb with safeLeft := 10 } } else s

/-- CROSSING_MISS (R24). -/
def execCrossingMiss (c : Nat) (first : Bool) (s : State) : Out State := .next (s.crossingMiss c first).settle

end Sys2Proof.Machine
end

