-- ==== Sys2Proof/Machine/Seats.lean ====
section
/-!
DEFINITION. The rows of the seats and the Roscor link: the frames of the peer, the token, the shadow law, planned handovers
and proving runs, and the commands (R488 to R514).
-/
namespace Sys2Proof.Machine

/-- The Roscor link has gone down, and seat lock with it (R489, R496). -/
def State.roscorFall (s : State) : State := (s.roscorDown.rosMod fun r => { r with lockRun := 0 }).set Reg.ROS_STAT_LOCK 0

/-- A frame of the peer (R490): one with a bad CRC is counted and dropped, and the eighth of a period takes the link down (R489); none
comes while the link is down. -/
def State.rosFrame (s : State) (good : Bool) (f : State → State) : State :=
  if !s.on Reg.ROS_STAT_UP then s
  else if good then f s
  else
    let s := (s.bump Reg.ROS_CRC).rosMod fun r => { r with bad := r.bad + 1 }
    if s.ros.bad = 8 then s.roscorFall else s

/-! ## HB (R494, R496, R497) -/

/-- The clock correction that steers φ to 0, in 0.1 ppm (R496). -/
def steer (phi : Int) : Int := if 1000 < phi then 2000 else if phi < -1000 then -2000 else 2 * phi

/-- Seat lock from one HB frame (R496, R497): offset, phase error, correction, LOCK and, while it stands, Δp and Δk. -/
def State.seatLock (s : State) (pnum ta rx : Nat) : State :=
  let o : Int := (ta : Int) + (s.get Reg.ROS_LAT_NS : Nat) - (rx : Int)
  let phi := (o + 10000) % 20000 - 10000
  let s := ((s.setS Reg.ROS_SOFS o).setS Reg.ROS_PHERR_PHI (satS 16 phi)).setS Reg.ROS_PHERR_CORR (steer phi)
  let s := s.rosMod fun r => { r with lockRun := if phi.natAbs ≤ 20 then r.lockRun + 1 else 0 }
  let s := if 100 < phi.natAbs then s.set Reg.ROS_STAT_LOCK 0 else if 16 ≤ s.ros.lockRun then s.set Reg.ROS_STAT_LOCK 1 else s
  if s.on Reg.ROS_STAT_LOCK then
    let dp : Int := (pnum : Int) - (s.get Reg.CHS_PNUM : Nat)
    let dk : Int := (o - phi) / 20000
    s.set Reg.ROS_DPNUM (ofS 32 dp + 2 ^ 32 * ofS 32 dk)
  else s

/-- ROSCOR is set, and the peer's seat and position are held against this seat's (R40, R67). No frame carries the position: whether it is
the same is open, a free value drawn as ROSCOR becomes set (log entry 63). -/
def State.seatJudge (s : State) (same : Bool) : State :=
  let s := if s.on Reg.GLB_BOOTSTAT_ROSCOR then s else let (z, s) := s.draw; s.rosMod fun r => { r with posBad := z % 2 == 1 }
  (s.setReady Reg.GLB_BOOTSTAT_ROSCOR 1).level (detN 5 2) 0 0 (same || s.ros.posBad)

/-- HB (R40, R61, R494, R496, R501, R502, R511). -/
def State.hbIn (s : State) (flags pnum : Nat) (p : List Byte) (rx : Nat) : State :=
  if !bit flags 1 then s
  else
    let h : PeerHb := { token := bit flags 2, stage := rd p 8 1, flags := rd p 9 1, epoch := rd p 10 2, chg := rd p 12 4,
                        lastCp := rd p 16 8, sameSeat := decide (flags % 2 = s.get Reg.GLB_SEAT_SEAT) }
    let s := s.seatJudge h.sameSeat
    let s := s.rosMod fun r => { r with hb := some h, got := true }
    let s := (s.peerReady (bit h.flags 0)).set Reg.ROS_STAT_PSTAGE h.stage
    let s := if s.standby && h.token then s.seatLock pnum (rd p 0 8) rx else s
    let s := if s.on Reg.ROS_STAT_CFGLAG && h.chg == s.ros.imposed then s.set Reg.ROS_STAT_CFGLAG 0 else s
    match s.ros.prove with
    | some v =>
      if v.prover && !bit h.flags 6 && decide (v.start + 3 * s.periodNs < s.time) then s.proveReturn else s
    | none => s

/-- HB (R496). -/
def execHb (good : Bool) (flags _seq pnum : Nat) (p : List Byte) (rx : Nat) (s : State) : Out State :=
  .next (s.rosFrame good fun s => s.hbIn flags pnum p rx)

/-! ## STATE (R493, R504, R609) -/

/-- A new holder whose first law has not begun takes the copy of the period just ended, when it comes by cycle 320 and the
period is 5.000 us or 10.0 us (R504). -/
def State.lateCopy (s : State) (n : Nat) (p : List Byte) (cyc : Nat) : State :=
  if s.token && s.chs.gap && decide (cyc ≤ 320 ∧ 1000 ≤ s.get Reg.CHS_PERIOD_CYC ∧ s.get Reg.ROS_LASTCP < n) then
    (s.loadCopy p).set Reg.ROS_LASTCP n
  else s

/-- STATE (R488, R493, R499, R609): a whole copy of period `n` of the holder, complete at cycle `cyc`. -/
def State.stateIn (s : State) (flags : Nat) (p : List Byte) (cyc : Nat) : State :=
  if !bit flags 1 then s
  else
    let n := rd p 0 8
    if !s.standby then s.lateCopy n p cyc
    else
      let s := if 320 < cyc then s.bump Reg.ROS_LATE else s
      let s := (s.set Reg.ROS_LASTCP n).rosMod fun r =>
        { r with copies := ((n, p) :: r.copies.filter fun e => e.1 != n).take 2, copyGot := true,
                 held := ((n, rd p 12 4) :: r.held).take 8 }
      (s.loadPhases p).dutyCompare n

/-- STATE (R493). -/
def execState (good : Bool) (flags _seq _pnum : Nat) (p : List Byte) (cyc : Nat) (s : State) : Out State :=
  .next (s.rosFrame good fun s => s.stateIn flags p cyc)

/-! ## TAKEOVER and LEAVING (R491, R503, R509) -/

/-- TAKEOVER (R503, R509): kind 1 asks for a takeover; the others name the boundary of a planned handover. -/
def State.takeoverIn (s : State) (p : List Byte) : State :=
  let k := rd p 0 1
  if !s.standby || s.haltSet then s
  else if k = 1 then s.rosMod fun r => { r with asked := true }
  else if 2 ≤ k ∧ k ≤ 5 then
    s.rosMod fun r => { r with hand := some { kind := k, at_ := s.ownPeriod (rd p 8 8), gives := false } }
  else s

/-- TAKEOVER (R503). -/
def execTakeover (good : Bool) (_flags _seq _pnum : Nat) (p : List Byte) (s : State) : Out State :=
  .next (s.rosFrame good fun s => s.takeoverIn p)

/-- LEAVING (R491): the standby is not ready any more. -/
def execLeaving (good : Bool) (_flags _seq _pnum : Nat) (_p : List Byte) (s : State) : Out State :=
  .next (s.rosFrame good fun s => s.peerReady false)

/-! ## PCYC and RACK (R117, R118, R146, R495, R500) -/

/-- The entries of a PCYC payload: ring, head, cut index. -/
def pcycEntries : Nat → List Byte → List (Nat × Nat × Nat)
  | 0, _ => []
  | n + 1, b => (rd b 0 2, rd b 2 2, rd b 4 2) :: pcycEntries n (b.drop 6)

/-- Proof digests of press cycle `k` (own count) are compared (R500): `dig` is the holder's, `v` its variant. An exclusion ends, and PDIV
clears, at the 16th match in a row after the event has left the input windows. -/
def State.proofCompare (s : State) (k : Nat) (dig st v : Nat) : State :=
  let e := s.entry (k % 8)
  if e.cyc ≠ k ∨ e.state < 3 ∨ st < 3 ∨ v ≠ e.var then s
  else if ofLe ((s.exportPayload e 3).take 8) = dig then
    let s := s.rosMod fun r => { r with pMiss := 0, pGood := if r.exclTo < k then r.pGood + 1 else 0 }
    if 16 ≤ s.ros.pGood then (s.set Reg.ROS_STAT_PDIV 0).rosMod fun r => { r with exclTo := 0 } else s
  else
    let s := s.rosMod fun r => { r with pGood := 0 }
    if s.ros.exclTo ≠ 0 then s
    else
      let s := (s.bump Reg.ROS_PDMIS).rosMod fun r => { r with pMiss := r.pMiss + 1, pdTotal := r.pdTotal + 1 }
      if s.on Reg.ROS_STAT_PDIV then s
      else
        let s := s.raise (detN 20 3) 0 0
        -- the model sets are compared next; where they agree the proofs diverge for another reason
        if 3 ≤ s.ros.pMiss then s.rosMod fun r => { r with modelAsk := true } else s

/-- Every descriptor below the cut index is committed here. -/
def State.cutMet (s : State) (r cut : Nat) : Bool :=
  match s.cutIndices.find? fun e => e.1 == r with
  | none => true
  | some e => decide ((e.2 + s.ringLen r - cut % s.ringLen r) % s.ringLen r < s.ringLen r / 2)

/-- The inputs of press cycle `k` at the standby are those of the cut indices received (R146); what lies below them is settled. -/
def State.standbyInputs (s : State) (k : Nat) : State :=
  let s := s.takeInputs k
  let (xs, es) := s.cutInputs s.ros.cuts
  let s := s.ingMod fun i => { i with cuts := s.ros.cuts, above := i.above.filter (s.aboveCut s.ros.cuts) }
  s.prsMod fun p => { p with inputs := { p.inputs with streams := xs, sched := es } }

/-- The runs of press cycle `k` begin at the standby once its cut indices have come, unless it has not committed every
descriptor below them (R146). -/
def State.standbyRuns (s : State) (k : Nat) : State :=
  if s.get Reg.PRS_GAL_CYC = k ∧ s.cyclesRun ∧ s.time ≤ k * 20000 + 19000 ∧ s.ros.cuts.all fun c => s.cutMet c.1 c.2 then
    ((s.standbyInputs k).beginRuns k).rosMod fun r => { r with cutCyc := none }
  else s

/-- Records that a standby commits may be the last ones below the cut indices it has received: its runs begin (R146). -/
def State.standbyDue (s : State) : State :=
  if !s.standby then s
  else match s.ros.cutCyc with
    | some k => s.standbyRuns k
    | none => s

/-- TRACE_BUF (R122). -/
def execTraceBuf (r : Nat) (d : Desc) (s : State) : Out State := .next (s.recBuf r 0x1001 d true).standbyDue

/-- SCORE_BUF (R122). -/
def execScoreBuf (r : Nat) (d : Desc) (s : State) : Out State := .next (s.recBuf r 0x1002 d false).standbyDue

/-- The head of a shadow ring as the active seat reports it: the lower bound of this seat's own tail, which rises to it (R116). An index
counts as ahead when it lies less than half the ring ahead (log entry 79). -/
def State.shadowHead (s : State) (r h : Nat) : State :=
  let s := s.ringMod r fun x => { x with peerHead := h }
  let n := s.ringLen r
  let d := (h + n - s.get (Reg.HST_RPTR_TAIL r) % n) % n
  if s.ringLive r && s.on (Reg.HST_RCFG_SHADOW r) && decide (h < n ∧ 0 < d ∧ d < n / 2) then s.set (Reg.HST_RPTR_TAIL r) h else s

/-- PCYC (R495). -/
def State.pcycIn (s : State) (p : List Byte) : State :=
  if !s.standby then s
  else
    let k := ((rd p 0 8 : Nat) - s.deltaK).toNat
    let es := pcycEntries (min 166 (rd p 18 2)) (p.drop 24)
    let all := (match s.ros.pcyc with
      | some (c, xs) => if c = k then xs else []
      | none => []) ++ es
    let s := es.foldl (fun s e => s.shadowHead e.1 e.2.1) s
    if !bit (rd p 20 1) 0 then s.rosMod fun r => { r with pcyc := some (k, all) }
    else
      let cuts := all.map fun e => (e.1, e.2.2)
      let s := s.rosMod fun r => { r with pcyc := none, cutCyc := some k,
                                          cuts := (r.cuts.filter fun c => !cuts.any fun x => x.1 == c.1) ++ cuts }
      (s.proofCompare (k - 1) (rd p 8 8) (rd p 16 1) (rd p 17 1)).standbyRuns k

/-- PCYC (R495). -/
def execPcyc (good : Bool) (_flags _seq _pnum : Nat) (p : List Byte) (s : State) : Out State :=
  .next (s.rosFrame good fun s => s.pcycIn p)

/-- The entries of a RACK payload: ring and index read. -/
def rackEntries : Nat → List Byte → List (Nat × Nat)
  | 0, _ => []
  | n + 1, b => if b.length < 4 then [] else (rd b 0 2, rd b 2 2) :: rackEntries n (b.drop 4)

/-- RACK (R117): the completions that the standby confirms are written. -/
def execRack (good : Bool) (_flags _seq _pnum : Nat) (p : List Byte) (s : State) : Out State :=
  .next (s.rosFrame good fun s =>
    let es := rackEntries 256 p
    if s.token then s.releaseHold fun h => es.contains (h.ring, h.index) else s)

/-! ## CFG and BULK (R491, R501, R546) -/

/-- A change of the holder whose imposition is not a single act, as the standby takes it up. -/
def State.cfgOwn (s : State) (c : Staged) (data : List Byte) : State :=
  if c.opcode = 0x0B05 then s.planStart c (imgTypes.filter fun t => bit c.target (t - 1)) true true false
  else if c.opcode = 0x0502 then
    ((List.range (data.length / 32)).map fun k => (data.drop (32 * k)).take 32).foldl State.bankPut s
  else if c.block = 3 then
    match ListIn.read data with
    | .ok l => s.chsMod fun x => { x with lists := x.lists ++ [{ st := c, check := l.check, hold := l.hold, chkv := l.chkv, steps := l.steps }] }
    | .error _ => s
  else if c.opcode = 0x0200 then
    (s.prsMod fun p => { p with hier := some { st := c, old := c.old, new := c.new, at_ := s.time + 1000000 } }).set
      Reg.GLB_HIER_TARGET c.new
  else if c.opcode = 0x0212 then
    match s.placeForme (readForme data) with
    | some f =>
      let s := (s.stagedOff c.target).slotMod c.target fun x => { x with load := none, staged := some (f, c), due := none }
      { s with staged := s.staged ++ [c] }
    | none => s.set Reg.ROS_STAT_CFGLAG 1
  else if c.opcode = 0x0402 then s.promoStart 1 0 (c.ring % 0x20000 == 0x10000) c
  -- the holder's own firmware reverts from probation, a host by command (R288)
  else if c.opcode = 0x0404 then
    let auto := c.ring % 0x20000 == 0x10000
    s.promoStart 2 (if auto then 1 else 2) auto c
  else { s with staged := s.staged ++ [c] }

/-- CFG (R320, R501, R531): a change of the holder, in its own count. One that comes less than a period before its imposition
sets CFGLAG. -/
def State.cfgIn (s : State) (c0 : Staged) (data : List Byte) : State :=
  if !s.standby then s
  else
    let c : Staged := { c0 with due := if c0.due = 0 then 0 else s.ownPeriod c0.due,
                                ring := 0x20000 + 0x20000 * (1 - s.get Reg.GLB_SEAT_SEAT) + c0.ring % 0x20000 }
    let s := { s with chgNext := max s.chgNext (c.no + 1) }
    let s := if c.due ≠ 0 ∧ c.due ≤ s.get Reg.CHS_PNUM + 1 then s.set Reg.ROS_STAT_CFGLAG 1 else s
    let s := s.logC (changeOrigin c.ring c.block) 2 c.no c.opcode c.block c.target c.old c.new c.digest
    if c.act = .own then s.cfgOwn c data else { s with staged := s.staged ++ [c] }

/-- ROSCOR_CFG (R501). -/
def execRoscorCfg (good : Bool) (_flags _seq _pnum : Nat) (_p : List Byte) (c : Staged) (data : List Byte) (s : State) :
    Out State :=
  .next (s.rosFrame good fun s => s.cfgIn c data)

/-- An image pushed by the holder (R546): opened, written and finished with the peer as its source; the signature verdict is
a free value. -/
def State.pushedImage (s : State) (b : List Byte) : State :=
  let h := b.take 512
  let t := rd h 12 1
  let (v, s) := s.draw
  let (st, _, s) := s.imgOpen .peer t h (v % 2 == 1)
  if st ≠ 0 then
    (if st = 0x1A then s.rosMod fun r => { r with push := if r.push.contains t then r.push else t :: r.push } else s)
  else
    match Tab.find s.upd.sess t with
    | some x => (s.imgFinish t { x with body := b.drop 512 }).2
    | none => s

/-- Bytes of the model area of a plan slot, in every stack in service. -/
def State.planBytes (s : State) (slot ofs : Nat) (b : List Byte) : State :=
  s.tbs.foldl (fun s t => s.pwrite (s.modelAddr slot t ofs) b) s

/-- What BULK has brought whole (R290, R491, R546). -/
def State.bulkDone (s : State) (kind : Nat) (b : List Byte) : State :=
  match kind with
  | 2 =>
    let n := rd b 0 4
    let s := (s.set Reg.PRS_TRN_STEP n).planBytes (s.planN 1) (s.planN 3) (b.drop 5)
    -- the holder's offer, which closes at a takeover (R285)
    if bit (rd b 4 1) 0 then (s.trnMod fun x => { x with offer := some n }).set Reg.PRS_TRN_STAT_STATE 4
    else
      let s := s.trnMod fun x => { x with offer := none }
      if s.trnState = 4 then s.trnResume else s
  | 3 => s.pushedImage b
  | 4 =>
    -- the bytes have come, and are confirmed to the holder (R290)
    let s := s.planBytes (s.planN 0) (s.planN 7) b
    match s.trn.promo with
    | some p => (s.trnMod fun x => { x with promo := some { p with got := true } }).bulkOut 5 (le 4 p.st.no)
    | none => s
  | _ => s.rosMod fun r => { r with stored := r.stored ++ [(kind, b)] }

/-- BULK (R491). -/
def State.bulkIn (s : State) (p : List Byte) : State :=
  let k := rd p 0 1
  let b := (match s.ros.bulk with
    | some (j, xs) => if j = k then xs else []
    | none => []) ++ p.drop 2
  if !s.standby ∧ k = 6 then s.pushAgain (rd b 0 1)
  else if !s.standby then
    -- the standby confirms the bytes of a promotion (R290)
    (if s.token ∧ k = 5 then s.trnMod fun x => { x with promo := x.promo.map fun p => { p with got := p.got || p.st.no == rd b 0 4 } } else s)
  else if bit (rd p 1 1) 0 then (s.rosMod fun r => { r with bulk := none }).bulkDone k b
  else s.rosMod fun r => { r with bulk := some (k, b) }

/-- BULK (R491). -/
def execBulk (good : Bool) (_flags _seq _pnum : Nat) (p : List Byte) (s : State) : Out State :=
  .next (s.rosFrame good fun s => s.bulkIn p)

/-! ## The token (R503, R504, R509) -/

/-- Why a standby takes the token at this boundary (R503): 2 it was asked for, 1 silence on both paths. A seat in conflict
with its peer's never takes it (R40), nor one whose straps failed (R39). -/
def State.tokenDue (s : State) : Option Nat :=
  if !s.standby || s.haltSet || (s.det (detN 5 2)).cause || !s.on Reg.GLB_SEAT_PAROK then none
  else if s.ros.asked then some 2
  else if 4 ≤ s.silent then some 1
  else none

/-- SEAT_TOKEN_TAKE (R503, R504, R506, R511): a handover that was pending is abandoned; a proving run ends with its prover. -/
def State.seatTake (s : State) : State :=
  match s.tokenDue with
  | none => s
  | some why =>
    let s := s.handCancel.tokenTake why
    if s.ros.prove.any fun v => !v.prover then s.proveEnd 4 else s

/-- SEAT_TOKEN_TAKE (R504). -/
def execSeatTokenTake (s : State) : Out State := .next s.seatTake.settle

/-- Changes that waited for a handover are done (R320): SEAT_SWITCH and PROVING_RUN. Answers the proving length. -/
def State.handChanges (s : State) : Nat × State :=
  let cs := s.staged.filter fun c => c.opcode == 0x0E01 || c.opcode == 0x0E02
  let len := match cs.find? fun c => c.opcode == 0x0E02 with
    | some c => c.new
    | none => if s.get Reg.ROS_CTL_PROVE = 0 then 60 else s.get Reg.ROS_CTL_PROVE
  (len, cs.foldl (fun s c => (s.unstage c.no).changeDone c 0 1 0xFF) s)

/-- Whether the plan waits for a handover between its parts (R550). -/
def State.handStep (s : State) : State := if s.stepNow.any fun x => x.type == 0 then s.stepDone else s

/-- The proving run as a handover of kind 4 begins it, and one of kind 5 ends it (R511). -/
def State.proveHand (s : State) (kind len : Nat) (prover : Bool) : State :=
  if kind = 4 then s.rosMod fun r => { r with prove := some { start := s.time, len := len, prover := prover }, back := false }
  else if kind = 5 then
    match s.ros.prove with
    | some v => s.proveEnd (if v.start + v.len * 1000000000 ≤ s.time then 1 else 2)
    | none => s
  else s

/-- PLANNED_HANDOVER (R509): at boundary H the old holder releases the token, or cancels; the other
seat takes it, or cancels by the same rule as its copy shows it. -/
def State.handNow (s : State) : State :=
  match s.ros.hand with
  | none => s
  | some h =>
    if s.get Reg.CHS_PNUM < h.at_ || (s.glb.mgmtDown && h.st.isSome) then s
    else if h.gives then
      if s.handBlocked then s.handCancel
      else
        let s := (s.rosMod fun r => { r with hand := none }).tokenRelease 7 3
        -- for a module reset the seat leaves the group too (R57, R401)
        let s := if h.kind = 2 then s.queueLeave 5 else s
        let s := (s.syncOut false).handEvt h.kind 0 h.at_
        let (len, s) := s.handChanges
        (s.proveHand h.kind len false).handStep
    else if !s.rosReady || s.handBusy || (s.det (detN 5 2)).cause then s.handCancel
    else
      let s := s.rosMod fun r => { r with hand := none }
      let s := (s.tokenTake 3).handEvt h.kind 0 h.at_
      let (len, s) := s.handChanges
      (s.proveHand h.kind len true).handStep

/-- Before H a planned handover is cancelled as soon as something stands in its way (R509); each seat judges it by what it sees. -/
def State.handTick (s : State) : State :=
  match s.ros.hand with
  | none => s
  | some h =>
    if h.at_ ≤ s.get Reg.CHS_PNUM then s
    else if if h.gives then s.handBlocked else !s.rosReady || s.handBusy || (s.det (detN 5 2)).cause then s.handCancel
    else s

/-- PLANNED_HANDOVER (R509). -/
def execPlannedHandover (s : State) : Out State := .next s.handNow.settle

/-! ## The shadow law and the self-test (R498, R499, R508) -/

/-- Posts SELFTEST (R513). -/
def State.selftestEvt (s : State) (kind unit : Nat) : State :=
  s.evt 7 0x0E04 (le 1 kind ++ le 1 unit ++ zeros 2 ++ s.pnum32 ++ zeros 4)

/-- The loop-back self-test of a period: `bad` lists the links that failed (R508). -/
def State.loopTest (s : State) (bad : List Nat) : State :=
  if !s.on Reg.ROS_CTL_SELFTEST then s
  else bad.foldl (fun s l => s.selftestEvt 1 l) (s.rosMod fun r => { r with tested := r.tested + 1, loopBad := satU 32 (r.loopBad + bad.length) })

/-- The original seat of a proving run ends it after two duty mismatches in a row (R511). -/
def State.proveWatch (s : State) : State :=
  if s.ros.prove.any fun v => !v.prover && decide (2 ≤ v.miss) then s.proveEnd 2 else s

/-- SHADOW_LAW (R498, R499): with the copy of the period before, the standby runs the law named in it on its own
references, and its duty digest is compared. -/
def State.shadowLaw (s : State) (loopBad : List Nat) : State :=
  if !s.standby then s
  else
    let n := s.heldPeriod
    match s.ros.copies.find? fun e => e.1 + 1 == n with
    | none => s
    | some e =>
      let g := s.gal
      let s : State := { (s.loadCopy e.2) with gal := g }
      let s := s.law
      let d := s.dutyDigest
      let s := s.rosMod fun r => { r with own := ((n, d) :: r.own).take 8 }
      ((s.dutyCompare n).proveWatch).loopTest loopBad

/-- SHADOW_LAW (R498). -/
def execShadowLaw (loopBad : List Nat) (s : State) : Out State := .next (s.shadowLaw loopBad).settle

/-- LANE_SELFTEST (R508): `bad` lists the lanes whose known-answer set failed. -/
def execLaneSelftest (bad : List Nat) (s : State) : Out State :=
  .next (if s.standby && s.on Reg.ROS_CTL_SELFTEST then
    bad.foldl (fun s u => s.selftestEvt 2 u) (s.rosMod fun r => { r with laneBad := satU 32 (r.laneBad + bad.length) })
  else s)

/-! ## The link (R489) -/

/-- ROSCOR_LINK_DOWN (R489). -/
def execRoscorLinkDown (s : State) : Out State := .next s.roscorFall.settle

/-- ROSCOR_TRAINED (R489): ROSCOR follows with the first valid heartbeat. The link is idle from the power-down of the loss sequence on
(R52). -/
def execRoscorTrained (lat : Nat) (s : State) : Out State :=
  .next (if s.stage < 3 ∨ s.stage = 0xE ∨ 2 ≤ s.glb.lossStep then s
    else ((s.set Reg.ROS_LAT_NS lat).set Reg.ROS_STAT_UP 1).levelOff (detN 20 0))

/-- PROVING_END (R511): D seconds have passed, and the prover returns the token. -/
def execProvingEnd (s : State) : Out State := .next s.proveReturn

/-! ## Commands (R512) -/

/-- SEAT_QUERY (R512). -/
def execSeatQuery (r : Nat) (d : Desc) (s : State) : Out State :=
  .next (s.cmd r 0x0E00 d { priv := 0, buf := .writes, lenOk := fun n => decide (64 ≤ n) } fun s =>
    image s 64 (s.regBytes ([0x70008, 0x7000C, 0x70010, 0x70014, 0x70018, 0x7001C, 0x70020, 0x70024, 0x70028] ++
      [0x70040, 0x70044, 0x70048, 0x7004C, 0x70050, 0x70054, 0x70058])))

/-- A planned handover that a command asks for is staged, or BUSY (R509). -/
def State.handStage (s : State) (r opcode kind len : Nat) : Reply :=
  if !s.token || s.handBlocked || s.ros.hand.isSome || s.ros.prove.isSome then bad s 0x16
  else
    let seat := s.get Reg.GLB_SEAT_SEAT
    let (n, s) := s.stage1 r 7 opcode 0 (if kind = 3 then seat else 0) (if kind = 3 then 1 - seat else len) s.leadPeriod .own
    match s.staged.find? fun c => c.no == n with
    | some c => Sys2Proof.Machine.staged (s.handStart kind (some c)) n
    | none => Sys2Proof.Machine.staged s n

/-- SEAT_SWITCH (R510, R512). -/
def execSeatSwitch (r : Nat) (d : Desc) (s : State) : Out State :=
  .next (s.cmd r 0x0E01 d { priv := 2, standby := true } fun s => s.handStage r 0x0E01 3 0)

/-- PROVING_RUN (R511, R512). -/
def execProvingRun (r : Nat) (d : Desc) (s : State) : Out State :=
  .next (s.cmd r 0x0E02 d { priv := 2, standby := true, parOk := decide (d.p0 ≤ 600) } fun s =>
    let dflt := if s.get Reg.ROS_CTL_PROVE = 0 then 60 else s.get Reg.ROS_CTL_PROVE
    s.handStage r 0x0E02 4 (if d.p0 = 0 then dflt else d.p0))

/-- PROVING_STOP (R511, R512): the prover returns the token at once. -/
def execProvingStop (r : Nat) (d : Desc) (s : State) : Out State :=
  .next (s.cmd r 0x0E03 d { priv := 2, standby := true } fun s =>
    if s.ros.prove.isNone then refuse s 1
    else ok ((s.logC (.host r) 2 0 0x0E03 7 0 0 0).proveReturn))

/-- The seat health report (R512). -/
def State.seatHealth (s : State) : List Byte :=
  let fl := s.get Reg.ROS_CTL_SELFTEST + 2 * s.get Reg.ROS_STAT_READY + 4 * s.get Reg.ROS_STAT_LOCK +
    8 * s.get Reg.ROS_STAT_DDIV + 16 * s.get Reg.ROS_STAT_PDIV
  sealed (le 4 0x96405348 ++ le 2 1 ++ le 2 fl ++ le 8 s.ros.tested ++ le 4 s.ros.loopBad ++ le 4 s.ros.laneBad ++
    le 4 s.ros.ddTotal ++ le 4 s.ros.pdTotal ++ le 4 s.ros.noCopy ++ le 8 s.ros.provedAt ++ le 1 s.ros.provedOut ++ zeros 3 ++
    zeros 12)

/-- SEAT_HEALTH (R512). -/
def execSeatHealth (r : Nat) (d : Desc) (s : State) : Out State :=
  .next (s.cmd r 0x0E04 d { priv := 0, buf := .writes, lenOk := fun n => decide (64 ≤ n) } fun s => image s 64 s.seatHealth)

end Sys2Proof.Machine
end

