-- ==== Sys2Proof/Machine/Spares.lean ====
section
/-!
DEFINITION. Spares, wear and repair (R573 to R585): the commands SPARE_QUERY, REPAIR and SPARE_RETIRE, the end of a repair
test, and the retirement of worn units. What a failure costs and the spare maps are in Machine/Units.lean and
Machine/Loss.lean.
-/
namespace Sys2Proof.Machine

/-- SPARE_QUERY (R583). -/
def execSpareQuery (r : Nat) (d : Desc) (s : State) : Out State :=
  .next (s.cmd r 0x0D00 d { priv := 0, buf := .writes, lenOk := fun n => decide (64 ≤ n) } fun s =>
    image s 64 (s.regBytes ([0xC0008, 0xC000C] ++ (List.range 10).map fun k => 0xC0100 + 4 * k)))

/-- A unit number of a kind of REPAIR that names a unit (R583). -/
def repairUnit (kind u : Nat) : Bool :=
  match kind with
  | 1 => decide (u < 32768 ∧ unitF u ≤ 16 ∧ unitL u ≤ 16)
  | 2 => decide (u < 1024 ∧ unitF u ≤ 16)
  | 3 => decide (u < 32)
  | 4 => decide (u < 4)
  | 5 => decide (u < 18)
  | _ => false

/-- REPAIR waits for a hierarchy change, an imposition of a forme, a Press firmware step or another repair (R581). -/
def State.repairBusy (s : State) : Bool :=
  s.prs.hier.isSome || s.prs.fwStep || s.spr.repair.isSome || s.prs.slots.any fun e => e.2.staged.isSome

/-- The pool of R573 that a unit of a kind of REPAIR belongs to. -/
def poolKind (kind : Nat) : Nat := match kind with | 1 => 0 | 2 => 1 | _ => 3

/-- A repaired quire returns to service (R579): its textblock runs with it, unless the textblock itself is out; in Q it
stands by for the quire in service, or comes into service where none is (R165). -/
def State.quireBack (s : State) (t q : Nat) : State :=
  let s := s.set (Reg.PRS_TB_QMAP_LOST t) (setBit (s.get (Reg.PRS_TB_QMAP_LOST t)) q false)
  let old := s.get Reg.PRS_STAT_SVC
  let s := s.pressOut
  if s.get Reg.GLB_HIER_CFG = 1 then
    if s.tbs.isEmpty && s.prs.quireRepl.isNone && s.get (Reg.PRS_TB_STAT_STATE t) != 3 then
      (s.prsMod fun p => { p with quireRepl := some (t, q) }).set (Reg.PRS_TB_STAT_STATE t) 1
    else s
  else if s.tbs.contains t then (s.putService (s.get Reg.GLB_HIER_CFG) s.tbs).serviceChanged old false
  else s

/-- A unit passes (R579): a leaf, folio or lane joins its pool, a quire returns to service. -/
def State.unitBack (s : State) (kind u : Nat) : State :=
  if kind = 3 then (s.unitMod 3 u fun x => { x with st := 0, injected := false }).quireBack (unitT u) (unitQ u)
  else (s.unitMod kind u fun x => { x with st := 1, injected := false }).reserveCheck (poolKind kind)

/-- A repair that has passed ends (R579). -/
def State.repairPass (s : State) (kind u us : Nat) : State := (s.unitBack kind u).repairEnd 0 us

/-- REPAIR (R579 to R581). A unit that an injected degrade isolated passes without the test when the skip flag asks for
it; a textblock always passes the growing procedure of R167. -/
def execRepair (r : Nat) (d : Desc) (s : State) : Out State :=
  .next (s.cmd r 0x0D01 d { priv := 2, parOk := repairUnit d.p0 d.p1 } fun s =>
    if s.repairBusy then bad s 0x16
    else
      let x := s.unit d.p0 d.p1
      let s := ((s.set Reg.SPR_RSTAT_KIND d.p0).set Reg.SPR_RSTAT_UNIT d.p1).set Reg.SPR_RSTAT_OUT 0
      if x.st = 3 then refuse (s.set Reg.SPR_RSTAT_OUT 3) 3
      else if x.st ≠ 2 then refuse (s.set Reg.SPR_RSTAT_OUT 1) 1
      else
        let s := s.logC (.host r) 2 0 0x0D01 0xC d.p1 x.st 0
        let s := { s with spr := { s.spr with repair := some { kind := d.p0, unit := d.p1, ring := r, desc := d } } }
        if d.p0 = 4 then { s := s.hierSelf 2 [d.p1], status := none }
        else if x.injected && bit d.p2 0 then { s := s.repairPass d.p0 d.p1 0, status := none }
        else { s := s, status := none })

/-- The test of a repair ends (R579, R581). The test of a textblock is the growing procedure: passed, it goes on to its
end; failed, it is rolled back. -/
def State.repairTest (s : State) (passed : Bool) (us : Nat) : State :=
  match s.spr.repair with
  | none => s
  | some p =>
    if p.kind = 4 then (if passed then s else s.hierRollback 1)
    else if p.abandoned then s.repairEnd 4 us
    else if p.broken || !passed then s.repairEnd 2 us
    else s.repairPass p.kind p.unit us

/-- REPAIR_TEST_DONE (R579). -/
def execRepairTestDone (passed : Bool) (us : Nat) (s : State) : Out State := .next (s.repairTest passed us)

/-- A spare that could stand for unit `u` of a kind of SPARE_RETIRE, other than `u` itself. -/
def State.spareFor (s : State) (kind u : Nat) : Option Nat :=
  let t := unitT u
  let q := unitQ u
  let c := match kind with
    | 1 => (List.range 17).map (leafUnit t q (unitF u))
    | 2 => (List.range 17).map fun f => leafUnit t q f 0
    | _ => List.range 18
  c.find? fun w => w != u && (s.unit kind w).st == 1

/-- SPARE_RETIRE (R583): the unit is to be retired at its point as though worn; one in a pool goes at once. -/
def execSpareRetire (r : Nat) (d : Desc) (s : State) : Out State :=
  .next (s.cmd r 0x0D02 d
    { priv := 2, parOk := (d.p0 == 1 || d.p0 == 2 || d.p0 == 5) && repairUnit d.p0 d.p1 } fun s =>
    match s.spareFor d.p0 d.p1 with
    | none => refuse s 5
    | some _ =>
      let x := s.unit d.p0 d.p1
      let s := s.logC (.host r) 2 0 0x0D02 0xC d.p1 x.st 3
      if x.st = 1 then ok ((s.unitOut d.p0 d.p1 3 false).reserveCheck (poolKind d.p0))
      else if x.st = 0 then ok (s.unitMod d.p0 d.p1 fun y => { y with retire := 3 })
      else ok s)

/-- The kind of the spare maps that stands for a kind of R573: leaf, folio, lane, link, phase. -/
def mapKind (k : Nat) : Nat := match k with | 0 => 1 | 1 => 2 | 3 => 5 | 4 => 6 | _ => 7

/-- A unit of kind `k` of R573 is retired at its point (R578), when it is worn and PREEMPT is set, or when SPARE_RETIRE
named it, and a spare of its kind is free. -/
def State.wornRetire (s : State) (k u : Nat) : State :=
  let m := mapKind k
  let s := s.unitMod m u fun x =>
    { x with retire := if x.retire = 0 ∧ x.worn ∧ s.on Reg.SPR_CTL_PREEMPT then 2 else if x.retire = 2 ∧ !s.on Reg.SPR_CTL_PREEMPT then 0 else x.retire }
  match m with
  | 6 => s.linkRetire u
  | 7 => s.phaseRetire u
  | _ => s.retireUnit m u

/-- WORN_UNIT_RETIRE (R578): a leaf or folio at a press-cycle boundary, a lane at a period boundary, a link while no burst,
shed or change list is in progress, a phase in SHED or WARM. -/
def execWornUnitRetire (kind unit : Nat) (s : State) : Out State :=
  .next (if kind = 2 ∨ 9 < kind then s else s.wornRetire kind unit)

end Sys2Proof.Machine
end

