-- ==== Sys2Proof/Machine/Startup.lean ====
section
/-!
DEFINITION. Start-up (R55 to R79): the stages, Flyleaf entry, the drive role, make-ready, the module reset, the management
watchdog, the PCIe link and configuration requests, and the commands HEALTH, SEAT_ENABLE and MODULE_RESET.
-/
namespace Sys2Proof.Machine

/-! ## Stages (R60) -/

/-- The start has reached stage `v` and Chase does not run yet. A halt hides the stage and the start goes on behind it
(R78). -/
def State.bootAt (s : State) (v : Nat) : Bool :=
  s.glb.powered && !bit (s.get Reg.GLB_ISL_RST_ISL) 12 && s.glb.lossStep == 0 &&
    (if s.halted then s.glb.preHalt else s.stage) == v

/-- The start reaches stage `v`. -/
def State.bootTo (s : State) (v : Nat) : State :=
  if s.halted then { s with glb := { s.glb with preHalt := v } } else s.setStage v

/-- ENTER_ERRATA_STAGE (R39, R60, R604): Errata firmware runs; strap parity is judged; a reservoir that holds 40.0 V sets RES. -/
def State.enterErrata (s : State) : State :=
  if !s.bootAt 0 || s.glb.chaseUp || s.glb.flyNext then s
  else
    let s := s.bootTo 1
    let s : State := { s with era := { s.era with keep := true }, glb := { s.glb with sources := [] } }
    let s := if 4000 ≤ s.get Reg.GLB_VRSV_VRSV then s.setReady Reg.GLB_BOOTSTAT_RES 1 else s
    (s.level (detN 5 0) 0 0 (!s.on Reg.GLB_SEAT_PAROK)).settle

/-- ENTER_ERRATA_STAGE (R60). -/
def execEnterErrataStage (s : State) : Out State := .next s.enterErrata

/-! ## Stage SETTINGS (R10, R51, R65, R67, R519, R520, R554) -/

/-- Keeps the entries of a list that are not records `p`, `n` to a page, of a ring of `cap` in which `pos` have been written. -/
def dropPage {α : Type} (l : List α) (pos cap n p : Nat) : List α :=
  (l.zipIdx.filter fun e => (pos + cap - l.length + e.2) % cap / n != p).map (·.1)

/-- Keeps the snapshot records no byte of which lies in page `p`; `pos` bytes have been written round the bank. -/
def dropSnaps (l : List (Nat × List Byte)) (pos p : Nat) : List (Nat × List Byte) :=
  (l.reverse.foldl (fun (a : Nat × List (Nat × List Byte)) e =>
    let start := a.1 - e.2.length
    let hit := start % snapCap / 4032 ≤ p && p ≤ (a.1 - 1) % snapCap / 4032
    (start, if hit then a.2 else e :: a.2)) (pos, [])).2

/-- Both copies of a page of a store are bad: what it held is gone. Losing any page of the settings leaves the defaults
(R10); losing one of the journal leaves no plan. -/
def State.pageLost (s : State) (store p : Nat) : State :=
  match store with
  | 0 =>
    let s : State := { s with
      regs := Tab.drop s.regs (fun k => (Tab.find s.nvm k).isSome), nvm := [], nv := { valid := false }, est := {}
      col := { s.col with triggers := [] }, glb := { s.glb with hflags := setBit s.glb.hflags 1 true } }
    s.raise (detN 5 6) 0 0
  | 1 => s.updMod fun u => { u with plan := none }
  | 2 => s.colMod fun c => { c with log := dropPage c.log c.posLog 4128768 63 p }
  | 3 => s.colMod fun c => { c with slugs := dropPage c.slugs c.posSlug 2064384 126 p }
  | _ => s.colMod fun c => { c with snaps := dropSnaps c.snaps c.posSnap p }

/-- A page was read with one copy bad, or both (R519): detector, count and STORE_REPAIR. -/
def State.pageBad (s : State) (e : Nat × Nat × Bool) : State :=
  let (store, page, both) := e
  let (v, s) := s.draw
  let s := if both then ((s.set (Reg.COL_SSTAT_OK0 store) 0).set (Reg.COL_SSTAT_OK1 store) 0).set Reg.COL_STAT_DEGR 1
    else if v % 2 = 0 then s.set (Reg.COL_SSTAT_OK0 store) 0 else s.set (Reg.COL_SSTAT_OK1 store) 0
  let s := if both then (s.bump (Reg.COL_SREP_BOTH store)).pageLost store page else s.bump (Reg.COL_SREP_ONE store)
  let s := s.raise (detN 21 (if both then 2 else 1)) 0 store
  -- a page with one good copy is written again, with the store's next commit sequence
  let (z, s) := s.draw
  let n := Tab.get s.col.cseq store 0 + 1
  let s := if both then s else s.colMod fun c => { c with cseq := Tab.put c.cseq store n }
  let c := if both ∨ store < 2 then z else n
  s.evt 9 0x0A01 (le 1 store ++ le 1 (if both then 2 else 1) ++ zeros 2 ++ le 4 page ++ le 4 c)

/-- The record sequence of a log store goes on at the greatest one held + 65,536 (R519). -/
def State.resumeSeq (s : State) (store : Nat) (newest : Option Nat) : State :=
  let n := s.get (Reg.COL_SNEXT store)
  let top := match newest with
    | some q => some q
    | none => if n = 0 then none else some (n - 1)
  match top with
  | some q => s.set (Reg.COL_SNEXT store) (max n (q + 65536))
  | none => s

/-- The stores are read (R519). -/
def State.readStores (s : State) (pages : List (Nat × Nat × Bool)) : State :=
  let s := (List.range 5).foldl (fun s k => (s.set (Reg.COL_SSTAT_OK0 k) 1).set (Reg.COL_SSTAT_OK1 k) 1) s
  let s := pages.foldl State.pageBad s
  let s := ((s.resumeSeq 2 ((s.col.log.getLast?).map (·.seq))).resumeSeq 3 ((s.col.slugs.getLast?).map (·.seq))).resumeSeq 4
    ((s.col.snaps.getLast?).map (·.1))
  let first := fun (o : Option Nat) => o.getD 0
  ((s.set (Reg.COL_SFIRST 2) (first ((s.col.log.head?).map (·.seq)))).set (Reg.COL_SFIRST 3)
    (first ((s.col.slugs.head?).map (·.seq)))).set (Reg.COL_SFIRST 4) (first ((s.col.snaps.head?).map (·.1)))

/-- Operating time and power-cycle count (R520), and whether the last shutdown was unclean (R51). -/
def State.takeStamps (s : State) : State :=
  let pcc := if s.glb.resetCode = 1 then satU 24 (s.nv.pcc + 1) else s.nv.pcc
  let s : State := { (s.set Reg.COL_OPT s.nv.opTime).set Reg.COL_PCC_PCC pcc with nv := { s.nv with pcc := pcc } }
  let unclean := s.glb.resetCode == 1 && !s.nv.cleanMark
  let s : State := { s with nv := { s.nv with cleanMark := false } }
  if unclean then ((s.set Reg.COL_STAT_UNCLEAN 1).raise (detN 5 7) 0 0).raise (detN 21 4) 0 0 else s

/-- The journal is judged before the boot-failure count (R65, R554). At 3, with no plan left that could be rolled back, the module goes
into Flyleaf. -/
def State.takeJournal (s : State) : State :=
  let s : State := { s with nv := { s.nv with bootFail := s.nv.bootFail + 1 } }
  let (j, s) := s.journal
  let f := if j = 1 then setBit s.glb.hflags 5 true else if j = 2 then setBit s.glb.hflags 6 true else s.glb.hflags
  let s : State := { s with glb := { s.glb with hflags := f } }
  if 3 ≤ s.nv.bootFail ∧ s.upd.plan.isNone then
    let s := s.raise (detN 7 5) 0 s.nv.bootFail
    { s with glb := { s.glb with flyCond := 5 } }
  else s

/-- The straps against those of the previous start (R67). -/
def State.takeStraps (s : State) : State :=
  let seat := s.get Reg.GLB_SEAT_SEAT
  let pos := s.get Reg.GLB_SEAT_POS
  let par := s.get Reg.GLB_SEAT_IDPAR
  let s := match s.nv.straps with
    | none => (s.set Reg.GLB_SEAT_PREVV 0).set Reg.GLB_SEAT_DIFF 0
    | some (a, b, c) =>
      let s := ((s.set Reg.GLB_SEAT_PREVV 1).set Reg.GLB_SEAT_PSEAT a).set Reg.GLB_SEAT_PPOS b
      let s := s.set Reg.GLB_SEAT_PIDPAR c
      if a ≠ seat ∨ b ≠ pos then
        ((s.set Reg.GLB_SEAT_DIFF 1).logC (.fw 3) 8 0 0 0 0x40 (a + 2 * b) (seat + 2 * pos)).raise (detN 5 4) 0 0
      else s.set Reg.GLB_SEAT_DIFF 0
  { s with nv := { s.nv with straps := some (seat, pos, par) } }

/-- A reset in the change log (R530, kind 8): the causes before and after. -/
def State.resetLog (s : State) : State :=
  s.logC (.fw 0) 8 0 0 0 0x20 (s.get Reg.GLB_RSTCAUSE_PREV) (s.get Reg.GLB_RSTCAUSE_CAUSE)

/-- ENTER_SETTINGS_STAGE: `pages` lists the pages with a bad copy: store, page, both copies bad. -/
def State.enterSettings (s : State) (pages : List (Nat × Nat × Bool)) : State :=
  if !s.bootAt 1 || s.glb.chaseUp then s
  else
    let s := ((s.islandsRun [11]).bootTo 2).readStores pages
    let s := s.takeStamps.takeJournal.takeStraps.resetLog
    let f := if s.nv.wasFlyleaf then setBit s.glb.hflags 4 true else s.glb.hflags
    let s : State := { s with glb := { s.glb with hflags := f }, nv := { s.nv with wasFlyleaf := false } }
    s.settle

/-- ENTER_SETTINGS_STAGE (R519, R520, R554). -/
def execEnterSettingsStage (pages : List (Nat × Nat × Bool)) (s : State) : Out State := .next (s.enterSettings pages)

/-! ## Stages MGMT to WAIT -/

/-- The quires and textblocks that the spare maps hold as out (R574). -/
def State.lostUnits (s : State) : State :=
  (List.range 4).foldl (fun s t =>
    let qs := (List.range 8).filter fun q => decide (2 ≤ (s.unit 3 (leafUnit t q 0 0)).st)
    let s := s.set (Reg.PRS_TB_QMAP_LOST t) (qs.foldl (fun a q => a + 2 ^ q) 0)
    let out := decide (2 ≤ (s.unit 4 t).st) || decide (qs.length = 8)
    let s := s.set (Reg.PRS_TB_STAT_STATE t) (if out then 3 else 1)
    if out then { s with glb := { s.glb with mrStep := s.glb.mrStep.set t 8, mrRes := s.glb.mrRes.set t 2 } } else s) s

/-- ENTER_MGMT_STAGE (R60, R70): the stack resets are released and make-ready begins. -/
def State.enterMgmt (s : State) : State :=
  if !s.bootAt 2 || s.glb.chaseUp || s.glb.flyCond != 0 then s
  else
    let s := (s.bootTo 3).islandsRun [0, 1, 2, 3, 4, 5, 8, 9, 10]
    let s : State := { s with glb := { s.glb with mrStep := [0, 0, 0, 0], mrRes := [0, 0, 0, 0] } }
    s.lostUnits.pressOut.settle

/-- ENTER_MGMT_STAGE (R60). -/
def execEnterMgmtStage (s : State) : Out State := .next s.enterMgmt

/-- This module masters its rings (R419). -/
def State.masterNow (s : State) : Bool :=
  let alone := decide (s.ros.rLast + 100000000 ≤ s.time ∧ s.ros.bLast + 100000000 ≤ s.time)
  s.glb.chaseUp && !s.halted && (s.token || (!s.peerToken && s.get Reg.GLB_SEAT_SEAT == 0) || alone)

/-- ENTER_CHASE_STAGE (R52, R60, R63, R73, R605): shelf time starts at 0, the stage links train, the rings are enumerated. It waits for a
management cluster that restarts (R59), which verifies and loads the microcode. -/
def State.enterChase (s : State) : State :=
  if !s.bootAt 3 || s.glb.chaseUp || s.glb.mgmtDown || s.glb.uart != some true then s
  else
    let s := (s.bootTo 4).islandsRun [6]
    let s : State := { s with glb := { s.glb with chaseUp := true, stlIdle := false, fenOn := true, hbHeld := s.halted, settled := true } }
    let s := s.set Reg.CHS_TIME 0
    let s := (s.grpMod fun g => { g with since := 0 }).stageStart.groupJudge
    (s.masterAll s.masterNow).settle

/-- ENTER_CHASE_STAGE (R605). -/
def execEnterChaseStage (s : State) : Out State := .next s.enterChase

/-- ENTER_HOST_STAGE (R68): once the PCIe link is up. A module that has gone on from CHASE to WAIT or to a role without a host keeps
its stage (R60, R75); the host island accepts set-up from here on. -/
def execEnterHostStage (s : State) : Out State :=
  .next (
    let late := s.glb.chaseUp && !s.halted && decide (6 ≤ s.stage ∧ s.stage ≤ 8) && s.glb.lossStep == 0 && !s.glb.hostSeen
    if !(s.bootAt 4 || late) || s.glb.hostUp || !s.hst.linkUp || s.hst.perst then s
    else
      let s := ({ s with glb := { s.glb with hostUp := true, hostSeen := true } } : State).islandsRun [7]
      if late then s else s.bootTo 5)

/-- ENTER_WAIT (R75): every drive condition holds, from stage CHASE or HOST; `ms` since the reference point of R62. -/
def execEnterWait (ms : Nat) (s : State) : Out State :=
  .next (
    if (s.stage ≠ 4 ∧ s.stage ≠ 5) ∨ s.waitCond % 32 ≠ 31 then s
    else
      let t := if s.glb.reported then s.glb.waitTime else ms
      let s : State := { s with glb := { s.glb with waitTime := t, peerWaited := false } }
      (s.setStage 6).settle)

/-! ## The UART condition and Flyleaf entry (R64, R66, R605) -/

/-- Flyleaf is entered with a condition of R64, also behind a halt of the start. Its Roscor frames are marked not eligible (R66, R490). -/
def State.enterFly (s : State) (cond : Nat) : State :=
  let s := s.setStage 0xE
  let s : State := { s with
    glb := { s.glb with preHalt := 0xE, flyCond := cond, flyNext := false, settled := true, chaseUp := false, hostUp := false, alive := false,
                        hbOut := false, hbHeld := true, stlIdle := true, fenOn := false, tone := [false, false, false, false]
                        toneRet := [false, false, false, false] }
    nv := { s.nv with wasFlyleaf := true } }
  (s.pinsLow.emit (.roscorNotElig 1 (rosBytes 1 (s.get Reg.GLB_SEAT_SEAT) s.ros.sent (s.get Reg.CHS_PNUM) s.hbBytes))).settle

/-- ENTER_FLYLEAF (R64): the condition holds where it is detected. -/
def execEnterFlyleaf (cond : Nat) (s : State) : Out State :=
  .next (
    let here := match cond with
      | 1 => s.bootAt 0 && !s.glb.chaseUp
      | 2 => s.bootAt 1 && !s.glb.chaseUp
      | 3 => s.bootAt 3 && !s.glb.chaseUp
      | 6 => s.bootAt 0 && s.glb.flyNext
      | c => s.glb.flyCond == c && s.bootAt 2 && !s.glb.chaseUp
    if here then s.enterFly cond else s)

/-- UART_RX_HIGH (R63, R605). -/
def execUartRxHigh (s : State) : Out State :=
  .next (if s.glb.powered && s.glb.uart.isNone then { s with glb := { s.glb with uart := some true } } else s)

/-- UART_SETTLE_TIMEOUT (R64): UART_RX low until 500 ms after stage ERRATA; Flyleaf without stage CHASE. -/
def execUartSettleTimeout (s : State) : Out State :=
  .next (
    if s.glb.uart.isSome || s.glb.chaseUp || !(s.bootAt 1 || s.bootAt 2 || s.bootAt 3) then s
    else ({ s with glb := { s.glb with uart := some false } }).enterFly 4)

/-! ## The role (R76, R594) -/

/-- The peer has been seen on the Roscor link, and on the backplane, within 100 ms. -/
def State.peerRos (s : State) : Bool := s.ros.hb.isSome && decide (s.time < s.ros.rLast + 100000000)
def State.peerBack (s : State) : Bool := s.ros.bLast != 0 && decide (s.time < s.ros.bLast + 100000000)

/-- The row of R76: 0 stay in WAIT, 1 active, 2 standby. A seat in conflict or with bad straps takes no token (R39, R40). -/
def State.roleRow (s : State) : Nat :=
  let a := s.get Reg.GLB_SEAT_SEAT == 0
  let quiet := !s.peerRos && !s.peerBack && (s.ros.hb.isSome || decide (300000000 ≤ s.time))
  let row :=
    if s.peerRos && s.peerToken then 2
    else if s.peerRos && s.ros.hb.any (fun h => h.stage == 6) then (if a then 1 else 2)
    else if s.peerRos && s.peerBack then (if a || s.glb.peerWaited then 1 else 0)
    else if s.peerBack then (if !a then 2 else if s.glb.peerWaited then 1 else 0)
    else if quiet then 1
    else 0
  if row = 1 ∧ ((s.det (detN 5 2)).cause ∨ !s.on Reg.GLB_SEAT_PAROK) then 0 else row

/-- The role is judged in WAIT with start permission (R76): the token is taken at the next period boundary (R77); the standby
role at once. -/
def State.judgeRole (s : State) : State :=
  if s.stage ≠ 6 ∨ !(s.glb.permit || s.on Reg.GLB_START_MODE) then s
  else
    match s.roleRow with
    | 1 => { s with glb := { s.glb with roleDue := true } }
    | 2 => s.standbyRole
    | _ => { s with glb := { s.glb with roleDue := false } }

/-- TAKE_ROLE (R76). -/
def execTakeRole (s : State) : Out State := .next s.judgeRole

/-- WAIT_PEER_TIMEOUT (R76): 10 s have passed in WAIT. -/
def execWaitPeerTimeout (s : State) : Out State :=
  .next (if s.stage = 6 then ({ s with glb := { s.glb with peerWaited := true } }).judgeRole else s)

/-- SEAT_ENABLE (R109, R594). -/
def execSeatEnable (r : Nat) (d : Desc) (s : State) : Out State :=
  .next (s.cmd r 0x0102 d { priv := 1 } fun s =>
    let s := s.logC (.host r) 2 0 0x0102 0 0 (b2n s.glb.permit) 1
    if s.on Reg.GLB_START_MODE then ok s
    else ok ({ s with glb := { s.glb with permit := true } }).judgeRole)

/-- HEALTH (R79, R109). -/
def execHealth (r : Nat) (d : Desc) (s : State) : Out State :=
  .next (s.cmd r 0x0101 d { priv := 0, buf := .writes, lenOk := fun n => decide (256 ≤ n) } fun s => image s 256 s.glb.report)

/-! ## Make-ready (R70, R71) -/

/-- Notes the outcome of make-ready in a textblock: 1 reduced, 2 lost. -/
def State.mrMark (s : State) (t v : Nat) : State :=
  { s with glb := { s.glb with mrRes := s.glb.mrRes.set t (max v ((s.glb.mrRes[t]?).getD 0)) } }

/-- A textblock is lost in make-ready. -/
def State.mrLost (s : State) (t : Nat) : State :=
  let s := ((s.tbFail t false true).mrMark t 2).settle
  { s with glb := { s.glb with mrStep := s.glb.mrStep.set t 8 } }

/-- Units of textblock `t` fail in make-ready: 1 leaf, 2 folio, 3 quire, with their unit numbers. Each raises its detector, and
a spare comes in or the unit is lost. -/
def State.mrFails (s : State) (t : Nat) (fs : List (Nat × Nat)) : State :=
  let s := (fs.filter fun f => unitT f.2 == t).foldl (fun s f =>
    (s.raise (detN (8 + t) (f.1 - 1)) 0 f.2).settle.mrMark t 1) s
  if s.get (Reg.PRS_TB_STAT_STATE t) = 3 then
    { (s.mrMark t 2) with glb := { (s.mrMark t 2).glb with mrStep := s.glb.mrStep.set t 8 } }
  else s

/-- Step 2: rows and banks are spared, and each raises the make-ready detector of its textblock; the textblock is lost when no spare bank
is left (R70). -/
def State.mrDram (s : State) (t rows banks : Nat) (good : Bool) : State :=
  let s := s.add (Reg.PRS_TB_SPARE_ROWSP t) rows
  let n := s.get (Reg.PRS_TB_SPARE_BANK t)
  let s := if rows = 0 ∧ banks = 0 then s else s.mrMark t 1
  let s := (List.range (rows + banks)).foldl (fun s _ => s.raise (detN (8 + t) 9) 0 t) s
  if n < banks ∨ !good then ((s.set (Reg.PRS_TB_SPARE_BANK t) 0).raise (detN (8 + t) 8) 0 t).mrLost t
  else (s.set (Reg.PRS_TB_SPARE_BANK t) (n - banks)).reserveCheck 2

/-- The model set of the flash is loaded; PRESS is set, or waits for the comparison with the peer's (R70, R71). -/
def State.modelUp (s : State) : State :=
  let s := s.loadModel
  if s.peerToken then { s with glb := { s.glb with modelWait := true } } else s.pressReady

/-- Make-ready has ended in every textblock: the textblocks of the configured hierarchy that survive come into service and PRESS
is set; with none left, detector 12.4 stands (R70). A module whose peer holds the token compares the model set that it has loaded with the
peer's first (R71). -/
def State.mrEnd (s : State) : State :=
  if s.glb.mrStep.any (fun k => decide (k < 8)) || s.on Reg.GLB_BOOTSTAT_PRESS then s
  else
    let cfg := s.get Reg.GLB_HIER_CFG
    let old := s.get Reg.PRS_STAT_SVC
    let s := s.set Reg.PRS_STAT_CFG cfg
    let ts := s.wanted cfg
    if ts.isEmpty then s.pressOut
    else (((s.putService cfg ts).serviceChanged old false).modelUp).pressOut

/-- MAKE_READY_STEP_DONE: step `k` ends in textblock `t`, `us` after the stack resets were released. A Press firmware step runs
steps 3, 4, 5 and 7 (R552). -/
def State.makeReady (s : State) (t k : Nat) (fs : List (Nat × Nat)) (rows banks : Nat) (good : Bool) (us : Nat) : State :=
  let at_ := (s.glb.mrStep[t]?).getD 8
  let next := k == at_ + 1 || (s.prs.fwStep && at_ == 5 && k == 7)
  if !s.glb.powered || s.glb.lossStep != 0 || s.stage < 3 || s.stage == 0xE || !next then s
  else
    let go := fun (s : State) (v : Nat) => { s with glb := { s.glb with mrStep := s.glb.mrStep.set t v } }
    let s : State := { s with glb := { s.glb with mrTime := if s.prs.fwStep then s.glb.mrTime else max s.glb.mrTime us } }
    let s := match k with
      | 1 | 5 => if good then go s k else s.mrLost t
      | 2 => (go s 2).mrDram t rows banks good
      | 3 | 4 => (go s k).mrFails t fs
      | 7 =>
        if good then go s (if s.prs.fwStep then 8 else 7)
        else if !(s.glb.mrRetry[t]?).getD false then
          { (go s 2) with glb := { (go s 2).glb with mrRetry := s.glb.mrRetry.set t true } }
        else if fs.isEmpty then s.mrLost t
        else (go s (if s.prs.fwStep then 8 else 7)).mrFails t fs
      | 8 =>
        if good then go s 8
        -- DESIGN CHOICE (unsafe): the manual names no detector for the note; it is raised as 22.1, a digest that does not match (log entry 98)
        else ((go s 8).prsMod fun p => { p with store := p.prevStore }).raise (detN 22 1) 0 t
      | _ => go s k
    let s := if s.prs.fwStep && s.glb.mrStep.all (fun k => decide (8 ≤ k)) then s.pressFwDone else s
    s.mrEnd.settle

/-- MAKE_READY_STEP_DONE (R70). -/
def execMakeReadyStepDone (t k : Nat) (fs : List (Nat × Nat)) (rows banks : Nat) (good : Bool) (us : Nat) (s : State) : Out State :=
  .next (s.makeReady t k fs rows banks good us)

/-- The comparison with the peer's model set is over, or the peer no longer holds the token: PRESS is set where it waited for it (R71). -/
def State.modelDone (s : State) : State :=
  if s.glb.modelWait then ({ s with glb := { s.glb with modelWait := false } } : State).pressReady else s

/-- A forme of the peer takes its place in a slot; its model bytes are those of `model` that lie in its area, by their offset in
the model region. Whether it is enabled came with it (a free value). -/
def State.peerForme (s : State) (model : List (Nat × List Byte)) (e : Nat × List Byte) : State :=
  match s.placeForme (readForme e.2) with
  | none => s
  | some f =>
    let xs := (model.filter fun m => decide (f.marea ≤ m.1 ∧ m.1 + m.2.length ≤ f.marea + f.mbytes)).map fun m =>
      (m.1 - f.marea, m.2)
    let (v, s) := s.draw
    s.prsMod fun p => { p with slots := Tab.put p.slots e.1 { forme := some { f with data := f.data ++ xs }, en := v % 2 == 1 } }

/-- MODEL_SET_FROM_PEER (R71, R500): the digests of the two model sets are compared; where they differ the peer's replaces this module's,
before PRESS is set, while the proofs of the two seats diverge, or when a promotion was imposed without this seat (R290). -/
def State.peerModel (s : State) (formes model : List (Nat × List Byte)) : State :=
  if !s.peerToken || (s.on Reg.GLB_BOOTSTAT_PRESS && !(s.standby && (s.on Reg.ROS_STAT_PDIV || s.ros.modelAsk))) then s
  else
    let own := s
    let old := digest8 s.modelDigest
    let s := formes.foldl (fun s e => s.peerForme model e) (s.slotsGiveWay.prsMod fun p => { p with slots := [] })
    if s.modelDigest == own.modelDigest then
      (if !own.on Reg.GLB_BOOTSTAT_PRESS then own.modelDone
      else if 3 ≤ own.ros.pMiss then (own.set Reg.ROS_STAT_PDIV 1).rosMod fun r => { r with modelAsk := false }
      else own.rosMod fun r => { r with modelAsk := false })
    else
    let xs := s.prs.slots.filterMap fun e => e.2.forme.map fun f => (e.1, (f, e.2.en))
    let s := s.prsMod fun p => { p with prevStore := p.store, store := xs }
    let s := if s.on Reg.GLB_BOOTSTAT_PRESS then s.loadModel.blindTick false else if s.glb.modelWait then s.loadModel else s
    let s : State := { s with glb := { s.glb with hflags := setBit s.glb.hflags 2 true } }
    let s := s.logC (.peer (1 - s.get Reg.GLB_SEAT_SEAT) 0 0xFFFF) 3 0 0 2 0 old (digest8 s.modelDigest) true
    (((s.set Reg.ROS_STAT_PDIV 0).rosMod fun r => { r with pMiss := 0, pGood := 0, modelAsk := false }).raise (detN 12 6) 0 0).modelDone

/-- MODEL_SET_FROM_PEER (R71). -/
def execModelSetFromPeer (formes model : List (Nat × List Byte)) (s : State) : Out State :=
  .next (s.peerModel formes model).settle

/-- ENUM_RETRY (R73): 5 s after it failed, an enumeration is repeated. -/
def execEnumRetry (ring : Nat) (s : State) : Out State :=
  .next (if (s.bring ring).retry.isSome ∧ (s.bring ring).enum = 0 then s.enumStart ring else s)

/-! ## Module reset (R55, R57) -/

/-- LEAVE of reason 5: the token is given up for a module reset (R401). It takes access as any frame does (R374, R375); the reset does
not wait for it (log entry 98). -/
def State.leaveForReset (s : State) : State := (s.queueLeave 5).access

/-- The command completes OK, then the reset follows (R57). -/
def State.resetAfter (s : State) (r : Nat) (d : Desc) (left : Bool) : State :=
  let s := s.completeLate r 0x0105 d 0 0 0
  (if left then s.leaveForReset else s).moduleReset 4

/-- MODULE_RESET (R57): with the token held and no force flag the peer must take it first. -/
def execModuleReset (r : Nat) (d : Desc) (s : State) : Out State :=
  .next (s.cmd r 0x0105 d { priv := 3 } fun s =>
    if s.col.resetWait.isSome then ok s
    else if !s.token ∨ bit d.p0 0 then { s := (s.logC (.host r) 2 0 0x0105 0 0 0 (bits d.p0 0 1)).resetAfter r d s.token, status := none }
    else if !s.on Reg.ROS_STAT_PREADY then bad s 0x19
    else if s.handBusy || s.ros.hand.isSome || s.ros.prove.isSome then bad s 0x16
    else
      let h := (s.logC (.host r) 2 0 0x0105 0 0 0 0).handStart 2 none
      { s := ({ h with glb := { h.glb with modReset := some (r, d) } } : State), status := none })

/-- MODULE_RESET_PROCEED (R57): the peer holds the token, or 10 ms have passed. -/
def execModuleResetProceed (s : State) : Out State :=
  .next (match s.glb.modReset with
    | none => s
    | some (r, d) =>
      let s : State := { s with glb := { s.glb with modReset := none } }
      if s.token then (s.handCancel).completeLate r 0x0105 d 0x19 0 0
      else s.resetAfter r d false)

/-- LOCKSTEP_RESET (R55): 100 ms after the halt of detector 0.0. -/
def execLockstepReset (s : State) : Out State :=
  .next (if s.halted && decide (0 < s.get (Reg.ERA_DINFO_COUNT 0)) && s.glb.powered && s.glb.lossStep == 0 && s.col.resetWait.isNone
    then s.moduleReset 7 else s)

/-! ## The management watchdog (R59) -/

/-- MGMT_WATCHDOG (R59): from stage MGMT on, the cluster resets; a second expiry within 10 s raises 7.0, a third raises it as halt class. -/
def execMgmtWatchdog (s : State) : Out State :=
  .next (
    if !(s.glb.chaseUp || s.bootAt 3) || s.glb.lossStep != 0 then s
    else
      let s := s.resetMark 5
      (({ s with glb := { s.glb with mgmtDown := true } } : State).wdogRaise false).settle)

/-- A handover that a command has staged does not take place (R59). -/
def State.handDiscard (s : State) : State :=
  match s.ros.hand with
  | some h => if h.st.isSome then (s.rosMod fun r => { r with hand := none }).handEvt h.kind 1 h.at_ else s
  | none => s

/-- The changes staged and not yet imposed are discarded, each with CHANGE_DONE, outcome 2 and failure 0x13. -/
def State.discardStaged (s : State) : State :=
  let begun := fun (n : Nat) => s.prs.hier.any fun h => h.begun && h.st.no == n
  let cs := s.staged.filter fun c => !begun c.no
  let s : State := { s with staged := s.staged.filter fun c => begun c.no }
  let s := s.prsMod fun p => { p with slots := p.slots.map fun e => (e.1, { e.2 with staged := none, due := none }) }
  let s := if s.prs.hier.any fun h => !h.begun then
    ((s.prsMod fun p => { p with hier := none }).set Reg.GLB_HIER_TARGET 0).replaceLater 3 else s
  let s := (s.promoBack 2 0x13).handDiscard
  (cs.foldl (fun s c => s.changeDone c 2 0 0x13) s).listDiscard 0x13

/-- MGMT_RESTART_DONE (R59): the management firmware runs again. The restart of an update step ends by its own row. -/
def execMgmtRestartDone (s : State) : Out State :=
  .next (if s.glb.mgmtDown && !(s.stepNow.any fun x => x.type == 4 && x.st == 1) then
    let s := s.discardStaged
    { s with glb := { s.glb with mgmtDown := false } }
  else s)

/-! ## The PCIe link and configuration space (R63, R82, R84, R586) -/

/-- PCIE_LINK_UP (R82): rate code 5 is 32 GT/s. The transmitters are idle in reset and from the power-down of the loss sequence on
(R47, R52). -/
def execPcieLinkUp (rate width : Nat) (s : State) : Out State :=
  .next (
    if !s.glb.powered || s.hst.perst || bit (s.get Reg.GLB_ISL_RST_ISL) 12 || decide (2 ≤ s.glb.lossStep) then s
    else
      let s : State := { s with hst := { s.hst with linkUp := true } }
      let low := decide (rate < 5 ∨ width < 16)
      let s := ((s.set Reg.HST_STAT_LSPD rate).set Reg.HST_STAT_LWID width).setB Reg.HST_STAT_DEGR low
      (s.level (detN 6 0) 0 0 low).settle)

/-- Bits `[lo + w - 1 : lo]` of a value are replaced. -/
def withBits (v lo w x : Nat) : Nat := v - bits v lo w * 2 ^ lo + x % 2 ^ w * 2 ^ lo

/-- The writable bits of a base address register, and the bits that read as fixed (R83, R557): BAR0, BAR2 and BAR4 are 64 bits wide; in
Flyleaf there is BAR0 alone. -/
def barMask (fly : Bool) (k : Nat) : Nat × Nat :=
  match k with
  | 0 => (if fly then 0xFFFF0000 else 0xFFF00000, 4)
  | 1 => (0xFFFFFFFF, 0)
  | 2 => if fly then (0, 0) else (0xFFE00000, 4)
  | 4 => if fly then (0, 0) else (0xFFFFF000, 0xC)
  | _ => if fly then (0, 0) else (0xFFFFFFFF, 0)

/-- Offset `k` of a capability whose place is `base`. -/
def capAt (base k off : Nat) : Bool := off == base + k

/-- The three capabilities of R81 below offset 0x100, in one list: Power Management, PCI Express, MSI-X; no MSI (the order is the
model's). `v` is what the base specification fixes beside the identifier and the link. -/
def capHead (off v : Nat) : Option Nat :=
  if off = 0x34 then some (Config.pmCap % 256)
  -- neither D1 nor D2
  else if off = Config.pmCap then some (withBits (withBits v 0 16 (Config.pcieCap % 256 * 256 + 1)) 25 2 0)
  else if off = Config.pcieCap then some (withBits v 0 16 (Config.msixCtl % 256 * 256 + 0x10))
  else if off = Config.msixCtl then some (withBits v 0 16 0x11)
  else none

/-- The PCI Express Device Capabilities 2 word (R81): no atomic operations, no TPH, 10-bit tags both ways. -/
def devCap2 (v : Nat) : Nat := withBits (withBits (withBits v 6 4 0) 12 2 0) 16 2 3

/-- A read of configuration space: the identity values of R586, the BARs of R83, the capabilities of R81, and free values for the
rest, which the base specification fixes. -/
def State.configRead (s : State) (off : Nat) : Nat × State :=
  let (v, s) := s.draw
  let v := v % 2 ^ 32
  let fly := s.stage == 0xE
  let x :=
    if off = 0 then 0x96401F3C
    else if off = 4 then withBits v 2 1 (b2n s.hst.busMaster)
    else if off = 8 then 0x118000B0
    -- one function
    else if off = 0xC then withBits v 16 8 0
    else if 0x10 ≤ off ∧ off < 0x28 then ((s.hst.bars[(off - 0x10) / 4]?).getD 0) ||| (barMask fly ((off - 0x10) / 4)).2
    else if off = 0x2C then (if fly then 0x00F11F3C else 0x00031F3C)
    -- no INTx
    else if off = 0x3C then withBits v 8 8 0
    else if capAt Config.pcieCap 4 off then withBits (withBits v 0 3 2) 28 1 1
    else if capAt Config.pcieCap 8 off then withBits v 0 16 s.hst.devCtl
    else if capAt Config.pcieCap 0xC off then withBits (withBits (withBits v 0 4 5) 4 6 16) 10 2 0
    else if capAt Config.pcieCap 0x24 off then devCap2 v
    else if capAt Config.pmCap 4 off then withBits v 0 2 (if s.hst.d3 then 3 else 0)
    else if capAt Config.aerCap 4 off then s.hst.aer
    else if capAt Config.aerCap 0x10 off then s.hst.aerCor
    else if off = Config.ptmCtl then withBits v 0 1 (b2n s.hst.ptmEnable)
    else if off = Config.msixCtl then withBits (withBits ((capHead off v).getD v) 16 11 2047) 30 1 (b2n s.hst.msixMask)
    else if capAt Config.msixCtl 4 off then 0x100002
    else if capAt Config.msixCtl 8 off then 0x108002
    else (capHead off v).getD v
  (x, s)

/-- A write of configuration space: Bus Master Enable, the BARs, the payload and request sizes, D0 and D3hot, the errors of AER, PTM Enable
and the MSI-X function mask; messages and writes that waited go out once nothing stands in their way (R84, R85). -/
def State.configWrite (s : State) (off v : Nat) : State :=
  let h := fun (f : Hst → Hst) => ({ s with hst := f s.hst } : State)
  if off = 4 then s.dmaChange (bit v 2) (s.on Reg.HST_CTL_DMA_EN)
  else if 0x10 ≤ off ∧ off < 0x28 then
    h fun x => { x with bars := x.bars.set ((off - 0x10) / 4) (v &&& (barMask (s.stage == 0xE) ((off - 0x10) / 4)).1) }
  else if capAt Config.pcieCap 8 off then h fun x => { x with devCtl := v % 2 ^ 15 }
  else if capAt Config.pmCap 4 off then
    if v % 4 = 3 then h fun x => { x with d3 := true }
    else if v % 4 = 0 then (h fun x => { x with d3 := false }).dmaFlush
    else s
  else if capAt Config.aerCap 4 off then h fun x => { x with aer := x.aer - (x.aer &&& v) }
  else if capAt Config.aerCap 0x10 off then h fun x => { x with aerCor := x.aerCor - (x.aerCor &&& v) }
  else if off = Config.ptmCtl then h fun x => { x with ptmEnable := bit v 0 }
  else if off = Config.msixCtl then (h fun x => { x with msixMask := bit v 30 }).msixFlush
  else s

/-- CONFIG_REQUEST (R63): Retry Status until the device settles; a write completes without data. -/
def execConfigRequest (off : Nat) (write : Option Nat) (s : State) : Out State :=
  .next (
    if !s.hst.linkUp then s
    else if !s.glb.settled then s.emit (.config none)
    else match write with
      | some v => s.configWrite off v
      | none => let (x, s) := s.configRead off
        s.emit (.config (some x)))

end Sys2Proof.Machine
end

