-- ==== Sys2Proof/Machine/Access.lean ====
section
/-!
DEFINITION. The host's accesses to BAR0, BAR2 and BAR4 (R8 to R12, R63, R83, R570, R588, R589, R603), the GLB control words (R591 to R595), and the recovery
BAR and UART of Flyleaf beside its image commands (R557, R558).
-/
namespace Sys2Proof.Machine

/-! ## What a write does (R8, R603) -/

/-- The point at which a write to a RW field of the register at `off` takes effect (R603), none for at once: PRS_FCTL, the galley
and the trainer at a press-cycle boundary; STL, FEN and ROS at a period boundary; BUP at a SNAP. -/
def writePoint (off : Nat) : Option Point :=
  match off / 0x10000 with
  | 2 => if off % 0x10000 < 0x1000 then none else some .press
  | 4 => if off = 0x40040 ∨ off = 0x40080 ∨ off = 0x400A0 then none else some .period
  | 5 => some .snap
  | 6 | 7 => some .period
  | _ => none

/-- Registers whose writes are not logged: the window selections, GLB_SCRATCH (R591) and the counters (R571). -/
def unlogged (off : Nat) : Bool :=
  [0xF0, 0x10010, 0x30080, 0x40040, 0x40080, 0x400A0, 0x80018, 0x90018].contains off

/-- The context registers of a ring: each write is logged (R121). -/
def ringContext (off : Nat) : Bool := decide (0x10014 ≤ off ∧ off ≤ 0x1004C)

/-- Writes to PRF_CTL and PRF_SEL are counted (R570). -/
def prfControl (off : Nat) : Bool :=
  off == 0xB0004 || decide (0xB0100 ≤ off ∧ off < 0xB0700 ∧ 0x60 ≤ off % 0x100 ∧ off % 0x100 < 0x80)

/-- The halves of the programmable counters (R565). -/
def prfCounter (off : Nat) : Bool := decide (0xB0100 ≤ off ∧ off < 0xB0700 ∧ 0x10 ≤ off % 0x100 ∧ off % 0x100 < 0x50)

/-- One field of a register takes its bits of a write: RW at once or at its point, W1C cleared by 1; RO, RC and WO ignore it. -/
def State.fieldWrite (s : State) (row : RegRow) (off idx v : Nat) (f : RField) : State :=
  let h := f.home row off idx
  match f.acc with
  | .rw =>
    let x := putBits (s.pendOf h) f.sh f.width (bits v f.lo f.width)
    match writePoint off with
    | none => s.set h x
    | some p => s.later h x p
  | .w1c => s.set h (s.get h &&& ((2 ^ f.full - 1) ^^^ (bits v f.lo f.width * 2 ^ f.sh)))
  | .w1s => s.set h (s.get h ||| (bits v f.lo f.width * 2 ^ f.sh))
  | _ => s

/-- A register takes a write of 32 bits in its window entry, and a write that changes configuration is logged (R121, R591). -/
def State.plainWrite (s : State) (off v : Nat) : State :=
  match regRow off with
  | none => s
  | some row =>
    let idx := if row.windowed then s.window off else 0
    let m := rwMask row
    if row.windowed && !windowOk off idx then s
    else
      let old := s.stored off idx
      let s := row.fields.foldl (fun s f => s.fieldWrite row off idx v f) s
      let s := if (m = 0 ∧ !ringContext off) ∨ unlogged off then s else s.logC regOrigin 1 0 0 (off / 0x10000) (off % 0x10000) (old &&& m) (v &&& m)
      if prfControl off then { s with prf := { s.prf with writes := s.prf.writes + 1 } } else s

/-- A write to a context register of an enabled ring is ignored and sets CFGLOCK (R88); it is logged all the same (R121). DESIGN CHOICE
(unsafe): OLD of the entry is what the register holds and NEW the value written, though it is not taken, both over the bits that software
writes, so that a RO or RC register gives 0 and 0 (log entry 94). -/
def State.contextWrite (s : State) (off v : Nat) : State :=
  let r := s.get Reg.HST_RSEL_RING
  if s.on (Reg.HST_RSTAT_EN r) then
    let m := (regRow off).elim 0 rwMask
    (s.logC regOrigin 1 0 0 1 (off % 0x10000) (s.stored off r &&& m) (v &&& m)).set Reg.HST_STAT_CFGLOCK 1
  else s.plainWrite off v

/-- HST_CTL is written: the other fields at once, DMA_EN as R84 states. -/
def State.hstCtlWrite (s : State) (v : Nat) : State := (s.plainWrite 0x10004 v).dmaChange s.hst.busMaster (bit v 0)

/-- CHS registers: RW fields are staged (R326); the summary and the marks are W1C. -/
def State.chsAnyWrite (s : State) (off v : Nat) : State :=
  match regRow off with
  | none => s
  | some row =>
    if row.fields.any fun f => f.acc = .w1c then
      if row.fields.all fun f => f.acc = .w1c && f.width == 32 then s.fesumClear ((off - row.addr) / row.stride) v
      else s.plainWrite off v
    else s.chsWrite (off - 0x30000) v

/-! ## GLB control words -/

/-- A Flyleaf request is refused (R595). -/
def State.flyRefuse (s : State) (why : Nat) : State := (s.set Reg.GLB_STAT_FLYREF 1).set Reg.GLB_STAT_FLYWHY why

/-- A write to GLB_CTL (R595). A request that is not refused is logged; the open pages are committed and the reset follows. -/
def State.flyRequest (s : State) (v : Nat) : State :=
  if !bit v 0 then s
  else if s.token then s.flyRefuse 1
  else if s.upd.plan.isSome then s.flyRefuse 2
  else if bits v 16 16 ≠ 0xF17E then s.flyRefuse 3
  else
    let s := s.logC regOrigin 1 0 0 0 0x30 0 1
    let s : State := { s with glb := { s.glb with flyNext := true } }
    if s.col.resetWait.isSome then s
    else s.colMod fun c => { c with resetWait := some 4, committing := true }

/-- A write to GLB_START (R591, R594): with AUTO set in WAIT an active role is taken at the next boundary. -/
def State.startMode (s : State) (v : Nat) : State :=
  let s := s.plainWrite 0x38 v
  if s.stage = 6 ∧ s.on Reg.GLB_START_MODE ∧ s.roleRow = 1 then { s with glb := { s.glb with roleDue := true } } else s

/-! ## Accesses (R63, R588) -/

/-- A write of 4 bytes acts on one register. -/
def State.regWrite (s : State) (off v : Nat) : State :=
  if off = 0x30 then s.flyRequest v
  else if off = 0x38 then s.startMode v
  else if off = 0x10004 then s.hstCtlWrite v
  else if off = 0x10014 then
    if v % 8 = 1 then s.ringEnableW (s.get Reg.HST_RSEL_RING)
    else if v % 8 = 2 then s.ringDisable (s.get Reg.HST_RSEL_RING)
    else s.logC regOrigin 1 0 0 1 0x14 0 (v % 8)
  else if off = 0x10100 then (s.plainWrite off v).recap
  else if 0x10018 ≤ off ∧ off ≤ 0x1004C then s.contextWrite off v
  else if off / 0x10000 = 3 then s.chsAnyWrite off v
  else if off = 0x4004C then s.linkMapWrite false v
  else if off = 0x40050 then s.linkMapWrite true v
  else if prfCounter off then s.counterWrite ((off - 0xB0100) / 0x100) ((off % 0x100 - 0x10) / 8) (off % 8 == 4) v
  else if off = 0xB000C then s.keepSeed.plainWrite off v
  else if 0x80100 ≤ off ∧ off < 0x80130 then s.dstatClear ((off - 0x80100) / 4) v
  else s.plainWrite off v

/-- The registers of Flyleaf that a write sets (R557). -/
def State.flyRegWrite (s : State) (off v : Nat) : State :=
  if off = 0xC then s.updMod fun u => { u with flyLen := v % 2 ^ 32 }
  else if off = 0x14 then s.updMod fun u => { u with flyVsel := v % 8 }
  else s

/-! ## BAR2 and BAR4 (R83, R85, R99, R570, R589)

The commands give the BARs one address each: BAR0 from 0, BAR2 from 0x200000, BAR4 from 0x400000 (log entry 79). -/

/-- An address lies in BAR2. -/
def inBar2 (off : Nat) : Bool := decide (0x200000 ≤ off ∧ off < 0x400000)

/-- Word `k` of an entry of the MSI-X table. -/
def MsixEntry.word (e : MsixEntry) (k : Nat) : Nat :=
  match k with
  | 0 => e.addr % 2 ^ 32
  | 1 => e.addr / 2 ^ 32
  | 2 => e.data
  | _ => b2n e.masked

/-- A word of an entry of the MSI-X table is written; bits 1 and 0 of the address are 0. -/
def MsixEntry.put (e : MsixEntry) (k v : Nat) : MsixEntry :=
  match k with
  | 0 => { e with addr := e.addr / 2 ^ 32 * 2 ^ 32 + v / 4 * 4 }
  | 1 => { e with addr := e.addr % 2 ^ 32 + v * 2 ^ 32 }
  | 2 => { e with data := v }
  | _ => { e with masked := bit v 0 }

/-- A write of one word to the MSI-X table; a vector whose mask is cleared sends what it owes (R85). The rest of BAR2 ignores
writes. -/
def State.msixWrite (s : State) (o v : Nat) : State :=
  if 0x100000 ≤ o ∧ o < 0x108000 then
    let n := (o - 0x100000) / 16
    let s : State := { s with hst := { s.hst with msix := Tab.put s.hst.msix n ((Tab.get s.hst.msix n {}).put (o / 4 % 4) v) } }
    s.msixFlush
  else s

/-- A write to BAR2: a doorbell (R99), or the MSI-X table in words or pairs of words. -/
def State.bar2Write (s : State) (o size v : Nat) : State :=
  if o < 0x100000 then s.doorbell (o / 0x40) v (size == 4 && o % 0x40 == 0)
  else if size = 4 ∧ o % 4 = 0 then s.msixWrite o (v % 2 ^ 32)
  else if size = 8 ∧ o % 8 = 0 then (s.msixWrite o (v % 2 ^ 32)).msixWrite (o + 4) (v / 2 ^ 32 % 2 ^ 32)
  else s

/-- A word of BAR2 as it reads: 0 but for the MSI-X table and the pending bits (R589). -/
def State.bar2Read (s : State) (o : Nat) : Nat :=
  if 0x100000 ≤ o ∧ o < 0x108000 then (Tab.get s.hst.msix ((o - 0x100000) / 16) {}).word (o / 4 % 4)
  else if 0x108000 ≤ o ∧ o < 0x108100 then packBits 32 fun j => (Tab.get s.hst.msix (8 * (o - 0x108000) + j) {}).pend
  else 0

/-- A word of BAR4 as it reads (R570). -/
def State.bar4Read (s : State) (o : Nat) : Nat :=
  if !s.on Reg.PRF_CTL_USR then 0
  else if o = 0xF00 then 0x96405043
  else if o = 0xF04 then s.prf.writes % 2 ^ 32
  else if 0x600 ≤ o then 0
  else
    let b := 0xB0100 + o / 0x100 * 0x100
    match o % 0x100 with
    | 0 => s.read (b + 8) 0
    | 4 => s.read (b + 12) 0
    | 8 => s.read b 0
    | k => if 0x10 ≤ k ∧ k < 0x50 then s.read (b + k) 0 else 0

/-- REGISTER_WRITE (R588, R603): 4 bytes at a 4-byte boundary, or 8 at an 8-byte boundary; any other is ignored and marked. -/
def State.busWrite (s : State) (off size v : Nat) : State :=
  if s.stage = 0xE then (if s.barUp && size == 4 then s.flyRegWrite off (v % 2 ^ 32) else s)
  else s.hostWrite fun s =>
    if inBar2 off then s.bar2Write (off - 0x200000) size v
    -- writes to BAR4 are ignored (R570)
    else if 0x400000 ≤ off then s
    else if size = 4 ∧ off % 4 = 0 then s.regWrite off (v % 2 ^ 32)
    else if size = 8 ∧ off % 8 = 0 then (s.regWrite off (v % 2 ^ 32)).regWrite (off + 4) (v / 2 ^ 32 % 2 ^ 32)
    else s.set Reg.GLB_STAT_BADWR 1

/-- REGISTER_WRITE (R603). -/
def execRegisterWrite (off size v : Nat) (s : State) : Out State := .next (s.busWrite off size v).settle

/-- FLYLEAF_REQUEST (R595). -/
def execFlyleafRequest (v : Nat) (s : State) : Out State := .next (s.hostWrite fun s => s.flyRequest v)

/-- START_MODE_WRITE (R594). -/
def execStartModeWrite (v : Nat) (s : State) : Out State := .next (s.hostWrite fun s => s.startMode v)

/-- What a register reads as in Flyleaf (R557). -/
def State.flyRead (s : State) (off : Nat) : Nat :=
  match off with
  | 0 => 0x9640 + s.glb.flyCond * 65536 + 0xF1000000
  | 8 => s.upd.flyStat
  | 0xC => s.upd.flyLen
  | 0x10 => if 6 ≤ s.upd.flyVsel then 0 else s.version (s.upd.flyVsel + 1)
  | 0x14 => s.upd.flyVsel
  | _ => 0

/-- What a register, or a word of BAR2 or BAR4, reads as: in Flyleaf its own registers; before stage HOST zero, but for GLB_BOOTSTAT and GLB_RSTCAUSE
(R63, R588). -/
def State.busReg (s : State) (off : Nat) : Nat :=
  if s.stage = 0xE then s.flyRead off
  else if inBar2 off then s.bar2Read (off - 0x200000)
  else if 0x400000 ≤ off then s.bar4Read (off - 0x400000)
  else if !s.glb.hostUp && off != 0x24 && off != 0x20 then 0
  else s.read off (s.window off)

/-- A read clears the RC fields of the register as a whole (R8, R588). -/
def State.readClear (s : State) (off : Nat) : State :=
  if s.stage = 0xE ∨ !s.glb.hostUp then s
  else
    match regRow off with
    | none => s
    | some row => row.fields.foldl (fun s f =>
        if f.acc = .rc then s.set (f.home row off (if row.windowed then s.window off else 0)) 0 else s) s

/-- REGISTER_READ_CLEAR (R8, R588): a read of 1, 2, 4 or 8 bytes; a longer one, or one that crosses an 8-byte boundary, completes
with Completer Abort, which AER shows (R81). -/
def State.busRead (s : State) (off size : Nat) : State :=
  if !s.barUp then s
  else if size = 8 ∧ off % 8 = 0 then
    let v := s.busReg off + s.busReg (off + 4) * 2 ^ 32
    ((s.readClear off).readClear (off + 4)).emit (.read v)
  else if size = 4 ∧ off % 4 = 0 then (s.readClear off).emit (.read (s.busReg off))
  else if (size = 1 ∨ size = 2) ∧ off % 4 + size ≤ 4 then
    let a := off / 4 * 4
    (s.readClear a).emit (.read (bits (s.busReg a) (8 * (off % 4)) (8 * size)))
  else ({ s with hst := { s.hst with aer := s.hst.aer ||| 0x8000, aerCor := s.hst.aerCor ||| 0x2000 } } : State).emit .abort

/-- REGISTER_READ_CLEAR (R8). -/
def execRegisterReadClear (off size : Nat) (s : State) : Out State := .next (s.busRead off size)

/-- The register at `off` is the LO half of a 64-bit pair, or its HI half. -/
def isLo (off : Nat) : Bool := (regRow off).any fun r => r.fields.any fun f => f.back == 0 && decide (32 < f.full)
def isHi (off : Nat) : Bool := (regRow off).any fun r => r.fields.any fun f => f.back != 0

/-- LO_READ_CAPTURE (R11): a read of LO captures HI for the requester; its next read of HI returns the captured half. -/
def State.loRead (s : State) (req off : Nat) : State :=
  let key := req * 2 ^ 20 + off
  if !s.barUp then s
  else if isLo off then
    let s : State := { s with hst := { s.hst with holding := Tab.put s.hst.holding (key + 4) (s.busReg (off + 4)) } }
    s.emit (.read (s.busReg off))
  else if isHi off then
    let v := (Tab.find s.hst.holding key).getD (s.busReg off)
    ({ s with hst := { s.hst with holding := Tab.del s.hst.holding key } }).emit (.read v)
  else s.busRead off 4

/-- LO_READ_CAPTURE (R11). -/
def execLoReadCapture (req off : Nat) (s : State) : Out State := .next (s.loRead req off)

/-! ## BOOT and the service UART of Flyleaf (R557, R558) -/

/-- BOOT: the READY slots become active without a journal, the boot-failure count is cleared, and the module resets under code
0x01; reason 11 when the set would not be compatible (R543). -/
def State.flyBoot (s : State) : State :=
  let new := imgTypes.filter fun t => (s.img t (s.spareSlot t)).st == 2
  if !s.setGood new then s.flyDone 11
  else
    let s := new.foldl (fun s t =>
      let k := s.spareSlot t
      (s.imgMod t (1 - k) fun y => { y with st := if y.st = 3 then 2 else y.st }).imgMod t k fun y => { y with st := 3 }) s
    let s : State := { s with nv := { s.nv with bootFail := 0, cleanMark := true } }
    s.resetGoes 1

/-- FLY_BOOT (R557). -/
def execFlyBoot (s : State) : Out State := .next (s.inFly fun s => s.flyBoot)

/-- The answer to a message of the service UART. -/
def State.uartAnswer (s : State) (cmd stat : Nat) : State :=
  -- UART_TX stays high in the loss sequence (R52)
  if s.glb.lossStep ≠ 0 then s else s.emit (.uart (sealed (le 1 0xA5 ++ le 1 (0x80 + cmd) ++ le 2 4 ++ le 4 stat)))

/-- A message of the service UART (R558). The command byte is laid out as FLY_CMD [7:0]. A bad CRC or length is answered with
reason 0xFF. -/
def State.uartIn (s : State) (m : List Byte) (sig : Bool) : State :=
  let cmd := rd m 1 1
  let n := rd m 2 2
  let t := bits cmd 4 4
  let body := (m.drop 4).take n
  if rd m 0 1 ≠ 0xA5 then s
  else if m.length ≠ n + 8 ∨ 4096 < n ∨ crc32 (m.take (4 + n)) ≠ rd m (4 + n) 4 then s.uartAnswer cmd (2 + 4 * 0xFF)
  else
    match cmd % 16 with
    | 1 => let s := s.flyOpen t body sig
      s.uartAnswer cmd s.upd.flyStat
    | 2 => let s := s.flyWrite t n body
      s.uartAnswer cmd s.upd.flyStat
    | 3 => let s := s.flyFinish t
      s.uartAnswer cmd s.upd.flyStat
    | 4 => let s := s.flyAbort t
      s.uartAnswer cmd s.upd.flyStat
    | 5 => let b := s.flyBoot
      -- the answer goes out before the reset
      { b with out := (s.uartAnswer cmd (if s.setGood (imgTypes.filter fun t => (s.img t (s.spareSlot t)).st == 2) then 2 else b.upd.flyStat)).out ++
                 b.out.drop s.out.length }
    | _ => s.uartAnswer cmd s.upd.flyStat

/-- UART_MESSAGE (R558). -/
def execUartMessage (m : List Byte) (sig : Bool) (s : State) : Out State := .next (s.inFly fun s => s.uartIn m sig)

end Sys2Proof.Machine
end

