-- ==== Sys2Proof/Machine/Beacon.lean ====
section
/-!
DEFINITION. Beacons, leadership and the receiver of the Fennal carrier (R370, R371, R377 to R383, R397 to R404).
-/
namespace Sys2Proof.Machine

/-! ## Beacons received (R381 to R383, R398) -/

/-- The offset steps to `o` with r = 0; TIME_STEP when it changes (R383, R398). -/
def State.timeStep (s : State) (o : Int) (rx n : Nat) : State :=
  let old := s.gofs rx
  let s := ((s.setS Reg.FEN_GOFS o).set Reg.FEN_RATE 0).fenMod fun f => { f with upd := rx }
  if o = old then s
  else (s.evt 6 0x0704 (le 8 (ofS 64 (o - old)) ++ le 4 n)).raise (detN 19 3) 0 (s.get Reg.FEN_STAT_LRANK)

/-- A rank is the leader from now on; LEADER at a change (R398). -/
def State.setLeader (s : State) (rank n : Nat) : State :=
  let same := s.on Reg.FEN_STAT_LRANKV && s.get Reg.FEN_STAT_LRANK == rank
  let s := (s.set Reg.FEN_STAT_LRANK rank).set Reg.FEN_STAT_LRANKV 1
  if same then s else s.evt 6 0x0713 (le 1 rank ++ zeros 3 ++ le 4 n ++ zeros 4)

/-- The first authenticated beacon: the station joins (R381). -/
def State.join (s : State) (src rx : Nat) (tx : Int) (n : Nat) : State :=
  let s := (s.set Reg.FEN_STAT_JOINED 1).setLeader src n
  let s := ((s.setS Reg.FEN_GOFS (tx - rx)).set Reg.FEN_RATE 0).fenMod fun f => { f with upd := rx, near := 0, far := 0 }
  s.evt 6 0x0700 (le 4 (s.get Reg.FEN_GROUP) ++ le 1 src ++ zeros 3 ++ le 4 n)

/-- The offset and rate follow a later beacon (R382), and ALIGNED and FAR with it (R383). -/
def State.track (s : State) (rx : Nat) (tx : Int) (n : Nat) : State :=
  let op := s.gofs rx
  let e := (tx - rx) - op
  let a := e.natAbs
  let s := s.setS Reg.FEN_TERR (satS 32 e)
  let s := if a ≤ 50000 then
      ((s.setS Reg.FEN_GOFS (op + rne e 2)).setS Reg.FEN_RATE (s.getS Reg.FEN_RATE + rne e 4)).fenMod fun f =>
        { f with upd := rx, far := 0, near := if a ≤ 2000 then f.near + 1 else 0 }
    else s.fenMod fun f => { f with far := f.far + 1, near := 0 }
  let s := if 2000 < a then s.set Reg.FEN_STAT_ALIGNED 0 else s
  if s.fen.near = 3 then (s.set Reg.FEN_STAT_ALIGNED 1).set Reg.FEN_STAT_FAR 0
  else if s.fen.far = 3 then
    ((s.set Reg.FEN_STAT_FAR 1).fenMod fun f => { f with far := 0, queue := [] }).timeStep (tx - rx) rx n
  else s

/-- What every beacon of the leader brings: its number, the mask in force, the pending mask, the contract (R365, R380,
R399). -/
def State.beaconBody (s : State) (rx n : Nat) (p : List Byte) : State :=
  let s := s.fenMod fun f => { f with miss := 0, missAny := 0, bNum := some n, bEnd := rx + airtime 168,
                                      pend := if bit (rd p 13 1) 0 then some (rd p 16 4, rd p 52 32) else none }
  let s := ((s.set Reg.FEN_BCN n).set Reg.FEN_STAT_BLOST 0).levelOff (detN 19 2)
  let s := if s.mask = rd p 20 32 then s else s.putMask n (rd p 20 32)
  let c := contractOf p
  let s := s.grpMod fun g => { g with heard := some c, lapsed := false,
                                      cnumMax := if newer32 c.cnum g.cnumMax then c.cnum else g.cnumMax }
  let s := if n % 10 = 0 then s.putClasses ((List.range 8).map s.posClass) else s
  s.groupJudge

/-- An authenticated BEACON (R381 to R383, R398). A station whose position another shelf claims (R67), or whose straps failed
their parity (R39), does not join. -/
def State.takeBeacon (s : State) (src rx : Nat) (p : List Byte) : State :=
  let n := rd p 0 4
  let tx := toS 64 (rd p 4 8)
  if s.posBad || !s.on Reg.GLB_SEAT_PAROK then s
  else if s.on Reg.FEN_STAT_BEACONING then
    if src < s.rank then
      let s := (s.set Reg.FEN_STAT_BEACONING 0).fenMod fun f => { f with bWait := none }
      ((s.setLeader src n).timeStep (tx - rx) rx n).beaconBody rx n p
    else s
  else if !s.on Reg.FEN_STAT_JOINED then (s.join src rx tx n).beaconBody rx n p
  else if s.get Reg.FEN_STAT_LRANK = src then (s.track rx tx n).beaconBody rx n p
  else if s.on Reg.FEN_STAT_BLOST || decide (src < s.get Reg.FEN_STAT_LRANK) then
    ((s.setLeader src n).track rx tx n).beaconBody rx n p
  else s.fenMod fun f => { f with missAny := 0 }

/-! ## Beacons sent (R375, R380, R397) -/

/-- The payload of a beacon with number n (R380). -/
def State.beaconBytes (s : State) (n : Nat) : List Byte :=
  let (pend, eff, m) := match s.fen.pend with
    | some (e, m) => (1, e, m)
    | none => (0, 0, 0)
  le 4 n ++ le 8 (ofS 64 s.groupTime) ++ le 1 s.rank ++ le 1 pend ++ zeros 2 ++ le 4 eff ++ le 32 s.mask ++ le 32 m ++
    (match s.grp.heard with
      | some c => c.bytes
      | none => zeros 56)

/-- The beacon with number n is begun now. -/
def State.sendBeacon (s : State) (n : Nat) : State :=
  let p := s.beaconBytes n
  let a := (s.fenMod fun f => { f with bWait := none }).sendFrame { typ := 2, pri := 3, dst := 0xFF, payload := p }
  if a.1.isNone then a.2
  else
    let s := a.2.fenMod fun f => { f with bNum := some (n % 2 ^ 32), bEnd := s.time + airtime 168 }
    (s.set Reg.FEN_BCN n).bump Reg.FEN_TXOK

/-- BEACON_INSTANT (R380): the masks due come into force; the leader renews the contract every 100 ms, judges the mask and
sends its beacon, at once when the medium is idle. Another station counts the instants since the last beacon (R383, R397), also one that
hears nothing, its carrier being off. -/
def State.beaconInstant (s : State) : State :=
  let n := s.instant
  let s := (s.stopLead).maskDue (n % 2 ^ 32)
  if s.on Reg.FEN_STAT_BEACONING then
    if !s.fenUp then s else
    let s := if n % 10 = 0 then (s.renew n false).groupJudge else s
    let s := s.maskJudge n
    let s := s.frameFrom s.rank
    if s.medium then s.fenMod fun f => { f with bWait := some n } else s.sendBeacon n
  else
    s.fenMod fun f => { f with miss := f.miss + 1, missAny := f.missAny + 1 }

/-- BEACON_INSTANT (R380). -/
def execBeaconInstant (s : State) : Out State := .next s.beaconInstant

/-- BEACON_SKIPPED (R380): the beacon that waits has not begun by B + 2 ms. A mask that it was the first to carry comes into force a
beacon later, at least 2 beyond the beacon that first carries it (R366). -/
def execBeaconSkipped (s : State) : Out State :=
  .next (match s.fen.bWait with
    | none => s
    | some n => (s.bump Reg.FEN_BSKIP).fenMod fun f =>
      { f with bWait := none, pend := f.pend.map fun e => if e.1 = (n + 2) % 2 ^ 32 then ((n + 3) % 2 ^ 32, e.2) else e })

/-- BEACON_LOSS (R383): 5 instants without the leader's beacon set BLOST and clear ALIGNED; after 100 without a beacon
JOINED clears. -/
def execBeaconLoss (s : State) : Out State :=
  .next (
    if s.on Reg.FEN_STAT_BEACONING then s
    else
      let s :=
        if s.on Reg.FEN_STAT_JOINED && !s.on Reg.FEN_STAT_BLOST && decide (5 ≤ s.fen.miss) then
          let s := ((s.set Reg.FEN_STAT_BLOST 1).set Reg.FEN_STAT_ALIGNED 0).fenMod fun f => { f with near := 0 }
          let s := s.evt 6 0x0701 (le 1 (s.get Reg.FEN_STAT_LRANK) ++ zeros 3 ++ le 4 (s.get Reg.FEN_BCN) ++ zeros 4)
          (s.levelOn (detN 19 2) 0 (s.get Reg.FEN_STAT_LRANK)).groupJudge
        else s
      if s.on Reg.FEN_STAT_JOINED && decide (100 ≤ s.fen.missAny) then
        ((s.set Reg.FEN_STAT_JOINED 0).set Reg.FEN_STAT_LRANKV 0).groupJudge
      else s)

/-- LEADER_START (R397): an eligible station that has heard no beacon for 5 + rank instants begins to send beacons. It
keeps its group time, with r = 0 (R398), and announces its contract. -/
def execLeaderStart (s : State) : Out State :=
  .next (
    if s.eligible && !s.on Reg.FEN_STAT_BEACONING && decide (5 + s.rank ≤ s.fen.missAny) then
      let o := s.gofs s.time
      let n := s.instant
      let was := s.on Reg.FEN_STAT_JOINED
      let s := ((s.setS Reg.FEN_GOFS o).set Reg.FEN_RATE 0).fenMod fun f =>
        { f with upd := s.time, miss := 0, missAny := 0, near := 0, far := 0 }
      let s := (s.set Reg.FEN_STAT_BEACONING 1).setLeader s.rank (n % 2 ^ 32)
      let s := ((s.set Reg.FEN_STAT_BLOST 0).levelOff (detN 19 2)).set Reg.FEN_STAT_ALIGNED 1
      let s := s.set Reg.FEN_STAT_JOINED 1
      let s := if was then s
        else s.evt 6 0x0700 (le 4 (s.get Reg.FEN_GROUP) ++ le 1 s.rank ++ zeros 3 ++ le 4 n)
      let s := s.grpMod fun g => { g with lapsed := false }
      (s.renew n true).groupJudge
    else s)

/-- BACKOFF_EXPIRY (R374, R380): a beacon that waits begins once the medium has been idle for the class-3 AIFS, without a back-off;
otherwise the frame that contends has access. A halted station sends no beacon (R473). -/
def State.backoffExpiry (s : State) : State :=
  match s.fen.bWait with
  | some n => if s.fenUp && !s.halted && !s.medium && decide (s.idleSince + aifs 3 ≤ s.time) then s.sendBeacon n else s
  | none => s.access

/-- BACKOFF_EXPIRY (R374, R380). -/
def execBackoffExpiry (s : State) : Out State := .next s.backoffExpiry

/-! ## The receiver (R370, R371, R377, R379) -/

/-- A delivered frame acts by its type. -/
def State.deliver (s : State) (typ src rx : Nat) (p : List Byte) : State :=
  let s := (s.bump Reg.FEN_RXOK).frameFrom src
  match typ with
  | 1 => s.takeAck src (rd p 0 4)
  | 2 => s.takeBeacon src rx p
  | 3 => s.takeTones src p
  | 0x10 => s.takeReport src p
  | 0x11 => s.takeLeave src p
  | _ => s.takePace p

/-- A frame of a stranger (R379): counted; more than STRTHR within a second raise the stranger detector and post STRANGERS,
at most once in 60 s. -/
def State.stranger (s : State) : State :=
  let s := s.bump Reg.FEN_STRANGER
  let ts := s.time :: s.fen.strangers.filter fun t => decide (s.time < t + 1000000000)
  let s := s.fenMod fun f => { f with strangers := ts }
  let thr := s.get Reg.FEN_CTL_STRTHR
  let soon := match s.fen.strAt with
    | some t => decide (s.time < t + 60000000000)
    | none => false
  if decide (thr = 0) || decide (ts.length ≤ thr) || soon then s
  else
    ((s.fenMod fun f => { f with strAt := some s.time }).evt 6 0x0703 (le 4 ts.length ++ zeros 8)).raise (detN 19 0) 0 ts.length

/-- An ACK for a frame: sent one SIFS after it, with no carrier sense and no back-off, under its own SEQ (R371). It is sent once: a repeat
would need the back-off that it has not (log entry 98). -/
def State.sendAck (s : State) (src seq : Nat) : State :=
  if !s.fenUp then s
  else
    let a := s.sendFrame { typ := 1, pri := 0, dst := src, payload := le 4 seq }
    if a.1.isNone then a.2 else a.2.fenMod fun f => { f with txEnd := f.txEnd + 36000 }

/-- An authenticated frame under this station's own rank that it did not send: the position is claimed by another shelf
(R67, R377). The station leaves the group and runs standalone. -/
def State.posClaim (s : State) : State :=
  let s := ((s.set Reg.FEN_STAT_JOINED 0).set Reg.FEN_STAT_ALIGNED 0).set Reg.FEN_STAT_BEACONING 0
  let s := (s.fenMod fun f => { f with bWait := none }).levelOn (detN 5 3) 0 (s.rank / 2)
  s.groupJudge

/-- The header fields of an authenticated frame are good: SRC, TYPE, LEN for the type, RSV 0, ACKREQ by DST (R370). -/
def headerGood (b : List Byte) : Bool :=
  let typ := rd b 0 1
  let fl := rd b 1 1
  let dst := rd b 3 1
  decide (rd b 2 1 ≤ 15) && fenLen typ == some (rd b 12 2) && decide (fl < 32) && rd b 14 2 == 0 &&
    bit fl 1 == (dst != 0xFF)

/-- The SEQ check of R377, and what follows from it; a frame with ACKREQ set is acknowledged, whatever its type (R370). -/
def State.seqCheck (s : State) (rx : Nat) (b : List Byte) : State :=
  let typ := rd b 0 1
  let src := rd b 2 1
  let seq := rd b 8 4
  let crc := rd b (b.length - 4) 4
  let key := bits (rd b 1 1) 0 1 * 16 + src
  let go := fun (s : State) =>
    let s := s.fenMod fun f => { f with last := Tab.put f.last key (seq, crc) }
    let s := if bit (rd b 1 1) 1 then s.sendAck src seq else s
    s.deliver typ src rx ((b.drop 16).take (rd b 12 2))
  match Tab.find s.fen.last key with
  | none => go s
  | some (q, c) =>
    if newer32 seq q then go s
    else if seq = q && bit (rd b 1 1) 2 && c == crc then
      if bit (rd b 1 1) 1 then s.sendAck src seq else s
    else s.bump Reg.FEN_REPLAY

/-- FENNAL_FRAME (R370): the checks in order; the first that fails decides. `rx` is the shelf time of the first preamble
sample; `good` says that the delimiters were good. -/
def State.fennalFrame (s : State) (rx : Nat) (good : Bool) (b : List Byte) : State :=
  if !s.on Reg.FEN_CTL_EN then s
  else if !(good && decide (rd b 12 2 ≤ 256) && b.length == 28 + rd b 12 2 &&
      rd b (b.length - 4) 4 == crc32 (b.take (b.length - 4))) then s.bump Reg.FEN_RXCRC
  else if s.get Reg.FEN_GROUP = 0 ∨ rd b 4 4 ≠ s.get Reg.FEN_GROUP then s.stranger
  else
    match s.fenKey (bits (rd b 1 1) 0 1) with
    | none => s.stranger
    | some k =>
      if (cmac k (b.take (16 + rd b 12 2))).take 8 != (b.drop (16 + rd b 12 2)).take 8 then s.stranger
      else if !headerGood b then s.bump Reg.FEN_RXBAD
      else
        -- a frame under this station's own rank that it did not send (R377); the checks of R370 go on for it
        let s := if rd b 2 1 = s.rank ∧ !s.fenSent (rd b 8 4) then s.posClaim else s
        if rd b 3 1 ≠ 0xFF ∧ rd b 3 1 ≠ s.rank then s else s.seqCheck rx b

/-- FENNAL_FRAME (R363, R370): `syms` holds the soft values of the 240 data tones of each data symbol. -/
def execFennalFrame (rx : Nat) (good : Bool) (syms : List (List Int)) (s : State) : Out State :=
  .next (s.fennalFrame rx good (s.demod rx syms))

/-- A frame that has passed every check of R370 is delivered while the carrier is up. -/
def State.delivered (s : State) (typ src rx : Nat) (p : List Byte) : State :=
  if s.fenUp then s.deliver typ src rx p else s

/-- BEACON (R382): an authenticated BEACON of rank `src`, its first preamble sample at shelf time `rx`. -/
def execBeacon (src rx : Nat) (p : List Byte) (s : State) : Out State := .next (s.delivered 2 src rx p)

/-- ACK (R371). -/
def execAck (src seq : Nat) (s : State) : Out State := .next (s.delivered 1 src s.time (le 4 seq))

/-- TONE_REPORT (R366). -/
def execToneReport (src : Nat) (p : List Byte) (s : State) : Out State := .next (s.delivered 3 src s.time p)

/-- REPORT (R400, R402). -/
def execReport (src : Nat) (p : List Byte) (s : State) : Out State := .next (s.delivered 0x10 src s.time p)

/-- FENNAL_LEAVE (R401). -/
def execFennalLeave (src : Nat) (p : List Byte) (s : State) : Out State := .next (s.delivered 0x11 src s.time p)

/-- PACE (R411). -/
def execPace (src : Nat) (p : List Byte) (s : State) : Out State := .next (s.delivered 0x12 src s.time p)

end Sys2Proof.Machine
end

