-- ==== Sys2Proof/Machine/Inject.lean ====
section
/-!
DEFINITION. Injection (R482 to R484): the occurrences and causes that an injection drives, its commands, and what a period boundary does
for it.
-/
namespace Sys2Proof.Machine

/-- An injected occurrence drives the detector's own input (R482): the owner finds it as it would find a real one, with its cost and its
escalation. `again` says that it comes at the check after the one before (R483). -/
def State.drive (s : State) (n unit : Nat) (again : Bool) : State :=
  let f := n / 16
  let i := n % 16
  if f = 2 ∧ i ≤ 10 then s.crossingMiss i (!again) true
  else if n = detN 7 0 then s.wdogRaise true
  else if 8 ≤ f ∧ f ≤ 11 ∧ i = 0 then (s.discardTb (f - 8)).raise n 0 unit true
  -- the folio adder has no other way to its flag (R191)
  else if 8 ≤ f ∧ f ≤ 11 ∧ i = 1 then (s.raise n 0 unit true).set Reg.PRS_SAT_FOLIO 1
  else if 8 ≤ f ∧ f ≤ 11 ∧ i = 4 ∨ n = detN 12 5 then s.barInject n unit
  else if f = 12 ∧ i ≤ 3 then s.spineUe i true
  else s.raise n 0 unit true

/-- One injected occurrence of a COUNT or SINGLE injection; the last one ends it (R483). -/
def State.occurrence (s : State) (x : Injection) (again : Bool) : State :=
  let y := { x with left := x.left - 1 }
  let s := { s with era := { s.era with injections := s.era.injections.map fun (z : Injection) => if z.number = x.number then y else z } }
  let s := s.drive x.det x.param again
  if y.left = 0 then s.withdraw y 0x10000 else s

/-- INJECTED_OCCURRENCE (R483): the next occurrence of a COUNT injection with a non-zero spacing. -/
def execInjectedOccurrence (n : Nat) (s : State) : Out State :=
  .next (match s.era.injections.find? fun x => x.det == n && x.mode == 2 && x.spacing != 0 && x.left != 0 with
    | none => s
    | some x => (s.occurrence x (decide (x.spacing * 1000 ≤ s.checkNs n))).settle)

/-- An injection starts (R483): it is recorded, raises 23.2, and drives its detector's cause or first occurrence. One on
the link-down detector discards the SAMPLE frames of its link at the receiver; the owning logic then finds the link down
and raises it (R482, R344). -/
def State.inject (s : State) (n mode p1 param ring : Nat) : State :=
  let lvl := (detInfo n).level
  let x : Injection :=
    { number := s.era.nextInj, det := n, mode := mode, param := param,
      left := if mode = 2 then p1 % 65536 else if mode = 1 then p1 else 1,
      spacing := if mode = 2 then p1 / 65536 else 0,
      ends := if mode = 0 ∧ lvl then some (s.time + s.checkNs n) else none }
  let s := { s with era := { s.era with injections := s.era.injections ++ [x], nextInj := s.era.nextInj + 1 } }
  let s := (s.injEvt n mode 1 x.number param ring).raise (detN 23 2) 0 n
  if n = detN 14 0 then s
  else if lvl then (s.detMod n fun y => { y with cause := true, injCause := true }).raise n 0 param true
  else if x.left = 0 then s.withdraw x ring
  else s.occurrence x false

/-- ERA_INJECT (R483 to R485). -/
def execEraInject (r : Nat) (d : Desc) (s : State) : Out State :=
  .next (
    let n := bits d.p0 0 9
    let mode := bits d.p0 12 2
    let lvl := (detInfo n).level
    s.cmd r 0x0905 d { priv := 3, parOk := decide (n ≤ 383) && (mode == 0 || (mode == 1 && lvl) || (mode == 2 && !lvl)) }
      fun s =>
      let why :=
        if !s.on Reg.ERA_STAT_UNLOCKED then 4
        else if s.get Reg.ERA_STAT_ULEVEL = 1 ∧ s.baseClass n = 2 then 5
        else if s.era.injections.any fun x => x.det == n then 6
        else if (s.det n).cause then 7
        else 0
      if why ≠ 0 then refuse (s.injEvt n mode 3 0 d.p2 r) why
      else okR (s.inject n mode d.p1 d.p2 r) s.era.nextInj)

/-- At a period boundary the cause of a SINGLE injection ends after its check interval, and a COUNT injection with no
spacing gives its next occurrence at the next check of its detector (R483). -/
def State.injectionTick (s : State) : State :=
  s.era.injections.foldl (fun s x =>
    match x.ends with
    | some t => if t ≤ s.time then s.withdraw x 0x10000 else s
    | none =>
      if x.mode = 2 ∧ x.spacing = 0 ∧ x.left ≠ 0 ∧ s.time % s.checkNs x.det < s.periodNs then s.occurrence x true else s) s

end Sys2Proof.Machine
end

