-- ==== Sys2Proof/Machine/Period.lean ====
section
/-!
DEFINITION. The Chase period boundary (R295, R296): what it counts of the period just ended, what it imposes, the galley's
references, the phases, the sync frames, the heartbeats, the press cycle that starts, and what the other blocks do once a
period.
-/
namespace Sys2Proof.Machine

/-! ## The period just ended -/

/-- A phase that carried load has run for the period (STL_PRUN). -/
def State.phaseRan (s : State) (q : Nat) : State :=
  if !s.armed q then s
  else
    let n := (s.phase q).runNs + s.periodNs
    let s := s.phaseMod q fun p => { p with runNs := n % 1000000 }
    if n < 1000000 then s else s.setNv (Reg.STL_PRUN q) (s.get (Reg.STL_PRUN q) + n / 1000000)

/-- What the counters of Chase count of the period (R566). -/
def State.periodCounts (s : State) : State :=
  let missing := (List.range 40).countP fun l => s.linkUp l && !(s.link l).got
  let held := (List.range 166).countP fun n => (s.loop n).hold
  let s := ((s.count 4 1 1).count 4 5 missing).count 4 9 held
  (if s.on Reg.STL_STAT_BURST && s.holder then s.count 4 7 1 else s).countCycles

/-- Shelf time, the period number and operating time pass on (R295, R520). -/
def State.timePasses (s : State) : State :=
  let n := s.periodNs
  let t := s.time
  let s := (s.set Reg.CHS_PNUM (s.get Reg.CHS_PNUM + 1)).set Reg.CHS_TIME (t + n)
  let o := s.col.opFrac + n
  let s : State := { (s.set Reg.COL_OPT (s.get Reg.COL_OPT + o / 1000000)) with col := { s.col with opFrac := o % 1000000 } }
  if t / 1000000 = (t + n) / 1000000 then s else { s with glb := { s.glb with sources := [] } }

/-- SAT clears after two periods that kept to the limits (R310), and the mark of a following error of the period goes. -/
def State.loopEnd (s : State) (n : Nat) : State :=
  let x := s.loop n
  if x.fe || (x.sat && decide (2 ≤ x.clean)) then
    s.loopMod n fun x => { x with fe := false, sat := x.sat && !decide (2 ≤ x.clean) }
  else s

/-! ## Loops left open (R311) -/

/-- A loop that R311 never recloses now: one that an accepted list closes, that the plain law keeps open, or that has not
had its turn in the arming order. -/
def State.openExcused (s : State) (n : Nat) : Bool :=
  let closes := fun (l : ChgList) =>
    ((l.steps.drop l.done).any fun st => st.any fun r => r.type == 2 && decide (r.first ≤ n ∧ n ≤ r.last)) ||
      (l.back.isSome && l.undo.any fun us => us.any fun u => u.r.type == 1 && u.loops.contains n)
  (s.on Reg.CHS_STAT_LAW && plainOpen.contains n) || (decide (s.chs.order = 1 ∨ s.chs.order = 2) && decide (156 ≤ n)) ||
    s.chs.lists.any closes

/-- The open periods of a loop are counted; at OPENMAX it recloses with its active bank, and the event is counted (R311). -/
def State.openCount (s : State) (n : Nat) : State :=
  let x := s.loop n
  if !x.isOpen || !s.inSvc n || !s.holder || s.openExcused n then
    if x.openFor = 0 then s else s.loopMod n fun x => { x with openFor := 0 }
  else
    let k := x.openFor + 1
    if k < s.openMax then s.loopMod n fun x => { x with openFor := k }
    else ((s.loopClose n x.u).chsMod fun c => { c with autoN := c.autoN + 1 }).evt 3 0x0504 (le 2 n ++ zeros 2 ++ le 4 k ++ s.pnum32)

/-! ## What is imposed (R320) -/

/-- A halted master sends balancing group none on each ring it still serves (R473), in a SNAP that announces the one next due. DESIGN CHOICE
(unsafe): which SNAP carries it, and its number, the manual leaves open (log entry 46). -/
def State.groupNone (s : State) (st : Nat) : State :=
  if !s.masters st || !(s.get (Reg.BUP_RSTAT_STATE st) == 1 || s.ringSplit st) then s
  else
    let id := (s.get (Reg.BUP_RSTAT_SNAP st) + 1) % 256
    let nxt := ((s.bring st).next - s.time) / 10000
    let s := (s.putGroup st).set (Reg.BUP_RSTAT_SNAP st) id
    s.bupAll st 2 0 (le 1 id ++ le 2 nxt ++ zeros 3)

/-- The work of a halt at the first boundary after it (R473): the phases are let go, every loop opens, and lists are rolled
back or discarded. -/
def State.haltWork (s : State) : State :=
  if !s.era.haltPend then s
  else
    let s : State := { s with era := { s.era with haltPend := false } }
    -- a halted active seat leaves the group, at the first access (R401, R473)
    let s := if s.era.leavePend then
        ({ s with era := { s.era with leavePend := false } } : State).queueLeave (if s.on Reg.ROS_STAT_PREADY then 1 else 2)
      else s
    let s := if s.glb.safeLeft = 0 then s else s.phasesSafe
    let s := (List.range 166).foldl (fun s n => s.loopOpen n) s
    let s := (List.range 4).foldl (fun s st => s.groupNone st) s
    (s.listBack 1 0x12).listDiscard 0x12

/-- The writes that wait for a period boundary take effect (R603), with what follows from them: the settings map (R606), the
spare link (R345), the configuration of the boards (R340), the place in the group (R404). -/
def State.periodWrites (s : State) : State :=
  if !(s.pendW.any fun w => w.point == .period) then s
  else
    let fen := s.pendW.any fun w => w.point == .period && keyBlock w.fld == 6
    let cfg := fun (s : State) => [(1, s.get Reg.STL_SC_GRID), (1, s.get Reg.STL_SC_STOR), (2, s.get Reg.STL_BURST_BURSTI),
      (3, s.get Reg.STL_CTL_WDOG)]
    let old := cfg s
    let map := s.get Reg.STL_LMAP
    let s := ((s.applyW .period).mapApply map).spareIdle
    let chg := ((old.zip (cfg s)).filter fun p => p.1.2 != p.2.2).map (·.1.1)
    let s := if chg.isEmpty then s else s.cfgAll chg.eraseDups
    if fen then s.groupJudge else s

/-- The checks of R230 are made again over every enabled slot (R242): one whose variant breaks them selects again, and so does one without
a variant, which may have one now. -/
def State.budgetAgain (s : State) : State :=
  let xs := s.prs.slots.filter fun e => e.2.en
  ((xs.filter (fun e => e.2.kindIs 0) ++ xs.filter fun e => !e.2.kindIs 0).map (·.1)).foldl (fun s i =>
    let x := s.slotX i
    match x.forme with
    | some f => if x.chosen && s.budgetOk i f.kind x.wcyc then s else s.reselectOne i
    | none => s) s

/-- The writes that wait for a press-cycle boundary take effect; after one of PRS_FCTL the checks of R230 are made again (R242, R603). -/
def State.pressWrites (s : State) : State :=
  let fctl := s.pendW.any fun w => w.point == .press && [Reg.PRS_FCTL_RUN, Reg.PRS_FCTL_PLANDIV, Reg.PRS_FCTL_PBUDGET].any fun f =>
    f.key == w.fld
  let s := s.applyW .press
  if fctl then s.budgetAgain else s

/-- A staged change is imposed: it leaves the list of those that wait, with its outcome (R608). -/
def State.imposeEnd (s : State) (c : Staged) (good : Bool) : State :=
  (s.unstage c.no).changeDone c (b2n (!good)) (b2n good) (if good then 0xFF else 0x14)

/-- One staged change whose period has come (R320); those of the Press wait for a press-cycle boundary (R233, R234, R273), and
the tables of the estimator for a SNAP (R465). -/
def State.imposeOne (s : State) (press : Bool) (c : Staged) : State :=
  match c.act with
  | .detClass n k => (s.imposeClass n k).imposeEnd c true
  | .phaseRole q r => (s.imposeRole q r).imposeEnd c true
  | .fennalKey k v => let (good, s) := s.imposeKey k v
    s.imposeEnd c good
  | .fennalTx k => let (good, s) := s.imposeKeytx k
    s.imposeEnd c good
  | .trigger i t => (s.imposeTrigger i t).imposeEnd c true
  | .formeEnable i en =>
    if !press then s
    else if en && !s.enableHolds i then s.imposeEnd c false
    else (s.imposeEnable i c.no en).imposeEnd c true
  | .formeUnload i => if press then (s.imposeUnload i c.no).imposeEnd c true else s
  | .trainSetup b => if press then (s.imposeSetup b).imposeEnd c true else s
  | .regWrite k v => ({ s with regs := Tab.put s.regs k v }).imposeEnd c true
  | .estTable _ _ _ => s
  | .own => s

/-- Staged changes at a boundary; the management cluster hands none over while it restarts (R59). -/
def State.imposeStaged (s : State) (press : Bool) : State :=
  if s.glb.mgmtDown then s
  else (s.staged.filter fun c => decide (c.due ≤ s.get Reg.CHS_PNUM)).foldl (fun s c => s.imposeOne press c) s

/-- The law changes at this boundary: to the plain law after overruns, whose lists are rolled back (R316, R325), and back once
RETURN periods have passed without one and the lanes fit (R318). -/
def State.lawDueNow (s : State) : State :=
  match s.chs.lawDue with
  | some why => (s.listBack 1 0x11).lawTo 1 why
  | none =>
    let n := s.get Reg.CHS_CFG_RETURN
    if s.on Reg.CHS_STAT_LAW ∧ s.holder ∧ n ≠ 0 ∧ n ≤ s.chs.plainOk ∧ lawBound false s.lanes ≤ s.lawWindow then s.lawTo 0 3 else s

/-- Change lists and a burst that ends (R323, R353). -/
def State.listsNow (s : State) : State :=
  let ends := s.on Reg.STL_STAT_BURST && s.chs.burstOver
  let s := if ends && s.holder then s.burstEnd else s
  s.listTick ends

/-! ## Phases (R347 to R358, R427) -/

/-- A string whose ring is lost while its phases are armed: its limits fall from now on (R427). -/
def State.ringLost (s : State) (st : Nat) : State :=
  let gone := !s.ringOn st && s.strArmed st
  match Tab.find s.chs.ringLoss st with
  | none => if gone then s.chsMod fun c => { c with ringLoss := Tab.put c.ringLoss st s.time } else s
  | some _ => if gone then s else s.chsMod fun c => { c with ringLoss := Tab.del c.ringLoss st }

/-- A phase that wakes and reports DRV is WARM (R351). -/
def State.wakeEnd (s : State) (q : Nat) : State :=
  if s.pst q = 1 ∧ (s.phase q).drv ∧ s.hasSample q then s.phaseTo q 2 0 else s

/-- The phases of a held group are held WARM (R354): a COLD one is sent WARM; its spares rest (R346). -/
def State.holdGroup (s : State) (g : Nat) : State :=
  (groupPhases g).foldl (fun s q =>
    let s := s.phaseRest q
    let s := if s.role q = 0 ∧ s.pst q = 0 ∧ (s.carrier (q / 4)).isSome then s.wake q else s
    if (s.phase q).job = 0 then s else s.phaseMod q fun p => { p with job := 0 }) s

/-- The output current stepped by more than STEPI (R350); 0 turns the cause off (R361). -/
def State.stepped (s : State) : Bool :=
  match s.chs.iNow, s.chs.iPrev with
  | some a, some b => s.get Reg.STL_STEPI != 0 && decide (s.get Reg.STL_STEPI < (a - b).natAbs)
  | _, _ => false

/-- The sequencing of the phases by the token holder, before the references are taken (R350 to R358). -/
def State.phaseSteps (s : State) : State :=
  let s := s.takeGone
  let s := s.abortSheds (if s.stepped then [0, 1, 2, 3, 4] else s.chs.abort)
  let s := s.chsMod fun c => { c with abort := [] }
  (List.range 156).foldl (fun s q =>
    (((((((s.wakeEnd q).wakeTimeout q).warmExpiry q).estTimeout q).shedStep q).spareStep q).phaseWear q).phaseRetire q) s

/-- Arming and shedding by the token holder, once the references are taken (R328, R347 to R350). `rolled` says that the
arming demand lost its source: a shed in progress is aborted (R256). Under the plain law, and in a burst, nothing is armed or
shed; the excess of R349 is followed all the same, and under the plain law so is the WARM limit (R351). -/
def State.arming (s : State) (rolled : Bool) : State :=
  let s := if rolled then s.abortSheds [0, 1, 2, 3, 4] else s
  if s.on Reg.STL_STAT_BURST then (List.range 5).foldl (fun s g => s.excessTick g) s
  else if s.on Reg.CHS_STAT_LAW then
    (List.range 5).foldl (fun s g => if s.chs.order = 1 ∨ s.chs.order = 2 then s.excessTick g else (s.excessTick g).warmLimit g) s
  else if s.chs.order = 1 ∨ s.chs.order = 2 then s.armOrder
  else (List.range 5).foldl (fun s g => s.armGroup g) s

/-! ## The seats (R488, R494, R502, R506, R511) -/

/-- One path of the heartbeat: silent periods in a row, and its detector and event (R502). `n` is 1 Roscor, 2 backplane; `run`
its silent periods in a row, `other` those of the other path. -/
def State.hbPath (s : State) (n run other : Nat) : State :=
  let d := detN 20 n
  let was := (s.det d).cause
  let path := fun (s : State) (b : Bool) => s.evt 7 0x0E01 (le 1 n ++ le 1 (b2n b) ++ zeros 2 ++ s.pnum32 ++ zeros 4)
  if run = 0 then (if was then path (s.levelOff d) false else s)
  else if 4 ≤ run ∧ other < 4 ∧ !was then path (s.levelOn d 0 0) true
  else s

/-- The heartbeats of the peer in the period just ended (R502). -/
def State.silenceTick (s : State) (edge : Bool) : State :=
  let got := s.ros.got
  let s := if got then s else s.bump Reg.ROS_RSIL
  let s := if edge then s else s.bump Reg.ROS_BSIL
  let s := s.rosMod fun r =>
    { r with got := false, bad := 0, rRun := if got then 0 else r.rRun + 1, bRun := if edge then 0 else r.bRun + 1,
             rLast := if got then s.time else r.rLast, bLast := if edge then s.time else r.bLast }
  (s.hbPath 1 s.ros.rRun s.ros.bRun).hbPath 2 s.ros.bRun s.ros.rRun

/-- Readiness of the standby (R488): a whole copy came in the period just ended. -/
def State.readyTick (s : State) : State :=
  let s := s.rosMod fun r =>
    { r with copyGot := false, copyRun := if r.copyGot then r.copyRun + 1 else 0,
             noCopy := if s.standby && !r.copyGot then satU 32 (r.noCopy + 1) else r.noCopy }
  s.setB Reg.ROS_STAT_READY s.rosReady

/-- Boards that report a conflict, or that obey the other seat under a newer epoch (R506). -/
def State.boardJudge (s : State) : State :=
  if !s.holder then s.rosMod fun r => { r with obey := 0 }
  else
    let ups := (List.range 40).filter fun l => s.linkUp l && (s.link l).got
    if ups.any fun l => s.on (Reg.STL_LSTAT_CONFLICT l) then
      if s.get Reg.GLB_SEAT_SEAT = 0 then s.chsMod fun c => { c with epoch := (c.epoch + 1) % 65536 }
      else s.tokenRelease 6 5
    else
      let away := ups.countP fun l => !s.on (Reg.STL_LSTAT_OBEY l) && epochNewer (s.get (Reg.STL_LSTAT_EPOCH l)) s.chs.epoch
      let all := (List.range 40).countP s.linkUp
      let s := s.rosMod fun r => { r with obey := if all < 2 * away then r.obey + 1 else 0 }
      if 2 ≤ s.ros.obey then (s.rosMod fun r => { r with obey := 0 }).tokenRelease 6 4 else s

/-- The clock correction that a new holder keeps goes back to 0, by 0.1 ppm each 100 ms: 1 ppm per second, the fastest that R497 allows. -/
def State.corrTick (s : State) : State :=
  let c := toS 16 (s.get Reg.ROS_PHERR_CORR)
  if !s.token || c == 0 || decide (s.periodNs ≤ s.time % 100000000) then s
  else s.setS Reg.ROS_PHERR_CORR (if c < 0 then c + 1 else c - 1)

/-- A proving run at the prover: a detector of family 14, or 15.1, raised since its start returns the token at once, and a
return that had to wait is tried again (R511). -/
def State.proveTick (s : State) : State :=
  match s.ros.prove with
  | none => s
  | some v =>
    if !v.prover || !s.token then s
    else
      let ds := detN 15 1 :: (List.range 16).map (detN 14)
      let hit := ds.filter fun d => (s.det d).status && decide (v.start < s.get (Reg.ERA_DLAST d))
      match hit with
      | d :: _ =>
        let s := if v.first = 0xFFFF then s.rosMod fun r => { r with prove := some { v with first := d } } else s
        s.proveReturn
      | [] => if s.ros.back then s.proveReturn else s

/-- The role is taken in WAIT (R76, R77), unless another row applies by now; or it is judged again. -/
def State.roleTick (s : State) : State :=
  if s.glb.roleDue && s.stage == 6 && s.roleRow == 1 then s.tokenFromWait else s.judgeRole

/-- A takeover or a planned handover falls on this boundary: its own row sends the sync frames (R504, R509). -/
def State.tokenMoves (s : State) : Bool :=
  s.tokenDue.isSome || s.ros.hand.any fun h => decide (h.at_ ≤ s.get Reg.CHS_PNUM)

/-- The sync frames of the boundary (R296, R336, R343, R498): SAFE in the eight periods after a halt. -/
def State.syncNow (s : State) : State :=
  let s : State := if 9 ≤ s.glb.safeLeft then { s with glb := { s.glb with safeLeft := 8 } } else s
  if s.tokenMoves then s else s.syncOut (decide (s.glb.safeLeft ≠ 0))

/-- HB_OUT changes state (R37), but not in a step of Errata (R552); detector 0.6 compares the level read back with the level driven (R477). -/
def State.hbToggle (s : State) (back : Bool) : State :=
  let s := if s.glb.hbHeld ∨ s.stage = 0 then s
    else ({ s with glb := { s.glb with hbOut := !s.glb.hbOut } } : State).emit (.pin .hbOut (!s.glb.hbOut))
  s.level (detN 0 6) 0 0 (back != s.glb.hbOut)

/-! ## The boundary -/

/-- A ring node whose firmware lies outside the compatibility table of the active images (R74, detector 22.5). -/
def State.nodeFwBad (s : State) : Bool :=
  (List.range 4).any fun st => (s.bring st).nodes.any fun e => s.fwOut e.2

/-- What the other blocks do once a period. -/
def State.blockTicks (s : State) : State :=
  let s := s.eraseTick.estTick
  let s := (List.range 4).foldl (fun s st => (s.ringTick st).ringLost st) s
  let s := s.masterAll s.masterNow
  -- a peer that holds the token no more has no model set to compare (R71)
  let s := if s.peerToken then s else s.modelDone
  let s := if s.halted then (List.range 4).foldl (fun s st => s.putGroup st) s else s
  let s := (s.level (detN 22 5) 0 0 s.nodeFwBad).level (detN 3 9) 0 0 (s.token && !s.on Reg.GLB_BOOTSTAT_RES)
  let s := (List.range 39).foldl (fun s l => s.linkRetire l) s
  s.planTick.setB Reg.FEN_STAT_QUIET s.fenQuiet

/-- The samples of the period just ended are done with. -/
def State.samplesGone (s : State) : State :=
  s.chsMod fun c => { c with links := c.links.map fun e => (e.1, { e.2 with got := false }),
                             phases := c.phases.map fun e => (e.1, { e.2 with got := false }) }

/-- The end of a period: its counts, the state copy that the holder sends of it (R493), and the time that passes. -/
def State.periodEnd (s : State) : State :=
  let s := (List.range 156).foldl (fun s q => s.phaseRan q) s
  let s := s.periodCounts
  let s := if s.token then s.rosOut 2 (s.stateCopy (s.get Reg.CHS_PNUM)) else s
  s.timePasses.latchCounters

/-- The changes of a boundary: role, halt, law, writes, change lists, staged changes (R76, R320, R473). -/
def State.changesNow (s : State) (press : Bool) : State :=
  let s := s.boardJudge.roleTick
  let s := s.haltWork.lawDueNow.periodWrites
  let s := if press then s.pressWrites else s
  -- a loop that a list opens here is open for its first period from now on (R311)
  let s := (List.range 166).foldl (fun s n => (s.openCount n).loopEnd n) s
  (s.listsNow).imposeStaged press

/-- The removals of a seat in WAIT take effect at the boundary (R344): those for a link, with no spare. -/
def State.linkPhases (s : State) : State := if s.standby || s.halted then s else s.takeGone

/-- The references and the phases of a boundary (R255, R258, R347); the shelf envelope stands for every seat (R388, R405). -/
def State.drivesNow (s : State) (press : Bool) : State :=
  let s := if s.token || s.standby then s else s.set Reg.CHS_STAT_WINARM 0
  let s := if s.holder then s.phaseSteps else s.linkPhases
  let d := s.gal.armD.src
  -- a write of DER1 or DER0 that has just taken effect may change the derate target (R396)
  let s := (s.derateStart.galleyTick press).envelope
  if s.holder then
    let s := s.chs.heldGrp.foldl (fun s g => s.holdGroup g) s
    s.arming (d && !s.gal.armD.src)
  else s

/-- CHASE_PERIOD_BOUNDARY (R296): `hbEdge` says that HB_IN changed state in the period just ended, `hbBack` the level of HB_OUT
read back. -/
def State.periodBoundary (s : State) (hbEdge hbBack : Bool) : State :=
  if !s.glb.chaseUp then s
  else
    let s := s.periodEnd
    let press := decide (s.time % 20000 = 0)
    let s := (((s.silenceTick hbEdge).readyTick.corrTick).handTick).proveTick
    let s := (s.changesNow press).drivesNow press
    let s := ((s.syncNow).hbToggle hbBack).hbOutFrame
    let s := if press then (s.cycleStart).pcycOut (s.time / 20000) else s
    let s := s.injectionTick.blockTicks
    s.samplesGone.settle

/-- CHASE_PERIOD_BOUNDARY (R296). -/
def execChasePeriodBoundary (hbEdge hbBack : Bool) (s : State) : Out State := .next (s.periodBoundary hbEdge hbBack)

end Sys2Proof.Machine
end

