-- ==== Sys2Proof/Machine/Dispatch.lean ====
section
/-!
DEFINITION. What each command does: one arm for each row of the table, one direct call of its meaning.
-/
namespace Sys2Proof.Machine

def exec (i : Instr) (s : State) : Host.Outcome State Fault Refusal :=
  match i with
  | .powerOn => Sys2Proof.Machine.execPowerOn s
  | .presentClose => Sys2Proof.Machine.execPresentClose s
  | .presentOpen => Sys2Proof.Machine.execPresentOpen s
  | .inputLow low vin iin pin => Sys2Proof.Machine.execInputLow low vin iin pin s
  | .inputLoss vin vrsv => Sys2Proof.Machine.execInputLoss vin vrsv s
  | .lossSequence => Sys2Proof.Machine.execLossSequence s
  | .inputReturn => Sys2Proof.Machine.execInputReturn s
  | .reservoirExhausted => Sys2Proof.Machine.execReservoirExhausted s
  | .railsOff => Sys2Proof.Machine.execRailsOff s
  | .inputPowerLimit reached vin iin pin => Sys2Proof.Machine.execInputPowerLimit reached vin iin pin s
  | .inputCurrentLimit level vin iin pin => Sys2Proof.Machine.execInputCurrentLimit level vin iin pin s
  | .reservoirCharged vrsv => Sys2Proof.Machine.execReservoirCharged vrsv s
  | .errataLeavesReset seat pos idpar => Sys2Proof.Machine.execErrataLeavesReset seat pos idpar s
  | .strapChange seat pos idpar => Sys2Proof.Machine.execStrapChange seat pos idpar s
  | .junctionTemp die t => Sys2Proof.Machine.execJunctionTemp die t s
  | .coolingSample tach0 tach1 flow tin tout => Sys2Proof.Machine.execCoolingSample tach0 tach1 flow tin tout s
  | .coolingFailure item failed => Sys2Proof.Machine.execCoolingFailure item failed s
  | .derateStep => Sys2Proof.Machine.execDerateStep s
  | .meterFrame frame => Sys2Proof.Machine.execMeterFrame frame s
  | .meterTimeout => Sys2Proof.Machine.execMeterTimeout s
  | .tapIdcode => Sys2Proof.Machine.execTapIdcode s
  | .tapBypass tdi => Sys2Proof.Machine.execTapBypass tdi s
  | .perstAssert => Sys2Proof.Machine.execPerstAssert s
  | .perstDeassert => Sys2Proof.Machine.execPerstDeassert s
  | .functionLevelReset => Sys2Proof.Machine.execFunctionLevelReset s
  | .pcieLinkUp rate width => Sys2Proof.Machine.execPcieLinkUp rate width s
  | .configRequest off write => Sys2Proof.Machine.execConfigRequest off write s
  | .clockCheckWindow ppm stopped => Sys2Proof.Machine.execClockCheckWindow ppm stopped s
  | .crossingMiss c first => Sys2Proof.Machine.execCrossingMiss c first s
  | .uartRxHigh => Sys2Proof.Machine.execUartRxHigh s
  | .uartSettleTimeout => Sys2Proof.Machine.execUartSettleTimeout s
  | .enterErrataStage => Sys2Proof.Machine.execEnterErrataStage s
  | .enterSettingsStage pages => Sys2Proof.Machine.execEnterSettingsStage pages s
  | .enterMgmtStage => Sys2Proof.Machine.execEnterMgmtStage s
  | .enterChaseStage => Sys2Proof.Machine.execEnterChaseStage s
  | .enterHostStage => Sys2Proof.Machine.execEnterHostStage s
  | .enterWait ms => Sys2Proof.Machine.execEnterWait ms s
  | .enterFlyleaf cond => Sys2Proof.Machine.execEnterFlyleaf cond s
  | .takeRole => Sys2Proof.Machine.execTakeRole s
  | .waitPeerTimeout => Sys2Proof.Machine.execWaitPeerTimeout s
  | .makeReadyStepDone t step fails rows banks good us => Sys2Proof.Machine.execMakeReadyStepDone t step fails rows banks good us s
  | .modelSetFromPeer formes model => Sys2Proof.Machine.execModelSetFromPeer formes model s
  | .enumRetry ring => Sys2Proof.Machine.execEnumRetry ring s
  | .moduleResetProceed => Sys2Proof.Machine.execModuleResetProceed s
  | .mgmtWatchdog => Sys2Proof.Machine.execMgmtWatchdog s
  | .mgmtRestartDone => Sys2Proof.Machine.execMgmtRestartDone s
  | .lockstepReset => Sys2Proof.Machine.execLockstepReset s
  | .nop r d => Sys2Proof.Machine.execNop r d s
  | .fence r d => Sys2Proof.Machine.execFence r d s
  | .health r d => Sys2Proof.Machine.execHealth r d s
  | .seatEnable r d => Sys2Proof.Machine.execSeatEnable r d s
  | .ringQuery r d => Sys2Proof.Machine.execRingQuery r d s
  | .ptmResync r d good ofs => Sys2Proof.Machine.execPtmResync r d good ofs s
  | .moduleReset r d => Sys2Proof.Machine.execModuleReset r d s
  | .ringEnable r mismatch => Sys2Proof.Machine.execRingEnable r mismatch s
  | .ringDisable r => Sys2Proof.Machine.execRingDisable r s
  | .doorbellTail r v wellSized => Sys2Proof.Machine.execDoorbellTail r v wellSized s
  | .doorbellHead r v wellSized => Sys2Proof.Machine.execDoorbellHead r v wellSized s
  | .descriptorFetch r ds => Sys2Proof.Machine.execDescriptorFetch r ds s
  | .dmaError r kind addr => Sys2Proof.Machine.execDmaError r kind addr s
  | .dmaEnableChange bme en => Sys2Proof.Machine.execDmaEnableChange bme en s
  | .msixModerationTimer r => Sys2Proof.Machine.execMsixModerationTimer r s
  | .batchIdleTimeout r => Sys2Proof.Machine.execBatchIdleTimeout r s
  | .ptmDialogue good ofs => Sys2Proof.Machine.execPtmDialogue good ofs s
  | .ptmTimeout => Sys2Proof.Machine.execPtmTimeout s
  | .paceUnreadTimeout r num => Sys2Proof.Machine.execPaceUnreadTimeout r num s
  | .shadowHoldTimeout r => Sys2Proof.Machine.execShadowHoldTimeout r s
  | .registerWrite off size v => Sys2Proof.Machine.execRegisterWrite off size v s
  | .registerReadClear off size => Sys2Proof.Machine.execRegisterReadClear off size s
  | .loReadCapture req off => Sys2Proof.Machine.execLoReadCapture req off s
  | .traceBuf r d => Sys2Proof.Machine.execTraceBuf r d s
  | .scoreBuf r d => Sys2Proof.Machine.execScoreBuf r d s
  | .traceRecord r stream seq t0 samples => Sys2Proof.Machine.execTraceRecord r stream seq t0 samples s
  | .keepAlive r stream seq t0 => Sys2Proof.Machine.execKeepAlive r stream seq t0 s
  | .bind r stream span dieid tray slot dclass rate => Sys2Proof.Machine.execBind r stream span dieid tray slot dclass rate s
  | .leave r stream span t reason => Sys2Proof.Machine.execLeave r stream span t reason s
  | .leaveTimeReached stream => Sys2Proof.Machine.execLeaveTimeReached stream s
  | .sched r stream span entries => Sys2Proof.Machine.execSched r stream span entries s
  | .cancel r stream span t => Sys2Proof.Machine.execCancel r stream span t s
  | .streamLagChange stream => Sys2Proof.Machine.execStreamLagChange stream s
  | .streamSilenceTimeout stream => Sys2Proof.Machine.execStreamSilenceTimeout stream s
  | .unanchorTimeout => Sys2Proof.Machine.execUnanchorTimeout s
  | .historySample t => Sys2Proof.Machine.execHistorySample t s
  | .chasePeriodBoundary hbEdge hbBack => Sys2Proof.Machine.execChasePeriodBoundary hbEdge hbBack s
  | .sampleCut cyc lanes => Sys2Proof.Machine.execSampleCut cyc lanes s
  | .outputLatch => Sys2Proof.Machine.execOutputLatch s
  | .galleyClose => Sys2Proof.Machine.execGalleyClose s
  | .planStale => Sys2Proof.Machine.execPlanStale s
  | .pressQuery r d => Sys2Proof.Machine.execPressQuery r d s
  | .memRead r d => Sys2Proof.Machine.execMemRead r d s
  | .scrubNow r d => Sys2Proof.Machine.execScrubNow r d s
  | .hierSet r d => Sys2Proof.Machine.execHierSet r d s
  | .hierChangeStart => Sys2Proof.Machine.execHierChangeStart s
  | .hierChangeStepDone => Sys2Proof.Machine.execHierChangeStepDone s
  | .hierRollback reason => Sys2Proof.Machine.execHierRollback reason s
  | .leafResidueMismatch unit => Sys2Proof.Machine.execLeafResidueMismatch unit s
  | .weightCrcSweep unit bad => Sys2Proof.Machine.execWeightCrcSweep unit bad s
  | .spineError port corrected => Sys2Proof.Machine.execSpineError port corrected s
  | .barrierRelease t level => Sys2Proof.Machine.execBarrierRelease t level s
  | .barrierTimeout t level unit => Sys2Proof.Machine.execBarrierTimeout t level unit s
  | .dramCorrectable t bank row offset nbits spans => Sys2Proof.Machine.execDramCorrectable t bank row offset nbits spans s
  | .dramUncorrectable t bank row offset scrub => Sys2Proof.Machine.execDramUncorrectable t bank row offset scrub s
  | .bankSpareDone t bank => Sys2Proof.Machine.execBankSpareDone t bank s
  | .patrolScrub t percent badRow badBank bank => Sys2Proof.Machine.execPatrolScrub t percent badRow badBank bank s
  | .formeOpen r d => Sys2Proof.Machine.execFormeOpen r d s
  | .formeWrite r d => Sys2Proof.Machine.execFormeWrite r d s
  | .formeCommit r d => Sys2Proof.Machine.execFormeCommit r d s
  | .formeAbort r d => Sys2Proof.Machine.execFormeAbort r d s
  | .formeUnload r d => Sys2Proof.Machine.execFormeUnload r d s
  | .formeEnable r d => Sys2Proof.Machine.execFormeEnable r d s
  | .formeQuery r d => Sys2Proof.Machine.execFormeQuery r d s
  | .formeRun r d => Sys2Proof.Machine.execFormeRun r d s
  | .formeDigest r d => Sys2Proof.Machine.execFormeDigest r d s
  | .formeLoadTimeout slot => Sys2Proof.Machine.execFormeLoadTimeout slot s
  | .formeImpose slot copied => Sys2Proof.Machine.execFormeImpose slot copied s
  | .variantLoadDone slot => Sys2Proof.Machine.execVariantLoadDone slot s
  | .runEnd slot => Sys2Proof.Machine.execRunEnd slot s
  | .planRunOverdue => Sys2Proof.Machine.execPlanRunOverdue s
  | .sortNop t cyc => Sys2Proof.Machine.execSortNop t cyc s
  | .endSort t cyc => Sys2Proof.Machine.execEndSort t cyc s
  | .bar t cyc => Sys2Proof.Machine.execBar t cyc s
  | .loop t cyc => Sys2Proof.Machine.execLoop t cyc s
  | .load t cyc => Sys2Proof.Machine.execLoad t cyc s
  | .store t cyc => Sys2Proof.Machine.execStore t cyc s
  | .copy t cyc => Sys2Proof.Machine.execCopy t cyc s
  | .input t cyc => Sys2Proof.Machine.execInput t cyc s
  | .emit t cyc => Sys2Proof.Machine.execEmit t cyc s
  | .mmul t cyc => Sys2Proof.Machine.execMmul t cyc s
  | .add t cyc => Sys2Proof.Machine.execAdd t cyc s
  | .sub t cyc => Sys2Proof.Machine.execSub t cyc s
  | .mul t cyc => Sys2Proof.Machine.execMul t cyc s
  | .max t cyc => Sys2Proof.Machine.execMax t cyc s
  | .min t cyc => Sys2Proof.Machine.execMin t cyc s
  | .shift t cyc => Sys2Proof.Machine.execShift t cyc s
  | .clamp t cyc => Sys2Proof.Machine.execClamp t cyc s
  | .rescale t cyc => Sys2Proof.Machine.execRescale t cyc s
  | .convert t cyc => Sys2Proof.Machine.execConvert t cyc s
  | .rsum t cyc => Sys2Proof.Machine.execRsum t cyc s
  | .rmax t cyc => Sys2Proof.Machine.execRmax t cyc s
  | .lut t cyc => Sys2Proof.Machine.execLut t cyc s
  | .scan t cyc => Sys2Proof.Machine.execScan t cyc s
  | .attn t cyc => Sys2Proof.Machine.execAttn t cyc s
  | .gouter t cyc => Sys2Proof.Machine.execGouter t cyc s
  | .gapply t cyc => Sys2Proof.Machine.execGapply t cyc s
  | .galleyQuery r d => Sys2Proof.Machine.execGalleyQuery r d s
  | .trainSetup r d => Sys2Proof.Machine.execTrainSetup r d s
  | .trainRun r d => Sys2Proof.Machine.execTrainRun r d s
  | .trainPromote r d => Sys2Proof.Machine.execTrainPromote r d s
  | .trainReject r d => Sys2Proof.Machine.execTrainReject r d s
  | .trainRevert r d => Sys2Proof.Machine.execTrainRevert r d s
  | .trainQuery r d => Sys2Proof.Machine.execTrainQuery r d s
  | .capture => Sys2Proof.Machine.execCapture s
  | .trainStepEnd => Sys2Proof.Machine.execTrainStepEnd s
  | .shadowScore => Sys2Proof.Machine.execShadowScore s
  | .trainShareWindow => Sys2Proof.Machine.execTrainShareWindow s
  | .offerExpiry => Sys2Proof.Machine.execOfferExpiry s
  | .promotionImpose => Sys2Proof.Machine.execPromotionImpose s
  | .probationCheck => Sys2Proof.Machine.execProbationCheck s
  | .candidateCheckpoint => Sys2Proof.Machine.execCandidateCheckpoint s
  | .chaseQuery r d => Sys2Proof.Machine.execChaseQuery r d s
  | .changeSubmit r d => Sys2Proof.Machine.execChangeSubmit r d s
  | .bankWrite r d => Sys2Proof.Machine.execBankWrite r d s
  | .bankRead r d => Sys2Proof.Machine.execBankRead r d s
  | .periodSet r d => Sys2Proof.Machine.execPeriodSet r d s
  | .lawSet r d => Sys2Proof.Machine.execLawSet r d s
  | .changeAbort r d => Sys2Proof.Machine.execChangeAbort r d s
  | .chsRegisterWrite off v => Sys2Proof.Machine.execChsRegisterWrite off v s
  | .fesumClear w v => Sys2Proof.Machine.execFesumClear w v s
  | .sample link frame => Sys2Proof.Machine.execSample link frame s
  | .linkRetrainAttempt link => Sys2Proof.Machine.execLinkRetrainAttempt link s
  | .linkMapWrite hi v => Sys2Proof.Machine.execLinkMapWrite hi v s
  | .phaseWakeTimeout q => Sys2Proof.Machine.execPhaseWakeTimeout q s
  | .warmHoldExpiry q => Sys2Proof.Machine.execWarmHoldExpiry q s
  | .estTimeout q => Sys2Proof.Machine.execEstTimeout q s
  | .spareStepDone q => Sys2Proof.Machine.execSpareStepDone q s
  | .phaseQuery r d => Sys2Proof.Machine.execPhaseQuery r d s
  | .phaseClear r d => Sys2Proof.Machine.execPhaseClear r d s
  | .phaseRole r d => Sys2Proof.Machine.execPhaseRole r d s
  | .linkRetrain r d => Sys2Proof.Machine.execLinkRetrain r d s
  | .beaconInstant => Sys2Proof.Machine.execBeaconInstant s
  | .beacon src rx p => Sys2Proof.Machine.execBeacon src rx p s
  | .beaconLoss => Sys2Proof.Machine.execBeaconLoss s
  | .leaderStart => Sys2Proof.Machine.execLeaderStart s
  | .carrierSenseChange level => Sys2Proof.Machine.execCarrierSenseChange level s
  | .backoffExpiry => Sys2Proof.Machine.execBackoffExpiry s
  | .ackTimeout => Sys2Proof.Machine.execAckTimeout s
  | .ack src seq => Sys2Proof.Machine.execAck src seq s
  | .fennalFrame rx good syms => Sys2Proof.Machine.execFennalFrame rx good syms s
  | .toneReport src p => Sys2Proof.Machine.execToneReport src p s
  | .toneReportDue snr => Sys2Proof.Machine.execToneReportDue snr s
  | .fennalQuery r d => Sys2Proof.Machine.execFennalQuery r d s
  | .fennalKey r d => Sys2Proof.Machine.execFennalKey r d s
  | .fennalKeytx r d => Sys2Proof.Machine.execFennalKeytx r d s
  | .fennalKeydel r d => Sys2Proof.Machine.execFennalKeydel r d s
  | .report src p => Sys2Proof.Machine.execReport src p s
  | .reportDue => Sys2Proof.Machine.execReportDue s
  | .fennalLeave src p => Sys2Proof.Machine.execFennalLeave src p s
  | .contractEffective => Sys2Proof.Machine.execContractEffective s
  | .contractLapse => Sys2Proof.Machine.execContractLapse s
  | .pace src p => Sys2Proof.Machine.execPace src p s
  | .paceDue => Sys2Proof.Machine.execPaceDue s
  | .paceAckTimeout num => Sys2Proof.Machine.execPaceAckTimeout num s
  | .paceAck r d => Sys2Proof.Machine.execPaceAck r d s
  | .groupQuery r d => Sys2Proof.Machine.execGroupQuery r d s
  | .breachEnd => Sys2Proof.Machine.execBreachEnd s
  | .snapDue ring => Sys2Proof.Machine.execSnapDue ring s
  | .snap ring port frame => Sys2Proof.Machine.execSnap ring port frame s
  | .collect ring port frame => Sys2Proof.Machine.execCollect ring port frame s
  | .enum ring port frame delay => Sys2Proof.Machine.execEnum ring port frame delay s
  | .enumTimeout ring => Sys2Proof.Machine.execEnumTimeout ring s
  | .echo ring port frame => Sys2Proof.Machine.execEcho ring port frame s
  | .bupilinCfg ring port frame => Sys2Proof.Machine.execBupilinCfg ring port frame s
  | .ringBreak ring => Sys2Proof.Machine.execRingBreak ring s
  | .ringProbe ring emerged => Sys2Proof.Machine.execRingProbe ring emerged s
  | .wakeTone ring => Sys2Proof.Machine.execWakeTone ring s
  | .owTestDue ring => Sys2Proof.Machine.execOwTestDue ring s
  | .balanceAlt ring => Sys2Proof.Machine.execBalanceAlt ring s
  | .fastHoldExpiry ring => Sys2Proof.Machine.execFastHoldExpiry ring s
  | .bupRingQuery r d => Sys2Proof.Machine.execBupRingQuery r d s
  | .cellRead r d => Sys2Proof.Machine.execCellRead r d s
  | .ringEnum r d => Sys2Proof.Machine.execRingEnum r d s
  | .owTest r d => Sys2Proof.Machine.execOwTest r d s
  | .bupFast r d => Sys2Proof.Machine.execBupFast r d s
  | .restDue => Sys2Proof.Machine.execRestDue s
  | .restEnd st => Sys2Proof.Machine.execRestEnd st s
  | .driftAlarm st => Sys2Proof.Machine.execDriftAlarm st s
  | .socSlewTick => Sys2Proof.Machine.execSocSlewTick s
  | .cellStale st cell => Sys2Proof.Machine.execCellStale st cell s
  | .estQuery r d => Sys2Proof.Machine.execEstQuery r d s
  | .estTable r d => Sys2Proof.Machine.execEstTable r d s
  | .estTableRead r d => Sys2Proof.Machine.execEstTableRead r d s
  | .restNow r d => Sys2Proof.Machine.execRestNow r d s
  | .estRecords r d => Sys2Proof.Machine.execEstRecords r d s
  | .detectorEvent n esc param present => Sys2Proof.Machine.execDetectorEvent n esc param present s
  | .keepTimeout => Sys2Proof.Machine.execKeepTimeout s
  | .aliveToggle readback => Sys2Proof.Machine.execAliveToggle readback s
  | .eraDstatClear w v => Sys2Proof.Machine.execEraDstatClear w v s
  | .unlockExpiry => Sys2Proof.Machine.execUnlockExpiry s
  | .injectionHoldExpiry n => Sys2Proof.Machine.execInjectionHoldExpiry n s
  | .eraQuery r d => Sys2Proof.Machine.execEraQuery r d s
  | .eraDetail r d => Sys2Proof.Machine.execEraDetail r d s
  | .eraClear r d => Sys2Proof.Machine.execEraClear r d s
  | .eraClass r d => Sys2Proof.Machine.execEraClass r d s
  | .eraUnlock r d => Sys2Proof.Machine.execEraUnlock r d s
  | .eraInject r d => Sys2Proof.Machine.execEraInject r d s
  | .eraWithdraw r d => Sys2Proof.Machine.execEraWithdraw r d s
  | .eraLock r d => Sys2Proof.Machine.execEraLock r d s
  | .hb good flags seq pnum p rx => Sys2Proof.Machine.execHb good flags seq pnum p rx s
  | .state good flags seq pnum p cyc => Sys2Proof.Machine.execState good flags seq pnum p cyc s
  | .takeover good flags seq pnum p => Sys2Proof.Machine.execTakeover good flags seq pnum p s
  | .leaving good flags seq pnum p => Sys2Proof.Machine.execLeaving good flags seq pnum p s
  | .pcyc good flags seq pnum p => Sys2Proof.Machine.execPcyc good flags seq pnum p s
  | .rack good flags seq pnum p => Sys2Proof.Machine.execRack good flags seq pnum p s
  | .roscorCfg good flags seq pnum p c data => Sys2Proof.Machine.execRoscorCfg good flags seq pnum p c data s
  | .bulk good flags seq pnum p => Sys2Proof.Machine.execBulk good flags seq pnum p s
  | .seatTokenTake => Sys2Proof.Machine.execSeatTokenTake s
  | .shadowLaw loopBad => Sys2Proof.Machine.execShadowLaw loopBad s
  | .plannedHandover => Sys2Proof.Machine.execPlannedHandover s
  | .roscorLinkDown => Sys2Proof.Machine.execRoscorLinkDown s
  | .roscorTrained lat => Sys2Proof.Machine.execRoscorTrained lat s
  | .laneSelftest bad => Sys2Proof.Machine.execLaneSelftest bad s
  | .provingEnd => Sys2Proof.Machine.execProvingEnd s
  | .seatQuery r d => Sys2Proof.Machine.execSeatQuery r d s
  | .seatSwitch r d => Sys2Proof.Machine.execSeatSwitch r d s
  | .provingRun r d => Sys2Proof.Machine.execProvingRun r d s
  | .provingStop r d => Sys2Proof.Machine.execProvingStop r d s
  | .seatHealth r d => Sys2Proof.Machine.execSeatHealth r d s
  | .pageCommit failed => Sys2Proof.Machine.execPageCommit failed s
  | .finalCommitDone us => Sys2Proof.Machine.execFinalCommitDone us s
  | .triggerFire trig cause inj => Sys2Proof.Machine.execTriggerFire trig cause inj s
  | .snapshotCapture trig late => Sys2Proof.Machine.execSnapshotCapture trig late s
  | .colQuery r d => Sys2Proof.Machine.execColQuery r d s
  | .trigWrite r d => Sys2Proof.Machine.execTrigWrite r d s
  | .trigRead r d => Sys2Proof.Machine.execTrigRead r d s
  | .snapNow r d => Sys2Proof.Machine.execSnapNow r d s
  | .colRead r d => Sys2Proof.Machine.execColRead r d s
  | .colCommit r d => Sys2Proof.Machine.execColCommit r d s
  | .updQuery r d => Sys2Proof.Machine.execUpdQuery r d s
  | .imgOpen r d sig => Sys2Proof.Machine.execImgOpen r d sig s
  | .imgWrite r d => Sys2Proof.Machine.execImgWrite r d s
  | .imgFinish r d => Sys2Proof.Machine.execImgFinish r d s
  | .imgAbort r d => Sys2Proof.Machine.execImgAbort r d s
  | .lockExpired t => Sys2Proof.Machine.execLockExpired t s
  | .updActivate r d => Sys2Proof.Machine.execUpdActivate r d s
  | .updCommit r d => Sys2Proof.Machine.execUpdCommit r d s
  | .updRollback r d => Sys2Proof.Machine.execUpdRollback r d s
  | .tapUnlock r d sig => Sys2Proof.Machine.execTapUnlock r d sig s
  | .hdrRead r d => Sys2Proof.Machine.execHdrRead r d s
  | .stepConfirmed => Sys2Proof.Machine.execStepConfirmed s
  | .stepDeadline => Sys2Proof.Machine.execStepDeadline s
  | .soakEnd => Sys2Proof.Machine.execSoakEnd s
  | .imgcheck ring port frame => Sys2Proof.Machine.execImgcheck ring port frame s
  | .nodeSwapTimeout ring => Sys2Proof.Machine.execNodeSwapTimeout ring s
  | .flyOpen t win sig => Sys2Proof.Machine.execFlyOpen t win sig s
  | .flyWrite t len win => Sys2Proof.Machine.execFlyWrite t len win s
  | .flyFinish t => Sys2Proof.Machine.execFlyFinish t s
  | .flyAbort t => Sys2Proof.Machine.execFlyAbort t s
  | .flyBoot => Sys2Proof.Machine.execFlyBoot s
  | .uartMessage msg sig => Sys2Proof.Machine.execUartMessage msg sig s
  | .flyleafRequest v => Sys2Proof.Machine.execFlyleafRequest v s
  | .startModeWrite v => Sys2Proof.Machine.execStartModeWrite v s
  | .prfSnapshot r d => Sys2Proof.Machine.execPrfSnapshot r d s
  | .prfZero r d => Sys2Proof.Machine.execPrfZero r d s
  | .counterWrite n c hi v => Sys2Proof.Machine.execCounterWrite n c hi v s
  | .spareQuery r d => Sys2Proof.Machine.execSpareQuery r d s
  | .repair r d => Sys2Proof.Machine.execRepair r d s
  | .repairTestDone passed us => Sys2Proof.Machine.execRepairTestDone passed us s
  | .spareRetire r d => Sys2Proof.Machine.execSpareRetire r d s
  | .wornUnitRetire kind unit => Sys2Proof.Machine.execWornUnitRetire kind unit s
  | .beaconSkipped => Sys2Proof.Machine.execBeaconSkipped s
  | .injectedOccurrence n => Sys2Proof.Machine.execInjectedOccurrence n s
  | .replacementQuireInService => Sys2Proof.Machine.execReplacementQuireInService s
  | .formeRunTimeout slot => Sys2Proof.Machine.execFormeRunTimeout slot s
  | .openPagesCommitted => Sys2Proof.Machine.execOpenPagesCommitted s
  | .colCommitTimeout => Sys2Proof.Machine.execColCommitTimeout s

end Sys2Proof.Machine
end

