-- ==== Sys2Proof/WellFormed.lean ====
section
/-!
DEFINITION. Which commands are well formed: each operand within the width of its field or the numbering of what it names.
-/
namespace Sys2Proof

/-- A descriptor's fields fit their widths (R95). -/
def Desc.wf (d : Desc) : Bool :=
  d.idx < 65536 && d.tag < 0x100000000 && d.flags < 256 && d.rsv < 256 && d.addr < 0x10000000000000000 &&
  d.len < 0x100000000 && d.p0 < 0x100000000 && d.p1 < 0x100000000 && d.p2 < 0x100000000

/-- A command of a ring: ring 0 to 16,383 (R88) and a descriptor. -/
def cmdWf (r : Nat) (d : Desc) : Bool := r < 16384 && d.wf

/-- A schedule entry's fields fit their widths and its KIND is defined (R134). -/
def SchedRec.wf (e : SchedRec) : Bool :=
  e.t < 0x10000000000000000 && e.dur < 0x100000000 && 1 ≤ e.kind && e.kind ≤ 5 && e.kclass < 256 && e.level < 256 &&
  e.arg < 256

/-- The checks of every command's operands: what the width of a field, or the numbering of the thing it names, allows. -/
def Instr.wf : Instr → Bool
  | .powerOn => true
  | .presentClose => true
  | .presentOpen => true
  | .inputLow _ vin iin pin => vin < 0x10000 && iin < 0x10000 && pin < 0x10000
  | .inputLoss vin vrsv => vin < 0x10000 && vrsv < 0x10000
  | .lossSequence => true
  | .inputReturn => true
  | .reservoirExhausted => true
  | .railsOff => true
  | .inputPowerLimit _ vin iin pin => vin < 0x10000 && iin < 0x10000 && pin < 0x10000
  | .inputCurrentLimit level vin iin pin => level < 3 && vin < 0x10000 && iin < 0x10000 && pin < 0x10000
  | .reservoirCharged vrsv => decide (vrsv < 0x10000)
  | .errataLeavesReset seat pos idpar => seat < 2 && pos < 8 && idpar < 2
  | .strapChange seat pos idpar => seat < 2 && pos < 8 && idpar < 2
  | .junctionTemp die t => decide (die < 6 ∧ -32768 ≤ t ∧ t < 32768)
  | .coolingSample tach0 tach1 flow tin tout => [tach0, tach1, flow, tin, tout].all (· < 0x10000)
  | .coolingFailure item _ => decide (item < 3)
  | .derateStep => true
  | .meterFrame frame => frame.length == 20
  | .meterTimeout => true
  | .tapIdcode => true
  | .tapBypass _ => true
  | .perstAssert => true
  | .perstDeassert => true
  | .functionLevelReset => true
  | .pcieLinkUp rate width => rate < 8 && width ≤ 16
  | .configRequest off write => off < 4096 && write.all (· < 0x100000000)
  | .clockCheckWindow ppm stopped => ppm.length == 13 && ppm.all (fun x => decide (-0x80000000 ≤ x ∧ x < 0x80000000)) && stopped.all (· < 13)
  | .crossingMiss c _ => decide (c < 11)
  | .uartRxHigh => true
  | .uartSettleTimeout => true
  | .enterErrataStage => true
  | .enterSettingsStage pages => pages.all fun e => decide (e.1 < 5)
  | .enterMgmtStage => true
  | .enterChaseStage => true
  | .enterHostStage => true
  | .enterWait ms => decide (ms < 0x100000000)
  | .enterFlyleaf cond => 1 ≤ cond && cond ≤ 6
  | .takeRole => true
  | .waitPeerTimeout => true
  | .makeReadyStepDone t step fails rows banks _ us => t < 4 && 1 ≤ step && step ≤ 8 && rows < 0x10000 && banks ≤ 16 && us < 0x100000000 && fails.all fun e => decide (1 ≤ e.1 ∧ e.1 ≤ 3 ∧ e.2 < 0x8000)
  | .modelSetFromPeer formes model => formes.all (fun e => decide (e.1 < 256)) && model.all fun e => decide (e.1 < 0x4000000000)
  | .enumRetry ring => decide (ring < 4)
  | .moduleResetProceed => true
  | .mgmtWatchdog => true
  | .mgmtRestartDone => true
  | .lockstepReset => true
  | .nop r d => cmdWf r d
  | .fence r d => cmdWf r d
  | .health r d => cmdWf r d
  | .seatEnable r d => cmdWf r d
  | .ringQuery r d => cmdWf r d
  | .ptmResync r d _ _ => cmdWf r d
  | .moduleReset r d => cmdWf r d
  | .ringEnable r _ => decide (r < 16384)
  | .ringDisable r => decide (r < 16384)
  | .doorbellTail r v _ => r < 16384 && v < 0x100000000
  | .doorbellHead r v _ => r < 16384 && v < 0x100000000
  | .descriptorFetch r ds => r < 16384 && ds.length ≤ 16 && ds.all fun e => e.1 < 65536 && e.2.wf
  | .dmaError r kind addr => r < 16384 && 1 ≤ kind && kind ≤ 5 && addr < 0x10000000000000000
  | .dmaEnableChange _ _ => true
  | .msixModerationTimer r => decide (r < 16384)
  | .batchIdleTimeout r => decide (r < 16384)
  | .ptmDialogue _ _ => true
  | .ptmTimeout => true
  | .paceUnreadTimeout r num => r < 16384 && num < 0x100000000
  | .shadowHoldTimeout r => decide (r < 16384)
  | .registerWrite off size v => off < 0x100000 && size ≤ 4096 && v < 0x10000000000000000
  | .registerReadClear off size => off < 0x100000 && size ≤ 4096
  | .loReadCapture req off => req < 0x10000 && off < 0x100000
  | .traceBuf r d => cmdWf r d
  | .scoreBuf r d => cmdWf r d
  | .traceRecord r stream seq t0 samples => r < 16384 && stream < 8192 && seq < 0x100000000 && t0 < 0x10000000000000000 && 1 ≤ samples.length && samples.length ≤ 4096 && samples.all (· < 65536)
  | .keepAlive r stream seq t0 => r < 16384 && stream < 8192 && seq < 0x100000000 && t0 < 0x10000000000000000
  | .bind r stream span dieid tray slot dclass rate => r < 16384 && 1 ≤ span && stream + span ≤ 8192 && dieid < 0x10000000000000000 && tray < 128 && slot < 256 && dclass < 64 && rate < 4
  | .leave r stream span t reason => r < 16384 && 1 ≤ span && stream + span ≤ 8192 && t < 0x10000000000000000 && 1 ≤ reason && reason ≤ 4
  | .leaveTimeReached stream => decide (stream < 8192)
  | .sched r stream span entries => r < 16384 && stream + span ≤ 8192 && 1 ≤ entries.length && entries.length ≤ 64 && entries.all SchedRec.wf
  | .cancel r stream span t => r < 16384 && stream + span ≤ 8192 && t < 0x10000000000000000
  | .streamLagChange stream => decide (stream < 8192)
  | .streamSilenceTimeout stream => decide (stream < 8192)
  | .unanchorTimeout => true
  | .historySample t => decide (t < 0x10000000000000000)
  | .chasePeriodBoundary _ _ => true
  | .sampleCut _ lanes => lanes.all fun l => decide (l < 18)
  | .outputLatch => true
  | .galleyClose => true
  | .planStale => true
  | .pressQuery r d => cmdWf r d
  | .memRead r d => cmdWf r d
  | .scrubNow r d => cmdWf r d
  | .hierSet r d => cmdWf r d
  | .hierChangeStart => true
  | .hierChangeStepDone => true
  | .hierRollback reason => 1 ≤ reason && reason ≤ 3
  | .leafResidueMismatch unit => decide (unit < 32768)
  | .weightCrcSweep unit _ => decide (unit < 32768)
  | .spineError port _ => decide (port < 4)
  | .barrierRelease t level => t < 4 && 1 ≤ level && level ≤ 4
  | .barrierTimeout t level unit => t < 4 && 1 ≤ level && level ≤ 4 && unit < 32768
  | .dramCorrectable t _ _ offset nbits _ => t < 4 && offset < 0xEE6B28000 && 1 ≤ nbits && nbits ≤ 2
  | .dramUncorrectable t _ _ offset _ => t < 4 && offset < 0xEE6B28000 && offset % 8 == 0
  | .bankSpareDone t _ => decide (t < 4)
  | .patrolScrub t percent _ _ _ => t < 4 && percent ≤ 100
  | .formeOpen r d => cmdWf r d
  | .formeWrite r d => cmdWf r d
  | .formeCommit r d => cmdWf r d
  | .formeAbort r d => cmdWf r d
  | .formeUnload r d => cmdWf r d
  | .formeEnable r d => cmdWf r d
  | .formeQuery r d => cmdWf r d
  | .formeRun r d => cmdWf r d
  | .formeDigest r d => cmdWf r d
  | .formeLoadTimeout slot => decide (slot < 256)
  | .formeImpose slot _ => decide (slot < 256)
  | .variantLoadDone slot => decide (slot < 256)
  | .runEnd slot => decide (slot < 256)
  | .planRunOverdue => true
  | .sortNop t _ => decide (t < 4)
  | .endSort t _ => decide (t < 4)
  | .bar t _ => decide (t < 4)
  | .loop t _ => decide (t < 4)
  | .load t _ => decide (t < 4)
  | .store t _ => decide (t < 4)
  | .copy t _ => decide (t < 4)
  | .input t _ => decide (t < 4)
  | .emit t _ => decide (t < 4)
  | .mmul t _ => decide (t < 4)
  | .add t _ => decide (t < 4)
  | .sub t _ => decide (t < 4)
  | .mul t _ => decide (t < 4)
  | .max t _ => decide (t < 4)
  | .min t _ => decide (t < 4)
  | .shift t _ => decide (t < 4)
  | .clamp t _ => decide (t < 4)
  | .rescale t _ => decide (t < 4)
  | .convert t _ => decide (t < 4)
  | .rsum t _ => decide (t < 4)
  | .rmax t _ => decide (t < 4)
  | .lut t _ => decide (t < 4)
  | .scan t _ => decide (t < 4)
  | .attn t _ => decide (t < 4)
  | .gouter t _ => decide (t < 4)
  | .gapply t _ => decide (t < 4)
  | .galleyQuery r d => cmdWf r d
  | .trainSetup r d => cmdWf r d
  | .trainRun r d => cmdWf r d
  | .trainPromote r d => cmdWf r d
  | .trainReject r d => cmdWf r d
  | .trainRevert r d => cmdWf r d
  | .trainQuery r d => cmdWf r d
  | .capture => true
  | .trainStepEnd => true
  | .shadowScore => true
  | .trainShareWindow => true
  | .offerExpiry => true
  | .promotionImpose => true
  | .probationCheck => true
  | .candidateCheckpoint => true
  | .chaseQuery r d => cmdWf r d
  | .changeSubmit r d => cmdWf r d
  | .bankWrite r d => cmdWf r d
  | .bankRead r d => cmdWf r d
  | .periodSet r d => cmdWf r d
  | .lawSet r d => cmdWf r d
  | .changeAbort r d => cmdWf r d
  | .chsRegisterWrite off v => off < 0x10000 && off % 4 == 0 && v < 0x100000000
  | .fesumClear w v => w < 6 && v < 0x100000000
  | .sample link _ => decide (link < 40)
  | .linkRetrainAttempt link => decide (link < 40)
  | .linkMapWrite _ v => decide (v < 0x100000000)
  | .phaseWakeTimeout q => decide (q < 156)
  | .warmHoldExpiry q => decide (q < 156)
  | .estTimeout q => decide (q < 156)
  | .spareStepDone q => decide (q < 156)
  | .phaseQuery r d => cmdWf r d
  | .phaseClear r d => cmdWf r d
  | .phaseRole r d => cmdWf r d
  | .linkRetrain r d => cmdWf r d
  | .beaconInstant => true
  | .beacon src rx p => src < 16 && rx < 0x10000000000000000 && p.length == 140
  | .beaconLoss => true
  | .leaderStart => true
  | .carrierSenseChange _ => true
  | .backoffExpiry => true
  | .ackTimeout => true
  | .ack src seq => src < 16 && seq < 0x100000000
  | .fennalFrame rx _ syms => rx < 0x10000000000000000 && syms.length ≤ 683 && syms.all (fun v => v.length == 240)
  | .toneReport src p => src < 16 && p.length == 64
  | .toneReportDue snr => snr.length == 256
  | .fennalQuery r d => cmdWf r d
  | .fennalKey r d => cmdWf r d
  | .fennalKeytx r d => cmdWf r d
  | .fennalKeydel r d => cmdWf r d
  | .report src p => src < 16 && p.length == 64
  | .reportDue => true
  | .fennalLeave src p => src < 16 && p.length == 8
  | .contractEffective => true
  | .contractLapse => true
  | .pace src p => src < 16 && p.length == 16
  | .paceDue => true
  | .paceAckTimeout num => decide (num < 0x100000000)
  | .paceAck r d => cmdWf r d
  | .groupQuery r d => cmdWf r d
  | .breachEnd => true
  | .snapDue ring => decide (ring < 4)
  | .snap ring port frame => ring < 4 && port < 2 && frame.length ≤ 2048
  | .collect ring port frame => ring < 4 && port < 2 && frame.length ≤ 2048
  | .enum ring port frame delay => ring < 4 && port < 2 && frame.length ≤ 2048 && delay < 0x100000000
  | .enumTimeout ring => decide (ring < 4)
  | .echo ring port frame => ring < 4 && port < 2 && frame.length ≤ 2048
  | .bupilinCfg ring port frame => ring < 4 && port < 2 && frame.length ≤ 2048
  | .ringBreak ring => decide (ring < 4)
  | .ringProbe ring _ => decide (ring < 4)
  | .wakeTone ring => decide (ring < 4)
  | .owTestDue ring => decide (ring < 4)
  | .balanceAlt ring => decide (ring < 4)
  | .fastHoldExpiry ring => decide (ring < 4)
  | .bupRingQuery r d => cmdWf r d
  | .cellRead r d => cmdWf r d
  | .ringEnum r d => cmdWf r d
  | .owTest r d => cmdWf r d
  | .bupFast r d => cmdWf r d
  | .restDue => true
  | .restEnd st => decide (st < 4)
  | .driftAlarm st => decide (st < 4)
  | .socSlewTick => true
  | .cellStale st cell => st < 4 && cell < 384
  | .estQuery r d => cmdWf r d
  | .estTable r d => cmdWf r d
  | .estTableRead r d => cmdWf r d
  | .restNow r d => cmdWf r d
  | .estRecords r d => cmdWf r d
  | .detectorEvent n esc param _ => n < 384 && esc ≤ 2 && param < 0x100000000
  | .keepTimeout => true
  | .aliveToggle _ => true
  | .eraDstatClear w v => w < 12 && v < 0x100000000
  | .unlockExpiry => true
  | .injectionHoldExpiry n => decide (n < 384)
  | .eraQuery r d => cmdWf r d
  | .eraDetail r d => cmdWf r d
  | .eraClear r d => cmdWf r d
  | .eraClass r d => cmdWf r d
  | .eraUnlock r d => cmdWf r d
  | .eraInject r d => cmdWf r d
  | .eraWithdraw r d => cmdWf r d
  | .eraLock r d => cmdWf r d
  | .hb _ flags seq pnum p rx => flags < 256 && seq < 0x100000000 && pnum < 0x10000000000000000 && p.length == 32 && rx < 0x10000000000000000
  | .state _ flags seq pnum p cyc => flags < 256 && seq < 0x100000000 && pnum < 0x10000000000000000 && p.length == 4096 && cyc < 2000
  | .takeover _ flags seq pnum p => flags < 256 && seq < 0x100000000 && pnum < 0x10000000000000000 && p.length == 16
  | .leaving _ flags seq pnum p => flags < 256 && seq < 0x100000000 && pnum < 0x10000000000000000 && p.length == 16
  | .pcyc _ flags seq pnum p => flags < 256 && seq < 0x100000000 && pnum < 0x10000000000000000 && 24 ≤ p.length && p.length ≤ 1020
  | .rack _ flags seq pnum p => flags < 256 && seq < 0x100000000 && pnum < 0x10000000000000000 && p.length ≤ 1024
  | .roscorCfg _ flags seq pnum p _ data => flags < 256 && seq < 0x100000000 && pnum < 0x10000000000000000 && p.length ≤ 1024 && decide (data.length < 0x1000000)
  | .bulk _ flags seq pnum p => flags < 256 && seq < 0x100000000 && pnum < 0x10000000000000000 && p.length ≤ 1024
  | .seatTokenTake => true
  | .shadowLaw loopBad => loopBad.all (· < 40)
  | .plannedHandover => true
  | .roscorLinkDown => true
  | .roscorTrained lat => 80 ≤ lat && lat ≤ 200
  | .laneSelftest bad => bad.all (· < 18)
  | .provingEnd => true
  | .seatQuery r d => cmdWf r d
  | .seatSwitch r d => cmdWf r d
  | .provingRun r d => cmdWf r d
  | .provingStop r d => cmdWf r d
  | .seatHealth r d => cmdWf r d
  | .pageCommit failed => decide (failed < 0x100000000)
  | .finalCommitDone us => decide (us < 0x100000000)
  | .triggerFire trig cause _ => trig < 64 && cause < 0x100000000
  | .snapshotCapture trig late => (trig < 64 || (0x80 ≤ trig && trig ≤ 0x82)) && late.all (· < 512)
  | .colQuery r d => cmdWf r d
  | .trigWrite r d => cmdWf r d
  | .trigRead r d => cmdWf r d
  | .snapNow r d => cmdWf r d
  | .colRead r d => cmdWf r d
  | .colCommit r d => cmdWf r d
  | .updQuery r d => cmdWf r d
  | .imgOpen r d _ => cmdWf r d
  | .imgWrite r d => cmdWf r d
  | .imgFinish r d => cmdWf r d
  | .imgAbort r d => cmdWf r d
  | .lockExpired t => 1 ≤ t && t ≤ 6
  | .updActivate r d => cmdWf r d
  | .updCommit r d => cmdWf r d
  | .updRollback r d => cmdWf r d
  | .tapUnlock r d _ => cmdWf r d
  | .hdrRead r d => cmdWf r d
  | .stepConfirmed => true
  | .stepDeadline => true
  | .soakEnd => true
  | .imgcheck ring port frame => ring < 4 && port < 2 && frame.length ≤ 2048
  | .nodeSwapTimeout ring => decide (ring < 4)
  | .flyOpen t win _ => t < 16 && win.length ≤ 32768
  | .flyWrite t len win => t < 16 && len < 0x100000000 && win.length ≤ 32768
  | .flyFinish t => decide (t < 16)
  | .flyAbort t => decide (t < 16)
  | .flyBoot => true
  | .uartMessage msg _ => decide (msg.length ≤ 4104)
  | .flyleafRequest v => decide (v < 0x100000000)
  | .startModeWrite v => decide (v < 0x100000000)
  | .prfSnapshot r d => cmdWf r d
  | .prfZero r d => cmdWf r d
  | .counterWrite n c _ v => n < 6 && c < 8 && v < 0x100000000
  | .spareQuery r d => cmdWf r d
  | .repair r d => cmdWf r d
  | .repairTestDone _ us => decide (us < 0x100000000)
  | .spareRetire r d => cmdWf r d
  | .wornUnitRetire kind unit => kind < 10 && unit < 0x8000
  | .beaconSkipped => true
  | .injectedOccurrence n => decide (n < 384)
  | .replacementQuireInService => true
  | .formeRunTimeout slot => decide (slot < 256)
  | .openPagesCommitted => true
  | .colCommitTimeout => true

/-- A command is well formed when its operands pass the checks. -/
def WellFormed (i : Instr) : Prop := i.wf = true

end Sys2Proof
end

