-- ==== Sys2Proof/Safety.lean ====
section
/-!
DEFINITION. The terms in which statements speak of commands: what a command answers, when a ring serves a descriptor, and
the invariant of the machine.
-/
namespace Sys2Proof.Machine

/-- The command answers a next state, and `P` holds of it. -/
def Gives (c : Instr) (s : State) (P : State → Prop) : Prop := ∃ t, exec c s = .next t ∧ P t

/-- The command has its own effect, of which `P` holds, and then the degrade orders raised meanwhile are carried out
(R474). -/
def Settles (c : Instr) (s : State) (P : State → Prop) : Prop := ∃ u, exec c s = .next u.settle ∧ P u

/-- The command of ring `r` has its own effect, of which `P` holds, and then its descriptor completes with this status,
DONE and RESULT (R96, R113). -/
def Completes (c : Instr) (s : State) (r op : Nat) (d : Desc) (status done result : Nat) (P : State → Prop) : Prop :=
  ∃ u, exec c s = .next (u.completeLate r op d status done result) ∧ P u

/-- The host's writes reach the module (R63): rails up, no PERST#, D0, no Flyleaf, and stage HOST reached. -/
abbrev State.hostOpen (s : State) : Prop := s.barUp = true ∧ s.stage ≠ 0xE ∧ s.glb.hostUp = true

/-- Ring `r` runs and is free to begin a command, memory requests are on (R84), and the descriptor is the ring's next one (R113); while
the management firmware restarts no CMD ring begins anything (R59). -/
abbrev State.begins (s : State) (cls r op : Nat) (d : Desc) : Prop :=
  s.ringLive r = true ∧ (s.ring r).busy = false ∧ s.dmaOn = true ∧ s.atFront r op d = true ∧ (cls = 0 → s.glb.mgmtDown = false)

/-- Ring `r` begins the command, every check of R607 passes, and a buffer that the command writes takes the write. -/
abbrev State.serves (s : State) (cls r op : Nat) (d : Desc) (i : CmdInfo) : Prop :=
  s.begins cls r op d ∧ s.check r cls d i = none ∧ (i.buf = .writes → d.buf ≠ none)

/-- The state in which a command that fills a buffer has begun and written its image of `n` bytes (R113). -/
def State.imaged (s : State) (r op : Nat) (d : Desc) (n : Nat) (b : List Byte) : State :=
  (s.beginDesc r op d).dmaOut d.addr (fit n b)

/-- A BUPILIN frame has a good CRC-16 and consists of these parts (R422). -/
abbrev bupParts (f : List Byte) (cmd addr flags : Nat) (args recs : List Byte) : Prop :=
  6 ≤ f.length ∧ crc16 (f.take (f.length - 2)) = rd f (f.length - 2) 2 ∧ rd f 0 1 = cmd ∧ rd f 1 1 = addr ∧ rd f 2 1 = flags ∧
    (f.drop 4).take (rd f 3 1) = args ∧ (f.take (f.length - 2)).drop (4 + rd f 3 1) = recs

/-- A field that no report of the module writes: it belongs to no block of rings, detectors, log records or performance
counters, and is neither the stage nor the seat token. -/
def calm (g : Fld) : Bool :=
  let a := g.key % 0x2000000
  let b := a / 0x200000
  b != 1 && b != 8 && b != 9 && b != 11 && a != Reg.GLB_BOOTSTAT_STAGE.key && a != Reg.CHS_STAT_TOKEN.key

/-- Of the register fields that no report writes, `t` differs from `s` in these at most. -/
def State.only (s t : State) (fs : List Fld) : Prop :=
  ∀ g : Fld, calm g = true → g.key ∉ fs.map (·.key) → t.get g = s.get g

/-- The commands that store to the memory of the Press: the sorts with a destination, those that load or move bytes into it or take them
back, and those that start it afresh. -/
def storesPress : Instr → Bool
  | .add .. | .sub .. | .mul .. | .min .. | .max .. | .shift .. | .convert .. | .clamp .. | .rescale .. | .lut .. | .rsum .. | .rmax ..
  | .scan .. | .attn .. | .gouter .. | .gapply .. | .mmul .. | .load .. | .store .. | .copy .. | .input .. => true
  | .capture .. | .trainPromote .. | .trainRevert .. | .trainStepEnd .. | .probationCheck .. | .shadowScore .. => true
  | .bulk .. | .pcyc .. | .roscorCfg .. | .chasePeriodBoundary .. | .formeImpose .. | .makeReadyStepDone .. => true
  | .modelSetFromPeer .. | .replacementQuireInService .. | .railsOff .. | .moduleReset .. | .moduleResetProceed .. => true
  | .lockstepReset .. | .dramUncorrectable .. | .flyBoot .. | .uartMessage .. | .openPagesCommitted .. => true
  | .mgmtRestartDone .. | .promotionImpose .. | .spineError .. | .traceBuf .. | .scoreBuf .. | .eraInject .. | .injectedOccurrence .. => true
  | _ => false

/-- The commands that fill a buffer with what the module holds, and NOP. -/
def queries : Instr → Bool
  | .nop .. | .health .. | .ringQuery .. | .pressQuery .. | .formeQuery .. | .formeDigest .. | .galleyQuery .. | .trainQuery .. => true
  | .chaseQuery .. | .bankRead .. | .phaseQuery .. | .fennalQuery .. | .groupQuery .. | .bupRingQuery .. | .cellRead .. => true
  | .estQuery .. | .estTableRead .. | .estRecords .. | .eraQuery .. | .eraDetail .. | .colQuery .. | .trigRead .. | .colRead .. => true
  | .updQuery .. | .hdrRead .. | .spareQuery .. | .seatQuery .. | .seatHealth .. => true
  | _ => false

/-- The sorts of the Press (R211). -/
def sorts : Instr → Bool
  | .add .. | .sub .. | .mul .. | .min .. | .max .. | .shift .. | .convert .. | .clamp .. | .rescale .. | .lut .. | .rsum .. | .rmax ..
  | .scan .. | .attn .. | .gouter .. | .gapply .. | .mmul .. | .load .. | .store .. | .copy .. | .input .. | .emit .. => true
  | .sortNop .. | .endSort .. | .bar .. | .loop .. => true
  | _ => false

/-- The invariant of the machine: the memory of the Press is in its canonical form, and every waiting command is well
formed. -/
def State.Inv (s : State) : Prop := Memory.wf s.prs.pmem = true ∧ ∀ c ∈ s.pending, c.wf = true

end Sys2Proof.Machine
end

