-- ==== Sys2Proof/Certificates/Slice0/Obligations.lean ====
section
/-!
DEFINITION. The statements for the provers. Where a statement names a log entry, it rests on a choice of the model; every other one follows
the rules its comment names.
-/
open Sys2Proof Sys2Proof.Machine

/-- A step runs exec of the command at the front of the queue, on the state with the queue's rest. -/
def Obligations.StepRunsFront : Prop :=
  (∀ (s : State) (c : Instr) (rest : List Instr), s.pending = c :: rest → step s = exec c { s with pending := rest })

/-- On an empty queue the block idles: the model's own choice (log entry 1). -/
def Obligations.EmptyQueueIdles : Prop :=
  (∀ s : State, s.pending = [] → step s = .next s)

/-- Every command answers a next state in every state: the spec gives each of them an effect, and none stops the machine. -/
def Obligations.EveryCommandAnswers : Prop :=
  (∀ (c : Instr) (s : State), ∃ t, exec c s = .next t)

/-- No command changes the queue of those that wait. -/
def Obligations.QueueKept : Prop :=
  (∀ (c : Instr) (s : State), Gives c s fun t => t.pending = s.pending)

/-- The memory of the Press changes by the commands that store to it only: the sorts with a destination, those that load or move
bytes into it or take them back, and those that start it afresh (R149, R154, R175, R211, R286). Every other command leaves every byte of it as it was. -/
def Obligations.PressMemoryKept : Prop :=
  (∀ (c : Instr) (s : State), storesPress c = false → Gives c s fun t =>
    ∀ a : Nat, Memory.read t.prs.pmem a = Memory.read s.prs.pmem a)

/-- Every step keeps the invariant: the memory of the Press stays in its canonical form, and the waiting commands stay well
formed. -/
def Obligations.StepKeepsInv : Prop :=
  (∀ s t : State, s.Inv → step s = .next t → t.Inv)

/-- The invariant holds right after reset. -/
def Obligations.ResetInv : Prop :=
  State.reset.Inv

/-- A command that asks for what the module holds changes nothing but its rings, the host's part, the performance counters and
what leaves the module: no register field that is not of those, and no other part of the state. -/
def Obligations.QueryFrame : Prop :=
  (∀ (c : Instr) (s : State), queries c = true → Gives c s fun t =>
    s.only t [] ∧ t.nvm = s.nvm ∧ t.pendW = s.pendW ∧ t.chgNext = s.chgNext ∧ t.staged = s.staged ∧ t.nv = s.nv ∧ t.glb = s.glb ∧
    t.watch = s.watch ∧ t.era = s.era ∧ t.col = s.col ∧ t.spr = s.spr ∧ t.ing = s.ing ∧ t.prs = s.prs ∧ t.gal = s.gal ∧
    t.trn = s.trn ∧ t.chs = s.chs ∧ t.bup = s.bup ∧ t.est = s.est ∧ t.fen = s.fen ∧ t.grp = s.grp ∧ t.ros = { s.ros with sent := t.ros.sent } ∧
    t.upd = s.upd ∧ t.prf = s.prf ∧ t.free = s.free ∧ t.pending = s.pending)

/-- A sort of the Press changes no staged change, no setting held in the store, and nothing of the storage rings, the cell
estimates, the carrier, the rack group, the seats and the update (R211). -/
def Obligations.SortFrame : Prop :=
  (∀ (c : Instr) (s : State), sorts c = true → Gives c s fun t =>
    t.nvm = s.nvm ∧ t.pendW = s.pendW ∧ t.chgNext = s.chgNext ∧ t.staged = s.staged ∧ t.nv = s.nv ∧ t.watch = s.watch ∧
    t.bup = s.bup ∧ t.est = s.est ∧ t.fen = s.fen ∧ t.grp = s.grp ∧ t.ros = { s.ros with sent := t.ros.sent } ∧ t.upd = s.upd ∧ t.pending = s.pending)

/-- The register fields that signals, boards and timers may change, beside those of rings, detectors, records and performance counters (calm fields). -/
def Obligations.RegisterFramesOfSignals : Prop :=
  (∀ (s : State), Gives .powerOn s fun t => s.only t [Reg.GLB_ISL_PWR_ISL, Reg.GLB_ISL_RST_ISL, Reg.GLB_VRSV_CHARGING]) ∧
  (∀ (s : State) (vrsv : Nat), Gives (.reservoirCharged vrsv) s fun t => s.only t [Reg.GLB_BOOTSTAT_RES, Reg.GLB_VRSV_CHARGING, Reg.GLB_VRSV_VRSV]) ∧
  (∀ (s : State), Gives .reservoirExhausted s fun t => s.only t [Reg.GLB_BOOTSTAT_RES, Reg.GLB_VRSV_VRSV]) ∧
  (∀ (s : State), Gives .presentClose s fun t => s.only t []) ∧
  (∀ (s : State), Gives .inputReturn s fun t => s.only t []) ∧
  (∀ (s : State) (f : List Byte), Gives (.meterFrame f) s fun t => s.only t []) ∧
  (∀ (s : State), Gives .outputLatch s fun t => s.only t []) ∧
  (∀ (s : State), Gives .uartRxHigh s fun t => s.only t []) ∧
  (∀ (s : State), Gives .tapIdcode s fun t => s.only t []) ∧
  (∀ (s : State) (tdi : Bool), Gives (.tapBypass tdi) s fun t => s.only t []) ∧
  (∀ (s : State) (seat : Nat) (pos : Nat) (idpar : Nat), Gives (.strapChange seat pos idpar) s fun t => s.only t [Reg.GLB_SEAT_CHANGED, Reg.GLB_SEAT_LIDPAR, Reg.GLB_SEAT_LPOS, Reg.GLB_SEAT_LSEAT]) ∧
  (∀ (s : State) (item : Nat) (failed : Bool), Gives (.coolingFailure item failed) s fun t => s.only t [Reg.CHS_COOL_STAT_FLOWOK, Reg.CHS_COOL_STAT_P0OK, Reg.CHS_COOL_STAT_P1OK, Reg.CHS_COOL_STAT_PLAN]) ∧
  (∀ (s : State), Gives .derateStep s fun t => s.only t [Reg.CHS_COOL_STAT_F, Reg.CHS_COOL_STAT_PLAN, Reg.CHS_RMP_PMAX, Reg.CHS_RMP_PMIN, Reg.CHS_RMP_SDN, Reg.CHS_RMP_SUP]) ∧
  (∀ (s : State) (link : Nat), Gives (.linkRetrainAttempt link) s fun t => s.only t []) ∧
  (∀ (s : State) (hi : Bool) (v : Nat), Gives (.linkMapWrite hi v) s fun t => s.only t [Reg.GLB_EARLYWR]) ∧
  (∀ (s : State) (w : Nat) (v : Nat), Gives (.fesumClear w v) s fun t => s.only t [Reg.CHS_FESUM w, Reg.CHS_FESTAT_CAUSE, Reg.GLB_EARLYWR]) ∧
  (∀ (s : State), Gives .breachEnd s fun t => s.only t [Reg.CHS_RMP_STAT_BREACH]) ∧
  (∀ (s : State) (q : Nat), Gives (.warmHoldExpiry q) s fun t => s.only t [Reg.STL_PSTAT_FACTOR q, Reg.STL_PSTAT_STATE q]) ∧
  (∀ (s : State), Gives .keepTimeout s fun t => s.only t []) ∧
  (∀ (s : State) (readback : Bool), Gives (.aliveToggle readback) s fun t => s.only t []) ∧
  (∀ (s : State) (n : Nat), Gives (.injectionHoldExpiry n) s fun t => s.only t []) ∧
  (∀ (s : State) (n : Nat), s.era.orders = [] → s.baseClass n = 0 → n / 16 = 0 ∨ 13 ≤ n / 16 → s.glb.safeLeft ≠ 10 →
    Gives (.injectedOccurrence n) s fun t => s.only t []) ∧
  (∀ (s : State), Gives .unlockExpiry s fun t => s.only t []) ∧
  (∀ (s : State) (failed : Nat), Gives (.pageCommit failed) s fun t => s.only t []) ∧
  (∀ (s : State) (us : Nat), Gives (.finalCommitDone us) s fun t => s.only t []) ∧
  (∀ (s : State) (trig : Nat) (cause : Nat) (inj : Bool), Gives (.triggerFire trig cause inj) s fun t => s.only t []) ∧
  (∀ (s : State), Gives .colCommitTimeout s fun t => s.only t []) ∧
  (∀ (s : State) (good : Bool) (flags : Nat) (seq : Nat) (pnum : Nat) (p : List Byte), Gives (.leaving good flags seq pnum p) s fun t => s.only t [Reg.GLB_BOOTSTAT_ROSCOR, Reg.ROS_CRC, Reg.ROS_STAT_LOCK, Reg.ROS_STAT_PREADY, Reg.ROS_STAT_READY, Reg.ROS_STAT_UP]) ∧
  (∀ (s : State) (good : Bool) (flags : Nat) (seq : Nat) (pnum : Nat) (p : List Byte), Gives (.takeover good flags seq pnum p) s fun t => s.only t [Reg.GLB_BOOTSTAT_ROSCOR, Reg.ROS_CRC, Reg.ROS_STAT_LOCK, Reg.ROS_STAT_PREADY, Reg.ROS_STAT_READY, Reg.ROS_STAT_UP]) ∧
  (∀ (s : State) (good : Bool) (flags : Nat) (seq : Nat) (pnum : Nat) (p : List Byte), Gives (.rack good flags seq pnum p) s fun t => s.only t [Reg.GLB_BOOTSTAT_ROSCOR, Reg.ROS_CRC, Reg.ROS_STAT_LOCK, Reg.ROS_STAT_PREADY, Reg.ROS_STAT_READY, Reg.ROS_STAT_UP]) ∧
  (∀ (s : State) (lat : Nat), Gives (.roscorTrained lat) s fun t => s.only t [Reg.ROS_LAT_NS, Reg.ROS_STAT_UP]) ∧
  (∀ (s : State) (bad : List Nat), Gives (.laneSelftest bad) s fun t => s.only t []) ∧
  (∀ (s : State) (k : Nat), Gives (.lockExpired k) s fun t => s.only t []) ∧
  (∀ (s : State), Gives .soakEnd s fun t => s.only t []) ∧
  (∀ (s : State) (k : Nat) (win : List Byte) (sig : Bool), Gives (.flyOpen k win sig) s fun t => s.only t []) ∧
  (∀ (s : State) (k : Nat) (len : Nat) (win : List Byte), Gives (.flyWrite k len win) s fun t => s.only t []) ∧
  (∀ (s : State) (k : Nat), Gives (.flyFinish k) s fun t => s.only t []) ∧
  (∀ (s : State) (k : Nat), Gives (.flyAbort k) s fun t => s.only t [])

/-- The register fields that commands of the rings and the rows of the Press, the rings and the carrier may change, beside those of rings, detectors, records and performance counters. -/
def Obligations.RegisterFramesOfCommands : Prop :=
  (∀ (s : State) (slot : Nat), Gives (.formeLoadTimeout slot) s fun t => s.only t []) ∧
  (∀ (s : State) (slot : Nat), Gives (.variantLoadDone slot) s fun t => s.only t []) ∧
  (∀ (s : State) (k : Nat), Gives (.historySample k) s fun t => s.only t []) ∧
  (∀ (s : State) (k : Nat) (level : Nat), Gives (.barrierRelease k level) s fun t => s.only t []) ∧
  (∀ (s : State) (k : Nat) (bank : Nat), Gives (.bankSpareDone k bank) s fun t => s.only t []) ∧
  (∀ (s : State), Gives .trainShareWindow s fun t => s.only t []) ∧
  (∀ (s : State), Gives .planStale s fun t => s.only t [Reg.PRS_GAL_STAT_PLAN]) ∧
  (∀ (s : State), Gives .offerExpiry s fun t => s.only t [Reg.PRS_TRN_STAT_STATE]) ∧
  (∀ (s : State) (r : Nat) (d : Desc), Gives (.trainReject r d) s fun t => s.only t [Reg.PRS_TRN_STAT_STATE]) ∧
  (∀ (s : State) (r : Nat) (d : Desc), Gives (.trainSetup r d) s fun t => s.only t []) ∧
  (∀ (s : State) (r : Nat) (d : Desc), Gives (.formeOpen r d) s fun t => s.only t []) ∧
  (∀ (s : State) (r : Nat) (d : Desc), Gives (.formeWrite r d) s fun t => s.only t []) ∧
  (∀ (s : State) (r : Nat) (d : Desc), Gives (.formeAbort r d) s fun t => s.only t []) ∧
  (∀ (s : State) (r : Nat) (d : Desc), Gives (.formeUnload r d) s fun t => s.only t []) ∧
  (∀ (s : State) (r : Nat) (d : Desc), Gives (.formeRun r d) s fun t => s.only t []) ∧
  (∀ (s : State) (r : Nat) (d : Desc), Gives (.hierSet r d) s fun t => s.only t [Reg.GLB_HIER_TARGET]) ∧
  (∀ (s : State) (r : Nat) (d : Desc), Gives (.changeAbort r d) s fun t => s.only t [Reg.CHS_STAT_RBK]) ∧
  (∀ (s : State) (r : Nat) (d : Desc), Gives (.phaseRole r d) s fun t => s.only t []) ∧
  (∀ (s : State) (r : Nat) (d : Desc), Gives (.spareRetire r d) s fun t => s.only t []) ∧
  (∀ (s : State) (r : Nat) (d : Desc), Gives (.bupFast r d) s fun t => s.only t []) ∧
  (∀ (s : State) (r : Nat) (d : Desc), Gives (.owTest r d) s fun t => s.only t []) ∧
  (∀ (s : State) (r : Nat) (d : Desc), Gives (.restNow r d) s fun t => s.only t [Reg.BUP_EST_RSTAT_EARLY]) ∧
  (∀ (s : State) (ring : Nat), Gives (.balanceAlt ring) s fun t => s.only t [Reg.BUP_RTGT_GRP ring]) ∧
  (∀ (s : State) (ring : Nat), Gives (.owTestDue ring) s fun t => s.only t []) ∧
  (∀ (s : State) (ring : Nat), Gives (.enumRetry ring) s fun t => s.only t [Reg.BUP_RSTAT_NOUT ring, Reg.BUP_RSTAT_NRET ring]) ∧
  (∀ (s : State) (ring : Nat), Gives (.ringBreak ring) s fun t => s.only t [Reg.BUP_RSTAT_NOUT ring, Reg.BUP_RSTAT_NRET ring]) ∧
  (∀ (s : State), Gives .beaconSkipped s fun t => s.only t [Reg.FEN_BSKIP]) ∧
  (∀ (s : State) (level : Option Int), Gives (.carrierSenseChange level) s fun t => s.only t []) ∧
  (∀ (s : State), Gives .ackTimeout s fun t => s.only t [Reg.FEN_RETRIES, Reg.FEN_TXDROP]) ∧
  (∀ (s : State) (num : Nat), Gives (.paceAckTimeout num) s fun t => s.only t [Reg.FEN_PACEUND, Reg.FEN_PACE_STAT_UNACK]) ∧
  (∀ (s : State) (r : Nat) (num : Nat), Gives (.paceUnreadTimeout r num) s fun t => s.only t [Reg.FEN_PACEUND, Reg.FEN_PACE_STAT_UNACK]) ∧
  (∀ (s : State) (r : Nat) (d : Desc), Gives (.trigWrite r d) s fun t => s.only t []) ∧
  (∀ (s : State) (r : Nat) (d : Desc), Gives (.colCommit r d) s fun t => s.only t []) ∧
  (∀ (s : State) (r : Nat) (d : Desc) (sig : Bool), Gives (.imgOpen r d sig) s fun t => s.only t []) ∧
  (∀ (s : State) (r : Nat) (d : Desc), Gives (.imgWrite r d) s fun t => s.only t []) ∧
  (∀ (s : State) (r : Nat) (d : Desc), Gives (.imgFinish r d) s fun t => s.only t []) ∧
  (∀ (s : State) (r : Nat) (d : Desc), Gives (.imgAbort r d) s fun t => s.only t []) ∧
  (∀ (s : State) (r : Nat) (d : Desc), Gives (.updCommit r d) s fun t => s.only t []) ∧
  (∀ (s : State) (r : Nat) (d : Desc) (sig : Bool), Gives (.tapUnlock r d sig) s fun t => s.only t [Reg.UPD_NONCE]) ∧
  (∀ (s : State) (r : Nat) (d : Desc), Gives (.prfSnapshot r d) s fun t => s.only t []) ∧
  (∀ (s : State) (r : Nat) (d : Desc), Gives (.prfZero r d) s fun t => s.only t []) ∧
  (∀ (s : State) (r : Nat) (d : Desc), Gives (.eraWithdraw r d) s fun t => s.only t []) ∧
  (∀ (s : State) (r : Nat) (d : Desc), Gives (.eraLock r d) s fun t => s.only t []) ∧
  (∀ (s : State) (r : Nat) (d : Desc), Gives (.eraUnlock r d) s fun t => s.only t []) ∧
  (∀ (s : State) (r : Nat) (d : Desc), Gives (.fence r d) s fun t => s.only t []) ∧
  (∀ (s : State) (k : Nat) (cyc : Nat), Gives (.sortNop k cyc) s fun t => s.only t []) ∧
  (∀ (s : State) (k : Nat) (cyc : Nat), Gives (.endSort k cyc) s fun t => s.only t []) ∧
  (∀ (s : State) (k : Nat) (cyc : Nat), Gives (.bar k cyc) s fun t => s.only t []) ∧
  (∀ (s : State) (k : Nat) (cyc : Nat), Gives (.loop k cyc) s fun t => s.only t [])

/-- The checks of R607 on a CMD ring: a command whose check fails completes with the status of that check, DONE 0 and RESULT 0, and
has no other effect. -/
def Obligations.CommandChecks : Prop :=
  (∀ (s : State) (r : Nat) (d : Desc) (st : Nat), s.begins 0 r 0x0100 d →
    (s.beginDesc r 0x0100 d).check r 0 d { priv := 0 } = some st →
    exec (.fence r d) s = .next ((s.beginDesc r 0x0100 d).completeLate r 0x0100 d st 0 0)) ∧
  (∀ (s : State) (r : Nat) (d : Desc) (st : Nat), s.begins 0 r 0x0101 d →
    (s.beginDesc r 0x0101 d).check r 0 d { priv := 0, buf := .writes, lenOk := fun n => decide (256 ≤ n) } = some st →
    exec (.health r d) s = .next ((s.beginDesc r 0x0101 d).completeLate r 0x0101 d st 0 0)) ∧
  (∀ (s : State) (r : Nat) (d : Desc) (st : Nat), s.begins 0 r 0x0102 d →
    (s.beginDesc r 0x0102 d).check r 0 d { priv := 1 } = some st →
    exec (.seatEnable r d) s = .next ((s.beginDesc r 0x0102 d).completeLate r 0x0102 d st 0 0)) ∧
  (∀ (s : State) (r : Nat) (d : Desc) (st : Nat), s.begins 0 r 0x0103 d →
    (s.beginDesc r 0x0103 d).check r 0 d { priv := 0, buf := .writes, lenOk := fun n => 64 ≤ n } = some st →
    exec (.ringQuery r d) s = .next ((s.beginDesc r 0x0103 d).completeLate r 0x0103 d st 0 0)) ∧
  (∀ (s : State) (r : Nat) (d : Desc) (good : Bool) (ofs : Int) (st : Nat), s.begins 0 r 0x0104 d →
    (s.beginDesc r 0x0104 d).check r 0 d { priv := 1 } = some st →
    exec (.ptmResync r d good ofs) s = .next ((s.beginDesc r 0x0104 d).completeLate r 0x0104 d st 0 0)) ∧
  (∀ (s : State) (r : Nat) (d : Desc) (st : Nat), s.begins 0 r 0x0105 d →
    (s.beginDesc r 0x0105 d).check r 0 d { priv := 3 } = some st →
    exec (.moduleReset r d) s = .next ((s.beginDesc r 0x0105 d).completeLate r 0x0105 d st 0 0)) ∧
  (∀ (s : State) (r : Nat) (d : Desc) (st : Nat), s.begins 0 r 0x0201 d →
    (s.beginDesc r 0x0201 d).check r 0 d { priv := 0, buf := .writes, lenOk := fun n => 64 ≤ n } = some st →
    exec (.pressQuery r d) s = .next ((s.beginDesc r 0x0201 d).completeLate r 0x0201 d st 0 0)) ∧
  (∀ (s : State) (r : Nat) (d : Desc) (st : Nat), s.begins 0 r 0x0202 d →
    (s.beginDesc r 0x0202 d).check r 0 d { priv := 3, buf := .writes, lenOk := fun n => 64 ≤ n && n ≤ 1048576 && n % 64 == 0, parOk := (memOff d) % 64 == 0 && decide ((memOff d) + d.len ≤ dramSize) } = some st →
    exec (.memRead r d) s = .next ((s.beginDesc r 0x0202 d).completeLate r 0x0202 d st 0 0)) ∧
  (∀ (s : State) (r : Nat) (d : Desc) (st : Nat), s.begins 0 r 0x0203 d →
    (s.beginDesc r 0x0203 d).check r 0 d { priv := 2, standby := true } = some st →
    exec (.scrubNow r d) s = .next ((s.beginDesc r 0x0203 d).completeLate r 0x0203 d st 0 0)) ∧
  (∀ (s : State) (r : Nat) (d : Desc) (st : Nat), s.begins 0 r 0x0200 d →
    (s.beginDesc r 0x0200 d).check r 0 d { priv := 2, standby := true, parOk := decide (1 ≤ (bits d.p0 0 4) ∧ (bits d.p0 0 4) ≤ 4 ∧ d.p1 = 0 ∧ d.p2 = 0) } = some st →
    exec (.hierSet r d) s = .next ((s.beginDesc r 0x0200 d).completeLate r 0x0200 d st 0 0)) ∧
  (∀ (s : State) (r : Nat) (d : Desc) (st : Nat), s.begins 0 r 0x0210 d →
    (s.beginDesc r 0x0210 d).check r 0 d { priv := 2, standby := true, parOk := decide (128 ≤ d.p1 ∧ d.p1 ≤ 268435456) } = some st →
    exec (.formeOpen r d) s = .next ((s.beginDesc r 0x0210 d).completeLate r 0x0210 d st 0 0)) ∧
  (∀ (s : State) (r : Nat) (d : Desc) (st : Nat), s.begins 0 r 0x0211 d →
    (s.beginDesc r 0x0211 d).check r 0 d { priv := 2, standby := true, buf := .reads, lenOk := fun n => 8 ≤ n && n ≤ 1048576 && n % 8 == 0, parOk := d.p1 % 8 == 0 } = some st →
    exec (.formeWrite r d) s = .next ((s.beginDesc r 0x0211 d).completeLate r 0x0211 d st 0 0)) ∧
  (∀ (s : State) (r : Nat) (d : Desc) (st : Nat), s.begins 0 r 0x0212 d →
    (s.beginDesc r 0x0212 d).check r 0 d { priv := 2, standby := true } = some st →
    exec (.formeCommit r d) s = .next ((s.beginDesc r 0x0212 d).completeLate r 0x0212 d st 0 0)) ∧
  (∀ (s : State) (r : Nat) (d : Desc) (st : Nat), s.begins 0 r 0x0213 d →
    (s.beginDesc r 0x0213 d).check r 0 d { priv := 2, standby := true } = some st →
    exec (.formeAbort r d) s = .next ((s.beginDesc r 0x0213 d).completeLate r 0x0213 d st 0 0)) ∧
  (∀ (s : State) (r : Nat) (d : Desc) (st : Nat), s.begins 0 r 0x0214 d →
    (s.beginDesc r 0x0214 d).check r 0 d { priv := 2, standby := true } = some st →
    exec (.formeUnload r d) s = .next ((s.beginDesc r 0x0214 d).completeLate r 0x0214 d st 0 0)) ∧
  (∀ (s : State) (r : Nat) (d : Desc) (st : Nat), s.begins 0 r 0x0215 d →
    (s.beginDesc r 0x0215 d).check r 0 d { priv := 2, standby := true } = some st →
    exec (.formeEnable r d) s = .next ((s.beginDesc r 0x0215 d).completeLate r 0x0215 d st 0 0)) ∧
  (∀ (s : State) (r : Nat) (d : Desc) (st : Nat), s.begins 0 r 0x0216 d →
    (s.beginDesc r 0x0216 d).check r 0 d { priv := 0, buf := .writes, lenOk := fun n => 64 ≤ n } = some st →
    exec (.formeQuery r d) s = .next ((s.beginDesc r 0x0216 d).completeLate r 0x0216 d st 0 0)) ∧
  (∀ (s : State) (r : Nat) (d : Desc) (st : Nat), s.begins 0 r 0x0217 d →
    (s.beginDesc r 0x0217 d).check r 0 d { priv := 3, standby := true } = some st →
    exec (.formeRun r d) s = .next ((s.beginDesc r 0x0217 d).completeLate r 0x0217 d st 0 0)) ∧
  (∀ (s : State) (r : Nat) (d : Desc) (st : Nat), s.begins 0 r 0x0218 d →
    (s.beginDesc r 0x0218 d).check r 0 d { priv := 0, buf := .writes, lenOk := fun n => 48 ≤ n } = some st →
    exec (.formeDigest r d) s = .next ((s.beginDesc r 0x0218 d).completeLate r 0x0218 d st 0 0)) ∧
  (∀ (s : State) (r : Nat) (d : Desc) (st : Nat), s.begins 0 r 0x0300 d →
    (s.beginDesc r 0x0300 d).check r 0 d { priv := 0, buf := .writes, lenOk := fun n => 128 ≤ n } = some st →
    exec (.galleyQuery r d) s = .next ((s.beginDesc r 0x0300 d).completeLate r 0x0300 d st 0 0)) ∧
  (∀ (s : State) (r : Nat) (d : Desc) (st : Nat), s.begins 0 r 0x0400 d →
    (s.beginDesc r 0x0400 d).check r 0 d { priv := 2, standby := true, buf := .reads, lenOk := fun n => 32 ≤ n } = some st →
    exec (.trainSetup r d) s = .next ((s.beginDesc r 0x0400 d).completeLate r 0x0400 d st 0 0)) ∧
  (∀ (s : State) (r : Nat) (d : Desc) (st : Nat), s.begins 0 r 0x0401 d →
    (s.beginDesc r 0x0401 d).check r 0 d { priv := 2, standby := true } = some st →
    exec (.trainRun r d) s = .next ((s.beginDesc r 0x0401 d).completeLate r 0x0401 d st 0 0)) ∧
  (∀ (s : State) (r : Nat) (d : Desc) (st : Nat), s.begins 0 r 0x0402 d →
    (s.beginDesc r 0x0402 d).check r 0 d { priv := 2, standby := true } = some st →
    exec (.trainPromote r d) s = .next ((s.beginDesc r 0x0402 d).completeLate r 0x0402 d st 0 0)) ∧
  (∀ (s : State) (r : Nat) (d : Desc) (st : Nat), s.begins 0 r 0x0403 d →
    (s.beginDesc r 0x0403 d).check r 0 d { priv := 1, standby := true } = some st →
    exec (.trainReject r d) s = .next ((s.beginDesc r 0x0403 d).completeLate r 0x0403 d st 0 0)) ∧
  (∀ (s : State) (r : Nat) (d : Desc) (st : Nat), s.begins 0 r 0x0404 d →
    (s.beginDesc r 0x0404 d).check r 0 d { priv := 2, standby := true } = some st →
    exec (.trainRevert r d) s = .next ((s.beginDesc r 0x0404 d).completeLate r 0x0404 d st 0 0)) ∧
  (∀ (s : State) (r : Nat) (d : Desc) (st : Nat), s.begins 0 r 0x0405 d →
    (s.beginDesc r 0x0405 d).check r 0 d { priv := 0, buf := .writes, lenOk := fun n => 64 ≤ n } = some st →
    exec (.trainQuery r d) s = .next ((s.beginDesc r 0x0405 d).completeLate r 0x0405 d st 0 0)) ∧
  (∀ (s : State) (r : Nat) (d : Desc) (st : Nat), s.begins 0 r 0x0500 d →
    (s.beginDesc r 0x0500 d).check r 0 d { priv := 0, buf := .writes, lenOk := fun n => decide (64 ≤ n) } = some st →
    exec (.chaseQuery r d) s = .next ((s.beginDesc r 0x0500 d).completeLate r 0x0500 d st 0 0)) ∧
  (∀ (s : State) (r : Nat) (d : Desc) (st : Nat), s.begins 0 r 0x0501 d →
    (s.beginDesc r 0x0501 d).check r 0 d { priv := 2, standby := true, buf := .reads } = some st →
    exec (.changeSubmit r d) s = .next ((s.beginDesc r 0x0501 d).completeLate r 0x0501 d st 0 0)) ∧
  (∀ (s : State) (r : Nat) (d : Desc) (st : Nat), s.begins 0 r 0x0502 d →
    (s.beginDesc r 0x0502 d).check r 0 d { priv := 2, standby := true, buf := .reads, lenOk := fun n => decide (n % 32 = 0 ∧ n ≤ 10624) } = some st →
    exec (.bankWrite r d) s = .next ((s.beginDesc r 0x0502 d).completeLate r 0x0502 d st 0 0)) ∧
  (∀ (s : State) (r : Nat) (d : Desc) (st : Nat), s.begins 0 r 0x0503 d →
    (s.beginDesc r 0x0503 d).check r 0 d { priv := 0, buf := .writes, lenOk := fun n => decide (32 * d.p1 ≤ n), parOk := decide (1 ≤ d.p1 ∧ d.p1 ≤ 166 ∧ d.p0 + d.p1 ≤ 166 ∧ d.p2 ≤ 1) } = some st →
    exec (.bankRead r d) s = .next ((s.beginDesc r 0x0503 d).completeLate r 0x0503 d st 0 0)) ∧
  (∀ (s : State) (r : Nat) (d : Desc) (st : Nat), s.begins 0 r 0x0504 d →
    (s.beginDesc r 0x0504 d).check r 0 d { priv := 2, standby := true, parOk := d.p0 == 500 || d.p0 == 1000 || d.p0 == 2000 } = some st →
    exec (.periodSet r d) s = .next ((s.beginDesc r 0x0504 d).completeLate r 0x0504 d st 0 0)) ∧
  (∀ (s : State) (r : Nat) (d : Desc) (st : Nat), s.begins 0 r 0x0505 d →
    (s.beginDesc r 0x0505 d).check r 0 d { priv := 2, standby := true, parOk := decide (d.p0 ≤ 1) } = some st →
    exec (.lawSet r d) s = .next ((s.beginDesc r 0x0505 d).completeLate r 0x0505 d st 0 0)) ∧
  (∀ (s : State) (r : Nat) (d : Desc) (st : Nat), s.begins 0 r 0x0506 d →
    (s.beginDesc r 0x0506 d).check r 0 d { priv := 2, standby := true } = some st →
    exec (.changeAbort r d) s = .next ((s.beginDesc r 0x0506 d).completeLate r 0x0506 d st 0 0)) ∧
  (∀ (s : State) (r : Nat) (d : Desc) (st : Nat), s.begins 0 r 0x0600 d →
    (s.beginDesc r 0x0600 d).check r 0 d { priv := 0, buf := .writes, lenOk := fun n => decide (16 * d.p1 ≤ n), parOk := decide (1 ≤ d.p1 ∧ d.p1 ≤ 156 ∧ d.p0 + d.p1 ≤ 156) } = some st →
    exec (.phaseQuery r d) s = .next ((s.beginDesc r 0x0600 d).completeLate r 0x0600 d st 0 0)) ∧
  (∀ (s : State) (r : Nat) (d : Desc) (st : Nat), s.begins 0 r 0x0601 d →
    (s.beginDesc r 0x0601 d).check r 0 d { priv := 2, standby := true, parOk := decide ((bits d.p0 0 8) < 156) } = some st →
    exec (.phaseClear r d) s = .next ((s.beginDesc r 0x0601 d).completeLate r 0x0601 d st 0 0)) ∧
  (∀ (s : State) (r : Nat) (d : Desc) (st : Nat), s.begins 0 r 0x0602 d →
    (s.beginDesc r 0x0602 d).check r 0 d { priv := 2, standby := true, parOk := decide ((bits d.p0 0 8) < 156 ∧ d.p1 ≤ 1) } = some st →
    exec (.phaseRole r d) s = .next ((s.beginDesc r 0x0602 d).completeLate r 0x0602 d st 0 0)) ∧
  (∀ (s : State) (r : Nat) (d : Desc) (st : Nat), s.begins 0 r 0x0603 d →
    (s.beginDesc r 0x0603 d).check r 0 d { priv := 2, standby := true, parOk := decide ((bits d.p0 0 6) < 40) } = some st →
    exec (.linkRetrain r d) s = .next ((s.beginDesc r 0x0603 d).completeLate r 0x0603 d st 0 0)) ∧
  (∀ (s : State) (r : Nat) (d : Desc) (st : Nat), s.begins 0 r 0x0700 d →
    (s.beginDesc r 0x0700 d).check r 0 d { priv := 0, buf := .writes, lenOk := fun n => 64 ≤ n } = some st →
    exec (.fennalQuery r d) s = .next ((s.beginDesc r 0x0700 d).completeLate r 0x0700 d st 0 0)) ∧
  (∀ (s : State) (r : Nat) (d : Desc) (st : Nat), s.begins 0 r 0x0701 d →
    (s.beginDesc r 0x0701 d).check r 0 d { priv := 3, standby := true, buf := .reads, lenOk := fun n => 32 ≤ n } = some st →
    exec (.fennalKey r d) s = .next ((s.beginDesc r 0x0701 d).completeLate r 0x0701 d st 0 0)) ∧
  (∀ (s : State) (r : Nat) (d : Desc) (st : Nat), s.begins 0 r 0x0702 d →
    (s.beginDesc r 0x0702 d).check r 0 d { priv := 3, standby := true, parOk := decide (d.p0 < 2) } = some st →
    exec (.fennalKeytx r d) s = .next ((s.beginDesc r 0x0702 d).completeLate r 0x0702 d st 0 0)) ∧
  (∀ (s : State) (r : Nat) (d : Desc) (st : Nat), s.begins 0 r 0x0703 d →
    (s.beginDesc r 0x0703 d).check r 0 d { priv := 3, standby := true, parOk := decide (d.p0 < 2) } = some st →
    exec (.fennalKeydel r d) s = .next ((s.beginDesc r 0x0703 d).completeLate r 0x0703 d st 0 0)) ∧
  (∀ (s : State) (r : Nat) (d : Desc) (st : Nat), s.begins 0 r 0x0711 d →
    (s.beginDesc r 0x0711 d).check r 0 d { priv := 1, standby := true } = some st →
    exec (.paceAck r d) s = .next ((s.beginDesc r 0x0711 d).completeLate r 0x0711 d st 0 0)) ∧
  (∀ (s : State) (r : Nat) (d : Desc) (st : Nat), s.begins 0 r 0x0710 d →
    (s.beginDesc r 0x0710 d).check r 0 d { priv := 0, buf := .writes, lenOk := fun n => 128 ≤ n } = some st →
    exec (.groupQuery r d) s = .next ((s.beginDesc r 0x0710 d).completeLate r 0x0710 d st 0 0)) ∧
  (∀ (s : State) (r : Nat) (d : Desc) (st : Nat), s.begins 0 r 0x0800 d →
    (s.beginDesc r 0x0800 d).check r 0 d { priv := 0, buf := .writes, lenOk := fun n => 64 ≤ n } = some st →
    exec (.bupRingQuery r d) s = .next ((s.beginDesc r 0x0800 d).completeLate r 0x0800 d st 0 0)) ∧
  (∀ (s : State) (r : Nat) (d : Desc) (st : Nat), s.begins 0 r 0x0801 d →
    (s.beginDesc r 0x0801 d).check r 0 d { priv := 0, buf := .writes, lenOk := fun n => 1536 ≤ n } = some st →
    exec (.cellRead r d) s = .next ((s.beginDesc r 0x0801 d).completeLate r 0x0801 d st 0 0)) ∧
  (∀ (s : State) (r : Nat) (d : Desc) (st : Nat), s.begins 0 r 0x0802 d →
    (s.beginDesc r 0x0802 d).check r 0 d { priv := 2, standby := true } = some st →
    exec (.ringEnum r d) s = .next ((s.beginDesc r 0x0802 d).completeLate r 0x0802 d st 0 0)) ∧
  (∀ (s : State) (r : Nat) (d : Desc) (st : Nat), s.begins 0 r 0x0803 d →
    (s.beginDesc r 0x0803 d).check r 0 d { priv := 2, standby := true, parOk := decide (d.p1 = 1 ∨ d.p1 = 2) } = some st →
    exec (.owTest r d) s = .next ((s.beginDesc r 0x0803 d).completeLate r 0x0803 d st 0 0)) ∧
  (∀ (s : State) (r : Nat) (d : Desc) (st : Nat), s.begins 0 r 0x0804 d →
    (s.beginDesc r 0x0804 d).check r 0 d { priv := 1, standby := true, parOk := decide (d.p1 ≤ 3600) } = some st →
    exec (.bupFast r d) s = .next ((s.beginDesc r 0x0804 d).completeLate r 0x0804 d st 0 0)) ∧
  (∀ (s : State) (r : Nat) (d : Desc) (st : Nat), s.begins 0 r 0x0810 d →
    (s.beginDesc r 0x0810 d).check r 0 d { priv := 0, buf := .writes, lenOk := fun n => 64 ≤ n } = some st →
    exec (.estQuery r d) s = .next ((s.beginDesc r 0x0810 d).completeLate r 0x0810 d st 0 0)) ∧
  (∀ (s : State) (r : Nat) (d : Desc) (st : Nat), s.begins 0 r 0x0811 d →
    (s.beginDesc r 0x0811 d).check r 0 d { priv := 2, standby := true, buf := .reads, lenOk := fun n => n == tableLen d.p0, parOk := decide (d.p0 ≤ 2) } = some st →
    exec (.estTable r d) s = .next ((s.beginDesc r 0x0811 d).completeLate r 0x0811 d st 0 0)) ∧
  (∀ (s : State) (r : Nat) (d : Desc) (st : Nat), s.begins 0 r 0x0812 d →
    (s.beginDesc r 0x0812 d).check r 0 d { priv := 0, buf := .writes, lenOk := fun n => decide (tableLen d.p0 ≤ n), parOk := decide (d.p0 ≤ 2) } = some st →
    exec (.estTableRead r d) s = .next ((s.beginDesc r 0x0812 d).completeLate r 0x0812 d st 0 0)) ∧
  (∀ (s : State) (r : Nat) (d : Desc) (st : Nat), s.begins 0 r 0x0813 d →
    (s.beginDesc r 0x0813 d).check r 0 d { priv := 1, standby := true } = some st →
    exec (.restNow r d) s = .next ((s.beginDesc r 0x0813 d).completeLate r 0x0813 d st 0 0)) ∧
  (∀ (s : State) (r : Nat) (d : Desc) (st : Nat), s.begins 0 r 0x0814 d →
    (s.beginDesc r 0x0814 d).check r 0 d { priv := 0, buf := .writes, lenOk := fun n => 256 ≤ n } = some st →
    exec (.estRecords r d) s = .next ((s.beginDesc r 0x0814 d).completeLate r 0x0814 d st 0 0)) ∧
  (∀ (s : State) (r : Nat) (d : Desc) (st : Nat), s.begins 0 r 0x0900 d →
    (s.beginDesc r 0x0900 d).check r 0 d { priv := 0, buf := .writes, lenOk := fun n => 64 ≤ n } = some st →
    exec (.eraQuery r d) s = .next ((s.beginDesc r 0x0900 d).completeLate r 0x0900 d st 0 0)) ∧
  (∀ (s : State) (r : Nat) (d : Desc) (st : Nat), s.begins 0 r 0x0901 d →
    (s.beginDesc r 0x0901 d).check r 0 d { priv := 0, buf := .writes, lenOk := fun n => 32 ≤ n, parOk := decide (bits d.p0 0 9 ≤ 383) } = some st →
    exec (.eraDetail r d) s = .next ((s.beginDesc r 0x0901 d).completeLate r 0x0901 d st 0 0)) ∧
  (∀ (s : State) (r : Nat) (d : Desc) (st : Nat), s.begins 0 r 0x0902 d →
    (s.beginDesc r 0x0902 d).check r 0 d { priv := 1, parOk := decide ((bits d.p0 0 9) ≤ 383 ∨ (bits d.p0 0 9) = 0x1FF) } = some st →
    exec (.eraClear r d) s = .next ((s.beginDesc r 0x0902 d).completeLate r 0x0902 d st 0 0)) ∧
  (∀ (s : State) (r : Nat) (d : Desc) (st : Nat), s.begins 0 r 0x0903 d →
    (s.beginDesc r 0x0903 d).check r 0 d { priv := 2, standby := true, parOk := decide (d.p0 ≤ 383 ∧ d.p1 ≤ 2) } = some st →
    exec (.eraClass r d) s = .next ((s.beginDesc r 0x0903 d).completeLate r 0x0903 d st 0 0)) ∧
  (∀ (s : State) (r : Nat) (d : Desc) (st : Nat), s.begins 0 r 0x0904 d →
    (s.beginDesc r 0x0904 d).check r 0 d { priv := 3, buf := .reads, lenOk := fun n => 16 ≤ n, parOk := decide (d.p0 = 1 ∨ d.p0 = 2) } = some st →
    exec (.eraUnlock r d) s = .next ((s.beginDesc r 0x0904 d).completeLate r 0x0904 d st 0 0)) ∧
  (∀ (s : State) (r : Nat) (d : Desc) (st : Nat), s.begins 0 r 0x0905 d →
    (s.beginDesc r 0x0905 d).check r 0 d { priv := 3, parOk := decide ((bits d.p0 0 9) ≤ 383) && ((bits d.p0 12 2) == 0 || ((bits d.p0 12 2) == 1 && ((detInfo (bits d.p0 0 9)).level)) || ((bits d.p0 12 2) == 2 && !((detInfo (bits d.p0 0 9)).level))) } = some st →
    exec (.eraInject r d) s = .next ((s.beginDesc r 0x0905 d).completeLate r 0x0905 d st 0 0)) ∧
  (∀ (s : State) (r : Nat) (d : Desc) (st : Nat), s.begins 0 r 0x0906 d →
    (s.beginDesc r 0x0906 d).check r 0 d { priv := 3, parOk := decide (d.p0 ≤ 383 ∨ d.p0 = 0x1FF) } = some st →
    exec (.eraWithdraw r d) s = .next ((s.beginDesc r 0x0906 d).completeLate r 0x0906 d st 0 0)) ∧
  (∀ (s : State) (r : Nat) (d : Desc) (st : Nat), s.begins 0 r 0x0907 d →
    (s.beginDesc r 0x0907 d).check r 0 d { priv := 3 } = some st →
    exec (.eraLock r d) s = .next ((s.beginDesc r 0x0907 d).completeLate r 0x0907 d st 0 0)) ∧
  (∀ (s : State) (r : Nat) (d : Desc) (st : Nat), s.begins 0 r 0x0E00 d →
    (s.beginDesc r 0x0E00 d).check r 0 d { priv := 0, buf := .writes, lenOk := fun n => decide (64 ≤ n) } = some st →
    exec (.seatQuery r d) s = .next ((s.beginDesc r 0x0E00 d).completeLate r 0x0E00 d st 0 0)) ∧
  (∀ (s : State) (r : Nat) (d : Desc) (st : Nat), s.begins 0 r 0x0E01 d →
    (s.beginDesc r 0x0E01 d).check r 0 d { priv := 2, standby := true } = some st →
    exec (.seatSwitch r d) s = .next ((s.beginDesc r 0x0E01 d).completeLate r 0x0E01 d st 0 0)) ∧
  (∀ (s : State) (r : Nat) (d : Desc) (st : Nat), s.begins 0 r 0x0E02 d →
    (s.beginDesc r 0x0E02 d).check r 0 d { priv := 2, standby := true, parOk := decide (d.p0 ≤ 600) } = some st →
    exec (.provingRun r d) s = .next ((s.beginDesc r 0x0E02 d).completeLate r 0x0E02 d st 0 0)) ∧
  (∀ (s : State) (r : Nat) (d : Desc) (st : Nat), s.begins 0 r 0x0E03 d →
    (s.beginDesc r 0x0E03 d).check r 0 d { priv := 2, standby := true } = some st →
    exec (.provingStop r d) s = .next ((s.beginDesc r 0x0E03 d).completeLate r 0x0E03 d st 0 0)) ∧
  (∀ (s : State) (r : Nat) (d : Desc) (st : Nat), s.begins 0 r 0x0E04 d →
    (s.beginDesc r 0x0E04 d).check r 0 d { priv := 0, buf := .writes, lenOk := fun n => decide (64 ≤ n) } = some st →
    exec (.seatHealth r d) s = .next ((s.beginDesc r 0x0E04 d).completeLate r 0x0E04 d st 0 0)) ∧
  (∀ (s : State) (r : Nat) (d : Desc) (st : Nat), s.begins 0 r 0x0A00 d →
    (s.beginDesc r 0x0A00 d).check r 0 d { priv := 0, buf := .writes, lenOk := (256 ≤ ·) } = some st →
    exec (.colQuery r d) s = .next ((s.beginDesc r 0x0A00 d).completeLate r 0x0A00 d st 0 0)) ∧
  (∀ (s : State) (r : Nat) (d : Desc) (st : Nat), s.begins 0 r 0x0A01 d →
    (s.beginDesc r 0x0A01 d).check r 0 d { priv := 2, standby := true, buf := .reads, lenOk := (16 ≤ ·) } = some st →
    exec (.trigWrite r d) s = .next ((s.beginDesc r 0x0A01 d).completeLate r 0x0A01 d st 0 0)) ∧
  (∀ (s : State) (r : Nat) (d : Desc) (st : Nat), s.begins 0 r 0x0A02 d →
    (s.beginDesc r 0x0A02 d).check r 0 d { priv := 0, buf := .writes, lenOk := (16 ≤ ·) } = some st →
    exec (.trigRead r d) s = .next ((s.beginDesc r 0x0A02 d).completeLate r 0x0A02 d st 0 0)) ∧
  (∀ (s : State) (r : Nat) (d : Desc) (st : Nat), s.begins 0 r 0x0A03 d →
    (s.beginDesc r 0x0A03 d).check r 0 d { priv := 1 } = some st →
    exec (.snapNow r d) s = .next ((s.beginDesc r 0x0A03 d).completeLate r 0x0A03 d st 0 0)) ∧
  (∀ (s : State) (r : Nat) (d : Desc) (st : Nat), s.begins 0 r 0x0A04 d →
    (s.beginDesc r 0x0A04 d).check r 0 d { priv := 0, buf := .writes, lenOk := (64 ≤ ·), parOk := decide (2 ≤ d.p0 ∧ d.p0 ≤ 4) } = some st →
    exec (.colRead r d) s = .next ((s.beginDesc r 0x0A04 d).completeLate r 0x0A04 d st 0 0)) ∧
  (∀ (s : State) (r : Nat) (d : Desc) (st : Nat), s.begins 0 r 0x0A05 d →
    (s.beginDesc r 0x0A05 d).check r 0 d { priv := 1 } = some st →
    exec (.colCommit r d) s = .next ((s.beginDesc r 0x0A05 d).completeLate r 0x0A05 d st 0 0)) ∧
  (∀ (s : State) (r : Nat) (d : Desc) (st : Nat), s.begins 0 r 0x0B00 d →
    (s.beginDesc r 0x0B00 d).check r 0 d { priv := 0, buf := .writes, lenOk := fun n => decide (64 ≤ n) } = some st →
    exec (.updQuery r d) s = .next ((s.beginDesc r 0x0B00 d).completeLate r 0x0B00 d st 0 0)) ∧
  (∀ (s : State) (r : Nat) (d : Desc) (sig : Bool) (st : Nat), s.begins 0 r 0x0B01 d →
    (s.beginDesc r 0x0B01 d).check r 0 d { priv := 3, buf := .reads, lenOk := fun n => n == 512, parOk := imgType (bits d.p0 0 3) } = some st →
    exec (.imgOpen r d sig) s = .next ((s.beginDesc r 0x0B01 d).completeLate r 0x0B01 d st 0 0)) ∧
  (∀ (s : State) (r : Nat) (d : Desc) (st : Nat), s.begins 0 r 0x0B02 d →
    (s.beginDesc r 0x0B02 d).check r 0 d { priv := 3, buf := .reads, lenOk := fun n => decide (8 ≤ n ∧ n ≤ 1048576) } = some st →
    exec (.imgWrite r d) s = .next ((s.beginDesc r 0x0B02 d).completeLate r 0x0B02 d st 0 0)) ∧
  (∀ (s : State) (r : Nat) (d : Desc) (st : Nat), s.begins 0 r 0x0B03 d →
    (s.beginDesc r 0x0B03 d).check r 0 d { priv := 3 } = some st →
    exec (.imgFinish r d) s = .next ((s.beginDesc r 0x0B03 d).completeLate r 0x0B03 d st 0 0)) ∧
  (∀ (s : State) (r : Nat) (d : Desc) (st : Nat), s.begins 0 r 0x0B04 d →
    (s.beginDesc r 0x0B04 d).check r 0 d { priv := 3 } = some st →
    exec (.imgAbort r d) s = .next ((s.beginDesc r 0x0B04 d).completeLate r 0x0B04 d st 0 0)) ∧
  (∀ (s : State) (r : Nat) (d : Desc) (st : Nat), s.begins 0 r 0x0B05 d →
    (s.beginDesc r 0x0B05 d).check r 0 d { priv := 3, standby := true, parOk := bits d.p0 0 6 != 0 } = some st →
    exec (.updActivate r d) s = .next ((s.beginDesc r 0x0B05 d).completeLate r 0x0B05 d st 0 0)) ∧
  (∀ (s : State) (r : Nat) (d : Desc) (st : Nat), s.begins 0 r 0x0B06 d →
    (s.beginDesc r 0x0B06 d).check r 0 d { priv := 3, standby := true } = some st →
    exec (.updCommit r d) s = .next ((s.beginDesc r 0x0B06 d).completeLate r 0x0B06 d st 0 0)) ∧
  (∀ (s : State) (r : Nat) (d : Desc) (st : Nat), s.begins 0 r 0x0B07 d →
    (s.beginDesc r 0x0B07 d).check r 0 d { priv := 3, standby := true } = some st →
    exec (.updRollback r d) s = .next ((s.beginDesc r 0x0B07 d).completeLate r 0x0B07 d st 0 0)) ∧
  (∀ (s : State) (r : Nat) (d : Desc) (sig : Bool) (st : Nat), s.begins 0 r 0x0B08 d →
    (s.beginDesc r 0x0B08 d).check r 0 d { priv := 3, standby := true, buf := .reads, lenOk := fun n => n == 128 } = some st →
    exec (.tapUnlock r d sig) s = .next ((s.beginDesc r 0x0B08 d).completeLate r 0x0B08 d st 0 0)) ∧
  (∀ (s : State) (r : Nat) (d : Desc) (st : Nat), s.begins 0 r 0x0B09 d →
    (s.beginDesc r 0x0B09 d).check r 0 d { priv := 0, buf := .writes, lenOk := fun n => decide (512 ≤ n), parOk := imgType d.p0 && decide (d.p1 ≤ 1) } = some st →
    exec (.hdrRead r d) s = .next ((s.beginDesc r 0x0B09 d).completeLate r 0x0B09 d st 0 0)) ∧
  (∀ (s : State) (r : Nat) (d : Desc) (st : Nat), s.begins 0 r 0x0C00 d →
    (s.beginDesc r 0x0C00 d).check r 0 d { priv := 0, buf := .writes, lenOk := fun n => decide (640 ≤ n) } = some st →
    exec (.prfSnapshot r d) s = .next ((s.beginDesc r 0x0C00 d).completeLate r 0x0C00 d st 0 0)) ∧
  (∀ (s : State) (r : Nat) (d : Desc) (st : Nat), s.begins 0 r 0x0C01 d →
    (s.beginDesc r 0x0C01 d).check r 0 d { priv := 1, parOk := bits d.p0 0 6 != 0 } = some st →
    exec (.prfZero r d) s = .next ((s.beginDesc r 0x0C01 d).completeLate r 0x0C01 d st 0 0)) ∧
  (∀ (s : State) (r : Nat) (d : Desc) (st : Nat), s.begins 0 r 0x0D00 d →
    (s.beginDesc r 0x0D00 d).check r 0 d { priv := 0, buf := .writes, lenOk := fun n => decide (64 ≤ n) } = some st →
    exec (.spareQuery r d) s = .next ((s.beginDesc r 0x0D00 d).completeLate r 0x0D00 d st 0 0)) ∧
  (∀ (s : State) (r : Nat) (d : Desc) (st : Nat), s.begins 0 r 0x0D01 d →
    (s.beginDesc r 0x0D01 d).check r 0 d { priv := 2, parOk := repairUnit d.p0 d.p1 } = some st →
    exec (.repair r d) s = .next ((s.beginDesc r 0x0D01 d).completeLate r 0x0D01 d st 0 0)) ∧
  (∀ (s : State) (r : Nat) (d : Desc) (st : Nat), s.begins 0 r 0x0D02 d →
    (s.beginDesc r 0x0D02 d).check r 0 d { priv := 2, parOk := (d.p0 == 1 || d.p0 == 2 || d.p0 == 5) && repairUnit d.p0 d.p1 } = some st →
    exec (.spareRetire r d) s = .next ((s.beginDesc r 0x0D02 d).completeLate r 0x0D02 d st 0 0))

/-- R93: a CMD descriptor whose opcode needs a higher level than the PRIV of its ring is completed with status PRIV (0x11) and
has no other effect. -/
def Obligations.PrivilegeRefused : Prop :=
  (∀ (s : State) (r : Nat) (d : Desc), s.begins 0 r 0x0102 d → s.get (Reg.HST_RCFG_CLASS r) = 0 → s.get (Reg.HST_RCFG_PRIV r) < 1 →
    exec (.seatEnable r d) s = .next ((s.beginDesc r 0x0102 d).completeLate r 0x0102 d 0x11 0 0)) ∧
  (∀ (s : State) (r : Nat) (d : Desc) (good : Bool) (ofs : Int), s.begins 0 r 0x0104 d → s.get (Reg.HST_RCFG_CLASS r) = 0 → s.get (Reg.HST_RCFG_PRIV r) < 1 →
    exec (.ptmResync r d good ofs) s = .next ((s.beginDesc r 0x0104 d).completeLate r 0x0104 d 0x11 0 0)) ∧
  (∀ (s : State) (r : Nat) (d : Desc), s.begins 0 r 0x0105 d → s.get (Reg.HST_RCFG_CLASS r) = 0 → s.get (Reg.HST_RCFG_PRIV r) < 3 →
    exec (.moduleReset r d) s = .next ((s.beginDesc r 0x0105 d).completeLate r 0x0105 d 0x11 0 0)) ∧
  (∀ (s : State) (r : Nat) (d : Desc), s.begins 0 r 0x0202 d → s.get (Reg.HST_RCFG_CLASS r) = 0 → s.get (Reg.HST_RCFG_PRIV r) < 3 →
    exec (.memRead r d) s = .next ((s.beginDesc r 0x0202 d).completeLate r 0x0202 d 0x11 0 0)) ∧
  (∀ (s : State) (r : Nat) (d : Desc), s.begins 0 r 0x0203 d → s.get (Reg.HST_RCFG_CLASS r) = 0 → s.get (Reg.HST_RCFG_PRIV r) < 2 →
    exec (.scrubNow r d) s = .next ((s.beginDesc r 0x0203 d).completeLate r 0x0203 d 0x11 0 0)) ∧
  (∀ (s : State) (r : Nat) (d : Desc), s.begins 0 r 0x0200 d → s.get (Reg.HST_RCFG_CLASS r) = 0 → s.get (Reg.HST_RCFG_PRIV r) < 2 →
    exec (.hierSet r d) s = .next ((s.beginDesc r 0x0200 d).completeLate r 0x0200 d 0x11 0 0)) ∧
  (∀ (s : State) (r : Nat) (d : Desc), s.begins 0 r 0x0210 d → s.get (Reg.HST_RCFG_CLASS r) = 0 → s.get (Reg.HST_RCFG_PRIV r) < 2 →
    exec (.formeOpen r d) s = .next ((s.beginDesc r 0x0210 d).completeLate r 0x0210 d 0x11 0 0)) ∧
  (∀ (s : State) (r : Nat) (d : Desc), s.begins 0 r 0x0211 d → s.get (Reg.HST_RCFG_CLASS r) = 0 → s.get (Reg.HST_RCFG_PRIV r) < 2 →
    exec (.formeWrite r d) s = .next ((s.beginDesc r 0x0211 d).completeLate r 0x0211 d 0x11 0 0)) ∧
  (∀ (s : State) (r : Nat) (d : Desc), s.begins 0 r 0x0212 d → s.get (Reg.HST_RCFG_CLASS r) = 0 → s.get (Reg.HST_RCFG_PRIV r) < 2 →
    exec (.formeCommit r d) s = .next ((s.beginDesc r 0x0212 d).completeLate r 0x0212 d 0x11 0 0)) ∧
  (∀ (s : State) (r : Nat) (d : Desc), s.begins 0 r 0x0213 d → s.get (Reg.HST_RCFG_CLASS r) = 0 → s.get (Reg.HST_RCFG_PRIV r) < 2 →
    exec (.formeAbort r d) s = .next ((s.beginDesc r 0x0213 d).completeLate r 0x0213 d 0x11 0 0)) ∧
  (∀ (s : State) (r : Nat) (d : Desc), s.begins 0 r 0x0214 d → s.get (Reg.HST_RCFG_CLASS r) = 0 → s.get (Reg.HST_RCFG_PRIV r) < 2 →
    exec (.formeUnload r d) s = .next ((s.beginDesc r 0x0214 d).completeLate r 0x0214 d 0x11 0 0)) ∧
  (∀ (s : State) (r : Nat) (d : Desc), s.begins 0 r 0x0215 d → s.get (Reg.HST_RCFG_CLASS r) = 0 → s.get (Reg.HST_RCFG_PRIV r) < 2 →
    exec (.formeEnable r d) s = .next ((s.beginDesc r 0x0215 d).completeLate r 0x0215 d 0x11 0 0)) ∧
  (∀ (s : State) (r : Nat) (d : Desc), s.begins 0 r 0x0217 d → s.get (Reg.HST_RCFG_CLASS r) = 0 → s.get (Reg.HST_RCFG_PRIV r) < 3 →
    exec (.formeRun r d) s = .next ((s.beginDesc r 0x0217 d).completeLate r 0x0217 d 0x11 0 0)) ∧
  (∀ (s : State) (r : Nat) (d : Desc), s.begins 0 r 0x0400 d → s.get (Reg.HST_RCFG_CLASS r) = 0 → s.get (Reg.HST_RCFG_PRIV r) < 2 →
    exec (.trainSetup r d) s = .next ((s.beginDesc r 0x0400 d).completeLate r 0x0400 d 0x11 0 0)) ∧
  (∀ (s : State) (r : Nat) (d : Desc), s.begins 0 r 0x0401 d → s.get (Reg.HST_RCFG_CLASS r) = 0 → s.get (Reg.HST_RCFG_PRIV r) < 2 →
    exec (.trainRun r d) s = .next ((s.beginDesc r 0x0401 d).completeLate r 0x0401 d 0x11 0 0)) ∧
  (∀ (s : State) (r : Nat) (d : Desc), s.begins 0 r 0x0402 d → s.get (Reg.HST_RCFG_CLASS r) = 0 → s.get (Reg.HST_RCFG_PRIV r) < 2 →
    exec (.trainPromote r d) s = .next ((s.beginDesc r 0x0402 d).completeLate r 0x0402 d 0x11 0 0)) ∧
  (∀ (s : State) (r : Nat) (d : Desc), s.begins 0 r 0x0403 d → s.get (Reg.HST_RCFG_CLASS r) = 0 → s.get (Reg.HST_RCFG_PRIV r) < 1 →
    exec (.trainReject r d) s = .next ((s.beginDesc r 0x0403 d).completeLate r 0x0403 d 0x11 0 0)) ∧
  (∀ (s : State) (r : Nat) (d : Desc), s.begins 0 r 0x0404 d → s.get (Reg.HST_RCFG_CLASS r) = 0 → s.get (Reg.HST_RCFG_PRIV r) < 2 →
    exec (.trainRevert r d) s = .next ((s.beginDesc r 0x0404 d).completeLate r 0x0404 d 0x11 0 0)) ∧
  (∀ (s : State) (r : Nat) (d : Desc), s.begins 0 r 0x0501 d → s.get (Reg.HST_RCFG_CLASS r) = 0 → s.get (Reg.HST_RCFG_PRIV r) < 2 →
    exec (.changeSubmit r d) s = .next ((s.beginDesc r 0x0501 d).completeLate r 0x0501 d 0x11 0 0)) ∧
  (∀ (s : State) (r : Nat) (d : Desc), s.begins 0 r 0x0502 d → s.get (Reg.HST_RCFG_CLASS r) = 0 → s.get (Reg.HST_RCFG_PRIV r) < 2 →
    exec (.bankWrite r d) s = .next ((s.beginDesc r 0x0502 d).completeLate r 0x0502 d 0x11 0 0)) ∧
  (∀ (s : State) (r : Nat) (d : Desc), s.begins 0 r 0x0504 d → s.get (Reg.HST_RCFG_CLASS r) = 0 → s.get (Reg.HST_RCFG_PRIV r) < 2 →
    exec (.periodSet r d) s = .next ((s.beginDesc r 0x0504 d).completeLate r 0x0504 d 0x11 0 0)) ∧
  (∀ (s : State) (r : Nat) (d : Desc), s.begins 0 r 0x0505 d → s.get (Reg.HST_RCFG_CLASS r) = 0 → s.get (Reg.HST_RCFG_PRIV r) < 2 →
    exec (.lawSet r d) s = .next ((s.beginDesc r 0x0505 d).completeLate r 0x0505 d 0x11 0 0)) ∧
  (∀ (s : State) (r : Nat) (d : Desc), s.begins 0 r 0x0506 d → s.get (Reg.HST_RCFG_CLASS r) = 0 → s.get (Reg.HST_RCFG_PRIV r) < 2 →
    exec (.changeAbort r d) s = .next ((s.beginDesc r 0x0506 d).completeLate r 0x0506 d 0x11 0 0)) ∧
  (∀ (s : State) (r : Nat) (d : Desc), s.begins 0 r 0x0601 d → s.get (Reg.HST_RCFG_CLASS r) = 0 → s.get (Reg.HST_RCFG_PRIV r) < 2 →
    exec (.phaseClear r d) s = .next ((s.beginDesc r 0x0601 d).completeLate r 0x0601 d 0x11 0 0)) ∧
  (∀ (s : State) (r : Nat) (d : Desc), s.begins 0 r 0x0602 d → s.get (Reg.HST_RCFG_CLASS r) = 0 → s.get (Reg.HST_RCFG_PRIV r) < 2 →
    exec (.phaseRole r d) s = .next ((s.beginDesc r 0x0602 d).completeLate r 0x0602 d 0x11 0 0)) ∧
  (∀ (s : State) (r : Nat) (d : Desc), s.begins 0 r 0x0603 d → s.get (Reg.HST_RCFG_CLASS r) = 0 → s.get (Reg.HST_RCFG_PRIV r) < 2 →
    exec (.linkRetrain r d) s = .next ((s.beginDesc r 0x0603 d).completeLate r 0x0603 d 0x11 0 0)) ∧
  (∀ (s : State) (r : Nat) (d : Desc), s.begins 0 r 0x0701 d → s.get (Reg.HST_RCFG_CLASS r) = 0 → s.get (Reg.HST_RCFG_PRIV r) < 3 →
    exec (.fennalKey r d) s = .next ((s.beginDesc r 0x0701 d).completeLate r 0x0701 d 0x11 0 0)) ∧
  (∀ (s : State) (r : Nat) (d : Desc), s.begins 0 r 0x0702 d → s.get (Reg.HST_RCFG_CLASS r) = 0 → s.get (Reg.HST_RCFG_PRIV r) < 3 →
    exec (.fennalKeytx r d) s = .next ((s.beginDesc r 0x0702 d).completeLate r 0x0702 d 0x11 0 0)) ∧
  (∀ (s : State) (r : Nat) (d : Desc), s.begins 0 r 0x0703 d → s.get (Reg.HST_RCFG_CLASS r) = 0 → s.get (Reg.HST_RCFG_PRIV r) < 3 →
    exec (.fennalKeydel r d) s = .next ((s.beginDesc r 0x0703 d).completeLate r 0x0703 d 0x11 0 0)) ∧
  (∀ (s : State) (r : Nat) (d : Desc), s.begins 0 r 0x0711 d → s.get (Reg.HST_RCFG_CLASS r) = 0 → s.get (Reg.HST_RCFG_PRIV r) < 1 →
    exec (.paceAck r d) s = .next ((s.beginDesc r 0x0711 d).completeLate r 0x0711 d 0x11 0 0)) ∧
  (∀ (s : State) (r : Nat) (d : Desc), s.begins 0 r 0x0802 d → s.get (Reg.HST_RCFG_CLASS r) = 0 → s.get (Reg.HST_RCFG_PRIV r) < 2 →
    exec (.ringEnum r d) s = .next ((s.beginDesc r 0x0802 d).completeLate r 0x0802 d 0x11 0 0)) ∧
  (∀ (s : State) (r : Nat) (d : Desc), s.begins 0 r 0x0803 d → s.get (Reg.HST_RCFG_CLASS r) = 0 → s.get (Reg.HST_RCFG_PRIV r) < 2 →
    exec (.owTest r d) s = .next ((s.beginDesc r 0x0803 d).completeLate r 0x0803 d 0x11 0 0)) ∧
  (∀ (s : State) (r : Nat) (d : Desc), s.begins 0 r 0x0804 d → s.get (Reg.HST_RCFG_CLASS r) = 0 → s.get (Reg.HST_RCFG_PRIV r) < 1 →
    exec (.bupFast r d) s = .next ((s.beginDesc r 0x0804 d).completeLate r 0x0804 d 0x11 0 0)) ∧
  (∀ (s : State) (r : Nat) (d : Desc), s.begins 0 r 0x0811 d → s.get (Reg.HST_RCFG_CLASS r) = 0 → s.get (Reg.HST_RCFG_PRIV r) < 2 →
    exec (.estTable r d) s = .next ((s.beginDesc r 0x0811 d).completeLate r 0x0811 d 0x11 0 0)) ∧
  (∀ (s : State) (r : Nat) (d : Desc), s.begins 0 r 0x0813 d → s.get (Reg.HST_RCFG_CLASS r) = 0 → s.get (Reg.HST_RCFG_PRIV r) < 1 →
    exec (.restNow r d) s = .next ((s.beginDesc r 0x0813 d).completeLate r 0x0813 d 0x11 0 0)) ∧
  (∀ (s : State) (r : Nat) (d : Desc), s.begins 0 r 0x0902 d → s.get (Reg.HST_RCFG_CLASS r) = 0 → s.get (Reg.HST_RCFG_PRIV r) < 1 →
    exec (.eraClear r d) s = .next ((s.beginDesc r 0x0902 d).completeLate r 0x0902 d 0x11 0 0)) ∧
  (∀ (s : State) (r : Nat) (d : Desc), s.begins 0 r 0x0903 d → s.get (Reg.HST_RCFG_CLASS r) = 0 → s.get (Reg.HST_RCFG_PRIV r) < 2 →
    exec (.eraClass r d) s = .next ((s.beginDesc r 0x0903 d).completeLate r 0x0903 d 0x11 0 0)) ∧
  (∀ (s : State) (r : Nat) (d : Desc), s.begins 0 r 0x0904 d → s.get (Reg.HST_RCFG_CLASS r) = 0 → s.get (Reg.HST_RCFG_PRIV r) < 3 →
    exec (.eraUnlock r d) s = .next ((s.beginDesc r 0x0904 d).completeLate r 0x0904 d 0x11 0 0)) ∧
  (∀ (s : State) (r : Nat) (d : Desc), s.begins 0 r 0x0905 d → s.get (Reg.HST_RCFG_CLASS r) = 0 → s.get (Reg.HST_RCFG_PRIV r) < 3 →
    exec (.eraInject r d) s = .next ((s.beginDesc r 0x0905 d).completeLate r 0x0905 d 0x11 0 0)) ∧
  (∀ (s : State) (r : Nat) (d : Desc), s.begins 0 r 0x0906 d → s.get (Reg.HST_RCFG_CLASS r) = 0 → s.get (Reg.HST_RCFG_PRIV r) < 3 →
    exec (.eraWithdraw r d) s = .next ((s.beginDesc r 0x0906 d).completeLate r 0x0906 d 0x11 0 0)) ∧
  (∀ (s : State) (r : Nat) (d : Desc), s.begins 0 r 0x0907 d → s.get (Reg.HST_RCFG_CLASS r) = 0 → s.get (Reg.HST_RCFG_PRIV r) < 3 →
    exec (.eraLock r d) s = .next ((s.beginDesc r 0x0907 d).completeLate r 0x0907 d 0x11 0 0)) ∧
  (∀ (s : State) (r : Nat) (d : Desc), s.begins 0 r 0x0E01 d → s.get (Reg.HST_RCFG_CLASS r) = 0 → s.get (Reg.HST_RCFG_PRIV r) < 2 →
    exec (.seatSwitch r d) s = .next ((s.beginDesc r 0x0E01 d).completeLate r 0x0E01 d 0x11 0 0)) ∧
  (∀ (s : State) (r : Nat) (d : Desc), s.begins 0 r 0x0E02 d → s.get (Reg.HST_RCFG_CLASS r) = 0 → s.get (Reg.HST_RCFG_PRIV r) < 2 →
    exec (.provingRun r d) s = .next ((s.beginDesc r 0x0E02 d).completeLate r 0x0E02 d 0x11 0 0)) ∧
  (∀ (s : State) (r : Nat) (d : Desc), s.begins 0 r 0x0E03 d → s.get (Reg.HST_RCFG_CLASS r) = 0 → s.get (Reg.HST_RCFG_PRIV r) < 2 →
    exec (.provingStop r d) s = .next ((s.beginDesc r 0x0E03 d).completeLate r 0x0E03 d 0x11 0 0)) ∧
  (∀ (s : State) (r : Nat) (d : Desc), s.begins 0 r 0x0A01 d → s.get (Reg.HST_RCFG_CLASS r) = 0 → s.get (Reg.HST_RCFG_PRIV r) < 2 →
    exec (.trigWrite r d) s = .next ((s.beginDesc r 0x0A01 d).completeLate r 0x0A01 d 0x11 0 0)) ∧
  (∀ (s : State) (r : Nat) (d : Desc), s.begins 0 r 0x0A03 d → s.get (Reg.HST_RCFG_CLASS r) = 0 → s.get (Reg.HST_RCFG_PRIV r) < 1 →
    exec (.snapNow r d) s = .next ((s.beginDesc r 0x0A03 d).completeLate r 0x0A03 d 0x11 0 0)) ∧
  (∀ (s : State) (r : Nat) (d : Desc), s.begins 0 r 0x0A05 d → s.get (Reg.HST_RCFG_CLASS r) = 0 → s.get (Reg.HST_RCFG_PRIV r) < 1 →
    exec (.colCommit r d) s = .next ((s.beginDesc r 0x0A05 d).completeLate r 0x0A05 d 0x11 0 0)) ∧
  (∀ (s : State) (r : Nat) (d : Desc) (sig : Bool), s.begins 0 r 0x0B01 d → s.get (Reg.HST_RCFG_CLASS r) = 0 → s.get (Reg.HST_RCFG_PRIV r) < 3 →
    exec (.imgOpen r d sig) s = .next ((s.beginDesc r 0x0B01 d).completeLate r 0x0B01 d 0x11 0 0)) ∧
  (∀ (s : State) (r : Nat) (d : Desc), s.begins 0 r 0x0B02 d → s.get (Reg.HST_RCFG_CLASS r) = 0 → s.get (Reg.HST_RCFG_PRIV r) < 3 →
    exec (.imgWrite r d) s = .next ((s.beginDesc r 0x0B02 d).completeLate r 0x0B02 d 0x11 0 0)) ∧
  (∀ (s : State) (r : Nat) (d : Desc), s.begins 0 r 0x0B03 d → s.get (Reg.HST_RCFG_CLASS r) = 0 → s.get (Reg.HST_RCFG_PRIV r) < 3 →
    exec (.imgFinish r d) s = .next ((s.beginDesc r 0x0B03 d).completeLate r 0x0B03 d 0x11 0 0)) ∧
  (∀ (s : State) (r : Nat) (d : Desc), s.begins 0 r 0x0B04 d → s.get (Reg.HST_RCFG_CLASS r) = 0 → s.get (Reg.HST_RCFG_PRIV r) < 3 →
    exec (.imgAbort r d) s = .next ((s.beginDesc r 0x0B04 d).completeLate r 0x0B04 d 0x11 0 0)) ∧
  (∀ (s : State) (r : Nat) (d : Desc), s.begins 0 r 0x0B05 d → s.get (Reg.HST_RCFG_CLASS r) = 0 → s.get (Reg.HST_RCFG_PRIV r) < 3 →
    exec (.updActivate r d) s = .next ((s.beginDesc r 0x0B05 d).completeLate r 0x0B05 d 0x11 0 0)) ∧
  (∀ (s : State) (r : Nat) (d : Desc), s.begins 0 r 0x0B06 d → s.get (Reg.HST_RCFG_CLASS r) = 0 → s.get (Reg.HST_RCFG_PRIV r) < 3 →
    exec (.updCommit r d) s = .next ((s.beginDesc r 0x0B06 d).completeLate r 0x0B06 d 0x11 0 0)) ∧
  (∀ (s : State) (r : Nat) (d : Desc), s.begins 0 r 0x0B07 d → s.get (Reg.HST_RCFG_CLASS r) = 0 → s.get (Reg.HST_RCFG_PRIV r) < 3 →
    exec (.updRollback r d) s = .next ((s.beginDesc r 0x0B07 d).completeLate r 0x0B07 d 0x11 0 0)) ∧
  (∀ (s : State) (r : Nat) (d : Desc) (sig : Bool), s.begins 0 r 0x0B08 d → s.get (Reg.HST_RCFG_CLASS r) = 0 → s.get (Reg.HST_RCFG_PRIV r) < 3 →
    exec (.tapUnlock r d sig) s = .next ((s.beginDesc r 0x0B08 d).completeLate r 0x0B08 d 0x11 0 0)) ∧
  (∀ (s : State) (r : Nat) (d : Desc), s.begins 0 r 0x0C01 d → s.get (Reg.HST_RCFG_CLASS r) = 0 → s.get (Reg.HST_RCFG_PRIV r) < 1 →
    exec (.prfZero r d) s = .next ((s.beginDesc r 0x0C01 d).completeLate r 0x0C01 d 0x11 0 0)) ∧
  (∀ (s : State) (r : Nat) (d : Desc), s.begins 0 r 0x0D01 d → s.get (Reg.HST_RCFG_CLASS r) = 0 → s.get (Reg.HST_RCFG_PRIV r) < 2 →
    exec (.repair r d) s = .next ((s.beginDesc r 0x0D01 d).completeLate r 0x0D01 d 0x11 0 0)) ∧
  (∀ (s : State) (r : Nat) (d : Desc), s.begins 0 r 0x0D02 d → s.get (Reg.HST_RCFG_CLASS r) = 0 → s.get (Reg.HST_RCFG_PRIV r) < 2 →
    exec (.spareRetire r d) s = .next ((s.beginDesc r 0x0D02 d).completeLate r 0x0D02 d 0x11 0 0))

/-- R116: in a standby seat, every command that changes configuration, output or seat state is completed with status STANDBY
(0x18) and has no other effect; SCRUB_NOW, which changes none of them, is served there (R177). -/
def Obligations.StandbyRefused : Prop :=
  (∀ (s : State) (r : Nat) (d : Desc), s.serves 0 r 0x0203 d { priv := 2 } → s.standby = true → bit (s.get Reg.PRS_STAT_TBSVC) (bits d.p0 0 2) = true →
    exec (.scrubNow r d) s = .next ((((s.beginDesc r 0x0203 d).logC (.host r) 2 0 0x0203 2 (bits d.p0 0 2) 0 0).scrubStart (bits d.p0 0 2)).completeLate r 0x0203 d 0 0 0)) ∧
  (∀ (s : State) (r : Nat) (d : Desc), s.begins 0 r 0x0200 d → s.get (Reg.HST_RCFG_CLASS r) = 0 → 2 ≤ s.get (Reg.HST_RCFG_PRIV r) → s.standby = true →
    exec (.hierSet r d) s = .next ((s.beginDesc r 0x0200 d).completeLate r 0x0200 d 0x18 0 0)) ∧
  (∀ (s : State) (r : Nat) (d : Desc), s.begins 0 r 0x0210 d → s.get (Reg.HST_RCFG_CLASS r) = 0 → 2 ≤ s.get (Reg.HST_RCFG_PRIV r) → s.standby = true →
    exec (.formeOpen r d) s = .next ((s.beginDesc r 0x0210 d).completeLate r 0x0210 d 0x18 0 0)) ∧
  (∀ (s : State) (r : Nat) (d : Desc), s.begins 0 r 0x0211 d → s.get (Reg.HST_RCFG_CLASS r) = 0 → 2 ≤ s.get (Reg.HST_RCFG_PRIV r) → s.standby = true →
    exec (.formeWrite r d) s = .next ((s.beginDesc r 0x0211 d).completeLate r 0x0211 d 0x18 0 0)) ∧
  (∀ (s : State) (r : Nat) (d : Desc), s.begins 0 r 0x0212 d → s.get (Reg.HST_RCFG_CLASS r) = 0 → 2 ≤ s.get (Reg.HST_RCFG_PRIV r) → s.standby = true →
    exec (.formeCommit r d) s = .next ((s.beginDesc r 0x0212 d).completeLate r 0x0212 d 0x18 0 0)) ∧
  (∀ (s : State) (r : Nat) (d : Desc), s.begins 0 r 0x0213 d → s.get (Reg.HST_RCFG_CLASS r) = 0 → 2 ≤ s.get (Reg.HST_RCFG_PRIV r) → s.standby = true →
    exec (.formeAbort r d) s = .next ((s.beginDesc r 0x0213 d).completeLate r 0x0213 d 0x18 0 0)) ∧
  (∀ (s : State) (r : Nat) (d : Desc), s.begins 0 r 0x0214 d → s.get (Reg.HST_RCFG_CLASS r) = 0 → 2 ≤ s.get (Reg.HST_RCFG_PRIV r) → s.standby = true →
    exec (.formeUnload r d) s = .next ((s.beginDesc r 0x0214 d).completeLate r 0x0214 d 0x18 0 0)) ∧
  (∀ (s : State) (r : Nat) (d : Desc), s.begins 0 r 0x0215 d → s.get (Reg.HST_RCFG_CLASS r) = 0 → 2 ≤ s.get (Reg.HST_RCFG_PRIV r) → s.standby = true →
    exec (.formeEnable r d) s = .next ((s.beginDesc r 0x0215 d).completeLate r 0x0215 d 0x18 0 0)) ∧
  (∀ (s : State) (r : Nat) (d : Desc), s.begins 0 r 0x0217 d → s.get (Reg.HST_RCFG_CLASS r) = 0 → 3 ≤ s.get (Reg.HST_RCFG_PRIV r) → s.standby = true →
    exec (.formeRun r d) s = .next ((s.beginDesc r 0x0217 d).completeLate r 0x0217 d 0x18 0 0)) ∧
  (∀ (s : State) (r : Nat) (d : Desc), s.begins 0 r 0x0400 d → s.get (Reg.HST_RCFG_CLASS r) = 0 → 2 ≤ s.get (Reg.HST_RCFG_PRIV r) → s.standby = true →
    exec (.trainSetup r d) s = .next ((s.beginDesc r 0x0400 d).completeLate r 0x0400 d 0x18 0 0)) ∧
  (∀ (s : State) (r : Nat) (d : Desc), s.begins 0 r 0x0401 d → s.get (Reg.HST_RCFG_CLASS r) = 0 → 2 ≤ s.get (Reg.HST_RCFG_PRIV r) → s.standby = true →
    exec (.trainRun r d) s = .next ((s.beginDesc r 0x0401 d).completeLate r 0x0401 d 0x18 0 0)) ∧
  (∀ (s : State) (r : Nat) (d : Desc), s.begins 0 r 0x0402 d → s.get (Reg.HST_RCFG_CLASS r) = 0 → 2 ≤ s.get (Reg.HST_RCFG_PRIV r) → s.standby = true →
    exec (.trainPromote r d) s = .next ((s.beginDesc r 0x0402 d).completeLate r 0x0402 d 0x18 0 0)) ∧
  (∀ (s : State) (r : Nat) (d : Desc), s.begins 0 r 0x0403 d → s.get (Reg.HST_RCFG_CLASS r) = 0 → 1 ≤ s.get (Reg.HST_RCFG_PRIV r) → s.standby = true →
    exec (.trainReject r d) s = .next ((s.beginDesc r 0x0403 d).completeLate r 0x0403 d 0x18 0 0)) ∧
  (∀ (s : State) (r : Nat) (d : Desc), s.begins 0 r 0x0404 d → s.get (Reg.HST_RCFG_CLASS r) = 0 → 2 ≤ s.get (Reg.HST_RCFG_PRIV r) → s.standby = true →
    exec (.trainRevert r d) s = .next ((s.beginDesc r 0x0404 d).completeLate r 0x0404 d 0x18 0 0)) ∧
  (∀ (s : State) (r : Nat) (d : Desc), s.begins 0 r 0x0501 d → s.get (Reg.HST_RCFG_CLASS r) = 0 → 2 ≤ s.get (Reg.HST_RCFG_PRIV r) → s.standby = true →
    exec (.changeSubmit r d) s = .next ((s.beginDesc r 0x0501 d).completeLate r 0x0501 d 0x18 0 0)) ∧
  (∀ (s : State) (r : Nat) (d : Desc), s.begins 0 r 0x0502 d → s.get (Reg.HST_RCFG_CLASS r) = 0 → 2 ≤ s.get (Reg.HST_RCFG_PRIV r) → s.standby = true →
    exec (.bankWrite r d) s = .next ((s.beginDesc r 0x0502 d).completeLate r 0x0502 d 0x18 0 0)) ∧
  (∀ (s : State) (r : Nat) (d : Desc), s.begins 0 r 0x0504 d → s.get (Reg.HST_RCFG_CLASS r) = 0 → 2 ≤ s.get (Reg.HST_RCFG_PRIV r) → s.standby = true →
    exec (.periodSet r d) s = .next ((s.beginDesc r 0x0504 d).completeLate r 0x0504 d 0x18 0 0)) ∧
  (∀ (s : State) (r : Nat) (d : Desc), s.begins 0 r 0x0505 d → s.get (Reg.HST_RCFG_CLASS r) = 0 → 2 ≤ s.get (Reg.HST_RCFG_PRIV r) → s.standby = true →
    exec (.lawSet r d) s = .next ((s.beginDesc r 0x0505 d).completeLate r 0x0505 d 0x18 0 0)) ∧
  (∀ (s : State) (r : Nat) (d : Desc), s.begins 0 r 0x0506 d → s.get (Reg.HST_RCFG_CLASS r) = 0 → 2 ≤ s.get (Reg.HST_RCFG_PRIV r) → s.standby = true →
    exec (.changeAbort r d) s = .next ((s.beginDesc r 0x0506 d).completeLate r 0x0506 d 0x18 0 0)) ∧
  (∀ (s : State) (r : Nat) (d : Desc), s.begins 0 r 0x0601 d → s.get (Reg.HST_RCFG_CLASS r) = 0 → 2 ≤ s.get (Reg.HST_RCFG_PRIV r) → s.standby = true →
    exec (.phaseClear r d) s = .next ((s.beginDesc r 0x0601 d).completeLate r 0x0601 d 0x18 0 0)) ∧
  (∀ (s : State) (r : Nat) (d : Desc), s.begins 0 r 0x0602 d → s.get (Reg.HST_RCFG_CLASS r) = 0 → 2 ≤ s.get (Reg.HST_RCFG_PRIV r) → s.standby = true →
    exec (.phaseRole r d) s = .next ((s.beginDesc r 0x0602 d).completeLate r 0x0602 d 0x18 0 0)) ∧
  (∀ (s : State) (r : Nat) (d : Desc), s.begins 0 r 0x0603 d → s.get (Reg.HST_RCFG_CLASS r) = 0 → 2 ≤ s.get (Reg.HST_RCFG_PRIV r) → s.standby = true →
    exec (.linkRetrain r d) s = .next ((s.beginDesc r 0x0603 d).completeLate r 0x0603 d 0x18 0 0)) ∧
  (∀ (s : State) (r : Nat) (d : Desc), s.begins 0 r 0x0701 d → s.get (Reg.HST_RCFG_CLASS r) = 0 → 3 ≤ s.get (Reg.HST_RCFG_PRIV r) → s.standby = true →
    exec (.fennalKey r d) s = .next ((s.beginDesc r 0x0701 d).completeLate r 0x0701 d 0x18 0 0)) ∧
  (∀ (s : State) (r : Nat) (d : Desc), s.begins 0 r 0x0702 d → s.get (Reg.HST_RCFG_CLASS r) = 0 → 3 ≤ s.get (Reg.HST_RCFG_PRIV r) → s.standby = true →
    exec (.fennalKeytx r d) s = .next ((s.beginDesc r 0x0702 d).completeLate r 0x0702 d 0x18 0 0)) ∧
  (∀ (s : State) (r : Nat) (d : Desc), s.begins 0 r 0x0703 d → s.get (Reg.HST_RCFG_CLASS r) = 0 → 3 ≤ s.get (Reg.HST_RCFG_PRIV r) → s.standby = true →
    exec (.fennalKeydel r d) s = .next ((s.beginDesc r 0x0703 d).completeLate r 0x0703 d 0x18 0 0)) ∧
  (∀ (s : State) (r : Nat) (d : Desc), s.begins 0 r 0x0711 d → s.get (Reg.HST_RCFG_CLASS r) = 0 → 1 ≤ s.get (Reg.HST_RCFG_PRIV r) → s.standby = true →
    exec (.paceAck r d) s = .next ((s.beginDesc r 0x0711 d).completeLate r 0x0711 d 0x18 0 0)) ∧
  (∀ (s : State) (r : Nat) (d : Desc), s.begins 0 r 0x0802 d → s.get (Reg.HST_RCFG_CLASS r) = 0 → 2 ≤ s.get (Reg.HST_RCFG_PRIV r) → s.standby = true →
    exec (.ringEnum r d) s = .next ((s.beginDesc r 0x0802 d).completeLate r 0x0802 d 0x18 0 0)) ∧
  (∀ (s : State) (r : Nat) (d : Desc), s.begins 0 r 0x0803 d → s.get (Reg.HST_RCFG_CLASS r) = 0 → 2 ≤ s.get (Reg.HST_RCFG_PRIV r) → s.standby = true →
    exec (.owTest r d) s = .next ((s.beginDesc r 0x0803 d).completeLate r 0x0803 d 0x18 0 0)) ∧
  (∀ (s : State) (r : Nat) (d : Desc), s.begins 0 r 0x0804 d → s.get (Reg.HST_RCFG_CLASS r) = 0 → 1 ≤ s.get (Reg.HST_RCFG_PRIV r) → s.standby = true →
    exec (.bupFast r d) s = .next ((s.beginDesc r 0x0804 d).completeLate r 0x0804 d 0x18 0 0)) ∧
  (∀ (s : State) (r : Nat) (d : Desc), s.begins 0 r 0x0811 d → s.get (Reg.HST_RCFG_CLASS r) = 0 → 2 ≤ s.get (Reg.HST_RCFG_PRIV r) → s.standby = true →
    exec (.estTable r d) s = .next ((s.beginDesc r 0x0811 d).completeLate r 0x0811 d 0x18 0 0)) ∧
  (∀ (s : State) (r : Nat) (d : Desc), s.begins 0 r 0x0813 d → s.get (Reg.HST_RCFG_CLASS r) = 0 → 1 ≤ s.get (Reg.HST_RCFG_PRIV r) → s.standby = true →
    exec (.restNow r d) s = .next ((s.beginDesc r 0x0813 d).completeLate r 0x0813 d 0x18 0 0)) ∧
  (∀ (s : State) (r : Nat) (d : Desc), s.begins 0 r 0x0903 d → s.get (Reg.HST_RCFG_CLASS r) = 0 → 2 ≤ s.get (Reg.HST_RCFG_PRIV r) → s.standby = true →
    exec (.eraClass r d) s = .next ((s.beginDesc r 0x0903 d).completeLate r 0x0903 d 0x18 0 0)) ∧
  (∀ (s : State) (r : Nat) (d : Desc), s.begins 0 r 0x0E01 d → s.get (Reg.HST_RCFG_CLASS r) = 0 → 2 ≤ s.get (Reg.HST_RCFG_PRIV r) → s.standby = true →
    exec (.seatSwitch r d) s = .next ((s.beginDesc r 0x0E01 d).completeLate r 0x0E01 d 0x18 0 0)) ∧
  (∀ (s : State) (r : Nat) (d : Desc), s.begins 0 r 0x0E02 d → s.get (Reg.HST_RCFG_CLASS r) = 0 → 2 ≤ s.get (Reg.HST_RCFG_PRIV r) → s.standby = true →
    exec (.provingRun r d) s = .next ((s.beginDesc r 0x0E02 d).completeLate r 0x0E02 d 0x18 0 0)) ∧
  (∀ (s : State) (r : Nat) (d : Desc), s.begins 0 r 0x0E03 d → s.get (Reg.HST_RCFG_CLASS r) = 0 → 2 ≤ s.get (Reg.HST_RCFG_PRIV r) → s.standby = true →
    exec (.provingStop r d) s = .next ((s.beginDesc r 0x0E03 d).completeLate r 0x0E03 d 0x18 0 0)) ∧
  (∀ (s : State) (r : Nat) (d : Desc), s.begins 0 r 0x0A01 d → s.get (Reg.HST_RCFG_CLASS r) = 0 → 2 ≤ s.get (Reg.HST_RCFG_PRIV r) → s.standby = true →
    exec (.trigWrite r d) s = .next ((s.beginDesc r 0x0A01 d).completeLate r 0x0A01 d 0x18 0 0)) ∧
  (∀ (s : State) (r : Nat) (d : Desc), s.begins 0 r 0x0B05 d → s.get (Reg.HST_RCFG_CLASS r) = 0 → 3 ≤ s.get (Reg.HST_RCFG_PRIV r) → s.standby = true →
    exec (.updActivate r d) s = .next ((s.beginDesc r 0x0B05 d).completeLate r 0x0B05 d 0x18 0 0)) ∧
  (∀ (s : State) (r : Nat) (d : Desc), s.begins 0 r 0x0B06 d → s.get (Reg.HST_RCFG_CLASS r) = 0 → 3 ≤ s.get (Reg.HST_RCFG_PRIV r) → s.standby = true →
    exec (.updCommit r d) s = .next ((s.beginDesc r 0x0B06 d).completeLate r 0x0B06 d 0x18 0 0)) ∧
  (∀ (s : State) (r : Nat) (d : Desc), s.begins 0 r 0x0B07 d → s.get (Reg.HST_RCFG_CLASS r) = 0 → 3 ≤ s.get (Reg.HST_RCFG_PRIV r) → s.standby = true →
    exec (.updRollback r d) s = .next ((s.beginDesc r 0x0B07 d).completeLate r 0x0B07 d 0x18 0 0)) ∧
  (∀ (s : State) (r : Nat) (d : Desc) (sig : Bool), s.begins 0 r 0x0B08 d → s.get (Reg.HST_RCFG_CLASS r) = 0 → 3 ≤ s.get (Reg.HST_RCFG_PRIV r) → s.standby = true →
    exec (.tapUnlock r d sig) s = .next ((s.beginDesc r 0x0B08 d).completeLate r 0x0B08 d 0x18 0 0))

/-- A query that passes every check of R607 and whose buffer takes no write completes BADADDR with DONE 0 and RESULT 0, and nothing is
written (R607). -/
def Obligations.BufferWriteFails : Prop :=
  (∀ (s : State) (r : Nat) (d : Desc), s.begins 0 r 0x0101 d → s.check r 0 d { priv := 0, buf := .writes, lenOk := fun n => decide (256 ≤ n) } = none → d.buf = none →
    exec (.health r d) s = .next ((s.beginDesc r 0x0101 d).completeLate r 0x0101 d 0x13 0 0)) ∧
  (∀ (s : State) (r : Nat) (d : Desc), s.begins 0 r 0x0103 d → s.check r 0 d { priv := 0, buf := .writes, lenOk := fun n => 64 ≤ n } = none → d.buf = none →
    exec (.ringQuery r d) s = .next ((s.beginDesc r 0x0103 d).completeLate r 0x0103 d 0x13 0 0)) ∧
  (∀ (s : State) (r : Nat) (d : Desc), s.begins 0 r 0x0201 d → s.check r 0 d { priv := 0, buf := .writes, lenOk := fun n => 64 ≤ n } = none → d.buf = none →
    exec (.pressQuery r d) s = .next ((s.beginDesc r 0x0201 d).completeLate r 0x0201 d 0x13 0 0)) ∧
  (∀ (s : State) (r : Nat) (d : Desc), s.begins 0 r 0x0216 d → s.check r 0 d { priv := 0, buf := .writes, lenOk := fun n => 64 ≤ n } = none → d.buf = none →
    exec (.formeQuery r d) s = .next ((s.beginDesc r 0x0216 d).completeLate r 0x0216 d 0x13 0 0)) ∧
  (∀ (s : State) (r : Nat) (d : Desc), s.begins 0 r 0x0218 d → s.check r 0 d { priv := 0, buf := .writes, lenOk := fun n => 48 ≤ n } = none → d.buf = none →
    exec (.formeDigest r d) s = .next ((s.beginDesc r 0x0218 d).completeLate r 0x0218 d 0x13 0 0)) ∧
  (∀ (s : State) (r : Nat) (d : Desc), s.begins 0 r 0x0300 d → s.check r 0 d { priv := 0, buf := .writes, lenOk := fun n => 128 ≤ n } = none → d.buf = none →
    exec (.galleyQuery r d) s = .next ((s.beginDesc r 0x0300 d).completeLate r 0x0300 d 0x13 0 0)) ∧
  (∀ (s : State) (r : Nat) (d : Desc), s.begins 0 r 0x0405 d → s.check r 0 d { priv := 0, buf := .writes, lenOk := fun n => 64 ≤ n } = none → d.buf = none →
    exec (.trainQuery r d) s = .next ((s.beginDesc r 0x0405 d).completeLate r 0x0405 d 0x13 0 0)) ∧
  (∀ (s : State) (r : Nat) (d : Desc), s.begins 0 r 0x0500 d → s.check r 0 d { priv := 0, buf := .writes, lenOk := fun n => decide (64 ≤ n) } = none → d.buf = none →
    exec (.chaseQuery r d) s = .next ((s.beginDesc r 0x0500 d).completeLate r 0x0500 d 0x13 0 0)) ∧
  (∀ (s : State) (r : Nat) (d : Desc), s.begins 0 r 0x0700 d → s.check r 0 d { priv := 0, buf := .writes, lenOk := fun n => 64 ≤ n } = none → d.buf = none →
    exec (.fennalQuery r d) s = .next ((s.beginDesc r 0x0700 d).completeLate r 0x0700 d 0x13 0 0)) ∧
  (∀ (s : State) (r : Nat) (d : Desc), s.begins 0 r 0x0710 d → s.check r 0 d { priv := 0, buf := .writes, lenOk := fun n => 128 ≤ n } = none → d.buf = none →
    exec (.groupQuery r d) s = .next ((s.beginDesc r 0x0710 d).completeLate r 0x0710 d 0x13 0 0)) ∧
  (∀ (s : State) (r : Nat) (d : Desc), s.begins 0 r 0x0800 d → s.check r 0 d { priv := 0, buf := .writes, lenOk := fun n => 64 ≤ n } = none → d.buf = none →
    exec (.bupRingQuery r d) s = .next ((s.beginDesc r 0x0800 d).completeLate r 0x0800 d 0x13 0 0)) ∧
  (∀ (s : State) (r : Nat) (d : Desc), s.begins 0 r 0x0801 d → s.check r 0 d { priv := 0, buf := .writes, lenOk := fun n => 1536 ≤ n } = none → d.buf = none →
    exec (.cellRead r d) s = .next ((s.beginDesc r 0x0801 d).completeLate r 0x0801 d 0x13 0 0)) ∧
  (∀ (s : State) (r : Nat) (d : Desc), s.begins 0 r 0x0810 d → s.check r 0 d { priv := 0, buf := .writes, lenOk := fun n => 64 ≤ n } = none → d.buf = none →
    exec (.estQuery r d) s = .next ((s.beginDesc r 0x0810 d).completeLate r 0x0810 d 0x13 0 0)) ∧
  (∀ (s : State) (r : Nat) (d : Desc), s.begins 0 r 0x0814 d → s.check r 0 d { priv := 0, buf := .writes, lenOk := fun n => 256 ≤ n } = none → d.buf = none →
    exec (.estRecords r d) s = .next ((s.beginDesc r 0x0814 d).completeLate r 0x0814 d 0x13 0 0)) ∧
  (∀ (s : State) (r : Nat) (d : Desc), s.begins 0 r 0x0900 d → s.check r 0 d { priv := 0, buf := .writes, lenOk := fun n => 64 ≤ n } = none → d.buf = none →
    exec (.eraQuery r d) s = .next ((s.beginDesc r 0x0900 d).completeLate r 0x0900 d 0x13 0 0)) ∧
  (∀ (s : State) (r : Nat) (d : Desc), s.begins 0 r 0x0A00 d → s.check r 0 d { priv := 0, buf := .writes, lenOk := (256 ≤ ·) } = none → d.buf = none →
    exec (.colQuery r d) s = .next ((s.beginDesc r 0x0A00 d).completeLate r 0x0A00 d 0x13 0 0)) ∧
  (∀ (s : State) (r : Nat) (d : Desc), s.begins 0 r 0x0B00 d → s.check r 0 d { priv := 0, buf := .writes, lenOk := fun n => decide (64 ≤ n) } = none → d.buf = none →
    exec (.updQuery r d) s = .next ((s.beginDesc r 0x0B00 d).completeLate r 0x0B00 d 0x13 0 0)) ∧
  (∀ (s : State) (r : Nat) (d : Desc), s.begins 0 r 0x0D00 d → s.check r 0 d { priv := 0, buf := .writes, lenOk := fun n => decide (64 ≤ n) } = none → d.buf = none →
    exec (.spareQuery r d) s = .next ((s.beginDesc r 0x0D00 d).completeLate r 0x0D00 d 0x13 0 0)) ∧
  (∀ (s : State) (r : Nat) (d : Desc), s.begins 0 r 0x0E00 d → s.check r 0 d { priv := 0, buf := .writes, lenOk := fun n => decide (64 ≤ n) } = none → d.buf = none →
    exec (.seatQuery r d) s = .next ((s.beginDesc r 0x0E00 d).completeLate r 0x0E00 d 0x13 0 0)) ∧
  (∀ (s : State) (r : Nat) (d : Desc), s.begins 0 r 0x0E04 d → s.check r 0 d { priv := 0, buf := .writes, lenOk := fun n => decide (64 ≤ n) } = none → d.buf = none →
    exec (.seatHealth r d) s = .next ((s.beginDesc r 0x0E04 d).completeLate r 0x0E04 d 0x13 0 0))

/-- R12: a read of an offset of BAR0 that names no register returns 0, and a write to it is ignored (what is left to carry out of the
degrade orders given before is carried out, R474). -/
def Obligations.UnnamedRegisters : Prop :=
  (∀ (s : State) (off : Nat), s.barUp = true → s.stage ≠ 0xE → off < 0x200000 → off % 4 = 0 → regRow off = none →
    exec (.registerReadClear off 4) s = .next (s.emit (.read 0))) ∧
  (∀ (s : State) (off v : Nat), s.barUp = true → s.stage ≠ 0xE → s.glb.hostUp = true → off < 0x200000 → off % 4 = 0 → regRow off = none →
    exec (.registerWrite off 4 v) s = .next s.settle)

/-- What reset leaves: every register field at its reset value, no command waiting, no cell of the Press memory listed, the rails
down, stage 0, the seat token not held, and the values that the register tables give to some fields of each block. -/
def Obligations.ResetValues : Prop :=
  (∀ f : Fld, State.reset.get f = f.reset) ∧
  (State.reset.pending = [] ∧ State.reset.prs.pmem = [] ∧ State.reset.glb.powered = false ∧ State.reset.stage = 0 ∧
    State.reset.token = false ∧ State.reset.halted = false ∧ State.reset.staged = []) ∧
  (State.reset.get Reg.GLB_ID_DEVID = 0x9640 ∧ State.reset.get Reg.GLB_ID_SIREV = 0xB0 ∧ State.reset.get Reg.GLB_ID_MODREV = 3 ∧
    State.reset.get Reg.GLB_VENDOR_VID = 0x1F3C ∧ State.reset.get Reg.GLB_RSTCAUSE_CAUSE = 1 ∧ State.reset.get Reg.GLB_STAT_BLIND = 1 ∧
    State.reset.get Reg.HST_PTM_STAT_AGE = 0xFFFF ∧ State.reset.get Reg.PRS_GAL_STAT_BLIND = 1 ∧
    State.reset.get Reg.CHS_STAT_LANES = 16 ∧ State.reset.get Reg.CHS_STAT_SPLANE = 2 ∧
    State.reset.get Reg.FEN_GRP_CVER_CVER = 1 ∧ State.reset.get Reg.FEN_GRP_STAT_SACAUSE = 4) ∧
  (∀ r : Nat, State.reset.get (Reg.HST_REVMASK r) = 0xFFFFFFFF ∧ State.reset.get (Reg.HST_RSTAT_EN r) = 0) ∧
  (∀ t : Nat, State.reset.get (Reg.PRS_TB_SPARE_LEAF t) = 128 ∧ State.reset.get (Reg.PRS_TB_SPARE_FOLIO t) = 8 ∧
    State.reset.get (Reg.PRS_TB_SPARE_BANK t) = 16)

/-- R473, R476: what the halt decision does at once: HALTED and the stage 0xF, the seat token released, ALIVE and HB_OUT low, and
the first halt latched unless one is; a further halt counts in MORE and does nothing else. -/
def Obligations.HaltDecision : Prop :=
  (∀ (s : State) (n : Nat), s.halted = false →
    (s.halt n).halted = true ∧ (s.halt n).stage = 0xF ∧ (s.halt n).token = false ∧ (s.halt n).glb.alive = false ∧
    (s.halt n).glb.hbOut = false) ∧
  (∀ (s : State) (n : Nat), s.halted = false → s.on Reg.ERA_HALT_VALID = false →
    (s.halt n).get Reg.ERA_HALT_FIRST = n % 512 ∧ (s.halt n).get Reg.ERA_HALT_TIME = s.time % 2 ^ 64 ∧
    (s.halt n).on Reg.ERA_HALT_VALID = true) ∧
  (∀ (s : State) (n : Nat), s.halted = false → s.on Reg.ERA_HALT_VALID = true →
    (s.halt n).get Reg.ERA_HALT_FIRST = s.get Reg.ERA_HALT_FIRST ∧ (s.halt n).get Reg.ERA_HALT_TIME = s.get Reg.ERA_HALT_TIME) ∧
  (∀ (s : State) (n : Nat), s.halted = true → s.halt n = s.bump Reg.ERA_HALT_MORE)

/-- R475: every raise, of every class, is recorded: in the detector's status and count, in its raise times and its parameter, and,
while the log stores still take records (R533), in a slug of code 0x4000 plus the detector's number. -/
def Obligations.RaiseRecorded : Prop :=
  (∀ (s : State) (n esc param : Nat) (inj : Bool),
    ((s.raise n esc param inj).det n).status = true ∧
    (s.raise n esc param inj).get (Reg.ERA_DINFO_COUNT n) = (s.bump (Reg.ERA_DINFO_COUNT n)).get (Reg.ERA_DINFO_COUNT n) ∧
    (s.raise n esc param inj).get (Reg.ERA_DLAST n) = s.time % 2 ^ 64 ∧
    (s.raise n esc param inj).get (Reg.ERA_DPARAM n) = param % 2 ^ 32 ∧
    ((s.det n).status = false → (s.raise n esc param inj).get (Reg.ERA_DFIRST n) = s.time % 2 ^ 64) ∧
    ((s.det n).status = true → (s.raise n esc param inj).get (Reg.ERA_DFIRST n) = s.get (Reg.ERA_DFIRST n))) ∧
  (∀ (s : State) (n esc param : Nat) (inj : Bool), s.col.finalCommit = 0 →
    ((s.raise n esc param inj).col.slugs.getLast?).map (fun e => (e.code, e.p0)) = some (0x4000 + n, param % 2 ^ 32))

/-- R96: the bytes of a completion entry, read back field by field. -/
def Obligations.CompletionLayout : Prop :=
  (∀ (c : Cpl) (seat : Nat) (ph : Bool), c.opcode < 2 ^ 16 → seat < 2 → c.flags = 0 ∨ c.flags = 2 ∨ c.flags = 4 ∨ c.flags = 6 →
    c.status < 2 ^ 8 → c.tag < 2 ^ 32 → c.ring < 2 ^ 14 → c.index < 2 ^ 16 → c.count < 2 ^ 32 → c.done < 2 ^ 32 →
    c.result < 2 ^ 32 → c.time < 2 ^ 64 →
    (c.bytes seat ph).length = 32 ∧ rd (c.bytes seat ph) 0 2 = c.opcode ∧
    bit (rd (c.bytes seat ph) 2 1) 0 = ph ∧ bit (rd (c.bytes seat ph) 2 1) 1 = bit c.flags 1 ∧
    bit (rd (c.bytes seat ph) 2 1) 2 = bit c.flags 2 ∧ bits (rd (c.bytes seat ph) 2 1) 3 1 = seat ∧
    bits (rd (c.bytes seat ph) 2 1) 4 4 = 0 ∧ rd (c.bytes seat ph) 3 1 = c.status ∧ rd (c.bytes seat ph) 4 4 = c.tag ∧
    rd (c.bytes seat ph) 8 2 = c.ring ∧ rd (c.bytes seat ph) 10 2 = c.index ∧ rd (c.bytes seat ph) 12 4 = c.count ∧
    rd (c.bytes seat ph) 16 4 = c.done ∧ rd (c.bytes seat ph) 20 4 = c.result ∧ rd (c.bytes seat ph) 24 8 = c.time)

/-- No word spells a command: the table of operations and events gives no row any bits. -/
def Obligations.NoWordSpellsACommand : Prop :=
  (∀ nbits w : Nat, decodeTableWord nbits w = none) ∧
  (∀ (s : State) (nbits w : Nat), s.withFetchWord nbits w = s)

/-- Input power (R26, R28, R31, R32, R46, R48 to R51): what each signal of the supply does to the module that it reaches. A
signal that finds the module without power, or in the loss sequence already, changes nothing of it. -/
def Obligations.PowerSignals : Prop :=
  (∀ s : State, exec .powerOn s = .next (
    if s.glb.present = true ∧ s.glb.powered = false then
      ((({ s with
        glb := { s.glb with powered := true, inrush := true, resetCode := 1, inputBack := false },
        hst := { s.hst with perst := s.hst.perst && !s.hst.perstPend, perstPend := false } } : State).set
        Reg.GLB_ISL_PWR_ISL 0x1FFF).set Reg.GLB_ISL_RST_ISL 0x1FFF).set Reg.GLB_VRSV_CHARGING 1
    else s)) ∧
  (∀ s : State, exec .presentClose s = .next { s with glb := { s.glb with present := true, inrush := true } }) ∧
  (∀ s : State, s.glb.powered = false → exec .presentOpen s = .next { s with glb := { s.glb with present := false, inrush := false } }) ∧
  (∀ s : State, s.glb.powered = true → s.glb.lossStep = 0 → exec .presentOpen s = .next (
    ((((({ s with glb := { s.glb with present := false, lossStep := 1, lossBy := 2, fenOn := false, inputBack := false, tone := [false, false, false, false] } } : State).set Reg.GLB_VRSV_HOLDUP 1).set
      Reg.GLB_VRSV_CHARGING 0).emit (.pin .uartTx true)).raise (detN 3 0) 0 0).settle)) ∧
  (∀ (s : State) (v w : Nat), s.glb.powered = true → s.glb.lossStep = 0 → exec (.inputLoss v w) s = .next (
    let u := ((s.set Reg.GLB_VIN_VALUE v).set Reg.GLB_VRSV_VRSV w).setReady Reg.GLB_BOOTSTAT_RES (b2n (decide (4000 ≤ w)))
    ((((({ u with glb := { u.glb with lossStep := 1, lossBy := 1, fenOn := false, inputBack := false, tone := [false, false, false, false] } } : State).set Reg.GLB_VRSV_HOLDUP 1).set Reg.GLB_VRSV_CHARGING 0).emit
      (.pin .uartTx true)).raise (detN 3 0) 0 0).settle)) ∧
  (∀ (s : State) (v i p : Nat) (low : Bool), Gives (.inputLow low v i p) s fun t =>
    t = ((s.inputMeans v i p).pwrChange fun u => (u.deferFor 3 low).setB Reg.GLB_PWRSTAT_DEFL low).level (detN 3 1) 0 0 low ∧
    t.get Reg.GLB_VIN_VALUE = v % 2 ^ 16 ∧ t.get Reg.GLB_IIN_VALUE = i % 2 ^ 16 ∧ t.get Reg.GLB_PIN_VALUE = p % 2 ^ 16 ∧
    t.get Reg.GLB_PWRSTAT_DEFL = b2n low) ∧
  (∀ (s : State) (v i p : Nat) (reached : Bool), Gives (.inputPowerLimit reached v i p) s fun t =>
    t = ((s.inputMeans v i p).pwrChange fun u => (u.deferFor 1 reached).setB Reg.GLB_PWRSTAT_DEFP reached) ∧
    t.get Reg.GLB_VIN_VALUE = v % 2 ^ 16 ∧ t.get Reg.GLB_IIN_VALUE = i % 2 ^ 16 ∧ t.get Reg.GLB_PIN_VALUE = p % 2 ^ 16 ∧
    t.get Reg.GLB_PWRSTAT_DEFP = b2n reached) ∧
  (∀ (s : State) (level v i p : Nat),
    let cap := decide (level ≠ 0) && (s.prs.i4Cap || (decide (2 ≤ level) && !s.trn.defer.isEmpty))
    let u := (s.inputMeans v i p).pwrChange fun u =>
      ((((u.deferFor 2 (level != 0)).setB Reg.GLB_PWRSTAT_DEFI (level != 0)).prsMod fun q => { q with i4Cap := cap }).setB
        Reg.GLB_PWRSTAT_CAP4 cap)
    exec (.inputCurrentLimit level v i p) s = .next (
      if level = 0 then u.levelOff (detN 3 2) else if 2 ≤ level ∧ !s.trn.defer.isEmpty then u.levelOn (detN 3 2) 0 0 else u).settle) ∧
  (∀ (s : State) (v : Nat), s.glb.powered = true → exec (.reservoirCharged v) s = .next (
    let u := ((s.set Reg.GLB_VRSV_VRSV v).setReady Reg.GLB_BOOTSTAT_RES (b2n (decide (4000 ≤ v)))).setB Reg.GLB_VRSV_CHARGING (decide (v < 5200))
    if 4000 ≤ v then u.levelOff (detN 3 9) else u)) ∧
  (∀ s : State, s.glb.lossStep = 1 → Gives .lossSequence s fun t =>
    t.glb.lossStep = 2 ∧ t.glb.safeLeft = 0 ∧ t.glb.hostUp = false ∧ t.hst.linkUp = false ∧ t.hst.busMaster = false ∧
    t.prs.runs = [] ∧ t.get Reg.ROS_STAT_UP = 0) ∧
  (∀ s : State, s.glb.lossStep = 2 → Gives .lossSequence s fun t => t.glb.lossStep = 3) ∧
  (∀ s : State, s.glb.lossStep = 3 → exec .lossSequence s = .next (
      let u := (List.range 4).foldl (fun a k =>
        let n := a.get (Reg.BUP_EST_CYC_CYC k)
        (a.setNv (Reg.BUP_EST_CYC_CYC k) n).recMod k fun r => { r with cycles := n }) s
      { u with glb := { u.glb with lossStep := 4 }, col := { u.col with finalCommit := 1, committing := true } })) ∧
  (∀ s : State, s.glb.lossStep = 4 → s.col.finalCommit = 2 →
    exec .lossSequence s = .next { s with glb := { s.glb with lossStep := 5 } }) ∧
  (∀ s : State, exec .inputReturn s =
    .next (if s.glb.lossStep = 0 then s else { s with glb := { s.glb with inputBack := true } })) ∧
  (∀ s : State, s.glb.lossStep ≠ 0 → s.col.finalCommit ≠ 2 → exec .reservoirExhausted s =
    .next (
      let u := (s.set Reg.GLB_VRSV_VRSV 2000).setReady Reg.GLB_BOOTSTAT_RES 0
      { u with glb := { u.glb with exhausted := true } })) ∧
  (∀ s : State, 4 ≤ s.glb.lossStep ∧ s.col.finalCommit = 2 ∨ s.glb.exhausted = true → s.glb.inputBack = false → Gives .railsOff s fun t =>
    t.glb = { present := s.glb.present, inrush := s.glb.present, powered := false, flyNext := false, resetCode := 1, sources := [] } ∧
    t.nv = s.nv ∧ t.nvm = s.nvm ∧ t.rings = [] ∧ t.chs = State.reset.chs ∧ t.ros = State.reset.ros)

/-- The module's own measurements (R22, R24, R41 to R44, R54, R396): clocks, crossings, junctions, cooling, the meter, the test
port. -/
def Obligations.MeasurementSignals : Prop :=
  (∀ (s : State) (ppm : List Int) (stopped : List Nat), exec (.clockCheckWindow ppm stopped) s = .next
    (ppm.zipIdx.foldl (fun a e => a.clockOne e.2 e.1 (stopped.contains e.2)) s).settle) ∧
  (∀ (s : State) (c : Nat) (first : Bool), c ≠ 7 → exec (.crossingMiss c first) s = .next (
    let u := s.crossingDrop c
    let n := if first = true then 1 else Tab.get u.watch.xrun c 0 + 1
    ((({ u with watch := { u.watch with xrun := Tab.put u.watch.xrun c n } } : State).bump (Reg.ERA_XMISS c)).raise (detN 2 c)
      (if n < 3 then 0 else if c = 3 ∨ c = 4 ∨ c = 6 then 2 else 1) c).settle)) ∧
  (∀ (s : State) (die : Nat) (t : Int), 5 ≤ die → exec (.junctionTemp die t) s = .next (
    (s.setS Reg.GLB_TEMP_TREG t).level (detN 4 5) 0 0 (decide (1100 < t)))) ∧
  (∀ (s : State) (die : Nat) (t : Int), die < 5 → 950 ≤ t → exec (.junctionTemp die t) s = .next (
    let u : State := { s.showTemp die t with watch := { (s.showTemp die t).watch with
      hot := Tab.put (s.showTemp die t).watch.hot die (t + 1000).toNat } }
    ((u.pwrChange fun v => (v.deferFor 4 true).set Reg.GLB_PWRSTAT_DEFT 1).level (detN 4 die) (if 1150 ≤ t then 2 else 0) die
      (decide (1050 ≤ t))).settle)) ∧
  (∀ (s : State) (t0 t1 flow tin tout : Nat), exec (.coolingSample t0 t1 flow tin tout) s = .next (
    let u := ((((s.set Reg.CHS_COOL_TACH_LO t0).set Reg.CHS_COOL_TACH_HI t1).set Reg.CHS_COOL_FLOW_LO flow).set
      Reg.CHS_COOL_TEMP_LO tin).set Reg.CHS_COOL_TEMP_HI tout
    (u.coolBits.level (detN 4 6) 0 0 (tin == 0x7FFF || tin == 0x8000)).level (detN 4 7) 0 0 (tout == 0x7FFF || tout == 0x8000))) ∧
  (∀ (s : State) (i : Nat), s.watch.coolBad.contains i = false → (s.coolItem i).1 ≠ 0 → exec (.coolingFailure i true) s = .next (
    let u := ((({ s with watch := { s.watch with coolBad := i :: s.watch.coolBad } } : State).coolBits.derateStart).levelOn
      (detN 4 (8 + i)) 0 0)
    u.evt 3 0x0511 (le 1 (i + 1) ++ le 1 1 ++ zeros 2 ++ le 4 u.chs.rmp.target ++ le 4 u.chs.rmp.f))) ∧
  (∀ (s : State) (i : Nat), s.watch.coolBad.contains i = true → exec (.coolingFailure i false) s = .next (
    let u := ((({ s with watch := { s.watch with coolBad := s.watch.coolBad.filter (· != i) } } : State).coolBits.derateStart).levelOff
      (detN 4 (8 + i)))
    u.evt 3 0x0511 (le 1 (i + 1) ++ le 1 0 ++ zeros 2 ++ le 4 u.chs.rmp.target ++ le 4 u.chs.rmp.f))) ∧
  (∀ (s : State) (t : Nat), s.chs.rmp.start = some t → exec .derateStep s = .next (
    let m := min 30000 ((s.time - t) / 1000000)
    let u := s.putF ((s.chs.rmp.f0 : Int) + divRne (((s.chs.rmp.target : Int) - s.chs.rmp.f0) * m) 30000).toNat
    if m = 30000 then (u.chsMod fun c => { c with rmp := { c.rmp with start := none, capRate := 0 } }).set Reg.CHS_COOL_STAT_PLAN 0 else u)) ∧
  (∀ (s : State) (f : List Byte), s.glb.chaseUp = true → rd f 0 1 ≠ 0x5A ∨ crc32 (f.take 16) ≠ rd f 16 4 →
    exec (.meterFrame f) s = .next (({ s with watch := { s.watch with meterBad := s.watch.meterBad + 1 }, glb := { s.glb with meterRun := 0 } } : State).raise (detN 16 1) 0 0)) ∧
  (∀ (s : State) (f : List Byte), s.glb.chaseUp = true → rd f 0 1 = 0x5A → crc32 (f.take 16) = rd f 16 4 →
    s.glb.meterSeq = none → exec (.meterFrame f) s = .next (
      let u : State := { s with watch := { s.watch with meterLost := s.watch.meterLost + 0 },
                                glb := { s.glb with meterSeq := some (rd f 1 1), meterTime := s.time, meterMiss := 0,
                                                    meterRun := 0, meterW := framePower f, meterOk := s.glb.meterOk || false } }
      if u.glb.meterOk then u.levelOff (detN 16 0) else u)) ∧
  (∀ s : State, s.glb.chaseUp = true → exec .meterTimeout s = .next (
    (({ s with glb := { s.glb with meterOk := false, meterSeq := none, meterRun := 0, meterMiss := 0 } } : State).levelOn
      (detN 16 0) 0 0).settle)) ∧
  (∀ s : State, s.tdoOn = true → exec .tapIdcode s = .next (s.emit (.tdo 0x29640A5F))) ∧
  (∀ (s : State) (b : Bool), s.tdoOn = true →
    exec (.tapBypass b) s = .next { (s.emit (.tdo (b2n s.glb.bypass))) with glb := { s.glb with bypass := b } }) ∧
  (∀ s : State, s.tdoOn = false → exec .tapIdcode s = .next s) ∧
  (∀ (s : State) (b : Bool), s.tdoOn = false → s.glb.powered = true →
    exec (.tapBypass b) s = .next { s with glb := { s.glb with bypass := b } })

/-- Straps and the stages of the start (R39, R40, R60 to R68, R70, R75, R76, R605): each stage is entered from the stage before
it. -/
def Obligations.StartStages : Prop :=
  (∀ (s : State) (a p i : Nat), s.glb.powered = true → bit (s.get Reg.GLB_ISL_RST_ISL) 12 = true → s.col.resetWait = none →
    s.glb.resetCode ≠ 1 → exec (.errataLeavesReset a p i) s = .next (
      let u := ((s.islandsRun [12]).liveStraps a p i).set Reg.GLB_SEAT_SEAT a
      let u := ((u.set Reg.GLB_SEAT_POS p).set Reg.GLB_SEAT_IDPAR i).set Reg.GLB_SEAT_RANK (2 * p + a)
      let u := ((u.set Reg.GLB_SEAT_PAROK ((a + ones3 p + i) % 2)).set Reg.GLB_SEAT_CHANGED 0).setStage 0
      if u.glb.resetCode = 1 then
        ((((({ u with glb := { u.glb with sources := [1] } } : State).set Reg.GLB_RSTCAUSE_CAUSE 1).set Reg.GLB_RSTCAUSE_PREV 0).set
          Reg.GLB_RSTCAUSE_COUNT 0).set Reg.GLB_RSTCAUSE_MULTI 0).resetEnds
      else u.resetMark u.glb.resetCode)) ∧
  (∀ (s : State) (a p i : Nat), a ≠ s.get Reg.GLB_SEAT_LSEAT →
    exec (.strapChange a p i) s = .next ((((((s.set Reg.GLB_SEAT_LSEAT a).set Reg.GLB_SEAT_LPOS p).set Reg.GLB_SEAT_LIDPAR i).set
      Reg.GLB_SEAT_CHANGED 1).raise (detN 5 1) 0 0))) ∧
  (∀ s : State, exec (.strapChange (s.get Reg.GLB_SEAT_LSEAT) (s.get Reg.GLB_SEAT_LPOS) (s.get Reg.GLB_SEAT_LIDPAR)) s = .next s) ∧
  (∀ s : State, s.glb.powered = true → s.glb.uart = none →
    exec .uartRxHigh s = .next { s with glb := { s.glb with uart := some true } }) ∧
  (∀ s : State, s.glb.uart = none → s.glb.chaseUp = false → s.bootAt 3 = true →
    exec .uartSettleTimeout s = .next (({ s with glb := { s.glb with uart := some false } } : State).enterFly 4)) ∧
  (∀ s : State, s.bootAt 0 = true → s.glb.chaseUp = false → s.glb.flyNext = false → exec .enterErrataStage s = .next (
    let u : State := { s.bootTo 1 with era := { (s.bootTo 1).era with keep := true }, glb := { (s.bootTo 1).glb with sources := [] } }
    let v := if 4000 ≤ u.get Reg.GLB_VRSV_VRSV then u.setReady Reg.GLB_BOOTSTAT_RES 1 else u
    (v.level (detN 5 0) 0 0 (!v.on Reg.GLB_SEAT_PAROK)).settle)) ∧
  (∀ (s : State) (pages : List (Nat × Nat × Bool)), s.bootAt 1 = true → s.glb.chaseUp = false →
    exec (.enterSettingsStage pages) s = .next (
      let u := (((s.islandsRun [11]).bootTo 2).readStores pages).takeStamps.takeJournal.takeStraps.resetLog
      ({ u with glb := { u.glb with hflags := if u.nv.wasFlyleaf then setBit u.glb.hflags 4 true else u.glb.hflags },
                nv := { u.nv with wasFlyleaf := false } } : State).settle)) ∧
  (∀ s : State, s.bootAt 2 = true → s.glb.chaseUp = false → s.glb.flyCond = 0 → exec .enterMgmtStage s = .next (
    let u := (s.bootTo 3).islandsRun [0, 1, 2, 3, 4, 5, 8, 9, 10]
    ({ u with glb := { u.glb with mrStep := [0, 0, 0, 0], mrRes := [0, 0, 0, 0] } } : State).lostUnits.pressOut.settle)) ∧
  (∀ s : State, s.bootAt 3 = true → s.glb.chaseUp = false → s.glb.mgmtDown = false → s.glb.uart = some true → exec .enterChaseStage s = .next (
    let u := (s.bootTo 4).islandsRun [6]
    let v := ({ u with glb := { u.glb with chaseUp := true, stlIdle := false, fenOn := true, hbHeld := u.halted,
                                           settled := true } } : State).set Reg.CHS_TIME 0
    let w := (v.grpMod fun g => { g with since := 0 }).stageStart.groupJudge
    (w.masterAll w.masterNow).settle)) ∧
  (∀ s : State, s.bootAt 4 = true → s.glb.hostUp = false → s.hst.linkUp = true → s.hst.perst = false →
    exec .enterHostStage s = .next ((({ s with glb := { s.glb with hostUp := true, hostSeen := true } } : State).set Reg.GLB_ISL_RST_ISL
      (setBit (s.get Reg.GLB_ISL_RST_ISL) 7 false)).bootTo 5)) ∧
  (∀ s : State, s.glb.chaseUp = true → s.halted = false → 6 ≤ s.stage ∧ s.stage ≤ 8 → s.glb.lossStep = 0 → s.glb.hostSeen = false →
    s.glb.hostUp = false → s.hst.linkUp = true → s.hst.perst = false →
    exec .enterHostStage s = .next (({ s with glb := { s.glb with hostUp := true, hostSeen := true } } : State).set Reg.GLB_ISL_RST_ISL
      (setBit (s.get Reg.GLB_ISL_RST_ISL) 7 false))) ∧
  (∀ (s : State) (ms : Nat), s.stage = 4 ∨ s.stage = 5 → s.waitCond % 32 = 31 → s.glb.reported = false →
    exec (.enterWait ms) s = .next
      (({ s with glb := { s.glb with waitTime := ms, peerWaited := false } } : State).setStage 6).settle) ∧
  (∀ s : State, s.bootAt 1 = true → s.glb.chaseUp = false → exec (.enterFlyleaf 2) s = .next (
      let u := s.setStage 0xE
      let v : State := { u with
        glb := { u.glb with preHalt := 0xE, flyCond := 2, flyNext := false, settled := true, chaseUp := false, hostUp := false, alive := false,
                            hbOut := false, hbHeld := true, stlIdle := true, fenOn := false, tone := [false, false, false, false] }
        nv := { u.nv with wasFlyleaf := true } }
      (v.pinsLow.emit (.roscorNotElig 1
        (rosBytes 1 (v.pinsLow.get Reg.GLB_SEAT_SEAT) v.pinsLow.ros.sent (v.pinsLow.get Reg.CHS_PNUM) v.pinsLow.hbBytes))).settle)) ∧
  (∀ s : State, s.stage = 6 → s.glb.permit = true →
    (s.roleRow = 1 → exec .takeRole s = .next { s with glb := { s.glb with roleDue := true } }) ∧
    (s.roleRow = 2 → exec .takeRole s = .next s.standbyRole) ∧
    (s.roleRow = 0 → exec .takeRole s = .next { s with glb := { s.glb with roleDue := false } })) ∧
  (∀ s : State, s.stage = 6 →
    exec .waitPeerTimeout s = .next ({ s with glb := { s.glb with peerWaited := true } } : State).judgeRole) ∧
  (∀ (s : State) (t : Nat) (us : Nat), s.glb.powered = true → s.glb.lossStep = 0 → 3 ≤ s.stage → s.stage ≠ 0xE →
    s.glb.mrStep[t]? = some 5 → s.prs.fwStep = false →
    exec (.makeReadyStepDone t 6 [] 0 0 true us) s = .next
      ({ s with glb := { s.glb with mrTime := max s.glb.mrTime us, mrStep := s.glb.mrStep.set t 6 } } : State).mrEnd.settle) ∧
  (∀ (s : State) (formes model : List (Nat × List Byte)),
    s.peerToken = false ∨ s.on Reg.GLB_BOOTSTAT_PRESS = true ∧
      (s.standby = false ∨ s.on Reg.ROS_STAT_PDIV = false ∧ s.ros.modelAsk = false) →
    exec (.modelSetFromPeer formes model) s = .next s.settle) ∧
  (∀ (s : State) (formes model : List (Nat × List Byte)), s.peerToken = true → s.on Reg.GLB_BOOTSTAT_PRESS = true →
    s.standby = true → s.on Reg.ROS_STAT_PDIV = true ∨ s.ros.modelAsk = true →
    exec (.modelSetFromPeer formes model) s = .next (
      let u := formes.foldl (fun s e => s.peerForme model e) (s.slotsGiveWay.prsMod fun p => { p with slots := [] })
      let v := u.prsMod fun p => { p with prevStore := p.store, store := u.prs.slots.filterMap fun e => e.2.forme.map fun f => (e.1, (f, e.2.en)) }
      let w := if v.on Reg.GLB_BOOTSTAT_PRESS = true then v.loadModel.blindTick false else if v.glb.modelWait = true then v.loadModel else v
      let x : State := { w with glb := { w.glb with hflags := setBit w.glb.hflags 2 true } }
      let y := x.logC (.peer (1 - x.get Reg.GLB_SEAT_SEAT) 0 0xFFFF) 3 0 0 2 0 (digest8 s.modelDigest) (digest8 x.modelDigest) true
      (if u.modelDigest = s.modelDigest then
          (if 3 ≤ s.ros.pMiss then (s.set Reg.ROS_STAT_PDIV 1).rosMod fun r => { r with modelAsk := false }
           else s.rosMod fun r => { r with modelAsk := false })
       else (((y.set Reg.ROS_STAT_PDIV 0).rosMod fun r => { r with pMiss := 0, pGood := 0, modelAsk := false }).raise (detN 12 6) 0 0).modelDone).settle)) ∧
  (∀ (s : State) (formes model : List (Nat × List Byte)), s.peerToken = true → s.on Reg.GLB_BOOTSTAT_PRESS = false →
    exec (.modelSetFromPeer formes model) s = .next (
      let u := formes.foldl (fun s e => s.peerForme model e) (s.slotsGiveWay.prsMod fun p => { p with slots := [] })
      let v := u.prsMod fun p => { p with prevStore := p.store, store := u.prs.slots.filterMap fun e => e.2.forme.map fun f => (e.1, (f, e.2.en)) }
      let w := if v.on Reg.GLB_BOOTSTAT_PRESS = true then v.loadModel.blindTick false else if v.glb.modelWait = true then v.loadModel else v
      let x : State := { w with glb := { w.glb with hflags := setBit w.glb.hflags 2 true } }
      let y := x.logC (.peer (1 - x.get Reg.GLB_SEAT_SEAT) 0 0xFFFF) 3 0 0 2 0 (digest8 s.modelDigest) (digest8 x.modelDigest) true
      (if u.modelDigest = s.modelDigest then s.modelDone
       else (((y.set Reg.ROS_STAT_PDIV 0).rosMod fun r => { r with pMiss := 0, pGood := 0, modelAsk := false }).raise (detN 12 6) 0 0).modelDone).settle)) ∧
  (∀ (s : State) (r : Nat), (s.bring r).retry.isSome = true → (s.bring r).enum = 0 → exec (.enumRetry r) s = .next (s.enumStart r)) ∧
  (∀ (s : State) (r : Nat), s.masters r = true → s.enumStart r =
    (let u := s.bringMod r fun x => { x with enum := 1, num := 1, seen := [], retry := none, echo := none, judged := false, cfg := [],
                                             nodes := x.nodes.map fun e => (e.1, { e.2 with isEnd := false }) }
     ((((u.enumSend r 0 0 1).enumSend r 1 0 1).set (Reg.BUP_RSTAT_NOUT r) 0).set (Reg.BUP_RSTAT_NRET r) 0).enumSend r 0 1 0))

/-- Resets short of a power cycle (R47, R55 to R59, R82): the host island alone, the management cluster, the module. -/
def Obligations.ResetSignals : Prop :=
  (∀ s : State, Gives .perstAssert s fun t =>
    t.rings = [] ∧ t.hst = { perst := true, perstPend := false, linkUp := false } ∧ t.glb = { s.glb with hostUp := false, modReset := none } ∧
    t.get Reg.GLB_ISL_RST_ISL = setBit ((s.hostReset false).get Reg.GLB_ISL_RST_ISL) 7 true % 2 ^ 13 ∧ t.nvm = s.nvm ∧ t.nv = s.nv ∧ t.chs = s.chs ∧ t.era = s.era) ∧
  (∀ s : State, s.hst.perst = true → s.glb.powered = true → s.glb.lossStep < 2 → exec .perstDeassert s = .next (
    let up := s.glb.hostSeen && decide (s.stage ≠ 0xE ∧ s.stage ≠ 4 ∧ (s.halted && s.glb.preHalt == 4) = false)
    let u : State := { s with hst := { s.hst with perst := false, perstPend := false }, glb := { s.glb with hostUp := up } }
    let u := if up = true then u.islandsRun [7] else u
    if 1 ≤ u.stage then u.resetMark 2 else u)) ∧
  (∀ s : State, s.hst.perst = true → s.glb.powered = false ∨ 2 ≤ s.glb.lossStep →
    exec .perstDeassert s = .next { s with hst := { s.hst with perstPend := true } }) ∧
  (∀ s : State, Gives .functionLevelReset s fun t =>
    t.rings = [] ∧ t.hst = { perst := s.hst.perst, perstPend := s.hst.perstPend, linkUp := s.hst.linkUp } ∧
    t.glb.modReset = none ∧ t.glb.sources = s.glb.sources ++ [3] ∧ t.glb.tapLocked = true ∧ t.nvm = s.nvm ∧ t.chs = s.chs) ∧
  (∀ (s : State) (rate width : Nat), s.glb.powered = false ∨ s.hst.perst = true ∨ 2 ≤ s.glb.lossStep →
    exec (.pcieLinkUp rate width) s = .next s) ∧
  (∀ (s : State) (rate width : Nat), s.glb.powered = true → s.hst.perst = false → bit (s.get Reg.GLB_ISL_RST_ISL) 12 = false →
    s.glb.lossStep < 2 →
    exec (.pcieLinkUp rate width) s = .next (
    ((((({ s with hst := { s.hst with linkUp := true } } : State).set Reg.HST_STAT_LSPD rate).set Reg.HST_STAT_LWID width).setB
      Reg.HST_STAT_DEGR (decide (rate < 5 ∨ width < 16))).level (detN 6 0) 0 0 (decide (rate < 5 ∨ width < 16))).settle)) ∧
  (∀ (s : State) (off : Nat) (w : Option Nat), s.hst.linkUp = true → s.glb.settled = false →
    exec (.configRequest off w) s = .next (s.emit (.config none))) ∧
  (∀ s : State, s.hst.linkUp = true → s.glb.settled = true →
    exec (.configRequest 0 none) s = .next (({ s with free := s.free + 1 } : State).emit (.config (some 0x96401F3C))) ∧
    exec (.configRequest 8 none) s = .next (({ s with free := s.free + 1 } : State).emit (.config (some 0x118000B0)))) ∧
  (∀ (s : State) (v : Nat), s.hst.linkUp = true → s.glb.settled = true →
    exec (.configRequest 4 (some v)) s = .next (s.dmaChange (bit v 2) (s.on Reg.HST_CTL_DMA_EN))) ∧
  (∀ (s : State) (r : Nat) (d : Desc), s.glb.modReset = some (r, d) →
    (s.token = true → exec .moduleResetProceed s = .next
      (({ s with glb := { s.glb with modReset := none } } : State).handCancel.completeLate r 0x0105 d 0x19 0 0)) ∧
    (s.token = false → exec .moduleResetProceed s = .next
      ((({ s with glb := { s.glb with modReset := none } } : State).completeLate r 0x0105 d 0 0 0).moduleReset 4))) ∧
  (∀ s : State, s.glb.chaseUp = true → s.glb.lossStep = 0 → exec .mgmtWatchdog s = .next (
    let ts := s.time :: s.glb.wdog.filter fun t => decide (s.time < t + 10000000000)
    let v : State := { s.resetMark 5 with glb := { (s.resetMark 5).glb with mgmtDown := true, wdog := ts } }
    (if ts.length < 2 then v else v.raise (detN 7 0) (if ts.length = 2 then 0 else 2) 0).settle)) ∧
  (∀ s : State, s.glb.mgmtDown = true → s.stepNow = none → exec .mgmtRestartDone s = .next
    { s.discardStaged with glb := { s.discardStaged.glb with mgmtDown := false } }) ∧
  (∀ s : State, s.halted = true → 0 < s.get (Reg.ERA_DINFO_COUNT 0) → s.glb.powered = true → s.glb.lossStep = 0 →
    s.col.resetWait = none → exec .lockstepReset s = .next (s.moduleReset 7)) ∧
  (∀ s : State, s.col.committing = true → s.col.finalCommit = 0 → exec .openPagesCommitted s = .next (
    let u := s.col.waiting.foldl (fun a w => a.completeLate w.1 0x0A05 w.2 0 0 0)
      (s.pagesDone.colMod fun c => { c with waiting := [], committing := false })
    match u.col.resetWait with
    | some code => u.resetGoes code
    | none => u))

/-- The commands of the host island (R57, R79, R87, R109, R594) on a ring that serves them: NOP, FENCE, HEALTH, SEAT_ENABLE,
RING_QUERY, PTM_RESYNC, MODULE_RESET. -/
def Obligations.HostCommands : Prop :=
  (∀ (s : State) (r : Nat) (d : Desc), s.serves 0 r 0x0000 d { priv := 0 } →
    exec (.nop r d) s = .next ((s.beginDesc r 0 d).completeLate r 0 d 0 0 0)) ∧
  (∀ (s : State) (r : Nat) (d : Desc), s.serves 0 r 0x0100 d { priv := 0 } → bits d.p0 0 14 ≠ r →
    (s.ring (bits d.p0 0 14)).nFetched ≤ (s.ring (bits d.p0 0 14)).nDone →
    exec (.fence r d) s = .next
      ((s.beginDesc r 0x0100 d).completeLate r 0x0100 d 0 0 (s.get (Reg.HST_RPTR_HEAD (bits d.p0 0 14)) % 2 ^ 32))) ∧
  (∀ (s : State) (r : Nat) (d : Desc), s.serves 0 r 0x0100 d { priv := 0 } → bits d.p0 0 14 ≠ r →
    (s.ring (bits d.p0 0 14)).nDone < (s.ring (bits d.p0 0 14)).nFetched →
    exec (.fence r d) s = .next (let u := s.beginDesc r 0x0100 d
      { u with hst := { u.hst with fences := s.hst.fences ++
        [{ ring := r, desc := d, target := bits d.p0 0 14, upTo := (s.ring (bits d.p0 0 14)).nFetched }] } })) ∧
  (∀ (s : State) (r : Nat) (d : Desc), s.serves 0 r 0x0101 d { priv := 0, buf := .writes, lenOk := fun n => decide (256 ≤ n) } →
    exec (.health r d) s = .next ((s.imaged r 0x0101 d 256 s.glb.report).completeLate r 0x0101 d 0 256 0)) ∧
  (∀ (s : State) (r : Nat) (d : Desc), s.serves 0 r 0x0102 d { priv := 1 } →
    let u := (s.beginDesc r 0x0102 d).logC (.host r) 2 0 0x0102 0 0 (b2n s.glb.permit) 1
    exec (.seatEnable r d) s = .next (
      if u.on Reg.GLB_START_MODE then u.completeLate r 0x0102 d 0 0 0
      else (({ u with glb := { u.glb with permit := true } } : State).judgeRole).completeLate r 0x0102 d 0 0 0)) ∧
  (∀ (s : State) (r : Nat) (d : Desc), s.serves 0 r 0x0103 d { priv := 0, buf := .writes, lenOk := fun n => decide (64 ≤ n) } →
    exec (.ringQuery r d) s = .next (
      (s.imaged r 0x0103 d 64 ((s.beginDesc r 0x0103 d).regBytes ((List.range 14).map fun i => 0x10018 + 4 * i) (bits d.p0 0 14))).completeLate
        r 0x0103 d 0 64 0)) ∧
  (∀ (s : State) (r : Nat) (d : Desc) (ofs : Int), s.serves 0 r 0x0104 d { priv := 1 } → s.hst.ptmEnable = true →
    exec (.ptmResync r d true ofs) s = .next (
      let u := ((((s.beginDesc r 0x0104 d).logC (.host r) 2 0 0x0104 1 0 0 0).setS Reg.HST_PTM_OFS ofs).set Reg.HST_PTM_STAT_VALID 1).set Reg.HST_ING_STAT_UNANCH 0
      let u := ({ u with hst := { u.hst with ptmLast := some u.time } } : State).levelOff (detN 6 1)
      u.completeLate r 0x0104 d 0 0 (ofS 32 (satS 32 (u.getS Reg.HST_PTM_OFS)) % 2 ^ 32))) ∧
  (∀ (s : State) (r : Nat) (d : Desc) (ofs : Int), s.serves 0 r 0x0104 d { priv := 1 } →
    exec (.ptmResync r d false ofs) s = .next (
      let u := ((s.beginDesc r 0x0104 d).logC (.host r) 2 0 0x0104 1 0 0 0).set Reg.HST_PTM_STAT_FAIL 1
      u.completeLate r 0x0104 d 0 0 (ofS 32 (satS 32 (u.getS Reg.HST_PTM_OFS)) % 2 ^ 32))) ∧
  (∀ (s : State) (r : Nat) (d : Desc), s.serves 0 r 0x0105 d { priv := 3 } → s.col.resetWait = none → s.token = false →
    exec (.moduleReset r d) s = .next ((((s.beginDesc r 0x0105 d).logC (.host r) 2 0 0x0105 0 0 0 (bits d.p0 0 1)).completeLate r 0x0105 d 0 0 0).moduleReset 4)) ∧
  (∀ (s : State) (r : Nat) (d : Desc), s.serves 0 r 0x0105 d { priv := 3 } → s.col.resetWait = none → s.token = true → bit d.p0 0 = true →
    exec (.moduleReset r d) s = .next (((((s.beginDesc r 0x0105 d).logC (.host r) 2 0 0x0105 0 0 0 (bits d.p0 0 1)).completeLate r 0x0105 d 0 0 0).leaveForReset).moduleReset 4)) ∧
  (∀ (s : State) (r : Nat) (d : Desc), s.serves 0 r 0x0105 d { priv := 3 } → s.col.resetWait = none → s.token = true → bit d.p0 0 = false →
    s.on Reg.ROS_STAT_PREADY = false → exec (.moduleReset r d) s = .next ((s.beginDesc r 0x0105 d).completeLate r 0x0105 d 0x19 0 0))

/-- What happens to a ring from outside (R84, R86, R87, R89, R90, R99 to R101, R103, R104, R106, R112, R117, R411). -/
def Obligations.RingSignals : Prop :=
  (∀ (s : State) (r : Nat), let u := s.logC regOrigin 1 0 0 1 0x14 0 1
    s.hostOpen → u.on (Reg.HST_RSTAT_EN r) = false → u.enableCheck r = none → exec (.ringEnable r false) s = .next (
      let v := ((((((((u.set (Reg.HST_RSTAT_EN r) 1).set (Reg.HST_RSTAT_ERR r) 0).set (Reg.HST_RSTAT_ECODE r) 0).set (Reg.HST_RPTR_HEAD r) 0).set
        (Reg.HST_RPTR_TAIL r) 0).set (Reg.HST_RCNT r) 0).set (Reg.HST_RSTAT_STALL r) 0).set (Reg.HST_RSTAT_SGAP r) 0).ringMod r fun x =>
          { x with phase := true, seq := 0, lost := false, since := 0, fetched := [], savedTail := none, takeover := false, peerHead := 0 }
      if hostFilled (v.get (Reg.HST_RCFG_CLASS r)) = true then v.stallBound (v.get (Reg.HST_RCFG_CPLRING r))
      else if v.get (Reg.HST_RCFG_CLASS r) = 1 then v.stallBound r else v)) ∧
  (∀ (s : State) (r e : Nat) (b : Bool), let u := s.logC regOrigin 1 0 0 1 0x14 0 1
    s.hostOpen → u.on (Reg.HST_RSTAT_EN r) = false → u.enableCheck r = some e →
      exec (.ringEnable r b) s = .next (u.set (Reg.HST_RSTAT_ECODE r) e)) ∧
  (∀ (s : State) (r : Nat), let u := s.logC regOrigin 1 0 0 1 0x14 0 1
    s.hostOpen → u.on (Reg.HST_RSTAT_EN r) = true → exec (.ringEnable r false) s = .next u ∧
      exec (.ringEnable r true) s = .next (
        if u.on (Reg.HST_RCFG_SHADOW r) = true ∧ u.standby = true ∧ u.ringLive r = true then (u.raise (detN 6 2) 0 r).ringError r 0xB 0 0 else u)) ∧
  (∀ (s : State) (r : Nat), let u := s.logC regOrigin 1 0 0 1 0x14 0 2
    s.hostOpen → u.on (Reg.HST_RSTAT_EN r) = true → u.get (Reg.HST_RCFG_CLASS r) ≠ 1 →
      exec (.ringDisable r) s = .next ((u.set (Reg.HST_RSTAT_EN r) 0).abortAll r)) ∧
  (∀ (s : State) (r v : Nat), s.hostOpen → v < 65536 → s.on (Reg.HST_RSTAT_EN r) = true → s.on (Reg.HST_RSTAT_ERR r) = false →
    hostFilled (s.get (Reg.HST_RCFG_CLASS r)) = true → (s.count 5 3 1).served (s.get (Reg.HST_RCFG_CLASS r)) = true →
    exec (.doorbellTail r v true) s = .next ((s.count 5 3 1).newTail r v)) ∧
  (∀ (s : State) (r v : Nat), s.hostOpen → v < 65536 → s.on (Reg.HST_RSTAT_EN r) = true → s.on (Reg.HST_RSTAT_ERR r) = false →
    hostFilled (s.get (Reg.HST_RCFG_CLASS r)) = false → (s.count 5 3 1).served (s.get (Reg.HST_RCFG_CLASS r)) = true →
    exec (.doorbellHead r v true) s = .next ((s.count 5 3 1).newHead r v)) ∧
  (∀ (s : State) (r v : Nat), s.hostOpen → v < 65536 → s.on (Reg.HST_RSTAT_EN r) = true → s.on (Reg.HST_RSTAT_ERR r) = false →
    (s.count 5 3 1).served (s.get (Reg.HST_RCFG_CLASS r)) = false →
    exec (.doorbellHead r v true) s = .next (((s.count 5 3 1).set
      (if hostFilled (s.get (Reg.HST_RCFG_CLASS r)) = true then Reg.HST_RPTR_TAIL r else Reg.HST_RPTR_HEAD r) v).ringMod r
      fun x => { x with savedTail := some v })) ∧
  (∀ (s : State) (r v : Nat), s.hostOpen → exec (.doorbellTail r v false) s = .next (s.set Reg.HST_STAT_DBBAD 1) ∧
    exec (.doorbellHead r v false) s = .next (s.set Reg.HST_STAT_DBBAD 1)) ∧
  (∀ (s : State) (r v : Nat), s.hostOpen → v < 65536 → s.on (Reg.HST_RSTAT_EN r) = false →
    exec (.doorbellTail r v true) s = .next (s.bump (Reg.HST_RDBIGN r)) ∧
    exec (.doorbellHead r v true) s = .next (s.bump (Reg.HST_RDBIGN r))) ∧
  (∀ (s : State) (r v : Nat) (b m : Bool), s.barUp = true → s.stage ≠ 0xE → s.glb.hostUp = false →
    exec (.ringEnable r m) s = .next (s.bump Reg.GLB_EARLYWR) ∧ exec (.ringDisable r) s = .next (s.bump Reg.GLB_EARLYWR) ∧
    exec (.doorbellTail r v b) s = .next (s.bump Reg.GLB_EARLYWR) ∧ exec (.doorbellHead r v b) s = .next (s.bump Reg.GLB_EARLYWR) ∧
    exec (.chsRegisterWrite r v) s = .next (s.bump Reg.GLB_EARLYWR) ∧ exec (.fesumClear r v) s = .next (s.bump Reg.GLB_EARLYWR) ∧
    exec (.eraDstatClear r v) s = .next (s.bump Reg.GLB_EARLYWR) ∧ exec (.linkMapWrite b v) s = .next (s.bump Reg.GLB_EARLYWR) ∧
    exec (.counterWrite r v b 0) s = .next (s.bump Reg.GLB_EARLYWR)) ∧
  (∀ (s : State) (r v : Nat), s.newTail r v =
    if s.ringLen r ≤ v then s.ringError r 8 0 0 else s.set (Reg.HST_RPTR_TAIL r) v) ∧
  (∀ (s : State) (r v : Nat), s.get (Reg.HST_RCFG_CLASS r) ≠ 1 → v < s.ringLen r →
    (s.set (Reg.HST_RPTR_HEAD r) v).get (Reg.HST_RCFG_CLASS r) ≠ 1 → s.newHead r v = s.set (Reg.HST_RPTR_HEAD r) v) ∧
  (∀ (s : State) (r : Nat) (ds : List (Nat × Desc)), 0 < s.fetchable r → ds ≠ [] → exec (.descriptorFetch r ds) s = .next (
    let n := min (s.fetchable r) ds.length
    let h := s.get (Reg.HST_RPTR_HEAD r)
    let m := s.ringLen r
    let got := (ds.take n).zipIdx.map fun (e, i) => (e.1, { e.2 with idx := (h + i) % m })
    let u := ((s.set (Reg.HST_RPTR_HEAD r) ((h + n) % m)).add (Reg.HST_RCNT r) n).ringMod r fun x =>
      { x with fetched := x.fetched ++ got, nFetched := x.nFetched + n }
    let u := u.ringMod (u.get (Reg.HST_RCFG_CPLRING r)) fun x => { x with owed := x.owed + n }
    (u.count 5 1 n).dropBadOps r (u.ring r).fetched.length)) ∧
  (∀ (s : State) (r k a : Nat), s.ringLive r = true → exec (.dmaError r k a) s = .next
    (s.ringError r (if hostFilled (s.get (Reg.HST_RCFG_CLASS r)) then 9 else 0xA) k a)) ∧
  (∀ (s : State) (bme en : Bool), bme = false ∨ en = false → exec (.dmaEnableChange bme en) s = .next
    (({ s with hst := { s.hst with busMaster := bme } } : State).setB Reg.HST_CTL_DMA_EN en)) ∧
  (∀ s : State,
    let u := ({ s with hst := { s.hst with busMaster := true } } : State).setB Reg.HST_CTL_DMA_EN true
    u.dmaOn = true → exec (.dmaEnableChange true true) s = .next (
      let u := u.hst.dmaWait.foldl (fun a e => a.emit (.dma e.1 e.2)) u
      let u : State := { u with hst := { u.hst with dmaWait := [] } }
      ((u.rings.map (·.1)).foldl (fun a r => if (a.ring r).held.isEmpty then a else a.flushCpl r (a.ring r).held.length) u).msixFlush)) ∧
  (∀ s : State,
    let u := ({ s with hst := { s.hst with busMaster := true } } : State).setB Reg.HST_CTL_DMA_EN true
    u.dmaOn = false → exec (.dmaEnableChange true true) s = .next u) ∧
  (∀ (s : State) (r : Nat), s.dmaOn = true → s.on (Reg.HST_RIRQ_IEN r) = true → s.get (Reg.HST_RIRQ_MTIME r) ≠ 0 →
    (s.ring r).since ≠ 0 → exec (.msixModerationTimer r) s = .next
      ((s.ringMod r fun x => { x with since := 0 }).msixSend (s.get (Reg.HST_RIRQ_VECTOR r)))) ∧
  (∀ (s : State) (r : Nat), s.get (Reg.HST_RPTR_HEAD r) = s.get (Reg.HST_RPTR_TAIL r) → (s.ring r).fetched = [] →
    exec (.batchIdleTimeout r) s = .next (s.closeBatch r)) ∧
  (∀ (s : State) (ofs : Int), s.hst.ptmEnable = true → s.on Reg.HST_PTM_CTL_AUTO = true → s.get Reg.HST_PTM_CTL_PERIOD ≠ 0 →
    exec (.ptmDialogue false ofs) s = .next (s.set Reg.HST_PTM_STAT_FAIL 1) ∧
    exec (.ptmDialogue true ofs) s = .next (
      let u := ((s.setS Reg.HST_PTM_OFS ofs).set Reg.HST_PTM_STAT_VALID 1).set Reg.HST_ING_STAT_UNANCH 0
      ({ u with hst := { u.hst with ptmLast := some u.time } } : State).levelOff (detN 6 1))) ∧
  (∀ s : State, exec .ptmTimeout s = .next ((s.set Reg.HST_PTM_STAT_VALID 0).levelOn (detN 6 1) 0 0)) ∧
  (∀ (s : State) (r n e : Nat) (x : Notice), s.grp.notices = [x] → x.num = n → x.entries = [(r, e)] →
    (e + s.ringLen r - s.get (Reg.HST_RPTR_HEAD r)) % s.ringLen r <
      (s.get (Reg.HST_RPTR_TAIL r) + s.ringLen r - s.get (Reg.HST_RPTR_HEAD r)) % s.ringLen r →
    exec (.paceUnreadTimeout r n) s = .next (s.paceLost n 2)) ∧
  (∀ (s : State) (r : Nat), s.standby = true → exec (.shadowHoldTimeout r) s = .next (
    let u := (s.set (Reg.HST_RSTAT_SGAP r) 1).bump Reg.HST_SGAP
    ({ u with ros := { u.ros with exclTo := u.time / 20000 + 205, pGood := 0 } } : State).raise (detN 6 2) 0 r)) ∧
  (∀ (s : State) (r : Nat) (h : ShadowHold), s.standby = false → s.hst.shadowHold.find? (fun g => g.ring == r) = some h →
    exec (.shadowHoldTimeout r) s = .next (s.releaseHold fun g => g == h))

/-- Ingest (R122 to R144): buffers, records, streams and their timeouts. -/
def Obligations.IngestCommands : Prop :=
  (∀ (s : State) (r n : Nat) (d : Desc) (k : Nat) (u : State),
    s.serves 2 r 0x1001 d { priv := 1, buf := .reads, lenOk := fun n => n % 8 = 0 && decide (n ≤ 1048576), parOk := decide (d.p0 = 0 ∧ d.p1 = 0 ∧ d.p2 = 0) } →
    (s.beginDesc r 0x1001 d).takeRecs r true ((bufBytes d).length / 8 + 1) 0 0 (bufBytes d) = (n, k, false, u) →
    exec (.traceBuf r d) s = .next ((u.noteCut r d.idx s.ing).completeLate r 0x1001 d 0 n k).standbyDue) ∧
  (∀ (s : State) (r n : Nat) (d : Desc) (k : Nat) (u : State),
    s.serves 3 r 0x1002 d { priv := 1, buf := .reads, lenOk := fun n => n % 8 = 0 && decide (n ≤ 1048576), parOk := decide (d.p0 = 0 ∧ d.p1 = 0 ∧ d.p2 = 0) } →
    (s.beginDesc r 0x1002 d).takeRecs r false ((bufBytes d).length / 8 + 1) 0 0 (bufBytes d) = (n, k, false, u) →
    exec (.scoreBuf r d) s = .next ((u.noteCut r d.idx s.ing).completeLate r 0x1002 d 0 n k).standbyDue) ∧
  (∀ (s : State) (r n : Nat) (d : Desc) (k : Nat) (u : State),
    s.serves 2 r 0x1001 d { priv := 1, buf := .reads, lenOk := fun n => n % 8 = 0 && decide (n ≤ 1048576), parOk := decide (d.p0 = 0 ∧ d.p1 = 0 ∧ d.p2 = 0) } →
    (s.beginDesc r 0x1001 d).takeRecs r true ((bufBytes d).length / 8 + 1) 0 0 (bufBytes d) = (n, k, true, u) →
    exec (.traceBuf r d) s = .next ((u.noteCut r d.idx s.ing).completeLate r 0x1001 d 0x15 n 0).standbyDue) ∧
  (∀ (s : State) (r n seq t0 : Nat) (xs : List Nat), s.stream n = none →
    exec (.traceRecord r n seq t0 xs) s = .next ((s.bump Reg.HST_ING_UNB).count 5 8 1) ∧
    exec (.keepAlive r n seq t0) s = .next ((s.bump Reg.HST_ING_UNB).count 5 8 1)) ∧
  (∀ (s : State) (r n seq t0 : Nat) (x : Stream), s.stream n = some x → x.ring = none ∨ x.ring = some r →
    s.on Reg.HST_ING_STAT_UNANCH = false → s.shelfOf t0 ≤ (s.time : Int) + 100000 →
    (seqCheck x.lastSeq seq).or (if x.anySeq = true then some false else none) = some false →
    exec (.keepAlive r n seq t0) s = .next ((
      let u := s.add Reg.HST_ING_GAP 0
      let time := max x.time (s.shelfOf t0).toNat
      let y : Stream := { x with lastSeq := some seq, anySeq := false, ring := some r, win := trimWin x.win (time / 1000), time := time, unanch := false, state := u.lagState time }
      (((u.putStream n y).ingMod fun i => { i with ringTime := Tab.put i.ringTime n u.time, lastRec := Tab.put i.lastRec x.tb (n, x.win) }).lossCheck).count 5 7 1).carried r s.ing)) ∧
  (∀ (s : State) (r n seq t0 v : Nat) (x : Stream), s.stream n = some x → x.ring = none ∨ x.ring = some r →
    s.on Reg.HST_ING_STAT_UNANCH = false → s.shelfOf t0 ≤ (s.time : Int) + 100000 → x.lastSeq = some seq → x.anySeq = false →
    exec (.traceRecord r n seq t0 [v]) s = .next ((s.bump Reg.HST_ING_DUP).carried r s.ing)) ∧
  (∀ (s : State) (r n seq t0 v : Nat) (x : Stream) (q t : Nat), s.stream n = some x → x.ring = some q → q ≠ r →
    Tab.find s.ing.ringTime n = some t → s.time < t + 2000000 →
    exec (.traceRecord r n seq t0 [v]) s = .next ((s.bump Reg.HST_ING_RING).count 5 8 1)) ∧
  (∀ (s : State) (r n seq t0 : Nat) (xs : List Nat) (x : Stream), s.stream n = some x → x.ring = none ∨ x.ring = some r →
    s.on Reg.HST_ING_STAT_UNANCH = false → s.shelfOf t0 ≤ (s.time : Int) + 100000 →
    (seqCheck x.lastSeq seq).or (if x.anySeq = true then some false else none) = some false → xs ≠ [] →
    exec (.traceRecord r n seq t0 xs) s = .next ((
      let u := s.add Reg.HST_ING_GAP (xs.countP (· == 0x8000))
      let pos := s.shelfOf t0 / 1000
      let a := xs.zipIdx.foldl (fun a e => putSample a (pos + (e.2 * 2 ^ x.rate : Nat)) x.rate e.1) (0, x.win)
      let v := if a.1 = 0 then u else u.bump Reg.HST_ING_OLD
      let time := max x.time ((pos + (xs.length * 2 ^ x.rate : Nat)).toNat * 1000)
      let y : Stream := { x with lastSeq := some seq, anySeq := false, ring := some r, win := trimWin a.2 (time / 1000), time := time, unanch := false, state := v.lagState time }
      let ps : List Int := xs.zipIdx.map fun e => pos + ((e.2 * 2 ^ x.rate : Nat) : Int)
      let w := v.lateHistory n { y with win := a.2 } ((ps.filter fun p => decide (0 ≤ p)).flatMap fun p => [p.toNat / 25 * 25, (p.toNat + 2 ^ x.rate - 1) / 25 * 25])
      (((w.putStream n y).ingMod fun i => { i with ringTime := Tab.put i.ringTime n w.time, lastRec := Tab.put i.lastRec x.tb (n, x.win) }).lossCheck).count 5 7 1).carried r s.ing)) ∧
  (∀ (s : State) (r n die tray slot cls rate : Nat), s.stream n = none → exec (.bind r n 1 die tray slot cls rate) s = .next (
    let u := s.ingMod fun i => { i with streams := Tab.drop i.streams fun k => decide (n ≤ k ∧ k < n + 1) }
    let v := u.putStream n { dieid := (die + (n - n)) % 2 ^ 64, tray := tray, slot := slot + (n - n), dclass := cls, rate := rate,
                             tb := u.chooseTb tray 1 [], state := 1, time := 0, lead := n, order := u.ing.nextOrder + (n - n) }
    (((v.ingMod fun i => { i with nextOrder := i.nextOrder + 1 }).logC (.host r) 5 0 0x1002 1 n 0 die).recap.carried r s.ing))) ∧
  (∀ (s : State) (r n t reason : Nat), let u := s.logC (.host r) 5 0 0x1002 1 n 0 reason
    ((s.shelfOf t).toNat ≤ u.time → exec (.leave r n 1 t reason) s = .next ((u.unbind n 1).carried r s.ing)) ∧
    (u.time < (s.shelfOf t).toNat → exec (.leave r n 1 t reason) s = .next ((u.ingMod fun i =>
      { i with leaves := (i.leaves.filter fun l => l.1 != n) ++ [(n, (s.shelfOf t).toNat, reason)] }).carried r s.ing))) ∧
  (∀ (s : State) (n : Nat) (x : Stream) (reason : Nat), s.stream n = some x → s.unbind n reason = (
    let u := s.ingMod fun i => { i with streams := Tab.del i.streams n, leaves := i.leaves.filter fun l => l.1 != n }
    ((u.bump Reg.HST_ING_LEFT).evt 1 0x0120 (le 2 n ++ le 1 reason ++ le 1 x.state ++ le 8 x.dieid)).recap.lossCheck)) ∧
  (∀ (s : State) (n a reason : Nat), (n, a, reason) ∈ s.ing.leaves → a ≤ s.time →
    exec (.leaveTimeReached n) s = .next (s.unbind n 1)) ∧
  (∀ (s : State) (r n : Nat) (e : SchedRec) (x : Stream), s.stream n = some x → exec (.sched r n 1 [e]) s = .next (
    let u := s.ingMod fun i => { i with sched := s.schedHeld }
    (u.schedOne { stream := n, start := (u.shelfOf e.t).toNat,
                  stop := if e.dur = 0 then none else some (u.shelfOf e.t + (e.dur * 1000 : Nat)).toNat,
                  kind := e.kind, kclass := e.kclass, level := e.level, arg := e.arg }).carried r s.ing)) ∧
  (∀ (s : State) (r n t : Nat) (x : Stream), s.stream n = some x → exec (.cancel r n 1 t) s = .next
    ((s.ingMod fun i => { i with sched := i.sched.filter fun f =>
      !(List.contains [n] f.stream && decide (s.shelfOf t ≤ (f.start : Int))) }).carried r s.ing)) ∧
  (∀ (s : State) (n : Nat) (x : Stream), s.stream n = some x → x.state ≠ 1 → exec (.streamLagChange n) s = .next
    ((s.putStream n { x with state := s.lagState x.time }).lossCheck)) ∧
  (∀ (s : State) (n : Nat) (x : Stream), s.stream n = some x → x.state = 4 → s.on Reg.HST_ING_STAT_LOST = false →
    exec (.streamSilenceTimeout n) s = .next (s.unbind n 2)) ∧
  (∀ s : State, s.on Reg.HST_PTM_STAT_VALID = false → exec .unanchorTimeout s = .next (s.set Reg.HST_ING_STAT_UNANCH 1)) ∧
  (∀ (s : State) (t : Nat), t % 25 = 0 → (t + 25) * 1000 ≤ s.time → exec (.historySample t) s = .next
    (s.ingMod fun i => { i with hist := i.streams.foldl (fun h e => (e.2.tb * 8192 + e.1, t, e.2.hist25 t) :: h) i.hist }))

/-- The host's accesses to BAR0 (R8, R11, R88, R99, R313, R326, R565, R588, R591 to R595, R603, R606). -/
def Obligations.RegisterAccess : Prop :=
  (∀ (s : State) (v : Nat), s.barUp = true → s.stage ≠ 0xE → s.glb.hostUp = true →
    exec (.registerWrite 0xF0 4 v) s = .next (s.set Reg.GLB_SCRATCH (v % 2 ^ 32)).settle) ∧
  (∀ (s : State) (off size v : Nat), s.barUp = true → s.stage ≠ 0xE → s.glb.hostUp = true → off < 0x200000 →
    ¬ (size = 4 ∧ off % 4 = 0) → ¬ (size = 8 ∧ off % 8 = 0) →
    exec (.registerWrite off size v) s = .next (s.set Reg.GLB_STAT_BADWR 1).settle) ∧
  (∀ (s : State) (off size v : Nat), s.barUp = true → s.stage ≠ 0xE → s.glb.hostUp = false →
    exec (.registerWrite off size v) s = .next (s.bump Reg.GLB_EARLYWR).settle) ∧
  (∀ (s : State) (v : Nat), s.barUp = true → s.stage ≠ 0xE → s.glb.hostUp = true → s.on (Reg.HST_RSTAT_EN (s.get Reg.HST_RSEL_RING)) = true →
    exec (.registerWrite 0x10018 4 v) s = .next
      ((s.logC regOrigin 1 0 0 1 0x18 (s.stored 0x10018 (s.get Reg.HST_RSEL_RING) &&& ((regRow 0x10018).elim 0 rwMask))
        (v % 2 ^ 32 &&& ((regRow 0x10018).elim 0 rwMask))).set Reg.HST_STAT_CFGLOCK 1).settle) ∧
  (∀ (s : State) (o v : Nat), s.hostOpen → o < 0x100000 →
    exec (.registerWrite (0x200000 + o) 4 v) s = .next (s.doorbell (o / 0x40) v (o % 0x40 == 0)).settle) ∧
  (∀ (s : State) (n k v : Nat), s.hostOpen → n < 2048 → k < 4 →
    exec (.registerWrite (0x300000 + 16 * n + 4 * k) 4 v) s = .next (({ s with hst := { s.hst with
      msix := Tab.put s.hst.msix n ((Tab.get s.hst.msix n {}).put k (v % 2 ^ 32)) } } : State).msixFlush).settle) ∧
  (∀ (s : State) (off size v : Nat), s.hostOpen → 0x400000 ≤ off → exec (.registerWrite off size v) s = .next s.settle) ∧
  (∀ (s : State) (off : Nat), s.barUp = true → off % 4 = 0 →
    exec (.registerReadClear off 4) s = .next ((s.readClear off).emit (.read (s.busReg off)))) ∧
  (∀ (s : State) (off size : Nat), s.barUp = true → (size = 1 ∨ size = 2) ∧ off % 4 + size ≤ 4 →
    exec (.registerReadClear off size) s = .next ((s.readClear (off / 4 * 4)).emit
      (.read (bits (s.busReg (off / 4 * 4)) (8 * (off % 4)) (8 * size))))) ∧
  (∀ (s : State) (off : Nat), s.barUp = true → off % 8 = 0 →
    exec (.registerReadClear off 8) s = .next (((s.readClear off).readClear (off + 4)).emit
      (.read (s.busReg off + s.busReg (off + 4) * 2 ^ 32)))) ∧
  (∀ (s : State) (off size : Nat), s.barUp = true → (size = 4 ∧ off % 4 ≠ 0 ∨ size = 8 ∧ off % 8 ≠ 0 ∨ 8 < size) →
    exec (.registerReadClear off size) s = .next
      (({ s with hst := { s.hst with aer := s.hst.aer ||| 0x8000, aerCor := s.hst.aerCor ||| 0x2000 } } : State).emit .abort)) ∧
  (∀ (s : State) (q off : Nat), s.barUp = true → isLo off = true → exec (.loReadCapture q off) s = .next
    (({ s with hst := { s.hst with holding := Tab.put s.hst.holding (q * 2 ^ 20 + off + 4) (s.busReg (off + 4)) } } : State).emit
      (.read (s.busReg off)))) ∧
  (∀ (s : State) (q off v : Nat), s.barUp = true → isLo off = false → isHi off = true →
    Tab.find s.hst.holding (q * 2 ^ 20 + off) = some v → exec (.loReadCapture q off) s = .next
    (({ s with hst := { s.hst with holding := Tab.del s.hst.holding (q * 2 ^ 20 + off) } } : State).emit (.read v))) ∧
  (∀ (s : State) (n c : Nat) (hi : Bool) (v : Nat), s.hostOpen → n < 6 → c < setCounters n → s.on (Reg.PRF_SEL_EN n c) = true →
    s.on Reg.PRF_CTL_FRZ = false → exec (.counterWrite n c hi v) s = .next (s.set Reg.PRF_STAT_WIGN 1)) ∧
  (∀ (s : State) (n c lo v : Nat), s.hostOpen → n < 6 → c < setCounters n → s.on (Reg.PRF_SEL_EN n c) = false →
    exec (.counterWrite n c false lo) s = .next { s with prf := { s.prf with lo := Tab.put s.prf.lo (8 * n + c) (lo % 2 ^ 32) } } ∧
    exec (.counterWrite n c true v) s = .next (
      let u := s.set (Reg.PRF_CNT n c) (Tab.get s.prf.lo (8 * n + c) (s.get (Reg.PRF_CNT n c) % 2 ^ 32) + v % 65536 * 2 ^ 32)
      { u with prf := { u.prf with lo := Tab.del s.prf.lo (8 * n + c) } })) ∧
  (∀ (s : State) (v : Nat), s.barUp = true → s.stage ≠ 0xE → s.glb.hostUp = true →
    exec (.startModeWrite v) s = .next (let u := s.plainWrite 0x38 v
      if u.stage = 6 ∧ u.on Reg.GLB_START_MODE ∧ u.roleRow = 1 then { u with glb := { u.glb with roleDue := true } } else u)) ∧
  (∀ (s : State) (v : Nat), s.barUp = true → s.stage ≠ 0xE → s.glb.hostUp = true → bit v 0 = true → s.token = false →
    s.upd.plan = none → bits v 16 16 = 0xF17E → s.col.resetWait = none → exec (.flyleafRequest v) s = .next (
      let u := s.logC regOrigin 1 0 0 0 0x30 0 1
      let u : State := { u with glb := { u.glb with flyNext := true } }
      if u.col.resetWait.isSome then u else u.colMod fun c => { c with resetWait := some 4, committing := true })) ∧
  (∀ (s : State) (v : Nat), s.barUp = true → s.stage ≠ 0xE → s.glb.hostUp = true → bit v 0 = true → s.token = true →
    exec (.flyleafRequest v) s = .next ((s.set Reg.GLB_STAT_FLYREF 1).set Reg.GLB_STAT_FLYWHY 1)) ∧
  (∀ (s : State) (hi : Bool) (v : Nat), s.hostOpen → exec (.linkMapWrite hi v) s = .next (
    let p := s.pendOf Reg.STL_LMAP
    let w := if hi then v % 256 else v
    (s.later Reg.STL_LMAP (putBits p (if hi then 32 else 0) 32 w) .period).logC regOrigin 1 0 0 4 (if hi then 0x50 else 0x4C)
      (bits p (if hi then 32 else 0) 32) w)) ∧
  (∀ (s : State) (off v : Nat), s.hostOpen → chsMask off ≠ 0 → off ≠ 0x80 → s.chs.lists.length < 16 →
    s.listBad { check := 0, hold := 1, chkv := 0,
                steps := [[{ type := 4, first := off, value := v &&& chsMask off, mask := chsMask off, last := 0 }]] } = none →
    exec (.chsRegisterWrite off v) s = .next (s.listStage 0xFFFF 0 off (s.stored (0x30000 + off) 0) (v &&& chsMask off) false
      { check := 0, hold := 1, chkv := 0,
        steps := [[{ type := 4, first := off, value := v &&& chsMask off, mask := chsMask off, last := 0 }]] }).2) ∧
  (∀ (s : State) (off v : Nat), s.hostOpen → chsMask off ≠ 0 → off ≠ 0x80 → 16 ≤ s.chs.lists.length →
    exec (.chsRegisterWrite off v) s = .next (s.wref off 0x10)) ∧
  (∀ (s : State) (w v : Nat), s.hostOpen → exec (.fesumClear w v) s = .next ((List.range 32).foldl (fun a j =>
    if bit v j && a.feOn (32 * w + j) then
      if a.inSvc (32 * w + j) && !(a.loop (32 * w + j)).isOpen && (a.bank (32 * w + j) (a.loop (32 * w + j)).act).fel != 0 &&
          decide ((a.bank (32 * w + j) (a.loop (32 * w + j)).act).fel < (a.loop (32 * w + j)).e.natAbs) then
        a.set Reg.CHS_FESTAT_CAUSE 1
      else a.set (Reg.CHS_FESUM w) (a.get (Reg.CHS_FESUM w) - 2 ^ j)
    else a) s))

/-- Errata (R38, R471, R477 to R479, R482 to R485): detector events, ALIVE, clears, unlock and injection. -/
def Obligations.ErrataCommands : Prop :=
  (∀ (s : State) (n e p : Nat) (b : Bool), (detInfo n).level = true →
    exec (.detectorEvent n e p b) s = .next (s.level n e p b).settle) ∧
  (∀ (s : State) (n e p : Nat), (detInfo n).level = false →
    exec (.detectorEvent n e p true) s = .next (s.raise n e p).settle ∧ exec (.detectorEvent n e p false) s = .next s.settle) ∧
  (∀ s : State, exec .keepTimeout s = .next (({ s with era := { s.era with keep := false } } : State).raise (detN 0 7) 0 0)) ∧
  (∀ (s : State) (b : Bool), s.era.keep = true → s.halted = false → 1 ≤ s.stage → s.stage ≠ 0xE → s.glb.lossStep = 0 →
    exec (.aliveToggle b) s = .next
      ((({ s with glb := { s.glb with alive := !s.glb.alive } } : State).emit (.pin .alive (!s.glb.alive))).level (detN 0 5) 0 0
        (b != !s.glb.alive))) ∧
  (∀ (s : State) (b : Bool), s.era.keep = false ∨ s.halted = true → exec (.aliveToggle b) s = .next
    ((({ s with glb := { s.glb with alive := false } } : State).emit (.pin .alive false)).level (detN 0 5) 0 0 b)) ∧
  (∀ (s : State) (w v : Nat), s.hostOpen → exec (.eraDstatClear w v) s = .next
    ((s.clearDets (((List.range 32).filter fun j => bit v j).map fun j => 32 * w + j) 0xFFFF).2.leaveHalted)) ∧
  (∀ s : State, s.on Reg.ERA_STAT_UNLOCKED = true → exec .unlockExpiry s = .next
    ((((s.set Reg.ERA_STAT_UNLOCKED 0).set Reg.ERA_STAT_ULEVEL 0).withdrawAll (fun _ => true) 0x10000).logC (.fw 0) 7 0 0x0907 8 0 1 0)) ∧
  (∀ (s : State) (n : Nat), exec (.injectionHoldExpiry n) s = .next
    ((s.era.injections.filter fun x => x.det == n && x.mode == 1 && x.left != 0).foldl (fun a x => a.withdraw x 0x10000) s)) ∧
  (∀ (s : State) (x : Injection) (n : Nat),
    s.era.injections.find? (fun y => y.det == n && y.mode == 2 && y.spacing != 0 && y.left != 0) = some x → x.left ≠ 1 →
    exec (.injectedOccurrence n) s = .next ((({ s with era := { s.era with injections := s.era.injections.map fun z =>
      if z.number = x.number then { x with left := x.left - 1 } else z } } : State).drive x.det x.param
      (decide (x.spacing * 1000 ≤ s.checkNs n))).settle)) ∧
  (∀ (s : State) (i unit : Nat) (again : Bool), i ≤ 10 → s.drive (detN 2 i) unit again = s.crossingMiss i (!again) true) ∧
  (∀ (s : State) (t unit : Nat) (again : Bool), t < 4 →
    s.drive (detN (8 + t) 0) unit again = (s.discardTb t).raise (detN (8 + t) 0) 0 unit true) ∧
  (∀ (s : State) (n unit : Nat) (again : Bool), (n / 16 = 0 ∨ 13 ≤ n / 16) → s.drive n unit again = s.raise n 0 unit true) ∧
  (∀ (s : State) (r : Nat) (d : Desc), s.serves 0 r 0x0902 d { priv := 1, parOk := decide (bits d.p0 0 9 ≤ 383 ∨ bits d.p0 0 9 = 0x1FF) } →
    exec (.eraClear r d) s = .next (
      let n := bits d.p0 0 9
      let p := (s.beginDesc r 0x0902 d).clearDets (if n = 0x1FF then List.range 384 else [n]) r
      p.2.leaveHalted.completeLate r 0x0902 d (if p.1 = 0 then 0 else 0x1B) 0 p.1)) ∧
  (∀ (s : State) (r : Nat) (d : Desc), s.serves 0 r 0x0903 d { priv := 2, standby := true, parOk := decide (d.p0 ≤ 383 ∧ d.p1 ≤ 2) } →
    d.p1 = 0 ∨ (detInfo d.p0).cls ≤ d.p1 → exec (.eraClass r d) s = .next (
      let u := s.beginDesc r 0x0903 d
      let p := u.stage1 r 8 0x0903 d.p0 (u.get (Reg.ERA_DINFO_CLASS d.p0)) d.p1 u.leadPeriod (.detClass d.p0 d.p1)
      p.2.completeLate r 0x0903 d 2 0 p.1)) ∧
  (∀ (s : State) (r : Nat) (d : Desc),
    s.serves 0 r 0x0904 d { priv := 3, buf := .reads, lenOk := fun n => 16 ≤ n, parOk := decide (d.p0 = 1 ∨ d.p0 = 2) } →
    s.on Reg.ERA_STAT_LOCKOUT = false → (if d.p0 = 1 then s.nv.injKey1 else s.nv.injKey2) = some ((bufBytes d).take 16) →
    exec (.eraUnlock r d) s = .next (
      let u := ((s.beginDesc r 0x0904 d).set Reg.ERA_STAT_UNLOCKED 1).set Reg.ERA_STAT_ULEVEL d.p0
      (u.logC (.host r) 7 0 0x0904 8 0 0 d.p0).completeLate r 0x0904 d 0 d.len 0)) ∧
  (∀ (s : State) (r : Nat) (d : Desc),
    s.serves 0 r 0x0904 d { priv := 3, buf := .reads, lenOk := fun n => 16 ≤ n, parOk := decide (d.p0 = 1 ∨ d.p0 = 2) } →
    s.on Reg.ERA_STAT_LOCKOUT = true → exec (.eraUnlock r d) s = .next (
      let u := s.beginDesc r 0x0904 d
      let rs := (u.time :: u.era.refusals).filter fun t => decide (u.time < t + 600000000000)
      (({ u with era := { u.era with refusals := rs } } : State).raise (detN 23 0) 0 d.p0).completeLate r 0x0904 d 0x1E 0 3)) ∧
  (∀ (s : State) (r : Nat) (d : Desc),
    s.serves 0 r 0x0905 d { priv := 3, parOk := decide (bits d.p0 0 9 ≤ 383) && (bits d.p0 12 2 == 0 ||
      (bits d.p0 12 2 == 1 && (detInfo (bits d.p0 0 9)).level) || (bits d.p0 12 2 == 2 && !(detInfo (bits d.p0 0 9)).level)) } →
    s.on Reg.ERA_STAT_UNLOCKED = true → s.get Reg.ERA_STAT_ULEVEL ≠ 1 → s.era.injections = [] →
    (s.det (bits d.p0 0 9)).cause = false → exec (.eraInject r d) s = .next (
      let u := s.beginDesc r 0x0905 d
      (u.inject (bits d.p0 0 9) (bits d.p0 12 2) d.p1 d.p2 r).completeLate r 0x0905 d 0 0 (u.era.nextInj % 2 ^ 32))) ∧
  (∀ (s : State) (r : Nat) (d : Desc), s.serves 0 r 0x0906 d { priv := 3, parOk := decide (d.p0 ≤ 383 ∨ d.p0 = 0x1FF) } →
    exec (.eraWithdraw r d) s = .next (((s.beginDesc r 0x0906 d).withdrawAll (fun x => d.p0 == 0x1FF || x.det == d.p0) r).completeLate
      r 0x0906 d 0 0 0)) ∧
  (∀ (s : State) (r : Nat) (d : Desc), s.serves 0 r 0x0907 d { priv := 3 } →
    exec (.eraLock r d) s = .next (((s.beginDesc r 0x0907 d).lock r).completeLate r 0x0907 d 0 0 0))

/-- The queries that read registers (R177, R269, R291, R329, R385, R441, R485, R512, R537, R560, R583): on a ring that serves
one, its buffer takes the registers in the order of its table, with zeros behind them, and it completes OK with DONE the length of
the image; nothing else of the module changes. -/
def Obligations.RegisterQueries : Prop :=
  (∀ (s : State) (r : Nat) (d : Desc), s.serves 0 r 0x0201 d { priv := 0, buf := .writes, lenOk := fun n => 64 ≤ n } →
    exec (.pressQuery r d) s = .next ((s.imaged r 0x0201 d 64 ((s.beginDesc r 0x0201 d).regBytes ([0x20000, 0x20004, 0x20008, 0x2000C] ++
      (List.range 4).flatMap fun t => [0x20100 + 0x40 * t, 0x20104 + 0x40 * t, 0x20108 + 0x40 * t]))).completeLate r 0x0201 d 0 64 0)) ∧
  (∀ (s : State) (r : Nat) (d : Desc), s.serves 0 r 0x0405 d { priv := 0, buf := .writes, lenOk := fun n => 64 ≤ n } →
    exec (.trainQuery r d) s = .next ((s.imaged r 0x0405 d 64 ((s.beginDesc r 0x0405 d).regBytes ((List.range 10).map fun i => 0x2300C + 4 * i))).completeLate r 0x0405 d 0 64 0)) ∧
  (∀ (s : State) (r : Nat) (d : Desc), s.serves 0 r 0x0500 d { priv := 0, buf := .writes, lenOk := fun n => decide (64 ≤ n) } →
    exec (.chaseQuery r d) s = .next ((s.imaged r 0x0500 d 64 ((s.beginDesc r 0x0500 d).regBytes ([0x30004, 0x30008, 0x30010, 0x30014, 0x30020, 0x3002C, 0x30040, 0x30044, 0x30048, 0x3004C]))).completeLate r 0x0500 d 0 64 0)) ∧
  (∀ (s : State) (r : Nat) (d : Desc), s.serves 0 r 0x0700 d { priv := 0, buf := .writes, lenOk := fun n => 64 ≤ n } →
    exec (.fennalQuery r d) s = .next ((s.imaged r 0x0700 d 64 ((s.beginDesc r 0x0700 d).regBytes ([0x60008, 0x6000C, 0x60010, 0x60018, 0x6001C, 0x60020, 0x60024, 0x60028, 0x6002C, 0x6010C,
      0x60114, 0x60118]))).completeLate r 0x0700 d 0 64 0)) ∧
  (∀ (s : State) (r : Nat) (d : Desc), s.serves 0 r 0x0801 d { priv := 0, buf := .writes, lenOk := fun n => 1536 ≤ n } →
    exec (.cellRead r d) s = .next ((s.imaged r 0x0801 d 1536 ((s.beginDesc r 0x0801 d).regBytes ((List.range 384).map fun i => 0x51000 + 0x800 * bits d.p0 0 2 + 4 * i))).completeLate r 0x0801 d 0 1536 0)) ∧
  (∀ (s : State) (r : Nat) (d : Desc), s.serves 0 r 0x0900 d { priv := 0, buf := .writes, lenOk := fun n => 64 ≤ n } →
    exec (.eraQuery r d) s = .next ((s.imaged r 0x0900 d 64 ((s.beginDesc r 0x0900 d).regBytes ([0x80008, 0x8000C, 0x80010, 0x80014] ++ (List.range 12).map fun w => 0x80100 + 4 * w))).completeLate r 0x0900 d 0 64 0)) ∧
  (∀ (s : State) (r : Nat) (d : Desc), s.serves 0 r 0x0E00 d { priv := 0, buf := .writes, lenOk := fun n => decide (64 ≤ n) } →
    exec (.seatQuery r d) s = .next ((s.imaged r 0x0E00 d 64 ((s.beginDesc r 0x0E00 d).regBytes ([0x70008, 0x7000C, 0x70010, 0x70014, 0x70018, 0x7001C, 0x70020, 0x70024, 0x70028] ++
      [0x70040, 0x70044, 0x70048, 0x7004C, 0x70050, 0x70054, 0x70058]))).completeLate r 0x0E00 d 0 64 0)) ∧
  (∀ (s : State) (r : Nat) (d : Desc), s.serves 0 r 0x0A00 d { priv := 0, buf := .writes, lenOk := fun n => 256 ≤ n } →
    exec (.colQuery r d) s = .next ((s.imaged r 0x0A00 d 256 ((s.beginDesc r 0x0A00 d).regBytes ([0x90008, 0x9000C, 0x90010, 0x90014] ++
      (List.range 5).flatMap fun t => (List.range 6).map fun k => 0x90100 + 0x20 * t + 4 * k))).completeLate r 0x0A00 d 0 256 0)) ∧
  (∀ (s : State) (r : Nat) (d : Desc), s.serves 0 r 0x0B00 d { priv := 0, buf := .writes, lenOk := fun n => decide (64 ≤ n) } →
    exec (.updQuery r d) s = .next ((s.imaged r 0x0B00 d 64 ((s.beginDesc r 0x0B00 d).regBytes ([0xA0008] ++ ((List.range 6).map fun t => 0xA0020 + 4 * t) ++
      (List.range 6).map fun t => 0xA0040 + 4 * t))).completeLate r 0x0B00 d 0 64 0)) ∧
  (∀ (s : State) (r : Nat) (d : Desc), s.serves 0 r 0x0D00 d { priv := 0, buf := .writes, lenOk := fun n => decide (64 ≤ n) } →
    exec (.spareQuery r d) s = .next ((s.imaged r 0x0D00 d 64 ((s.beginDesc r 0x0D00 d).regBytes ([0xC0008, 0xC000C] ++ (List.range 10).map fun k => 0xC0100 + 4 * k))).completeLate r 0x0D00 d 0 64 0))

/-- The queries that read more than registers (R177, R241, R238, R269, R329, R359, R413, R441, R465, R485, R512, R537, R560): the
image each writes, and its completion. -/
def Obligations.TableQueries : Prop :=
  (∀ (s : State) (r : Nat) (d : Desc),
    s.serves 0 r 0x0202 d { priv := 3, buf := .writes, lenOk := fun n => 64 ≤ n && n ≤ 1048576 && n % 64 == 0, parOk := memOff d % 64 == 0 && decide (memOff d + d.len ≤ dramSize) } →
    bit (s.get Reg.PRS_STAT_TBSVC) (bits d.p0 0 2) = true → exec (.memRead r d) s = .next (
      let u := s.beginDesc r 0x0202 d
      let t := bits d.p0 0 2
      let ps := u.poisonedIn t (memOff d) d.len
      let data := (List.range d.len).map fun k =>
        if ps.contains (dramAddr t (memOff d + k / 8 * 8)) then 0 else u.pbyte (dramAddr t (memOff d + k))
      (u.dmaOut d.addr data).completeLate r 0x0202 d 0 d.len ps.length)) ∧
  (∀ (s : State) (r : Nat) (d : Desc),
    s.serves 0 r 0x0202 d { priv := 3, buf := .writes, lenOk := fun n => 64 ≤ n && n ≤ 1048576 && n % 64 == 0, parOk := memOff d % 64 == 0 && decide (memOff d + d.len ≤ dramSize) } →
    bit (s.get Reg.PRS_STAT_TBSVC) (bits d.p0 0 2) = false →
    exec (.memRead r d) s = .next ((s.beginDesc r 0x0202 d).completeLate r 0x0202 d 0x17 0 0)) ∧
  (∀ (s : State) (r : Nat) (d : Desc), s.serves 0 r 0x0216 d { priv := 0, buf := .writes, lenOk := fun n => 64 ≤ n } →
    (s.slotX (bits d.p0 0 8)).forme = none → exec (.formeQuery r d) s = .next (
      let x := (s.beginDesc r 0x0216 d).slotX (bits d.p0 0 8)
      (s.imaged r 0x0216 d 64 (le 1 (bits d.p0 0 8) ++ le 1 x.code ++ le 1 0 ++ le 1 (x.var.getD 0xFF) ++ le 1 (b2n x.en) ++ zeros 3 ++
        le 4 0 ++ le 4 0 ++ le 4 x.wcyc ++ le 4 x.lastCyc ++ le 4 x.runs ++ le 4 x.abandoned ++ le 4 0 ++ le 4 0 ++ [])).completeLate
          r 0x0216 d 0 64 0)) ∧
  (∀ (s : State) (r : Nat) (d : Desc), s.serves 0 r 0x0218 d { priv := 0, buf := .writes, lenOk := fun n => 48 ≤ n } →
    exec (.formeDigest r d) s = .next
      ((s.imaged r 0x0218 d 48 (s.beginDesc r 0x0218 d).modelDigest).completeLate r 0x0218 d 0 48 0)) ∧
  (∀ (s : State) (r : Nat) (d : Desc), s.serves 0 r 0x0300 d { priv := 0, buf := .writes, lenOk := fun n => 128 ≤ n } →
    s.gal.plan = none → s.gal.planWait = [] → exec (.galleyQuery r d) s = .next (
      let u := s.beginDesc r 0x0300 d
      (s.imaged r 0x0300 d 128 (le 8 (u.get Reg.PRS_GAL_CYC) ++ le 1 (u.gal.govP.getD 0xFF) ++ le 1 (u.gal.govI.getD 0xFF) ++
        le 1 (u.get Reg.PRS_GAL_STAT_BLIND) ++ le 1 (u.get Reg.PRS_GAL_STAT_RB) ++ le 4 0 ++
        le 1 (if u.gal.planStale then 3 else 0) ++ zeros 3 ++ le 4 u.sigma ++ zeros 8 ++ u.gal.entries.flatMap Entry.image)).completeLate
          r 0x0300 d 0 128 0)) ∧
  (∀ (s : State) (r : Nat) (d : Desc), s.serves 0 r 0x0503 d { priv := 0, buf := .writes, lenOk := fun n => decide (32 * d.p1 ≤ n), parOk := decide (1 ≤ d.p1 ∧ d.p1 ≤ 166 ∧ d.p0 + d.p1 ≤ 166 ∧ d.p2 ≤ 1) } → 1 ≤ d.p1 →
    exec (.bankRead r d) s = .next ((s.imaged r 0x0503 d (32 * d.p1)
      ((List.range d.p1).flatMap fun k => (s.beginDesc r 0x0503 d).bankBytes (d.p0 + k) d.p2)).completeLate r 0x0503 d 0 (32 * d.p1) 0)) ∧
  (∀ (s : State) (r : Nat) (d : Desc), s.serves 0 r 0x0600 d { priv := 0, buf := .writes, lenOk := fun n => decide (16 * d.p1 ≤ n), parOk := decide (1 ≤ d.p1 ∧ d.p1 ≤ 156 ∧ d.p0 + d.p1 ≤ 156) } → 1 ≤ d.p1 →
    exec (.phaseQuery r d) s = .next ((s.imaged r 0x0600 d (16 * d.p1) ((List.range d.p1).flatMap fun k =>
      (s.beginDesc r 0x0600 d).regBytes [0x40084, 0x40088, 0x4008C, 0x40094] (d.p0 + k))).completeLate r 0x0600 d 0 (16 * d.p1) 0)) ∧
  (∀ (s : State) (r : Nat) (d : Desc), s.serves 0 r 0x0710 d { priv := 0, buf := .writes, lenOk := fun n => 128 ≤ n } →
    s.grp.inForce = none → exec (.groupQuery r d) s = .next (
      let u := s.beginDesc r 0x0710 d
      (s.imaged r 0x0710 d 128 (le 4 (u.read 0x6021C 0) ++ le 4 (u.get Reg.FEN_GRP_CNUM) ++ le 4 0 ++ le 4 u.sigma ++
        u.regBytes [0x30204, 0x30208, 0x3020C, 0x30210] ++ u.rackVals.flatMap (le 4) ++ (List.replicate 8 0).flatMap (le 4) ++
        le 4 u.chs.rmp.f ++ le 4 (u.read 0x60228 0) ++ le 4 u.grp.noticeMax ++ le 4 (u.get Reg.CHS_RMP_OUT))).completeLate
          r 0x0710 d 0 128 0)) ∧
  (∀ (s : State) (r : Nat) (d : Desc), s.serves 0 r 0x0800 d { priv := 0, buf := .writes, lenOk := fun n => 64 ≤ n } →
    exec (.bupRingQuery r d) s = .next (
      let u := s.beginDesc r 0x0800 d
      (s.imaged r 0x0800 d 64 (le 4 (u.read 0x50024 0) ++ u.regBytes ((List.range 8).map fun k =>
        0x50100 + 0x40 * bits d.p0 0 2 + 4 * k))).completeLate r 0x0800 d 0 64 0)) ∧
  (∀ (s : State) (r : Nat) (d : Desc), s.serves 0 r 0x0810 d { priv := 0, buf := .writes, lenOk := fun n => 64 ≤ n } →
    exec (.estQuery r d) s = .next (
      let u := s.beginDesc r 0x0810 d
      (s.imaged r 0x0810 d 64 (le 4 (u.read 0x54020 0) ++ u.regBytes ((List.range 8).map fun k =>
        0x54100 + 0x20 * bits d.p0 0 2 + 4 * k))).completeLate r 0x0810 d 0 64 0)) ∧
  (∀ (s : State) (r : Nat) (d : Desc), s.serves 0 r 0x0812 d
      { priv := 0, buf := .writes, lenOk := fun n => decide (tableLen d.p0 ≤ n), parOk := decide (d.p0 ≤ 2) } → tableLen d.p0 ≠ 0 →
    exec (.estTableRead r d) s = .next (
      let u := s.beginDesc r 0x0812 d
      (s.imaged r 0x0812 d (tableLen d.p0) (if d.p0 = 0 then u.socTab.bytes else if d.p0 = 1 then u.impTab.bytes
        else (u.strTab (bits d.p1 0 2)).bytes)).completeLate r 0x0812 d 0 (tableLen d.p0) 0)) ∧
  (∀ (s : State) (r : Nat) (d : Desc), s.serves 0 r 0x0814 d { priv := 0, buf := .writes, lenOk := fun n => 256 ≤ n } →
    exec (.estRecords r d) s = .next
      ((s.imaged r 0x0814 d 256 ((s.beginDesc r 0x0814 d).est.recs.flatMap StrRec.head)).completeLate r 0x0814 d 0 256 0)) ∧
  (∀ (s : State) (r : Nat) (d : Desc), s.serves 0 r 0x0901 d
      { priv := 0, buf := .writes, lenOk := fun n => 32 ≤ n, parOk := decide (bits d.p0 0 9 ≤ 383) } →
    exec (.eraDetail r d) s = .next (
      let u := s.beginDesc r 0x0901 d
      let n := bits d.p0 0 9
      (s.imaged r 0x0901 d 32 (le 4 (u.read 0x8001C n) ++ le 8 (u.get (Reg.ERA_DFIRST n)) ++ le 8 (u.get (Reg.ERA_DLAST n)) ++
        le 4 (u.get (Reg.ERA_DPARAM n)) ++ le 4 (u.checkNs n / 1000) ++
        le 1 (b2n (u.det n).cause + 2 * b2n (u.era.injections.any fun x => x.det == n)))).completeLate r 0x0901 d 0 32 0)) ∧
  (∀ (s : State) (r : Nat) (d : Desc), s.serves 0 r 0x0E04 d { priv := 0, buf := .writes, lenOk := fun n => decide (64 ≤ n) } →
    exec (.seatHealth r d) s = .next
      ((s.imaged r 0x0E04 d 64 (s.beginDesc r 0x0E04 d).seatHealth).completeLate r 0x0E04 d 0 64 0)) ∧
  (∀ (s : State) (r : Nat) (d : Desc), s.serves 0 r 0x0A02 d { priv := 0, buf := .writes, lenOk := (16 ≤ ·) } →
    (trigBytes (Tab.get s.col.triggers (bits d.p0 0 6) {})).length ≤ d.len →
    exec (.trigRead r d) s = .next (
      let b := trigBytes (Tab.get (s.beginDesc r 0x0A02 d).col.triggers (bits d.p0 0 6) {})
      (image (s.beginDesc r 0x0A02 d) b.length b).finish r 0x0A02 d)) ∧
  (∀ (s : State) (r : Nat) (d : Desc), s.serves 0 r 0x0A04 d
      { priv := 0, buf := .writes, lenOk := (64 ≤ ·), parOk := decide (2 ≤ d.p0 ∧ d.p0 ≤ 4) } →
    exec (.colRead r d) s = .next (
      let u := s.beginDesc r 0x0A04 d
      let out := wholeRecs d.len ((u.records d.p0).filter fun e => decide (d.p1 + d.p2 * 2 ^ 32 ≤ e.1))
      let b := out.flatMap fun x => x
      let b := fit b.length b
      (if b.isEmpty then u else u.emit (.dma d.addr b)).completeLate r 0x0A04 d 0 (out.flatMap fun x => x).length out.length)) ∧
  (∀ (s : State) (r : Nat) (d : Desc), s.serves 0 r 0x0B09 d { priv := 0, buf := .writes, lenOk := fun n => decide (512 ≤ n), parOk := imgType d.p0 && decide (d.p1 ≤ 1) } → (s.img d.p0 d.p1).st ≠ 0 →
    exec (.hdrRead r d) s = .next
      ((s.imaged r 0x0B09 d 512 ((s.beginDesc r 0x0B09 d).img d.p0 d.p1).hdr).completeLate r 0x0B09 d 0 512 0))

/-- Hierarchy changes (R166 to R169) and SCRUB_NOW (R177): HIER_SET stages a change, the press-cycle boundary at least 1 ms
later imposes it, its steps pass, and a failed one rolls back. -/
def Obligations.HierarchyChanges : Prop :=
  (∀ (s : State) (r : Nat) (d : Desc), s.serves 0 r 0x0203 d { priv := 2, standby := true } → bit (s.get Reg.PRS_STAT_TBSVC) (bits d.p0 0 2) = true →
    exec (.scrubNow r d) s = .next (
      let u := (s.beginDesc r 0x0203 d).logC (.host r) 2 0 0x0203 2 (bits d.p0 0 2) 0 0
      (u.scrubStart (bits d.p0 0 2)).completeLate r 0x0203 d 0 0 0)) ∧
  (∀ (s : State) (r : Nat) (d : Desc), s.serves 0 r 0x0203 d { priv := 2, standby := true } → bit (s.get Reg.PRS_STAT_TBSVC) (bits d.p0 0 2) = false →
    exec (.scrubNow r d) s = .next ((s.beginDesc r 0x0203 d).completeLate r 0x0203 d 0x17 0 0)) ∧
  (∀ (s : State) (r : Nat) (d : Desc) (c : Nat) (st : Staged),
    let u := s.beginDesc r 0x0200 d
    let p := u.stage1 r 2 0x0200 0 (u.get Reg.GLB_HIER_CFG) c 0 .own
    c = bits d.p0 0 4 →
    s.serves 0 r 0x0200 d { priv := 2, standby := true, parOk := decide (1 ≤ c ∧ c ≤ 4 ∧ d.p1 = 0 ∧ d.p2 = 0) } →
    s.pressBusy = false → s.prs.slots.any (fun e => e.2.staged.isSome) = false →
    s.prs.slots.any (fun e => e.2.forme.any fun f => decide (f.kind ≤ 1) && !f.variants.any fun v => v.svc == c) = false →
    svcTbs c ≤ s.tbsGood.length → s.get Reg.GLB_HIER_CFG ≠ c → p.2.staged.find? (fun x => x.no == p.1) = some st →
    exec (.hierSet r d) s = .next (
      ((p.2.prsMod fun q => { q with hier := some { st := st, old := u.get Reg.GLB_HIER_CFG, new := c, at_ := p.2.time + 1000000 } }).set
        Reg.GLB_HIER_TARGET c).completeLate r 0x0200 d 2 0 p.1)) ∧
  (∀ (s : State) (r : Nat) (d : Desc) (c : Nat), c = bits d.p0 0 4 →
    s.serves 0 r 0x0200 d { priv := 2, standby := true, parOk := decide (1 ≤ c ∧ c ≤ 4 ∧ d.p1 = 0 ∧ d.p2 = 0) } →
    s.pressBusy = false → s.prs.slots.any (fun e => e.2.staged.isSome) = false →
    s.prs.slots.any (fun e => e.2.forme.any fun f => decide (f.kind ≤ 1) && !f.variants.any fun v => v.svc == c) = false →
    s.tbsGood.length < svcTbs c →
    exec (.hierSet r d) s = .next ((s.beginDesc r 0x0200 d).completeLate r 0x0200 d 0x1E 0 2)) ∧
  (∀ (s : State) (h : HierChg), s.prs.hier = some h → h.begun = false → s.glb.mgmtDown = false → h.at_ ≤ s.time → s.time % 20000 = 0 → s.hierGrows h = true →
    exec .hierChangeStart s = .next (
      let u := ((((s.unstage h.st.no).set Reg.PRS_STAT_CHGNO (h.st.no % 65536)).set Reg.PRS_STAT_QUIESCED 1).set Reg.PRS_STAT_CHG 1).blindTick false
      let u := u.captureTick
      let add := (u.wanted h.new).filter fun t => !bit (u.get Reg.PRS_STAT_TBSVC) t
      (add.foldl (fun s t => s.set (Reg.PRS_TB_STAT_STATE t) 1) u).prsMod fun p =>
        { p with hier := some { h with begun := true, at_ := u.time, tbs := add, prevTbs := u.tbs, prevStreams := u.ing.streams.map (fun e => (e.1, e.2.tb)) } })) ∧
  (∀ (s : State) (h : HierChg), s.prs.hier = some h → h.begun = true ∨ s.glb.mgmtDown = true ∨ s.time < h.at_ ∨ s.time % 20000 ≠ 0 →
    exec .hierChangeStart s = .next s) ∧
  (∀ (s : State) (h : HierChg), s.prs.hier = some h → h.begun = true →
    exec .hierChangeStepDone s = .next (s.prsMod fun p => { p with hier := some { h with step := min (h.step + 1) (s.hierSteps h) } })) ∧
  (∀ (s : State) (h : HierChg) (reason : Nat), s.prs.hier = some h → h.begun = true → h.why = 0 → h.tbs = [] →
    reason ≠ 3 ∨ h.at_ + 250000000 ≤ s.time →
    exec (.hierRollback reason) s = .next (
      let u := (s.prsMod fun p => { p with hier := none }).serviceBack h
      let u := (((u.set Reg.PRS_STAT_QUIESCED 0).set Reg.PRS_STAT_CHG 0).set Reg.GLB_HIER_TARGET 0).scrubStop
      let u := u.evt 2 0x0201 (le 4 h.st.no ++ le 1 h.step ++ le 1 reason ++ zeros 2 ++ le 4 (u.hierUs h))
      let u := (u.raise (detN 12 8) 0 h.step).changeDone h.st 1 0 0x14
      if reason = 2 then u else u.replaceLater 3)) ∧
  (∀ (s : State) (h : HierChg), s.prs.hier = some h → s.time < h.at_ + 250000000 → exec (.hierRollback 3) s = .next s) ∧
  (∀ (s : State) (t k : Nat), s.prs.quireRepl = some (t, k) →
    exec .replacementQuireInService s = .next (
      let u := (s.prsMod fun p => { p with quireRepl := none }).putService 1 [t]
      (u.serviceChanged (s.get Reg.PRS_STAT_SVC) false).pressUp))

/-- What the checks of the Press find (R153, R154, R158, R159, R171 to R174): leaves, spine ports, barriers, DRAM errors with
their sparing, and the patrol scrub. -/
def Obligations.PressChecks : Prop :=
  (∀ (s : State) (unit : Nat), exec (.leafResidueMismatch unit) s = .next
    (((s.discardTb (unitT unit)).raise (detN (8 + unitT unit) 0) 0 unit).settlePress)) ∧
  (∀ (s : State) (u t : Nat), Tab.find s.prs.leafCrc u = some t → s.time < t + 1000000000 →
    exec (.weightCrcSweep u true) s = .next (
      let v := ((s.discardTb (unitT u)).reloadUnit 1 u).prsMod fun p => { p with leafCrc := Tab.put p.leafCrc u s.time }
      ((v.wearHit 1 0 u 86400000000000 (v.get Reg.SPR_WTHR0_LEAFCRC)).raise (detN (8 + unitT u) 0) 0 u).settlePress)) ∧
  (∀ (s : State) (u : Nat), Tab.find s.prs.leafCrc u = none →
    exec (.weightCrcSweep u true) s = .next (
      let v := ((s.discardTb (unitT u)).reloadUnit 1 u).prsMod fun p => { p with leafCrc := Tab.put p.leafCrc u s.time }
      v.wearHit 1 0 u 86400000000000 (v.get Reg.SPR_WTHR0_LEAFCRC))) ∧
  (∀ (s : State) (u : Nat), exec (.weightCrcSweep u false) s = .next s) ∧
  (∀ (s : State) (port : Nat), exec (.spineError port true) s = .next (s.bump Reg.PRS_SPN_ERR_CE)) ∧
  (∀ (s : State) (port : Nat), exec (.spineError port false) s = .next (
      let n := Tab.get s.prs.spine port 0 + 1
      let u := ((s.spineDrop port).prsMod fun p => { p with spine := Tab.put p.spine port n }).bump Reg.PRS_SPN_ERR_UE
      (u.raise (detN 12 port) (if 3 ≤ n then 1 else 0) port).settlePress)) ∧
  (∀ (s : State) (t level : Nat) (r : Run), s.prs.runs = [r] → level ≠ 4 → (r.tb t).wait = level →
    exec (.barrierRelease t level) s = .next (s.advance r.slot t ((r.tb t).pc + 1))) ∧
  (∀ (s : State) (t : Nat) (r : Run), s.prs.runs = [r] → (r.v.used.all fun u => (r.tb u).wait == 4) = true →
    exec (.barrierRelease t 4) s = .next (r.v.used.foldl (fun s u => s.advance r.slot u ((r.tb u).pc + 1)) s)) ∧
  (∀ (s : State) (t level unit : Nat) (r : Run), s.barrierFirst t level = some r → level ≠ 4 →
    exec (.barrierTimeout t level unit) s = .next (
      let u := s.stopRun r.slot 3
      let k := u.get Reg.PRS_GAL_CYC
      let n := u.barCount level unit k
      let u := u.prsMod fun p => { p with
        barLevel := level
        barNamed := Tab.put (p.barNamed.filter fun e => decide (k ≤ e.2.2 + 1)) (level * 65536 + unit) (n, k) }
      (u.raise (detN (8 + u.physTb t) 4) (if 3 ≤ n then 1 else 0) unit).settlePress)) ∧
  (∀ (s : State) (t bank row off : Nat), s.get Reg.PRS_SCRUB_CTL_CETHR = 0 →
    exec (.dramCorrectable t bank row off 1 false) s = .next (
      (s.bump (Reg.PRS_TB_CE t)).prsMod fun p => { p with ceRows := Tab.put p.ceRows (bankKey t bank * 2 ^ 32 + row) (
        (s.time :: Tab.get s.prs.ceRows (bankKey t bank * 2 ^ 32 + row) []).filter fun x => decide (s.time < x + 86400000000000))})) ∧
  (∀ (s : State) (t bank row off : Nat), Tab.get s.prs.bankRows (bankKey t bank) 0 < 47 →
    Tab.get s.prs.bankRows (bankKey t bank) 0 + Tab.get s.prs.bankBad (bankKey t bank) 0 < 63 →
    exec (.dramCorrectable t bank row off 2 false) s = .next (
      let u := (s.bump (Reg.PRS_TB_CE t)).prsMod fun p =>
        { p with ceRows := Tab.del p.ceRows (bankKey t bank * 2 ^ 32 + row),
                 bankRows := Tab.put p.bankRows (bankKey t bank) (Tab.get p.bankRows (bankKey t bank) 0 + 1) }
      let u := u.bump (Reg.PRS_TB_SPARE_ROWSP t)
      u.evt 2 0x0204 (le 1 t ++ le 1 1 ++ le 2 (u.get (Reg.PRS_TB_SPARE_BANK t)) ++ le 8 off))) ∧
  (∀ (s : State) (t bank row off n : Nat), s.prs.bankCopy.contains (t, bank) = false → s.get (Reg.PRS_TB_SPARE_BANK t) = n + 1 →
    exec (.dramCorrectable t bank row off 2 true) s = .next (
      let u := ((s.bump (Reg.PRS_TB_CE t)).set (Reg.PRS_TB_SPARE_BANK t) n).prsMod fun p => { p with bankCopy := p.bankCopy ++ [(t, bank)] }
      (u.evt 2 0x0204 (le 1 t ++ le 1 2 ++ le 2 n ++ le 8 off)).reserveCheck 2)) ∧
  (∀ (s : State) (t bank row off : Nat) (b : Bool), off < 0xB00000000 →
    exec (.dramUncorrectable t bank row off b) s = .next (
      let u := s.prsMod fun p => { p with poison := p.poison.filter (· != dramAddr t off) ++ [dramAddr t off] }
      (((u.bump (Reg.PRS_TB_UE t)).dramLatch t off b).rowSpare t bank off).raise (detN (8 + t) 7) 0 0)) ∧
  (∀ (s : State) (t bank row off : Nat) (b : Bool), 0xCDCD65000 ≤ off → off < 0xDDCD65000 →
    exec (.dramUncorrectable t bank row off b) s = .next (
      let u := s.prsMod fun p => { p with poison := p.poison.filter (· != dramAddr t off) ++ [dramAddr t off] }
      let u := (((u.bump (Reg.PRS_TB_UE t)).dramLatch t off b).rowSpare t bank off)
      let u := (u.discardTb t).modelReload t
      (u.raise (detN (8 + t) 6) 0 t).settlePress)) ∧
  (∀ (s : State) (t bank : Nat), s.prs.bankCopy.contains (t, bank) = true →
    exec (.bankSpareDone t bank) s = .next (s.prsMod fun p =>
      { p with bankCopy := p.bankCopy.filter (· != (t, bank)), banksSpared := p.banksSpared ++ [(t, bank)],
               bankRows := Tab.put p.bankRows (bankKey t bank) 0, bankBad := Tab.put p.bankBad (bankKey t bank) 0 })) ∧
  (∀ (s : State) (n bank : Nat), bit (s.get Reg.PRS_STAT_TBSVC) 0 = true ∧ s.on Reg.PRS_SCRUB_CTL_EN = true ∨ s.prs.fastScrub.contains 0 = true → n < 100 →
    exec (.patrolScrub 0 n false false bank) s = .next ((s.set Reg.PRS_SCRUB_STAT_PROG0 n).set (Reg.PRS_TB_STAT_SCRUB 0) 1)) ∧
  (∀ (s : State) (bank : Nat), bit (s.get Reg.PRS_STAT_TBSVC) 3 = true ∧ s.on Reg.PRS_SCRUB_CTL_EN = true ∨ s.prs.fastScrub.contains 3 = true →
    exec (.patrolScrub 3 100 false false bank) s = .next (
      ((s.set Reg.PRS_SCRUB_STAT_PROG3 100).set (Reg.PRS_TB_STAT_SCRUB 3) 0).prsMod fun p =>
        { p with fastScrub := p.fastScrub.filter (· != 3) })) ∧
  (∀ (s : State) (t n bank : Nat) (a b : Bool), s.prs.fastScrub.contains t = false →
    bit (s.get Reg.PRS_STAT_TBSVC) t = false ∨ s.on Reg.PRS_SCRUB_CTL_EN = false →
    exec (.patrolScrub t n a b bank) s = .next s)

/-- Formes and their runs (R231 to R237): loading, imposition, enabling, runs and what ends them. -/
def Obligations.FormeCommands : Prop :=
  (∀ (s : State) (r : Nat) (d : Desc), s.serves 0 r 0x0210 d { priv := 2, standby := true, parOk := decide (128 ≤ d.p1 ∧ d.p1 ≤ 268435456) } →
    s.pressBusy = false → (s.slotX (bits d.p0 0 8)).load.any (fun l => l.ring != r) = false →
    exec (.formeOpen r d) s = .next ((((s.beginDesc r 0x0210 d).logC (.host r) 2 0 0x0210 2 (bits d.p0 0 8) 0 d.p1).slotMod (bits d.p0 0 8) fun x =>
      { x with load := some { ring := r, tlen := d.p1 } }).completeLate r 0x0210 d 0 0 0)) ∧
  (∀ (s : State) (r : Nat) (d : Desc) (l : Load), s.serves 0 r 0x0211 d
      { priv := 2, standby := true, buf := .reads, lenOk := fun n => 8 ≤ n && n ≤ 1048576 && n % 8 == 0, parOk := d.p1 % 8 == 0 } →
    (s.slotX (bits d.p0 0 8)).load = some l → l.ring = r → d.p1 + d.len ≤ l.tlen →
    exec (.formeWrite r d) s = .next ((((s.beginDesc r 0x0211 d).logC (.host r) 2 0 0x0211 2 (bits d.p0 0 8) d.p1 d.len).slotMod (bits d.p0 0 8) fun x =>
      { x with load := some { l with chunks := (d.p1, bufBytes d) :: l.chunks } }).completeLate r 0x0211 d 0 d.len 0)) ∧
  (∀ (s : State) (r : Nat) (d : Desc) (l : Load), s.serves 0 r 0x0211 d
      { priv := 2, standby := true, buf := .reads, lenOk := fun n => 8 ≤ n && n ≤ 1048576 && n % 8 == 0, parOk := d.p1 % 8 == 0 } →
    (s.slotX (bits d.p0 0 8)).load = some l → l.ring = r → l.tlen < d.p1 + d.len →
    exec (.formeWrite r d) s = .next ((s.beginDesc r 0x0211 d).completeLate r 0x0211 d 0x14 0 0)) ∧
  (∀ (s : State) (r : Nat) (d : Desc) (l : Load) (f : Forme) (c : Staged),
    let i := bits d.p0 0 8
    let u := s.beginDesc r 0x0212 d
    let p := u.stage1 r 2 0x0212 i (u.slotX i).mark (ofLe (f.digest.take 8)) 0 .own true
    s.serves 0 r 0x0212 d { priv := 2, standby := true } → s.pressBusy = false → (s.slotX i).load = some l → l.ring = r →
    u.commitCheck i l = .inr f → p.2.staged.find? (fun c => c.no == p.1) = some c →
    exec (.formeCommit r d) s = .next (
      let w := match (p.2.slotX i).staged with
        | some (_, b) => (p.2.unstage b.no).changeDone b 1 0 0x14
        | none => p.2
      (w.slotMod i fun x => { x with load := none, staged := some (f, c), due := none }).completeLate r 0x0212 d 2 0 p.1)) ∧
  (∀ (s : State) (r : Nat) (d : Desc) (l : Load) (x : Refused),
    let i := bits d.p0 0 8
    let u := s.beginDesc r 0x0212 d
    s.serves 0 r 0x0212 d { priv := 2, standby := true } → s.pressBusy = false → (s.slotX i).load = some l → l.ring = r →
    u.commitCheck i l = .inl x →
    exec (.formeCommit r d) s = .next (((u.set Reg.PRS_FSTAT_LASTREF x.1).set Reg.PRS_FSTAT_LASTSLOT i).completeLate r 0x0212 d 0x1E 0
      (x.1 + x.2.1 * 256 + x.2.2 * 16777216))) ∧
  (∀ (s : State) (r : Nat) (d : Desc), s.serves 0 r 0x0213 d { priv := 2, standby := true } →
    exec (.formeAbort r d) s = .next ((((s.beginDesc r 0x0213 d).logC (.host r) 2 0 0x0213 2 (bits d.p0 0 8) 0 0).slotMod (bits d.p0 0 8) fun x => { x with load := none }).completeLate r 0x0213 d 0 0 0)) ∧
  (∀ (s : State) (i : Nat), exec (.formeLoadTimeout i) s = .next (s.slotMod i fun x => { x with load := none })) ∧
  (∀ (s : State) (r : Nat) (d : Desc),
    let u := s.beginDesc r 0x0214 d
    let p := u.stage1 r 2 0x0214 (bits d.p0 0 8) (u.slotX (bits d.p0 0 8)).mark 0 u.leadPeriod (.formeUnload (bits d.p0 0 8)) true
    s.serves 0 r 0x0214 d { priv := 2, standby := true } → s.pressBusy = false →
    exec (.formeUnload r d) s = .next (p.2.completeLate r 0x0214 d 2 0 p.1)) ∧
  (∀ (s : State) (r : Nat) (d : Desc),
    let i := bits d.p0 0 8
    let u := s.beginDesc r 0x0215 d
    let p := u.stage1 r 2 0x0215 i (b2n (u.slotX i).en) (b2n (bit d.p1 0)) u.leadPeriod (.formeEnable i (bit d.p1 0))
    s.serves 0 r 0x0215 d { priv := 2, standby := true } → s.pressBusy = false → bit d.p1 0 = false → (s.slotX i).code = 3 →
    exec (.formeEnable r d) s = .next (p.2.completeLate r 0x0215 d 2 0 p.1)) ∧
  (∀ (s : State) (r : Nat) (d : Desc) (f : Forme),
    let i := bits d.p0 0 8
    let u := s.beginDesc r 0x0215 d
    let p := u.stage1 r 2 0x0215 i (b2n (u.slotX i).en) (b2n (bit d.p1 0)) u.leadPeriod (.formeEnable i (bit d.p1 0))
    s.serves 0 r 0x0215 d { priv := 2, standby := true } → s.pressBusy = false → bit d.p1 0 = true → (s.slotX i).code = 3 →
    (s.slotX i).forme = some f → (f.kind = 0 → s.willEnOf 0 i < 4) → (f.kind = 1 → s.willEnOf 1 i = 0) →
    (2 ≤ f.kind → s.willEnOf f.kind i < 256) → s.willFit i f.kind (s.slotX i).wcyc = true →
    exec (.formeEnable r d) s = .next (p.2.completeLate r 0x0215 d 2 0 p.1)) ∧
  (∀ (s : State) (r : Nat) (d : Desc), s.serves 0 r 0x0215 d { priv := 2, standby := true } → s.pressBusy = false →
    bit d.p1 0 = false → (s.slotX (bits d.p0 0 8)).code ≠ 3 →
    exec (.formeEnable r d) s = .next ((((s.beginDesc r 0x0215 d).set Reg.PRS_FSTAT_LASTREF 19).set Reg.PRS_FSTAT_LASTSLOT
      (bits d.p0 0 8)).completeLate r 0x0215 d 0x1E 0 19)) ∧
  (∀ (s : State) (r : Nat) (d : Desc) (f : Forme) (v : Variant),
    let i := bits d.p0 0 8
    s.serves 0 r 0x0217 d { priv := 3, standby := true } → (s.slotX i).forme = some f → f.kind = 3 → (s.slotX i).variant = some v →
    s.on Reg.PRS_FCTL_RUN = true → s.pressBusy = false → s.prs.runs.any (fun q => q.cmd.isSome) = false →
    exec (.formeRun r d) s = .next (
      let u := (s.beginDesc r 0x0217 d).logC (.host r) 2 0 0x0217 2 i 0 0
      u.prsMod fun p => { p with runs := p.runs ++ [
        { slot := i, kind := 3, cycle := u.get Reg.PRS_GAL_CYC, step := 0, v := v, f := f,
          tbs := List.replicate 4 {}, inputs := u.prs.inputs, cmd := some (r, d), inst := (s.slotX i).inst }] })) ∧
  (∀ (s : State) (i : Nat) (f : Forme) (c : Staged) (v : Nat),
    let u := s.unstage c.no
    s.time % 20000 = 0 → s.prs.hierEnd ≠ some s.time → s.glb.mgmtDown = false → (s.slotX i).staged = some (f, c) → (s.slotX i).en = false →
    s.pickNow f = some v →
    exec (.formeImpose i true) s = .next (
      let w := (((((u.promoEnds i).copyData f).slotMod i fun y =>
        { y with forme := some f, var := some v, staged := none, due := none, loaded := false, old := y.forme, lastCyc := 0, runs := 0, abandoned := 0, chg := c.no, inst := y.inst + 1, gen := 0 }).variantReady i).storeModel).evt 2 0x0210 (le 4 c.no ++ le 1 i ++ le 1 v ++ zeros 2 ++ le 4 f.fid)
      ((if w.trn.plan.head? = some i then w.set Reg.PRS_TRN_GEN 0 else w).changeDone c 0 1 0xFF).beginAnew i)) ∧
  (∀ (s : State) (i : Nat) (f : Forme) (c : Staged), s.time % 20000 = 0 → s.prs.hierEnd ≠ some s.time →
    s.glb.mgmtDown = false → (s.slotX i).staged = some (f, c) →
    exec (.formeImpose i false) s = .next ((((s.unstage c.no).slotMod i fun y => { y with staged := none, due := none }).changeDone c 1 0 0x14).beginAnew i)) ∧
  (∀ (s : State) (i : Nat) (b : Bool), s.time % 20000 ≠ 0 ∨ s.prs.hierEnd = some s.time ∨ s.glb.mgmtDown = true → (s.slotX i).staged.isSome = true →
    exec (.formeImpose i b) s = .next (s.slotMod i fun x => { x with due := some b })) ∧
  (∀ (s : State) (i : Nat) (b : Bool), s.time % 20000 ≠ 0 ∨ s.prs.hierEnd = some s.time ∨ s.glb.mgmtDown = true → (s.slotX i).staged = none → exec (.formeImpose i b) s = .next s) ∧
  (∀ (s : State) (i : Nat) (v : Variant), (s.slotX i).ready = false → (s.slotX i).variant = some v →
    exec (.variantLoadDone i) s = .next (s.slotMod i fun x => { x with loaded := true })) ∧
  (∀ (s : State) (slot : Nat) (r : Run), s.prs.runs.find? (fun r => r.slot == slot) = some r → r.kind = 0 →
    (r.v.used.all fun t => (r.tb t).ended) = true →
    exec (.runEnd slot) s = .next (
      let u := s.prsMod fun p => { p with runs := p.runs.filter fun q => q.slot != r.slot }
      let u := if (u.slotX r.slot).inst = r.inst then
          u.slotMod r.slot fun x => { x with lastCyc := r.cycles, runs := x.runs + 1, old := none } else u
      let u := u.prsMod fun p => { p with proofCyc := (List.range 4).map fun t => (p.proofCyc[t]?).getD 0 + (r.tb t).cyc }
      if r.bad = true then u.prsMod fun p => { p with discard := true } else u)) ∧
  (∀ (s : State) (slot ring : Nat) (r : Run) (d : Desc), s.prs.runs.find? (fun r => r.slot == slot) = some r → r.kind = 3 →
    r.cmd = some (ring, d) → (r.v.used.all fun t => (r.tb t).ended) = true →
    exec (.runEnd slot) s = .next (
      let u := s.prsMod fun p => { p with runs := p.runs.filter fun q => q.slot != r.slot }
      (if (u.slotX r.slot).inst = r.inst then
          u.slotMod r.slot fun x => { x with lastCyc := r.cycles, runs := x.runs + 1, old := none } else u).completeLate ring 0x0217 d 0 0 r.cycles)) ∧
  (∀ (s : State) (r : Run), s.prs.runs = [r] → r.kind = 1 → r.over = false → r.cycle + s.planDiv ≤ s.get Reg.PRS_GAL_CYC →
    exec .planRunOverdue s = .next ((s.abandon r.slot 2).planDrop r.cycle 1 0)) ∧
  (∀ (s : State) (slot : Nat) (r : Run), s.prs.runs.find? (fun r => r.slot == slot) = some r → r.kind = 3 → r.cmd.isSome = true →
    exec (.formeRunTimeout slot) s = .next (s.abandon slot 4))

/-- The control sorts (R158, R225, R226) and the sorts that move data (R222 to R224): the next sort of a textblock, when it is
one of them, has its effect, its cycles count, and the run goes on behind it. -/
def Obligations.ControlAndMovementSorts : Prop :=
  (∀ (s : State) (t cyc : Nat) (c : Ctx), s.nextSort t = some c → c.w.op = 0x00 → 
    exec (.sortNop t cyc) s = .next ((s.charge c t cyc).advance c.run.slot t (c.x.pc + 1))) ∧
  (∀ (s : State) (t cyc : Nat) (c : Ctx), s.nextSort t = some c → c.w.op = 0x01 → 
    exec (.endSort t cyc) s = .next ((s.charge c t cyc).prsMod fun p => { p with runs := p.runs.map (fun q =>
      if q.slot = c.run.slot then q.tbMod t fun x => { x with ended := true, loops := [] } else q) })) ∧
  (∀ (s : State) (t cyc : Nat) (c : Ctx), s.nextSort t = some c → c.w.op = 0x02 → 
    exec (.bar t cyc) s = .next ((s.charge c t cyc).prsMod fun p => { p with runs := p.runs.map (fun q =>
      if q.slot = c.run.slot then q.tbMod t fun x => { x with wait := c.w.scope, since := s.time } else q) })) ∧
  (∀ (s : State) (t cyc : Nat) (c : Ctx), s.nextSort t = some c → c.w.op = 0x03 → c.w.n2 = 0 →
    exec (.loop t cyc) s = .next ((s.charge c t cyc).advance c.run.slot t (c.x.pc + 1 + c.w.n1))) ∧
  (∀ (s : State) (t cyc : Nat) (c : Ctx), s.nextSort t = some c → c.w.op = 0x03 → c.w.n2 ≠ 0 →
    exec (.loop t cyc) s = .next ((s.charge c t cyc).prsMod fun p => { p with runs := p.runs.map (fun q =>
      if q.slot = c.run.slot then q.tbMod t fun x =>
        { x with pc := c.x.pc + 1,
                 loops := { first := c.x.pc + 1, after := c.x.pc + 1 + c.w.n1, left := c.w.n2, it := 0 }   :: x.loops } else q) })) ∧
  (∀ (s : State) (t cyc : Nat) (c : Ctx), s.nextSort t = some c → c.w.op = 0x08 → 
    exec (.load t cyc) s = .next (((State.sortLoad s c).charge c t cyc).advance c.run.slot t (c.x.pc + 1))) ∧
  (∀ (s : State) (t cyc : Nat) (c : Ctx), s.nextSort t = some c → c.w.op = 0x09 → 
    exec (.store t cyc) s = .next (((State.sortStore s c).charge c t cyc).advance c.run.slot t (c.x.pc + 1))) ∧
  (∀ (s : State) (t cyc : Nat) (c : Ctx), s.nextSort t = some c → c.w.op = 0x0A → 
    exec (.copy t cyc) s = .next (((State.sortCopy s c).charge c t cyc).advance c.run.slot t (c.x.pc + 1))) ∧
  (∀ (s : State) (t cyc : Nat) (c : Ctx), s.nextSort t = some c → c.w.op = 0x0B → 
    exec (.input t cyc) s = .next (((State.sortInput s c).charge c t cyc).advance c.run.slot t (c.x.pc + 1))) ∧
  (∀ (s : State) (t cyc : Nat) (c : Ctx), s.nextSort t = some c → c.w.op = 0x0C → 
    exec (.emit t cyc) s = .next (((State.sortEmit s c).charge c t cyc).advance c.run.slot t (c.x.pc + 1)))

/-- The sorts on wide elements and on sequences (R198, R216, R218 to R221): each has its effect, its cycles count, and the
run goes on behind it. -/
def Obligations.ElementSorts : Prop :=
  (∀ (s : State) (t cyc : Nat) (c : Ctx), s.nextSort t = some c → c.w.op = 0x18 → 
    exec (.add t cyc) s = .next (((State.sortElem (fun _ x y => wAdd x y) s c).charge c t cyc).advance c.run.slot t (c.x.pc + 1))) ∧
  (∀ (s : State) (t cyc : Nat) (c : Ctx), s.nextSort t = some c → c.w.op = 0x19 → 
    exec (.sub t cyc) s = .next (((State.sortElem (fun _ x y => wSub x y) s c).charge c t cyc).advance c.run.slot t (c.x.pc + 1))) ∧
  (∀ (s : State) (t cyc : Nat) (c : Ctx), s.nextSort t = some c → c.w.op = 0x1A → 
    exec (.mul t cyc) s = .next (((State.sortElem (fun a x y => wMul a x y) s c).charge c t cyc).advance c.run.slot t (c.x.pc + 1))) ∧
  (∀ (s : State) (t cyc : Nat) (c : Ctx), s.nextSort t = some c → c.w.op = 0x1B → 
    exec (.max t cyc) s = .next (((State.sortElem (fun _ x y => (max x y, [])) s c).charge c t cyc).advance c.run.slot t (c.x.pc + 1))) ∧
  (∀ (s : State) (t cyc : Nat) (c : Ctx), s.nextSort t = some c → c.w.op = 0x1C → 
    exec (.min t cyc) s = .next (((State.sortElem (fun _ x y => (min x y, [])) s c).charge c t cyc).advance c.run.slot t (c.x.pc + 1))) ∧
  (∀ (s : State) (t cyc : Nat) (c : Ctx), s.nextSort t = some c → c.w.op = 0x1D → 
    exec (.shift t cyc) s = .next (((State.sortUnary (fun c x => wShift c.w.a x (toS 16 c.w.imm)) s c).charge c t cyc).advance c.run.slot t (c.x.pc + 1))) ∧
  (∀ (s : State) (t cyc : Nat) (c : Ctx), s.nextSort t = some c → c.w.op = 0x1E → 
    exec (.clamp t cyc) s = .next (((State.sortClamp s c).charge c t cyc).advance c.run.slot t (c.x.pc + 1))) ∧
  (∀ (s : State) (t cyc : Nat) (c : Ctx), s.nextSort t = some c → c.w.op = 0x20 → 
    exec (.rescale t cyc) s = .next (((State.sortRescale s c).charge c t cyc).advance c.run.slot t (c.x.pc + 1))) ∧
  (∀ (s : State) (t cyc : Nat) (c : Ctx), s.nextSort t = some c → c.w.op = 0x21 → 
    exec (.convert t cyc) s = .next (((State.sortUnary (fun _ x => (x, [])) s c).charge c t cyc).advance c.run.slot t (c.x.pc + 1))) ∧
  (∀ (s : State) (t cyc : Nat) (c : Ctx), s.nextSort t = some c → c.w.op = 0x28 → 
    exec (.lut t cyc) s = .next (((State.sortLut s c).charge c t cyc).advance c.run.slot t (c.x.pc + 1))) ∧
  (∀ (s : State) (t cyc : Nat) (c : Ctx), s.nextSort t = some c → c.w.op = 0x2C → 
    exec (.scan t cyc) s = .next (((State.sortScan s c).charge c t cyc).advance c.run.slot t (c.x.pc + 1))) ∧
  (∀ (s : State) (t cyc : Nat) (c : Ctx), s.nextSort t = some c → c.w.op = 0x30 → 
    exec (.attn t cyc) s = .next (((State.sortAttn s c).charge c t cyc).advance c.run.slot t (c.x.pc + 1))) ∧
  (∀ (s : State) (t cyc : Nat) (c : Ctx), s.nextSort t = some c → c.w.op = 0x39 → 
    exec (.gapply t cyc) s = .next (((State.sortGapply s c).charge c t cyc).advance c.run.slot t (c.x.pc + 1)))

/-- The sorts that may reach over the volume (R212 to R217, R221): with SCOPE 0 to 3 each has its effect at once; with
SCOPE 4 every textblock of the run waits at it, and the last one to come has it executed over all of them. -/
def Obligations.VolumeSorts : Prop :=
  (∀ (s : State) (t cyc : Nat) (c : Ctx), s.nextSort t = some c → c.w.op = 0x10 → c.w.scope ≠ 4 →
    exec (.mmul t cyc) s = .next (((State.sortMmul s c).charge c t cyc).advance c.run.slot t (c.x.pc + 1))) ∧
  (∀ (s : State) (t cyc : Nat) (c : Ctx), s.nextSort t = some c → c.w.op = 0x10 → c.w.scope = 4 →
    exec (.mmul t cyc) s = .next (
      let u := s.charge c t cyc
      let r := ((u.prs.runs.find? fun q => q.slot == c.run.slot).getD c.run).tbMod t fun x => { x with wait := 5, since := s.time }
      let q := ((u.runPut r).prs.runs.find? fun q => q.slot == c.run.slot).getD c.run
      if (c.run.v.used.all fun k => (q.tb k).wait == 5 && (q.tb k).pc == c.x.pc) = true
      then c.run.v.used.foldl (fun s k => s.advance c.run.slot k (c.x.pc + 1)) (State.sortMmul (u.runPut r) c) else u.runPut r)) ∧
  (∀ (s : State) (t cyc : Nat) (c : Ctx), s.nextSort t = some c → c.w.op = 0x25 → c.w.scope ≠ 4 →
    exec (.rmax t cyc) s = .next (((State.sortReduce (fun xs => ((maxI (xs.map (·.1))).getD 0, [])) s c).charge c t cyc).advance c.run.slot t (c.x.pc + 1))) ∧
  (∀ (s : State) (t cyc : Nat) (c : Ctx), s.nextSort t = some c → c.w.op = 0x25 → c.w.scope = 4 →
    exec (.rmax t cyc) s = .next (
      let u := s.charge c t cyc
      let r := ((u.prs.runs.find? fun q => q.slot == c.run.slot).getD c.run).tbMod t fun x => { x with wait := 5, since := s.time }
      let q := ((u.runPut r).prs.runs.find? fun q => q.slot == c.run.slot).getD c.run
      if (c.run.v.used.all fun k => (q.tb k).wait == 5 && (q.tb k).pc == c.x.pc) = true
      then c.run.v.used.foldl (fun s k => s.advance c.run.slot k (c.x.pc + 1)) (State.sortReduce (fun xs => ((maxI (xs.map (·.1))).getD 0, [])) (u.runPut r) c) else u.runPut r)) ∧
  (∀ (s : State) (t cyc : Nat) (c : Ctx), s.nextSort t = some c → c.w.op = 0x24 → c.w.scope ≠ 4 →
    exec (.rsum t cyc) s = .next ((((State.sortReduce (spanSum 48 spanKind)) s c).charge c t cyc).advance c.run.slot t (c.x.pc + 1))) ∧
  (∀ (s : State) (t cyc : Nat) (c : Ctx), s.nextSort t = some c → c.w.op = 0x24 → c.w.scope = 4 →
    exec (.rsum t cyc) s = .next (
      let u := s.charge c t cyc
      let r := ((u.prs.runs.find? fun q => q.slot == c.run.slot).getD c.run).tbMod t fun x => { x with wait := 5, since := s.time }
      let q := ((u.runPut r).prs.runs.find? fun q => q.slot == c.run.slot).getD c.run
      if (c.run.v.used.all fun k => (q.tb k).wait == 5 && (q.tb k).pc == c.x.pc) = true
      then c.run.v.used.foldl (fun s k => s.advance c.run.slot k (c.x.pc + 1)) ((State.sortReduce (spanSum 48 spanKind)) (u.runPut r) c) else u.runPut r)) ∧
  (∀ (s : State) (t cyc : Nat) (c : Ctx), s.nextSort t = some c → c.w.op = 0x38 → c.w.scope ≠ 4 →
    exec (.gouter t cyc) s = .next (((State.sortGouter s c).charge c t cyc).advance c.run.slot t (c.x.pc + 1))) ∧
  (∀ (s : State) (t cyc : Nat) (c : Ctx), s.nextSort t = some c → c.w.op = 0x38 → c.w.scope = 4 →
    exec (.gouter t cyc) s = .next (
      let u := s.charge c t cyc
      let r := ((u.prs.runs.find? fun q => q.slot == c.run.slot).getD c.run).tbMod t fun x => { x with wait := 5, since := s.time }
      let q := ((u.runPut r).prs.runs.find? fun q => q.slot == c.run.slot).getD c.run
      if (c.run.v.used.all fun k => (q.tb k).wait == 5 && (q.tb k).pc == c.x.pc) = true
      then c.run.v.used.foldl (fun s k => s.advance c.run.slot k (c.x.pc + 1)) (State.sortGouter (u.runPut r) c) else u.runPut r))

/-- The galley and the period (R245, R258, R262, R296, R301, R343): a boundary is its steps in the order of R296, and before
Chase runs nothing happens; GALLEY_CLOSE makes an entry PROOF or VOID; a plan ages; samples are cut and outputs latched. -/
def Obligations.GalleyAndPeriod : Prop :=
  (∀ (s : State) (a b : Bool), s.glb.chaseUp = false → exec (.chasePeriodBoundary a b) s = .next s) ∧
  (∀ (s : State) (a b : Bool),
    let u := s.periodEnd
    s.glb.chaseUp = true → u.time % 20000 ≠ 0 →
    exec (.chasePeriodBoundary a b) s = .next (
      let v := (((((u.silenceTick a).readyTick).proveTick).changesNow false).drivesNow false)
      ((((v.syncNow).hbToggle b).hbOutFrame).injectionTick.blockTicks).samplesGone.settle)) ∧
  (∀ (s : State) (a b : Bool),
    let u := s.periodEnd
    s.glb.chaseUp = true → u.time % 20000 = 0 →
    exec (.chasePeriodBoundary a b) s = .next (
      let v := (((((u.silenceTick a).readyTick).proveTick).changesNow true).drivesNow true)
      let w := ((v.syncNow).hbToggle b).hbOutFrame
      ((w.cycleStart.pcycOut (w.time / 20000)).injectionTick.blockTicks).samplesGone.settle)) ∧
  (∀ (s : State) (n : Nat) (ls : List Nat), s.glb.chaseUp = false → exec (.sampleCut n ls) s = .next s) ∧
  (∀ (s : State) (n : Nat) (ls : List Nat), s.glb.chaseUp = true →
    exec (.sampleCut n ls) s = .next (
      let u := (List.range 5).foldl (fun s g => s.olConv g) ((List.range 156).foldl (fun s q => s.olPhase q) s.cutLinks.measure)
      let u := if u.holder then (List.range 156).foldl (fun s q => s.tripFound q) u else u
      let u := (List.range 156).foldl (fun s q => s.findFault q) u
      (if u.holder then u.lawTimed n ls else u).cfgOut)) ∧
  (∀ s : State, s.glb.chaseUp = true → s.glb.safeLeft ≠ 0 → s.glb.safeLeft < 9 →
    exec .outputLatch s = .next (
      let u := s.dutyOut true
      ({ u with glb := { u.glb with safeLeft := u.glb.safeLeft - 1 } } : State))) ∧
  (∀ s : State, s.glb.chaseUp = true → s.glb.safeLeft = 10 →
    exec .outputLatch s = .next (
      let u := (s.syncOut true).dutyOut true
      ({ u with glb := { u.glb with safeLeft := 9 } } : State))) ∧
  (∀ s : State, s.glb.chaseUp = true → s.glb.safeLeft = 0 → s.holder = true →
    exec .outputLatch s = .next (
      let u := (List.range 156).foldl (fun s q =>
        if (s.phase q).clr && (s.phase q).sent == 4 then s.phaseMod q fun p => { p with clr := false } else s) (s.dutyOut false)
      let u := u.chsMod fun c => { c with gap := false }
      ({ u with ros := { u.ros with duty := u.dutyDigest } } : State))) ∧
  (∀ s : State, s.glb.chaseUp = false ∨ (s.glb.safeLeft = 0 ∧ s.holder = false) → exec .outputLatch s = .next s) ∧
  (∀ s : State, (s.entry (s.get Reg.PRS_GAL_CYC % 8)).state ≠ 1 → exec .galleyClose s = .next s) ∧
  (∀ (s : State) (k last : Nat), k = s.get Reg.PRS_GAL_CYC → last = satU 16 (s.prs.proofCyc.foldl max 0) →
    (s.entry (k % 8)).state = 1 → (s.entry (k % 8)).cyc = k → s.prs.runs.filter (fun r => r.kind == 0) = [] →
    s.prs.discard = true →
    exec .galleyClose s = .next (
      let u := ((s.set Reg.PRS_FCYC_LAST last).set Reg.PRS_FCYC_MAX (max last ((s.set Reg.PRS_FCYC_LAST last).get Reg.PRS_FCYC_MAX))).startTick
      let u := u.galMod fun g => { g with undo := (g.gap, g.gapFirst, u.get Reg.PRS_GAL_STAT_BLIND) }
      let u := (u.entryMod (k % 8) fun e => { e with state := 2 }).bump Reg.PRS_GAL_VOID
      ((u.basisIs k 2).noProof k).scorePush k)) ∧
  (∀ (s : State) (k last : Nat), k = s.get Reg.PRS_GAL_CYC → last = satU 16 (s.prs.proofCyc.foldl max 0) →
    (s.entry (k % 8)).state = 1 → (s.entry (k % 8)).cyc = k → s.prs.runs.filter (fun r => r.kind == 0) = [] →
    s.gal.startBlind = true → s.startOver = false →
    exec .galleyClose s = .next (
      let u := (s.set Reg.PRS_FCYC_LAST last).set Reg.PRS_FCYC_MAX (max last ((s.set Reg.PRS_FCYC_LAST last).get Reg.PRS_FCYC_MAX))
      let u := u.galMod fun g => { g with undo := (g.gap, g.gapFirst, u.get Reg.PRS_GAL_STAT_BLIND) }
      let u := (u.entryMod (k % 8) fun e => { e with state := 2 }).bump Reg.PRS_GAL_VOID
      ((u.basisIs k 2).noProof k).scorePush k)) ∧
  (∀ (s : State) (k last : Nat), k = s.get Reg.PRS_GAL_CYC → last = satU 16 (s.prs.proofCyc.foldl max 0) →
    (s.entry (k % 8)).state = 1 → (s.entry (k % 8)).cyc = k → s.prs.runs.filter (fun r => r.kind == 0) = [] →
    s.prs.discard = false → (Tab.find s.gal.tgt 0).isSome = true → (Tab.find s.gal.tgt 2).isSome = true →
    s.on Reg.PRS_FCTL_RUN = true → s.halted = false → s.gal.startBlind = false → s.on Reg.PRS_GAL_EXP_WHEN = true →
    exec .galleyClose s = .next (
      let u := (s.set Reg.PRS_FCYC_LAST last).set Reg.PRS_FCYC_MAX (max last ((s.set Reg.PRS_FCYC_LAST last).get Reg.PRS_FCYC_MAX))
      let u := u.galMod fun g => { g with undo := (g.gap, g.gapFirst, u.get Reg.PRS_GAL_STAT_BLIND) }
      let u := ((u.entryMod (k % 8) fun e => { e with state := 3, tgt := u.gal.tgt }).galMod fun g => { g with gap := 0 }).firstOf fun g => { g with firstProof := true }
      let u := if u.blindCause = 0 then u.setBlind (if (s.entry (k % 8)).blind then 3 else 0) else u
      (u.forecast (u.entry (k % 8)) false).scorePush k)) ∧
  (∀ (s : State) (p : Plan), s.gal.plan = some p → p.basis * 20000 + s.planLife ≤ s.time →
    exec .planStale s = .next ((s.galMod fun g => { g with plan := none, planStale := true }).set Reg.PRS_GAL_STAT_PLAN 0)) ∧
  (∀ (s : State) (p : Plan), s.gal.plan = some p → s.time < p.basis * 20000 + s.planLife → exec .planStale s = .next s)

/-- Training (R272 to R291): setup, run and hold, promotion, rejection and revert as the host asks for them, and the captures,
steps, scores and checks that happen by themselves. -/
def Obligations.TrainingCommands : Prop :=
  (∀ (s : State) (r : Nat) (d : Desc),
    let u := s.beginDesc r 0x0400 d
    let b := (bufBytes d).take 32
    let p := u.stage1 r 2 0x0400 (rd b 0 1) 0 (digest8 b) (u.get Reg.CHS_PNUM) (.trainSetup b) true
    s.serves 0 r 0x0400 d { priv := 2, standby := true, buf := .reads, lenOk := fun n => decide (32 ≤ n) } → rd b 3 1 = 0 →
    s.planBad (readPlan b) = false → s.trnState = 0 ∨ s.trnState = 3 →
    exec (.trainSetup r d) s = .next (p.2.completeLate r 0x0400 d 2 d.len p.1)) ∧
  (∀ (s : State) (r : Nat) (d : Desc),
    s.serves 0 r 0x0400 d { priv := 2, standby := true, buf := .reads, lenOk := fun n => decide (32 ≤ n) } → rd ((bufBytes d).take 32) 3 1 ≠ 0 →
    exec (.trainSetup r d) s = .next ((s.beginDesc r 0x0400 d).completeLate r 0x0400 d 0x14 0 0)) ∧
  (∀ (s : State) (r : Nat) (d : Desc),
    let u := (s.beginDesc r 0x0401 d).logC (.host r) 2 0 0x0401 2 0 0 1
    s.serves 0 r 0x0401 d { priv := 2, standby := true } → s.trnState = 3 → s.get Reg.PRS_TRN_STAT_HCAUSE ≠ 2 → s.get Reg.PRS_TRN_STAT_HCAUSE ≠ 5 →
    bits d.p0 0 1 = 1 →
    exec (.trainRun r d) s = .next ((u.trnMod fun x => { x with aborts := 0 }).trnResume.completeLate r 0x0401 d 0 0 0)) ∧
  (∀ (s : State) (r : Nat) (d : Desc),
    let u := (s.beginDesc r 0x0401 d).logC (.host r) 2 0 0x0401 2 0 0 0
    s.serves 0 r 0x0401 d { priv := 2, standby := true } → s.trnState ≠ 0 → s.trnState ≠ 5 → bits d.p0 0 1 = 0 →
    exec (.trainRun r d) s = .next ((u.trnHold 1).completeLate r 0x0401 d 0 0 0)) ∧
  (∀ (s : State) (r : Nat) (d : Desc), s.serves 0 r 0x0401 d { priv := 2, standby := true } → s.trnState = 0 →
    exec (.trainRun r d) s = .next ((s.beginDesc r 0x0401 d).completeLate r 0x0401 d 0x1E 0 1)) ∧
  (∀ (s : State) (r : Nat) (d : Desc), s.serves 0 r 0x0402 d { priv := 2, standby := true } → s.trn.offer = some d.p0 →
    exec (.trainPromote r d) s = .next (
      let p := (s.beginDesc r 0x0402 d).promoStage r 0x0402 1 0
      p.2.completeLate r 0x0402 d 2 0 p.1)) ∧
  (∀ (s : State) (r : Nat) (d : Desc) (n : Nat), s.serves 0 r 0x0402 d { priv := 2, standby := true } → s.trn.offer = some n → n ≠ d.p0 →
    exec (.trainPromote r d) s = .next ((s.beginDesc r 0x0402 d).completeLate r 0x0402 d 0x1E 0 3)) ∧
  (∀ (s : State) (r : Nat) (d : Desc) (n : Nat), s.serves 0 r 0x0403 d { priv := 1, standby := true } → s.trn.offer = some n → s.trnState ≠ 4 →
    exec (.trainReject r d) s = .next (
      ((((s.beginDesc r 0x0403 d).logC (.host r) 2 0 0x0403 2 0 n 0).trnMod fun x => { x with offer := none }).evt 2 0x0403 (le 4 n ++ le 1 1 ++ zeros 7)).completeLate
        r 0x0403 d 0 0 0)) ∧
  (∀ (s : State) (r : Nat) (d : Desc), s.serves 0 r 0x0403 d { priv := 1, standby := true } → s.trn.offer = none →
    exec (.trainReject r d) s = .next ((s.beginDesc r 0x0403 d).completeLate r 0x0403 d 0x1E 0 2)) ∧
  (∀ (s : State) (r : Nat) (d : Desc), s.serves 0 r 0x0404 d { priv := 2, standby := true } → s.on Reg.PRS_TRN_STAT_PRIOR = true → s.trnState ≠ 5 →
    exec (.trainRevert r d) s = .next (
      let p := (s.beginDesc r 0x0404 d).promoStage r 0x0404 2 2
      p.2.completeLate r 0x0404 d 2 0 p.1)) ∧
  (∀ (s : State) (r : Nat) (d : Desc), s.serves 0 r 0x0404 d { priv := 2, standby := true } → s.on Reg.PRS_TRN_STAT_PRIOR = false →
    exec (.trainRevert r d) s = .next ((s.beginDesc r 0x0404 d).completeLate r 0x0404 d 0x1E 0 4)) ∧
  (∀ (s : State) (k sg g : Nat) (t : List (Nat × Nat × Nat)), s.trn.due = (k, sg, g) :: t → k * 20000 + 2100000 ≤ s.time →
    exec .capture s = .next ((s.capture k sg g).trnMod fun x => { x with due := t })) ∧
  (∀ s : State, s.trn.stepDone = true → s.trnState ≠ 2 → exec .trainStepEnd s = .next (s.trnMod fun x => { x with endHeld := true })) ∧
  (∀ s : State, s.trn.stepDone = true → s.trnState = 2 →
    exec .trainStepEnd s = .next (
      let u := s.trnMod fun x => { x with stepDone := false, endHeld := false, rerun := false }
      let u := u.copyArea (u.planN 1) (u.planN 4) (u.planN 1) (u.planN 3) (u.planN 5)
      u.set Reg.PRS_TRN_STEP (u.get Reg.PRS_TRN_STEP + 1))) ∧
  (∀ (s : State) (q : Score) (t : List Score), s.trn.queue = q :: t → q.cand = none → q.cyc * 20000 + 2100000 ≤ s.time →
    exec .shadowScore s = .next (
      let u := s.trnMod fun x => { x with queue := t }
      (u.prsMod fun p => { p with runs := p.runs.filter fun r => !(r.slot == u.planN 2 && r.cycle == q.cyc) }).bump Reg.PRS_TRN_SKIP)) ∧
  (∀ (s : State) (q : Score) (t : List Score), s.trn.queue = q :: t → q.cyc * 20000 + 2100000 ≤ s.time → s.get Reg.PRS_TRN_CTL_SHDIV ≠ 0 →
    exec .shadowScore s = .next ((s.trnMod fun x => { x with queue := t }).score q)) ∧
  (∀ (s : State) (q : Score) (t : List Score), s.trn.queue = q :: t → q.cyc * 20000 + 2100000 ≤ s.time → s.get Reg.PRS_TRN_CTL_SHDIV = 0 →
    exec .shadowScore s = .next ((s.trnMod fun x => { x with queue := t }).score { q with cand := none })) ∧
  (∀ s : State, exec .trainShareWindow s = .next (s.trnMod fun x => { x with used := [0, 0, 0, 0] })) ∧
  (∀ (s : State) (n : Nat), s.get Reg.PRS_TRN_CTL2_OFFER ≠ 0 → s.trn.offer = some n → s.trnState = 4 →
    exec .offerExpiry s = .next (
      ((s.trnMod fun x => { x with offer := none }).evt 2 0x0403 (le 4 n ++ le 1 2 ++ zeros 7)).trnResume)) ∧
  (∀ (s : State) (p : Promo) (t : Nat), s.trn.promo = some p → p.copied = some t → p.kind = 1 → s.time % 20000 = 0 → t + 2000000 ≤ s.time →
    s.glb.mgmtDown = false → p.hit = false → s.standby = false ∨ p.got = true →
    exec .promotionImpose s = .next (
      let u := (s.variantReady (s.planN 0)).storeModel
      let g := (u.get Reg.PRS_TRN_GEN + 1) % 2 ^ 32
      let u := ((u.slotMod (s.planN 0) fun x => { x with gen := g }).set Reg.PRS_TRN_GEN g).trnMod fun x => { x with promo := none }
      let u := u.evt 2 0x0401 (le 4 p.st.no ++ le 4 g ++ le 4 (u.time / 20000))
      let n := u.get Reg.PRS_TRN_CTL2_PROBE
      let u := ((u.set Reg.PRS_TRN_STAT_PRIOR 1).setB Reg.PRS_TRN_STAT_PROBE (n != 0)).trnMod fun x =>
        { x with probeLeft := n, wdSec := 0, nSec := 0 }
      (u.promoDone p 0 1 0xFF).trnResume)) ∧
  (∀ s : State, s.on Reg.PRS_TRN_STAT_PROBE = true → frac16 s.trn.wdSec s.trn.nSec ≤ max (2 * s.trn.fPrior) 655 → 2 ≤ s.trn.probeLeft →
    exec .probationCheck s = .next (s.trnMod fun x => { x with wdSec := 0, nSec := 0, probeLeft := x.probeLeft - 1 })) ∧
  (∀ s : State, s.on Reg.PRS_TRN_STAT_PROBE = true → max (2 * s.trn.fPrior) 655 < frac16 s.trn.wdSec s.trn.nSec → 2 ≤ s.trn.probeLeft →
    s.trn.promo = none →
    exec .probationCheck s = .next ((((s.trnMod fun x => { x with wdSec := 0, nSec := 0, probeLeft := x.probeLeft - 1 }).set
      Reg.PRS_TRN_STAT_PROBE 0).promoStage 0x10000 0x0404 2 1).2)) ∧
  (∀ s : State, s.get Reg.PRS_TRN_CTL3_CKPT ≠ 0 → s.trnState ≠ 0 →
    exec .candidateCheckpoint s = .next (s.sendBulk 2 (le 4 (s.get Reg.PRS_TRN_STEP) ++ le 1 (b2n s.trn.offer.isSome) ++
      s.pbytes (s.modelAddr (s.planN 1) ((s.tbs.head?).getD 0) (s.planN 3)) (s.planN 5))))

/-- Control changes (R307, R320 to R329): change lists, banks, the period, the law and aborts, as the host asks for them. -/
def Obligations.ChangeCommands : Prop :=
  (∀ (s : State) (r : Nat) (d : Desc) (l : ListIn),
    let u := s.beginDesc r 0x0501 d
    let p := u.listStage r 0x0501 0 0 (digest8 (bufBytes d)) true l
    s.serves 0 r 0x0501 d { priv := 2, standby := true, buf := .reads } → ListIn.read (bufBytes d) = .ok l → s.chs.lists.length < 16 →
    u.listBad l = none →
    exec (.changeSubmit r d) s = .next (p.2.completeLate r 0x0501 d 2 d.len p.1)) ∧
  (∀ (s : State) (r : Nat) (d : Desc) (x : Nat × Nat × Nat),
    s.serves 0 r 0x0501 d { priv := 2, standby := true, buf := .reads } → ListIn.read (bufBytes d) = .error x → s.chs.lists.length < 16 →
    exec (.changeSubmit r d) s = .next ((s.beginDesc r 0x0501 d).completeLate r 0x0501 d 0x1E 0 (x.1 + 256 * x.2.1 + 65536 * x.2.2))) ∧
  (∀ (s : State) (r : Nat) (d : Desc) (l : ListIn), s.serves 0 r 0x0501 d { priv := 2, standby := true, buf := .reads } → ListIn.read (bufBytes d) = .ok l →
    16 ≤ s.chs.lists.length →
    exec (.changeSubmit r d) s = .next ((s.beginDesc r 0x0501 d).completeLate r 0x0501 d 0x16 0 0)) ∧
  (∀ (s : State) (r : Nat) (d : Desc) (rs : List (List Byte)),
    rs = (List.range (d.len / 32)).map (fun k => ((bufBytes d).drop (32 * k)).take 32) →
    s.serves 0 r 0x0502 d { priv := 2, standby := true, buf := .reads, lenOk := fun n => decide (n % 32 = 0 ∧ n ≤ 10624) } → s.bankBad rs = none →
    exec (.bankWrite r d) s = .next ((rs.foldl (fun s x =>
      (s.bankPut x).logC (.host r) 2 0 0x0502 3 (rd x 0 2) (digest8 (s.bankBytes (rd x 0 2) (rd x 2 1))) (digest8 x) true)
      (s.beginDesc r 0x0502 d)).completeLate r 0x0502 d 0 d.len 0)) ∧
  (∀ (s : State) (r : Nat) (d : Desc) (rs : List (List Byte)) (why k : Nat),
    rs = (List.range (d.len / 32)).map (fun k => ((bufBytes d).drop (32 * k)).take 32) →
    s.serves 0 r 0x0502 d { priv := 2, standby := true, buf := .reads, lenOk := fun n => decide (n % 32 = 0 ∧ n ≤ 10624) } →
    s.bankBad rs = some (why, k) →
    exec (.bankWrite r d) s = .next ((s.beginDesc r 0x0502 d).completeLate r 0x0502 d 0x1E 0 (why + 65536 * k))) ∧
  (∀ (s : State) (r : Nat) (d : Desc),
    let u := s.beginDesc r 0x0504 d
    let p := u.listStage r 0x0504 0 (u.get Reg.CHS_PERIOD_CYC) d.p0 false (periodList d.p0)
    s.serves 0 r 0x0504 d { priv := 2, standby := true, parOk := d.p0 == 500 || d.p0 == 1000 || d.p0 == 2000 } → s.chs.lists.length < 16 →
    u.listBad (periodList d.p0) = none →
    exec (.periodSet r d) s = .next (p.2.completeLate r 0x0504 d 2 0 p.1)) ∧
  (∀ (s : State) (r : Nat) (d : Desc) (l : ListIn),
    let u := s.beginDesc r 0x0505 d
    let p := u.listStage r 0x0505 0 (u.get Reg.CHS_STAT_LAW) d.p0 false l
    l = { check := 0, hold := 1, chkv := 0, steps := [[{ type := 6, first := 0, value := d.p0, mask := 0, last := 0 }]] } →
    s.serves 0 r 0x0505 d { priv := 2, standby := true, parOk := decide (d.p0 ≤ 1) } → s.chs.lists.length < 16 → u.listBad l = none →
    d.p0 ≠ 0 ∨ lawBound false s.lanes ≤ s.lawWindow →
    exec (.lawSet r d) s = .next (p.2.completeLate r 0x0505 d 2 0 p.1)) ∧
  (∀ (s : State) (r : Nat) (d : Desc), s.serves 0 r 0x0505 d { priv := 2, standby := true, parOk := decide (d.p0 ≤ 1) } →
    s.chs.lists.length < 16 → d.p0 = 0 → s.lawWindow < lawBound false s.lanes →
    exec (.lawSet r d) s = .next ((s.beginDesc r 0x0505 d).completeLate r 0x0505 d 0x1E 0 7)) ∧
  (∀ (s : State) (r : Nat) (d : Desc) (l : ChgList), s.serves 0 r 0x0506 d { priv := 2, standby := true } →
    s.chs.lists.find? (fun l => l.st.no == d.p0) = some l → l.done = 0 →
    exec (.changeAbort r d) s = .next (
      let u := (s.beginDesc r 0x0506 d).logC (.host r) 2 0 0x0506 3 d.p0 0 0
      ((u.chsMod fun c => { c with lists := c.lists.filter fun x => x.st.no != d.p0 }).changeDone l.st 2 0 0xFF).completeLate
        r 0x0506 d 0 0 0)) ∧
  (∀ (s : State) (r : Nat) (d : Desc) (l : ChgList), s.serves 0 r 0x0506 d { priv := 2, standby := true } →
    s.chs.lists.find? (fun l => l.st.no == d.p0) = some l → l.done ≠ 0 →
    exec (.changeAbort r d) s = .next (
      (((s.beginDesc r 0x0506 d).logC (.host r) 2 0 0x0506 3 d.p0 0 0).listBack 2 0xFF).completeLate r 0x0506 d 0 0 0)) ∧
  (∀ (s : State) (r : Nat) (d : Desc), s.serves 0 r 0x0506 d { priv := 2, standby := true } →
    s.chs.lists.find? (fun l => l.st.no == d.p0) = none →
    exec (.changeAbort r d) s = .next ((s.beginDesc r 0x0506 d).completeLate r 0x0506 d 0x1E 0 1))

/-- The stage links and phases (R339, R344, R351, R357 to R359): SAMPLE frames, retraining, the time limits of phases, spares
on their way in, and the commands of the host. -/
def Obligations.StageCommands : Prop :=
  (∀ (s : State) (l : Nat) (f : List Byte), s.glb.chaseUp = false ∨ s.linkHears l = false → exec (.sample l f) s = .next s) ∧
  (∀ (s : State) (l : Nat) (f : List Byte), s.glb.chaseUp = true → s.linkHears l = true → s.injectedOn (detN 14 0) l = false →
    f.length ≠ 40 ∨ rd f 0 1 ≠ 8 ∨ rd f 36 4 ≠ crc32 (f.take 36) →
    exec (.sample l f) s = .next (
      let u := s.bump (Reg.STL_LCRC l)
      u.wearHit 6 4 l 3600000000000 (u.get Reg.SPR_WTHR0_LINKCRC))) ∧
  (∀ (s : State) (l : Nat) (f : List Byte), s.glb.chaseUp = true → s.linkHears l = true → s.injectedOn (detN 14 0) l = false →
    f.length = 40 → rd f 0 1 = 8 → rd f 36 4 = crc32 (f.take 36) → rd f 1 1 ≠ s.boardOf l →
    exec (.sample l f) s = .next (s.raise (detN 14 1) 0 l)) ∧
  (∀ (s : State) (l : Nat) (f : List Byte), s.glb.chaseUp = true → s.linkHears l = true → s.injectedOn (detN 14 0) l = false →
    f.length = 40 → rd f 0 1 = 8 → rd f 36 4 = crc32 (f.take 36) → rd f 1 1 = s.boardOf l →
    exec (.sample l f) s = .next (
      let fl := rd f 2 1
      let u := ((s.setB (Reg.STL_LSTAT_OBEY l) (bit fl 1)).setB (Reg.STL_LSTAT_CONFLICT l) (bit fl 2)).setB (Reg.STL_LSTAT_WDOG l) (bit fl 3)
      let u := (u.set (Reg.STL_LSTAT_BTYPE l) (bits fl 4 4)).set (Reg.STL_LSTAT_EPOCH l) (rd f 4 2)
      let u := u.linkMod l fun x => { x with got := true, seen := true, ibrd := 2 * toS 16 (rd f 16 2), vbus := 25 * rd f 26 2,
                                             temp := toS 16 (rd f 28 2), cack := rd f 3 1 }
      let u := if bit fl 2 then u.levelOn (detN 14 2) 0 l
        else if (List.range 40).any fun k => u.on (Reg.STL_LSTAT_CONFLICT k) then u else u.levelOff (detN 14 2)
      let u := if bit fl 3 then u.raise (detN 14 3) 0 l else u
      (List.range 4).foldl (fun u j => u.slotIn (s.boardOf l) j f) u)) ∧
  (∀ (s : State) (l : Nat), s.glb.chaseUp = true → s.linkUp l = false → (s.link l).training = false → (s.link l).retry ≤ s.time →
    l ≠ 39 → s.linkMapped l = true →
    exec (.linkRetrainAttempt l) s = .next (s.linkMod l fun x => { x with training := true, good := 0 })) ∧
  (∀ (s : State) (l : Nat), s.glb.chaseUp = false ∨ s.linkUp l = true ∨ s.time < (s.link l).retry →
    exec (.linkRetrainAttempt l) s = .next s) ∧
  (∀ (s : State) (q : Nat), s.holder = true → s.pst q = 1 → (s.phase q).since + 40000 < s.time →
    exec (.phaseWakeTimeout q) s = .next ((s.phaseFail q 6 false).raise (detN 15 0) 0 q)) ∧
  (∀ (s : State) (q : Nat), s.holder = true → s.pst q = 2 → s.get Reg.STL_SHED_WARMHOLD ≠ 0 → (s.phase q).job = 0 →
    s.groupHeld (phaseGroup q) = false → s.chs.turn.contains q = false →
    (s.phase q).since + s.get Reg.STL_SHED_WARMHOLD * 1000000 ≤ s.time →
    exec (.warmHoldExpiry q) s = .next ((((s.phaseTo q 0 0).loopOut q).phaseMod q fun p => { p with nOpen := 0, nSense := 0 }))) ∧
  (∀ (s : State) (q : Nat), s.get Reg.STL_SHED_WARMHOLD = 0 → exec (.warmHoldExpiry q) s = .next s) ∧
  (∀ (s : State) (q t : Nat), s.holder = true → (s.phase q).estAt = some t → s.pst q = 7 → t + min 200 (s.get Reg.STL_DET2_ESTMAX) * 1000000 ≤ s.time →
    exec (.estTimeout q) s = .next (s.phaseFail q 3 false)) ∧
  (∀ (s : State) (q : Nat), s.holder = true → (s.phase q).job = 1 → s.pst q = 2 →
    exec (.spareStepDone q) s = .next ((s.phaseTo q 3 0).phaseMod q fun p => { p with job := 2, jobN := 0, jobSum := 0 })) ∧
  (∀ (s : State) (q : Nat), s.holder = true → (s.phase q).job = 2 → 256 ≤ (s.phase q).jobN →
    exec (.spareStepDone q) s = .next (
      let u := s.setNv (Reg.STL_POFS_OFS q) (ofS 16 (satS 16 (rne (s.phase q).jobSum 8)))
      (u.loopClose q (u.get (Reg.STL_POFS_ZD q) : Nat)).phaseMod q fun p => { p with job := 3, jobN := 0, jobBad := false })) ∧
  (∀ (s : State) (q : Nat), s.holder = true → (s.phase q).job = 3 → (s.phase q).jobBad = true →
    exec (.spareStepDone q) s = .next ((s.phaseFail q 6 false).raise (detN 15 0) 0 q)) ∧
  (∀ (s : State) (q : Nat), s.holder = true → (s.phase q).job = 4 → s.pst q = 4 → s.get (Reg.STL_PSTAT_FACTOR q) < 7 →
    exec (.spareStepDone q) s = .next (s.set (Reg.STL_PSTAT_FACTOR q) (s.get (Reg.STL_PSTAT_FACTOR q) + 1))) ∧
  (∀ (s : State) (r q : Nat) (d : Desc), q = bits d.p0 0 8 → s.serves 0 r 0x0601 d { priv := 2, standby := true, parOk := decide (q < 156) } →
    q < 0x80 ∨ 0x84 < q → s.role q = 2 ∨ s.pst q = 8 → ((s.beginDesc r 0x0601 d).sendClr q).phaseBad q = false →
    exec (.phaseClear r d) s = .next (((((s.beginDesc r 0x0601 d).sendClr q).phaseSpare q).logC (.host r) 2 0 0x0601 4 q 2 1).completeLate
      r 0x0601 d 0 0 0)) ∧
  (∀ (s : State) (r q : Nat) (d : Desc), q = bits d.p0 0 8 → s.serves 0 r 0x0601 d { priv := 2, standby := true, parOk := decide (q < 156) } →
    q < 0x80 ∨ 0x84 < q → s.role q = 2 ∨ s.pst q = 8 → ((s.beginDesc r 0x0601 d).sendClr q).phaseBad q = true →
    exec (.phaseClear r d) s = .next (((s.beginDesc r 0x0601 d).sendClr q).completeLate r 0x0601 d 0x1B 0 0)) ∧
  (∀ (s : State) (r q : Nat) (d : Desc),
    let u := s.beginDesc r 0x0602 d
    let p := u.stage1 r 4 0x0602 q (u.role q) d.p1 u.leadPeriod (.phaseRole q d.p1)
    q = bits d.p0 0 8 → s.serves 0 r 0x0602 d { priv := 2, standby := true, parOk := decide (q < 156 ∧ d.p1 ≤ 1) } →
    s.pst q ≠ 8 → s.role q ≠ 2 → d.p1 ≠ 1 ∨ 52 ≤ q ∨ s.mrset.contains q = false →
    exec (.phaseRole r d) s = .next (p.2.completeLate r 0x0602 d 2 0 p.1)) ∧
  (∀ (s : State) (r q : Nat) (d : Desc), q = bits d.p0 0 8 → s.serves 0 r 0x0602 d { priv := 2, standby := true, parOk := decide (q < 156 ∧ d.p1 ≤ 1) } →
    s.pst q ≠ 8 → s.role q ≠ 2 → d.p1 = 1 → q < 52 → s.mrset.contains q = true →
    exec (.phaseRole r d) s = .next ((s.beginDesc r 0x0602 d).completeLate r 0x0602 d 0x1E 0 2)) ∧
  (∀ (s : State) (r l : Nat) (d : Desc), l = bits d.p0 0 6 → s.serves 0 r 0x0603 d { priv := 2, standby := true, parOk := decide (l < 40) } →
    l < 39 → s.linkMapped l = true → s.linkUp l = false → (s.link l).training = false →
    exec (.linkRetrain r d) s = .next ((((s.beginDesc r 0x0603 d).linkMod l fun x => { x with training := true, good := 0 }).logC
      (.host r) 2 0 0x0603 4 l 0 0).completeLate r 0x0603 d 0 0 0)) ∧
  (∀ (s : State) (r l : Nat) (d : Desc), l = bits d.p0 0 6 → s.serves 0 r 0x0603 d { priv := 2, standby := true, parOk := decide (l < 40) } →
    l = 39 ∨ s.linkMapped l = false →
    exec (.linkRetrain r d) s = .next ((s.beginDesc r 0x0603 d).completeLate r 0x0603 d 0x1E 0 1))

/-- The Fennal carrier (R365 to R385): beacon instants, leadership, access to the medium, frames received and keys. -/
def Obligations.FennalCommands : Prop :=
  (∀ s : State,
    let u := (s.stopLead).maskDue (s.instant % 2 ^ 32)
    s.fenUp = false → exec .beaconInstant s = .next (u.fenMod fun f => { f with miss := f.miss + 1, missAny := f.missAny + 1 })) ∧
  (∀ (s : State),
    let u := (s.stopLead).maskDue (s.instant % 2 ^ 32)
    u.on Reg.FEN_STAT_BEACONING = false →
    exec .beaconInstant s = .next (u.fenMod fun f => { f with miss := f.miss + 1, missAny := f.missAny + 1 })) ∧
  (∀ (s : State),
    let u := (s.stopLead).maskDue (s.instant % 2 ^ 32)
    u.fenUp = true → u.on Reg.FEN_STAT_BEACONING = true → s.instant % 10 ≠ 0 →
    exec .beaconInstant s = .next (
      let v := (u.maskJudge s.instant).frameFrom (u.maskJudge s.instant).rank
      if v.medium = true then v.fenMod fun f => { f with bWait := some s.instant } else v.sendBeacon s.instant)) ∧
  (∀ (s : State) (n : Nat), s.fen.bWait = some n →
    exec .beaconSkipped s = .next ((s.bump Reg.FEN_BSKIP).fenMod fun f => { f with
      bWait := none, pend := f.pend.map fun e => if e.1 = (n + 2) % 2 ^ 32 then ((n + 3) % 2 ^ 32, e.2) else e })) ∧
  (∀ s : State, s.on Reg.FEN_STAT_BEACONING = false → s.on Reg.FEN_STAT_JOINED = true → s.on Reg.FEN_STAT_BLOST = false →
    5 ≤ s.fen.miss → s.fen.missAny < 100 →
    exec .beaconLoss s = .next (
      let u := ((s.set Reg.FEN_STAT_BLOST 1).set Reg.FEN_STAT_ALIGNED 0).fenMod fun f => { f with near := 0 }
      let u := u.evt 6 0x0701 (le 1 (u.get Reg.FEN_STAT_LRANK) ++ zeros 3 ++ le 4 (u.get Reg.FEN_BCN) ++ zeros 4)
      let v := (u.levelOn (detN 19 2) 0 (u.get Reg.FEN_STAT_LRANK)).groupJudge
      if v.on Reg.FEN_STAT_JOINED && decide (100 ≤ v.fen.missAny) then
        ((v.set Reg.FEN_STAT_JOINED 0).set Reg.FEN_STAT_LRANKV 0).groupJudge else v)) ∧
  (∀ s : State, s.on Reg.FEN_STAT_BEACONING = true → exec .beaconLoss s = .next s) ∧
  (∀ (s : State) (src rx : Nat) (p : List Byte), s.fenUp = true →
    exec (.beacon src rx p) s = .next (((s.bump Reg.FEN_RXOK).frameFrom src).takeBeacon src rx p)) ∧
  (∀ (s : State) (src rx : Nat) (p : List Byte), s.fenUp = false → exec (.beacon src rx p) s = .next s) ∧
  (∀ s : State, s.eligible = true → s.on Reg.FEN_STAT_BEACONING = false → 5 + s.rank ≤ s.fen.missAny → s.on Reg.FEN_STAT_JOINED = true →
    exec .leaderStart s = .next (
      let u := ((s.setS Reg.FEN_GOFS (s.gofs s.time)).set Reg.FEN_RATE 0).fenMod fun f =>
        { f with upd := ((s.setS Reg.FEN_GOFS (s.gofs s.time)).set Reg.FEN_RATE 0).time, miss := 0, missAny := 0, near := 0, far := 0 }
      let u := (u.set Reg.FEN_STAT_BEACONING 1).setLeader u.rank (s.instant % 2 ^ 32)
      let u := ((((u.set Reg.FEN_STAT_BLOST 0).levelOff (detN 19 2)).set Reg.FEN_STAT_ALIGNED 1).set Reg.FEN_STAT_JOINED 1).grpMod fun g =>
        { g with lapsed := false }
      (u.renew s.instant true).groupJudge)) ∧
  (∀ s : State, s.fen.missAny < 5 + s.rank → exec .leaderStart s = .next s) ∧
  (∀ s : State, exec (.carrierSenseChange none) s = .next (s.freeze.fenMod fun f => { f with busy := true, low := none })) ∧
  (∀ (s : State) (e : Int), (s.get Reg.FEN_PHY_CSTHR : Int) * 10 < e →
    exec (.carrierSenseChange (some e)) s = .next (s.freeze.fenMod fun f => { f with busy := true, low := none })) ∧
  (∀ (s : State) (e : Int) (t : Nat), e < (s.get Reg.FEN_PHY_CSTHR : Int) * 10 → s.fen.low.getD s.time = t → t + 12000 ≤ s.time → s.fen.busy = true →
    exec (.carrierSenseChange (some e)) s = .next (s.fenMod fun f => { f with low := some t, busy := false, idleAt := s.time })) ∧
  (∀ (s : State) (e : Int) (t : Nat), e < (s.get Reg.FEN_PHY_CSTHR : Int) * 10 → s.fen.low.getD s.time = t → s.time < t + 12000 →
    exec (.carrierSenseChange (some e)) s = .next (s.fenMod fun f => { f with low := some t })) ∧
  (∀ (s : State) (n : Nat), s.fenUp = true → s.halted = false → s.medium = false → s.idleSince + aifs 3 ≤ s.time → s.fen.bWait = some n →
    exec .backoffExpiry s = .next (s.sendBeacon n)) ∧
  (∀ (s : State) (x : FenTx), s.fenUp = true → s.fen.bWait = none → s.fenQuiet = false → s.on Reg.FEN_STAT_FAR = false →
    s.nextFrame = some x → s.medium = false → s.idleSince + aifs x.pri ≤ s.time → x.count ≤ s.slots x → exec .backoffExpiry s = .next s.sendNext) ∧
  (∀ s : State, s.fenUp = false ∨ s.medium = true ∨ (s.fen.bWait = none ∧ (s.fenQuiet = true ∨ s.on Reg.FEN_STAT_FAR = true ∨ s.nextFrame = none)) →
    exec .backoffExpiry s = .next s) ∧
  (∀ (s : State) (x : FenTx), s.fen.flight = some x → s.get Reg.FEN_CTL_RETRY ≤ x.tries →
    exec .ackTimeout s = .next ((s.fenMod fun f => { f with flight := none }).bump Reg.FEN_TXDROP)) ∧
  (∀ (s : State) (x : FenTx), s.fen.flight = some x → x.tries < s.get Reg.FEN_CTL_RETRY →
    exec .ackTimeout s = .next (
      let cw := min (2 * x.cw) (cwMax x.pri)
      let p := (s.fenMod fun f => { f with flight := none }).freeze.backoff cw
      (p.2.bump Reg.FEN_RETRIES).fenMod fun f =>
        { f with queue := { x with tries := x.tries + 1, cw := cw, count := p.1, since := p.2.time } :: f.queue })) ∧
  (∀ (s : State) (src seq : Nat), s.fenUp = true → exec (.ack src seq) s = .next (((s.bump Reg.FEN_RXOK).frameFrom src).takeAck src (rd (le 4 seq) 0 4))) ∧
  (∀ (s : State) (rx : Nat) (x : List (List Int)), s.on Reg.FEN_CTL_EN = true → exec (.fennalFrame rx false x) s = .next (s.bump Reg.FEN_RXCRC)) ∧
  (∀ (s : State) (rx : Nat) (x : List (List Int)) (b : List Byte), s.demod rx x = b → s.on Reg.FEN_CTL_EN = true → rd b 12 2 ≤ 256 →
    b.length = 28 + rd b 12 2 → rd b (b.length - 4) 4 = crc32 (b.take (b.length - 4)) → s.get Reg.FEN_GROUP = 0 ∨ rd b 4 4 ≠ s.get Reg.FEN_GROUP →
    exec (.fennalFrame rx true x) s = .next s.stranger) ∧
  (∀ (s : State) (rx : Nat) (x : List (List Int)) (b k : List Byte), s.demod rx x = b → s.on Reg.FEN_CTL_EN = true → rd b 12 2 ≤ 256 → b.length = 28 + rd b 12 2 →
    rd b (b.length - 4) 4 = crc32 (b.take (b.length - 4)) → s.get Reg.FEN_GROUP ≠ 0 → rd b 4 4 = s.get Reg.FEN_GROUP →
    s.fenKey (bits (rd b 1 1) 0 1) = some k → (cmac k (b.take (16 + rd b 12 2))).take 8 = (b.drop (16 + rd b 12 2)).take 8 →
    headerGood b = true → rd b 2 1 ≠ s.rank ∨ s.fenSent (rd b 8 4) = true → rd b 3 1 = 0xFF ∨ rd b 3 1 = s.rank →
    exec (.fennalFrame rx true x) s = .next (s.seqCheck rx b)) ∧
  (∀ (s : State) (rx : Nat) (x : List (List Int)) (b k : List Byte), s.demod rx x = b → s.on Reg.FEN_CTL_EN = true → rd b 12 2 ≤ 256 → b.length = 28 + rd b 12 2 →
    rd b (b.length - 4) 4 = crc32 (b.take (b.length - 4)) → s.get Reg.FEN_GROUP ≠ 0 → rd b 4 4 = s.get Reg.FEN_GROUP →
    s.fenKey (bits (rd b 1 1) 0 1) = some k → (cmac k (b.take (16 + rd b 12 2))).take 8 = (b.drop (16 + rd b 12 2)).take 8 →
    headerGood b = true → rd b 2 1 = s.rank → s.fenSent (rd b 8 4) = false → rd b 3 1 = 0xFF →
    exec (.fennalFrame rx true x) s = .next (s.posClaim.seqCheck rx b)) ∧
  (∀ (s : State) (rx : Nat) (g : Bool) (x : List (List Int)), s.on Reg.FEN_CTL_EN = false → exec (.fennalFrame rx g x) s = .next s) ∧
  (∀ (s : State) (src : Nat) (p : List Byte), s.fenUp = true →
    exec (.toneReport src p) s = .next (((s.bump Reg.FEN_RXOK).frameFrom src).fenMod fun f =>
      { f with tones := Tab.put f.tones src (((s.bump Reg.FEN_RXOK).frameFrom src).time, ofLe p) })) ∧
  (∀ (s : State) (snr : List Int), s.fenUp = false → exec (.toneReportDue snr) s = .next (
    (List.range 16).foldl (fun s w => s.set (Reg.FEN_SNR w) (toneClasses snr / 2 ^ (32 * w) % 2 ^ 32)) s)) ∧
  (∀ (s : State) (snr : List Int),
    let u := (List.range 16).foldl (fun s w => s.set (Reg.FEN_SNR w) (toneClasses snr / 2 ^ (32 * w) % 2 ^ 32)) s
    u.fenUp = true → u.on Reg.FEN_STAT_JOINED = true → u.on Reg.FEN_STAT_FAR = false →
    exec (.toneReportDue snr) s = .next (u.queueFrame 3 1 (le 64 u.ownTones))) ∧
  (∀ (s : State) (r : Nat) (d : Desc),
    let u := s.beginDesc r 0x0701 d
    let b := bufBytes d
    let key := (b.drop 16).take 16
    let p := u.stage1 r 6 0x0701 (rd b 0 1) (kcv (u.fenKey (rd b 0 1))) (kcv (some key)) u.leadPeriod (.fennalKey (rd b 0 1) (some key))
    s.serves 0 r 0x0701 d { priv := 3, standby := true, buf := .reads, lenOk := fun n => decide (32 ≤ n) } → rd b 0 1 < 2 → rd b 1 15 = 0 →
    s.get Reg.FEN_STAT_KEYTX ≠ rd b 0 1 → ofLe key ≠ 0 →
    exec (.fennalKey r d) s = .next (p.2.completeLate r 0x0701 d 2 32 p.1)) ∧
  (∀ (s : State) (r : Nat) (d : Desc),
    s.serves 0 r 0x0701 d { priv := 3, standby := true, buf := .reads, lenOk := fun n => decide (32 ≤ n) } → rd (bufBytes d) 0 1 < 2 →
    rd (bufBytes d) 1 15 = 0 → s.get Reg.FEN_STAT_KEYTX = rd (bufBytes d) 0 1 →
    exec (.fennalKey r d) s = .next ((s.beginDesc r 0x0701 d).completeLate r 0x0701 d 0x1E 0 1)) ∧
  (∀ (s : State) (r : Nat) (d : Desc),
    let u := s.beginDesc r 0x0702 d
    let p := u.stage1 r 6 0x0702 d.p0 (kcv (u.fenKey (u.get Reg.FEN_STAT_KEYTX))) (kcv (u.fenKey d.p0)) u.leadPeriod (.fennalTx d.p0)
    s.serves 0 r 0x0702 d { priv := 3, standby := true, parOk := decide (d.p0 < 2) } → (s.fenKey d.p0).isSome = true →
    exec (.fennalKeytx r d) s = .next (p.2.completeLate r 0x0702 d 2 0 p.1)) ∧
  (∀ (s : State) (r : Nat) (d : Desc),
    let u := s.beginDesc r 0x0703 d
    let p := u.stage1 r 6 0x0703 d.p0 (kcv (u.fenKey d.p0)) 0 u.leadPeriod (.fennalKey d.p0 none)
    s.serves 0 r 0x0703 d { priv := 3, standby := true, parOk := decide (d.p0 < 2) } → s.get Reg.FEN_STAT_KEYTX ≠ d.p0 →
    exec (.fennalKeydel r d) s = .next (p.2.completeLate r 0x0703 d 2 0 p.1)) ∧
  (∀ (s : State) (r : Nat) (d : Desc),
    s.serves 0 r 0x0703 d { priv := 3, standby := true, parOk := decide (d.p0 < 2) } → s.get Reg.FEN_STAT_KEYTX = d.p0 →
    exec (.fennalKeydel r d) s = .next ((s.beginDesc r 0x0703 d).completeLate r 0x0703 d 0x1E 0 1))

/-- The rack group (R400 to R415): reports, leaving, contracts, pace notices, and the end of a breach. -/
def Obligations.GroupCommands : Prop :=
  (∀ (s : State) (src : Nat) (p : List Byte), s.fenUp = true →
    exec (.report src p) s = .next (
      let u := (s.bump Reg.FEN_RXOK).frameFrom src
      (u.grpMod fun g => { g with reports := Tab.put g.reports src (u.time, p), leaves := Tab.del g.leaves (src / 2), draws := Tab.put g.draws (src / 2) (rd p 44 4) }).groupJudge)) ∧
  (∀ s : State, s.fenUp = false → exec .reportDue s = .next (s.set Reg.FEN_PACE_STAT_REQ s.paceRequest)) ∧
  (∀ (s : State),
    let u := s.set Reg.FEN_PACE_STAT_REQ s.paceRequest
    u.fenUp = true → u.token = true → u.halted = false → u.on Reg.FEN_STAT_JOINED = true → u.on Reg.FEN_STAT_FAR = false →
    exec .reportDue s = .next ((u.grpMod fun g =>
      { g with reports := Tab.put g.reports u.rank (u.time, u.reportBytes), frames := Tab.put g.frames (u.rank / 2) u.time }).queueFrame
        0x10 2 u.reportBytes)) ∧
  (∀ (s : State) (src : Nat) (p : List Byte), s.fenUp = true → rd p 2 1 ≠ 2 →
    exec (.fennalLeave src p) s = .next (((s.bump Reg.FEN_RXOK).frameFrom src).grpMod fun g =>
      { g with leaves := Tab.put g.leaves (src / 2) (rd p 2 1, src), reports := Tab.del g.reports src })) ∧
  (∀ (s : State) (src : Nat) (p : List Byte), s.fenUp = true → rd p 2 1 = 2 →
    exec (.fennalLeave src p) s = .next (((s.bump Reg.FEN_RXOK).frameFrom src).grpMod fun g =>
      { g with leaves := Tab.put g.leaves (src / 2) (2, src),
               reports := Tab.del (Tab.del g.reports (src / 2 * 2)) (src / 2 * 2 + 1) })) ∧
  (∀ s : State, s.contractDue = none → exec .contractEffective s = .next s) ∧
  (∀ (s : State) (c : Contract), s.contractDue = some c → s.grp.inForce.map (·.cnum) ≠ some c.cnum →
    exec .contractEffective s = .next (
      let mine := (c.share[s.rank / 2]?).getD 0
      let u := (s.grpMod fun g => { g with inForce := some c }).galMod fun g => { g with share := mine }
      let u := if s.time % 20000 = 0 then u.set Reg.PRS_GAL_SHARE_SIGMA mine else u
      let u := (u.set Reg.FEN_GRP_CNUM c.cnum).groupJudge.envelope
      let u := u.logC (.fennal (u.get Reg.FEN_STAT_LRANK)) 3 0 0 6 c.cnum s.sigma mine
      u.evt 6 0x0710 (le 4 c.cnum ++ le 4 mine ++ le 1 (u.get Reg.FEN_STAT_LRANK) ++ le 1 (u.get Reg.FEN_GRP_STAT_CONSV) ++ zeros 2))) ∧
  (∀ (s : State) (c : Contract), s.contractDue = some c → s.grp.inForce.map (·.cnum) = some c.cnum →
    exec .contractEffective s = .next (
      let mine := (c.share[s.rank / 2]?).getD 0
      let u := (s.grpMod fun g => { g with inForce := some c }).galMod fun g => { g with share := mine }
      let u := if s.time % 20000 = 0 then u.set Reg.PRS_GAL_SHARE_SIGMA mine else u
      (u.set Reg.FEN_GRP_CNUM c.cnum).groupJudge.envelope)) ∧
  (∀ s : State, s.grp.inForce.isSome = true → s.on Reg.FEN_STAT_BEACONING = false →
    exec .contractLapse s = .next (((s.grpMod fun g => { g with lapsed := true }).groupJudge).envelope)) ∧
  (∀ s : State, s.grp.inForce = none → exec .contractLapse s = .next s) ∧
  (∀ (s : State) (src : Nat) (p : List Byte), s.fenUp = true →
    ((s.bump Reg.FEN_RXOK).frameFrom src).grpMode ≠ 1 → ((s.bump Reg.FEN_RXOK).frameFrom src).grpMode ≠ 2 → rd p 4 1 ≠ 3 →
    exec (.pace src p) s = .next ((((s.bump Reg.FEN_RXOK).frameFrom src).grpMod fun g => { g with noticeMax := rd p 0 4 }).set
      Reg.FEN_PACE_STAT_ACT (rd p 4 1))) ∧
  (∀ (s : State) (src : Nat) (p : List Byte), s.fenUp = true →
    exec (.pace src p) s = .next (((s.bump Reg.FEN_RXOK).frameFrom src).takePace p)) ∧
  (∀ s : State, s.on Reg.FEN_STAT_BEACONING = false → exec .paceDue s = .next s) ∧
  (∀ s : State, s.fenUp = true → s.on Reg.FEN_STAT_BEACONING = true → s.halted = false → s.liveReports = [] → s.grp.owed = false →
    exec .paceDue s = .next (s.set Reg.FEN_PACE_STAT_ACT 0)) ∧
  (∀ (s : State) (src : Nat) (b : List Byte), s.fenUp = true → s.on Reg.FEN_STAT_BEACONING = true → s.halted = false →
    s.liveReports = [(src, b)] → rd b 52 1 = 1 →
    exec .paceDue s = .next (
      let u := s.grpMod fun g => { g with zeroAt := none, owed := true }
      let p := le 4 (u.grp.noticeMax + 1) ++ le 1 1 ++ le 1 0 ++ le 2 0xFFFF ++ le 4 ((u.rackVals[0]?).getD 0) ++
        le 4 (((u.groupTime / 1000000 + 500) % (2 ^ 32 : Nat)).toNat)
      (u.queueFrame 0x12 3 p).takePace p)) ∧
  (∀ (s : State) (num : Nat) (n : Notice), s.grp.notices.find? (fun n => n.num == num) = some n → n.lost = false → n.acked = false →
    exec (.paceAckTimeout num) s = .next (
      ((((s.grpMod fun g => { g with notices := g.notices.map fun m => if m.num = num then { m with lost := true } else m }).bump
        Reg.FEN_PACEUND).slug 0x21 4 num n.action 0 0).unack))) ∧
  (∀ (s : State) (num : Nat) (n : Notice), s.grp.notices.find? (fun n => n.num == num) = some n → n.lost = true ∨ n.acked = true →
    exec (.paceAckTimeout num) s = .next s) ∧
  (∀ (s : State) (r : Nat) (d : Desc) (n : Notice), s.serves 0 r 0x0711 d { priv := 1, standby := true } →
    s.grp.notices.find? (fun n => n.num == d.p0 && !n.entries.isEmpty && decide (s.time < n.time + 1000000000)) = some n →
    exec (.paceAck r d) s = .next (
      let u := ((s.beginDesc r 0x0711 d).grpMod fun g =>
        { g with notices := g.notices.map fun m => if m.num = n.num then { m with acked := true } else m }).logC (.host r) 2 0 0x0711 6 n.num 0 0
      ((u.slug 0x22 0 n.num ((u.time - n.time) / 1000) 0 0).unack).completeLate r 0x0711 d 0 0 0)) ∧
  (∀ (s : State) (r : Nat) (d : Desc), s.serves 0 r 0x0711 d { priv := 1, standby := true } → s.grp.notices = [] →
    exec (.paceAck r d) s = .next ((s.beginDesc r 0x0711 d).completeLate r 0x0711 d 0x1E 0 1)) ∧
  (∀ (s : State) (t : Nat), s.chs.rmp.brAt = some t →
    exec .breachEnd s = .next (
      let r := s.chs.rmp
      let dur := (r.brLast + s.periodNs - t) / 1000
      let w := (r.brMax + 500000) / 1000000
      let u := s.evt 3 0x0510 (le 1 3 ++ le 1 r.brRank ++ zeros 2 ++ le 4 dur ++ le 4 w)
      let u := (u.slug 0x10 (3 * 256 + r.brRank) dur w (t / 1000000) r.brN).raise (detN 13 8) 0 3
      (u.set Reg.CHS_RMP_STAT_BREACH 0).chsMod fun c => { c with rmp := { c.rmp with brAt := none } })) ∧
  (∀ s : State, s.chs.rmp.brAt = none → exec .breachEnd s = .next s)

/-- The storage rings (R422 to R442): snapshots, collection, enumeration, breaks, configuration, wire tests and balancing. -/
def Obligations.RingCommands : Prop :=
  (∀ (s : State) (k : Nat), s.masters k = false → exec (.snapDue k) s = .next (s.snapPoint k)) ∧
  (∀ (s : State) (k : Nat), s.masters k = true →
    (s.get (Reg.BUP_RSTAT_STATE k) ≠ 1 ∧ s.get (Reg.BUP_RSTAT_STATE k) ≠ 2) ∨ (s.bring k).enum ≠ 0 ∨ (s.bring k).echo.isSome = true ∨ s.periodRuns = true →
    exec (.snapDue k) s = .next s) ∧
  (∀ (s : State) (k : Nat),
    s.masters k = true → (s.get (Reg.BUP_RSTAT_STATE k) = 1 ∨ s.get (Reg.BUP_RSTAT_STATE k) = 2) → (s.bring k).enum = 0 →
    (s.bring k).echo = none → s.periodRuns = false →
    exec (.snapDue k) s = .next (
      let u := s.snapPoint k
      let r := s.bring k
      let id := (u.get (Reg.BUP_RSTAT_SNAP k) + 1) % 256
      let hold := if u.fastCause k then u.time + u.get Reg.BUP_SNAP_FHOLD * 100000000 else r.hold
      let want := u.fastCause k || decide (u.time < hold)
      let ow := (r.owAsk.head?).getD 0
      let normal := if u.get Reg.BUP_SNAP_NPER = 0 then 10 else u.get Reg.BUP_SNAP_NPER
      let ms := if r.announced then (if ow = 0 then 1 else 3) else normal
      let at_ := u.sampleInstant k (max u.time r.next)
      let v := (u.set (Reg.BUP_RSTAT_SNAP k) id).putBit Reg.BUP_STAT_FAST k r.announced
      let v := v.bringMod k fun x =>
        { x with snaps := (({ id := id, at_ := at_.1, ow := x.owNext, valley := at_.2 } : SnapX) :: x.snaps).take 16,
                 next := max u.time r.next + ms * 1000000, fast := r.announced, announced := want, hold := hold, owNext := ow,
                 owAsk := r.owAsk.drop 1, turn := if r.announced && x.fast then x.turn else 1 }
      let mode := u.get (Reg.BUP_RTGT_GRP k) + (if want then 4 else 0) + (if r.owNext = 0 then 0 else 8) + 16 * ow
      v.bupAll k 2 0 (le 1 id ++ le 2 (ms * 100) ++ le 1 mode ++ zeros 2))) ∧
  (∀ (s : State) (k p d : Nat) (f : List Byte), f.length < 6 ∨ crc16 (f.take (f.length - 2)) ≠ rd f (f.length - 2) 2 →
    s.masters k = true →
    exec (.snap k p f) s = .next (s.bump (Reg.BUP_RCRC k)) ∧ exec (.collect k p f) s = .next (s.bump (Reg.BUP_RCRC k)) ∧
    exec (.enum k p f d) s = .next (s.bump (Reg.BUP_RCRC k)) ∧ exec (.echo k p f) s = .next (s.bump (Reg.BUP_RCRC k)) ∧
    exec (.bupilinCfg k p f) s = .next (s.bump (Reg.BUP_RCRC k))) ∧
  (∀ (s : State) (k p a fl : Nat) (f args recs : List Byte), bupParts f 2 a fl args recs → args.length = 6 → s.masters k = true →
    (s.bring k).snaps = [] → (s.bring k).fast = false → recs = [] →
    exec (.snap k p f) s = .next (
      let id := rd args 0 1
      (s.bringMod k fun r => { r with setId := id }).bupAll k 3 0 (le 1 id ++ le 1 1 ++ le 1 24 ++ le 1 0))) ∧
  (∀ (s : State) (k p a fl : Nat) (f args recs : List Byte), bupParts f 3 a fl args recs → args.length = 4 →
    (s.strX k).learn = none →
    exec (.collect k p f) s = .next (
      let got := (List.range (recs.length / 44)).map fun j => (recs.drop (44 * j)).take 44
      let named := (s.side k p).filter fun a => decide (rd args 1 1 ≤ a ∧ a < rd args 1 1 + rd args 2 1)
      let u := got.foldl (fun s b => s.nodeRecord k b) s
      let u := (named.filter fun a => !(got.any fun b => rd b 0 1 == a)).foldl (fun s a => s.noRecord k a) u
      let u := match (u.strX k).learn, (u.bring k).snaps.find? fun x => some x.id == (u.strX k).learn with
        | some id, some x => if u.hasAll k id then u.learnR0 k id (u.cellCur k (u.snapCur k x).1 (u.snapCur k x).2) else u
        | _, _ => u
      ((u.staleJudge k).strUpdate k).fullSet k)) ∧
  (∀ (s : State) (k a fl dl n : Nat) (f args recs : List Byte), bupParts f 1 a fl args recs → args.length = 2 → s.masters k = true →
    (s.bring k).enum = 1 → bit fl 1 = true → n = rd args 0 1 → n = (s.bring k).num → n ≠ 25 → (s.bring k).seen.contains n = false →
    exec (.enum k 0 f dl) s = .next (
      ((((s.takeEnum k n recs).set (Reg.BUP_RSTAT_NOUT k) n).bringMod k fun r => { r with num := n + 1 }).bupSend k 0 1 0 0
        (le 1 (n + 1) ++ le 1 0)))) ∧
  (∀ (s : State) (k a fl dl : Nat) (f args recs : List Byte), bupParts f 1 a fl args recs → args.length = 2 → s.masters k = true →
    (s.bring k).enum = 1 → bit fl 1 = true → rd args 0 1 = 25 → (s.bring k).num = 25 →
    exec (.enum k 0 f dl) s = .next (s.enumFault k)) ∧
  (∀ (s : State) (k a fl dl : Nat) (f args recs : List Byte), bupParts f 1 a fl args recs → args.length = 2 → s.masters k = true →
    (s.bring k).enum = 3 → bit fl 1 = false →
    exec (.enum k 0 f dl) s = .next (((s.set (Reg.BUP_RLOOP k) dl).set (Reg.BUP_RSTAT_NRET k) 24).enumDone k true)) ∧
  (∀ (s : State) (k : Nat), s.masters k = true → (s.bring k).enum = 1 →
    exec (.enumTimeout k) s = .next ((s.bringMod k fun r => { r with enum := 2, num := 24 }).bupSend k 1 1 0 0 (le 1 24 ++ le 1 0))) ∧
  (∀ (s : State) (k : Nat), s.masters k = true → (s.bring k).enum = 3 → exec (.enumTimeout k) s = .next (s.enumFault k)) ∧
  (∀ (s : State) (k p a fl : Nat) (f args recs : List Byte), bupParts f 5 a fl args recs → bit fl 1 = true → s.masters k = true →
    (s.bring k).echo.isSome = true → 1 ≤ a → a ≤ 24 →
    exec (.echo k p f) s = .next (
      let u := if p = 0 then s.set (Reg.BUP_RSTAT_NOUT k) (max a (s.get (Reg.BUP_RSTAT_NOUT k)))
        else s.set (Reg.BUP_RSTAT_NRET k) (max (25 - a) (s.get (Reg.BUP_RSTAT_NRET k)))
      if u.get (Reg.BUP_RSTAT_NOUT k) + u.get (Reg.BUP_RSTAT_NRET k) = 24 then u.splitNow k else u)) ∧
  (∀ (s : State) (k p a fl : Nat) (f args recs : List Byte), bupParts f 4 a fl args recs → args.length = 8 → s.masters k = true →
    (s.bring k).cfg.head? = some (rd args 0 1) →
    exec (.bupilinCfg k p f) s = .next (
      let u := s.bringMod k fun r => { r with missing := r.missing.filter fun a => !bit (rd recs 0 3) (a - 1) }
      let here := (u.side k p).filter fun a => (u.bring k).missing.contains a
      if (u.bring k).missing.isEmpty = true then u.cfgNext k
      else if here.isEmpty = true then u
      else if (u.bring k).tries < 3 then u.cfgSend k
      else (here.foldl (fun s a => s.noRecord k a) u).cfgNext k)) ∧
  (∀ (s : State) (k : Nat), s.masters k = true → s.get (Reg.BUP_RSTAT_STATE k) = 1 → (s.bring k).echo = none →
    exec (.ringBreak k) s = .next (
      let u := (((s.bringMod k fun r => { r with echo := some s.time }).retTone k true).set (Reg.BUP_RSTAT_NOUT k) 0).set (Reg.BUP_RSTAT_NRET k) 0
      let u := (List.range 24).foldl (fun s j => s.bupSend k 0 5 (j + 1) 0 []) u
      ((List.range 24).foldl (fun s j => s.bupSend k 1 5 (24 - j) 0 []) u).unitOn (detN 17 k) k)) ∧
  (∀ (s : State) (k : Nat), s.masters k = true → s.ringSplit k = true →
    exec (.ringProbe k false) s = .next (s.bupSend k 0 5 0 4 [])) ∧
  (∀ (s : State) (k n : Nat),
    let u := s.bupSend k 0 5 0 4 []
    s.masters k = true → s.ringSplit k = true → n = u.get (Reg.BUP_RSTAT_NOUT k) → 1 ≤ n → n ≤ 23 →
    exec (.ringProbe k true) s = .next (
      let v := (u.bupSend k 0 6 n 0 (le 1 n ++ le 1 0)).bupSend k 1 6 (n + 1) 0 (le 1 (n + 1) ++ le 1 0)
      let v := v.bringMod k fun r => { r with nodes := r.nodes.map fun e => (e.1, { e.2 with isEnd := false }) }
      let v := ((v.retTone k false).set (Reg.BUP_RSTAT_NOUT k) 24).set (Reg.BUP_RSTAT_NRET k) 24
      ((v.ringTo k 1).levelOff (detN 17 k)).ringJudge k)) ∧
  (∀ (s : State) (k : Nat) (b : Bool), s.masters k = false → exec (.ringBreak k) s = .next s ∧ exec (.ringProbe k b) s = .next s) ∧
  (∀ (s : State) (k : Nat),
    let u := (s.putBit Reg.BUP_STAT_WAKE k true).raise (detN 17 (4 + k)) 0 k
    let u := u.evt 5 0x0803 (le 1 k ++ zeros 3 ++ le 4 (u.time / 1000000) ++ zeros 4)
    s.ringsRun = true → u.get (Reg.BUP_RSTAT_STATE k) = 0 → exec (.wakeTone k) s = .next u) ∧
  (∀ (s : State) (k : Nat), s.ringsRun = false → exec (.wakeTone k) s = .next s) ∧
  (∀ (s : State) (k : Nat), s.get Reg.BUP_OWT_OWPER ≠ 0 → (s.bring k).suspect = [] →
    exec (.owTestDue k) s = .next ((s.owAsk k (3 - (s.bring k).owLast)).bringMod k fun r => { r with owLast := 3 - r.owLast })) ∧
  (∀ (s : State) (k : Nat), exec (.balanceAlt k) s = .next ((s.bringMod k fun r => { r with group := 3 - r.group }).putGroup k)) ∧
  (∀ (s : State) (k : Nat), s.fastCause k = false → exec (.fastHoldExpiry k) s = .next (s.bringMod k fun r => { r with hold := 0 })) ∧
  (∀ (s : State) (k : Nat), s.fastCause k = true → exec (.fastHoldExpiry k) s = .next s) ∧
  (∀ (s : State) (r : Nat) (d : Desc), s.serves 0 r 0x0802 d { priv := 2, standby := true } → s.strArmed (bits d.p0 0 2) = false ∨ bit d.p1 0 = true →
    exec (.ringEnum r d) s = .next ((((s.beginDesc r 0x0802 d).logC (.host r) 2 0 0x0802 5 (bits d.p0 0 2) 0 (bits d.p1 0 1)).enumStart (bits d.p0 0 2)).completeLate r 0x0802 d 0 0 0)) ∧
  (∀ (s : State) (r : Nat) (d : Desc), s.serves 0 r 0x0802 d { priv := 2, standby := true } → s.strArmed (bits d.p0 0 2) = true → bit d.p1 0 = false →
    exec (.ringEnum r d) s = .next ((s.beginDesc r 0x0802 d).completeLate r 0x0802 d 0x1E 0 1)) ∧
  (∀ (s : State) (r : Nat) (d : Desc), s.serves 0 r 0x0803 d { priv := 2, standby := true, parOk := decide (d.p1 = 1 ∨ d.p1 = 2) } →
    exec (.owTest r d) s = .next ((((s.beginDesc r 0x0803 d).logC (.host r) 2 0 0x0803 5 (bits d.p0 0 2) 0 d.p1).bringMod (bits d.p0 0 2) fun x =>
      if x.owAsk.contains d.p1 then x else { x with owAsk := x.owAsk ++ [d.p1] }).completeLate r 0x0803 d 0 0 0)) ∧
  (∀ (s : State) (r : Nat) (d : Desc), s.serves 0 r 0x0804 d { priv := 1, standby := true, parOk := decide (d.p1 ≤ 3600) } →
    exec (.bupFast r d) s = .next (
      let u := (s.beginDesc r 0x0804 d).logC (.host r) 2 0 0x0804 5 (bits d.p0 0 2) 0 d.p1
      let f := u.time + d.p1 * 1000000000
      (u.bringMod (bits d.p0 0 2) fun x => { x with force := f, hold := f + u.get Reg.BUP_SNAP_FHOLD * 100000000 }).completeLate
        r 0x0804 d 0 0 0))

/-- The cells (R448, R456 to R465): rests, the drift alarm, the reported charge, stale cells, tables and early rests. -/
def Obligations.CellCommands : Prop :=
  (∀ s : State, s.restDue = none → exec .restDue s = .next s) ∧
  (∀ (s : State) (k : Nat), s.restDue = some k → s.restFails k = 0 →
    exec .restDue s = .next (
      let i := s.cellCur k ((s.chs.igrp[k + 1]?).join) (s.get Reg.CHS_VBUS)
      let u := s.strMod k fun x =>
        { x with rest := 1, since := s.time, pass := 0, pre := i, learn := none, defer := none, told := false }
      let u := u.bringMod k fun r => { r with nodes := r.nodes.map fun e =>
        (e.1, { e.2 with cells := e.2.cells.map fun c => { c with pre := if c.on && c.full && c.snap == r.setId then some c.uv else none } }) }
      ((u.set (Reg.BUP_EST_STAT_RESTING k) 1).set Reg.BUP_EST_RSTAT_STR (k + 1)).setEarly k false)) ∧
  (∀ (s : State) (k : Nat), s.restDue = some k → s.restFails k ≠ 0 → (s.strX k).defer = none →
    exec .restDue s = .next (s.strMod k fun x => { x with defer := some s.time })) ∧
  (∀ (s : State) (k : Nat), (s.strX k).rest ≠ 2 → exec (.restEnd k) s = .next s) ∧
  (∀ (s : State) (k : Nat), (s.strX k).rest = 2 →
    exec (.restEnd k) s = .next (
      let zc := pctOf (s.zcc k)
      let u := s.bringMod k fun r => { r with nodes := r.nodes.map fun e =>
        (e.1, { e.2 with cells := e.2.cells.map fun c => if c.on && c.full then { c with z := c.zi } else c }) }
      let u := (u.putSoc k).strMod k fun x => { x with rep := x.soc, q := 0, ref := x.soc, last := some (u.putSoc k).time, held := false,
                                                       rest := 3, since := (u.putSoc k).time, learn := none }
      let u := u.setConf k true
      let u := match leastI (u.cleanCells k) with
        | none => u
        | some lo => (((u.set (Reg.BUP_RTGT_TGT k) lo.toNat).bringMod k fun r =>
            { r with balance := decide (((u.get Reg.BUP_BAL_SPREAD * 10 : Nat) : Int) < (u.cleanCells k).foldl max lo - lo) }).putGroup
              k).cfgAdd k [1]
      let u := (u.set (Reg.BUP_EST_STAT_RESTING k) 0).set Reg.BUP_EST_RSTAT_STR 0
      (u.strRegs k).evt 5 0x0810 (le 1 k ++ le 1 0 ++ zeros 2 ++ le 4 (pctOf ((u.strRegs k).strX k).soc) ++ le 4 zc))) ∧
  (∀ (s : State) (k : Nat), s.get Reg.BUP_EST_DRIFT_DTHR ≠ 0 → s.get Reg.BUP_EST_DRIFT_DTIME ≠ 0 → (s.strX k).on = true →
    s.get Reg.BUP_EST_DRIFT_DTHR * 10000 < ((s.strX k).soc - s.zcc k).natAbs →
    exec (.driftAlarm k) s = .next ((s.setConf k false).setEarly k true)) ∧
  (∀ (s : State) (k : Nat), s.get Reg.BUP_EST_DRIFT_DTHR = 0 ∨ (s.strX k).on = false → exec (.driftAlarm k) s = .next s) ∧
  (∀ s : State, (List.range 4).all (fun k => !(s.strX k).on) = true → s.bup.tick < 99 →
    exec .socSlewTick s = .next ({ s with bup := { s.bup with tick := s.bup.tick + 1 } } : State)) ∧
  (∀ s : State,
    exec .socSlewTick s = .next (
      let u := (List.range 4).foldl (fun s k => if !(s.strX k).on then s
        else (s.strMod k fun x => { x with rep := slewTo (s.get Reg.BUP_EST_CTL_SLEW) x.rep x.soc }).strRegs k) s
      let v : State := { u with bup := { u.bup with tick := (u.bup.tick + 1) % 100 } }
      if (u.bup.tick + 1) % 100 = 0 then v.rawEntries else v)) ∧
  (∀ (s : State) (k i : Nat), (((s.bring k).node (i / 16 + 1)).cells[i % 16]?) = none →
    exec (.cellStale k i) s = .next ((s.set (Reg.BUP_EST_STAT_STALE k) 1).strRegs k)) ∧
  (∀ (s : State) (k i : Nat) (c : CellX), (((s.bring k).node (i / 16 + 1)).cells[i % 16]?) = some c → c.on = true →
    s.get Reg.BUP_EST_TAP_STALE = 0 → s.time < c.time + 2000000000 → exec (.cellStale k i) s = .next s) ∧
  (∀ (s : State) (r : Nat) (d : Desc),
    let u := s.beginDesc r 0x0811 d
    let b := bufBytes d
    let p := u.stage1 r 5 0x0811 (4 * bits d.p1 0 2) (digest8 u.socTab.bytes) (digest8 b) u.leadPeriod (.estTable 0 (bits d.p1 0 2) b) true
    s.serves 0 r 0x0811 d { priv := 2, standby := true, buf := .reads, lenOk := fun n => n == tableLen d.p0, parOk := decide (d.p0 ≤ 2) } →
    d.p0 = 0 → (socOf b).isSome = true →
    exec (.estTable r d) s = .next (p.2.completeLate r 0x0811 d 2 d.len p.1)) ∧
  (∀ (s : State) (r : Nat) (d : Desc),
    s.serves 0 r 0x0811 d { priv := 2, standby := true, buf := .reads, lenOk := fun n => n == tableLen d.p0, parOk := decide (d.p0 ≤ 2) } →
    d.p0 = 0 → socOf (bufBytes d) = none →
    exec (.estTable r d) s = .next ((s.beginDesc r 0x0811 d).completeLate r 0x0811 d 0x1E 0 1)) ∧
  (∀ (s : State) (r : Nat) (d : Desc), s.serves 0 r 0x0813 d { priv := 1, standby := true } →
    exec (.restNow r d) s = .next (((((s.beginDesc r 0x0813 d).logC (.host r) 2 0 0x0813 5 (bits d.p0 0 2) 0 1).setEarly (bits d.p0 0 2) true).strMod (bits d.p0 0 2) fun x =>
      { x with tryAt := 0 }).completeLate r 0x0813 d 0 0 0))

/-- The frames of the peer over Roscor (R490, R493 to R504, R509): HB, STATE, TAKEOVER, LEAVING, PCYC, RACK, CFG and BULK; none is taken while the link is down, and one with a bad CRC is counted and dropped. -/
def Obligations.PeerFrames : Prop :=
  (∀ (s : State) (g : Bool) (fl sq n cy : Nat) (p d : List Byte) (c : Staged), s.get Reg.ROS_STAT_UP = 0 →
    exec (.hb g fl sq n p cy) s = .next s ∧ exec (.state g fl sq n p cy) s = .next s ∧ exec (.takeover g fl sq n p) s = .next s ∧
    exec (.leaving g fl sq n p) s = .next s ∧ exec (.pcyc g fl sq n p) s = .next s ∧ exec (.rack g fl sq n p) s = .next s ∧
    exec (.roscorCfg g fl sq n p c d) s = .next s ∧ exec (.bulk g fl sq n p) s = .next s) ∧
  (∀ (s : State) (fl sq n cy : Nat) (p d : List Byte) (c : Staged),
    let u := (s.bump Reg.ROS_CRC).rosMod fun r => { r with bad := r.bad + 1 }
    s.on Reg.ROS_STAT_UP = true → s.ros.bad ≠ 7 →
    exec (.hb false fl sq n p cy) s = .next u ∧
    exec (.state false fl sq n p cy) s = .next u ∧
    exec (.takeover false fl sq n p) s = .next u ∧
    exec (.leaving false fl sq n p) s = .next u ∧
    exec (.pcyc false fl sq n p) s = .next u ∧
    exec (.rack false fl sq n p) s = .next u ∧
    exec (.roscorCfg false fl sq n p c d) s = .next u ∧
    exec (.bulk false fl sq n p) s = .next u) ∧
  (∀ (s : State) (fl sq n cy : Nat) (p d : List Byte) (c : Staged),
    let u := (s.bump Reg.ROS_CRC).rosMod fun r => { r with bad := r.bad + 1 }
    s.on Reg.ROS_STAT_UP = true → s.ros.bad = 7 →
    exec (.hb false fl sq n p cy) s = .next ((u.roscorDown.rosMod fun r => { r with lockRun := 0 }).set Reg.ROS_STAT_LOCK 0) ∧
    exec (.state false fl sq n p cy) s = .next ((u.roscorDown.rosMod fun r => { r with lockRun := 0 }).set Reg.ROS_STAT_LOCK 0) ∧
    exec (.takeover false fl sq n p) s = .next ((u.roscorDown.rosMod fun r => { r with lockRun := 0 }).set Reg.ROS_STAT_LOCK 0) ∧
    exec (.leaving false fl sq n p) s = .next ((u.roscorDown.rosMod fun r => { r with lockRun := 0 }).set Reg.ROS_STAT_LOCK 0) ∧
    exec (.pcyc false fl sq n p) s = .next ((u.roscorDown.rosMod fun r => { r with lockRun := 0 }).set Reg.ROS_STAT_LOCK 0) ∧
    exec (.rack false fl sq n p) s = .next ((u.roscorDown.rosMod fun r => { r with lockRun := 0 }).set Reg.ROS_STAT_LOCK 0) ∧
    exec (.roscorCfg false fl sq n p c d) s = .next ((u.roscorDown.rosMod fun r => { r with lockRun := 0 }).set Reg.ROS_STAT_LOCK 0) ∧
    exec (.bulk false fl sq n p) s = .next ((u.roscorDown.rosMod fun r => { r with lockRun := 0 }).set Reg.ROS_STAT_LOCK 0)) ∧
  (∀ (s : State) (fl sq n rx : Nat) (p : List Byte),
    let h : PeerHb := { token := bit fl 2, stage := rd p 8 1, flags := rd p 9 1, epoch := rd p 10 2, chg := rd p 12 4, lastCp := rd p 16 8, sameSeat := decide (fl % 2 = s.get Reg.GLB_SEAT_SEAT) }
    s.on Reg.ROS_STAT_UP = true → bit fl 1 = true → bit fl 2 = false → s.ros.prove = none →
    exec (.hb true fl sq n p rx) s = .next (
      let u := s.seatJudge h.sameSeat
      let u := u.rosMod fun r => { r with hb := some h, got := true }
      let u := (u.peerReady (bit (rd p 9 1) 0)).set Reg.ROS_STAT_PSTAGE (rd p 8 1)
      if u.on Reg.ROS_STAT_CFGLAG && rd p 12 4 == u.ros.imposed then u.set Reg.ROS_STAT_CFGLAG 0 else u)) ∧
  (∀ (s : State) (fl sq n rx : Nat) (p : List Byte), s.on Reg.ROS_STAT_UP = true → bit fl 1 = false →
    exec (.hb true fl sq n p rx) s = .next s ∧ exec (.state true fl sq n p rx) s = .next s) ∧
  (∀ (s : State) (fl sq n rx : Nat) (p : List Byte),
    let h : PeerHb := { token := true, stage := rd p 8 1, flags := rd p 9 1, epoch := rd p 10 2, chg := rd p 12 4, lastCp := rd p 16 8, sameSeat := decide (fl % 2 = s.get Reg.GLB_SEAT_SEAT) }
    let u := s.seatJudge h.sameSeat
    let u := u.rosMod fun r => { r with hb := some h, got := true }
    let u := (u.peerReady (bit (rd p 9 1) 0)).set Reg.ROS_STAT_PSTAGE (rd p 8 1)
    s.on Reg.ROS_STAT_UP = true → bit fl 1 = true → bit fl 2 = true → u.standby = true → s.ros.prove = none →
    exec (.hb true fl sq n p rx) s = .next (
      let v := u.seatLock n (rd p 0 8) rx
      if v.on Reg.ROS_STAT_CFGLAG && rd p 12 4 == v.ros.imposed then v.set Reg.ROS_STAT_CFGLAG 0 else v)) ∧
  (∀ (s : State) (fl sq n cy : Nat) (p : List Byte), s.on Reg.ROS_STAT_UP = true → bit fl 1 = true → s.standby = true → cy ≤ 320 →
    exec (.state true fl sq n p cy) s = .next (
      let u := (s.set Reg.ROS_LASTCP (rd p 0 8)).rosMod fun r =>
        { r with copies := ((rd p 0 8, p) :: r.copies.filter fun e => e.1 != rd p 0 8).take 2, copyGot := true,
                 held := ((rd p 0 8, rd p 12 4) :: r.held).take 8 }
      (u.loadPhases p).dutyCompare (rd p 0 8))) ∧
  (∀ (s : State) (fl sq n cy : Nat) (p : List Byte), s.on Reg.ROS_STAT_UP = true → bit fl 1 = true → s.standby = true → 320 < cy →
    exec (.state true fl sq n p cy) s = .next (
      let u := ((s.bump Reg.ROS_LATE).set Reg.ROS_LASTCP (rd p 0 8)).rosMod fun r =>
        { r with copies := ((rd p 0 8, p) :: r.copies.filter fun e => e.1 != rd p 0 8).take 2, copyGot := true,
                 held := ((rd p 0 8, rd p 12 4) :: r.held).take 8 }
      (u.loadPhases p).dutyCompare (rd p 0 8))) ∧
  (∀ (s : State) (fl sq n cy : Nat) (p : List Byte), s.on Reg.ROS_STAT_UP = true → bit fl 1 = true → s.standby = false →
    s.token = true → s.chs.gap = true → cy ≤ 320 → 1000 ≤ s.get Reg.CHS_PERIOD_CYC → s.get Reg.ROS_LASTCP < rd p 0 8 →
    exec (.state true fl sq n p cy) s = .next ((s.loadCopy p).set Reg.ROS_LASTCP (rd p 0 8))) ∧
  (∀ (s : State) (fl sq n cy : Nat) (p : List Byte), s.on Reg.ROS_STAT_UP = true → bit fl 1 = true → s.standby = false →
    s.chs.gap = false ∨ 320 < cy ∨ rd p 0 8 ≤ s.get Reg.ROS_LASTCP →
    exec (.state true fl sq n p cy) s = .next s) ∧
  (∀ (s : State) (fl sq n : Nat) (p : List Byte), s.on Reg.ROS_STAT_UP = true → s.standby = true → s.haltSet = false → rd p 0 1 = 1 →
    exec (.takeover true fl sq n p) s = .next (s.rosMod fun r => { r with asked := true })) ∧
  (∀ (s : State) (fl sq n : Nat) (p : List Byte), s.on Reg.ROS_STAT_UP = true → s.standby = true → s.haltSet = false →
    2 ≤ rd p 0 1 → rd p 0 1 ≤ 5 →
    exec (.takeover true fl sq n p) s = .next (s.rosMod fun r =>
      { r with hand := some { kind := rd p 0 1, at_ := s.ownPeriod (rd p 8 8), gives := false } })) ∧
  (∀ (s : State) (fl sq n : Nat) (p : List Byte), s.on Reg.ROS_STAT_UP = true → s.standby = false ∨ s.haltSet = true →
    exec (.takeover true fl sq n p) s = .next s) ∧
  (∀ (s : State) (fl sq n : Nat) (p : List Byte), s.on Reg.ROS_STAT_UP = true →
    exec (.leaving true fl sq n p) s = .next ((s.set Reg.ROS_STAT_PREADY 0).releaseHold fun _ => true)) ∧
  (∀ (s : State) (fl sq n : Nat) (p : List Byte) (d : List Byte) (c : Staged), s.on Reg.ROS_STAT_UP = true → s.standby = false → s.token = false ∨ rd p 0 1 ≠ 5 → rd p 0 1 ≠ 6 →
    exec (.pcyc true fl sq n p) s = .next s ∧ exec (.bulk true fl sq n p) s = .next s ∧ exec (.roscorCfg true fl sq n p c d) s = .next s) ∧
  (∀ (s : State) (fl sq n : Nat) (p : List Byte), s.on Reg.ROS_STAT_UP = true → s.standby = false → rd p 0 1 = 6 → s.ros.bulk = none →
    exec (.bulk true fl sq n p) s = .next (
      let x := s.img (rd (p.drop 2) 0 1) (s.spareSlot (rd (p.drop 2) 0 1))
      if x.st = 2 ∧ s.token = true then s.sendBulk 3 (x.hdr ++ x.body) else s)) ∧
  (∀ (s : State) (fl sq n : Nat) (p : List Byte) (x : Promo), s.on Reg.ROS_STAT_UP = true → s.token = true → s.halted = false → s.standby = false →
    rd p 0 1 = 5 → s.ros.bulk = none → s.trn.promo = some x →
    exec (.bulk true fl sq n p) s = .next (s.trnMod fun y => { y with promo := some { x with got := x.got || x.st.no == rd (p.drop 2) 0 4 } })) ∧
  (∀ (s : State) (fl sq n k : Nat) (p : List Byte),
    let es := pcycEntries (min 166 (rd p 18 2)) (p.drop 24)
    let u := es.foldl (fun s e => s.shadowHead e.1 e.2.1) s
    s.on Reg.ROS_STAT_UP = true → s.standby = true → s.ros.pcyc = none → k = ((rd p 0 8 : Nat) - s.deltaK).toNat →
    bit (rd p 20 1) 0 = false →
    exec (.pcyc true fl sq n p) s = .next (u.rosMod fun r => { r with pcyc := some (k, es) })) ∧
  (∀ (s : State) (fl sq n k : Nat) (p : List Byte),
    let es := pcycEntries (min 166 (rd p 18 2)) (p.drop 24)
    let u := es.foldl (fun s e => s.shadowHead e.1 e.2.1) s
    let cuts := es.map fun e => (e.1, e.2.2)
    s.on Reg.ROS_STAT_UP = true → s.standby = true → s.ros.pcyc = none → k = ((rd p 0 8 : Nat) - s.deltaK).toNat →
    bit (rd p 20 1) 0 = true →
    exec (.pcyc true fl sq n p) s = .next (
      let v := u.rosMod fun r => { r with pcyc := none, cutCyc := some k,
                                          cuts := (r.cuts.filter fun c => !cuts.any fun x => x.1 == c.1) ++ cuts }
      (v.proofCompare (k - 1) (rd p 8 8) (rd p 16 1) (rd p 17 1)).standbyRuns k)) ∧
  (∀ (s : State) (fl sq n : Nat) (p : List Byte), s.on Reg.ROS_STAT_UP = true → s.token = true →
    exec (.rack true fl sq n p) s = .next (s.releaseHold fun h => (rackEntries 256 p).contains (h.ring, h.index))) ∧
  (∀ (s : State) (fl sq n : Nat) (p : List Byte), s.on Reg.ROS_STAT_UP = true → s.token = false →
    exec (.rack true fl sq n p) s = .next s) ∧
  (∀ (s : State) (fl sq n : Nat) (p d : List Byte) (c0 : Staged),
    let c : Staged := { c0 with due := if c0.due = 0 then 0 else s.ownPeriod c0.due, ring := 0x20000 + 0x20000 * (1 - s.get Reg.GLB_SEAT_SEAT) + c0.ring % 0x20000 }
    let u : State := { s with chgNext := max s.chgNext (c.no + 1) }
    let u := if c.due ≠ 0 ∧ c.due ≤ u.get Reg.CHS_PNUM + 1 then u.set Reg.ROS_STAT_CFGLAG 1 else u
    let u := u.logC (changeOrigin c.ring c.block) 2 c.no c.opcode c.block c.target c.old c.new c.digest
    s.on Reg.ROS_STAT_UP = true → s.standby = true → c0.act ≠ .own →
    exec (.roscorCfg true fl sq n p c0 d) s = .next ({ u with staged := u.staged ++ [c] } : State)) ∧
  (∀ (s : State) (fl sq n : Nat) (p d : List Byte) (c0 : Staged),
    let c : Staged := { c0 with due := if c0.due = 0 then 0 else s.ownPeriod c0.due, ring := 0x20000 + 0x20000 * (1 - s.get Reg.GLB_SEAT_SEAT) + c0.ring % 0x20000 }
    let u : State := { s with chgNext := max s.chgNext (c.no + 1) }
    let u := if c.due ≠ 0 ∧ c.due ≤ u.get Reg.CHS_PNUM + 1 then u.set Reg.ROS_STAT_CFGLAG 1 else u
    let u := u.logC (changeOrigin c.ring c.block) 2 c.no c.opcode c.block c.target c.old c.new c.digest
    s.on Reg.ROS_STAT_UP = true → s.standby = true → c0.act = .own →
    exec (.roscorCfg true fl sq n p c0 d) s = .next (u.cfgOwn c d)) ∧
  (∀ (s : State) (fl sq n : Nat) (p : List Byte), s.on Reg.ROS_STAT_UP = true → s.standby = true → s.ros.bulk = none →
    bit (rd p 1 1) 0 = true →
    exec (.bulk true fl sq n p) s = .next ((s.rosMod fun r => { r with bulk := none }).bulkDone (rd p 0 1) (p.drop 2))) ∧
  (∀ (s : State) (fl sq n : Nat) (p : List Byte), s.on Reg.ROS_STAT_UP = true → s.standby = true → s.ros.bulk = none →
    bit (rd p 1 1) 0 = false →
    exec (.bulk true fl sq n p) s = .next (s.rosMod fun r => { r with bulk := some (rd p 0 1, p.drop 2) })) ∧
  (∀ (s : State) (fl sq n : Nat) (p b : List Byte), s.on Reg.ROS_STAT_UP = true → s.standby = true →
    s.ros.bulk = some (rd p 0 1, b) → bit (rd p 1 1) 0 = true →
    exec (.bulk true fl sq n p) s = .next ((s.rosMod fun r => { r with bulk := none }).bulkDone (rd p 0 1) (b ++ p.drop 2)))

/-- The token, handovers and proving runs (R489, R498, R499, R503, R504, R508 to R512). -/
def Obligations.SeatCommands : Prop :=
  (∀ s : State, s.tokenDue = none → exec .seatTokenTake s = .next s.settle) ∧
  (∀ (s : State) (w : Nat), s.tokenDue = some w → (s.ros.prove.any fun v => !v.prover) = false →
    exec .seatTokenTake s = .next (s.handCancel.tokenTake w).settle) ∧
  (∀ s : State, s.standby = true → s.haltSet = false → (s.det (detN 5 2)).cause = false → s.on Reg.GLB_SEAT_PAROK = true →
    s.ros.asked = false → 4 ≤ s.ros.rRun → 4 ≤ s.ros.bRun → (s.ros.prove.any fun v => !v.prover) = false →
    exec .seatTokenTake s = .next (s.handCancel.tokenTake 1).settle) ∧
  (∀ s : State, s.ros.asked = false → s.ros.rRun < 4 ∨ s.ros.bRun < 4 →
    exec .seatTokenTake s = .next s.settle) ∧
  (∀ (s : State) (bad : List Nat), s.standby = false → exec (.shadowLaw bad) s = .next s.settle) ∧
  (∀ (s : State) (bad : List Nat), s.standby = true → (s.ros.copies.find? fun e => e.1 + 1 == s.heldPeriod) = none →
    exec (.shadowLaw bad) s = .next s.settle) ∧
  (∀ (s : State) (bad : List Nat) (e : Nat × List Byte), s.standby = true →
    (s.ros.copies.find? fun e => e.1 + 1 == s.heldPeriod) = some e →
    exec (.shadowLaw bad) s = .next (
      let u : State := { (s.loadCopy e.2) with gal := s.gal }
      let v := u.law.rosMod fun r => { r with own := ((s.heldPeriod, u.law.dutyDigest) :: r.own).take 8 }
      (((v.dutyCompare s.heldPeriod).proveWatch).loopTest bad)).settle) ∧
  (∀ s : State, s.ros.hand = none → exec .plannedHandover s = .next s.settle) ∧
  (∀ (s : State) (h : Hand), s.ros.hand = some h → s.get Reg.CHS_PNUM < h.at_ ∨ s.glb.mgmtDown = true ∧ h.st.isSome = true → exec .plannedHandover s = .next s.settle) ∧
  (∀ (s : State) (h : Hand), s.ros.hand = some h → h.at_ ≤ s.get Reg.CHS_PNUM → s.glb.mgmtDown = false ∨ h.st = none →
    h.gives = true → s.handBlocked = true →
    exec .plannedHandover s = .next (((s.rosMod fun r => { r with hand := none }).handEvt h.kind 1 h.at_) |> fun u =>
      match h.st with
      | some c => ((u.unstage c.no).changeDone c 2 0 0x14).settle
      | none => u.settle)) ∧
  (∀ (s : State) (h : Hand), s.ros.hand = some h → h.at_ ≤ s.get Reg.CHS_PNUM → s.glb.mgmtDown = false ∨ h.st = none →
    h.gives = true → s.handBlocked = false →
    exec .plannedHandover s = .next (
      let u := (s.rosMod fun r => { r with hand := none }).tokenRelease 7 3
      let u := ((if h.kind = 2 then u.queueLeave 5 else u).syncOut false).handEvt h.kind 0 h.at_
      (u.handChanges.2.proveHand h.kind u.handChanges.1 false).handStep).settle) ∧
  (∀ (s : State) (h : Hand), s.ros.hand = some h → h.at_ ≤ s.get Reg.CHS_PNUM → s.glb.mgmtDown = false ∨ h.st = none →
    h.gives = false → s.rosReady = true → s.handBusy = false →
    (s.det (detN 5 2)).cause = false →
    exec .plannedHandover s = .next (
      let u := ((s.rosMod fun r => { r with hand := none }).tokenTake 3).handEvt h.kind 0 h.at_
      (u.handChanges.2.proveHand h.kind u.handChanges.1 true).handStep).settle) ∧
  (∀ (s : State) (h : Hand), s.ros.hand = some h → h.at_ ≤ s.get Reg.CHS_PNUM → s.glb.mgmtDown = false ∨ h.st = none →
    h.gives = false → s.rosReady = false ∨ s.handBusy = true ∨ (s.det (detN 5 2)).cause = true →
    exec .plannedHandover s = .next s.handCancel.settle) ∧
  (∀ s : State, exec .roscorLinkDown s = .next ((s.roscorDown.rosMod fun r => { r with lockRun := 0 }).set Reg.ROS_STAT_LOCK 0).settle) ∧
  (∀ (s : State) (n : Nat), 3 ≤ s.stage → s.stage ≠ 0xE → s.glb.lossStep < 2 →
    exec (.roscorTrained n) s = .next (((s.set Reg.ROS_LAT_NS n).set Reg.ROS_STAT_UP 1).levelOff (detN 20 0))) ∧
  (∀ (s : State) (n : Nat), s.stage < 3 ∨ s.stage = 0xE ∨ 2 ≤ s.glb.lossStep → exec (.roscorTrained n) s = .next s) ∧
  (∀ (s : State) (bad : List Nat), s.standby = true → s.on Reg.ROS_CTL_SELFTEST = true →
    exec (.laneSelftest bad) s = .next (bad.foldl (fun s u => s.evt 7 0x0E04 (le 1 2 ++ le 1 u ++ zeros 2 ++ s.pnum32 ++ zeros 4))
      (s.rosMod fun r => { r with laneBad := satU 32 (r.laneBad + bad.length) }))) ∧
  (∀ (s : State) (bad : List Nat), s.standby = false ∨ s.on Reg.ROS_CTL_SELFTEST = false → exec (.laneSelftest bad) s = .next s) ∧
  (∀ s : State, s.token = false ∨ s.ros.prove.any (·.prover) = false → exec .provingEnd s = .next s) ∧
  (∀ (s : State) (v : Prove), s.token = true → s.ros.prove = some v → v.prover = true → s.on Reg.ROS_STAT_PREADY = false →
    exec .provingEnd s = .next (
      let u := s.evt 7 0x0E03 (le 1 3 ++ zeros 3 ++ le 4 ((s.time - v.start) / 1000000000) ++ le 2 v.first ++ zeros 2)
      u.rosMod fun r => { r with prove := none, back := false, provedAt := v.start, provedOut := 3 })) ∧
  (∀ (s : State) (v : Prove), s.token = true → s.ros.prove = some v → v.prover = true → s.on Reg.ROS_STAT_PREADY = true →
    s.ros.hand = none → s.handBlocked = false →
    exec .provingEnd s = .next ((s.rosMod fun r => { r with hand := some { kind := 5, at_ := s.leadPeriod, gives := true, st := none } }).rosOut 3
      (le 1 5 ++ zeros 7 ++ le 8 s.leadPeriod))) ∧
  (∀ (s : State) (v : Prove), s.token = true → s.ros.prove = some v → v.prover = true → s.on Reg.ROS_STAT_PREADY = true →
    s.ros.hand = none → s.handBusy = true →
    exec .provingEnd s = .next (s.rosMod fun r => { r with back := true })) ∧
  (∀ (s : State) (r : Nat) (d : Desc), s.serves 0 r 0x0E01 d { priv := 2, standby := true } → s.token = false →
    exec (.seatSwitch r d) s = .next ((s.beginDesc r 0x0E01 d).completeLate r 0x0E01 d 0x16 0 0)) ∧
  (∀ (s : State) (r : Nat) (d : Desc) (c : Staged),
    let u := s.beginDesc r 0x0E01 d
    let seat := u.get Reg.GLB_SEAT_SEAT
    let p := u.stage1 r 7 0x0E01 0 seat (1 - seat) u.leadPeriod .own
    s.serves 0 r 0x0E01 d { priv := 2, standby := true } → s.token = true → u.handBlocked = false → s.ros.hand = none → s.ros.prove = none →
    (p.2.staged.find? fun c => c.no == p.1) = some c →
    exec (.seatSwitch r d) s = .next ((p.2.handStart 3 (some c)).completeLate r 0x0E01 d 2 0 p.1)) ∧
  (∀ (s : State) (r : Nat) (d : Desc), s.serves 0 r 0x0E02 d { priv := 2, standby := true, parOk := decide (d.p0 ≤ 600) } → s.token = false →
    exec (.provingRun r d) s = .next ((s.beginDesc r 0x0E02 d).completeLate r 0x0E02 d 0x16 0 0)) ∧
  (∀ (s : State) (r : Nat) (d : Desc) (c : Staged),
    let u := s.beginDesc r 0x0E02 d
    let p := u.stage1 r 7 0x0E02 0 0 d.p0 u.leadPeriod .own
    s.serves 0 r 0x0E02 d { priv := 2, standby := true, parOk := decide (d.p0 ≤ 600) } → s.token = true → u.handBlocked = false →
    s.ros.hand = none → s.ros.prove = none → d.p0 ≠ 0 → (p.2.staged.find? fun c => c.no == p.1) = some c →
    exec (.provingRun r d) s = .next ((p.2.handStart 4 (some c)).completeLate r 0x0E02 d 2 0 p.1)) ∧
  (∀ (s : State) (r : Nat) (d : Desc) (c : Staged),
    let u := s.beginDesc r 0x0E02 d
    let p := u.stage1 r 7 0x0E02 0 0 60 u.leadPeriod .own
    s.serves 0 r 0x0E02 d { priv := 2, standby := true, parOk := decide (d.p0 ≤ 600) } → s.token = true → u.handBlocked = false →
    s.ros.hand = none → s.ros.prove = none → d.p0 = 0 → u.get Reg.ROS_CTL_PROVE = 0 → (p.2.staged.find? fun c => c.no == p.1) = some c →
    exec (.provingRun r d) s = .next ((p.2.handStart 4 (some c)).completeLate r 0x0E02 d 2 0 p.1)) ∧
  (∀ (s : State) (r : Nat) (d : Desc), s.serves 0 r 0x0E03 d { priv := 2, standby := true } → s.ros.prove = none →
    exec (.provingStop r d) s = .next ((s.beginDesc r 0x0E03 d).completeLate r 0x0E03 d 0x1E 0 1)) ∧
  (∀ (s : State) (r : Nat) (d : Desc),
    let u := s.beginDesc r 0x0E03 d
    s.serves 0 r 0x0E03 d { priv := 2, standby := true } → s.ros.prove.isSome = true →
    exec (.provingStop r d) s = .next (((u.logC (.host r) 2 0 0x0E03 7 0 0 0).proveReturn).completeLate r 0x0E03 d 0 0 0))

/-- Colophon's captures and commits (R517, R518, R521 to R537): the pages, the final commit, the triggers, the snapshots and the commands. -/
def Obligations.ColophonCommands : Prop :=
  (∀ (s : State) (n : Nat), s.col.finalCommit = 0 → n ≤ 65536 →
    exec (.pageCommit n) s = .next (s.writeFails n).pagesDone) ∧
  (∀ (s : State) (n : Nat), s.col.finalCommit ≠ 0 → exec (.pageCommit n) s = .next s) ∧
  (∀ (s : State) (us : Nat), s.col.finalCommit = 1 → s.glb.exhausted = false →
    exec (.finalCommitDone us) s = .next (
      let u := (s.pagesDone.slug 4 0 s.pagesDone.col.lossRecs s.col.openBytes us 0).pagesDone
      ({ u with nv := { u.nv with cleanMark := true } } : State).colMod fun c => { c with finalCommit := 2, committing := false })) ∧
  (∀ (s : State) (us : Nat), s.col.finalCommit ≠ 1 ∨ s.glb.exhausted = true → exec (.finalCommitDone us) s = .next s) ∧
  (∀ (s : State) (k c : Nat) (i : Bool), (Tab.get s.col.triggers k {}).en = false → exec (.triggerFire k c i) s = .next s) ∧
  (∀ (s : State) (k c : Nat) (i : Bool), s.occurs (Tab.get s.col.triggers k {}) c = false → exec (.triggerFire k c i) s = .next s) ∧
  (∀ (s : State) (k c t : Nat) (i : Bool), Tab.find s.col.lastCap k = some t →
    s.time < t + (Tab.get s.col.triggers k {}).holdoff * 1000000 → exec (.triggerFire k c i) s = .next s) ∧
  (∀ (s : State) (k c : Nat) (i : Bool) (t : Trigger), Tab.get s.col.triggers k {} = t → t.en = true → s.occurs t c = true →
    Tab.find s.col.lastCap k = none → s.get Reg.COL_CTL_SNAPMAX ≠ 0 → 3 ≤ s.glb.lossStep →
    exec (.triggerFire k c i) s = .next ((s.bump Reg.COL_LOST).colMod fun c => { c with lossRecs := c.lossRecs + 1 })) ∧
  (∀ (s : State) (k c : Nat) (i : Bool) (t : Trigger), Tab.get s.col.triggers k {} = t → t.en = true → s.occurs t c = true →
    Tab.find s.col.lastCap k = none → s.get Reg.COL_CTL_SNAPMAX ≠ 0 → s.glb.lossStep < 3 →
    (s.col.captures.any fun c => c.trig == k) = true ∨ s.rateAllows t.kind (s.time + t.delay * 1000000) = false →
    exec (.triggerFire k c i) s = .next ((s.bump (Reg.COL_TDROP k)).colMod fun c =>
      { c with dropped := Tab.put c.dropped k (Tab.get c.dropped k 0 + 1) })) ∧
  (∀ (s : State) (k c : Nat) (i : Bool) (t : Trigger), Tab.get s.col.triggers k {} = t → t.en = true → s.occurs t c = true →
    Tab.find s.col.lastCap k = none → s.get Reg.COL_CTL_SNAPMAX ≠ 0 → s.glb.lossStep < 3 →
    (s.col.captures.any fun c => c.trig == k) = false → s.rateAllows t.kind (s.time + t.delay * 1000000) = true →
    exec (.triggerFire k c i) s = .next (s.colMod fun x => { x with captures := x.captures ++
      [{ trig := k, cause := c, injected := i, now := false, due := s.time + t.delay * 1000000, defn := t }] })) ∧
  (∀ (s : State) (late : List Nat), s.era.haltSnap = false → exec (.snapshotCapture 0x81 late) s = .next s) ∧
  (∀ (s : State) (late : List Nat), s.era.haltSnap = true → 3 ≤ s.glb.lossStep →
    exec (.snapshotCapture 0x81 late) s = .next s.snapLost) ∧
  (∀ (s : State) (late : List Nat) (n : Nat), s.era.haltSnap = true → s.glb.lossStep < 3 → n = s.get Reg.ERA_HALT_FIRST →
    exec (.snapshotCapture 0x81 late) s = .next (
      let p := s.builtIn 0x81 n (s.det n).injected (fixedList.map s.selWord) late
      let u : State := { p.2 with era := { p.2.era with haltSnap := false } }
      u.slug 2 0 n (u.get Reg.ERA_HALT_MORE) p.1 (u.get Reg.CHS_PNUM))) ∧
  (∀ (s : State) (late : List Nat), s.glb.lossStep = 2 →
    exec (.snapshotCapture 0x82 late) s = .next ({ (s.lossSnap late) with glb := { s.glb with lossStep := 3 } } : State)) ∧
  (∀ (s : State) (late : List Nat), s.glb.lossStep ≠ 2 → exec (.snapshotCapture 0x82 late) s = .next s) ∧
  (∀ (s : State) (k : Nat) (late : List Nat), k ≠ 0x81 → k ≠ 0x82 → (s.col.captures.find? fun c => c.trig == k) = none →
    exec (.snapshotCapture k late) s = .next s) ∧
  (∀ (s : State) (k : Nat) (late : List Nat) (c : Capture),
    let u := s.colMod fun x => { x with captures := x.captures.filter fun y => y.trig != k }
    k ≠ 0x81 → k ≠ 0x82 → (s.col.captures.find? fun c => c.trig == k) = some c → s.glb.lossStep < 3 →
    exec (.snapshotCapture k late) s = .next (
      let p := u.snapRecord c.trig c.cause c.injected c.now (c.defn.sels.map u.selWord) late
      (p.2.bump (Reg.COL_TFIRE c.trig)).colMod fun x =>
        { x with lastCap := Tab.put x.lastCap c.trig (p.2.bump (Reg.COL_TFIRE c.trig)).time,
                 recent := (p.2.bump (Reg.COL_TFIRE c.trig)).time :: x.recent.filter fun t =>
                   decide ((p.2.bump (Reg.COL_TFIRE c.trig)).time < t + 1000000000) })) ∧
  (∀ (s : State) (r x : Nat) (d : Desc), s.serves 0 r 0x0A01 d { priv := 2, standby := true, buf := .reads, lenOk := (16 ≤ ·) } →
    triggerBad (bufBytes d) = some x →
    exec (.trigWrite r d) s = .next ((s.beginDesc r 0x0A01 d).completeLate r 0x0A01 d 0x1E 0 x)) ∧
  (∀ (s : State) (r : Nat) (d : Desc),
    let u := s.beginDesc r 0x0A01 d
    let b := bufBytes d
    let i := bits d.p0 0 6
    let p := u.stage1 r 9 0x0A01 i (digest8 (trigBytes (Tab.get u.col.triggers i {}))) (digest8 b) u.leadPeriod (.trigger i (readTrigger b)) true
    s.serves 0 r 0x0A01 d { priv := 2, standby := true, buf := .reads, lenOk := (16 ≤ ·) } → triggerBad b = none →
    exec (.trigWrite r d) s = .next (p.2.completeLate r 0x0A01 d 2 b.length p.1)) ∧
  (∀ (s : State) (r : Nat) (d : Desc), s.serves 0 r 0x0A03 d { priv := 1 } → (Tab.get s.col.triggers (bits d.p0 0 6) {}).en = false →
    exec (.snapNow r d) s = .next ((s.beginDesc r 0x0A03 d).completeLate r 0x0A03 d 0x14 0 0)) ∧
  (∀ (s : State) (r i : Nat) (d : Desc) (t : Trigger), s.serves 0 r 0x0A03 d { priv := 1 } → i = bits d.p0 0 6 →
    Tab.get s.col.triggers i {} = t → t.en = true → s.glb.lossStep < 3 → (s.col.captures.any fun c => c.trig == i) = true →
    exec (.snapNow r d) s = .next (((s.beginDesc r 0x0A03 d).fireDrop i).completeLate r 0x0A03 d 0x1E 0 4)) ∧
  (∀ (s : State) (r i : Nat) (d : Desc) (t : Trigger),
    let u := s.beginDesc r 0x0A03 d
    s.serves 0 r 0x0A03 d { priv := 1 } → i = bits d.p0 0 6 → Tab.get s.col.triggers i {} = t → t.en = true → s.glb.lossStep < 3 →
    (s.col.captures.any fun c => c.trig == i) = false → u.rateAllows t.kind u.time = true →
    exec (.snapNow r d) s = .next (
      let p := u.capture1 { trig := i, cause := 0, injected := false, now := true, due := u.time, defn := t } []
      (p.2.logC (.host r) 2 0 0x0A03 9 i 0 0).completeLate r 0x0A03 d 0 0 p.1)) ∧
  (∀ (s : State) (r : Nat) (d : Desc), s.serves 0 r 0x0A05 d { priv := 1 } →
    exec (.colCommit r d) s = .next (((s.beginDesc r 0x0A05 d).logC (.host r) 2 0 0x0A05 9 0 0 0).colMod fun c =>
      { c with committing := true, waiting := c.waiting ++ [(r, d)] })) ∧
  (∀ s : State, exec .colCommitTimeout s = .next (
    s.col.waiting.foldl (fun s w => s.completeLate w.1 0x0A05 w.2 0x1C 0 0) (s.colMod fun c => { c with waiting := [] })))

/-- The performance counters' commands and the repairs (R567, R568, R578 to R583). -/
def Obligations.RepairCommands : Prop :=
  (∀ (s : State) (r : Nat) (d : Desc), s.serves 0 r 0x0C00 d { priv := 0, buf := .writes, lenOk := fun n => decide (640 ≤ n) } →
    exec (.prfSnapshot r d) s = .next (
      let u := s.beginDesc r 0x0C00 d
      { u with prf := { u.prf with waiting := u.prf.waiting ++ [(0x0C00, r, d)] } } : State)) ∧
  (∀ (s : State) (r : Nat) (d : Desc), s.serves 0 r 0x0C01 d { priv := 1, parOk := bits d.p0 0 6 != 0 } →
    exec (.prfZero r d) s = .next (
      let u := (s.beginDesc r 0x0C01 d).logC (.host r) 2 0 0x0C01 0xB 0 0 (bits d.p0 0 6)
      { u with prf := { u.prf with waiting := u.prf.waiting ++ [(0x0C01, r, d)] } } : State)) ∧
  (∀ (s : State) (r : Nat) (d : Desc), s.serves 0 r 0x0D01 d { priv := 2, parOk := repairUnit d.p0 d.p1 } → s.repairBusy = true →
    exec (.repair r d) s = .next ((s.beginDesc r 0x0D01 d).completeLate r 0x0D01 d 0x16 0 0)) ∧
  (∀ (s : State) (r : Nat) (d : Desc),
    let u := ((s.beginDesc r 0x0D01 d).set Reg.SPR_RSTAT_KIND d.p0).set Reg.SPR_RSTAT_UNIT d.p1
    s.serves 0 r 0x0D01 d { priv := 2, parOk := repairUnit d.p0 d.p1 } → (s.beginDesc r 0x0D01 d).repairBusy = false →
    ((s.beginDesc r 0x0D01 d).unit d.p0 d.p1).st = 3 →
    exec (.repair r d) s = .next (((u.set Reg.SPR_RSTAT_OUT 0).set Reg.SPR_RSTAT_OUT 3).completeLate r 0x0D01 d 0x1E 0 3)) ∧
  (∀ (s : State) (r : Nat) (d : Desc),
    let u := ((s.beginDesc r 0x0D01 d).set Reg.SPR_RSTAT_KIND d.p0).set Reg.SPR_RSTAT_UNIT d.p1
    s.serves 0 r 0x0D01 d { priv := 2, parOk := repairUnit d.p0 d.p1 } → (s.beginDesc r 0x0D01 d).repairBusy = false →
    ((s.beginDesc r 0x0D01 d).unit d.p0 d.p1).st < 2 →
    exec (.repair r d) s = .next (((u.set Reg.SPR_RSTAT_OUT 0).set Reg.SPR_RSTAT_OUT 1).completeLate r 0x0D01 d 0x1E 0 1)) ∧
  (∀ (s : State) (r : Nat) (d : Desc),
    let u := ((((s.beginDesc r 0x0D01 d).set Reg.SPR_RSTAT_KIND d.p0).set Reg.SPR_RSTAT_UNIT d.p1).set Reg.SPR_RSTAT_OUT 0).logC (.host r) 2 0 0x0D01 0xC d.p1 2 0
    s.serves 0 r 0x0D01 d { priv := 2, parOk := repairUnit d.p0 d.p1 } → (s.beginDesc r 0x0D01 d).repairBusy = false →
    ((s.beginDesc r 0x0D01 d).unit d.p0 d.p1).st = 2 → d.p0 ≠ 4 → bit d.p2 0 = false →
    exec (.repair r d) s = .next ({ u with spr := { u.spr with repair := some { kind := d.p0, unit := d.p1, ring := r, desc := d } } } : State)) ∧
  (∀ (s : State) (r : Nat) (d : Desc),
    let u := ((((s.beginDesc r 0x0D01 d).set Reg.SPR_RSTAT_KIND d.p0).set Reg.SPR_RSTAT_UNIT d.p1).set Reg.SPR_RSTAT_OUT 0).logC (.host r) 2 0 0x0D01 0xC d.p1 2 0
    s.serves 0 r 0x0D01 d { priv := 2, parOk := repairUnit d.p0 d.p1 } → (s.beginDesc r 0x0D01 d).repairBusy = false →
    ((s.beginDesc r 0x0D01 d).unit d.p0 d.p1).st = 2 → ((s.beginDesc r 0x0D01 d).unit d.p0 d.p1).injected = true → d.p0 ≠ 4 → bit d.p2 0 = true →
    exec (.repair r d) s = .next (({ u with spr := { u.spr with repair := some { kind := d.p0, unit := d.p1, ring := r, desc := d } } } : State).repairPass d.p0 d.p1 0)) ∧
  (∀ (s : State) (r : Nat) (d : Desc),
    let u := ((((s.beginDesc r 0x0D01 d).set Reg.SPR_RSTAT_KIND d.p0).set Reg.SPR_RSTAT_UNIT d.p1).set Reg.SPR_RSTAT_OUT 0).logC (.host r) 2 0 0x0D01 0xC d.p1 2 0
    s.serves 0 r 0x0D01 d { priv := 2, parOk := repairUnit d.p0 d.p1 } → (s.beginDesc r 0x0D01 d).repairBusy = false →
    ((s.beginDesc r 0x0D01 d).unit d.p0 d.p1).st = 2 → d.p0 = 4 →
    exec (.repair r d) s = .next (({ u with spr := { u.spr with repair := some { kind := d.p0, unit := d.p1, ring := r, desc := d } } } : State).hierSelf 2 [d.p1])) ∧
  (∀ (s : State) (b : Bool) (us : Nat), s.spr.repair = none → exec (.repairTestDone b us) s = .next s) ∧
  (∀ (s : State) (us : Nat) (p : Repair), s.spr.repair = some p → p.kind ≠ 4 → p.abandoned = false → p.broken = false →
    exec (.repairTestDone true us) s = .next ((s.unitBack p.kind p.unit).repairEnd 0 us)) ∧
  (∀ (s : State) (us : Nat) (p : Repair),
    let u : State := { s with spr := { s.spr with repair := none } }
    s.spr.repair = some p → p.kind ≠ 4 → p.abandoned = false →
    exec (.repairTestDone false us) s = .next (((u.set Reg.SPR_RSTAT_OUT 2).evt 0xC 0x0D03
      (le 1 p.kind ++ le 1 2 ++ le 1 (u.unit p.kind p.unit).fails ++ le 1 0 ++ le 4 p.unit ++ le 4 us)).completeLate p.ring 0x0D01 p.desc 0x1E 0 2)) ∧
  (∀ (s : State) (us : Nat) (p : Repair), s.spr.repair = some p → p.kind = 4 →
    exec (.repairTestDone true us) s = .next s ∧ exec (.repairTestDone false us) s = .next (s.hierRollback 1)) ∧
  (∀ (s : State) (r : Nat) (d : Desc),
    let u := s.beginDesc r 0x0D02 d
    s.serves 0 r 0x0D02 d { priv := 2, parOk := (d.p0 == 1 || d.p0 == 2 || d.p0 == 5) && repairUnit d.p0 d.p1 } → u.spareFor d.p0 d.p1 = none →
    exec (.spareRetire r d) s = .next (u.completeLate r 0x0D02 d 0x1E 0 5)) ∧
  (∀ (s : State) (r : Nat) (d : Desc),
    let u := s.beginDesc r 0x0D02 d
    s.serves 0 r 0x0D02 d { priv := 2, parOk := (d.p0 == 1 || d.p0 == 2 || d.p0 == 5) && repairUnit d.p0 d.p1 } →
    (u.spareFor d.p0 d.p1).isSome = true → (u.unit d.p0 d.p1).st = 0 →
    exec (.spareRetire r d) s = .next (((u.logC (.host r) 2 0 0x0D02 0xC d.p1 0 3).unitMod d.p0 d.p1 fun y => { y with retire := 3 }).completeLate r 0x0D02 d 0 0 0)) ∧
  (∀ (s : State) (r : Nat) (d : Desc),
    let u := s.beginDesc r 0x0D02 d
    s.serves 0 r 0x0D02 d { priv := 2, parOk := (d.p0 == 1 || d.p0 == 2 || d.p0 == 5) && repairUnit d.p0 d.p1 } →
    (u.spareFor d.p0 d.p1).isSome = true → (u.unit d.p0 d.p1).st = 1 →
    exec (.spareRetire r d) s = .next ((((u.logC (.host r) 2 0 0x0D02 0xC d.p1 1 3).unitOut d.p0 d.p1 3 false).reserveCheck (poolKind d.p0)).completeLate r 0x0D02 d 0 0 0)) ∧
  (∀ (s : State) (k u : Nat), k = 2 ∨ 9 < k → exec (.wornUnitRetire k u) s = .next s) ∧
  (∀ (s : State) (k u : Nat),
    let v := s.unitMod (mapKind k) u fun x => { x with retire :=
      (if x.retire = 0 ∧ x.worn ∧ s.on Reg.SPR_CTL_PREEMPT then 2 else if x.retire = 2 ∧ !s.on Reg.SPR_CTL_PREEMPT then 0 else x.retire) }
    k ≠ 2 → k ≤ 9 → mapKind k ≠ 6 → mapKind k ≠ 7 →
    exec (.wornUnitRetire k u) s = .next (v.retireUnit (mapKind k) u))

/-- Images and the test port (R540 to R549, R557 to R559): the sources, their locks, Flyleaf, the service UART and TAP_UNLOCK. -/
def Obligations.ImageCommands : Prop :=
  (∀ (s : State) (r v m : Nat) (g : Bool) (d : Desc), s.serves 0 r 0x0B01 d { priv := 3, buf := .reads, lenOk := fun n => n == 512, parOk := imgType (bits d.p0 0 3) } →
    (s.beginDesc r 0x0B01 d).headerBad (bufBytes d) (bits d.p0 0 3) g = some (v, m) →
    exec (.imgOpen r d g) s = .next (((s.beginDesc r 0x0B01 d).raise (detN 22 m) 0 0).completeLate r 0x0B01 d 0x1E 0 v)) ∧
  (∀ (s : State) (r t : Nat) (g : Bool) (d : Desc),
    let u := s.beginDesc r 0x0B01 d
    let v := u.updMod fun x => { x with nextSess := u.upd.nextSess + 1 }
    let w := v.imgMod t (u.spareSlot t) fun _ => { st := 1, hdr := bufBytes d }
    s.serves 0 r 0x0B01 d { priv := 3, buf := .reads, lenOk := fun n => n == 512, parOk := imgType (bits d.p0 0 3) } → t = bits d.p0 0 3 →
    u.headerBad (bufBytes d) t g = none → Tab.find u.upd.sess t = none → (u.img t (u.spareSlot t)).st ≠ 4 →
    exec (.imgOpen r d g) s = .next (((w.updMod fun x =>
      { x with sess := Tab.put x.sess t { no := u.upd.nextSess, src := .ring r, hdr := bufBytes d, last := w.time } }).logC
        (.host r) 2 0 0x0B01 0xA t 0 u.upd.nextSess).completeLate r 0x0B01 d 0 512 u.upd.nextSess)) ∧
  (∀ (s : State) (r t : Nat) (g : Bool) (d : Desc) (x : Session),
    let u := s.beginDesc r 0x0B01 d
    s.serves 0 r 0x0B01 d { priv := 3, buf := .reads, lenOk := fun n => n == 512, parOk := imgType (bits d.p0 0 3) } → t = bits d.p0 0 3 →
    u.headerBad (bufBytes d) t g = none → Tab.find u.upd.sess t = some x → x.src ≠ .ring r →
    exec (.imgOpen r d g) s = .next (u.completeLate r 0x0B01 d 0x1A 0 0)) ∧
  (∀ (s : State) (r : Nat) (d : Desc), s.serves 0 r 0x0B02 d { priv := 3, buf := .reads, lenOk := fun n => decide (8 ≤ n ∧ n ≤ 1048576) } →
    s.upd.expired.contains d.p0 = true →
    exec (.imgWrite r d) s = .next ((s.beginDesc r 0x0B02 d).completeLate r 0x0B02 d 0x1E 0 9)) ∧
  (∀ (s : State) (r t : Nat) (d : Desc) (x : Session), s.serves 0 r 0x0B02 d { priv := 3, buf := .reads, lenOk := fun n => decide (8 ≤ n ∧ n ≤ 1048576) } →
    s.upd.expired.contains d.p0 = false → s.session r d.p0 = some (t, x) → d.p1 = x.body.length →
    exec (.imgWrite r d) s = .next (
      let u := (s.beginDesc r 0x0B02 d).logC (.host r) 2 0 0x0B02 0xA t d.p1 (d.p1 + d.len)
      (u.updMod fun y => { y with sess := Tab.put y.sess t { x with body := x.body ++ bufBytes d, last := u.time } }).completeLate
        r 0x0B02 d 0 d.len 0)) ∧
  (∀ (s : State) (r t : Nat) (d : Desc) (x : Session), s.serves 0 r 0x0B02 d { priv := 3, buf := .reads, lenOk := fun n => decide (8 ≤ n ∧ n ≤ 1048576) } →
    s.upd.expired.contains d.p0 = false → s.session r d.p0 = some (t, x) → d.p1 ≠ x.body.length →
    exec (.imgWrite r d) s = .next ((s.beginDesc r 0x0B02 d).completeLate r 0x0B02 d 0x14 0 0)) ∧
  (∀ (s : State) (r : Nat) (d : Desc), s.serves 0 r 0x0B03 d { priv := 3 } → s.upd.expired.contains d.p0 = false → s.session r d.p0 = none →
    exec (.imgFinish r d) s = .next ((s.beginDesc r 0x0B03 d).completeLate r 0x0B03 d 0x14 0 0)) ∧
  (∀ (s : State) (r : Nat) (d : Desc), s.serves 0 r 0x0B04 d { priv := 3 } → s.upd.expired.contains d.p0 = false → s.session r d.p0 = none →
    exec (.imgAbort r d) s = .next ((s.beginDesc r 0x0B04 d).completeLate r 0x0B04 d 0x14 0 0)) ∧
  (∀ (s : State) (r t : Nat) (d : Desc) (x : Session),
    let u := s.beginDesc r 0x0B03 d
    s.serves 0 r 0x0B03 d { priv := 3 } → s.upd.expired.contains d.p0 = false → s.session r d.p0 = some (t, x) →
    x.body.length = rd x.hdr 28 4 → sha384 x.body = (x.hdr.drop 88).take 48 → t ≠ 6 →
    exec (.imgFinish r d) s = .next (
      let v := (u.unlockSlot t 2 x).evt 0xA 0x0B00
        (le 1 t ++ le 1 (u.spareSlot t) ++ le 1 x.src.code.1 ++ le 1 0 ++ le 4 (imgVer x.hdr) ++ le 2 x.src.code.2 ++ zeros 2)
      ((v.imgPush x).logC (.host r) 2 0 0x0B03 0xA t 0 0).completeLate r 0x0B03 d 0 0 0)) ∧
  (∀ (s : State) (r t : Nat) (d : Desc) (x : Session),
    let u := s.beginDesc r 0x0B03 d
    s.serves 0 r 0x0B03 d { priv := 3 } → s.upd.expired.contains d.p0 = false → s.session r d.p0 = some (t, x) → x.body.length ≠ rd x.hdr 28 4 →
    exec (.imgFinish r d) s = .next (((u.unlockSlot t 0 x).raise (detN 22 1) 0 0).completeLate r 0x0B03 d 0x1E 0 10)) ∧
  (∀ (s : State) (r t : Nat) (d : Desc) (x : Session), s.serves 0 r 0x0B04 d { priv := 3 } → s.upd.expired.contains d.p0 = false →
    s.session r d.p0 = some (t, x) →
    exec (.imgAbort r d) s = .next ((((s.beginDesc r 0x0B04 d).logC (.host r) 2 0 0x0B04 0xA t 0 0).unlockSlot t 0 x).completeLate r 0x0B04 d 0 0 0)) ∧
  (∀ (s : State) (t : Nat), Tab.find s.upd.sess t = none → exec (.lockExpired t) s = .next s) ∧
  (∀ (s : State) (t : Nat) (x : Session), Tab.find s.upd.sess t = some x →
    exec (.lockExpired t) s = .next (
      let u := (s.unlockSlot t 0 x).updMod fun u => { u with expired := x.no :: u.expired }
      (u.raise (detN 22 4) 0 0).evt 0xA 0x0B03 (le 1 t ++ le 1 x.src.code.1 ++ zeros 2 ++ le 4 x.body.length ++ zeros 4))) ∧
  (∀ (s : State) (r : Nat) (g : Bool) (d : Desc),
    let u := (s.beginDesc r 0x0B08 d).draw
    s.serves 0 r 0x0B08 d { priv := 3, standby := true, buf := .reads, lenOk := fun n => n == 128 } → s.token = true →
    exec (.tapUnlock r d g) s = .next ((u.2.set Reg.UPD_NONCE u.1).completeLate r 0x0B08 d 0x19 0 0)) ∧
  (∀ (s : State) (r : Nat) (d : Desc),
    let u := (s.beginDesc r 0x0B08 d).draw
    s.serves 0 r 0x0B08 d { priv := 3, standby := true, buf := .reads, lenOk := fun n => n == 128 } → s.token = false →
    exec (.tapUnlock r d false) s = .next ((u.2.set Reg.UPD_NONCE u.1).completeLate r 0x0B08 d 0x1E 0 5)) ∧
  (∀ (s : State) (r : Nat) (d : Desc),
    let b := bufBytes d
    let u := (s.beginDesc r 0x0B08 d).draw
    s.serves 0 r 0x0B08 d { priv := 3, standby := true, buf := .reads, lenOk := fun n => n == 128 } → s.token = false →
    rd b 0 4 = 0x96405441 → rd b 4 2 = 1 → rd b 6 1 < 4 → bit (s.get Reg.UPD_STAT_REVOKED) (rd b 6 1) = false →
    rd b 8 8 = s.get Reg.GLB_SERIAL → rd b 16 8 = s.get Reg.UPD_NONCE →
    exec (.tapUnlock r d true) s = .next (
      let v := u.2.set Reg.UPD_NONCE u.1
      let v := ({ v with glb := { v.glb with tapLocked := false } } : State).raise (detN 5 5) 0 0
      (v.logC .debug 1 0 0x0B08 0xA 0 1 0).completeLate r 0x0B08 d 0 128 0)) ∧
  (∀ (s : State) (t n : Nat) (w : List Byte) (g : Bool), s.stage ≠ 0xE →
    exec (.flyOpen t w g) s = .next s ∧ exec (.flyWrite t n w) s = .next s ∧ exec (.flyFinish t) s = .next s ∧
    exec (.flyAbort t) s = .next s ∧ exec .flyBoot s = .next s ∧ exec (.uartMessage w g) s = .next s) ∧
  (∀ (s : State) (t v m : Nat) (w : List Byte) (g : Bool), s.stage = 0xE → s.headerBad (fit 512 w) t g = some (v, m) →
    exec (.flyOpen t w g) s = .next ((s.raise (detN 22 m) 0 0).updMod fun u => { u with flyStat := 2 + 4 * v })) ∧
  (∀ (s : State) (t : Nat) (w : List Byte) (g : Bool),
    let k := s.spareSlot t
    let no := s.upd.nextSess
    let v := (s.updMod fun u => { u with nextSess := no + 1 }).imgMod t k fun _ => { st := 1, hdr := fit 512 w }
    s.stage = 0xE → s.headerBad (fit 512 w) t g = none → Tab.find s.upd.sess t = none → (s.img t k).st ≠ 4 →
    exec (.flyOpen t w g) s = .next ((v.updMod fun u =>
      { u with sess := Tab.put u.sess t { no := no, src := .flyleaf, hdr := fit 512 w, last := v.time } }).updMod fun u => { u with flyStat := 2 })) ∧
  (∀ (s : State) (t n : Nat) (w : List Byte), s.stage = 0xE → Tab.find s.upd.sess t = none →
    exec (.flyWrite t n w) s = .next (s.updMod fun u => { u with flyStat := 38 }) ∧
    exec (.flyFinish t) s = .next (s.updMod fun u => { u with flyStat := 38 }) ∧
    exec (.flyAbort t) s = .next (s.updMod fun u => { u with flyStat := 38 })) ∧
  (∀ (s : State) (t n : Nat) (w : List Byte) (x : Session), s.stage = 0xE → Tab.find s.upd.sess t = some x →
    exec (.flyWrite t n w) s = .next ((s.updMod fun u =>
      { u with sess := Tab.put u.sess t { x with body := x.body ++ fit n w, last := s.time }, flyLen := n }).updMod fun u => { u with flyStat := 2 }) ∧
    exec (.flyFinish t) s = .next ((s.imgFinish t x).2.updMod fun u => { u with flyStat := 2 + 4 * (s.imgFinish t x).1 }) ∧
    exec (.flyAbort t) s = .next ((s.unlockSlot t 0 x).updMod fun u => { u with flyStat := 2 })) ∧
  (∀ s : State, s.stage = 0xE → s.setGood (imgTypes.filter fun t => (s.img t (s.spareSlot t)).st == 2) = false →
    exec .flyBoot s = .next (s.updMod fun u => { u with flyStat := 46 })) ∧
  (∀ (s : State) (ts : List Nat), s.stage = 0xE → ts = (imgTypes.filter fun t => (s.img t (s.spareSlot t)).st == 2) → s.setGood ts = true →
    exec .flyBoot s = .next (
      let u := ts.foldl (fun s t => (s.imgMod t (1 - s.spareSlot t) fun y => { y with st := (if y.st = 3 then 2 else y.st) }).imgMod t
        (s.spareSlot t) fun y => { y with st := 3 }) s
      ({ u with nv := { u.nv with bootFail := 0, cleanMark := true } } : State).resetGoes 1)) ∧
  (∀ (s : State) (m : List Byte) (g : Bool), s.stage = 0xE → rd m 0 1 ≠ 0xA5 → exec (.uartMessage m g) s = .next s) ∧
  (∀ (s : State) (m : List Byte) (g : Bool), s.stage = 0xE → s.glb.lossStep = 0 → rd m 0 1 = 0xA5 →
    m.length ≠ rd m 2 2 + 8 ∨ 4096 < rd m 2 2 ∨ crc32 (m.take (4 + rd m 2 2)) ≠ rd m (4 + rd m 2 2) 4 →
    exec (.uartMessage m g) s = .next (s.emit (.uart (sealed (le 1 0xA5 ++ le 1 (0x80 + rd m 1 1) ++ le 2 4 ++ le 4 1022))))) ∧
  (∀ (s : State) (m : List Byte) (g : Bool), s.stage = 0xE → s.glb.lossStep ≠ 0 → rd m 0 1 = 0xA5 →
    m.length ≠ rd m 2 2 + 8 ∨ 4096 < rd m 2 2 ∨ crc32 (m.take (4 + rd m 2 2)) ≠ rd m (4 + rd m 2 2) 4 →
    exec (.uartMessage m g) s = .next s) ∧
  (∀ (s : State) (m : List Byte) (g : Bool) (n : Nat),
    let u := s.flyOpen (bits (rd m 1 1) 4 4) ((m.drop 4).take n) g
    s.stage = 0xE → rd m 0 1 = 0xA5 → n = rd m 2 2 → m.length = n + 8 → n ≤ 4096 → crc32 (m.take (4 + n)) = rd m (4 + n) 4 → rd m 1 1 % 16 = 1 →
    exec (.uartMessage m g) s = .next (u.uartAnswer (rd m 1 1) u.upd.flyStat)) ∧
  (∀ (s : State) (m : List Byte) (g : Bool) (n : Nat),
    let u := s.flyWrite (bits (rd m 1 1) 4 4) n ((m.drop 4).take n)
    s.stage = 0xE → rd m 0 1 = 0xA5 → n = rd m 2 2 → m.length = n + 8 → n ≤ 4096 → crc32 (m.take (4 + n)) = rd m (4 + n) 4 → rd m 1 1 % 16 = 2 →
    exec (.uartMessage m g) s = .next (u.uartAnswer (rd m 1 1) u.upd.flyStat)) ∧
  (∀ (s : State) (m : List Byte) (g : Bool) (n : Nat),
    let u := s.flyFinish (bits (rd m 1 1) 4 4)
    s.stage = 0xE → rd m 0 1 = 0xA5 → n = rd m 2 2 → m.length = n + 8 → n ≤ 4096 → crc32 (m.take (4 + n)) = rd m (4 + n) 4 → rd m 1 1 % 16 = 3 →
    exec (.uartMessage m g) s = .next (u.uartAnswer (rd m 1 1) u.upd.flyStat)) ∧
  (∀ (s : State) (m : List Byte) (g : Bool) (n : Nat),
    let u := s.flyAbort (bits (rd m 1 1) 4 4)
    s.stage = 0xE → rd m 0 1 = 0xA5 → n = rd m 2 2 → m.length = n + 8 → n ≤ 4096 → crc32 (m.take (4 + n)) = rd m (4 + n) 4 → rd m 1 1 % 16 = 4 →
    exec (.uartMessage m g) s = .next (u.uartAnswer (rd m 1 1) u.upd.flyStat))

/-- Plans (R547, R548, R550 to R555): activation, its refusals, commit, rollback, the ends of a step and of the soak, and the node pushes. -/
def Obligations.PlanCommands : Prop :=
  (∀ (s : State) (r : Nat) (d : Desc),
    let u := s.beginDesc r 0x0B05 d
    s.serves 0 r 0x0B05 d { priv := 3, standby := true, parOk := bits d.p0 0 6 != 0 } →
    u.upd.plan.isSome = true ∨ u.prs.hier.isSome = true ∨ u.chs.lists ≠ [] →
    exec (.updActivate r d) s = .next (u.completeLate r 0x0B05 d 0x16 0 0)) ∧
  (∀ (s : State) (r t : Nat) (d : Desc),
    let u := s.beginDesc r 0x0B05 d
    let ts := imgTypes.filter fun t => bit d.p0 (t - 1)
    s.serves 0 r 0x0B05 d { priv := 3, standby := true, parOk := bits d.p0 0 6 != 0 } → u.upd.plan = none → u.prs.hier = none → u.chs.lists = [] →
    (ts.find? fun t => (u.img t (u.spareSlot t)).st != 2) = some t →
    exec (.updActivate r d) s = .next (u.completeLate r 0x0B05 d 0x1E 0 (14 + 256 * t))) ∧
  (∀ (s : State) (r t : Nat) (d : Desc),
    let u := s.beginDesc r 0x0B05 d
    let ts := imgTypes.filter fun t => bit d.p0 (t - 1)
    s.serves 0 r 0x0B05 d { priv := 3, standby := true, parOk := bits d.p0 0 6 != 0 } → u.upd.plan = none → u.prs.hier = none → u.chs.lists = [] →
    (ts.find? fun t => (u.img t (u.spareSlot t)).st != 2) = none → stepFails (fun new _ => u.setGood new) [] ts = some t →
    exec (.updActivate r d) s = .next (u.completeLate r 0x0B05 d 0x1E 0 (11 + 256 * t))) ∧
  (∀ (s : State) (r : Nat) (d : Desc),
    let u := s.beginDesc r 0x0B05 d
    let ts := imgTypes.filter fun t => bit d.p0 (t - 1)
    s.serves 0 r 0x0B05 d { priv := 3, standby := true, parOk := bits d.p0 0 6 != 0 } → u.upd.plan = none → u.prs.hier = none → u.chs.lists = [] →
    (ts.find? fun t => (u.img t (u.spareSlot t)).st != 2) = none → stepFails (fun new _ => u.setGood new) [] ts = none →
    ts.contains 5 = false → u.token = true → u.get Reg.ROS_STAT_PREADY = 0 → ts.contains 1 = true ∨ ts.contains 2 = true → bit d.p1 0 = false →
    exec (.updActivate r d) s = .next (u.completeLate r 0x0B05 d 0x1E 0 (13 + 256 * ts.headD 0))) ∧
  (∀ (s : State) (r : Nat) (d : Desc),
    let u := s.beginDesc r 0x0B05 d
    let ts := imgTypes.filter fun t => bit d.p0 (t - 1)
    let v := u.newChange.2
    let c : Staged := { no := u.newChange.1, block := 0xA, opcode := 0x0B05, target := bits d.p0 0 6, old := 0, new := 0, ring := r, due := v.leadPeriod, act := .own }
    s.serves 0 r 0x0B05 d { priv := 3, standby := true, parOk := bits d.p0 0 6 != 0 } → u.upd.plan = none → u.prs.hier = none → u.chs.lists = [] →
    (ts.find? fun t => (u.img t (u.spareSlot t)).st != 2) = none → stepFails (fun new _ => u.setGood new) [] ts = none →
    ts.contains 5 = false → u.token = false →
    exec (.updActivate r d) s = .next ((v.planStart c ts false false (bit d.p1 0)).completeLate r 0x0B05 d 2 0 u.newChange.1)) ∧
  (∀ (s : State) (r : Nat) (d : Desc), s.serves 0 r 0x0B06 d { priv := 3, standby := true } → (s.beginDesc r 0x0B06 d).planWhole = false →
    exec (.updCommit r d) s = .next ((s.beginDesc r 0x0B06 d).completeLate r 0x0B06 d 0x1E 0 15)) ∧
  (∀ (s : State) (r : Nat) (d : Desc), s.serves 0 r 0x0B06 d { priv := 3, standby := true } → (s.beginDesc r 0x0B06 d).planWhole = true →
    exec (.updCommit r d) s = .next ((((s.beginDesc r 0x0B06 d).logC (.host r) 2 0 0x0B06 0xA 0 0 0).planCommit (.host r)).completeLate
      r 0x0B06 d 0 0 0)) ∧
  (∀ (s : State) (r : Nat) (d : Desc), s.serves 0 r 0x0B07 d { priv := 3, standby := true } → s.upd.plan = none →
    exec (.updRollback r d) s = .next ((s.beginDesc r 0x0B07 d).completeLate r 0x0B07 d 0x1E 0 15)) ∧
  (∀ (s : State) (r : Nat) (d : Desc) (p : UPlan),
    let u := (s.beginDesc r 0x0B07 d).newChange
    let v := u.2.logC (.host r) 2 u.1 0x0B07 0xA 0 p.no 0
    let w := v.updMod fun x => { x with plan := some { p with st := { p.st with no := u.1, opcode := 0x0B07 } } }
    s.serves 0 r 0x0B07 d { priv := 3, standby := true } → s.upd.plan = some p → p.rolling = false →
    exec (.updRollback r d) s = .next ((w.planBack 0).completeLate r 0x0B07 d 2 0 u.1)) ∧
  (∀ s : State, s.stepNow = none → exec .stepConfirmed s = .next s ∧ exec .stepDeadline s = .next s) ∧
  (∀ (s : State) (x : PlanStep), s.stepNow = some x → x.type = 0 ∨ 5 ≤ x.type → exec .stepConfirmed s = .next s) ∧
  (∀ (s : State) (x : PlanStep), s.stepNow = some x → x.type ≠ 0 → x.type < 5 → x.peer = true →
    exec .stepConfirmed s = .next s.stepDone) ∧
  (∀ (s : State) (x : PlanStep), s.stepNow = some x → x.type ≠ 0 → x.type < 5 → x.peer = false → (s.migrate x.type).1 = true →
    exec .stepConfirmed s = .next (s.migrate x.type).2.stepDone) ∧
  (∀ (s : State) (x : PlanStep), s.stepNow = some x → x.type ≠ 0 → x.type < 5 → x.peer = false → (s.migrate x.type).1 = false →
    (s.migrate x.type).2.upd.plan.any (·.rolling) = false →
    exec .stepConfirmed s = .next ((s.migrate x.type).2.planBack x.type)) ∧
  (∀ (s : State) (p : UPlan) (x : PlanStep), s.upd.plan = some p → s.stepNow = some x → p.rolling = false →
    exec .stepDeadline s = .next (s.planBack x.type)) ∧
  (∀ (s : State) (p : UPlan) (x y : PlanStep) (i : Nat), s.upd.plan = some p → s.stepNow = some x → p.rolling = true →
    ((p.steps.zipIdx.map fun e => (e.2, e.1)).find? fun e => e.2.st == 1) = some (i, y) →
    exec .stepDeadline s = .next ((s.stepPut i fun z => { z with tries := z.tries + 1, at_ := s.time }).procReset x.type)) ∧
  (∀ s : State, s.planWhole = true → s.on Reg.UPD_CTL_AUTO = true → s.get Reg.UPD_CTL_SOAK ≠ 0 →
    exec .soakEnd s = .next (s.planCommit (.fw 3))) ∧
  (∀ s : State, s.planWhole = false ∨ s.on Reg.UPD_CTL_AUTO = false ∨ s.get Reg.UPD_CTL_SOAK = 0 → exec .soakEnd s = .next s) ∧
  (∀ (s : State) (k p : Nat) (f : List Byte), f.length < 6 ∨ crc16 (f.take (f.length - 2)) ≠ rd f (f.length - 2) 2 → s.masters k = true →
    exec (.imgcheck k p f) s = .next (s.bump (Reg.BUP_RCRC k))) ∧
  (∀ (s : State) (k p a fl : Nat) (f args recs : List Byte), bupParts f 8 a fl args recs → s.masters k = true → p ≤ 1 →
    exec (.imgcheck k p f) s = .next ((checkRecords (recs.length + 1) recs).foldl (fun s r => s.checkRecord k r) s)) ∧
  (∀ (s : State) (k : Nat), Tab.find s.upd.push k = none → exec (.nodeSwapTimeout k) s = .next s) ∧
  (∀ (s : State) (k : Nat) (x : Push), Tab.find s.upd.push k = some x → x.step = 3 → x.node ≠ 0 →
    exec (.nodeSwapTimeout k) s = .next ((s.bupAll k 9 x.node []).planBack 5)) ∧
  (∀ (s : State) (k : Nat) (x : Push), Tab.find s.upd.push k = some x → x.step ≠ 3 ∨ x.node = 0 → exec (.nodeSwapTimeout k) s = .next s)

/-- R155: n participants are added by the fixed tree: the first 2^k of them, 2^k the largest power of two below n, then the rest,
each by the same tree, and their sum saturated; at unlimited width the tree gives the plain sum. -/
def Obligations.ReductionTree : Prop :=
  (∀ (n kind : Nat) (vs : List Int) (k : Nat), 0 < n → 2 ^ k < vs.length → vs.length ≤ 2 * 2 ^ k →
    treeSum n kind vs =
      (satS n ((treeSum n kind (vs.take (2 ^ k))).1 + (treeSum n kind (vs.drop (2 ^ k))).1),
        (treeSum n kind (vs.take (2 ^ k))).2 ++ (treeSum n kind (vs.drop (2 ^ k))).2 ++
          (if satS n ((treeSum n kind (vs.take (2 ^ k))).1 + (treeSum n kind (vs.drop (2 ^ k))).1) =
            (treeSum n kind (vs.take (2 ^ k))).1 + (treeSum n kind (vs.drop (2 ^ k))).1 then [] else [kind]))) ∧
  (∀ (n kind : Nat) (v : Int), treeSum n kind [v] = (v, [])) ∧
  (∀ (kind : Nat) (vs : List Int), treeSum 0 kind vs = (vs.sum, []))

/-- R184: rne rounds to nearest with ties to even, sr rounds down or up by its random bits and leaves an exact quotient as it
is, and sat holds a number within its width and changes none that lies there. -/
def Obligations.Rounding : Prop :=
  (∀ (x : Int) (s : Nat),
    2 * (2 ^ s * rne x s - x) ≤ 2 ^ s ∧ 2 * (x - 2 ^ s * rne x s) ≤ 2 ^ s ∧
    (0 < s → (2 * (2 ^ s * rne x s - x) = 2 ^ s ∨ 2 * (x - 2 ^ s * rne x s) = 2 ^ s) → rne x s % 2 = 0)) ∧
  (∀ (x : Int) (s u : Nat), u < 2 ^ 32 →
    (sr x s u = x / 2 ^ s ∨ sr x s u = x / 2 ^ s + 1) ∧ (x % 2 ^ s = 0 → sr x s u = x / 2 ^ s)) ∧
  (∀ (x : Int) (n : Nat), 0 < n →
    -(2 ^ (n - 1)) ≤ satS n x ∧ satS n x < 2 ^ (n - 1) ∧ (-(2 ^ (n - 1)) ≤ x → x < 2 ^ (n - 1) → satS n x = x))

/-- R190: a leaf accumulator reaches saturation in one case only, while the block count lets the guard of R189 stand: both
operands are i2 or both are i4, n_b is a power of two, every block pair has the same exponent sum, none is a zero block, and
every product is +4 (i2) or +64 (i4). The result is then 2^19 - 1, and the leaf saturation is met. -/
def Obligations.LeafSaturation : Prop :=
  (∀ (fa fw i j : Nat) (bs : List (Blk × Blk)), fa < 4 → fw < 4 → i < fmtD fa → j < fmtD fw → bs.length ≤ 2 ^ leafB fa fw →
    (∀ p ∈ bs, p.1.m.length = 32 ∧ p.2.m.length = 32 ∧ p.1.m.all (inW (fmtW fa)) = true ∧ p.2.m.all (inW (fmtW fw)) = true) →
    ((leafResult fa fw i j bs).2 ≠ [] ↔
      bs ≠ [] ∧ fa = fw ∧ fa ≤ 1 ∧ bs.length = 2 ^ clog2 bs.length ∧ (∀ p ∈ bs, ∀ q ∈ bs, p.1.e + p.2.e = q.1.e + q.2.e) ∧
      ∀ p ∈ bs, p.1.z = false ∧ p.2.z = false ∧ ∀ x ∈ p.1.m.zip p.2.m, x.1 * x.2 = if fa = 0 then 4 else 64)) ∧
  (∀ (fa fw i j : Nat) (bs : List (Blk × Blk)), fa < 4 → fw < 4 → i < fmtD fa → j < fmtD fw → bs.length ≤ 2 ^ leafB fa fw →
    (∀ p ∈ bs, p.1.m.length = 32 ∧ p.2.m.length = 32 ∧ p.1.m.all (inW (fmtW fa)) = true ∧ p.2.m.all (inW (fmtW fw)) = true) →
    (leafResult fa fw i j bs).2 ≠ [] →
    (leafResult fa fw i j bs).2 = [0] ∧ (leafResult fa fw i j bs).1.map (·.1) = some (2 ^ 19 - 1))

/-- R191: with the frame exponent of a pass the folio adders never saturate, for up to 4,096 leaf results of 20 bits. -/
def Obligations.FolioNeverSaturates : Prop :=
  (∀ ls : List (Option (Int × Int)), ls.length ≤ 4096 →
    (∀ l ∈ ls, ∀ x : Int × Int, l = some x → -(2 ^ 19) ≤ x.1 ∧ x.1 < 2 ^ 19) → (folioResult ls).2 = [])

/-- R197: a block that is written holds mantissas in the range of its width and one scale byte; its flag Z is set exactly when all
its mantissas are 0; and no lower exponent from -64 up would have held them, unless the values are all 0. -/
def Obligations.BlockOutput : Prop :=
  (∀ (w rnd : Nat) (a : Int) (vs : List (Int × Nat)), 0 < w →
    (requant w rnd a vs).1.m.length = vs.length ∧ (requant w rnd a vs).1.m.all (inW w) = true ∧
    (requant w rnd a vs).1.scale < 256 ∧ ((requant w rnd a vs).1.z = true ↔ (requant w rnd a vs).1.m.all (· == 0) = true)) ∧
  (∀ (w rnd : Nat) (a : Int) (vs : List (Int × Nat)) (e : Int), 0 < w → (requant w rnd a vs).1.z = false →
    -64 ≤ e → e < (requant w rnd a vs).1.e → (blkAt rnd a e vs).all (inW w) = false)

/-- The worked examples of the Press chapters: a leaf result, a folio sum, the alignment to A with ties to even, a channel
rescale, a block output, the four leaf results of an i8 pair and their folio sum, and the saturating tree of V4. -/
def Obligations.WorkedExamples : Prop :=
  (leafResult 1 1 0 0
      [({ m := [3, -2, 7, 1] ++ List.replicate 28 0, scale := 0x7D }, { m := [5, 4, -6, 7] ++ List.replicate 28 0, scale := 0x7E }),
       ({ m := [-8, 6] ++ List.replicate 30 0, scale := 0x7F }, { m := [-8, -3] ++ List.replicate 30 0, scale := 0x7E })]
    = (some (4992, -10), [])) ∧
  (folioResult ([some (4992, -10), some (-300, -12)] ++ List.replicate 14 none) = (some (1258752, -18), [])) ∧
  (passSum (-12) [some (1258752, -18), some (-1004, -15)] = (19542, [])) ∧
  (rescale { m := 0x60000000, s := 31, rnd := 0 } 19542 0 = (14656, []) ∧
    rescale { m := 0x60000000, s := 31, rnd := 1 } 19542 0x80000000 = (14657, []) ∧
    rescale { m := 0x60000000, s := 31, rnd := 1 } 19542 0x7FFFFFFF = (14656, [])) ∧
  (requant 8 0 (-12) ([(14656, 0), (-3000, 0), (120, 0)] ++ List.replicate 29 (0, 0))
    = ({ m := [114, -23, 1] ++ List.replicate 29 0, scale := 0x7B }, [])) ∧
  ((leafResult 2 2 0 0 [({ m := -3 :: List.replicate 31 0, scale := 0 }, { m := 100 :: List.replicate 31 0, scale := 0 })]).1 = some (3328, -6) ∧
    (leafResult 2 2 0 1 [({ m := -3 :: List.replicate 31 0, scale := 0 }, { m := 100 :: List.replicate 31 0, scale := 0 })]).1 = some (4992, -2) ∧
    (leafResult 2 2 1 0 [({ m := -3 :: List.replicate 31 0, scale := 0 }, { m := 100 :: List.replicate 31 0, scale := 0 })]).1 = some (-256, -2) ∧
    (leafResult 2 2 1 1 [({ m := -3 :: List.replicate 31 0, scale := 0 }, { m := 100 :: List.replicate 31 0, scale := 0 })]).1 = some (-384, 2)) ∧
  ((folioResult ((some (3328, -6) :: List.replicate 15 none) ++ (some (4992, -2) :: List.replicate 15 none) ++
      (some (-256, -2) :: List.replicate 15 none) ++ (some (-384, 2) :: List.replicate 15 none))).1 = some (-4800, -4)) ∧
  (treeSum 48 4 [100000000000000, 60000000000000, -50000000000000, 0] = (90737488355327, [4]))
end

