-- ==== Sys2Proof/Laws/FrameBase.lean ====
section
/-!
SUPPORT. The memory of the Press and the queue through choices and folds.
-/
namespace Sys2Proof.Machine
set_option linter.all false

@[simp] theorem pm_ite (c : Prop) [Decidable c] (a b : State) :
    (if c then a else b).prs.pmem = if c then a.prs.pmem else b.prs.pmem := by
  split <;> rfl
@[simp] theorem pmR_ite (c : Prop) [Decidable c] (a b : Reply) :
    (if c then a else b).s.prs.pmem = if c then a.s.prs.pmem else b.s.prs.pmem := by
  split <;> rfl
@[simp] theorem pm2_ite {α : Type} (c : Prop) [Decidable c] (a b : α × State) :
    (if c then a else b).2.prs.pmem = if c then a.2.prs.pmem else b.2.prs.pmem := by
  split <;> rfl
@[simp] theorem pm1_ite {α : Type} (c : Prop) [Decidable c] (a b : State × α) :
    (if c then a else b).1.prs.pmem = if c then a.1.prs.pmem else b.1.prs.pmem := by
  split <;> rfl
@[simp] theorem pm22_ite {α β : Type} (c : Prop) [Decidable c] (a b : α × β × State) :
    (if c then a else b).2.2.prs.pmem = if c then a.2.2.prs.pmem else b.2.2.prs.pmem := by
  split <;> rfl
@[simp] theorem pm222_ite {α β γ : Type} (c : Prop) [Decidable c] (a b : α × β × γ × State) :
    (if c then a else b).2.2.2.prs.pmem = if c then a.2.2.2.prs.pmem else b.2.2.2.prs.pmem := by
  split <;> rfl
@[simp] theorem pm_foldl {α : Type} (l : List α) (f : State → α → State) (s : State)
    (hf : ∀ s a, (f s a).prs.pmem = s.prs.pmem) : (l.foldl f s).prs.pmem = s.prs.pmem := by
  induction l generalizing s with
  | nil => rfl
  | cons a l ih => exact (ih _).trans (hf _ _)
@[simp] theorem pm_foldl2 {α β : Type} (l : List α) (f : β × State → α → β × State) (p : β × State)
    (hf : ∀ p a, (f p a).2.prs.pmem = p.2.prs.pmem) : (l.foldl f p).2.prs.pmem = p.2.prs.pmem := by
  induction l generalizing p with
  | nil => rfl
  | cons a l ih => exact (ih _).trans (hf _ _)
@[simp] theorem pm_foldl1 {α β : Type} (l : List α) (f : State × β → α → State × β) (p : State × β)
    (hf : ∀ p a, (f p a).1.prs.pmem = p.1.prs.pmem) : (l.foldl f p).1.prs.pmem = p.1.prs.pmem := by
  induction l generalizing p with
  | nil => rfl
  | cons a l ih => exact (ih _).trans (hf _ _)

@[simp] theorem pd_ite (c : Prop) [Decidable c] (a b : State) :
    (if c then a else b).pending = if c then a.pending else b.pending := by
  split <;> rfl
@[simp] theorem pdR_ite (c : Prop) [Decidable c] (a b : Reply) :
    (if c then a else b).s.pending = if c then a.s.pending else b.s.pending := by
  split <;> rfl
@[simp] theorem pd2_ite {α : Type} (c : Prop) [Decidable c] (a b : α × State) :
    (if c then a else b).2.pending = if c then a.2.pending else b.2.pending := by
  split <;> rfl
@[simp] theorem pd1_ite {α : Type} (c : Prop) [Decidable c] (a b : State × α) :
    (if c then a else b).1.pending = if c then a.1.pending else b.1.pending := by
  split <;> rfl
@[simp] theorem pd22_ite {α β : Type} (c : Prop) [Decidable c] (a b : α × β × State) :
    (if c then a else b).2.2.pending = if c then a.2.2.pending else b.2.2.pending := by
  split <;> rfl
@[simp] theorem pd222_ite {α β γ : Type} (c : Prop) [Decidable c] (a b : α × β × γ × State) :
    (if c then a else b).2.2.2.pending = if c then a.2.2.2.pending else b.2.2.2.pending := by
  split <;> rfl
@[simp] theorem pd_foldl {α : Type} (l : List α) (f : State → α → State) (s : State)
    (hf : ∀ s a, (f s a).pending = s.pending) : (l.foldl f s).pending = s.pending := by
  induction l generalizing s with
  | nil => rfl
  | cons a l ih => exact (ih _).trans (hf _ _)
@[simp] theorem pd_foldl2 {α β : Type} (l : List α) (f : β × State → α → β × State) (p : β × State)
    (hf : ∀ p a, (f p a).2.pending = p.2.pending) : (l.foldl f p).2.pending = p.2.pending := by
  induction l generalizing p with
  | nil => rfl
  | cons a l ih => exact (ih _).trans (hf _ _)
@[simp] theorem pd_foldl1 {α β : Type} (l : List α) (f : State × β → α → State × β) (p : State × β)
    (hf : ∀ p a, (f p a).1.pending = p.1.pending) : (l.foldl f p).1.pending = p.1.pending := by
  induction l generalizing p with
  | nil => rfl
  | cons a l ih => exact (ih _).trans (hf _ _)

end Sys2Proof.Machine
end

