-- ==== Sys2Proof/Laws/FrameOps.lean ====
section
/-!
SUPPORT. Frames of the shared operations, the rings and ingest: each function keeps the queue, and the memory of the Press where it stores nothing.
-/
namespace Sys2Proof.Machine
set_option linter.all false

@[simp] theorem State.set_frame (s : State) (f : Fld) (v : Nat) :
    (State.set s f v).prs.pmem = s.prs.pmem ∧ (State.set s f v).pending = s.pending := by
  simp [State.set, *]

@[simp] theorem State.setS_frame (s : State) (f : Fld) (z : Int) :
    (State.setS s f z).prs.pmem = s.prs.pmem ∧ (State.setS s f z).pending = s.pending := by
  simp [State.setS, *]

@[simp] theorem State.setB_frame (s : State) (f : Fld) (b : Bool) :
    (State.setB s f b).prs.pmem = s.prs.pmem ∧ (State.setB s f b).pending = s.pending := by
  simp [State.setB, *]

@[simp] theorem State.add_frame (s : State) (f : Fld) (n : Nat) :
    (State.add s f n).prs.pmem = s.prs.pmem ∧ (State.add s f n).pending = s.pending := by
  simp [State.add, *]

@[simp] theorem State.bump_frame (s : State) (f : Fld) :
    (State.bump s f).prs.pmem = s.prs.pmem ∧ (State.bump s f).pending = s.pending := by
  simp [State.bump, *]

@[simp] theorem State.setNv_frame (s : State) (f : Fld) (v : Nat) :
    (State.setNv s f v).prs.pmem = s.prs.pmem ∧ (State.setNv s f v).pending = s.pending := by
  simp [State.setNv, *]

@[simp] theorem State.resetFields_frame (s : State) (p : Nat → Bool) :
    (State.resetFields s p).prs.pmem = s.prs.pmem ∧ (State.resetFields s p).pending = s.pending := by
  simp [State.resetFields, *]

@[simp] theorem State.resetBlock_frame (s : State) (b : Nat) :
    (State.resetBlock s b).prs.pmem = s.prs.pmem ∧ (State.resetBlock s b).pending = s.pending := by
  simp [State.resetBlock, *]

@[simp] theorem State.later_frame (s : State) (f : Fld) (v : Nat) (p : Point) :
    (State.later s f v p).prs.pmem = s.prs.pmem ∧ (State.later s f v p).pending = s.pending := by
  simp [State.later, *]

@[simp] theorem State.applyW_frame (s : State) (p : Point) :
    (State.applyW s p).prs.pmem = s.prs.pmem ∧ (State.applyW s p).pending = s.pending := by
  simp [State.applyW, *]

@[simp] theorem State.draw_frame (s : State) :
    (State.draw s).2.prs.pmem = s.prs.pmem ∧ (State.draw s).2.pending = s.pending := by
  simp [State.draw, *]

@[simp] theorem State.emit_frame (s : State) (o : Output) :
    (State.emit s o).prs.pmem = s.prs.pmem ∧ (State.emit s o).pending = s.pending := by
  simp [State.emit, *]

@[simp] theorem State.rosOut_frame (s : State) (type : Nat) (p : List Byte) :
    (State.rosOut s type p).prs.pmem = s.prs.pmem ∧ (State.rosOut s type p).pending = s.pending := by
  simp [State.rosOut, *]

@[simp] theorem State.countTo_frame (s : State) (n : Nat) (c : Nat) (v : Nat) :
    (State.countTo s n c v).prs.pmem = s.prs.pmem ∧ (State.countTo s n c v).pending = s.pending := by
  simp [State.countTo, *]

@[simp] theorem State.count_frame (s : State) (n : Nat) (ev : Nat) (k : Nat) (kind : Nat) :
    (State.count s n ev k kind).prs.pmem = s.prs.pmem ∧ (State.count s n ev k kind).pending = s.pending := by
  simp [State.count, *]

@[simp] theorem State.ringMod_frame (s : State) (r : Nat) (f : RingX → RingX) :
    (State.ringMod s r f).prs.pmem = s.prs.pmem ∧ (State.ringMod s r f).pending = s.pending := by
  simp [State.ringMod, *]

@[simp] theorem State.msixSend_frame (s : State) (v : Nat) :
    (State.msixSend s v).prs.pmem = s.prs.pmem ∧ (State.msixSend s v).pending = s.pending := by
  simp [State.msixSend, *]

@[simp] theorem State.msixFlush_frame (s : State) :
    (State.msixFlush s).prs.pmem = s.prs.pmem ∧ (State.msixFlush s).pending = s.pending := by
  simp [State.msixFlush, *]

@[simp] theorem State.dmaOut_frame (s : State) (a : Nat) (b : List Byte) :
    (State.dmaOut s a b).prs.pmem = s.prs.pmem ∧ (State.dmaOut s a b).pending = s.pending := by
  simp [State.dmaOut, *]

@[simp] theorem State.moderate_frame (s : State) (r : Nat) :
    (State.moderate s r).prs.pmem = s.prs.pmem ∧ (State.moderate s r).pending = s.pending := by
  simp [State.moderate, *]

@[simp] theorem State.putEntry_frame (s : State) (r : Nat) (entry : Bool → List Byte) :
    (State.putEntry s r entry).prs.pmem = s.prs.pmem ∧ (State.putEntry s r entry).pending = s.pending := by
  simp [State.putEntry, *]

@[simp] theorem State.postEntry_frame (s : State) (r : Nat) (typ : Nat) (src : Nat) (confirmed : Bool) (inline : Bool → List Byte) (payload : List Byte) (stamp : Option Nat) :
    (State.postEntry s r typ src confirmed inline payload stamp).prs.pmem = s.prs.pmem ∧ (State.postEntry s r typ src confirmed inline payload stamp).pending = s.pending := by
  simp [State.postEntry, *]

@[simp] theorem State.evtP_frame (s : State) (src : Nat) (typ : Nat) (inline : Bool → List Byte) (payload : List Byte) :
    (State.evtP s src typ inline payload).prs.pmem = s.prs.pmem ∧ (State.evtP s src typ inline payload).pending = s.pending := by
  simp [State.evtP, *]

@[simp] theorem State.evt_frame (s : State) (src : Nat) (typ : Nat) (inline : List Byte) :
    (State.evt s src typ inline).prs.pmem = s.prs.pmem ∧ (State.evt s src typ inline).pending = s.pending := by
  simp [State.evt, *]

@[simp] theorem State.openAdd_frame (s : State) (n : Nat) :
    (State.openAdd s n).prs.pmem = s.prs.pmem ∧ (State.openAdd s n).pending = s.pending := by
  simp [State.openAdd, *]

@[simp] theorem State.storeWrap_frame (s : State) (store : Nat) (n : Nat) (cap : Nat) (oldest : Nat) :
    (State.storeWrap s store n cap oldest).prs.pmem = s.prs.pmem ∧ (State.storeWrap s store n cap oldest).pending = s.pending := by
  simp [State.storeWrap, *]

@[simp] theorem State.logC_frame (s : State) (o : Origin) (kind : Nat) (chgNo : Nat) (opcode : Nat) (block : Nat) (target : Nat) (old : Nat) (new : Nat) (digest : Bool) :
    (State.logC s o kind chgNo opcode block target old new digest).prs.pmem = s.prs.pmem ∧ (State.logC s o kind chgNo opcode block target old new digest).pending = s.pending := by
  simp [State.logC, *]

@[simp] theorem State.slug_frame (s : State) (code : Nat) (sub : Nat) (p0 : Nat) (p1 : Nat) (p2 : Nat) (p3 : Nat) :
    (State.slug s code sub p0 p1 p2 p3).prs.pmem = s.prs.pmem ∧ (State.slug s code sub p0 p1 p2 p3).pending = s.pending := by
  simp [State.slug, *]

@[simp] theorem State.stallBound_frame (s : State) (p : Nat) :
    (State.stallBound s p).prs.pmem = s.prs.pmem ∧ (State.stallBound s p).pending = s.pending := by
  simp [State.stallBound, *]

@[simp] theorem State.flushCpl_frame (s : State) (p n : Nat) :
    (State.flushCpl s p n).prs.pmem = s.prs.pmem ∧ (State.flushCpl s p n).pending = s.pending := by
  induction n generalizing s with
  | zero => simp [State.flushCpl]
  | succ n ih =>
    unfold State.flushCpl
    repeat' (first | (simp [ih]; done) | split)

@[simp] theorem State.writeCpl_frame (s : State) (p : Nat) (c : Cpl) :
    (State.writeCpl s p c).prs.pmem = s.prs.pmem ∧ (State.writeCpl s p c).pending = s.pending := by
  simp [State.writeCpl, *]

@[simp] theorem State.closeBatch_frame (s : State) (r : Nat) :
    (State.closeBatch s r).prs.pmem = s.prs.pmem ∧ (State.closeBatch s r).pending = s.pending := by
  simp [State.closeBatch, *]

@[simp] theorem State.completeOne_frame (s : State) (r : Nat) (op : Nat) (d : Desc) (status : Nat) (done : Nat) (result : Nat) :
    (State.completeOne s r op d status done result).prs.pmem = s.prs.pmem ∧ (State.completeOne s r op d status done result).pending = s.pending := by
  simp [State.completeOne, *]

@[simp] theorem State.completeMode_frame (s : State) (r : Nat) (op : Nat) (d : Desc) (status : Nat) (done : Nat) (result : Nat) :
    (State.completeMode s r op d status done result).prs.pmem = s.prs.pmem ∧ (State.completeMode s r op d status done result).pending = s.pending := by
  simp [State.completeMode, *]

@[simp] theorem State.completeNow_frame (s : State) (r : Nat) (op : Nat) (d : Desc) (status : Nat) (done : Nat) (result : Nat) :
    (State.completeNow s r op d status done result).prs.pmem = s.prs.pmem ∧ (State.completeNow s r op d status done result).pending = s.pending := by
  simp [State.completeNow, *]

@[simp] theorem State.dropBadOps_frame (s : State) (r n : Nat) :
    (State.dropBadOps s r n).prs.pmem = s.prs.pmem ∧ (State.dropBadOps s r n).pending = s.pending := by
  induction n generalizing s with
  | zero => simp [State.dropBadOps]
  | succ n ih =>
    unfold State.dropBadOps
    dsimp only
    split
    · simp
    · split
      · simp [ih]
      · split <;> simp [ih]
      · simp

@[simp] theorem State.ringGoes_frame (s : State) (r : Nat) :
    (State.ringGoes s r).prs.pmem = s.prs.pmem ∧ (State.ringGoes s r).pending = s.pending := by
  simp [State.ringGoes, *]

@[simp] theorem State.fencesOver_frame (s : State) (n : Nat) :
    (State.fencesOver s n).prs.pmem = s.prs.pmem ∧ (State.fencesOver s n).pending = s.pending := by
  induction n generalizing s with
  | zero => simp [State.fencesOver]
  | succ n ih =>
    unfold State.fencesOver
    repeat' (first | (simp [ih]; done) | split)

@[simp] theorem State.complete_frame (s : State) (r : Nat) (op : Nat) (d : Desc) (status : Nat) (done : Nat) (result : Nat) :
    (State.complete s r op d status done result).prs.pmem = s.prs.pmem ∧ (State.complete s r op d status done result).pending = s.pending := by
  simp [State.complete, *]

@[simp] theorem State.detMod_frame (s : State) (n : Nat) (f : Det → Det) :
    (State.detMod s n f).prs.pmem = s.prs.pmem ∧ (State.detMod s n f).pending = s.pending := by
  simp [State.detMod, *]

@[simp] theorem State.stageChanged_frame (s : State) (old : Nat) :
    (State.stageChanged s old).prs.pmem = s.prs.pmem ∧ (State.stageChanged s old).pending = s.pending := by
  simp [State.stageChanged, *]

@[simp] theorem State.setStage_frame (s : State) (v : Nat) :
    (State.setStage s v).prs.pmem = s.prs.pmem ∧ (State.setStage s v).pending = s.pending := by
  simp [State.setStage, *]

@[simp] theorem State.setReady_frame (s : State) (f : Fld) (v : Nat) :
    (State.setReady s f v).prs.pmem = s.prs.pmem ∧ (State.setReady s f v).pending = s.pending := by
  simp [State.setReady, *]

@[simp] theorem State.pwrChange_frame (s : State) (f : State → State) (h1 : ∀ y0, (f y0).prs.pmem = y0.prs.pmem ∧ (f y0).pending = y0.pending) :
    (State.pwrChange s f).prs.pmem = s.prs.pmem ∧ (State.pwrChange s f).pending = s.pending := by
  simp [State.pwrChange, *]

@[simp] theorem State.halt_frame (s : State) (n : Nat) :
    (State.halt s n).prs.pmem = s.prs.pmem ∧ (State.halt s n).pending = s.pending := by
  simp [State.halt, *]

@[simp] theorem State.raiseEvt_frame (s : State) (n : Nat) (c : Nat) (param : Nat) (inj : Bool) (esc : Bool) :
    (State.raiseEvt s n c param inj esc).prs.pmem = s.prs.pmem ∧ (State.raiseEvt s n c param inj esc).pending = s.pending := by
  simp [State.raiseEvt, *]

@[simp] theorem State.raise_frame (s : State) (n : Nat) (esc : Nat) (param : Nat) (injected : Bool) :
    (State.raise s n esc param injected).prs.pmem = s.prs.pmem ∧ (State.raise s n esc param injected).pending = s.pending := by
  simp [State.raise, *]

@[simp] theorem State.levelOn_frame (s : State) (n : Nat) (esc : Nat) (param : Nat) :
    (State.levelOn s n esc param).prs.pmem = s.prs.pmem ∧ (State.levelOn s n esc param).pending = s.pending := by
  simp [State.levelOn, *]

@[simp] theorem State.levelOff_frame (s : State) (n : Nat) :
    (State.levelOff s n).prs.pmem = s.prs.pmem ∧ (State.levelOff s n).pending = s.pending := by
  simp [State.levelOff, *]

@[simp] theorem State.level_frame (s : State) (n : Nat) (esc : Nat) (param : Nat) (present : Bool) :
    (State.level s n esc param present).prs.pmem = s.prs.pmem ∧ (State.level s n esc param present).pending = s.pending := by
  simp [State.level, *]

@[simp] theorem State.missRaise_frame (s : State) (c : Nat) (first : Bool) (inj : Bool) :
    (State.missRaise s c first inj).prs.pmem = s.prs.pmem ∧ (State.missRaise s c first inj).pending = s.pending := by
  simp [State.missRaise, *]

@[simp] theorem State.spineRaise_frame (s : State) (port : Nat) (inj : Bool) :
    (State.spineRaise s port inj).prs.pmem = s.prs.pmem ∧ (State.spineRaise s port inj).pending = s.pending := by
  simp [State.spineRaise, *]

@[simp] theorem State.barRaise_frame (s : State) (d : Nat) (level : Nat) (unit : Nat) (inj : Bool) :
    (State.barRaise s d level unit inj).prs.pmem = s.prs.pmem ∧ (State.barRaise s d level unit inj).pending = s.pending := by
  simp [State.barRaise, *]

@[simp] theorem State.wdogRaise_frame (s : State) (inj : Bool) :
    (State.wdogRaise s inj).prs.pmem = s.prs.pmem ∧ (State.wdogRaise s inj).pending = s.pending := by
  simp [State.wdogRaise, *]

@[simp] theorem State.newChange_frame (s : State) :
    (State.newChange s).2.prs.pmem = s.prs.pmem ∧ (State.newChange s).2.pending = s.pending := by
  simp [State.newChange, *]

@[simp] theorem State.changeDone_frame (s : State) (c : Staged) (outcome : Nat) (steps : Nat) (failure : Nat) :
    (State.changeDone s c outcome steps failure).prs.pmem = s.prs.pmem ∧ (State.changeDone s c outcome steps failure).pending = s.pending := by
  simp [State.changeDone, *]

@[simp] theorem State.changeSend_frame (s : State) (c : Staged) (b : List Byte) :
    (State.changeSend s c b).prs.pmem = s.prs.pmem ∧ (State.changeSend s c b).pending = s.pending := by
  simp [State.changeSend, *]

@[simp] theorem State.stage1_frame (s : State) (r : Nat) (block : Nat) (opcode : Nat) (target : Nat) (old : Nat) (new : Nat) (due : Nat) (act : StagedAct) (digest : Bool) :
    (State.stage1 s r block opcode target old new due act digest).2.prs.pmem = s.prs.pmem ∧ (State.stage1 s r block opcode target old new due act digest).2.pending = s.pending := by
  simp [State.stage1, *]

@[simp] theorem State.unitMod_frame (s : State) (kind : Nat) (u : Nat) (f : UnitX → UnitX) :
    (State.unitMod s kind u f).prs.pmem = s.prs.pmem ∧ (State.unitMod s kind u f).pending = s.pending := by
  simp [State.unitMod, *]

@[simp] theorem State.reserveCheck_frame (s : State) (k : Nat) :
    (State.reserveCheck s k).prs.pmem = s.prs.pmem ∧ (State.reserveCheck s k).pending = s.pending := by
  simp [State.reserveCheck, *]

@[simp] theorem State.unitSpared_frame (s : State) (kind : Nat) (cause : Nat) (failed : Nat) (spare : Nat) :
    (State.unitSpared s kind cause failed spare).prs.pmem = s.prs.pmem ∧ (State.unitSpared s kind cause failed spare).pending = s.pending := by
  simp [State.unitSpared, *]

@[simp] theorem State.unitOut_frame (s : State) (kind : Nat) (u : Nat) (cause : Nat) (inj : Bool) :
    (State.unitOut s kind u cause inj).prs.pmem = s.prs.pmem ∧ (State.unitOut s kind u cause inj).pending = s.pending := by
  simp [State.unitOut, *]

@[simp] theorem State.prsMod_frame (s : State) (f : Prs → Prs) :
    (s.prsMod f).prs.pmem = (f s.prs).pmem ∧ (s.prsMod f).pending = s.pending := ⟨rfl, rfl⟩

@[simp] theorem State.pwrite_frame (s : State) (a : Nat) (bs : List Byte) :
    (State.pwrite s a bs).pending = s.pending := by
  simp [State.pwrite, *]

-- SKIP Sys2Proof.Machine.Reply.s
@[simp] theorem ok_frame (s : State) :
    (ok s).s.prs.pmem = s.prs.pmem ∧ (ok s).s.pending = s.pending := by
  simp [ok, *]

@[simp] theorem okR_frame (s : State) (result : Nat) :
    (okR s result).s.prs.pmem = s.prs.pmem ∧ (okR s result).s.pending = s.pending := by
  simp [okR, *]

@[simp] theorem okN_frame (s : State) (n : Nat) :
    (okN s n).s.prs.pmem = s.prs.pmem ∧ (okN s n).s.pending = s.pending := by
  simp [okN, *]

@[simp] theorem staged_frame (s : State) (chg : Nat) :
    (staged s chg).s.prs.pmem = s.prs.pmem ∧ (staged s chg).s.pending = s.pending := by
  simp [staged, *]

@[simp] theorem bad_frame (s : State) (status : Nat) :
    (bad s status).s.prs.pmem = s.prs.pmem ∧ (bad s status).s.pending = s.pending := by
  simp [bad, *]

@[simp] theorem refuse_frame (s : State) (reason : Nat) :
    (refuse s reason).s.prs.pmem = s.prs.pmem ∧ (refuse s reason).s.pending = s.pending := by
  simp [refuse, *]

@[simp] theorem image_frame (s : State) (n : Nat) (b : List Byte) :
    (image s n b).s.prs.pmem = s.prs.pmem ∧ (image s n b).s.pending = s.pending := by
  simp [image, *]

@[simp] theorem State.beginDesc_frame (s : State) (r : Nat) (op : Nat) (d : Desc) :
    (State.beginDesc s r op d).prs.pmem = s.prs.pmem ∧ (State.beginDesc s r op d).pending = s.pending := by
  simp [State.beginDesc, *]

@[simp] theorem State.completeLate_frame (s : State) (r : Nat) (op : Nat) (d : Desc) (status : Nat) (done : Nat) (result : Nat) :
    (State.completeLate s r op d status done result).prs.pmem = s.prs.pmem ∧ (State.completeLate s r op d status done result).pending = s.pending := by
  simp [State.completeLate, *]

@[simp] theorem Reply.finish_frame (a : Reply) (r op : Nat) (d : Desc) :
    (a.finish r op d).prs.pmem = a.s.prs.pmem ∧ (a.finish r op d).pending = a.s.pending := by
  unfold Reply.finish
  cases a.status with
  | none => exact ⟨rfl, rfl⟩
  | some st => simp only; split <;> simp

@[simp] theorem State.cmdOn_frame (s : State) (cls r op : Nat) (d : Desc) (i : CmdInfo) (body : State → Reply)
    (h : ∀ s, (body s).s.prs.pmem = s.prs.pmem ∧ (body s).s.pending = s.pending) :
    (s.cmdOn cls r op d i body).prs.pmem = s.prs.pmem ∧ (s.cmdOn cls r op d i body).pending = s.pending := by
  unfold State.cmdOn
  split
  · simp
  · cases hc : (s.beginDesc r op d).check r cls d i <;> simp [hc, h]

theorem State.cmdOn_pending (s : State) (cls r op : Nat) (d : Desc) (i : CmdInfo) (body : State → Reply)
    (h : ∀ s, (body s).s.pending = s.pending) : (s.cmdOn cls r op d i body).pending = s.pending := by
  unfold State.cmdOn
  split
  · rfl
  · cases hc : (s.beginDesc r op d).check r cls d i <;> simp [hc, h]

@[simp] theorem State.cmd_frame (s : State) (r : Nat) (op : Nat) (d : Desc) (i : CmdInfo) (body : State → Reply) (h5 : ∀ y0, (body y0).s.prs.pmem = y0.prs.pmem ∧ (body y0).s.pending = y0.pending) :
    (State.cmd s r op d i body).prs.pmem = s.prs.pmem ∧ (State.cmd s r op d i body).pending = s.pending := by
  simp [State.cmd, *]

@[simp] theorem State.ringError_frame (s : State) (r : Nat) (ecode : Nat) (kind : Nat) (addr : Nat) :
    (State.ringError s r ecode kind addr).prs.pmem = s.prs.pmem ∧ (State.ringError s r ecode kind addr).pending = s.pending := by
  simp [State.ringError, *]

@[simp] theorem State.shadowCompare_frame (s : State) (r : Nat) (mismatch : Bool) :
    (State.shadowCompare s r mismatch).prs.pmem = s.prs.pmem ∧ (State.shadowCompare s r mismatch).pending = s.pending := by
  simp [State.shadowCompare, *]

@[simp] theorem State.ringEnable_frame (s : State) (r : Nat) (mismatch : Bool) :
    (State.ringEnable s r mismatch).prs.pmem = s.prs.pmem ∧ (State.ringEnable s r mismatch).pending = s.pending := by
  simp [State.ringEnable, *] <;> (repeat' (first | apply And.intro | intro _ | (simp [*]; done) | split | (rw [pm_foldl]) | (rw [pd_foldl]) | (rw [pm_foldl2]) | (rw [pd_foldl2])))

@[simp] theorem State.ringEnableW_frame (s : State) (r : Nat) :
    (State.ringEnableW s r).prs.pmem = s.prs.pmem ∧ (State.ringEnableW s r).pending = s.pending := by
  simp [State.ringEnableW, *]

@[simp] theorem State.abortAll_frame (s : State) (r : Nat) :
    (State.abortAll s r).prs.pmem = s.prs.pmem ∧ (State.abortAll s r).pending = s.pending := by
  simp [State.abortAll, *]

@[simp] theorem State.ringDisable_frame (s : State) (r : Nat) :
    (State.ringDisable s r).prs.pmem = s.prs.pmem ∧ (State.ringDisable s r).pending = s.pending := by
  simp [State.ringDisable, *]

@[simp] theorem State.hostWrite_frame (s : State) (f : State → State) (h1 : ∀ y0, (f y0).prs.pmem = y0.prs.pmem ∧ (f y0).pending = y0.pending) :
    (State.hostWrite s f).prs.pmem = s.prs.pmem ∧ (State.hostWrite s f).pending = s.pending := by
  simp [State.hostWrite, *]

@[simp] theorem State.newTail_frame (s : State) (r : Nat) (v : Nat) :
    (State.newTail s r v).prs.pmem = s.prs.pmem ∧ (State.newTail s r v).pending = s.pending := by
  simp [State.newTail, *]

@[simp] theorem State.newHead_frame (s : State) (r : Nat) (v : Nat) :
    (State.newHead s r v).prs.pmem = s.prs.pmem ∧ (State.newHead s r v).pending = s.pending := by
  simp [State.newHead, *]

@[simp] theorem State.doorbell_frame (s : State) (r : Nat) (v : Nat) (wellSized : Bool) :
    (State.doorbell s r v wellSized).prs.pmem = s.prs.pmem ∧ (State.doorbell s r v wellSized).pending = s.pending := by
  simp [State.doorbell, *]

@[simp] theorem State.serveSaved_frame (s : State) :
    (State.serveSaved s).prs.pmem = s.prs.pmem ∧ (State.serveSaved s).pending = s.pending := by
  simp [State.serveSaved, *] <;> (repeat' (first | apply And.intro | intro _ | (simp [*]; done) | split | (rw [pm_foldl]) | (rw [pd_foldl]) | (rw [pm_foldl2]) | (rw [pd_foldl2])))

@[simp] theorem State.fetch_frame (s : State) (r : Nat) (ds : List (Nat × Desc)) :
    (State.fetch s r ds).prs.pmem = s.prs.pmem ∧ (State.fetch s r ds).pending = s.pending := by
  simp [State.fetch, *]

@[simp] theorem State.dmaFlush_frame (s : State) :
    (State.dmaFlush s).prs.pmem = s.prs.pmem ∧ (State.dmaFlush s).pending = s.pending := by
  simp [State.dmaFlush, *]

@[simp] theorem State.dmaChange_frame (s : State) (bme : Bool) (en : Bool) :
    (State.dmaChange s bme en).prs.pmem = s.prs.pmem ∧ (State.dmaChange s bme en).pending = s.pending := by
  simp [State.dmaChange, *]

@[simp] theorem State.holdDone_frame (s : State) (h : ShadowHold) :
    (State.holdDone s h).prs.pmem = s.prs.pmem ∧ (State.holdDone s h).pending = s.pending := by
  simp [State.holdDone, *]

@[simp] theorem State.releaseHold_frame (s : State) (p : ShadowHold → Bool) :
    (State.releaseHold s p).prs.pmem = s.prs.pmem ∧ (State.releaseHold s p).pending = s.pending := by
  simp [State.releaseHold, *]

@[simp] theorem State.peerReady_frame (s : State) (b : Bool) :
    (State.peerReady s b).prs.pmem = s.prs.pmem ∧ (State.peerReady s b).pending = s.pending := by
  simp [State.peerReady, *]

@[simp] theorem State.ptm_frame (s : State) (good : Bool) (ofs : Int) :
    (State.ptm s good ofs).prs.pmem = s.prs.pmem ∧ (State.ptm s good ofs).pending = s.pending := by
  simp [State.ptm, *]

@[simp] theorem State.ingMod_frame (s : State) (f : Ing → Ing) :
    (State.ingMod s f).prs.pmem = s.prs.pmem ∧ (State.ingMod s f).pending = s.pending := by
  simp [State.ingMod, *]

@[simp] theorem State.putStream_frame (s : State) (n : Nat) (x : Stream) :
    (State.putStream s n x).prs.pmem = s.prs.pmem ∧ (State.putStream s n x).pending = s.pending := by
  simp [State.putStream, *]

@[simp] theorem State.lossCheck_frame (s : State) :
    (State.lossCheck s).prs.pmem = s.prs.pmem ∧ (State.lossCheck s).pending = s.pending := by
  simp [State.lossCheck, *]

@[simp] theorem State.recap_frame (s : State) :
    (State.recap s).prs.pmem = s.prs.pmem ∧ (State.recap s).pending = s.pending := by
  simp [State.recap, *]

@[simp] theorem State.reassign_frame (s : State) (ns : List Nat) (clear : Bool) :
    (State.reassign s ns clear).prs.pmem = s.prs.pmem ∧ (State.reassign s ns clear).pending = s.pending := by
  simp [State.reassign, *] <;> (repeat' (first | apply And.intro | intro _ | (simp [*]; done) | split | (rw [pm_foldl]) | (rw [pd_foldl]) | (rw [pm_foldl2]) | (rw [pd_foldl2])))

@[simp] theorem State.reassignAll_frame (s : State) (all : Bool) (clear : Bool) :
    (State.reassignAll s all clear).prs.pmem = s.prs.pmem ∧ (State.reassignAll s all clear).pending = s.pending := by
  simp [State.reassignAll, *]

@[simp] theorem State.carried_frame (s : State) (r : Nat) (old : Ing) :
    (State.carried s r old).prs.pmem = s.prs.pmem ∧ (State.carried s r old).pending = s.pending := by
  simp [State.carried, *]

@[simp] theorem State.lateHistory_frame (s : State) (n : Nat) (x : Stream) (ts : List Nat) :
    (State.lateHistory s n x ts).prs.pmem = s.prs.pmem ∧ (State.lateHistory s n x ts).pending = s.pending := by
  simp [State.lateHistory, *]

@[simp] theorem State.dropRecord_frame (s : State) (t : Nat) :
    (State.dropRecord s t).prs.pmem = s.prs.pmem ∧ (State.dropRecord s t).pending = s.pending := by
  unfold State.dropRecord
  split
  · simp
  · dsimp only
    split <;> simp

@[simp] theorem State.takeTrace_frame (s : State) (r : Nat) (n : Nat) (seq : Nat) (t0 : Nat) (samples : List Nat) :
    (State.takeTrace s r n seq t0 samples).2.prs.pmem = s.prs.pmem ∧ (State.takeTrace s r n seq t0 samples).2.pending = s.pending := by
  simp [State.takeTrace, *] <;> (repeat' (first | apply And.intro | intro _ | (simp [*]; done) | split | (rw [pm_foldl]) | (rw [pd_foldl]) | (rw [pm_foldl2]) | (rw [pd_foldl2])))

@[simp] theorem State.bind_frame (s : State) (ring : Nat) (n : Nat) (span : Nat) (die : Nat) (tray : Nat) (slot : Nat) (cls : Nat) (rate : Nat) :
    (State.bind s ring n span die tray slot cls rate).prs.pmem = s.prs.pmem ∧ (State.bind s ring n span die tray slot cls rate).pending = s.pending := by
  simp [State.bind, *]

@[simp] theorem State.unbind_frame (s : State) (n : Nat) (reason : Nat) :
    (State.unbind s n reason).prs.pmem = s.prs.pmem ∧ (State.unbind s n reason).pending = s.pending := by
  simp [State.unbind, *] <;> (repeat' (first | apply And.intro | intro _ | (simp [*]; done) | split | (rw [pm_foldl]) | (rw [pd_foldl]) | (rw [pm_foldl2]) | (rw [pd_foldl2])))

@[simp] theorem State.leave_frame (s : State) (ring : Nat) (n : Nat) (span : Nat) (t : Nat) (reason : Nat) :
    (State.leave s ring n span t reason).prs.pmem = s.prs.pmem ∧ (State.leave s ring n span t reason).pending = s.pending := by
  simp [State.leave, *]

@[simp] theorem State.schedOne_frame (s : State) (e : SchedE) :
    (State.schedOne s e).prs.pmem = s.prs.pmem ∧ (State.schedOne s e).pending = s.pending := by
  simp [State.schedOne, *]

@[simp] theorem State.sched_frame (s : State) (n : Nat) (span : Nat) (es : List SchedRec) :
    (State.sched s n span es).2.prs.pmem = s.prs.pmem ∧ (State.sched s n span es).2.pending = s.pending := by
  simp [State.sched, *]

@[simp] theorem State.cancel_frame (s : State) (n : Nat) (span : Nat) (t : Nat) :
    (State.cancel s n span t).2.prs.pmem = s.prs.pmem ∧ (State.cancel s n span t).2.pending = s.pending := by
  simp [State.cancel, *]

@[simp] theorem State.takeRec_frame (s : State) (r : Nat) (x2 : Rec) :
    (State.takeRec s r x2).2.prs.pmem = s.prs.pmem ∧ (State.takeRec s r x2).2.pending = s.pending := by
  simp [State.takeRec, *] <;> (repeat' (first | apply And.intro | intro _ | (simp [*]; done) | split | (rw [pm_foldl]) | (rw [pd_foldl]) | (rw [pm_foldl2]) | (rw [pd_foldl2])))

@[simp] theorem State.takeRecs_frame (s : State) (r : Nat) (trace : Bool) (fuel o k : Nat) (b : List Byte) :
    (State.takeRecs s r trace fuel o k b).2.2.2.prs.pmem = s.prs.pmem ∧ (State.takeRecs s r trace fuel o k b).2.2.2.pending = s.pending := by
  induction fuel generalizing s o k b with
  | zero => simp [State.takeRecs]
  | succ n ih =>
    unfold State.takeRecs
    repeat' (first | (simp [ih]; done) | split)

@[simp] theorem State.noteCut_frame (s : State) (r : Nat) (idx : Nat) (old : Ing) :
    (State.noteCut s r idx old).prs.pmem = s.prs.pmem ∧ (State.noteCut s r idx old).pending = s.pending := by
  simp [State.noteCut, *]

@[simp] theorem State.recordMissed_frame (s : State) :
    (State.recordMissed s).prs.pmem = s.prs.pmem ∧ (State.recordMissed s).pending = s.pending := by
  simp [State.recordMissed, *] <;> (repeat' (first | apply And.intro | intro _ | (simp [*]; done) | split | (rw [pm_foldl]) | (rw [pd_foldl]) | (rw [pm_foldl2]) | (rw [pd_foldl2])))

@[simp] theorem State.recBuf_frame (s : State) (r : Nat) (op : Nat) (d : Desc) (trace : Bool) :
    (State.recBuf s r op d trace).prs.pmem = s.prs.pmem ∧ (State.recBuf s r op d trace).pending = s.pending := by
  simp [State.recBuf, *]

@[simp] theorem State.lagChange_frame (s : State) (n : Nat) :
    (State.lagChange s n).prs.pmem = s.prs.pmem ∧ (State.lagChange s n).pending = s.pending := by
  simp [State.lagChange, *] <;> (repeat' (first | apply And.intro | intro _ | (simp [*]; done) | split | (rw [pm_foldl]) | (rw [pd_foldl]) | (rw [pm_foldl2]) | (rw [pd_foldl2])))

end Sys2Proof.Machine
end

