-- ==== Sys2Proof/Laws/FramePress.lean ====
section
/-!
SUPPORT. Frames of the Press, the formes and training: each function keeps the queue, and the memory of the Press where it stores nothing.
-/
namespace Sys2Proof.Machine
set_option linter.all false

@[simp] theorem State.runPut_frame (s : State) (r : Run) :
    (State.runPut s r).prs.pmem = s.prs.pmem ∧ (State.runPut s r).pending = s.pending := by
  simp [State.runPut, *]

@[simp] theorem State.sats_frame (s : State) (c : Ctx) (ks : Sats) (t : Nat) :
    (State.sats s c ks t).prs.pmem = s.prs.pmem ∧ (State.sats s c ks t).pending = s.pending := by
  simp [State.sats, *] <;> (repeat' (first | apply And.intro | intro _ | (simp [*]; done) | split | (rw [pm_foldl]) | (rw [pd_foldl]) | (rw [pm_foldl2]) | (rw [pd_foldl2])))

@[simp] theorem State.slotMod_frame (s : State) (i : Nat) (f : Slot → Slot) :
    (State.slotMod s i f).prs.pmem = s.prs.pmem ∧ (State.slotMod s i f).pending = s.pending := by
  simp [State.slotMod, *]

@[simp] theorem State.galMod_frame (s : State) (f : Gal → Gal) :
    (State.galMod s f).prs.pmem = s.prs.pmem ∧ (State.galMod s f).pending = s.pending := by
  simp [State.galMod, *]

@[simp] theorem State.planDrop_frame (s : State) (basis : Nat) (reason : Nat) (status : Nat) :
    (State.planDrop s basis reason status).prs.pmem = s.prs.pmem ∧ (State.planDrop s basis reason status).pending = s.pending := by
  simp [State.planDrop, *]

@[simp] theorem State.discardTb_frame (s : State) (t : Nat) :
    (State.discardTb s t).prs.pmem = s.prs.pmem ∧ (State.discardTb s t).pending = s.pending := by
  simp [State.discardTb, *] <;> (repeat' (first | apply And.intro | intro _ | (simp [*]; done) | split | (rw [pm_foldl]) | (rw [pd_foldl]) | (rw [pm_foldl2]) | (rw [pd_foldl2])))

@[simp] theorem State.dramBlocked_frame (s : State) (c : Ctx) :
    (State.dramBlocked s c).prs.pmem = s.prs.pmem ∧ (State.dramBlocked s c).pending = s.pending := by
  simp [State.dramBlocked, *]

@[simp] theorem State.guarded_frame (s : State) (c : Ctx) (x : Tensor) (a : Nat) (n : Nat) (f : State → Nat → State) (hf : ∀ y0 y1, (f y0 y1).pending = y0.pending) :
    (State.guarded s c x a n f).pending = s.pending := by
  simp [State.guarded, *]

@[simp] theorem State.rowPut_frame (s : State) (c : Ctx) (x : Tensor) (i : Inst) (r : Nat) (chans : Nat) (c0 : Nat) (vs : List Int) (row : Nat) :
    (State.rowPut s c x i r chans c0 vs row).pending = s.pending := by
  simp [State.rowPut, *]

@[simp] theorem State.putRowAt_frame (s : State) (c : Ctx) (x : Tensor) (i : Inst) (r : Nat) (chans : Nat) (c0 : Nat) (vs : List Int) :
    (State.putRowAt s c x i r chans c0 vs).pending = s.pending := by
  simp [State.putRowAt, *] <;> (repeat' (first | apply And.intro | intro _ | (simp [*]; done) | split | (rw [pm_foldl]) | (rw [pd_foldl]) | (rw [pm_foldl2]) | (rw [pd_foldl2])))

@[simp] theorem State.putRow_frame (s : State) (c : Ctx) (x : Tensor) (i : Inst) (r : Nat) (chans : Nat) (vs : List Int) :
    (State.putRow s c x i r chans vs).pending = s.pending := by
  simp [State.putRow, *]

@[simp] theorem State.elems_frame (s : State) (c : Ctx) (d : Tensor) (op : State → Inst → Nat → Nat → W Int) :
    (State.elems s c d op).pending = s.pending := by
  simp [State.elems, *] <;> (repeat' (first | apply And.intro | intro _ | (simp [*]; done) | split | (rw [pm_foldl]) | (rw [pd_foldl]) | (rw [pm_foldl2]) | (rw [pd_foldl2])))

@[simp] theorem State.countZero_frame (s : State) (c : Ctx) (pt : Nat) :
    (State.countZero s c pt).prs.pmem = s.prs.pmem ∧ (State.countZero s c pt).pending = s.pending := by
  simp [State.countZero, *]

@[simp] theorem State.tagRecord_frame (s : State) (c : Ctx) (pt : Nat) (no : Nat) (cyc : Nat) :
    (State.tagRecord s c pt no cyc).prs.pmem = s.prs.pmem ∧ (State.tagRecord s c pt no cyc).pending = s.pending := by
  simp [State.tagRecord, *]

@[simp] theorem State.tagSort_frame (s : State) (c : Ctx) (pt : Nat) (cyc : Nat) :
    (State.tagSort s c pt cyc).prs.pmem = s.prs.pmem ∧ (State.tagSort s c pt cyc).pending = s.pending := by
  simp [State.tagSort, *]

@[simp] theorem State.charge_frame (s : State) (c : Ctx) (t : Nat) (cyc : Nat) :
    (State.charge s c t cyc).prs.pmem = s.prs.pmem ∧ (State.charge s c t cyc).pending = s.pending := by
  simp [State.charge, *]

@[simp] theorem State.noteMove_frame (s : State) (rows : List (List Nat × Nat × Nat)) (eff : State → State) (heff : ∀ y0, (eff y0).pending = y0.pending) :
    (State.noteMove s rows eff).pending = s.pending := by
  simp [State.noteMove, *]

@[simp] theorem State.advance_frame (s : State) (slot : Nat) (t : Nat) (pc : Nat) :
    (State.advance s slot t pc).prs.pmem = s.prs.pmem ∧ (State.advance s slot t pc).pending = s.pending := by
  simp [State.advance, *]

@[simp] theorem State.issue_frame (s : State) (t : Nat) (op : Nat) (cyc : Nat) (eff : State → Ctx → State) (h4 : ∀ y0 y1, (eff y0 y1).prs.pmem = y0.prs.pmem ∧ (eff y0 y1).pending = y0.pending) :
    (State.issue s t op cyc eff).prs.pmem = s.prs.pmem ∧ (State.issue s t op cyc eff).pending = s.pending := by
  simp [State.issue, *] <;> (repeat' (first | apply And.intro | intro _ | (simp [*]; done) | split | (rw [pm_foldl]) | (rw [pd_foldl]) | (rw [pm_foldl2]) | (rw [pd_foldl2])))

@[simp] theorem State.issueV_frame (s : State) (t : Nat) (op : Nat) (cyc : Nat) (eff : State → Ctx → State) (h4 : ∀ y0 y1, (eff y0 y1).prs.pmem = y0.prs.pmem ∧ (eff y0 y1).pending = y0.pending) :
    (State.issueV s t op cyc eff).prs.pmem = s.prs.pmem ∧ (State.issueV s t op cyc eff).pending = s.pending := by
  simp [State.issueV, *] <;> (repeat' (first | apply And.intro | intro _ | (simp [*]; done) | split | (rw [pm_foldl]) | (rw [pd_foldl]) | (rw [pm_foldl2]) | (rw [pd_foldl2])))

@[simp] theorem State.sortEnd_frame (s : State) (t : Nat) (cyc : Nat) :
    (State.sortEnd s t cyc).prs.pmem = s.prs.pmem ∧ (State.sortEnd s t cyc).pending = s.pending := by
  simp [State.sortEnd, *] <;> (repeat' (first | apply And.intro | intro _ | (simp [*]; done) | split | (rw [pm_foldl]) | (rw [pd_foldl]) | (rw [pm_foldl2]) | (rw [pd_foldl2])))

@[simp] theorem State.sortBar_frame (s : State) (t : Nat) (cyc : Nat) :
    (State.sortBar s t cyc).prs.pmem = s.prs.pmem ∧ (State.sortBar s t cyc).pending = s.pending := by
  simp [State.sortBar, *] <;> (repeat' (first | apply And.intro | intro _ | (simp [*]; done) | split | (rw [pm_foldl]) | (rw [pd_foldl]) | (rw [pm_foldl2]) | (rw [pd_foldl2])))

@[simp] theorem State.sortLoop_frame (s : State) (t : Nat) (cyc : Nat) :
    (State.sortLoop s t cyc).prs.pmem = s.prs.pmem ∧ (State.sortLoop s t cyc).pending = s.pending := by
  simp [State.sortLoop, *] <;> (repeat' (first | apply And.intro | intro _ | (simp [*]; done) | split | (rw [pm_foldl]) | (rw [pd_foldl]) | (rw [pm_foldl2]) | (rw [pd_foldl2])))

@[simp] theorem State.copyRow_frame (s : State) (d : Tensor) (x : Tensor) (dst : Nat) (src : Nat) (n : Nat) :
    (State.copyRow s d x dst src n).pending = s.pending := by
  simp [State.copyRow, *]

@[simp] theorem State.loadBlock_frame (s : State) (c : Ctx) (d x : Tensor) (r src : Nat) (i : Inst) (leaf b : Nat) :
    (State.loadBlock s c d x r src i leaf b).pending = s.pending := by
  simp [State.loadBlock]

@[simp] theorem State.loadWeights_frame (s : State) (c : Ctx) (d : Tensor) (x : Tensor) (r : Nat) (src : Nat) :
    (State.loadWeights s c d x r src).pending = s.pending := by
  simp [State.loadWeights, *]

@[simp] theorem State.sortLoad_frame (s : State) (c : Ctx) :
    (State.sortLoad s c).pending = s.pending := by
  simp [State.sortLoad, *] <;> (repeat' (first | apply And.intro | intro _ | (simp [*]; done) | split | (rw [pm_foldl]) | (rw [pd_foldl]) | (rw [pm_foldl2]) | (rw [pd_foldl2])))

@[simp] theorem State.sortStore_frame (s : State) (c : Ctx) :
    (State.sortStore s c).pending = s.pending := by
  simp [State.sortStore, *] <;> (repeat' (first | apply And.intro | intro _ | (simp [*]; done) | split | (rw [pm_foldl]) | (rw [pd_foldl]) | (rw [pm_foldl2]) | (rw [pd_foldl2])))

@[simp] theorem State.sortCopy_frame (s : State) (c : Ctx) :
    (State.sortCopy s c).pending = s.pending := by
  simp [State.sortCopy, *] <;> (repeat' (first | apply And.intro | intro _ | (simp [*]; done) | split | (refine State.noteMove_frame _ _ _ ?_) | (rw [pm_foldl]) | (rw [pd_foldl]) | (rw [pm_foldl2]) | (rw [pd_foldl2])))

@[simp] theorem State.maskRow_frame (s : State) (m : Tensor) (a : Nat) (vs : List Nat) :
    (State.maskRow s m a vs).pending = s.pending := by
  simp [State.maskRow, *]

@[simp] theorem State.sortInput_frame (s : State) (c : Ctx) :
    (State.sortInput s c).pending = s.pending := by
  simp [State.sortInput, *] <;> (repeat' (first | apply And.intro | intro _ | (simp [*]; done) | split | (rw [pm_foldl]) | (rw [pd_foldl]) | (rw [pm_foldl2]) | (rw [pd_foldl2])))

@[simp] theorem State.sortEmit_frame (s : State) (c : Ctx) :
    (State.sortEmit s c).prs.pmem = s.prs.pmem ∧ (State.sortEmit s c).pending = s.pending := by
  simp [State.sortEmit, *] <;> (repeat' (first | apply And.intro | intro _ | (simp [*]; done) | split | (rw [pm_foldl]) | (rw [pd_foldl]) | (rw [pm_foldl2]) | (rw [pd_foldl2])))

@[simp] theorem State.sortMmul_frame (s : State) (c : Ctx) :
    (State.sortMmul s c).pending = s.pending := by
  simp [State.sortMmul, *] <;> (repeat' (first | apply And.intro | intro _ | (simp [*]; done) | split | (refine State.noteMove_frame _ _ _ ?_) | (rw [pm_foldl]) | (rw [pd_foldl]) | (rw [pm_foldl2]) | (rw [pd_foldl2])))

@[simp] theorem State.sortGouter_frame (s : State) (c : Ctx) :
    (State.sortGouter s c).pending = s.pending := by
  simp [State.sortGouter, *] <;> (repeat' (first | apply And.intro | intro _ | (simp [*]; done) | split | (refine State.noteMove_frame _ _ _ ?_) | (rw [pm_foldl]) | (rw [pd_foldl]) | (rw [pm_foldl2]) | (rw [pd_foldl2])))

@[simp] theorem State.sortElem_frame (op : Int → Int → Int → W Int) (s : State) (c : Ctx) :
    (State.sortElem op s c).pending = s.pending := by
  simp [State.sortElem, *] <;> (repeat' (first | apply And.intro | intro _ | (simp [*]; done) | split | (rw [pm_foldl]) | (rw [pd_foldl]) | (rw [pm_foldl2]) | (rw [pd_foldl2])))

@[simp] theorem State.sortUnary_frame (op : Ctx → Int → W Int) (s : State) (c : Ctx) :
    (State.sortUnary op s c).pending = s.pending := by
  simp [State.sortUnary, *] <;> (repeat' (first | apply And.intro | intro _ | (simp [*]; done) | split | (rw [pm_foldl]) | (rw [pd_foldl]) | (rw [pm_foldl2]) | (rw [pd_foldl2])))

@[simp] theorem State.sortClamp_frame (s : State) (c : Ctx) :
    (State.sortClamp s c).pending = s.pending := by
  simp [State.sortClamp, *] <;> (repeat' (first | apply And.intro | intro _ | (simp [*]; done) | split | (rw [pm_foldl]) | (rw [pd_foldl]) | (rw [pm_foldl2]) | (rw [pd_foldl2])))

@[simp] theorem State.sortRescale_frame (s : State) (c : Ctx) :
    (State.sortRescale s c).pending = s.pending := by
  simp [State.sortRescale, *] <;> (repeat' (first | apply And.intro | intro _ | (simp [*]; done) | split | (rw [pm_foldl]) | (rw [pd_foldl]) | (rw [pm_foldl2]) | (rw [pd_foldl2])))

@[simp] theorem State.sortReduce_frame (op : List (Int × Inst) → W Int) (s : State) (c : Ctx) :
    (State.sortReduce op s c).pending = s.pending := by
  simp [State.sortReduce, *] <;> (repeat' (first | apply And.intro | intro _ | (simp [*]; done) | split | (refine State.noteMove_frame _ _ _ ?_) | (rw [pm_foldl]) | (rw [pd_foldl]) | (rw [pm_foldl2]) | (rw [pd_foldl2])))

@[simp] theorem State.sortLut_frame (s : State) (c : Ctx) :
    (State.sortLut s c).pending = s.pending := by
  simp [State.sortLut, *] <;> (repeat' (first | apply And.intro | intro _ | (simp [*]; done) | split | (rw [pm_foldl]) | (rw [pd_foldl]) | (rw [pm_foldl2]) | (rw [pd_foldl2])))

@[simp] theorem State.sortScan_frame (s : State) (c : Ctx) :
    (State.sortScan s c).pending = s.pending := by
  simp [State.sortScan, *] <;> (repeat' (first | apply And.intro | intro _ | (simp [*]; done) | split | (rw [pm_foldl]) | (rw [pd_foldl]) | (rw [pm_foldl2]) | (rw [pd_foldl2])))

@[simp] theorem State.sortAttn_frame (s : State) (c : Ctx) :
    (State.sortAttn s c).pending = s.pending := by
  simp [State.sortAttn, *] <;> (repeat' (first | apply And.intro | intro _ | (simp [*]; done) | split | (rw [pm_foldl]) | (rw [pd_foldl]) | (rw [pm_foldl2]) | (rw [pd_foldl2])))

@[simp] theorem State.sortGapply_frame (s : State) (c : Ctx) :
    (State.sortGapply s c).pending = s.pending := by
  simp [State.sortGapply, *] <;> (repeat' (first | apply And.intro | intro _ | (simp [*]; done) | split | (rw [pm_foldl]) | (rw [pd_foldl]) | (rw [pm_foldl2]) | (rw [pd_foldl2])))

@[simp] theorem State.loadLeaves_frame (s : State) (v : Nat) :
    (State.loadLeaves s v).prs.pmem = s.prs.pmem ∧ (State.loadLeaves s v).pending = s.pending := by
  simp [State.loadLeaves, *] <;> (repeat' (first | apply And.intro | intro _ | (simp [*]; done) | split | (rw [pm_foldl]) | (rw [pd_foldl]) | (rw [pm_foldl2]) | (rw [pd_foldl2])))

@[simp] theorem State.countProof_frame (s : State) (r : Run) :
    (State.countProof s r).prs.pmem = s.prs.pmem ∧ (State.countProof s r).pending = s.pending := by
  simp [State.countProof, *]

@[simp] theorem State.runDone_frame (s : State) (r : Run) :
    (State.runDone s r).prs.pmem = s.prs.pmem ∧ (State.runDone s r).pending = s.pending := by
  simp [State.runDone, *]

@[simp] theorem State.abandon_frame (s : State) (slot : Nat) (cause : Nat) :
    (State.abandon s slot cause).prs.pmem = s.prs.pmem ∧ (State.abandon s slot cause).pending = s.pending := by
  simp [State.abandon, *] <;> (repeat' (first | apply And.intro | intro _ | (simp [*]; done) | split | (rw [pm_foldl]) | (rw [pd_foldl]) | (rw [pm_foldl2]) | (rw [pd_foldl2])))

@[simp] theorem State.beginRun_frame (s : State) (slot : Nat) (cycle : Nat) (step : Nat) (ing : Inputs) (cmd : Option (Nat × Desc)) :
    (State.beginRun s slot cycle step ing cmd).prs.pmem = s.prs.pmem ∧ (State.beginRun s slot cycle step ing cmd).pending = s.pending := by
  simp [State.beginRun, *] <;> (repeat' (first | apply And.intro | intro _ | (simp [*]; done) | split | (rw [pm_foldl]) | (rw [pd_foldl]) | (rw [pm_foldl2]) | (rw [pd_foldl2])))

@[simp] theorem State.emitDrop_frame (s : State) :
    (State.emitDrop s).prs.pmem = s.prs.pmem ∧ (State.emitDrop s).pending = s.pending := by
  simp [State.emitDrop, *] <;> (repeat' (first | apply And.intro | intro _ | (simp [*]; done) | split | (rw [pm_foldl]) | (rw [pd_foldl]) | (rw [pm_foldl2]) | (rw [pd_foldl2])))

@[simp] theorem State.moveDrop_frame (s : State) (t : Nat) :
    (State.moveDrop s t).pending = s.pending := by
  simp [State.moveDrop, *] <;> (repeat' (first | apply And.intro | intro _ | (simp [*]; done) | split | (rw [pm_foldl]) | (rw [pd_foldl]) | (rw [pm_foldl2]) | (rw [pd_foldl2])))

@[simp] theorem State.entryMod_frame (s : State) (i : Nat) (f : Entry → Entry) :
    (State.entryMod s i f).prs.pmem = s.prs.pmem ∧ (State.entryMod s i f).pending = s.pending := by
  simp [State.entryMod, *]

@[simp] theorem State.forecast_frame (s : State) (e : Entry) (confirmed : Bool) :
    (State.forecast s e confirmed).prs.pmem = s.prs.pmem ∧ (State.forecast s e confirmed).pending = s.pending := by
  simp [State.forecast, *]

@[simp] theorem State.verdictOut_frame (s : State) (e : Entry) :
    (State.verdictOut s e).prs.pmem = s.prs.pmem ∧ (State.verdictOut s e).pending = s.pending := by
  simp [State.verdictOut, *]

@[simp] theorem State.trnMod_frame (s : State) (f : Trn → Trn) :
    (State.trnMod s f).prs.pmem = s.prs.pmem ∧ (State.trnMod s f).pending = s.pending := by
  simp [State.trnMod, *]

@[simp] theorem State.captureOff_frame (s : State) :
    (State.captureOff s).prs.pmem = s.prs.pmem ∧ (State.captureOff s).pending = s.pending := by
  simp [State.captureOff, *]

@[simp] theorem State.setBlind_frame (s : State) (c : Nat) :
    (State.setBlind s c).prs.pmem = s.prs.pmem ∧ (State.setBlind s c).pending = s.pending := by
  simp [State.setBlind, *]

@[simp] theorem State.blindTick_frame (s : State) (cycleStart : Bool) :
    (State.blindTick s cycleStart).prs.pmem = s.prs.pmem ∧ (State.blindTick s cycleStart).pending = s.pending := by
  simp [State.blindTick, *]

@[simp] theorem State.openEntry_frame (s : State) (k : Nat) :
    (State.openEntry s k).prs.pmem = s.prs.pmem ∧ (State.openEntry s k).pending = s.pending := by
  simp [State.openEntry, *]

@[simp] theorem State.basisIs_frame (s : State) (cyc : Nat) (code : Nat) :
    (State.basisIs s cyc code).prs.pmem = s.prs.pmem ∧ (State.basisIs s cyc code).pending = s.pending := by
  simp [State.basisIs, *] <;> (repeat' (first | apply And.intro | intro _ | (simp [*]; done) | split | (rw [pm_foldl]) | (rw [pd_foldl]) | (rw [pm_foldl2]) | (rw [pd_foldl2])))

@[simp] theorem State.noProof_frame (s : State) (k : Nat) :
    (State.noProof s k).prs.pmem = s.prs.pmem ∧ (State.noProof s k).pending = s.pending := by
  simp [State.noProof, *]

@[simp] theorem State.startTick_frame (s : State) :
    (State.startTick s).prs.pmem = s.prs.pmem ∧ (State.startTick s).pending = s.pending := by
  simp [State.startTick, *]

@[simp] theorem State.firstOf_frame (s : State) (f : Glb → Glb) :
    (State.firstOf s f).prs.pmem = s.prs.pmem ∧ (State.firstOf s f).pending = s.pending := by
  simp [State.firstOf, *]

@[simp] theorem State.galleyClose_frame (s : State) :
    (State.galleyClose s).prs.pmem = s.prs.pmem ∧ (State.galleyClose s).pending = s.pending := by
  simp [State.galleyClose, *]

@[simp] theorem State.proofMissed_frame (s : State) :
    (State.proofMissed s).prs.pmem = s.prs.pmem ∧ (State.proofMissed s).pending = s.pending := by
  simp [State.proofMissed, *] <;> (repeat' (first | apply And.intro | intro _ | (simp [*]; done) | split | (rw [pm_foldl]) | (rw [pd_foldl]) | (rw [pm_foldl2]) | (rw [pd_foldl2])))

@[simp] theorem State.confirmSample_frame (s : State) (t : Nat) (i : Option Int) :
    (State.confirmSample s t i).prs.pmem = s.prs.pmem ∧ (State.confirmSample s t i).pending = s.pending := by
  simp [State.confirmSample, *]

@[simp] theorem State.takeVerdicts_frame (s : State) (next : Nat) :
    (State.takeVerdicts s next).prs.pmem = s.prs.pmem ∧ (State.takeVerdicts s next).pending = s.pending := by
  simp [State.takeVerdicts, *]

@[simp] theorem State.applyVerdict_frame (s : State) (j : Nat) :
    (State.applyVerdict s j).prs.pmem = s.prs.pmem ∧ (State.applyVerdict s j).pending = s.pending := by
  simp [State.applyVerdict, *] <;> (repeat' (first | apply And.intro | intro _ | (simp [*]; done) | split | (rw [pm_foldl]) | (rw [pd_foldl]) | (rw [pm_foldl2]) | (rw [pd_foldl2])))

@[simp] theorem State.staleEntries_frame (s : State) :
    (State.staleEntries s).prs.pmem = s.prs.pmem ∧ (State.staleEntries s).pending = s.pending := by
  simp [State.staleEntries, *]

@[simp] theorem State.govern_frame (s : State) :
    (State.govern s).prs.pmem = s.prs.pmem ∧ (State.govern s).pending = s.pending := by
  simp [State.govern, *]

@[simp] theorem State.planOne_frame (s : State) (p : Plan) :
    (State.planOne s p).prs.pmem = s.prs.pmem ∧ (State.planOne s p).pending = s.pending := by
  simp [State.planOne, *] <;> (repeat' (first | apply And.intro | intro _ | (simp [*]; done) | split | (rw [pm_foldl]) | (rw [pd_foldl]) | (rw [pm_foldl2]) | (rw [pd_foldl2])))

@[simp] theorem State.planTake_frame (s : State) :
    (State.planTake s).prs.pmem = s.prs.pmem ∧ (State.planTake s).pending = s.pending := by
  simp [State.planTake, *] <;> (repeat' (first | apply And.intro | intro _ | (simp [*]; done) | split | (rw [pm_foldl]) | (rw [pd_foldl]) | (rw [pm_foldl2]) | (rw [pd_foldl2])))

@[simp] theorem State.planAge_frame (s : State) :
    (State.planAge s).prs.pmem = s.prs.pmem ∧ (State.planAge s).pending = s.pending := by
  simp [State.planAge, *] <;> (repeat' (first | apply And.intro | intro _ | (simp [*]; done) | split | (rw [pm_foldl]) | (rw [pd_foldl]) | (rw [pm_foldl2]) | (rw [pd_foldl2])))

@[simp] theorem State.references_frame (s : State) :
    (State.references s).prs.pmem = s.prs.pmem ∧ (State.references s).pending = s.pending := by
  simp [State.references, *]

@[simp] theorem State.withdrawals_frame (s : State) :
    (State.withdrawals s).prs.pmem = s.prs.pmem ∧ (State.withdrawals s).pending = s.pending := by
  simp [State.withdrawals, *]

@[simp] theorem State.captureTick_frame (s : State) :
    (State.captureTick s).prs.pmem = s.prs.pmem ∧ (State.captureTick s).pending = s.pending := by
  simp [State.captureTick, *]

@[simp] theorem State.galleyTick_frame (s : State) (press : Bool) :
    (State.galleyTick s press).prs.pmem = s.prs.pmem ∧ (State.galleyTick s press).pending = s.pending := by
  simp [State.galleyTick, *]

@[simp] theorem State.takeVariant_frame (s : State) (i : Nat) (v : Option Nat) :
    (State.takeVariant s i v).prs.pmem = s.prs.pmem ∧ (State.takeVariant s i v).pending = s.pending := by
  simp [State.takeVariant, *] <;> (repeat' (first | apply And.intro | intro _ | (simp [*]; done) | split | (rw [pm_foldl]) | (rw [pd_foldl]) | (rw [pm_foldl2]) | (rw [pd_foldl2])))

@[simp] theorem State.reselectOne_frame (s : State) (i : Nat) :
    (State.reselectOne s i).prs.pmem = s.prs.pmem ∧ (State.reselectOne s i).pending = s.pending := by
  simp [State.reselectOne, *] <;> (repeat' (first | apply And.intro | intro _ | (simp [*]; done) | split | (rw [pm_foldl]) | (rw [pd_foldl]) | (rw [pm_foldl2]) | (rw [pd_foldl2])))

@[simp] theorem State.reselect_frame (s : State) :
    (State.reselect s).prs.pmem = s.prs.pmem ∧ (State.reselect s).pending = s.pending := by
  simp [State.reselect, *]

@[simp] theorem State.variantReady_frame (s : State) (i : Nat) :
    (State.variantReady s i).prs.pmem = s.prs.pmem ∧ (State.variantReady s i).pending = s.pending := by
  simp [State.variantReady, *] <;> (repeat' (first | apply And.intro | intro _ | (simp [*]; done) | split | (rw [pm_foldl]) | (rw [pd_foldl]) | (rw [pm_foldl2]) | (rw [pd_foldl2])))

@[simp] theorem State.scrubStop_frame (s : State) :
    (State.scrubStop s).prs.pmem = s.prs.pmem ∧ (State.scrubStop s).pending = s.pending := by
  simp [State.scrubStop, *]

@[simp] theorem State.putService_frame (s : State) (cfg : Nat) (ts : List Nat) :
    (State.putService s cfg ts).prs.pmem = s.prs.pmem ∧ (State.putService s cfg ts).pending = s.pending := by
  simp [State.putService, *]

@[simp] theorem State.emptyHalves_frame (s : State) :
    (State.emptyHalves s).prs.pmem = s.prs.pmem ∧ (State.emptyHalves s).pending = s.pending := by
  simp [State.emptyHalves, *]

@[simp] theorem State.serviceChanged_frame (s : State) (old : Nat) (lost all : Bool) :
    (State.serviceChanged s old lost all).prs.pmem = s.prs.pmem ∧ (State.serviceChanged s old lost all).pending = s.pending := by
  simp [State.serviceChanged, *]

@[simp] theorem State.pressOut_frame (s : State) :
    (State.pressOut s).prs.pmem = s.prs.pmem ∧ (State.pressOut s).pending = s.pending := by
  simp [State.pressOut, *]

@[simp] theorem State.repairEnd_frame (s : State) (out : Nat) (us : Nat) :
    (State.repairEnd s out us).prs.pmem = s.prs.pmem ∧ (State.repairEnd s out us).pending = s.pending := by
  simp [State.repairEnd, *] <;> (repeat' (first | apply And.intro | intro _ | (simp [*]; done) | split | (rw [pm_foldl]) | (rw [pd_foldl]) | (rw [pm_foldl2]) | (rw [pd_foldl2])))

@[simp] theorem State.hierSelf_frame (s : State) (why : Nat) (ts : List Nat) :
    (State.hierSelf s why ts).prs.pmem = s.prs.pmem ∧ (State.hierSelf s why ts).pending = s.pending := by
  simp [State.hierSelf, *]

@[simp] theorem State.replaceIdle_frame (s : State) (u : Nat) :
    (State.replaceIdle s u).prs.pmem = s.prs.pmem ∧ (State.replaceIdle s u).pending = s.pending := by
  simp [State.replaceIdle, *] <;> (repeat' (first | apply And.intro | intro _ | (simp [*]; done) | split | (rw [pm_foldl]) | (rw [pd_foldl]) | (rw [pm_foldl2]) | (rw [pd_foldl2])))

@[simp] theorem State.replaceLater_frame (s : State) (u : Nat) :
    (State.replaceLater s u).prs.pmem = s.prs.pmem ∧ (State.replaceLater s u).pending = s.pending := by
  simp [State.replaceLater, *]

@[simp] theorem State.serviceBack_frame (s : State) (h : HierChg) :
    (State.serviceBack s h).prs.pmem = s.prs.pmem ∧ (State.serviceBack s h).pending = s.pending := by
  simp [State.serviceBack, *] <;> (repeat' (first | apply And.intro | intro _ | (simp [*]; done) | split | (rw [pm_foldl]) | (rw [pd_foldl]) | (rw [pm_foldl2]) | (rw [pd_foldl2])))

@[simp] theorem State.hierRollback_frame (s : State) (reason : Nat) :
    (State.hierRollback s reason).prs.pmem = s.prs.pmem ∧ (State.hierRollback s reason).pending = s.pending := by
  simp [State.hierRollback, *] <;> (repeat' (first | apply And.intro | intro _ | (simp [*]; done) | split | (rw [pm_foldl]) | (rw [pd_foldl]) | (rw [pm_foldl2]) | (rw [pd_foldl2])))

@[simp] theorem State.pressHit_frame (s : State) (t : Nat) :
    (State.pressHit s t).prs.pmem = s.prs.pmem ∧ (State.pressHit s t).pending = s.pending := by
  simp [State.pressHit, *] <;> (repeat' (first | apply And.intro | intro _ | (simp [*]; done) | split | (rw [pm_foldl]) | (rw [pd_foldl]) | (rw [pm_foldl2]) | (rw [pd_foldl2])))

@[simp] theorem State.tbFail_frame (s : State) (t : Nat) (inj : Bool) (note : Bool) :
    (State.tbFail s t inj note).prs.pmem = s.prs.pmem ∧ (State.tbFail s t inj note).pending = s.pending := by
  simp [State.tbFail, *] <;> (repeat' (first | apply And.intro | intro _ | (simp [*]; done) | split | (rw [pm_foldl]) | (rw [pd_foldl]) | (rw [pm_foldl2]) | (rw [pd_foldl2])))

@[simp] theorem State.quireFail_frame (s : State) (t : Nat) (q : Nat) (inj : Bool) (note : Bool) :
    (State.quireFail s t q inj note).prs.pmem = s.prs.pmem ∧ (State.quireFail s t q inj note).pending = s.pending := by
  simp [State.quireFail, *]

@[simp] theorem State.onlyCandidate_frame (s : State) (p : Repair → Bool) :
    (State.onlyCandidate s p).prs.pmem = s.prs.pmem ∧ (State.onlyCandidate s p).pending = s.pending := by
  simp [State.onlyCandidate, *] <;> (repeat' (first | apply And.intro | intro _ | (simp [*]; done) | split | (rw [pm_foldl]) | (rw [pd_foldl]) | (rw [pm_foldl2]) | (rw [pd_foldl2])))

@[simp] theorem State.reloadUnit_frame (s : State) (kind : Nat) (u : Nat) :
    (State.reloadUnit s kind u).prs.pmem = s.prs.pmem ∧ (State.reloadUnit s kind u).pending = s.pending := by
  simp [State.reloadUnit, *]

@[simp] theorem State.spareAssign_frame (s : State) (kind : Nat) (u : Nat) (w : Nat) :
    (State.spareAssign s kind u w).prs.pmem = s.prs.pmem ∧ (State.spareAssign s kind u w).pending = s.pending := by
  simp [State.spareAssign, *]

@[simp] theorem State.sparesEnter_frame (s : State) :
    (State.sparesEnter s).prs.pmem = s.prs.pmem ∧ (State.sparesEnter s).pending = s.pending := by
  simp [State.sparesEnter, *]

@[simp] theorem State.folioFail_frame (s : State) (u : Nat) (inj : Bool) (note : Bool) :
    (State.folioFail s u inj note).prs.pmem = s.prs.pmem ∧ (State.folioFail s u inj note).pending = s.pending := by
  simp [State.folioFail, *] <;> (repeat' (first | apply And.intro | intro _ | (simp [*]; done) | split | (rw [pm_foldl]) | (rw [pd_foldl]) | (rw [pm_foldl2]) | (rw [pd_foldl2])))

@[simp] theorem State.leafFail_frame (s : State) (u : Nat) (inj : Bool) :
    (State.leafFail s u inj).prs.pmem = s.prs.pmem ∧ (State.leafFail s u inj).pending = s.pending := by
  simp [State.leafFail, *] <;> (repeat' (first | apply And.intro | intro _ | (simp [*]; done) | split | (rw [pm_foldl]) | (rw [pd_foldl]) | (rw [pm_foldl2]) | (rw [pd_foldl2])))

@[simp] theorem State.laneFail_frame (s : State) (u : Nat) (inj : Bool) :
    (State.laneFail s u inj).prs.pmem = s.prs.pmem ∧ (State.laneFail s u inj).pending = s.pending := by
  simp [State.laneFail, *] <;> (repeat' (first | apply And.intro | intro _ | (simp [*]; done) | split | (rw [pm_foldl]) | (rw [pd_foldl]) | (rw [pm_foldl2]) | (rw [pd_foldl2])))

@[simp] theorem State.wearHit_frame (s : State) (kind : Nat) (k : Nat) (u : Nat) (win : Nat) (thr : Nat) :
    (State.wearHit s kind k u win thr).prs.pmem = s.prs.pmem ∧ (State.wearHit s kind k u win thr).pending = s.pending := by
  simp [State.wearHit, *]

@[simp] theorem State.retireUnit_frame (s : State) (kind u : Nat) :
    (State.retireUnit s kind u).prs.pmem = s.prs.pmem ∧ (State.retireUnit s kind u).pending = s.pending := by
  unfold State.retireUnit
  simp only
  split
  · split
    · exact ⟨rfl, rfl⟩
    · split <;> simp
  · exact ⟨rfl, rfl⟩

@[simp] theorem State.bankSpare_frame (s : State) (t : Nat) (bank : Nat) (off : Nat) :
    (State.bankSpare s t bank off).prs.pmem = s.prs.pmem ∧ (State.bankSpare s t bank off).pending = s.pending := by
  simp [State.bankSpare, *]

@[simp] theorem State.bankDue_frame (s : State) (t : Nat) (bank : Nat) (off : Nat) :
    (State.bankDue s t bank off).prs.pmem = s.prs.pmem ∧ (State.bankDue s t bank off).pending = s.pending := by
  simp [State.bankDue, *]

@[simp] theorem State.rowSpare_frame (s : State) (t : Nat) (bank : Nat) (off : Nat) :
    (State.rowSpare s t bank off).prs.pmem = s.prs.pmem ∧ (State.rowSpare s t bank off).pending = s.pending := by
  simp [State.rowSpare, *]

@[simp] theorem State.pressOrder_frame (s : State) (n : Nat) (unit : Nat) (inj : Bool) :
    (State.pressOrder s n unit inj).prs.pmem = s.prs.pmem ∧ (State.pressOrder s n unit inj).pending = s.pending := by
  simp [State.pressOrder, *] <;> (repeat' (first | apply And.intro | intro _ | (simp [*]; done) | split | (rw [pm_foldl]) | (rw [pd_foldl]) | (rw [pm_foldl2]) | (rw [pd_foldl2])))

@[simp] theorem State.settlePress_frame (s : State) :
    (State.settlePress s).prs.pmem = s.prs.pmem ∧ (State.settlePress s).pending = s.pending := by
  simp [State.settlePress, *]

@[simp] theorem State.refuseForme_frame (s : State) (i : Nat) (x : Refused) :
    (State.refuseForme s i x).s.prs.pmem = s.prs.pmem ∧ (State.refuseForme s i x).s.pending = s.pending := by
  simp [State.refuseForme, *]

@[simp] theorem State.unstage_frame (s : State) (n : Nat) :
    (State.unstage s n).prs.pmem = s.prs.pmem ∧ (State.unstage s n).pending = s.pending := by
  simp [State.unstage, *]

@[simp] theorem State.stagedOff_frame (s : State) (i : Nat) :
    (State.stagedOff s i).prs.pmem = s.prs.pmem ∧ (State.stagedOff s i).pending = s.pending := by
  simp [State.stagedOff, *] <;> (repeat' (first | apply And.intro | intro _ | (simp [*]; done) | split | (rw [pm_foldl]) | (rw [pd_foldl]) | (rw [pm_foldl2]) | (rw [pd_foldl2])))

@[simp] theorem State.trnResume_frame (s : State) :
    (State.trnResume s).prs.pmem = s.prs.pmem ∧ (State.trnResume s).pending = s.pending := by
  simp [State.trnResume, *]

@[simp] theorem State.copyArea_frame (s : State) (src so dst dof n : Nat) : (s.copyArea src so dst dof n).pending = s.pending := by
  unfold State.copyArea
  generalize s.tbs = l
  induction l generalizing s with
  | nil => rfl
  | cons t l ih => rw [List.foldl_cons, ih, State.pwrite_frame]

@[simp] theorem State.promoDone_frame (s : State) (p : Promo) (outcome : Nat) (steps : Nat) (failure : Nat) :
    (State.promoDone s p outcome steps failure).prs.pmem = s.prs.pmem ∧ (State.promoDone s p outcome steps failure).pending = s.pending := by
  simp [State.promoDone, *]

@[simp] theorem State.promoBack_frame (s : State) (outcome : Nat) (failure : Nat) :
    (State.promoBack s outcome failure).pending = s.pending := by
  simp [State.promoBack, *] <;> (repeat' (first | apply And.intro | intro _ | (simp [*]; done) | split | (rw [pm_foldl]) | (rw [pd_foldl]) | (rw [pm_foldl2]) | (rw [pd_foldl2])))

@[simp] theorem State.promoEnds_frame (s : State) (i : Nat) :
    (State.promoEnds s i).pending = s.pending := by
  simp [State.promoEnds, *] <;> (repeat' (first | apply And.intro | intro _ | (simp [*]; done) | split | (rw [pm_foldl]) | (rw [pd_foldl]) | (rw [pm_foldl2]) | (rw [pd_foldl2])))

@[simp] theorem State.storeModel_frame (s : State) :
    (State.storeModel s).prs.pmem = s.prs.pmem ∧ (State.storeModel s).pending = s.pending := by
  simp [State.storeModel, *]

theorem State.copyOne_pending (s : State) (t m : Nat) (l : List (Nat × List Byte)) :
    (l.foldl (fun s x => s.pwrite (dramAddr t (regionBase 2 + m + x.1)) x.2) s).pending = s.pending := by
  induction l generalizing s with
  | nil => rfl
  | cons x l ih => rw [List.foldl_cons, ih, State.pwrite_frame]

@[simp] theorem State.copyData_frame (s : State) (f : Forme) : (s.copyData f).pending = s.pending := by
  unfold State.copyData
  generalize s.tbs = l
  induction l generalizing s with
  | nil => rfl
  | cons t l ih => rw [List.foldl_cons, ih, State.copyOne_pending]

@[simp] theorem State.formeTakes_frame (s : State) (i : Nat) (f : Forme) (c : Staged) (v : Nat) :
    (State.formeTakes s i f c v).pending = s.pending := by
  simp [State.formeTakes, *]

@[simp] theorem State.formeImpose_frame (s : State) (i : Nat) (copied : Bool) (pick : Forme → Option Nat) :
    (State.formeImpose s i copied pick).pending = s.pending := by
  simp [State.formeImpose, *] <;> (repeat' (first | apply And.intro | intro _ | (simp [*]; done) | split | (rw [pm_foldl]) | (rw [pd_foldl]) | (rw [pm_foldl2]) | (rw [pd_foldl2])))

@[simp] theorem State.variantsEnter_frame (s : State) :
    (State.variantsEnter s).prs.pmem = s.prs.pmem ∧ (State.variantsEnter s).pending = s.pending := by
  simp [State.variantsEnter, *]

@[simp] theorem State.imposeUnload_frame (s : State) (i : Nat) (n : Nat) :
    (State.imposeUnload s i n).pending = s.pending := by
  simp [State.imposeUnload, *] <;> (repeat' (first | apply And.intro | intro _ | (simp [*]; done) | split | (rw [pm_foldl]) | (rw [pd_foldl]) | (rw [pm_foldl2]) | (rw [pd_foldl2])))

@[simp] theorem State.imposeEnable_frame (s : State) (i : Nat) (n : Nat) (en : Bool) :
    (State.imposeEnable s i n en).prs.pmem = s.prs.pmem ∧ (State.imposeEnable s i n en).pending = s.pending := by
  simp [State.imposeEnable, *]

@[simp] theorem State.stopRun_frame (s : State) (slot : Nat) (cause : Nat) :
    (State.stopRun s slot cause).prs.pmem = s.prs.pmem ∧ (State.stopRun s slot cause).pending = s.pending := by
  simp [State.stopRun, *] <;> (repeat' (first | apply And.intro | intro _ | (simp [*]; done) | split | (rw [pm_foldl]) | (rw [pd_foldl]) | (rw [pm_foldl2]) | (rw [pd_foldl2])))

@[simp] theorem State.planStatus_frame (s : State) (cycle : Nat) (status : Nat) :
    (State.planStatus s cycle status).prs.pmem = s.prs.pmem ∧ (State.planStatus s cycle status).pending = s.pending := by
  simp [State.planStatus, *]

@[simp] theorem State.planEnd_frame (s : State) (r : Run) :
    (State.planEnd s r).prs.pmem = s.prs.pmem ∧ (State.planEnd s r).pending = s.pending := by
  simp [State.planEnd, *] <;> (repeat' (first | apply And.intro | intro _ | (simp [*]; done) | split | (rw [pm_foldl]) | (rw [pd_foldl]) | (rw [pm_foldl2]) | (rw [pd_foldl2])))

@[simp] theorem State.runEnd_frame (s : State) (r : Run) :
    (State.runEnd s r).prs.pmem = s.prs.pmem ∧ (State.runEnd s r).pending = s.pending := by
  simp [State.runEnd, *] <;> (repeat' (first | apply And.intro | intro _ | (simp [*]; done) | split | (rw [pm_foldl]) | (rw [pd_foldl]) | (rw [pm_foldl2]) | (rw [pd_foldl2])))

@[simp] theorem State.scrubStart_frame (s : State) (t : Nat) :
    (State.scrubStart s t).prs.pmem = s.prs.pmem ∧ (State.scrubStart s t).pending = s.pending := by
  simp [State.scrubStart, *]

@[simp] theorem State.hierStart_frame (s : State) (h : HierChg) :
    (State.hierStart s h).prs.pmem = s.prs.pmem ∧ (State.hierStart s h).pending = s.pending := by
  simp [State.hierStart, *]

@[simp] theorem State.slotsGiveWay_frame (s : State) :
    (State.slotsGiveWay s).pending = s.pending := by
  simp [State.slotsGiveWay, *] <;> (repeat' (first | apply And.intro | intro _ | (simp [*]; done) | split | (rw [pm_foldl]) | (rw [pd_foldl]) | (rw [pm_foldl2]) | (rw [pd_foldl2])))

@[simp] theorem State.loadModel_frame (s : State) :
    (State.loadModel s).pending = s.pending := by
  simp [State.loadModel, *]

@[simp] theorem State.pressReady_frame (s : State) :
    (State.pressReady s).prs.pmem = s.prs.pmem ∧ (State.pressReady s).pending = s.pending := by
  simp [State.pressReady, *]

@[simp] theorem State.pressUp_frame (s : State) :
    (State.pressUp s).pending = s.pending := by
  simp [State.pressUp, *]

theorem fillOne_pending (s : State) (l : List (Nat × List Byte)) (g : Nat → Nat) :
    (l.foldl (fun s x => s.pwrite (g x.1) x.2) s).pending = s.pending := by
  induction l generalizing s with
  | nil => rfl
  | cons x l ih => rw [List.foldl_cons, ih, State.pwrite_frame]

/-- One slot of the fill of a stack. -/
theorem fillSlot_pending (s : State) (t : Nat) (src : Option Nat) (e : Nat × Slot) (b : Nat): 
   (match e.2.forme with
    | none => s
    | some f =>
      match src with
      | some u => s.pwrite (dramAddr t (b + f.marea)) (s.pbytes (dramAddr u (b + f.marea)) f.mbytes)
      | none =>
        let data := match Tab.find s.prs.store e.1 with
          | some x => if x.1.digest = f.digest then x.1.data else f.data
          | none => f.data
        data.foldl (fun s (x : Nat × List Byte) => s.pwrite (dramAddr t (b + f.marea + x.1)) x.2) s).pending = s.pending := by
    split
    · rfl
    · split
      · exact State.pwrite_frame s _ _
      · exact fillOne_pending s _ (fun x => dramAddr t (b+Forme.marea _ + x))

@[simp] theorem State.fillStack_frame (s : State) (t : Nat) (src : Option Nat) :
    (State.fillStack s t src).pending = s.pending := by
  unfold State.fillStack
  generalize s.prs.slots = l
  induction l generalizing s with
  | nil => rfl
  | cons e l ih =>
    rw [List.foldl_cons, ih]
    exact fillSlot_pending s t src e _

@[simp] theorem State.hierFinish_frame (s : State) (h : HierChg) :
    (State.hierFinish s h).pending = s.pending := by
  simp [State.hierFinish, *]

@[simp] theorem State.hierTick_frame (s : State) :
    (State.hierTick s).pending = s.pending := by
  simp [State.hierTick, *] <;> (repeat' (first | apply And.intro | intro _ | (simp [*]; done) | split | (rw [pm_foldl]) | (rw [pd_foldl]) | (rw [pm_foldl2]) | (rw [pd_foldl2])))

@[simp] theorem State.leafCrc_frame (s : State) (u : Nat) :
    (State.leafCrc s u).prs.pmem = s.prs.pmem ∧ (State.leafCrc s u).pending = s.pending := by
  simp [State.leafCrc, *]

@[simp] theorem State.spineDrop_frame (s : State) (t : Nat) :
    (State.spineDrop s t).pending = s.pending := by
  simp [State.spineDrop, *] <;> (repeat' (first | apply And.intro | intro _ | (simp [*]; done) | split | (rw [pm_foldl]) | (rw [pd_foldl]) | (rw [pm_foldl2]) | (rw [pd_foldl2])))

@[simp] theorem State.spineUe_frame (s : State) (port : Nat) (inj : Bool) :
    (State.spineUe s port inj).pending = s.pending := by
  simp [State.spineUe, *] <;> (repeat' (first | apply And.intro | intro _ | (simp [*]; done) | split | (rw [pm_foldl]) | (rw [pd_foldl]) | (rw [pm_foldl2]) | (rw [pd_foldl2])))

@[simp] theorem State.barRelease_frame (s : State) (t : Nat) (level : Nat) :
    (State.barRelease s t level).prs.pmem = s.prs.pmem ∧ (State.barRelease s t level).pending = s.pending := by
  simp [State.barRelease, *]

@[simp] theorem State.barTimeout_frame (s : State) (t : Nat) (level : Nat) (unit : Nat) :
    (State.barTimeout s t level unit).prs.pmem = s.prs.pmem ∧ (State.barTimeout s t level unit).pending = s.pending := by
  simp [State.barTimeout, *] <;> (repeat' (first | apply And.intro | intro _ | (simp [*]; done) | split | (rw [pm_foldl]) | (rw [pd_foldl]) | (rw [pm_foldl2]) | (rw [pd_foldl2])))

@[simp] theorem State.barInject_frame (s : State) (d : Nat) (unit : Nat) :
    (State.barInject s d unit).prs.pmem = s.prs.pmem ∧ (State.barInject s d unit).pending = s.pending := by
  simp [State.barInject, *] <;> (repeat' (first | apply And.intro | intro _ | (simp [*]; done) | split | (rw [pm_foldl]) | (rw [pd_foldl]) | (rw [pm_foldl2]) | (rw [pd_foldl2])))

@[simp] theorem State.dramCe_frame (s : State) (t : Nat) (bank : Nat) (row : Nat) (off : Nat) (nbits : Nat) (spans : Bool) :
    (State.dramCe s t bank row off nbits spans).prs.pmem = s.prs.pmem ∧ (State.dramCe s t bank row off nbits spans).pending = s.pending := by
  simp [State.dramCe, *]

@[simp] theorem State.dramLatch_frame (s : State) (t : Nat) (off : Nat) (scrub : Bool) :
    (State.dramLatch s t off scrub).prs.pmem = s.prs.pmem ∧ (State.dramLatch s t off scrub).pending = s.pending := by
  simp [State.dramLatch, *]

@[simp] theorem State.modelReload_frame (s : State) (t : Nat) :
    (State.modelReload s t).pending = s.pending := by
  simp [State.modelReload, *]

@[simp] theorem State.captureDrop_frame (s : State) (t : Nat) (off : Nat) :
    (State.captureDrop s t off).prs.pmem = s.prs.pmem ∧ (State.captureDrop s t off).pending = s.pending := by
  simp [State.captureDrop, *] <;> (repeat' (first | apply And.intro | intro _ | (simp [*]; done) | split))

@[simp] theorem State.dramUe_frame (s : State) (t : Nat) (bank : Nat) (off : Nat) (scrub : Bool) :
    (State.dramUe s t bank off scrub).pending = s.pending := by
  unfold State.dramUe
  dsimp only
  split <;> simp

@[simp] theorem State.scrub_frame (s : State) (t : Nat) (percent : Nat) (badRow : Bool) (badBank : Bool) (bank : Nat) :
    (State.scrub s t percent badRow badBank bank).prs.pmem = s.prs.pmem ∧ (State.scrub s t percent badRow badBank bank).pending = s.pending := by
  simp [State.scrub, *]

@[simp] theorem State.trnHold_frame (s : State) (cause : Nat) :
    (State.trnHold s cause).prs.pmem = s.prs.pmem ∧ (State.trnHold s cause).pending = s.pending := by
  simp [State.trnHold, *]

@[simp] theorem State.offerClose_frame (s : State) (reason : Nat) :
    (State.offerClose s reason).prs.pmem = s.prs.pmem ∧ (State.offerClose s reason).pending = s.pending := by
  simp [State.offerClose, *] <;> (repeat' (first | apply And.intro | intro _ | (simp [*]; done) | split | (rw [pm_foldl]) | (rw [pd_foldl]) | (rw [pm_foldl2]) | (rw [pd_foldl2])))

@[simp] theorem State.clearScores_frame (s : State) :
    (State.clearScores s).prs.pmem = s.prs.pmem ∧ (State.clearScores s).pending = s.pending := by
  simp [State.clearScores, *]

@[simp] theorem State.imposeSetup_frame (s : State) (b : List Byte) :
    (State.imposeSetup s b).prs.pmem = s.prs.pmem ∧ (State.imposeSetup s b).pending = s.pending := by
  simp [State.imposeSetup, *]

@[simp] theorem State.bulkOut_frame (s : State) (kind : Nat) (b : List Byte) :
    (State.bulkOut s kind b).prs.pmem = s.prs.pmem ∧ (State.bulkOut s kind b).pending = s.pending := by
  simp [State.bulkOut, *]

@[simp] theorem State.sendBulk_frame (s : State) (kind : Nat) (b : List Byte) :
    (State.sendBulk s kind b).prs.pmem = s.prs.pmem ∧ (State.sendBulk s kind b).pending = s.pending := by
  simp [State.sendBulk, *]

theorem State.captureWrites_pending (s : State) (offs : List Nat) (k sigma gen : Nat) (rows : List (List (Nat × Nat × List (Option Int)))) (l : List Nat) :
    (l.foldl (fun s t => s.pwrite (dramAddr t ((offs[t]?).getD 0)) (captureBytes k sigma gen ((rows[t]?).getD []))) s).pending = s.pending := by
  induction l generalizing s with
  | nil => rfl
  | cons x l ih => rw [List.foldl_cons, ih, State.pwrite_frame]

@[simp] theorem State.capture_frame (s : State) (k sigma gen : Nat) : (s.capture k sigma gen).pending = s.pending := by
  unfold State.capture
  simp only
  split
  · rfl
  · split
    · simp
    · rw [(State.trnMod_frame _ _).2, State.captureWrites_pending]

@[simp] theorem State.captureDue_frame (s : State) (k : Nat) :
    (State.captureDue s k).prs.pmem = s.prs.pmem ∧ (State.captureDue s k).pending = s.pending := by
  simp [State.captureDue, *]

@[simp] theorem State.epochSwitch_frame (s : State) :
    (State.epochSwitch s).prs.pmem = s.prs.pmem ∧ (State.epochSwitch s).pending = s.pending := by
  simp [State.epochSwitch, *]

@[simp] theorem State.stepEnd_frame (s : State) :
    (State.stepEnd s).pending = s.pending := by
  simp [State.stepEnd, *]

@[simp] theorem State.promoStart_frame (s : State) (kind : Nat) (reason : Nat) (auto : Bool) (st : Staged) :
    (State.promoStart s kind reason auto st).pending = s.pending := by
  simp [State.promoStart, *]

@[simp] theorem State.promoStage_frame (s : State) (r : Nat) (op : Nat) (kind : Nat) (reason : Nat) :
    (State.promoStage s r op kind reason).2.pending = s.pending := by
  simp [State.promoStage, *] <;> (repeat' (first | apply And.intro | intro _ | (simp [*]; done) | split | (rw [pm_foldl]) | (rw [pd_foldl]) | (rw [pm_foldl2]) | (rw [pd_foldl2])))

@[simp] theorem State.promoAlone_frame (s : State) :
    (State.promoAlone s).prs.pmem = s.prs.pmem ∧ (State.promoAlone s).pending = s.pending := by
  simp [State.promoAlone, *]

@[simp] theorem State.promoImpose_frame (s : State) :
    (State.promoImpose s).pending = s.pending := by
  simp [State.promoImpose, *] <;> (repeat' (first | apply And.intro | intro _ | (simp [*]; done) | split | (rw [pm_foldl]) | (rw [pd_foldl]) | (rw [pm_foldl2]) | (rw [pd_foldl2])))

@[simp] theorem State.promoCheck_frame (s : State) :
    (State.promoCheck s).pending = s.pending := by
  simp [State.promoCheck, *] <;> (repeat' (first | apply And.intro | intro _ | (simp [*]; done) | split | (rw [pm_foldl]) | (rw [pd_foldl]) | (rw [pm_foldl2]) | (rw [pd_foldl2])))

@[simp] theorem State.probation_frame (s : State) :
    (State.probation s).pending = s.pending := by
  simp [State.probation, *]

@[simp] theorem State.checkpoint_frame (s : State) :
    (State.checkpoint s).prs.pmem = s.prs.pmem ∧ (State.checkpoint s).pending = s.pending := by
  simp [State.checkpoint, *]

@[simp] theorem State.skip_frame (s : State) :
    (State.skip s).prs.pmem = s.prs.pmem ∧ (State.skip s).pending = s.pending := by
  simp [State.skip, *]

@[simp] theorem State.scorePush_frame (s : State) (k : Nat) :
    (State.scorePush s k).prs.pmem = s.prs.pmem ∧ (State.scorePush s k).pending = s.pending := by
  simp [State.scorePush, *]

@[simp] theorem State.shadowTick_frame (s : State) :
    (State.shadowTick s).prs.pmem = s.prs.pmem ∧ (State.shadowTick s).pending = s.pending := by
  simp [State.shadowTick, *] <;> (repeat' (first | apply And.intro | intro _ | (simp [*]; done) | split | (rw [pm_foldl]) | (rw [pd_foldl]) | (rw [pm_foldl2]) | (rw [pd_foldl2])))

@[simp] theorem State.stepTick_frame (s : State) :
    (State.stepTick s).prs.pmem = s.prs.pmem ∧ (State.stepTick s).pending = s.pending := by
  simp [State.stepTick, *]

@[simp] theorem State.holdTick_frame (s : State) :
    (State.holdTick s).prs.pmem = s.prs.pmem ∧ (State.holdTick s).pending = s.pending := by
  simp [State.holdTick, *] <;> (repeat' (first | apply And.intro | intro _ | (simp [*]; done) | split | (rw [pm_foldl]) | (rw [pd_foldl]) | (rw [pm_foldl2]) | (rw [pd_foldl2])))

@[simp] theorem State.candidatePasses_frame (s : State) (el : Nat) (ec : Nat) :
    (State.candidatePasses s el ec).pending = s.pending := by
  simp [State.candidatePasses, *] <;> (repeat' (first | apply And.intro | intro _ | (simp [*]; done) | split | (rw [pm_foldl]) | (rw [pd_foldl]) | (rw [pm_foldl2]) | (rw [pd_foldl2])))

@[simp] theorem State.judge_frame (s : State) :
    (State.judge s).pending = s.pending := by
  simp [State.judge, *]

@[simp] theorem State.score_frame (s : State) (q : Score) :
    (State.score s q).pending = s.pending := by
  simp [State.score, *] <;> (repeat' (first | apply And.intro | intro _ | (simp [*]; done) | split | (rw [pm_foldl]) | (rw [pd_foldl]) | (rw [pm_foldl2]) | (rw [pd_foldl2])))

@[simp] theorem State.trainTick_frame (s : State) :
    (State.trainTick s).pending = s.pending := by
  simp [State.trainTick, *]

end Sys2Proof.Machine
end

