-- ==== Sys2Proof/Laws/FrameStage.lean ====
section
/-!
SUPPORT. Frames of Chase and the phases: each function keeps the queue, and the memory of the Press where it stores nothing.
-/
namespace Sys2Proof.Machine
set_option linter.all false

@[simp] theorem State.chsMod_frame (s : State) (f : Chs → Chs) :
    (State.chsMod s f).prs.pmem = s.prs.pmem ∧ (State.chsMod s f).pending = s.pending := by
  simp [State.chsMod, *]

@[simp] theorem State.phaseMod_frame (s : State) (q : Nat) (f : Phase → Phase) :
    (State.phaseMod s q f).prs.pmem = s.prs.pmem ∧ (State.phaseMod s q f).pending = s.pending := by
  simp [State.phaseMod, *]

@[simp] theorem State.linkMod_frame (s : State) (l : Nat) (f : Link → Link) :
    (State.linkMod s l f).prs.pmem = s.prs.pmem ∧ (State.linkMod s l f).pending = s.pending := by
  simp [State.linkMod, *]

@[simp] theorem State.loopMod_frame (s : State) (n : Nat) (f : LoopC → LoopC) :
    (State.loopMod s n f).prs.pmem = s.prs.pmem ∧ (State.loopMod s n f).pending = s.pending := by
  simp [State.loopMod, *]

@[simp] theorem State.loopOpen_frame (s : State) (n : Nat) :
    (State.loopOpen s n).prs.pmem = s.prs.pmem ∧ (State.loopOpen s n).pending = s.pending := by
  simp [State.loopOpen, *]

@[simp] theorem State.loopClose_frame (s : State) (n : Nat) (uf : Int) :
    (State.loopClose s n uf).prs.pmem = s.prs.pmem ∧ (State.loopClose s n uf).pending = s.pending := by
  simp [State.loopClose, *]

@[simp] theorem State.loopOut_frame (s : State) (n : Nat) :
    (State.loopOut s n).prs.pmem = s.prs.pmem ∧ (State.loopOut s n).pending = s.pending := by
  simp [State.loopOut, *]

@[simp] theorem State.syncOut_frame (s : State) (safe : Bool) :
    (State.syncOut s safe).prs.pmem = s.prs.pmem ∧ (State.syncOut s safe).pending = s.pending := by
  simp [State.syncOut, *]

@[simp] theorem State.dutyOut_frame (s : State) (safe : Bool) :
    (State.dutyOut s safe).prs.pmem = s.prs.pmem ∧ (State.dutyOut s safe).pending = s.pending := by
  simp [State.dutyOut, *]

@[simp] theorem State.safeFirst_frame (s : State) :
    (State.safeFirst s).prs.pmem = s.prs.pmem ∧ (State.safeFirst s).pending = s.pending := by
  simp [State.safeFirst, *]

@[simp] theorem State.cfgOut_frame (s : State) :
    (State.cfgOut s).prs.pmem = s.prs.pmem ∧ (State.cfgOut s).pending = s.pending := by
  simp [State.cfgOut, *] <;> (repeat' (first | apply And.intro | intro _ | (simp [*]; done) | split | (rw [pm_foldl]) | (rw [pd_foldl]) | (rw [pm_foldl2]) | (rw [pd_foldl2])))

@[simp] theorem State.cfgAll_frame (s : State) (as : List Nat) :
    (State.cfgAll s as).prs.pmem = s.prs.pmem ∧ (State.cfgAll s as).pending = s.pending := by
  simp [State.cfgAll, *]

@[simp] theorem State.phaseTo_frame (s : State) (q : Nat) (st : Nat) (factor : Nat) :
    (State.phaseTo s q st factor).prs.pmem = s.prs.pmem ∧ (State.phaseTo s q st factor).pending = s.pending := by
  simp [State.phaseTo, *]

@[simp] theorem State.phaseOut_frame (s : State) (q : Nat) (st : Nat) :
    (State.phaseOut s q st).prs.pmem = s.prs.pmem ∧ (State.phaseOut s q st).pending = s.pending := by
  simp [State.phaseOut, *]

@[simp] theorem State.phaseRun_frame (s : State) (q : Nat) (uf : Int) :
    (State.phaseRun s q uf).prs.pmem = s.prs.pmem ∧ (State.phaseRun s q uf).pending = s.pending := by
  simp [State.phaseRun, *]

@[simp] theorem State.wake_frame (s : State) (q : Nat) :
    (State.wake s q).prs.pmem = s.prs.pmem ∧ (State.wake s q).pending = s.pending := by
  simp [State.wake, *]

@[simp] theorem State.setRole_frame (s : State) (q : Nat) (r : Nat) :
    (State.setRole s q r).prs.pmem = s.prs.pmem ∧ (State.setRole s q r).pending = s.pending := by
  simp [State.setRole, *]

@[simp] theorem State.bringSpare_frame (s : State) (p : Nat) (t : Nat) :
    (State.bringSpare s p t).2.prs.pmem = s.prs.pmem ∧ (State.bringSpare s p t).2.pending = s.pending := by
  simp [State.bringSpare, *] <;> (repeat' (first | apply And.intro | intro _ | (simp [*]; done) | split | (rw [pm_foldl]) | (rw [pd_foldl]) | (rw [pm_foldl2]) | (rw [pd_foldl2])))

@[simp] theorem State.phaseFailed_frame (s : State) (q : Nat) (cause : Nat) (spare : Option Nat) :
    (State.phaseFailed s q cause spare).prs.pmem = s.prs.pmem ∧ (State.phaseFailed s q cause spare).pending = s.pending := by
  simp [State.phaseFailed, *]

@[simp] theorem State.phaseFail_frame (s : State) (q : Nat) (cause : Nat) (inj : Bool) :
    (State.phaseFail s q cause inj).prs.pmem = s.prs.pmem ∧ (State.phaseFail s q cause inj).pending = s.pending := by
  simp [State.phaseFail, *]

@[simp] theorem State.phaseUnmapped_frame (s : State) (q : Nat) :
    (State.phaseUnmapped s q).prs.pmem = s.prs.pmem ∧ (State.phaseUnmapped s q).pending = s.pending := by
  simp [State.phaseUnmapped, *]

@[simp] theorem State.phaseSpare_frame (s : State) (q : Nat) :
    (State.phaseSpare s q).prs.pmem = s.prs.pmem ∧ (State.phaseSpare s q).pending = s.pending := by
  simp [State.phaseSpare, *]

@[simp] theorem State.phaseGone_frame (s : State) (q : Nat) (code : Nat) :
    (State.phaseGone s q code).prs.pmem = s.prs.pmem ∧ (State.phaseGone s q code).pending = s.pending := by
  simp [State.phaseGone, *]

@[simp] theorem State.linkEvt_frame (s : State) (l : Nat) (up : Bool) :
    (State.linkEvt s l up).prs.pmem = s.prs.pmem ∧ (State.linkEvt s l up).pending = s.pending := by
  simp [State.linkEvt, *]

@[simp] theorem State.setUp_frame (s : State) (l : Nat) (up : Bool) :
    (State.setUp s l up).prs.pmem = s.prs.pmem ∧ (State.setUp s l up).pending = s.pending := by
  simp [State.setUp, *]

@[simp] theorem State.unitOn_frame (s : State) (n : Nat) (unit : Nat) :
    (State.unitOn s n unit).prs.pmem = s.prs.pmem ∧ (State.unitOn s n unit).pending = s.pending := by
  simp [State.unitOn, *]

@[simp] theorem State.spareFree_frame (s : State) :
    (State.spareFree s).prs.pmem = s.prs.pmem ∧ (State.spareFree s).pending = s.pending := by
  simp [State.spareFree, *]

@[simp] theorem State.spareUp_frame (s : State) (l : Nat) :
    (State.spareUp s l).prs.pmem = s.prs.pmem ∧ (State.spareUp s l).pending = s.pending := by
  simp [State.spareUp, *]

@[simp] theorem State.linkRise_frame (s : State) (l : Nat) :
    (State.linkRise s l).prs.pmem = s.prs.pmem ∧ (State.linkRise s l).pending = s.pending := by
  simp [State.linkRise, *]

@[simp] theorem State.spareTake_frame (s : State) (l : Nat) :
    (State.spareTake s l).prs.pmem = s.prs.pmem ∧ (State.spareTake s l).pending = s.pending := by
  simp [State.spareTake, *]

@[simp] theorem State.linkFall_frame (s : State) (l : Nat) :
    (State.linkFall s l).prs.pmem = s.prs.pmem ∧ (State.linkFall s l).pending = s.pending := by
  simp [State.linkFall, *]

@[simp] theorem State.spareIdle_frame (s : State) :
    (State.spareIdle s).prs.pmem = s.prs.pmem ∧ (State.spareIdle s).pending = s.pending := by
  simp [State.spareIdle, *]

@[simp] theorem State.linkTrain_frame (s : State) (l : Nat) :
    (State.linkTrain s l).prs.pmem = s.prs.pmem ∧ (State.linkTrain s l).pending = s.pending := by
  simp [State.linkTrain, *]

@[simp] theorem State.slotIn_frame (s : State) (b : Nat) (j : Nat) (f : List Byte) :
    (State.slotIn s b j f).prs.pmem = s.prs.pmem ∧ (State.slotIn s b j f).pending = s.pending := by
  simp [State.slotIn, *]

@[simp] theorem State.sampleIn_frame (s : State) (l : Nat) (f : List Byte) :
    (State.sampleIn s l f).prs.pmem = s.prs.pmem ∧ (State.sampleIn s l f).pending = s.pending := by
  simp [State.sampleIn, *]

@[simp] theorem State.sample_frame (s : State) (l : Nat) (f : List Byte) :
    (State.sample s l f).prs.pmem = s.prs.pmem ∧ (State.sample s l f).pending = s.pending := by
  simp [State.sample, *]

@[simp] theorem State.cutLink_frame (s : State) (l : Nat) :
    (State.cutLink s l).prs.pmem = s.prs.pmem ∧ (State.cutLink s l).pending = s.pending := by
  simp [State.cutLink, *] <;> (repeat' (first | apply And.intro | intro _ | (simp [*]; done) | split | (rw [pm_foldl]) | (rw [pd_foldl]) | (rw [pm_foldl2]) | (rw [pd_foldl2])))

@[simp] theorem State.cutLinks_frame (s : State) :
    (State.cutLinks s).prs.pmem = s.prs.pmem ∧ (State.cutLinks s).pending = s.pending := by
  simp [State.cutLinks, *]

@[simp] theorem State.measurePhase_frame (s : State) (q : Nat) :
    (State.measurePhase s q).prs.pmem = s.prs.pmem ∧ (State.measurePhase s q).pending = s.pending := by
  simp [State.measurePhase, *] <;> (repeat' (first | apply And.intro | intro _ | (simp [*]; done) | split | (rw [pm_foldl]) | (rw [pd_foldl]) | (rw [pm_foldl2]) | (rw [pd_foldl2])))

@[simp] theorem State.olEvt_frame (s : State) (item : Nat) (c : Nat) (th : List Int) (was : Option Nat) (now : Option Nat) :
    (State.olEvt s item c th was now).prs.pmem = s.prs.pmem ∧ (State.olEvt s item c th was now).pending = s.pending := by
  simp [State.olEvt, *]

@[simp] theorem State.olPhase_frame (s : State) (q : Nat) :
    (State.olPhase s q).prs.pmem = s.prs.pmem ∧ (State.olPhase s q).pending = s.pending := by
  simp [State.olPhase, *]

@[simp] theorem State.convMod_frame (s : State) (g : Nat) (f : Conv → Conv) :
    (State.convMod s g f).prs.pmem = s.prs.pmem ∧ (State.convMod s g f).pending = s.pending := by
  simp [State.convMod, *]

@[simp] theorem State.groupDet_frame (s : State) (g : Nat) :
    (State.groupDet s g).prs.pmem = s.prs.pmem ∧ (State.groupDet s g).pending = s.pending := by
  simp [State.groupDet, *]

@[simp] theorem State.olConv_frame (s : State) (g : Nat) :
    (State.olConv s g).prs.pmem = s.prs.pmem ∧ (State.olConv s g).pending = s.pending := by
  simp [State.olConv, *]

@[simp] theorem State.tripFound_frame (s : State) (q : Nat) :
    (State.tripFound s q).prs.pmem = s.prs.pmem ∧ (State.tripFound s q).pending = s.pending := by
  simp [State.tripFound, *]

@[simp] theorem State.findFault_frame (s : State) (q : Nat) :
    (State.findFault s q).prs.pmem = s.prs.pmem ∧ (State.findFault s q).pending = s.pending := by
  simp [State.findFault, *] <;> (repeat' (first | apply And.intro | intro _ | (simp [*]; done) | split | (rw [pm_foldl]) | (rw [pd_foldl]) | (rw [pm_foldl2]) | (rw [pd_foldl2])))

@[simp] theorem State.toEst_frame (s : State) (q : Nat) :
    (State.toEst s q).prs.pmem = s.prs.pmem ∧ (State.toEst s q).pending = s.pending := by
  simp [State.toEst, *]

@[simp] theorem State.takeGone_frame (s : State) :
    (State.takeGone s).prs.pmem = s.prs.pmem ∧ (State.takeGone s).pending = s.pending := by
  simp [State.takeGone, *]

@[simp] theorem State.spareIn_frame (s : State) (q : Nat) :
    (State.spareIn s q).prs.pmem = s.prs.pmem ∧ (State.spareIn s q).pending = s.pending := by
  simp [State.spareIn, *]

@[simp] theorem State.shedOff_frame (s : State) (q : Nat) :
    (State.shedOff s q).prs.pmem = s.prs.pmem ∧ (State.shedOff s q).pending = s.pending := by
  simp [State.shedOff, *]

@[simp] theorem State.spareStep_frame (s : State) (q : Nat) :
    (State.spareStep s q).prs.pmem = s.prs.pmem ∧ (State.spareStep s q).pending = s.pending := by
  simp [State.spareStep, *] <;> (repeat' (first | apply And.intro | intro _ | (simp [*]; done) | split | (rw [pm_foldl]) | (rw [pd_foldl]) | (rw [pm_foldl2]) | (rw [pd_foldl2])))

@[simp] theorem State.wakeTimeout_frame (s : State) (q : Nat) :
    (State.wakeTimeout s q).prs.pmem = s.prs.pmem ∧ (State.wakeTimeout s q).pending = s.pending := by
  simp [State.wakeTimeout, *]

@[simp] theorem State.warmExpiry_frame (s : State) (q : Nat) :
    (State.warmExpiry s q).prs.pmem = s.prs.pmem ∧ (State.warmExpiry s q).pending = s.pending := by
  simp [State.warmExpiry, *]

@[simp] theorem State.estTimeout_frame (s : State) (q : Nat) :
    (State.estTimeout s q).prs.pmem = s.prs.pmem ∧ (State.estTimeout s q).pending = s.pending := by
  simp [State.estTimeout, *] <;> (repeat' (first | apply And.intro | intro _ | (simp [*]; done) | split | (rw [pm_foldl]) | (rw [pd_foldl]) | (rw [pm_foldl2]) | (rw [pd_foldl2])))

@[simp] theorem State.warmLimit_frame (s : State) (g : Nat) :
    (State.warmLimit s g).prs.pmem = s.prs.pmem ∧ (State.warmLimit s g).pending = s.pending := by
  simp [State.warmLimit, *] <;> (repeat' (first | apply And.intro | intro _ | (simp [*]; done) | split | (rw [pm_foldl]) | (rw [pd_foldl]) | (rw [pm_foldl2]) | (rw [pd_foldl2])))

@[simp] theorem State.shedStep_frame (s : State) (q : Nat) :
    (State.shedStep s q).prs.pmem = s.prs.pmem ∧ (State.shedStep s q).pending = s.pending := by
  simp [State.shedStep, *]

@[simp] theorem State.shedYields_frame (s : State) (n : Nat) :
    (State.shedYields s n).prs.pmem = s.prs.pmem ∧ (State.shedYields s n).pending = s.pending := by
  simp [State.shedYields, *]

@[simp] theorem State.abortSheds_frame (s : State) (gs : List Nat) :
    (State.abortSheds s gs).prs.pmem = s.prs.pmem ∧ (State.abortSheds s gs).pending = s.pending := by
  simp [State.abortSheds, *]

@[simp] theorem State.plainSheds_frame (s : State) :
    (State.plainSheds s).prs.pmem = s.prs.pmem ∧ (State.plainSheds s).pending = s.pending := by
  simp [State.plainSheds, *]

@[simp] theorem State.strMod_frame (s : State) (st : Nat) (f : StrX → StrX) :
    (State.strMod s st f).prs.pmem = s.prs.pmem ∧ (State.strMod s st f).pending = s.pending := by
  simp [State.strMod, *]

@[simp] theorem State.burstStart_frame (s : State) (why : Nat) (v : Nat) :
    (State.burstStart s why v).prs.pmem = s.prs.pmem ∧ (State.burstStart s why v).pending = s.pending := by
  simp [State.burstStart, *]

@[simp] theorem State.burstEnd_frame (s : State) :
    (State.burstEnd s).prs.pmem = s.prs.pmem ∧ (State.burstEnd s).pending = s.pending := by
  simp [State.burstEnd, *]

@[simp] theorem State.excessTick_frame (s : State) (g : Nat) :
    (State.excessTick s g).prs.pmem = s.prs.pmem ∧ (State.excessTick s g).pending = s.pending := by
  simp [State.excessTick, *] <;> (repeat' (first | apply And.intro | intro _ | (simp [*]; done) | split | (rw [pm_foldl]) | (rw [pd_foldl]) | (rw [pm_foldl2]) | (rw [pd_foldl2])))

@[simp] theorem State.armNeed_frame (s : State) (g : Nat) :
    (State.armNeed s g).prs.pmem = s.prs.pmem ∧ (State.armNeed s g).pending = s.pending := by
  simp [State.armNeed, *]

@[simp] theorem State.shedOne_frame (s : State) (g : Nat) :
    (State.shedOne s g).prs.pmem = s.prs.pmem ∧ (State.shedOne s g).pending = s.pending := by
  simp [State.shedOne, *] <;> (repeat' (first | apply And.intro | intro _ | (simp [*]; done) | split | (rw [pm_foldl]) | (rw [pd_foldl]) | (rw [pm_foldl2]) | (rw [pd_foldl2])))

@[simp] theorem State.armGroup_frame (s : State) (g : Nat) :
    (State.armGroup s g).prs.pmem = s.prs.pmem ∧ (State.armGroup s g).pending = s.pending := by
  simp [State.armGroup, *] <;> (repeat' (first | apply And.intro | intro _ | (simp [*]; done) | split | (rw [pm_foldl]) | (rw [pd_foldl]) | (rw [pm_foldl2]) | (rw [pd_foldl2])))

@[simp] theorem State.turnSet_frame (s : State) (qs : List Nat) :
    (State.turnSet s qs).prs.pmem = s.prs.pmem ∧ (State.turnSet s qs).pending = s.pending := by
  simp [State.turnSet, *]

@[simp] theorem State.loopBack_frame (s : State) (n : Nat) (uf : Int) :
    (State.loopBack s n uf).prs.pmem = s.prs.pmem ∧ (State.loopBack s n uf).pending = s.pending := by
  simp [State.loopBack, *]

@[simp] theorem State.armOrder_frame (s : State) :
    (State.armOrder s).prs.pmem = s.prs.pmem ∧ (State.armOrder s).pending = s.pending := by
  simp [State.armOrder, *] <;> (repeat' (first | apply And.intro | intro _ | (simp [*]; done) | split | (rw [pm_foldl]) | (rw [pd_foldl]) | (rw [pm_foldl2]) | (rw [pd_foldl2])))

@[simp] theorem State.phaseRest_frame (s : State) (q : Nat) :
    (State.phaseRest s q).prs.pmem = s.prs.pmem ∧ (State.phaseRest s q).pending = s.pending := by
  simp [State.phaseRest, *]

@[simp] theorem State.phasesSafe_frame (s : State) :
    (State.phasesSafe s).prs.pmem = s.prs.pmem ∧ (State.phasesSafe s).pending = s.pending := by
  simp [State.phasesSafe, *]

@[simp] theorem State.tokenOn_frame (s : State) :
    (State.tokenOn s).prs.pmem = s.prs.pmem ∧ (State.tokenOn s).pending = s.pending := by
  simp [State.tokenOn, *]

@[simp] theorem State.armBegin_frame (s : State) :
    (State.armBegin s).prs.pmem = s.prs.pmem ∧ (State.armBegin s).pending = s.pending := by
  simp [State.armBegin, *]

@[simp] theorem State.copyArmed_frame (s : State) :
    (State.copyArmed s).prs.pmem = s.prs.pmem ∧ (State.copyArmed s).pending = s.pending := by
  simp [State.copyArmed, *]

@[simp] theorem State.stageOrder_frame (s : State) (n : Nat) (unit : Nat) (inj : Bool) :
    (State.stageOrder s n unit inj).prs.pmem = s.prs.pmem ∧ (State.stageOrder s n unit inj).pending = s.pending := by
  simp [State.stageOrder, *]

@[simp] theorem State.settleStage_frame (s : State) :
    (State.settleStage s).prs.pmem = s.prs.pmem ∧ (State.settleStage s).pending = s.pending := by
  simp [State.settleStage, *]

@[simp] theorem State.phaseWear_frame (s : State) (q : Nat) :
    (State.phaseWear s q).prs.pmem = s.prs.pmem ∧ (State.phaseWear s q).pending = s.pending := by
  simp [State.phaseWear, *]

@[simp] theorem State.phaseRetire_frame (s : State) (q : Nat) :
    (State.phaseRetire s q).prs.pmem = s.prs.pmem ∧ (State.phaseRetire s q).pending = s.pending := by
  simp [State.phaseRetire, *] <;> (repeat' (first | apply And.intro | intro _ | (simp [*]; done) | split | (rw [pm_foldl]) | (rw [pd_foldl]) | (rw [pm_foldl2]) | (rw [pd_foldl2])))

@[simp] theorem State.linkRetire_frame (s : State) (l : Nat) :
    (State.linkRetire s l).prs.pmem = s.prs.pmem ∧ (State.linkRetire s l).pending = s.pending := by
  simp [State.linkRetire, *]

@[simp] theorem State.sendClr_frame (s : State) (q : Nat) :
    (State.sendClr s q).prs.pmem = s.prs.pmem ∧ (State.sendClr s q).pending = s.pending := by
  simp [State.sendClr, *]

@[simp] theorem State.clearPhase_frame (s : State) (r : Nat) (q : Nat) :
    (State.clearPhase s r q).s.prs.pmem = s.prs.pmem ∧ (State.clearPhase s r q).s.pending = s.pending := by
  simp [State.clearPhase, *]

@[simp] theorem State.clearGroup_frame (s : State) (r : Nat) (g : Nat) :
    (State.clearGroup s r g).s.prs.pmem = s.prs.pmem ∧ (State.clearGroup s r g).s.pending = s.pending := by
  simp [State.clearGroup, *]

@[simp] theorem State.imposeRole_frame (s : State) (q : Nat) (role : Nat) :
    (State.imposeRole s q role).prs.pmem = s.prs.pmem ∧ (State.imposeRole s q role).pending = s.pending := by
  simp [State.imposeRole, *]

@[simp] theorem State.retrain_frame (s : State) (l : Nat) :
    (State.retrain s l).prs.pmem = s.prs.pmem ∧ (State.retrain s l).pending = s.pending := by
  simp [State.retrain, *]

@[simp] theorem State.linkMapWrite_frame (s : State) (hi : Bool) (v : Nat) :
    (State.linkMapWrite s hi v).prs.pmem = s.prs.pmem ∧ (State.linkMapWrite s hi v).pending = s.pending := by
  simp [State.linkMapWrite, *]

@[simp] theorem State.mapLeave_frame (s : State) (l : Nat) :
    (State.mapLeave s l).prs.pmem = s.prs.pmem ∧ (State.mapLeave s l).pending = s.pending := by
  simp [State.mapLeave, *]

@[simp] theorem State.mapApply_frame (s : State) (old : Nat) :
    (State.mapApply s old).prs.pmem = s.prs.pmem ∧ (State.mapApply s old).pending = s.pending := by
  simp [State.mapApply, *]

@[simp] theorem State.stageStart_frame (s : State) :
    (State.stageStart s).prs.pmem = s.prs.pmem ∧ (State.stageStart s).pending = s.pending := by
  simp [State.stageStart, *]

@[simp] theorem State.supervise_frame (s : State) (n : Nat) :
    (State.supervise s n).prs.pmem = s.prs.pmem ∧ (State.supervise s n).pending = s.pending := by
  simp [State.supervise, *]

@[simp] theorem State.loopAt_frame (s : State) (n : Nat) (u : Int) :
    (State.loopAt s n u).prs.pmem = s.prs.pmem ∧ (State.loopAt s n u).pending = s.pending := by
  simp [State.loopAt, *]

@[simp] theorem State.loopsCalm_frame (s : State) (ns : List Nat) :
    (State.loopsCalm s ns).prs.pmem = s.prs.pmem ∧ (State.loopsCalm s ns).pending = s.pending := by
  simp [State.loopsCalm, *]

@[simp] theorem State.loopRun_frame (s : State) (n : Nat) (ry : Option (Int × Int)) :
    (State.loopRun s n ry).prs.pmem = s.prs.pmem ∧ (State.loopRun s n ry).pending = s.pending := by
  simp [State.loopRun, *]

@[simp] theorem State.holdAll_frame (s : State) :
    (State.holdAll s).prs.pmem = s.prs.pmem ∧ (State.holdAll s).pending = s.pending := by
  simp [State.holdAll, *]

@[simp] theorem State.fesumClear_frame (s : State) (w : Nat) (v : Nat) :
    (State.fesumClear s w v).prs.pmem = s.prs.pmem ∧ (State.fesumClear s w v).pending = s.pending := by
  simp [State.fesumClear, *]

@[simp] theorem State.measure_frame (s : State) :
    (State.measure s).prs.pmem = s.prs.pmem ∧ (State.measure s).pending = s.pending := by
  simp [State.measure, *] <;> (repeat' (first | apply And.intro | intro _ | (simp [*]; done) | split | (rw [pm_foldl]) | (rw [pd_foldl]) | (rw [pm_foldl2]) | (rw [pd_foldl2])))

@[simp] theorem State.windowArm_frame (s : State) (within : Bool) :
    (State.windowArm s within).prs.pmem = s.prs.pmem ∧ (State.windowArm s within).pending = s.pending := by
  simp [State.windowArm, *] <;> (repeat' (first | apply And.intro | intro _ | (simp [*]; done) | split | (rw [pm_foldl]) | (rw [pd_foldl]) | (rw [pm_foldl2]) | (rw [pd_foldl2])))

@[simp] theorem State.burstGo_frame (s : State) :
    (State.burstGo s).prs.pmem = s.prs.pmem ∧ (State.burstGo s).pending = s.pending := by
  simp [State.burstGo, *]

@[simp] theorem State.breachSlug_frame (s : State) (ranks : Nat) (dur : Nat) (w : Nat) (start : Nat) (n : Nat) (proof : Option (Nat × Nat)) :
    (State.breachSlug s ranks dur w start n proof).prs.pmem = s.prs.pmem ∧ (State.breachSlug s ranks dur w start n proof).pending = s.pending := by
  simp [State.breachSlug, *] <;> (repeat' (first | apply And.intro | intro _ | (simp [*]; done) | split | (rw [pm_foldl]) | (rw [pd_foldl]) | (rw [pm_foldl2]) | (rw [pd_foldl2])))

@[simp] theorem State.excursion_frame (s : State) (outside : Bool) (dy : Nat) (proof : Option (Nat × Nat)) (cap : Bool) :
    (State.excursion s outside dy proof cap).prs.pmem = s.prs.pmem ∧ (State.excursion s outside dy proof cap).pending = s.pending := by
  simp [State.excursion, *] <;> (repeat' (first | apply And.intro | intro _ | (simp [*]; done) | split | (rw [pm_foldl]) | (rw [pd_foldl]) | (rw [pm_foldl2]) | (rw [pd_foldl2])))

@[simp] theorem State.windowLogic_frame (s : State) (v : Nat) :
    (State.windowLogic s v).prs.pmem = s.prs.pmem ∧ (State.windowLogic s v).pending = s.pending := by
  simp [State.windowLogic, *]

@[simp] theorem State.envelope_frame (s : State) :
    (State.envelope s).prs.pmem = s.prs.pmem ∧ (State.envelope s).pending = s.pending := by
  simp [State.envelope, *]

@[simp] theorem State.setY_frame (s : State) (y : Int) :
    (State.setY s y).prs.pmem = s.prs.pmem ∧ (State.setY s y).pending = s.pending := by
  simp [State.setY, *]

@[simp] theorem State.limiterHold_frame (s : State) :
    (State.limiterHold s).prs.pmem = s.prs.pmem ∧ (State.limiterHold s).pending = s.pending := by
  simp [State.limiterHold, *]

@[simp] theorem State.breachEnd_frame (s : State) :
    (State.breachEnd s).prs.pmem = s.prs.pmem ∧ (State.breachEnd s).pending = s.pending := by
  simp [State.breachEnd, *] <;> (repeat' (first | apply And.intro | intro _ | (simp [*]; done) | split | (rw [pm_foldl]) | (rw [pd_foldl]) | (rw [pm_foldl2]) | (rw [pd_foldl2])))

@[simp] theorem State.breachTick_frame (s : State) (breach : Bool) (rank : Nat) (dy : Nat) (proof : Option (Nat × Nat)) :
    (State.breachTick s breach rank dy proof).prs.pmem = s.prs.pmem ∧ (State.breachTick s breach rank dy proof).pending = s.pending := by
  simp [State.breachTick, *]

@[simp] theorem State.limiterOff_frame (s : State) (v : Nat) :
    (State.limiterOff s v).prs.pmem = s.prs.pmem ∧ (State.limiterOff s v).pending = s.pending := by
  simp [State.limiterOff, *]

@[simp] theorem State.limiter_frame (s : State) (v : Nat) :
    (State.limiter s v).prs.pmem = s.prs.pmem ∧ (State.limiter s v).pending = s.pending := by
  simp [State.limiter, *]

@[simp] theorem State.busSet_frame (s : State) (v : Nat) :
    (State.busSet s v).prs.pmem = s.prs.pmem ∧ (State.busSet s v).pending = s.pending := by
  simp [State.busSet, *]

@[simp] theorem State.storageRefs_frame (s : State) :
    (State.storageRefs s).prs.pmem = s.prs.pmem ∧ (State.storageRefs s).pending = s.pending := by
  simp [State.storageRefs, *]

@[simp] theorem State.phaseLaw_frame (s : State) (q : Nat) (gu : Int) :
    (State.phaseLaw s q gu).prs.pmem = s.prs.pmem ∧ (State.phaseLaw s q gu).pending = s.pending := by
  simp [State.phaseLaw, *]

@[simp] theorem State.lawBody_frame (s : State) (plain : Bool) (v : Nat) :
    (State.lawBody s plain v).prs.pmem = s.prs.pmem ∧ (State.lawBody s plain v).pending = s.pending := by
  simp [State.lawBody, *]

@[simp] theorem State.protect_frame (s : State) :
    (State.protect s).prs.pmem = s.prs.pmem ∧ (State.protect s).pending = s.pending := by
  simp [State.protect, *] <;> (repeat' (first | apply And.intro | intro _ | (simp [*]; done) | split | (rw [pm_foldl]) | (rw [pd_foldl]) | (rw [pm_foldl2]) | (rw [pd_foldl2])))

@[simp] theorem State.law_frame (s : State) :
    (State.law s).prs.pmem = s.prs.pmem ∧ (State.law s).pending = s.pending := by
  simp [State.law, *] <;> (repeat' (first | apply And.intro | intro _ | (simp [*]; done) | split | (rw [pm_foldl]) | (rw [pd_foldl]) | (rw [pm_foldl2]) | (rw [pd_foldl2])))

@[simp] theorem State.overrun_frame (s : State) (dur : Nat) :
    (State.overrun s dur).prs.pmem = s.prs.pmem ∧ (State.overrun s dur).pending = s.pending := by
  simp [State.overrun, *]

@[simp] theorem State.lawTimed_frame (s : State) (cyc : Nat) (ls : List Nat) :
    (State.lawTimed s cyc ls).prs.pmem = s.prs.pmem ∧ (State.lawTimed s cyc ls).pending = s.pending := by
  simp [State.lawTimed, *]

@[simp] theorem State.sampleCut_frame (s : State) (cyc : Nat) (ls : List Nat) :
    (State.sampleCut s cyc ls).prs.pmem = s.prs.pmem ∧ (State.sampleCut s cyc ls).pending = s.pending := by
  simp [State.sampleCut, *]

@[simp] theorem State.outputLatch_frame (s : State) :
    (State.outputLatch s).prs.pmem = s.prs.pmem ∧ (State.outputLatch s).pending = s.pending := by
  simp [State.outputLatch, *]

@[simp] theorem State.putPlanBlock_frame (s : State) (k : Nat) :
    (State.putPlanBlock s k).pending = s.pending := by
  simp [State.putPlanBlock, *]

@[simp] theorem State.planBegin_frame (s : State) (i : Nat) (k : Nat) :
    (State.planBegin s i k).pending = s.pending := by
  simp [State.planBegin, *] <;> (repeat' (first | apply And.intro | intro _ | (simp [*]; done) | split | (rw [pm_foldl]) | (rw [pd_foldl]) | (rw [pm_foldl2]) | (rw [pd_foldl2])))

@[simp] theorem State.beginRuns_frame (s : State) (k : Nat) :
    (State.beginRuns s k).pending = s.pending := by
  simp [State.beginRuns, *]

@[simp] theorem State.takeInputs_frame (s : State) (k : Nat) :
    (State.takeInputs s k).prs.pmem = s.prs.pmem ∧ (State.takeInputs s k).pending = s.pending := by
  simp [State.takeInputs, *]

@[simp] theorem State.openOrNot_frame (s : State) (k : Nat) :
    (State.openOrNot s k).pending = s.pending := by
  simp [State.openOrNot, *]

@[simp] theorem State.formesDue_frame (s : State) :
    (State.formesDue s).pending = s.pending := by
  simp [State.formesDue, *] <;> (repeat' (first | apply And.intro | intro _ | (simp [*]; done) | split | (rw [pm_foldl]) | (rw [pd_foldl]) | (rw [pm_foldl2]) | (rw [pd_foldl2])))

@[simp] theorem State.beginAnew_frame (s : State) (i : Nat) :
    (State.beginAnew s i).pending = s.pending := by
  simp [State.beginAnew, *]

@[simp] theorem State.cycleStart_frame (s : State) :
    (State.cycleStart s).pending = s.pending := by
  simp [State.cycleStart, *]

@[simp] theorem State.putReg_frame (s : State) (off : Nat) (idx : Nat) (v : Nat) :
    (State.putReg s off idx v).prs.pmem = s.prs.pmem ∧ (State.putReg s off idx v).pending = s.pending := by
  simp [State.putReg, *] <;> (repeat' (first | apply And.intro | intro _ | (simp [*]; done) | split | (rw [pm_foldl]) | (rw [pd_foldl]) | (rw [pm_foldl2]) | (rw [pd_foldl2])))

@[simp] theorem State.lawEvt_frame (s : State) (old : Nat) (new : Nat) (why : Nat) :
    (State.lawEvt s old new why).prs.pmem = s.prs.pmem ∧ (State.lawEvt s old new why).pending = s.pending := by
  simp [State.lawEvt, *]

@[simp] theorem State.lawTo_frame (s : State) (new : Nat) (why : Nat) :
    (State.lawTo s new why).prs.pmem = s.prs.pmem ∧ (State.lawTo s new why).pending = s.pending := by
  simp [State.lawTo, *]

@[simp] theorem State.applyRec_frame (s : State) (r : ChgRec) :
    (State.applyRec s r).2.prs.pmem = s.prs.pmem ∧ (State.applyRec s r).2.pending = s.pending := by
  simp [State.applyRec, *] <;> (repeat' (first | apply And.intro | intro _ | (simp [*]; done) | split | (rw [pm_foldl]) | (rw [pd_foldl]) | (rw [pm_foldl2]) | (rw [pd_foldl2])))

@[simp] theorem State.applyStep_frame (s : State) (st : List ChgRec) :
    (State.applyStep s st).2.prs.pmem = s.prs.pmem ∧ (State.applyStep s st).2.pending = s.pending := by
  simp [State.applyStep, *]

@[simp] theorem State.undoRec_frame (s : State) (halted : Bool) (u : Undo) :
    (State.undoRec s halted u).prs.pmem = s.prs.pmem ∧ (State.undoRec s halted u).pending = s.pending := by
  simp [State.undoRec, *] <;> (repeat' (first | apply And.intro | intro _ | (simp [*]; done) | split | (rw [pm_foldl]) | (rw [pd_foldl]) | (rw [pm_foldl2]) | (rw [pd_foldl2])))

@[simp] theorem State.afterLists_frame (s : State) :
    (State.afterLists s).prs.pmem = s.prs.pmem ∧ (State.afterLists s).pending = s.pending := by
  simp [State.afterLists, *] <;> (repeat' (first | apply And.intro | intro _ | (simp [*]; done) | split | (rw [pm_foldl]) | (rw [pd_foldl]) | (rw [pm_foldl2]) | (rw [pd_foldl2])))

@[simp] theorem State.afterOpens_frame (s : State) (st : List ChgRec) :
    (State.afterOpens s st).prs.pmem = s.prs.pmem ∧ (State.afterOpens s st).pending = s.pending := by
  simp [State.afterOpens, *]

@[simp] theorem State.listStage_frame (s : State) (r : Nat) (opcode : Nat) (target : Nat) (old : Nat) (new : Nat) (digest : Bool) (l : ListIn) :
    (State.listStage s r opcode target old new digest l).2.prs.pmem = s.prs.pmem ∧ (State.listStage s r opcode target old new digest l).2.pending = s.pending := by
  simp [State.listStage, *]

@[simp] theorem State.submit_frame (s : State) (r : Nat) (opcode : Nat) (target : Nat) (old : Nat) (new : Nat) (digest : Bool) (l : ListIn) :
    (State.submit s r opcode target old new digest l).s.prs.pmem = s.prs.pmem ∧ (State.submit s r opcode target old new digest l).s.pending = s.pending := by
  simp [State.submit, *] <;> (repeat' (first | apply And.intro | intro _ | (simp [*]; done) | split | (rw [pm_foldl]) | (rw [pd_foldl]) | (rw [pm_foldl2]) | (rw [pd_foldl2])))

@[simp] theorem State.wref_frame (s : State) (off : Nat) (why : Nat) :
    (State.wref s off why).prs.pmem = s.prs.pmem ∧ (State.wref s off why).pending = s.pending := by
  simp [State.wref, *]

@[simp] theorem State.chsWrite_frame (s : State) (off : Nat) (v : Nat) :
    (State.chsWrite s off v).prs.pmem = s.prs.pmem ∧ (State.chsWrite s off v).pending = s.pending := by
  simp [State.chsWrite, *] <;> (repeat' (first | apply And.intro | intro _ | (simp [*]; done) | split | (rw [pm_foldl]) | (rw [pd_foldl]) | (rw [pm_foldl2]) | (rw [pd_foldl2])))

@[simp] theorem State.listMod_frame (s : State) (f : ChgList → ChgList) :
    (State.listMod s f).prs.pmem = s.prs.pmem ∧ (State.listMod s f).pending = s.pending := by
  simp [State.listMod, *]

@[simp] theorem State.listDone_frame (s : State) (outcome : Nat) (failure : Nat) :
    (State.listDone s outcome failure).prs.pmem = s.prs.pmem ∧ (State.listDone s outcome failure).pending = s.pending := by
  simp [State.listDone, *] <;> (repeat' (first | apply And.intro | intro _ | (simp [*]; done) | split | (rw [pm_foldl]) | (rw [pd_foldl]) | (rw [pm_foldl2]) | (rw [pd_foldl2])))

@[simp] theorem State.listBack_frame (s : State) (outcome : Nat) (failure : Nat) :
    (State.listBack s outcome failure).prs.pmem = s.prs.pmem ∧ (State.listBack s outcome failure).pending = s.pending := by
  simp [State.listBack, *] <;> (repeat' (first | apply And.intro | intro _ | (simp [*]; done) | split | (rw [pm_foldl]) | (rw [pd_foldl]) | (rw [pm_foldl2]) | (rw [pd_foldl2])))

@[simp] theorem State.listStep_frame (s : State) :
    (State.listStep s).prs.pmem = s.prs.pmem ∧ (State.listStep s).pending = s.pending := by
  simp [State.listStep, *] <;> (repeat' (first | apply And.intro | intro _ | (simp [*]; done) | split | (rw [pm_foldl]) | (rw [pd_foldl]) | (rw [pm_foldl2]) | (rw [pd_foldl2])))

@[simp] theorem State.listUndo_frame (s : State) (l : ChgList) (outcome : Nat) (failure : Nat) :
    (State.listUndo s l outcome failure).prs.pmem = s.prs.pmem ∧ (State.listUndo s l outcome failure).pending = s.pending := by
  simp [State.listUndo, *] <;> (repeat' (first | apply And.intro | intro _ | (simp [*]; done) | split | (rw [pm_foldl]) | (rw [pd_foldl]) | (rw [pm_foldl2]) | (rw [pd_foldl2])))

@[simp] theorem State.listHold_frame (s : State) :
    (State.listHold s).prs.pmem = s.prs.pmem ∧ (State.listHold s).pending = s.pending := by
  simp [State.listHold, *]

@[simp] theorem State.listTick_frame (s : State) (burstEnded : Bool) :
    (State.listTick s burstEnded).prs.pmem = s.prs.pmem ∧ (State.listTick s burstEnded).pending = s.pending := by
  simp [State.listTick, *] <;> (repeat' (first | apply And.intro | intro _ | (simp [*]; done) | split | (rw [pm_foldl]) | (rw [pd_foldl]) | (rw [pm_foldl2]) | (rw [pd_foldl2])))

@[simp] theorem State.listDiscard_frame (s : State) (failure : Nat) :
    (State.listDiscard s failure).prs.pmem = s.prs.pmem ∧ (State.listDiscard s failure).pending = s.pending := by
  simp [State.listDiscard, *]

@[simp] theorem State.bankPut_frame (s : State) (b : List Byte) :
    (State.bankPut s b).prs.pmem = s.prs.pmem ∧ (State.bankPut s b).pending = s.pending := by
  simp [State.bankPut, *]

end Sys2Proof.Machine
end

