-- ==== Sys2Proof/Laws/FrameRings.lean ====
section
/-!
SUPPORT. Frames of the storage rings, the rack and the seats: each function keeps the queue, and the memory of the Press where it stores nothing.
-/
namespace Sys2Proof.Machine
set_option linter.all false

@[simp] theorem State.estMod_frame (s : State) (f : EstNv → EstNv) :
    (State.estMod s f).prs.pmem = s.prs.pmem ∧ (State.estMod s f).pending = s.pending := by
  simp [State.estMod, *]

@[simp] theorem State.recMod_frame (s : State) (st : Nat) (f : StrRec → StrRec) :
    (State.recMod s st f).prs.pmem = s.prs.pmem ∧ (State.recMod s st f).pending = s.pending := by
  simp [State.recMod, *] <;> (repeat' (first | apply And.intro | intro _ | (simp [*]; done) | split | (rw [pm_foldl]) | (rw [pd_foldl]) | (rw [pm_foldl2]) | (rw [pd_foldl2])))

@[simp] theorem State.bringMod_frame (s : State) (st : Nat) (f : BRing → BRing) :
    (State.bringMod s st f).prs.pmem = s.prs.pmem ∧ (State.bringMod s st f).pending = s.pending := by
  simp [State.bringMod, *]

@[simp] theorem State.nodeMod_frame (s : State) (st : Nat) (a : Nat) (f : NodeX → NodeX) :
    (State.nodeMod s st a f).prs.pmem = s.prs.pmem ∧ (State.nodeMod s st a f).pending = s.pending := by
  simp [State.nodeMod, *]

@[simp] theorem State.strRegs_frame (s : State) (st : Nat) :
    (State.strRegs s st).prs.pmem = s.prs.pmem ∧ (State.strRegs s st).pending = s.pending := by
  simp [State.strRegs, *]

@[simp] theorem State.putSoc_frame (s : State) (st : Nat) :
    (State.putSoc s st).prs.pmem = s.prs.pmem ∧ (State.putSoc s st).pending = s.pending := by
  simp [State.putSoc, *]

@[simp] theorem State.putVolt_frame (s : State) (st : Nat) :
    (State.putVolt s st).prs.pmem = s.prs.pmem ∧ (State.putVolt s st).pending = s.pending := by
  simp [State.putVolt, *]

@[simp] theorem State.limitKinds_frame (s : State) (st : Nat) (now : List (Nat × Nat × Int)) :
    (State.limitKinds s st now).prs.pmem = s.prs.pmem ∧ (State.limitKinds s st now).pending = s.pending := by
  simp [State.limitKinds, *]

@[simp] theorem State.putLimits_frame (s : State) (st : Nat) :
    (State.putLimits s st).prs.pmem = s.prs.pmem ∧ (State.putLimits s st).pending = s.pending := by
  simp [State.putLimits, *] <;> (repeat' (first | apply And.intro | intro _ | (simp [*]; done) | split | (rw [pm_foldl]) | (rw [pd_foldl]) | (rw [pm_foldl2]) | (rw [pd_foldl2])))

@[simp] theorem State.strUpdate_frame (s : State) (st : Nat) :
    (State.strUpdate s st).prs.pmem = s.prs.pmem ∧ (State.strUpdate s st).pending = s.pending := by
  simp [State.strUpdate, *]

@[simp] theorem State.setEarly_frame (s : State) (st : Nat) (b : Bool) :
    (State.setEarly s st b).prs.pmem = s.prs.pmem ∧ (State.setEarly s st b).pending = s.pending := by
  simp [State.setEarly, *]

@[simp] theorem State.setConf_frame (s : State) (st : Nat) (b : Bool) :
    (State.setConf s st b).prs.pmem = s.prs.pmem ∧ (State.setConf s st b).pending = s.pending := by
  simp [State.setConf, *]

@[simp] theorem State.restAbort_frame (s : State) (st : Nat) :
    (State.restAbort s st).prs.pmem = s.prs.pmem ∧ (State.restAbort s st).pending = s.pending := by
  simp [State.restAbort, *]

@[simp] theorem State.restTest_frame (s : State) (st : Nat) (id : Nat) (i : Option Int) :
    (State.restTest s st id i).prs.pmem = s.prs.pmem ∧ (State.restTest s st id i).pending = s.pending := by
  simp [State.restTest, *]

@[simp] theorem State.learnR0_frame (s : State) (st id : Nat) (iTr : Int) :
    (State.learnR0 s st id iTr).prs.pmem = s.prs.pmem ∧ (State.learnR0 s st id iTr).pending = s.pending := by
  simp [State.learnR0, *]

@[simp] theorem State.cyclesKeep_frame (s : State) (st : Nat) :
    (State.cyclesKeep s st).prs.pmem = s.prs.pmem ∧ (State.cyclesKeep s st).pending = s.pending := by
  simp [State.cyclesKeep, *]

@[simp] theorem State.estTick_frame (s : State) :
    (State.estTick s).prs.pmem = s.prs.pmem ∧ (State.estTick s).pending = s.pending := by
  simp [State.estTick, *]

@[simp] theorem State.rawEntries_frame (s : State) :
    (State.rawEntries s).prs.pmem = s.prs.pmem ∧ (State.rawEntries s).pending = s.pending := by
  simp [State.rawEntries, *]

@[simp] theorem State.staleJudge_frame (s : State) (st : Nat) :
    (State.staleJudge s st).prs.pmem = s.prs.pmem ∧ (State.staleJudge s st).pending = s.pending := by
  simp [State.staleJudge, *]

@[simp] theorem State.strFresh_frame (s : State) (st : Nat) :
    (State.strFresh s st).prs.pmem = s.prs.pmem ∧ (State.strFresh s st).pending = s.pending := by
  simp [State.strFresh, *]

@[simp] theorem State.matchRecord_frame (s : State) (st : Nat) (code : Nat) (therm : Nat) (serial : Nat) :
    (State.matchRecord s st code therm serial).2.prs.pmem = s.prs.pmem ∧ (State.matchRecord s st code therm serial).2.pending = s.pending := by
  simp [State.matchRecord, *]

@[simp] theorem State.imposeTable_frame (s : State) (k : Nat) (pos : Nat) (b : List Byte) :
    (State.imposeTable s k pos b).prs.pmem = s.prs.pmem ∧ (State.imposeTable s k pos b).pending = s.pending := by
  simp [State.imposeTable, *] <;> (repeat' (first | apply And.intro | intro _ | (simp [*]; done) | split | (rw [pm_foldl]) | (rw [pd_foldl]) | (rw [pm_foldl2]) | (rw [pd_foldl2])))

@[simp] theorem State.bupSend_frame (s : State) (st : Nat) (port : Nat) (cmd : Nat) (addr : Nat) (flags : Nat) (args : List Byte) (recs : List Byte) :
    (State.bupSend s st port cmd addr flags args recs).prs.pmem = s.prs.pmem ∧ (State.bupSend s st port cmd addr flags args recs).pending = s.pending := by
  simp [State.bupSend, *]

@[simp] theorem State.bupAll_frame (s : State) (st : Nat) (cmd : Nat) (addr : Nat) (args : List Byte) (recs : List Byte) :
    (State.bupAll s st cmd addr args recs).prs.pmem = s.prs.pmem ∧ (State.bupAll s st cmd addr args recs).pending = s.pending := by
  simp [State.bupAll, *]

@[simp] theorem State.ringEvt_frame (s : State) (st : Nat) :
    (State.ringEvt s st).prs.pmem = s.prs.pmem ∧ (State.ringEvt s st).pending = s.pending := by
  simp [State.ringEvt, *]

@[simp] theorem State.putBit_frame (s : State) (f : Fld) (k : Nat) (b : Bool) :
    (State.putBit s f k b).prs.pmem = s.prs.pmem ∧ (State.putBit s f k b).pending = s.pending := by
  simp [State.putBit, *]

@[simp] theorem State.ringTo_frame (s : State) (st : Nat) (v : Nat) :
    (State.ringTo s st v).prs.pmem = s.prs.pmem ∧ (State.ringTo s st v).pending = s.pending := by
  simp [State.ringTo, *]

@[simp] theorem State.ringYield_frame (s : State) (st : Nat) :
    (State.ringYield s st).prs.pmem = s.prs.pmem ∧ (State.ringYield s st).pending = s.pending := by
  simp [State.ringYield, *]

@[simp] theorem State.ringSeat_frame (s : State) (st : Nat) (flags : Nat) :
    (State.ringSeat s st flags).prs.pmem = s.prs.pmem ∧ (State.ringSeat s st flags).pending = s.pending := by
  simp [State.ringSeat, *]

@[simp] theorem State.bupTake_frame (s : State) (st : Nat) (f : List Byte) (k : Nat → Nat → Nat → List Byte → List Byte → State → State) (h3 : ∀ y0 y1 y2 y3 y4 y5, (k y0 y1 y2 y3 y4 y5).prs.pmem = y5.prs.pmem ∧ (k y0 y1 y2 y3 y4 y5).pending = y5.pending) :
    (State.bupTake s st f k).prs.pmem = s.prs.pmem ∧ (State.bupTake s st f k).pending = s.pending := by
  simp [State.bupTake, *]

@[simp] theorem State.setRing_frame (s : State) (st : Nat) (b : Bool) :
    (State.setRing s st b).prs.pmem = s.prs.pmem ∧ (State.setRing s st b).pending = s.pending := by
  simp [State.setRing, *]

@[simp] theorem State.ringJudge_frame (s : State) (st : Nat) :
    (State.ringJudge s st).prs.pmem = s.prs.pmem ∧ (State.ringJudge s st).pending = s.pending := by
  simp [State.ringJudge, *]

@[simp] theorem State.noRecord_frame (s : State) (st : Nat) (a : Nat) :
    (State.noRecord s st a).prs.pmem = s.prs.pmem ∧ (State.noRecord s st a).pending = s.pending := by
  simp [State.noRecord, *]

@[simp] theorem State.cfgSend_frame (s : State) (st : Nat) :
    (State.cfgSend s st).prs.pmem = s.prs.pmem ∧ (State.cfgSend s st).pending = s.pending := by
  simp [State.cfgSend, *] <;> (repeat' (first | apply And.intro | intro _ | (simp [*]; done) | split | (rw [pm_foldl]) | (rw [pd_foldl]) | (rw [pm_foldl2]) | (rw [pd_foldl2])))

@[simp] theorem State.cfgAdd_frame (s : State) (st : Nat) (as : List Nat) :
    (State.cfgAdd s st as).prs.pmem = s.prs.pmem ∧ (State.cfgAdd s st as).pending = s.pending := by
  simp [State.cfgAdd, *]

@[simp] theorem State.cfgNext_frame (s : State) (st : Nat) :
    (State.cfgNext s st).prs.pmem = s.prs.pmem ∧ (State.cfgNext s st).pending = s.pending := by
  simp [State.cfgNext, *]

@[simp] theorem State.enumSend_frame (s : State) (st : Nat) (port : Nat) (n : Nat) (mode : Nat) :
    (State.enumSend s st port n mode).prs.pmem = s.prs.pmem ∧ (State.enumSend s st port n mode).pending = s.pending := by
  simp [State.enumSend, *]

@[simp] theorem State.enumStart_frame (s : State) (st : Nat) :
    (State.enumStart s st).prs.pmem = s.prs.pmem ∧ (State.enumStart s st).pending = s.pending := by
  simp [State.enumStart, *]

@[simp] theorem State.enumFault_frame (s : State) (st : Nat) :
    (State.enumFault s st).prs.pmem = s.prs.pmem ∧ (State.enumFault s st).pending = s.pending := by
  simp [State.enumFault, *]

@[simp] theorem State.readIdentity_frame (s : State) (st : Nat) :
    (State.readIdentity s st).prs.pmem = s.prs.pmem ∧ (State.readIdentity s st).pending = s.pending := by
  simp [State.readIdentity, *] <;> (repeat' (first | apply And.intro | intro _ | (simp [*]; done) | split | (rw [pm_foldl]) | (rw [pd_foldl]) | (rw [pm_foldl2]) | (rw [pd_foldl2])))

@[simp] theorem State.retTone_frame (s : State) (st : Nat) (b : Bool) :
    (State.retTone s st b).prs.pmem = s.prs.pmem ∧ (State.retTone s st b).pending = s.pending := by
  simp [State.retTone, *]

@[simp] theorem State.enumHeld_frame (s : State) (st : Nat) (closed : Bool) :
    (State.enumHeld s st closed).prs.pmem = s.prs.pmem ∧ (State.enumHeld s st closed).pending = s.pending := by
  simp [State.enumHeld, *]

@[simp] theorem State.enumDone_frame (s : State) (st : Nat) (closed : Bool) :
    (State.enumDone s st closed).prs.pmem = s.prs.pmem ∧ (State.enumDone s st closed).pending = s.pending := by
  simp [State.enumDone, *]

@[simp] theorem State.takeEnum_frame (s : State) (st : Nat) (a : Nat) (rec_ : List Byte) :
    (State.takeEnum s st a rec_).prs.pmem = s.prs.pmem ∧ (State.takeEnum s st a rec_).pending = s.pending := by
  simp [State.takeEnum, *]

@[simp] theorem State.relayEnum_frame (s : State) (st : Nat) (port : Nat) (n : Nat) (mode : Nat) (delay : Nat) (back : Bool) (rec_ : List Byte) :
    (State.relayEnum s st port n mode delay back rec_).prs.pmem = s.prs.pmem ∧ (State.relayEnum s st port n mode delay back rec_).pending = s.pending := by
  simp [State.relayEnum, *]

@[simp] theorem State.setMaster_frame (s : State) (st : Nat) (b : Bool) :
    (State.setMaster s st b).prs.pmem = s.prs.pmem ∧ (State.setMaster s st b).pending = s.pending := by
  simp [State.setMaster, *]

@[simp] theorem State.splitSend_frame (s : State) (st : Nat) (k : Nat) (b : Bool) :
    (State.splitSend s st k b).prs.pmem = s.prs.pmem ∧ (State.splitSend s st k b).pending = s.pending := by
  simp [State.splitSend, *]

@[simp] theorem State.splitNow_frame (s : State) (st : Nat) :
    (State.splitNow s st).prs.pmem = s.prs.pmem ∧ (State.splitNow s st).pending = s.pending := by
  simp [State.splitNow, *]

@[simp] theorem State.imposeTables_frame (s : State) :
    (State.imposeTables s).prs.pmem = s.prs.pmem ∧ (State.imposeTables s).pending = s.pending := by
  simp [State.imposeTables, *] <;> (repeat' (first | apply And.intro | intro _ | (simp [*]; done) | split | (rw [pm_foldl]) | (rw [pd_foldl]) | (rw [pm_foldl2]) | (rw [pd_foldl2])))

@[simp] theorem State.snapPoint_frame (s : State) (st : Nat) :
    (State.snapPoint s st).prs.pmem = s.prs.pmem ∧ (State.snapPoint s st).pending = s.pending := by
  simp [State.snapPoint, *]

@[simp] theorem State.snapDue_frame (s : State) (st : Nat) :
    (State.snapDue s st).prs.pmem = s.prs.pmem ∧ (State.snapDue s st).pending = s.pending := by
  simp [State.snapDue, *]

@[simp] theorem State.relaySnap_frame (s : State) (st : Nat) (id : Nat) (nxt : Nat) (mode : Nat) :
    (State.relaySnap s st id nxt mode).prs.pmem = s.prs.pmem ∧ (State.relaySnap s st id nxt mode).pending = s.pending := by
  simp [State.relaySnap, *]

@[simp] theorem State.wireEvt_frame (s : State) (st : Nat) (a : Nat) (w : Nat) (open_ : Nat) (drop : Nat) :
    (State.wireEvt s st a w open_ drop).prs.pmem = s.prs.pmem ∧ (State.wireEvt s st a w open_ drop).pending = s.pending := by
  simp [State.wireEvt, *]

@[simp] theorem State.wireTest_frame (s : State) (st : Nat) (a : Nat) (w : Nat) (before : Nat) (now : Nat) :
    (State.wireTest s st a w before now).prs.pmem = s.prs.pmem ∧ (State.wireTest s st a w before now).pending = s.pending := by
  simp [State.wireTest, *] <;> (repeat' (first | apply And.intro | intro _ | (simp [*]; done) | split | (rw [pm_foldl]) | (rw [pd_foldl]) | (rw [pm_foldl2]) | (rw [pd_foldl2])))

@[simp] theorem State.owRecord_frame (s : State) (st : Nat) (a : Nat) (set : Nat) (fine : List Nat) :
    (State.owRecord s st a set fine).prs.pmem = s.prs.pmem ∧ (State.owRecord s st a set fine).pending = s.pending := by
  simp [State.owRecord, *] <;> (repeat' (first | apply And.intro | intro _ | (simp [*]; done) | split | (rw [pm_foldl]) | (rw [pd_foldl]) | (rw [pm_foldl2]) | (rw [pd_foldl2])))

@[simp] theorem State.pathJudge_frame (s : State) (st : Nat) (a : Nat) (agree : Bool) (fine : Nat) (coarse : Nat) :
    (State.pathJudge s st a agree fine coarse).prs.pmem = s.prs.pmem ∧ (State.pathJudge s st a agree fine coarse).pending = s.pending := by
  simp [State.pathJudge, *]

@[simp] theorem State.cellRecord_frame (s : State) (st : Nat) (a : Nat) (x : SnapX) (rec_ : List Byte) :
    (State.cellRecord s st a x rec_).prs.pmem = s.prs.pmem ∧ (State.cellRecord s st a x rec_).pending = s.pending := by
  simp [State.cellRecord, *]

@[simp] theorem State.nodeRecord_frame (s : State) (st : Nat) (rec_ : List Byte) :
    (State.nodeRecord s st rec_).prs.pmem = s.prs.pmem ∧ (State.nodeRecord s st rec_).pending = s.pending := by
  simp [State.nodeRecord, *] <;> (repeat' (first | apply And.intro | intro _ | (simp [*]; done) | split | (rw [pm_foldl]) | (rw [pd_foldl]) | (rw [pm_foldl2]) | (rw [pd_foldl2])))

@[simp] theorem State.fullSet_frame (s : State) (st : Nat) :
    (State.fullSet s st).prs.pmem = s.prs.pmem ∧ (State.fullSet s st).pending = s.pending := by
  simp [State.fullSet, *]

@[simp] theorem State.putGroup_frame (s : State) (st : Nat) :
    (State.putGroup s st).prs.pmem = s.prs.pmem ∧ (State.putGroup s st).pending = s.pending := by
  simp [State.putGroup, *]

@[simp] theorem State.restEnd_frame (s : State) (st : Nat) :
    (State.restEnd s st).prs.pmem = s.prs.pmem ∧ (State.restEnd s st).pending = s.pending := by
  simp [State.restEnd, *] <;> (repeat' (first | apply And.intro | intro _ | (simp [*]; done) | split | (rw [pm_foldl]) | (rw [pd_foldl]) | (rw [pm_foldl2]) | (rw [pd_foldl2])))

@[simp] theorem State.owAsk_frame (s : State) (st : Nat) (set : Nat) :
    (State.owAsk s st set).prs.pmem = s.prs.pmem ∧ (State.owAsk s st set).pending = s.pending := by
  simp [State.owAsk, *]

@[simp] theorem State.snapTick_frame (s : State) (st : Nat) :
    (State.snapTick s st).prs.pmem = s.prs.pmem ∧ (State.snapTick s st).pending = s.pending := by
  simp [State.snapTick, *] <;> (repeat' (first | apply And.intro | intro _ | (simp [*]; done) | split | (rw [pm_foldl]) | (rw [pd_foldl]) | (rw [pm_foldl2]) | (rw [pd_foldl2])))

@[simp] theorem State.echoTick_frame (s : State) (st : Nat) :
    (State.echoTick s st).prs.pmem = s.prs.pmem ∧ (State.echoTick s st).pending = s.pending := by
  simp [State.echoTick, *] <;> (repeat' (first | apply And.intro | intro _ | (simp [*]; done) | split | (rw [pm_foldl]) | (rw [pd_foldl]) | (rw [pm_foldl2]) | (rw [pd_foldl2])))

@[simp] theorem State.retryTick_frame (s : State) (st : Nat) :
    (State.retryTick s st).prs.pmem = s.prs.pmem ∧ (State.retryTick s st).pending = s.pending := by
  simp [State.retryTick, *] <;> (repeat' (first | apply And.intro | intro _ | (simp [*]; done) | split | (rw [pm_foldl]) | (rw [pd_foldl]) | (rw [pm_foldl2]) | (rw [pd_foldl2])))

@[simp] theorem State.fastTick_frame (s : State) (st : Nat) :
    (State.fastTick s st).prs.pmem = s.prs.pmem ∧ (State.fastTick s st).pending = s.pending := by
  simp [State.fastTick, *]

@[simp] theorem State.ringTick_frame (s : State) (st : Nat) :
    (State.ringTick s st).prs.pmem = s.prs.pmem ∧ (State.ringTick s st).pending = s.pending := by
  simp [State.ringTick, *]

@[simp] theorem State.fenMod_frame (s : State) (f : Fen → Fen) :
    (State.fenMod s f).prs.pmem = s.prs.pmem ∧ (State.fenMod s f).pending = s.pending := by
  simp [State.fenMod, *]

@[simp] theorem State.putKey_frame (s : State) (slot : Nat) (k : Option (List Byte)) :
    (State.putKey s slot k).prs.pmem = s.prs.pmem ∧ (State.putKey s slot k).pending = s.pending := by
  simp [State.putKey, *]

@[simp] theorem State.imposeKey_frame (s : State) (slot : Nat) (k : Option (List Byte)) :
    (State.imposeKey s slot k).2.prs.pmem = s.prs.pmem ∧ (State.imposeKey s slot k).2.pending = s.pending := by
  simp [State.imposeKey, *]

@[simp] theorem State.imposeKeytx_frame (s : State) (slot : Nat) :
    (State.imposeKeytx s slot).2.prs.pmem = s.prs.pmem ∧ (State.imposeKeytx s slot).2.pending = s.pending := by
  simp [State.imposeKeytx, *]

@[simp] theorem State.takeSeq_frame (s : State) :
    (State.takeSeq s).2.prs.pmem = s.prs.pmem ∧ (State.takeSeq s).2.pending = s.pending := by
  simp [State.takeSeq, *] <;> (repeat' (first | apply And.intro | intro _ | (simp [*]; done) | split | (rw [pm_foldl]) | (rw [pd_foldl]) | (rw [pm_foldl2]) | (rw [pd_foldl2])))

@[simp] theorem State.sendOut_frame (s : State) (x : FenTx) :
    (State.sendOut s x).2.prs.pmem = s.prs.pmem ∧ (State.sendOut s x).2.pending = s.pending := by
  simp [State.sendOut, *] <;> (repeat' (first | apply And.intro | intro _ | (simp [*]; done) | split | (rw [pm_foldl]) | (rw [pd_foldl]) | (rw [pm_foldl2]) | (rw [pd_foldl2])))

@[simp] theorem State.backoff_frame (s : State) (cw : Nat) :
    (State.backoff s cw).2.prs.pmem = s.prs.pmem ∧ (State.backoff s cw).2.pending = s.pending := by
  simp [State.backoff, *]

@[simp] theorem State.freeze_frame (s : State) :
    (State.freeze s).prs.pmem = s.prs.pmem ∧ (State.freeze s).pending = s.pending := by
  simp [State.freeze, *] <;> (repeat' (first | apply And.intro | intro _ | (simp [*]; done) | split | (rw [pm_foldl]) | (rw [pd_foldl]) | (rw [pm_foldl2]) | (rw [pd_foldl2])))

@[simp] theorem State.sendFrame_frame (s : State) (x : FenTx) :
    (State.sendFrame s x).2.prs.pmem = s.prs.pmem ∧ (State.sendFrame s x).2.pending = s.pending := by
  simp [State.sendFrame, *]

@[simp] theorem State.queueFrame_frame (s : State) (typ : Nat) (pri : Nat) (payload : List Byte) :
    (State.queueFrame s typ pri payload).prs.pmem = s.prs.pmem ∧ (State.queueFrame s typ pri payload).pending = s.pending := by
  simp [State.queueFrame, *]

@[simp] theorem State.sendNext_frame (s : State) :
    (State.sendNext s).prs.pmem = s.prs.pmem ∧ (State.sendNext s).pending = s.pending := by
  simp [State.sendNext, *] <;> (repeat' (first | apply And.intro | intro _ | (simp [*]; done) | split | (rw [pm_foldl]) | (rw [pd_foldl]) | (rw [pm_foldl2]) | (rw [pd_foldl2])))

@[simp] theorem State.access_frame (s : State) :
    (State.access s).prs.pmem = s.prs.pmem ∧ (State.access s).pending = s.pending := by
  simp [State.access, *]

@[simp] theorem State.senseBusy_frame (s : State) :
    (State.senseBusy s).prs.pmem = s.prs.pmem ∧ (State.senseBusy s).pending = s.pending := by
  simp [State.senseBusy, *]

@[simp] theorem State.carrierSense_frame (s : State) (level : Option Int) :
    (State.carrierSense s level).prs.pmem = s.prs.pmem ∧ (State.carrierSense s level).pending = s.pending := by
  simp [State.carrierSense, *] <;> (repeat' (first | apply And.intro | intro _ | (simp [*]; done) | split | (rw [pm_foldl]) | (rw [pd_foldl]) | (rw [pm_foldl2]) | (rw [pd_foldl2])))

@[simp] theorem State.takeAck_frame (s : State) (src : Nat) (seq : Nat) :
    (State.takeAck s src seq).prs.pmem = s.prs.pmem ∧ (State.takeAck s src seq).pending = s.pending := by
  simp [State.takeAck, *] <;> (repeat' (first | apply And.intro | intro _ | (simp [*]; done) | split | (rw [pm_foldl]) | (rw [pd_foldl]) | (rw [pm_foldl2]) | (rw [pd_foldl2])))

@[simp] theorem State.putMask_frame (s : State) (eff : Nat) (m : Nat) :
    (State.putMask s eff m).prs.pmem = s.prs.pmem ∧ (State.putMask s eff m).pending = s.pending := by
  simp [State.putMask, *]

@[simp] theorem State.maskDue_frame (s : State) (n : Nat) :
    (State.maskDue s n).prs.pmem = s.prs.pmem ∧ (State.maskDue s n).pending = s.pending := by
  simp [State.maskDue, *] <;> (repeat' (first | apply And.intro | intro _ | (simp [*]; done) | split | (rw [pm_foldl]) | (rw [pd_foldl]) | (rw [pm_foldl2]) | (rw [pd_foldl2])))

@[simp] theorem State.maskJudge_frame (s : State) (n : Nat) :
    (State.maskJudge s n).prs.pmem = s.prs.pmem ∧ (State.maskJudge s n).pending = s.pending := by
  simp [State.maskJudge, *]

@[simp] theorem State.eraseTick_frame (s : State) :
    (State.eraseTick s).prs.pmem = s.prs.pmem ∧ (State.eraseTick s).pending = s.pending := by
  simp [State.eraseTick, *]

@[simp] theorem State.takeTones_frame (s : State) (src : Nat) (p : List Byte) :
    (State.takeTones s src p).prs.pmem = s.prs.pmem ∧ (State.takeTones s src p).pending = s.pending := by
  simp [State.takeTones, *]

@[simp] theorem State.toneReport_frame (s : State) (snr : List Int) :
    (State.toneReport s snr).prs.pmem = s.prs.pmem ∧ (State.toneReport s snr).pending = s.pending := by
  simp [State.toneReport, *]

@[simp] theorem State.grpMod_frame (s : State) (f : Grp → Grp) :
    (State.grpMod s f).prs.pmem = s.prs.pmem ∧ (State.grpMod s f).pending = s.pending := by
  simp [State.grpMod, *]

@[simp] theorem State.digestJudge_frame (s : State) :
    (State.digestJudge s).prs.pmem = s.prs.pmem ∧ (State.digestJudge s).pending = s.pending := by
  simp [State.digestJudge, *] <;> (repeat' (first | apply And.intro | intro _ | (simp [*]; done) | split | (rw [pm_foldl]) | (rw [pd_foldl]) | (rw [pm_foldl2]) | (rw [pd_foldl2])))

@[simp] theorem State.queueLeave_frame (s : State) (reason : Nat) :
    (State.queueLeave s reason).prs.pmem = s.prs.pmem ∧ (State.queueLeave s reason).pending = s.pending := by
  simp [State.queueLeave, *]

@[simp] theorem State.stopLead_frame (s : State) :
    (State.stopLead s).prs.pmem = s.prs.pmem ∧ (State.stopLead s).pending = s.pending := by
  simp [State.stopLead, *]

@[simp] theorem State.fenReady_frame (s : State) :
    (State.fenReady s).prs.pmem = s.prs.pmem ∧ (State.fenReady s).pending = s.pending := by
  simp [State.fenReady, *]

@[simp] theorem State.shareJudge_frame (s : State) :
    (State.shareJudge s).prs.pmem = s.prs.pmem ∧ (State.shareJudge s).pending = s.pending := by
  simp [State.shareJudge, *] <;> (repeat' (first | apply And.intro | intro _ | (simp [*]; done) | split | (rw [pm_foldl]) | (rw [pd_foldl]) | (rw [pm_foldl2]) | (rw [pd_foldl2])))

@[simp] theorem State.groupJudge_frame (s : State) :
    (State.groupJudge s).prs.pmem = s.prs.pmem ∧ (State.groupJudge s).pending = s.pending := by
  simp [State.groupJudge, *]

@[simp] theorem State.contractEffective_frame (s : State) :
    (State.contractEffective s).prs.pmem = s.prs.pmem ∧ (State.contractEffective s).pending = s.pending := by
  simp [State.contractEffective, *] <;> (repeat' (first | apply And.intro | intro _ | (simp [*]; done) | split | (rw [pm_foldl]) | (rw [pd_foldl]) | (rw [pm_foldl2]) | (rw [pd_foldl2])))

@[simp] theorem State.frameFrom_frame (s : State) (src : Nat) :
    (State.frameFrom s src).prs.pmem = s.prs.pmem ∧ (State.frameFrom s src).pending = s.pending := by
  simp [State.frameFrom, *]

@[simp] theorem State.takeReport_frame (s : State) (src : Nat) (p : List Byte) :
    (State.takeReport s src p).prs.pmem = s.prs.pmem ∧ (State.takeReport s src p).pending = s.pending := by
  simp [State.takeReport, *]

@[simp] theorem State.takeLeave_frame (s : State) (src : Nat) (p : List Byte) :
    (State.takeLeave s src p).prs.pmem = s.prs.pmem ∧ (State.takeLeave s src p).pending = s.pending := by
  simp [State.takeLeave, *]

@[simp] theorem State.shares_frame (s : State) (cs : List Nat) :
    (State.shares s cs).2.prs.pmem = s.prs.pmem ∧ (State.shares s cs).2.pending = s.pending := by
  simp [State.shares, *]

@[simp] theorem State.putClasses_frame (s : State) (cs : List Nat) :
    (State.putClasses s cs).prs.pmem = s.prs.pmem ∧ (State.putClasses s cs).pending = s.pending := by
  simp [State.putClasses, *]

@[simp] theorem State.shelfLeft_frame (s : State) (p : Nat) :
    (State.shelfLeft s p).prs.pmem = s.prs.pmem ∧ (State.shelfLeft s p).pending = s.pending := by
  simp [State.shelfLeft, *]

@[simp] theorem State.renew_frame (s : State) (n : Nat) (fresh : Bool) :
    (State.renew s n fresh).prs.pmem = s.prs.pmem ∧ (State.renew s n fresh).pending = s.pending := by
  simp [State.renew, *]

@[simp] theorem State.unack_frame (s : State) :
    (State.unack s).prs.pmem = s.prs.pmem ∧ (State.unack s).pending = s.pending := by
  simp [State.unack, *]

@[simp] theorem State.paceLost_frame (s : State) (num : Nat) (cause : Nat) :
    (State.paceLost s num cause).prs.pmem = s.prs.pmem ∧ (State.paceLost s num cause).pending = s.pending := by
  simp [State.paceLost, *] <;> (repeat' (first | apply And.intro | intro _ | (simp [*]; done) | split | (rw [pm_foldl]) | (rw [pd_foldl]) | (rw [pm_foldl2]) | (rw [pd_foldl2])))

@[simp] theorem State.takePace_frame (s : State) (p : List Byte) :
    (State.takePace s p).prs.pmem = s.prs.pmem ∧ (State.takePace s p).pending = s.pending := by
  simp [State.takePace, *]

@[simp] theorem State.putF_frame (s : State) (f : Nat) :
    (State.putF s f).prs.pmem = s.prs.pmem ∧ (State.putF s f).pending = s.pending := by
  simp [State.putF, *]

@[simp] theorem State.derateStart_frame (s : State) :
    (State.derateStart s).prs.pmem = s.prs.pmem ∧ (State.derateStart s).pending = s.pending := by
  simp [State.derateStart, *]

@[simp] theorem State.coolBits_frame (s : State) :
    (State.coolBits s).prs.pmem = s.prs.pmem ∧ (State.coolBits s).pending = s.pending := by
  simp [State.coolBits, *]

@[simp] theorem State.cooling_frame (s : State) (i : Nat) (failed : Bool) :
    (State.cooling s i failed).prs.pmem = s.prs.pmem ∧ (State.cooling s i failed).pending = s.pending := by
  simp [State.cooling, *]

@[simp] theorem State.rosMod_frame (s : State) (f : Ros → Ros) :
    (State.rosMod s f).prs.pmem = s.prs.pmem ∧ (State.rosMod s f).pending = s.pending := by
  simp [State.rosMod, *]

@[simp] theorem State.hbOutFrame_frame (s : State) :
    (State.hbOutFrame s).prs.pmem = s.prs.pmem ∧ (State.hbOutFrame s).pending = s.pending := by
  simp [State.hbOutFrame, *]

@[simp] theorem State.pcycOut_frame (s : State) (k : Nat) :
    (State.pcycOut s k).prs.pmem = s.prs.pmem ∧ (State.pcycOut s k).pending = s.pending := by
  simp [State.pcycOut, *]

@[simp] theorem State.loadLoops_frame (s : State) (p : List Byte) :
    (State.loadLoops s p).prs.pmem = s.prs.pmem ∧ (State.loadLoops s p).pending = s.pending := by
  simp [State.loadLoops, *]

@[simp] theorem State.loadJob_frame (s : State) (p : List Byte) (q : Nat) :
    (State.loadJob s p q).prs.pmem = s.prs.pmem ∧ (State.loadJob s p q).pending = s.pending := by
  simp [State.loadJob, *]

@[simp] theorem State.loadPhases_frame (s : State) (p : List Byte) :
    (State.loadPhases s p).prs.pmem = s.prs.pmem ∧ (State.loadPhases s p).pending = s.pending := by
  simp [State.loadPhases, *]

@[simp] theorem State.loadGal_frame (s : State) (p : List Byte) :
    (State.loadGal s p).prs.pmem = s.prs.pmem ∧ (State.loadGal s p).pending = s.pending := by
  simp [State.loadGal, *]

@[simp] theorem State.loadSeq_frame (s : State) (p : List Byte) :
    (State.loadSeq s p).prs.pmem = s.prs.pmem ∧ (State.loadSeq s p).pending = s.pending := by
  simp [State.loadSeq, *]

@[simp] theorem State.loadLists_frame (s : State) (p : List Byte) :
    (State.loadLists s p).prs.pmem = s.prs.pmem ∧ (State.loadLists s p).pending = s.pending := by
  simp [State.loadLists, *]

@[simp] theorem State.loadCopy_frame (s : State) (p : List Byte) :
    (State.loadCopy s p).prs.pmem = s.prs.pmem ∧ (State.loadCopy s p).pending = s.pending := by
  simp [State.loadCopy, *]

@[simp] theorem State.dutyCompare_frame (s : State) (n : Nat) :
    (State.dutyCompare s n).prs.pmem = s.prs.pmem ∧ (State.dutyCompare s n).pending = s.pending := by
  simp [State.dutyCompare, *] <;> (repeat' (first | apply And.intro | intro _ | (simp [*]; done) | split | (rw [pm_foldl]) | (rw [pd_foldl]) | (rw [pm_foldl2]) | (rw [pd_foldl2])))

@[simp] theorem State.seatRole_frame (s : State) (old : Nat) (new : Nat) (reason : Nat) (age : Nat) :
    (State.seatRole s old new reason age).prs.pmem = s.prs.pmem ∧ (State.seatRole s old new reason age).pending = s.pending := by
  simp [State.seatRole, *]

@[simp] theorem State.roleStage_frame (s : State) (v : Nat) :
    (State.roleStage s v).prs.pmem = s.prs.pmem ∧ (State.roleStage s v).pending = s.pending := by
  simp [State.roleStage, *]

@[simp] theorem State.masterAll_frame (s : State) (b : Bool) :
    (State.masterAll s b).prs.pmem = s.prs.pmem ∧ (State.masterAll s b).pending = s.pending := by
  simp [State.masterAll, *]

@[simp] theorem State.tokenFromWait_frame (s : State) :
    (State.tokenFromWait s).prs.pmem = s.prs.pmem ∧ (State.tokenFromWait s).pending = s.pending := by
  simp [State.tokenFromWait, *]

@[simp] theorem State.standbyRole_frame (s : State) :
    (State.standbyRole s).prs.pmem = s.prs.pmem ∧ (State.standbyRole s).pending = s.pending := by
  simp [State.standbyRole, *]

@[simp] theorem State.shadowRing_frame (s : State) (r : Nat) :
    (State.shadowRing s r).prs.pmem = s.prs.pmem ∧ (State.shadowRing s r).pending = s.pending := by
  simp [State.shadowRing, *]

@[simp] theorem State.shadowTake_frame (s : State) :
    (State.shadowTake s).prs.pmem = s.prs.pmem ∧ (State.shadowTake s).pending = s.pending := by
  simp [State.shadowTake, *]

@[simp] theorem State.tokenTake_frame (s : State) (reason : Nat) :
    (State.tokenTake s reason).prs.pmem = s.prs.pmem ∧ (State.tokenTake s reason).pending = s.pending := by
  simp [State.tokenTake, *] <;> (repeat' (first | apply And.intro | intro _ | (simp [*]; done) | split | (rw [pm_foldl]) | (rw [pd_foldl]) | (rw [pm_foldl2]) | (rw [pd_foldl2])))

@[simp] theorem State.tokenRelease_frame (s : State) (stage : Nat) (reason : Nat) :
    (State.tokenRelease s stage reason).prs.pmem = s.prs.pmem ∧ (State.tokenRelease s stage reason).pending = s.pending := by
  simp [State.tokenRelease, *]

@[simp] theorem State.handStart_frame (s : State) (kind : Nat) (st : Option Staged) :
    (State.handStart s kind st).prs.pmem = s.prs.pmem ∧ (State.handStart s kind st).pending = s.pending := by
  simp [State.handStart, *]

@[simp] theorem State.handEvt_frame (s : State) (kind : Nat) (outcome : Nat) (h : Nat) :
    (State.handEvt s kind outcome h).prs.pmem = s.prs.pmem ∧ (State.handEvt s kind outcome h).pending = s.pending := by
  simp [State.handEvt, *]

@[simp] theorem State.proveEnd_frame (s : State) (outcome : Nat) :
    (State.proveEnd s outcome).prs.pmem = s.prs.pmem ∧ (State.proveEnd s outcome).pending = s.pending := by
  simp [State.proveEnd, *] <;> (repeat' (first | apply And.intro | intro _ | (simp [*]; done) | split | (rw [pm_foldl]) | (rw [pd_foldl]) | (rw [pm_foldl2]) | (rw [pd_foldl2])))

@[simp] theorem State.handCancel_frame (s : State) :
    (State.handCancel s).prs.pmem = s.prs.pmem ∧ (State.handCancel s).pending = s.pending := by
  simp [State.handCancel, *] <;> (repeat' (first | apply And.intro | intro _ | (simp [*]; done) | split | (rw [pm_foldl]) | (rw [pd_foldl]) | (rw [pm_foldl2]) | (rw [pd_foldl2])))

@[simp] theorem State.proveReturn_frame (s : State) :
    (State.proveReturn s).prs.pmem = s.prs.pmem ∧ (State.proveReturn s).pending = s.pending := by
  simp [State.proveReturn, *]

end Sys2Proof.Machine
end

