-- ==== Sys2Proof/Laws/FrameModule.lean ====
section
/-!
SUPPORT. Frames of Errata, Colophon and the update: each function keeps the queue, and the memory of the Press where it stores nothing.
-/
namespace Sys2Proof.Machine
set_option linter.all false

@[simp] theorem State.colMod_frame (s : State) (f : Col → Col) :
    (State.colMod s f).prs.pmem = s.prs.pmem ∧ (State.colMod s f).pending = s.pending := by
  simp [State.colMod, *]

@[simp] theorem State.snapRecord_frame (s : State) (trig : Nat) (cause : Nat) (inj : Bool) (now : Bool) (ws : List (Nat × Bool)) (late : List Nat) :
    (State.snapRecord s trig cause inj now ws late).2.prs.pmem = s.prs.pmem ∧ (State.snapRecord s trig cause inj now ws late).2.pending = s.pending := by
  simp [State.snapRecord, *]

@[simp] theorem State.snapLost_frame (s : State) :
    (State.snapLost s).prs.pmem = s.prs.pmem ∧ (State.snapLost s).pending = s.pending := by
  simp [State.snapLost, *]

@[simp] theorem State.capture1_frame (s : State) (c : Capture) (late : List Nat) :
    (State.capture1 s c late).2.prs.pmem = s.prs.pmem ∧ (State.capture1 s c late).2.pending = s.pending := by
  simp [State.capture1, *]

@[simp] theorem State.builtIn_frame (s : State) (trig : Nat) (cause : Nat) (inj : Bool) (ws : List (Nat × Bool)) (late : List Nat) :
    (State.builtIn s trig cause inj ws late).2.prs.pmem = s.prs.pmem ∧ (State.builtIn s trig cause inj ws late).2.pending = s.pending := by
  simp [State.builtIn, *]

@[simp] theorem State.fireDrop_frame (s : State) (trig : Nat) :
    (State.fireDrop s trig).prs.pmem = s.prs.pmem ∧ (State.fireDrop s trig).pending = s.pending := by
  simp [State.fireDrop, *]

@[simp] theorem State.fire_frame (s : State) (trig : Nat) (cause : Nat) (inj : Bool) :
    (State.fire s trig cause inj).prs.pmem = s.prs.pmem ∧ (State.fire s trig cause inj).pending = s.pending := by
  simp [State.fire, *]

@[simp] theorem State.lossSnap_frame (s : State) (late : List Nat) :
    (State.lossSnap s late).prs.pmem = s.prs.pmem ∧ (State.lossSnap s late).pending = s.pending := by
  simp [State.lossSnap, *]

@[simp] theorem State.haltSnap_frame (s : State) (late : List Nat) :
    (State.haltSnap s late).prs.pmem = s.prs.pmem ∧ (State.haltSnap s late).pending = s.pending := by
  simp [State.haltSnap, *]

@[simp] theorem State.imageDone_frame (s : State) (store : Nat) :
    (State.imageDone s store).prs.pmem = s.prs.pmem ∧ (State.imageDone s store).pending = s.pending := by
  simp [State.imageDone, *]

@[simp] theorem State.pageCopy_frame (s : State) (store : Nat) (page : Nat) (first : Nat) (closed : Bool) (body : List Byte) :
    (State.pageCopy s store page first closed body).prs.pmem = s.prs.pmem ∧ (State.pageCopy s store page first closed body).pending = s.pending := by
  simp [State.pageCopy, *]

@[simp] theorem State.pageWrite_frame (s : State) (store : Nat) (page : Nat) (first : Nat) (closed : Bool) (body : List Byte) :
    (State.pageWrite s store page first closed body).prs.pmem = s.prs.pmem ∧ (State.pageWrite s store page first closed body).pending = s.pending := by
  simp [State.pageWrite, *]

@[simp] theorem State.commitStore_frame (s : State) (store : Nat) (recs : List (Nat × List Byte)) (stop : Nat) (n : Nat) :
    (State.commitStore s store recs stop n).prs.pmem = s.prs.pmem ∧ (State.commitStore s store recs stop n).pending = s.pending := by
  simp [State.commitStore, *]

@[simp] theorem State.commitLogs_frame (s : State) :
    (State.commitLogs s).prs.pmem = s.prs.pmem ∧ (State.commitLogs s).pending = s.pending := by
  simp [State.commitLogs, *]

@[simp] theorem State.pagesDone_frame (s : State) :
    (State.pagesDone s).prs.pmem = s.prs.pmem ∧ (State.pagesDone s).pending = s.pending := by
  simp [State.pagesDone, *]

@[simp] theorem State.writeFails_frame (s : State) (n : Nat) :
    (State.writeFails s n).prs.pmem = s.prs.pmem ∧ (State.writeFails s n).pending = s.pending := by
  induction n generalizing s with
  | zero => simp [State.writeFails]
  | succ n ih =>
    unfold State.writeFails
    repeat' (first | (simp [ih]; done) | split)

@[simp] theorem State.finalBegin_frame (s : State) :
    (State.finalBegin s).prs.pmem = s.prs.pmem ∧ (State.finalBegin s).pending = s.pending := by
  simp [State.finalBegin, *]

@[simp] theorem State.imposeTrigger_frame (s : State) (i : Nat) (t : Trigger) :
    (State.imposeTrigger s i t).prs.pmem = s.prs.pmem ∧ (State.imposeTrigger s i t).pending = s.pending := by
  simp [State.imposeTrigger, *]

@[simp] theorem State.detectorEvent_frame (s : State) (n : Nat) (esc : Nat) (param : Nat) (present : Bool) :
    (State.detectorEvent s n esc param present).prs.pmem = s.prs.pmem ∧ (State.detectorEvent s n esc param present).pending = s.pending := by
  simp [State.detectorEvent, *]

@[simp] theorem State.aliveToggle_frame (s : State) (readback : Bool) :
    (State.aliveToggle s readback).prs.pmem = s.prs.pmem ∧ (State.aliveToggle s readback).pending = s.pending := by
  simp [State.aliveToggle, *]

@[simp] theorem State.clearDet_frame (s : State) (n : Nat) (ring : Nat) :
    (State.clearDet s n ring).2.prs.pmem = s.prs.pmem ∧ (State.clearDet s n ring).2.pending = s.pending := by
  simp [State.clearDet, *]

@[simp] theorem State.clearDets_frame (s : State) (ns : List Nat) (ring : Nat) :
    (State.clearDets s ns ring).2.prs.pmem = s.prs.pmem ∧ (State.clearDets s ns ring).2.pending = s.pending := by
  simp [State.clearDets, *]

@[simp] theorem State.leaveHalted_frame (s : State) :
    (State.leaveHalted s).prs.pmem = s.prs.pmem ∧ (State.leaveHalted s).pending = s.pending := by
  simp [State.leaveHalted, *]

@[simp] theorem State.dstatClear_frame (s : State) (w : Nat) (v : Nat) :
    (State.dstatClear s w v).prs.pmem = s.prs.pmem ∧ (State.dstatClear s w v).pending = s.pending := by
  simp [State.dstatClear, *]

@[simp] theorem State.injEvt_frame (s : State) (det : Nat) (mode : Nat) (action : Nat) (number : Nat) (param : Nat) (ring : Nat) :
    (State.injEvt s det mode action number param ring).prs.pmem = s.prs.pmem ∧ (State.injEvt s det mode action number param ring).pending = s.pending := by
  simp [State.injEvt, *]

@[simp] theorem State.withdraw_frame (s : State) (x : Injection) (ring : Nat) :
    (State.withdraw s x ring).prs.pmem = s.prs.pmem ∧ (State.withdraw s x ring).pending = s.pending := by
  simp [State.withdraw, *]

@[simp] theorem State.withdrawAll_frame (s : State) (p : Injection → Bool) (ring : Nat) :
    (State.withdrawAll s p ring).prs.pmem = s.prs.pmem ∧ (State.withdrawAll s p ring).pending = s.pending := by
  simp [State.withdrawAll, *]

@[simp] theorem State.lock_frame (s : State) (ring : Nat) :
    (State.lock s ring).prs.pmem = s.prs.pmem ∧ (State.lock s ring).pending = s.pending := by
  simp [State.lock, *]

@[simp] theorem State.imposeClass_frame (s : State) (n : Nat) (c : Nat) :
    (State.imposeClass s n c).prs.pmem = s.prs.pmem ∧ (State.imposeClass s n c).pending = s.pending := by
  simp [State.imposeClass, *]

@[simp] theorem State.reportNow_frame (s : State) :
    (State.reportNow s).prs.pmem = s.prs.pmem ∧ (State.reportNow s).pending = s.pending := by
  simp [State.reportNow, *]

@[simp] theorem State.reportDue_frame (s : State) :
    (State.reportDue s).prs.pmem = s.prs.pmem ∧ (State.reportDue s).pending = s.pending := by
  simp [State.reportDue, *]

@[simp] theorem State.roscorDown_frame (s : State) :
    (State.roscorDown s).prs.pmem = s.prs.pmem ∧ (State.roscorDown s).pending = s.pending := by
  simp [State.roscorDown, *]

@[simp] theorem State.meterBad_frame (s : State) :
    (State.meterBad s).prs.pmem = s.prs.pmem ∧ (State.meterBad s).pending = s.pending := by
  simp [State.meterBad, *]

@[simp] theorem State.wireFound_frame (s : State) (st : Nat) (key : Nat) :
    (State.wireFound s st key).prs.pmem = s.prs.pmem ∧ (State.wireFound s st key).pending = s.pending := by
  simp [State.wireFound, *]

@[simp] theorem State.pathFault_frame (s : State) (st : Nat) (a : Nat) :
    (State.pathFault s st a).prs.pmem = s.prs.pmem ∧ (State.pathFault s st a).pending = s.pending := by
  simp [State.pathFault, *]

@[simp] theorem State.otherOrder_frame (s : State) (n unit : Nat) (inj : Bool) :
    (State.otherOrder s n unit inj).prs.pmem = s.prs.pmem ∧ (State.otherOrder s n unit inj).pending = s.pending := by
  simp [State.otherOrder, *] <;> (repeat' (first | apply And.intro | intro _ | (simp [*]; done) | split | (rw [pm_foldl]) | (rw [pd_foldl]) | (rw [pm_foldl2]) | (rw [pd_foldl2])))

@[simp] theorem State.settle_frame (s : State) :
    (State.settle s).prs.pmem = s.prs.pmem ∧ (State.settle s).pending = s.pending := by
  simp [State.settle, *] <;> (repeat' (first | apply And.intro | intro _ | (simp [*]; done) | split | (rw [pm_foldl]) | (rw [pd_foldl]) | (rw [pm_foldl2]) | (rw [pd_foldl2])))

@[simp] theorem State.updMod_frame (s : State) (f : Upd → Upd) :
    (State.updMod s f).prs.pmem = s.prs.pmem ∧ (State.updMod s f).pending = s.pending := by
  simp [State.updMod, *]

@[simp] theorem State.resetEnds_frame (s : State) :
    (State.resetEnds s).prs.pmem = s.prs.pmem ∧ (State.resetEnds s).pending = s.pending := by
  simp [State.resetEnds, *]

@[simp] theorem State.resetMark_frame (s : State) (code : Nat) :
    (State.resetMark s code).prs.pmem = s.prs.pmem ∧ (State.resetMark s code).pending = s.pending := by
  simp [State.resetMark, *]

@[simp] theorem State.imgMod_frame (s : State) (t : Nat) (k : Nat) (f : ImgSlot → ImgSlot) :
    (State.imgMod s t k f).prs.pmem = s.prs.pmem ∧ (State.imgMod s t k f).pending = s.pending := by
  simp [State.imgMod, *]

@[simp] theorem State.imgOpen_frame (s : State) (src : ImgSrc) (t : Nat) (h : List Byte) (sig : Bool) :
    (State.imgOpen s src t h sig).2.2.prs.pmem = s.prs.pmem ∧ (State.imgOpen s src t h sig).2.2.pending = s.pending := by
  simp [State.imgOpen, *] <;> (repeat' (first | apply And.intro | intro _ | (simp [*]; done) | split | (rw [pm_foldl]) | (rw [pd_foldl]) | (rw [pm_foldl2]) | (rw [pd_foldl2])))

@[simp] theorem State.unlockSlot_frame (s : State) (t : Nat) (st : Nat) (x : Session) :
    (State.unlockSlot s t st x).prs.pmem = s.prs.pmem ∧ (State.unlockSlot s t st x).pending = s.pending := by
  simp [State.unlockSlot, *]

@[simp] theorem State.applyField_frame (s : State) (b : List Byte) (row : RegRow) (off idx : Nat) (f : RField) :
    (State.applyField s b row off idx f).prs.pmem = s.prs.pmem ∧ (State.applyField s b row off idx f).pending = s.pending := by
  unfold State.applyField
  simp only []
  split <;> simp

@[simp] theorem State.applyRow_frame (s : State) (b : List Byte) (off idx : Nat) (row : Option RegRow) :
    (State.applyRow s b off idx row).prs.pmem = s.prs.pmem ∧ (State.applyRow s b off idx row).pending = s.pending := by
  cases row with
  | none => exact ⟨rfl, rfl⟩
  | some row =>
    exact ⟨pm_foldl _ _ _ fun _ _ => (State.applyField_frame ..).1, pd_foldl _ _ _ fun _ _ => (State.applyField_frame ..).2⟩

@[simp] theorem State.applySetting_frame (s : State) (b : List Byte) :
    (State.applySetting s b).prs.pmem = s.prs.pmem ∧ (State.applySetting s b).pending = s.pending := by
  unfold State.applySetting
  exact State.applyRow_frame ..

@[simp] theorem State.applyRecord_frame (s : State) (o : Origin) (no : Nat) (r : Nat × List Byte) :
    (State.applyRecord s o no r).prs.pmem = s.prs.pmem ∧ (State.applyRecord s o no r).pending = s.pending := by
  simp [State.applyRecord, *] <;> (repeat' (first | apply And.intro | intro _ | (simp [*]; done) | split | (rw [pm_foldl]) | (rw [pd_foldl]) | (rw [pm_foldl2]) | (rw [pd_foldl2])))

@[simp] theorem State.imgPush_frame (s : State) (x : Session) :
    (State.imgPush s x).prs.pmem = s.prs.pmem ∧ (State.imgPush s x).pending = s.pending := by
  simp [State.imgPush, *]

@[simp] theorem State.pushAgain_frame (s : State) (t : Nat) :
    (State.pushAgain s t).prs.pmem = s.prs.pmem ∧ (State.pushAgain s t).pending = s.pending := by
  simp [State.pushAgain, *]

@[simp] theorem State.imgFinish_frame (s : State) (t : Nat) (x : Session) :
    (State.imgFinish s t x).2.prs.pmem = s.prs.pmem ∧ (State.imgFinish s t x).2.pending = s.pending := by
  simp [State.imgFinish, *]

@[simp] theorem State.lockExpire_frame (s : State) (t : Nat) :
    (State.lockExpire s t).prs.pmem = s.prs.pmem ∧ (State.lockExpire s t).pending = s.pending := by
  simp [State.lockExpire, *] <;> (repeat' (first | apply And.intro | intro _ | (simp [*]; done) | split | (rw [pm_foldl]) | (rw [pd_foldl]) | (rw [pm_foldl2]) | (rw [pd_foldl2])))

@[simp] theorem State.planEvt_frame (s : State) (p : UPlan) (x : PlanStep) :
    (State.planEvt s p x).prs.pmem = s.prs.pmem ∧ (State.planEvt s p x).pending = s.pending := by
  simp [State.planEvt, *]

@[simp] theorem State.stepPut_frame (s : State) (i : Nat) (f : PlanStep → PlanStep) :
    (State.stepPut s i f).prs.pmem = s.prs.pmem ∧ (State.stepPut s i f).pending = s.pending := by
  simp [State.stepPut, *] <;> (repeat' (first | apply And.intro | intro _ | (simp [*]; done) | split | (rw [pm_foldl]) | (rw [pd_foldl]) | (rw [pm_foldl2]) | (rw [pd_foldl2])))

@[simp] theorem State.swapImage_frame (s : State) (x : PlanStep) (back : Bool) :
    (State.swapImage s x back).prs.pmem = s.prs.pmem ∧ (State.swapImage s x back).pending = s.pending := by
  simp [State.swapImage, *]

@[simp] theorem State.pushStart_frame (s : State) :
    (State.pushStart s).prs.pmem = s.prs.pmem ∧ (State.pushStart s).pending = s.pending := by
  simp [State.pushStart, *]

@[simp] theorem State.procReset_frame (s : State) (t : Nat) :
    (State.procReset s t).prs.pmem = s.prs.pmem ∧ (State.procReset s t).pending = s.pending := by
  simp [State.procReset, *] <;> (repeat' (first | apply And.intro | intro _ | (simp [*]; done) | split | (rw [pm_foldl]) | (rw [pd_foldl]) | (rw [pm_foldl2]) | (rw [pd_foldl2])))

@[simp] theorem State.pressFwDone_frame (s : State) :
    (State.pressFwDone s).prs.pmem = s.prs.pmem ∧ (State.pressFwDone s).pending = s.pending := by
  simp [State.pressFwDone, *]

@[simp] theorem State.procBack_frame (s : State) (t : Nat) :
    (State.procBack s t).prs.pmem = s.prs.pmem ∧ (State.procBack s t).pending = s.pending := by
  simp [State.procBack, *] <;> (repeat' (first | apply And.intro | intro _ | (simp [*]; done) | split | (rw [pm_foldl]) | (rw [pd_foldl]) | (rw [pm_foldl2]) | (rw [pd_foldl2])))

@[simp] theorem State.stepBegin_frame (s : State) (i : Nat) (x : PlanStep) (back : Bool) :
    (State.stepBegin s i x back).prs.pmem = s.prs.pmem ∧ (State.stepBegin s i x back).pending = s.pending := by
  simp [State.stepBegin, *]

@[simp] theorem State.planOver_frame (s : State) (p : UPlan) (outcome : Nat) :
    (State.planOver s p outcome).prs.pmem = s.prs.pmem ∧ (State.planOver s p outcome).pending = s.pending := by
  simp [State.planOver, *]

@[simp] theorem State.rollbackDone_frame (s : State) (p : UPlan) :
    (State.rollbackDone s p).prs.pmem = s.prs.pmem ∧ (State.rollbackDone s p).pending = s.pending := by
  simp [State.rollbackDone, *]

@[simp] theorem State.planGo_frame (s : State) :
    (State.planGo s).prs.pmem = s.prs.pmem ∧ (State.planGo s).pending = s.pending := by
  simp [State.planGo, *] <;> (repeat' (first | apply And.intro | intro _ | (simp [*]; done) | split | (rw [pm_foldl]) | (rw [pd_foldl]) | (rw [pm_foldl2]) | (rw [pd_foldl2])))

@[simp] theorem State.planBack_frame (s : State) (failed : Nat) :
    (State.planBack s failed).prs.pmem = s.prs.pmem ∧ (State.planBack s failed).pending = s.pending := by
  simp [State.planBack, *] <;> (repeat' (first | apply And.intro | intro _ | (simp [*]; done) | split | (rw [pm_foldl]) | (rw [pd_foldl]) | (rw [pm_foldl2]) | (rw [pd_foldl2])))

@[simp] theorem State.stepDone_frame (s : State) :
    (State.stepDone s).prs.pmem = s.prs.pmem ∧ (State.stepDone s).pending = s.pending := by
  simp [State.stepDone, *] <;> (repeat' (first | apply And.intro | intro _ | (simp [*]; done) | split | (rw [pm_foldl]) | (rw [pd_foldl]) | (rw [pm_foldl2]) | (rw [pd_foldl2])))

@[simp] theorem State.migrate_frame (s : State) (t : Nat) :
    (State.migrate s t).2.prs.pmem = s.prs.pmem ∧ (State.migrate s t).2.pending = s.pending := by
  simp [State.migrate, *]

@[simp] theorem State.stepConfirm_frame (s : State) :
    (State.stepConfirm s).prs.pmem = s.prs.pmem ∧ (State.stepConfirm s).pending = s.pending := by
  simp [State.stepConfirm, *] <;> (repeat' (first | apply And.intro | intro _ | (simp [*]; done) | split | (rw [pm_foldl]) | (rw [pd_foldl]) | (rw [pm_foldl2]) | (rw [pd_foldl2])))

@[simp] theorem State.planStart_frame (s : State) (st : Staged) (ts : List Nat) (two : Bool) (peer : Bool) (force : Bool) :
    (State.planStart s st ts two peer force).prs.pmem = s.prs.pmem ∧ (State.planStart s st ts two peer force).pending = s.pending := by
  simp [State.planStart, *]

@[simp] theorem State.planCommit_frame (s : State) (o : Origin) :
    (State.planCommit s o).prs.pmem = s.prs.pmem ∧ (State.planCommit s o).pending = s.pending := by
  simp [State.planCommit, *] <;> (repeat' (first | apply And.intro | intro _ | (simp [*]; done) | split | (rw [pm_foldl]) | (rw [pd_foldl]) | (rw [pm_foldl2]) | (rw [pd_foldl2])))

@[simp] theorem State.journal_frame (s : State) :
    (State.journal s).2.prs.pmem = s.prs.pmem ∧ (State.journal s).2.pending = s.pending := by
  simp [State.journal, *] <;> (repeat' (first | apply And.intro | intro _ | (simp [*]; done) | split | (rw [pm_foldl]) | (rw [pd_foldl]) | (rw [pm_foldl2]) | (rw [pd_foldl2])))

@[simp] theorem State.pushMod_frame (s : State) (st : Nat) (f : Push → Push) :
    (State.pushMod s st f).prs.pmem = s.prs.pmem ∧ (State.pushMod s st f).pending = s.pending := by
  simp [State.pushMod, *]

@[simp] theorem State.pushWrite_frame (s : State) (st n pos : Nat) :
    (State.pushWrite s st n pos).prs.pmem = s.prs.pmem ∧ (State.pushWrite s st n pos).pending = s.pending := by
  induction n generalizing s pos with
  | zero => simp [State.pushWrite]
  | succ n ih =>
    unfold State.pushWrite
    repeat' (first | (simp [ih]; done) | split)

@[simp] theorem State.pushEnd_frame (s : State) (st : Nat) :
    (State.pushEnd s st).prs.pmem = s.prs.pmem ∧ (State.pushEnd s st).pending = s.pending := by
  simp [State.pushEnd, *]

@[simp] theorem State.pushTick_frame (s : State) (st : Nat) :
    (State.pushTick s st).prs.pmem = s.prs.pmem ∧ (State.pushTick s st).pending = s.pending := by
  simp [State.pushTick, *] <;> (repeat' (first | apply And.intro | intro _ | (simp [*]; done) | split | (rw [pm_foldl]) | (rw [pd_foldl]) | (rw [pm_foldl2]) | (rw [pd_foldl2])))

@[simp] theorem State.planTick_frame (s : State) :
    (State.planTick s).prs.pmem = s.prs.pmem ∧ (State.planTick s).pending = s.pending := by
  simp [State.planTick, *] <;> (repeat' (first | apply And.intro | intro _ | (simp [*]; done) | split | (rw [pm_foldl]) | (rw [pd_foldl]) | (rw [pm_foldl2]) | (rw [pd_foldl2])))

@[simp] theorem State.checkRecord_frame (s : State) (st : Nat) (r : List Byte) :
    (State.checkRecord s st r).prs.pmem = s.prs.pmem ∧ (State.checkRecord s st r).pending = s.pending := by
  simp [State.checkRecord, *] <;> (repeat' (first | apply And.intro | intro _ | (simp [*]; done) | split | (rw [pm_foldl]) | (rw [pd_foldl]) | (rw [pm_foldl2]) | (rw [pd_foldl2])))

@[simp] theorem State.flyDone_frame (s : State) (reason : Nat) :
    (State.flyDone s reason).prs.pmem = s.prs.pmem ∧ (State.flyDone s reason).pending = s.pending := by
  simp [State.flyDone, *]

@[simp] theorem State.flyOpen_frame (s : State) (t : Nat) (win : List Byte) (sig : Bool) :
    (State.flyOpen s t win sig).prs.pmem = s.prs.pmem ∧ (State.flyOpen s t win sig).pending = s.pending := by
  simp [State.flyOpen, *]

@[simp] theorem State.flyWrite_frame (s : State) (t : Nat) (len : Nat) (win : List Byte) :
    (State.flyWrite s t len win).prs.pmem = s.prs.pmem ∧ (State.flyWrite s t len win).pending = s.pending := by
  simp [State.flyWrite, *] <;> (repeat' (first | apply And.intro | intro _ | (simp [*]; done) | split | (rw [pm_foldl]) | (rw [pd_foldl]) | (rw [pm_foldl2]) | (rw [pd_foldl2])))

@[simp] theorem State.flyFinish_frame (s : State) (t : Nat) :
    (State.flyFinish s t).prs.pmem = s.prs.pmem ∧ (State.flyFinish s t).pending = s.pending := by
  simp [State.flyFinish, *] <;> (repeat' (first | apply And.intro | intro _ | (simp [*]; done) | split | (rw [pm_foldl]) | (rw [pd_foldl]) | (rw [pm_foldl2]) | (rw [pd_foldl2])))

@[simp] theorem State.flyAbort_frame (s : State) (t : Nat) :
    (State.flyAbort s t).prs.pmem = s.prs.pmem ∧ (State.flyAbort s t).pending = s.pending := by
  simp [State.flyAbort, *] <;> (repeat' (first | apply And.intro | intro _ | (simp [*]; done) | split | (rw [pm_foldl]) | (rw [pd_foldl]) | (rw [pm_foldl2]) | (rw [pd_foldl2])))

@[simp] theorem State.inFly_frame (s : State) (f : State → State) (h1 : ∀ y0, (f y0).prs.pmem = y0.prs.pmem ∧ (f y0).pending = y0.pending) :
    (State.inFly s f).prs.pmem = s.prs.pmem ∧ (State.inFly s f).pending = s.pending := by
  simp [State.inFly, *]

@[simp] theorem State.coldReset_frame (s : State) (code : Nat) (rails : Bool) :
    (State.coldReset s code rails).pending = s.pending := by
  simp [State.coldReset, *]

@[simp] theorem State.pinsLow_frame (s : State) :
    (State.pinsLow s).prs.pmem = s.prs.pmem ∧ (State.pinsLow s).pending = s.pending := by
  simp [State.pinsLow, *]

@[simp] theorem State.islands_frame (s : State) :
    (State.islands s).prs.pmem = s.prs.pmem ∧ (State.islands s).pending = s.pending := by
  simp [State.islands, *]

@[simp] theorem State.islandsRun_frame (s : State) (ks : List Nat) :
    (State.islandsRun s ks).prs.pmem = s.prs.pmem ∧ (State.islandsRun s ks).pending = s.pending := by
  simp [State.islandsRun, *]

@[simp] theorem State.moduleReset_frame (s : State) (code : Nat) :
    (State.moduleReset s code).pending = s.pending := by
  simp [State.moduleReset, *]

@[simp] theorem State.resetGoes_frame (s : State) (code : Nat) :
    (State.resetGoes s code).pending = s.pending := by
  simp [State.resetGoes, *]

@[simp] theorem State.openCommitted_frame (s : State) :
    (State.openCommitted s).pending = s.pending := by
  simp [State.openCommitted, *] <;> (repeat' (first | apply And.intro | intro _ | (simp [*]; done) | split | (rw [pm_foldl]) | (rw [pd_foldl]) | (rw [pm_foldl2]) | (rw [pd_foldl2])))

@[simp] theorem State.hostReset_frame (s : State) (link : Bool) :
    (State.hostReset s link).prs.pmem = s.prs.pmem ∧ (State.hostReset s link).pending = s.pending := by
  simp [State.hostReset, *]

end Sys2Proof.Machine
end

