-- ==== Sys2Proof/Laws/FrameStart.lean ====
section
/-!
SUPPORT. Frames of power, start, register access and the period: each function keeps the queue, and the memory of the Press where it stores nothing.
-/
namespace Sys2Proof.Machine
set_option linter.all false

@[simp] theorem State.inputMeans_frame (s : State) (vin : Nat) (iin : Nat) (pin : Nat) :
    (State.inputMeans s vin iin pin).prs.pmem = s.prs.pmem ∧ (State.inputMeans s vin iin pin).pending = s.pending := by
  simp [State.inputMeans, *]

@[simp] theorem State.deferFor_frame (s : State) (why : Nat) (b : Bool) :
    (State.deferFor s why b).prs.pmem = s.prs.pmem ∧ (State.deferFor s why b).pending = s.pending := by
  simp [State.deferFor, *]

@[simp] theorem State.currentLimit_frame (s : State) (level : Nat) :
    (State.currentLimit s level).prs.pmem = s.prs.pmem ∧ (State.currentLimit s level).pending = s.pending := by
  simp [State.currentLimit, *]

@[simp] theorem State.powerOn_frame (s : State) :
    (State.powerOn s).prs.pmem = s.prs.pmem ∧ (State.powerOn s).pending = s.pending := by
  simp [State.powerOn, *]

@[simp] theorem State.vrsv_frame (s : State) (v : Nat) :
    (State.vrsv s v).prs.pmem = s.prs.pmem ∧ (State.vrsv s v).pending = s.pending := by
  simp [State.vrsv, *]

@[simp] theorem State.reservoir_frame (s : State) (vrsv : Nat) :
    (State.reservoir s vrsv).prs.pmem = s.prs.pmem ∧ (State.reservoir s vrsv).pending = s.pending := by
  simp [State.reservoir, *]

@[simp] theorem State.lossStart_frame (s : State) (by_ : Nat) :
    (State.lossStart s by_).prs.pmem = s.prs.pmem ∧ (State.lossStart s by_).pending = s.pending := by
  simp [State.lossStart, *]

@[simp] theorem State.powerDown_frame (s : State) :
    (State.powerDown s).prs.pmem = s.prs.pmem ∧ (State.powerDown s).pending = s.pending := by
  simp [State.powerDown, *]

@[simp] theorem State.lossNext_frame (s : State) :
    (State.lossNext s).prs.pmem = s.prs.pmem ∧ (State.lossNext s).pending = s.pending := by
  simp [State.lossNext, *] <;> (repeat' (first | apply And.intro | intro _ | (simp [*]; done) | split | (rw [pm_foldl]) | (rw [pd_foldl]) | (rw [pm_foldl2]) | (rw [pd_foldl2])))

@[simp] theorem State.railsOff_frame (s : State) :
    (State.railsOff s).pending = s.pending := by
  simp [State.railsOff, *]

@[simp] theorem State.liveStraps_frame (s : State) (seat : Nat) (pos : Nat) (idpar : Nat) :
    (State.liveStraps s seat pos idpar).prs.pmem = s.prs.pmem ∧ (State.liveStraps s seat pos idpar).pending = s.pending := by
  simp [State.liveStraps, *]

@[simp] theorem State.errataStarts_frame (s : State) (seat : Nat) (pos : Nat) (idpar : Nat) :
    (State.errataStarts s seat pos idpar).prs.pmem = s.prs.pmem ∧ (State.errataStarts s seat pos idpar).pending = s.pending := by
  simp [State.errataStarts, *]

@[simp] theorem State.showTemp_frame (s : State) (die : Nat) (t : Int) :
    (State.showTemp s die t).prs.pmem = s.prs.pmem ∧ (State.showTemp s die t).pending = s.pending := by
  simp [State.showTemp, *]

@[simp] theorem State.junction_frame (s : State) (die : Nat) (t : Int) :
    (State.junction s die t).prs.pmem = s.prs.pmem ∧ (State.junction s die t).pending = s.pending := by
  simp [State.junction, *]

@[simp] theorem State.meterDrop_frame (s : State) :
    (State.meterDrop s).prs.pmem = s.prs.pmem ∧ (State.meterDrop s).pending = s.pending := by
  simp [State.meterDrop, *]

@[simp] theorem State.meterTake_frame (s : State) (f : List Byte) (d : Option Nat) :
    (State.meterTake s f d).prs.pmem = s.prs.pmem ∧ (State.meterTake s f d).pending = s.pending := by
  simp [State.meterTake, *]

@[simp] theorem State.meterFrame_frame (s : State) (f : List Byte) :
    (State.meterFrame s f).prs.pmem = s.prs.pmem ∧ (State.meterFrame s f).pending = s.pending := by
  simp [State.meterFrame, *] <;> (repeat' (first | apply And.intro | intro _ | (simp [*]; done) | split | (rw [pm_foldl]) | (rw [pd_foldl]) | (rw [pm_foldl2]) | (rw [pd_foldl2])))

@[simp] theorem State.tdoOut_frame (s : State) (v : Nat) :
    (State.tdoOut s v).prs.pmem = s.prs.pmem ∧ (State.tdoOut s v).pending = s.pending := by
  simp [State.tdoOut, *]

@[simp] theorem State.clockOne_frame (s : State) (k : Nat) (ppm : Int) (stopped : Bool) :
    (State.clockOne s k ppm stopped).prs.pmem = s.prs.pmem ∧ (State.clockOne s k ppm stopped).pending = s.pending := by
  simp [State.clockOne, *]

@[simp] theorem State.crossingDrop_frame (s : State) (c : Nat) :
    (State.crossingDrop s c).prs.pmem = s.prs.pmem ∧ (State.crossingDrop s c).pending = s.pending := by
  simp [State.crossingDrop, *] <;> (repeat' (first | apply And.intro | intro _ | (simp [*]; done) | split | (rw [pm_foldl]) | (rw [pd_foldl]) | (rw [pm_foldl2]) | (rw [pd_foldl2])))

@[simp] theorem State.crossingMiss_frame (s : State) (c : Nat) (first inj : Bool) :
    (State.crossingMiss s c first inj).prs.pmem = s.prs.pmem ∧ (State.crossingMiss s c first inj).pending = s.pending := by
  simp [State.crossingMiss, *]

@[simp] theorem State.roscorFall_frame (s : State) :
    (State.roscorFall s).prs.pmem = s.prs.pmem ∧ (State.roscorFall s).pending = s.pending := by
  simp [State.roscorFall, *]

@[simp] theorem State.rosFrame_frame (s : State) (good : Bool) (f : State → State) (h2 : ∀ y0, (f y0).prs.pmem = y0.prs.pmem ∧ (f y0).pending = y0.pending) :
    (State.rosFrame s good f).prs.pmem = s.prs.pmem ∧ (State.rosFrame s good f).pending = s.pending := by
  simp [State.rosFrame, *]

@[simp] theorem State.seatLock_frame (s : State) (pnum : Nat) (ta : Nat) (rx : Nat) :
    (State.seatLock s pnum ta rx).prs.pmem = s.prs.pmem ∧ (State.seatLock s pnum ta rx).pending = s.pending := by
  simp [State.seatLock, *]

@[simp] theorem State.seatJudge_frame (s : State) (same : Bool) :
    (State.seatJudge s same).prs.pmem = s.prs.pmem ∧ (State.seatJudge s same).pending = s.pending := by
  simp [State.seatJudge, *]

@[simp] theorem State.hbIn_frame (s : State) (flags : Nat) (pnum : Nat) (p : List Byte) (rx : Nat) :
    (State.hbIn s flags pnum p rx).prs.pmem = s.prs.pmem ∧ (State.hbIn s flags pnum p rx).pending = s.pending := by
  simp [State.hbIn, *] <;> (repeat' (first | apply And.intro | intro _ | (simp [*]; done) | split | (rw [pm_foldl]) | (rw [pd_foldl]) | (rw [pm_foldl2]) | (rw [pd_foldl2])))

@[simp] theorem State.lateCopy_frame (s : State) (n : Nat) (p : List Byte) (cyc : Nat) :
    (State.lateCopy s n p cyc).prs.pmem = s.prs.pmem ∧ (State.lateCopy s n p cyc).pending = s.pending := by
  simp [State.lateCopy, *]

@[simp] theorem State.stateIn_frame (s : State) (flags : Nat) (p : List Byte) (cyc : Nat) :
    (State.stateIn s flags p cyc).prs.pmem = s.prs.pmem ∧ (State.stateIn s flags p cyc).pending = s.pending := by
  simp [State.stateIn, *]

@[simp] theorem State.takeoverIn_frame (s : State) (p : List Byte) :
    (State.takeoverIn s p).prs.pmem = s.prs.pmem ∧ (State.takeoverIn s p).pending = s.pending := by
  simp [State.takeoverIn, *]

@[simp] theorem State.proofCompare_frame (s : State) (k : Nat) (dig : Nat) (st : Nat) (v : Nat) :
    (State.proofCompare s k dig st v).prs.pmem = s.prs.pmem ∧ (State.proofCompare s k dig st v).pending = s.pending := by
  simp [State.proofCompare, *]

@[simp] theorem State.standbyInputs_frame (s : State) (k : Nat) :
    (State.standbyInputs s k).prs.pmem = s.prs.pmem ∧ (State.standbyInputs s k).pending = s.pending := by
  simp [State.standbyInputs, *]

@[simp] theorem State.standbyRuns_frame (s : State) (k : Nat) :
    (State.standbyRuns s k).pending = s.pending := by
  simp [State.standbyRuns, *]

@[simp] theorem State.standbyDue_frame (s : State) :
    (State.standbyDue s).pending = s.pending := by
  simp [State.standbyDue, *] <;> (repeat' (first | apply And.intro | intro _ | (simp [*]; done) | split | (rw [pm_foldl]) | (rw [pd_foldl]) | (rw [pm_foldl2]) | (rw [pd_foldl2])))

@[simp] theorem State.shadowHead_frame (s : State) (r : Nat) (h : Nat) :
    (State.shadowHead s r h).prs.pmem = s.prs.pmem ∧ (State.shadowHead s r h).pending = s.pending := by
  simp [State.shadowHead, *]

@[simp] theorem State.pcycIn_frame (s : State) (p : List Byte) :
    (State.pcycIn s p).pending = s.pending := by
  simp [State.pcycIn, *]

@[simp] theorem State.cfgOwn_frame (s : State) (c : Staged) (data : List Byte) :
    (State.cfgOwn s c data).pending = s.pending := by
  simp [State.cfgOwn, *] <;> (repeat' (first | apply And.intro | intro _ | (simp [*]; done) | split | (rw [pm_foldl]) | (rw [pd_foldl]) | (rw [pm_foldl2]) | (rw [pd_foldl2])))

@[simp] theorem State.cfgIn_frame (s : State) (c0 : Staged) (data : List Byte) :
    (State.cfgIn s c0 data).pending = s.pending := by
  simp [State.cfgIn, *]

@[simp] theorem State.pushedImage_frame (s : State) (b : List Byte) :
    (State.pushedImage s b).prs.pmem = s.prs.pmem ∧ (State.pushedImage s b).pending = s.pending := by
  simp [State.pushedImage, *] <;> (repeat' (first | apply And.intro | intro _ | (simp [*]; done) | split | (rw [pm_foldl]) | (rw [pd_foldl]) | (rw [pm_foldl2]) | (rw [pd_foldl2])))

@[simp] theorem State.planBytes_frame (s : State) (slot ofs : Nat) (b : List Byte) : (s.planBytes slot ofs b).pending = s.pending := by
  unfold State.planBytes
  generalize s.tbs = l
  induction l generalizing s with
  | nil => rfl
  | cons t l ih => rw [List.foldl_cons, ih, State.pwrite_frame]

@[simp] theorem State.bulkDone_frame (s : State) (kind : Nat) (b : List Byte) :
    (State.bulkDone s kind b).pending = s.pending := by
  simp [State.bulkDone, *] <;> (repeat' (first | apply And.intro | intro _ | (simp [*]; done) | split | (rw [pm_foldl]) | (rw [pd_foldl]) | (rw [pm_foldl2]) | (rw [pd_foldl2])))

@[simp] theorem State.bulkIn_frame (s : State) (p : List Byte) :
    (State.bulkIn s p).pending = s.pending := by
  simp [State.bulkIn, *]

@[simp] theorem State.seatTake_frame (s : State) :
    (State.seatTake s).prs.pmem = s.prs.pmem ∧ (State.seatTake s).pending = s.pending := by
  simp [State.seatTake, *] <;> (repeat' (first | apply And.intro | intro _ | (simp [*]; done) | split | (rw [pm_foldl]) | (rw [pd_foldl]) | (rw [pm_foldl2]) | (rw [pd_foldl2])))

@[simp] theorem State.handChanges_frame (s : State) :
    (State.handChanges s).2.prs.pmem = s.prs.pmem ∧ (State.handChanges s).2.pending = s.pending := by
  simp [State.handChanges, *]

@[simp] theorem State.handStep_frame (s : State) :
    (State.handStep s).prs.pmem = s.prs.pmem ∧ (State.handStep s).pending = s.pending := by
  simp [State.handStep, *]

@[simp] theorem State.proveHand_frame (s : State) (kind : Nat) (len : Nat) (prover : Bool) :
    (State.proveHand s kind len prover).prs.pmem = s.prs.pmem ∧ (State.proveHand s kind len prover).pending = s.pending := by
  simp [State.proveHand, *] <;> (repeat' (first | apply And.intro | intro _ | (simp [*]; done) | split | (rw [pm_foldl]) | (rw [pd_foldl]) | (rw [pm_foldl2]) | (rw [pd_foldl2])))

@[simp] theorem State.handNow_frame (s : State) :
    (State.handNow s).prs.pmem = s.prs.pmem ∧ (State.handNow s).pending = s.pending := by
  simp [State.handNow, *] <;> (repeat' (first | apply And.intro | intro _ | (simp [*]; done) | split | (rw [pm_foldl]) | (rw [pd_foldl]) | (rw [pm_foldl2]) | (rw [pd_foldl2])))

@[simp] theorem State.handTick_frame (s : State) :
    (State.handTick s).prs.pmem = s.prs.pmem ∧ (State.handTick s).pending = s.pending := by
  simp [State.handTick, *] <;> (repeat' (first | apply And.intro | intro _ | (simp [*]; done) | split | (rw [pm_foldl]) | (rw [pd_foldl]) | (rw [pm_foldl2]) | (rw [pd_foldl2])))

@[simp] theorem State.selftestEvt_frame (s : State) (kind : Nat) (unit : Nat) :
    (State.selftestEvt s kind unit).prs.pmem = s.prs.pmem ∧ (State.selftestEvt s kind unit).pending = s.pending := by
  simp [State.selftestEvt, *]

@[simp] theorem State.loopTest_frame (s : State) (bad : List Nat) :
    (State.loopTest s bad).prs.pmem = s.prs.pmem ∧ (State.loopTest s bad).pending = s.pending := by
  simp [State.loopTest, *]

@[simp] theorem State.proveWatch_frame (s : State) :
    (State.proveWatch s).prs.pmem = s.prs.pmem ∧ (State.proveWatch s).pending = s.pending := by
  simp [State.proveWatch, *]

@[simp] theorem State.shadowLaw_frame (s : State) (loopBad : List Nat) :
    (State.shadowLaw s loopBad).prs.pmem = s.prs.pmem ∧ (State.shadowLaw s loopBad).pending = s.pending := by
  simp [State.shadowLaw, *] <;> (repeat' (first | apply And.intro | intro _ | (simp [*]; done) | split | (rw [pm_foldl]) | (rw [pd_foldl]) | (rw [pm_foldl2]) | (rw [pd_foldl2])))

@[simp] theorem State.handStage_frame (s : State) (r : Nat) (opcode : Nat) (kind : Nat) (len : Nat) :
    (State.handStage s r opcode kind len).s.prs.pmem = s.prs.pmem ∧ (State.handStage s r opcode kind len).s.pending = s.pending := by
  simp [State.handStage, *] <;> (repeat' (first | apply And.intro | intro _ | (simp [*]; done) | split | (rw [pm_foldl]) | (rw [pd_foldl]) | (rw [pm_foldl2]) | (rw [pd_foldl2])))

@[simp] theorem State.quireBack_frame (s : State) (t : Nat) (q : Nat) :
    (State.quireBack s t q).prs.pmem = s.prs.pmem ∧ (State.quireBack s t q).pending = s.pending := by
  simp [State.quireBack, *]

@[simp] theorem State.unitBack_frame (s : State) (kind : Nat) (u : Nat) :
    (State.unitBack s kind u).prs.pmem = s.prs.pmem ∧ (State.unitBack s kind u).pending = s.pending := by
  simp [State.unitBack, *]

@[simp] theorem State.repairPass_frame (s : State) (kind : Nat) (u : Nat) (us : Nat) :
    (State.repairPass s kind u us).prs.pmem = s.prs.pmem ∧ (State.repairPass s kind u us).pending = s.pending := by
  simp [State.repairPass, *]

@[simp] theorem State.repairTest_frame (s : State) (passed : Bool) (us : Nat) :
    (State.repairTest s passed us).prs.pmem = s.prs.pmem ∧ (State.repairTest s passed us).pending = s.pending := by
  simp [State.repairTest, *] <;> (repeat' (first | apply And.intro | intro _ | (simp [*]; done) | split | (rw [pm_foldl]) | (rw [pd_foldl]) | (rw [pm_foldl2]) | (rw [pd_foldl2])))

@[simp] theorem State.wornRetire_frame (s : State) (k : Nat) (u : Nat) :
    (State.wornRetire s k u).prs.pmem = s.prs.pmem ∧ (State.wornRetire s k u).pending = s.pending := by
  simp [State.wornRetire, *] <;> (repeat' (first | apply And.intro | intro _ | (simp [*]; done) | split | (rw [pm_foldl]) | (rw [pd_foldl]) | (rw [pm_foldl2]) | (rw [pd_foldl2])))

@[simp] theorem State.bootTo_frame (s : State) (v : Nat) :
    (State.bootTo s v).prs.pmem = s.prs.pmem ∧ (State.bootTo s v).pending = s.pending := by
  simp [State.bootTo, *]

@[simp] theorem State.enterErrata_frame (s : State) :
    (State.enterErrata s).prs.pmem = s.prs.pmem ∧ (State.enterErrata s).pending = s.pending := by
  simp [State.enterErrata, *]

@[simp] theorem State.pageLost_frame (s : State) (store : Nat) (p : Nat) :
    (State.pageLost s store p).prs.pmem = s.prs.pmem ∧ (State.pageLost s store p).pending = s.pending := by
  simp [State.pageLost, *] <;> (repeat' (first | apply And.intro | intro _ | (simp [*]; done) | split | (rw [pm_foldl]) | (rw [pd_foldl]) | (rw [pm_foldl2]) | (rw [pd_foldl2])))

@[simp] theorem State.pageBad_frame (s : State) (e : Nat × Nat × Bool) :
    (State.pageBad s e).prs.pmem = s.prs.pmem ∧ (State.pageBad s e).pending = s.pending := by
  simp [State.pageBad, *]

@[simp] theorem State.resumeSeq_frame (s : State) (store : Nat) (newest : Option Nat) :
    (State.resumeSeq s store newest).prs.pmem = s.prs.pmem ∧ (State.resumeSeq s store newest).pending = s.pending := by
  simp [State.resumeSeq, *] <;> (repeat' (first | apply And.intro | intro _ | (simp [*]; done) | split | (rw [pm_foldl]) | (rw [pd_foldl]) | (rw [pm_foldl2]) | (rw [pd_foldl2])))

@[simp] theorem State.readStores_frame (s : State) (pages : List (Nat × Nat × Bool)) :
    (State.readStores s pages).prs.pmem = s.prs.pmem ∧ (State.readStores s pages).pending = s.pending := by
  simp [State.readStores, *]

@[simp] theorem State.takeStamps_frame (s : State) :
    (State.takeStamps s).prs.pmem = s.prs.pmem ∧ (State.takeStamps s).pending = s.pending := by
  simp [State.takeStamps, *]

@[simp] theorem State.takeJournal_frame (s : State) :
    (State.takeJournal s).prs.pmem = s.prs.pmem ∧ (State.takeJournal s).pending = s.pending := by
  simp [State.takeJournal, *]

@[simp] theorem State.takeStraps_frame (s : State) :
    (State.takeStraps s).prs.pmem = s.prs.pmem ∧ (State.takeStraps s).pending = s.pending := by
  simp [State.takeStraps, *] <;> (repeat' (first | apply And.intro | intro _ | (simp [*]; done) | split | (rw [pm_foldl]) | (rw [pd_foldl]) | (rw [pm_foldl2]) | (rw [pd_foldl2])))

@[simp] theorem State.resetLog_frame (s : State) :
    (State.resetLog s).prs.pmem = s.prs.pmem ∧ (State.resetLog s).pending = s.pending := by
  simp [State.resetLog, *]

@[simp] theorem State.enterSettings_frame (s : State) (pages : List (Nat × Nat × Bool)) :
    (State.enterSettings s pages).prs.pmem = s.prs.pmem ∧ (State.enterSettings s pages).pending = s.pending := by
  simp [State.enterSettings, *]

@[simp] theorem State.lostUnits_frame (s : State) :
    (State.lostUnits s).prs.pmem = s.prs.pmem ∧ (State.lostUnits s).pending = s.pending := by
  simp [State.lostUnits, *]

@[simp] theorem State.enterMgmt_frame (s : State) :
    (State.enterMgmt s).prs.pmem = s.prs.pmem ∧ (State.enterMgmt s).pending = s.pending := by
  simp [State.enterMgmt, *]

@[simp] theorem State.enterChase_frame (s : State) :
    (State.enterChase s).prs.pmem = s.prs.pmem ∧ (State.enterChase s).pending = s.pending := by
  simp [State.enterChase, *]

@[simp] theorem State.enterFly_frame (s : State) (cond : Nat) :
    (State.enterFly s cond).prs.pmem = s.prs.pmem ∧ (State.enterFly s cond).pending = s.pending := by
  simp [State.enterFly, *]

@[simp] theorem State.judgeRole_frame (s : State) :
    (State.judgeRole s).prs.pmem = s.prs.pmem ∧ (State.judgeRole s).pending = s.pending := by
  simp [State.judgeRole, *] <;> (repeat' (first | apply And.intro | intro _ | (simp [*]; done) | split | (rw [pm_foldl]) | (rw [pd_foldl]) | (rw [pm_foldl2]) | (rw [pd_foldl2])))

@[simp] theorem State.mrMark_frame (s : State) (t : Nat) (v : Nat) :
    (State.mrMark s t v).prs.pmem = s.prs.pmem ∧ (State.mrMark s t v).pending = s.pending := by
  simp [State.mrMark, *]

@[simp] theorem State.mrLost_frame (s : State) (t : Nat) :
    (State.mrLost s t).prs.pmem = s.prs.pmem ∧ (State.mrLost s t).pending = s.pending := by
  simp [State.mrLost, *]

@[simp] theorem State.mrFails_frame (s : State) (t : Nat) (fs : List (Nat × Nat)) :
    (State.mrFails s t fs).prs.pmem = s.prs.pmem ∧ (State.mrFails s t fs).pending = s.pending := by
  simp [State.mrFails, *]

@[simp] theorem State.mrDram_frame (s : State) (t : Nat) (rows : Nat) (banks : Nat) (good : Bool) :
    (State.mrDram s t rows banks good).prs.pmem = s.prs.pmem ∧ (State.mrDram s t rows banks good).pending = s.pending := by
  simp [State.mrDram, *]

@[simp] theorem State.modelUp_frame (s : State) :
    (State.modelUp s).pending = s.pending := by
  simp [State.modelUp, *] <;> (repeat' (first | apply And.intro | intro _ | (simp [*]; done) | split | (rw [pm_foldl]) | (rw [pd_foldl]) | (rw [pm_foldl2]) | (rw [pd_foldl2])))

@[simp] theorem State.mrEnd_frame (s : State) :
    (State.mrEnd s).pending = s.pending := by
  simp [State.mrEnd, *]

@[simp] theorem State.makeReady_frame (s : State) (t : Nat) (k : Nat) (fs : List (Nat × Nat)) (rows : Nat) (banks : Nat) (good : Bool) (us : Nat) :
    (State.makeReady s t k fs rows banks good us).pending = s.pending := by
  simp [State.makeReady, *] <;> (repeat' (first | apply And.intro | intro _ | (simp [*]; done) | split | (rw [pm_foldl]) | (rw [pd_foldl]) | (rw [pm_foldl2]) | (rw [pd_foldl2])))

@[simp] theorem State.modelDone_frame (s : State) :
    (State.modelDone s).prs.pmem = s.prs.pmem ∧ (State.modelDone s).pending = s.pending := by
  simp [State.modelDone, *]

@[simp] theorem State.peerForme_frame (s : State) (model : List (Nat × List Byte)) (e : Nat × List Byte) :
    (State.peerForme s model e).prs.pmem = s.prs.pmem ∧ (State.peerForme s model e).pending = s.pending := by
  simp [State.peerForme, *] <;> (repeat' (first | apply And.intro | intro _ | (simp [*]; done) | split | (rw [pm_foldl]) | (rw [pd_foldl]) | (rw [pm_foldl2]) | (rw [pd_foldl2])))

@[simp] theorem State.peerModel_frame (s : State) (formes : List (Nat × List Byte)) (model : List (Nat × List Byte)) :
    (State.peerModel s formes model).pending = s.pending := by
  simp [State.peerModel, *]

@[simp] theorem State.leaveForReset_frame (s : State) :
    (State.leaveForReset s).prs.pmem = s.prs.pmem ∧ (State.leaveForReset s).pending = s.pending := by
  simp [State.leaveForReset, *]

@[simp] theorem State.resetAfter_frame (s : State) (r : Nat) (d : Desc) (left : Bool) :
    (State.resetAfter s r d left).pending = s.pending := by
  simp [State.resetAfter, *]

@[simp] theorem State.handDiscard_frame (s : State) :
    (State.handDiscard s).prs.pmem = s.prs.pmem ∧ (State.handDiscard s).pending = s.pending := by
  simp [State.handDiscard, *] <;> (repeat' (first | apply And.intro | intro _ | (simp [*]; done) | split | (rw [pm_foldl]) | (rw [pd_foldl]) | (rw [pm_foldl2]) | (rw [pd_foldl2])))

@[simp] theorem State.discardStaged_frame (s : State) :
    (State.discardStaged s).pending = s.pending := by
  simp [State.discardStaged, *] <;> (repeat' (first | apply And.intro | intro _ | (simp [*]; done) | split | (rw [pm_foldl]) | (rw [pd_foldl]) | (rw [pm_foldl2]) | (rw [pd_foldl2])))

@[simp] theorem State.configRead_frame (s : State) (off : Nat) :
    (State.configRead s off).2.prs.pmem = s.prs.pmem ∧ (State.configRead s off).2.pending = s.pending := by
  simp [State.configRead, *]

@[simp] theorem State.configWrite_frame (s : State) (off : Nat) (v : Nat) :
    (State.configWrite s off v).prs.pmem = s.prs.pmem ∧ (State.configWrite s off v).pending = s.pending := by
  simp [State.configWrite, *]

@[simp] theorem State.addCycles_frame (s : State) (n : Nat) (k : Nat) :
    (State.addCycles s n k).prs.pmem = s.prs.pmem ∧ (State.addCycles s n k).pending = s.pending := by
  simp [State.addCycles, *]

@[simp] theorem State.countOpen_frame (s : State) (n base c : Nat) :
    (State.countOpen s n base c).prs.pmem = s.prs.pmem ∧ (State.countOpen s n base c).pending = s.pending := by
  unfold State.countOpen; split <;> simp

@[simp] theorem State.countAll_frame (s : State) (n : Nat) :
    (State.countAll s n).prs.pmem = s.prs.pmem ∧ (State.countAll s n).pending = s.pending := by
  unfold State.countAll
  split
  · simp
  · constructor
    · rw [pm_foldl _ _ _ fun _ _ => (State.countOpen_frame _ _ _ _).1]
    · rw [pd_foldl _ _ _ fun _ _ => (State.countOpen_frame _ _ _ _).2]

@[simp] theorem State.countCycles_frame (s : State) :
    (State.countCycles s).prs.pmem = s.prs.pmem ∧ (State.countCycles s).pending = s.pending := by
  simp [State.countCycles, *]

@[simp] theorem State.zeroSet_frame (s : State) (n : Nat) :
    (State.zeroSet s n).prs.pmem = s.prs.pmem ∧ (State.zeroSet s n).pending = s.pending := by
  simp [State.zeroSet, *]

@[simp] theorem State.latchOne_frame (s : State) (w : Nat × Nat × Desc) :
    (State.latchOne s w).prs.pmem = s.prs.pmem ∧ (State.latchOne s w).pending = s.pending := by
  have h1 := fun (l : List Nat) => pm_foldl l State.zeroSet s fun _ _ => (State.zeroSet_frame _ _).1
  have h2 := fun (l : List Nat) => pd_foldl l State.zeroSet s fun _ _ => (State.zeroSet_frame _ _).2
  unfold State.latchOne
  split
  · split <;> simp
  · simp only
    generalize ((List.range 6).filter fun n => bit w.2.2.p0 n) = l
    constructor <;> split <;> simp [h1, h2]

@[simp] theorem State.latchCounters_frame (s : State) :
    (State.latchCounters s).prs.pmem = s.prs.pmem ∧ (State.latchCounters s).pending = s.pending := by
  simp [State.latchCounters, *]

@[simp] theorem State.counterWrite_frame (s : State) (n : Nat) (c : Nat) (hi : Bool) (v : Nat) :
    (State.counterWrite s n c hi v).prs.pmem = s.prs.pmem ∧ (State.counterWrite s n c hi v).pending = s.pending := by
  simp [State.counterWrite, *]

@[simp] theorem State.keepSeed_frame (s : State) :
    (State.keepSeed s).prs.pmem = s.prs.pmem ∧ (State.keepSeed s).pending = s.pending := by
  simp [State.keepSeed, *]

@[simp] theorem State.fieldWrite_frame (s : State) (row : RegRow) (off : Nat) (idx : Nat) (v : Nat) (f : RField) :
    (State.fieldWrite s row off idx v f).prs.pmem = s.prs.pmem ∧ (State.fieldWrite s row off idx v f).pending = s.pending := by
  simp [State.fieldWrite, *] <;> (repeat' (first | apply And.intro | intro _ | (simp [*]; done) | split | (rw [pm_foldl]) | (rw [pd_foldl]) | (rw [pm_foldl2]) | (rw [pd_foldl2])))

@[simp] theorem State.plainWrite_frame (s : State) (off : Nat) (v : Nat) :
    (State.plainWrite s off v).prs.pmem = s.prs.pmem ∧ (State.plainWrite s off v).pending = s.pending := by
  simp [State.plainWrite, *] <;> (repeat' (first | apply And.intro | intro _ | (simp [*]; done) | split | (rw [pm_foldl]) | (rw [pd_foldl]) | (rw [pm_foldl2]) | (rw [pd_foldl2])))

@[simp] theorem State.contextWrite_frame (s : State) (off : Nat) (v : Nat) :
    (State.contextWrite s off v).prs.pmem = s.prs.pmem ∧ (State.contextWrite s off v).pending = s.pending := by
  simp [State.contextWrite, *]

@[simp] theorem State.hstCtlWrite_frame (s : State) (v : Nat) :
    (State.hstCtlWrite s v).prs.pmem = s.prs.pmem ∧ (State.hstCtlWrite s v).pending = s.pending := by
  simp [State.hstCtlWrite, *]

@[simp] theorem State.chsAnyWrite_frame (s : State) (off : Nat) (v : Nat) :
    (State.chsAnyWrite s off v).prs.pmem = s.prs.pmem ∧ (State.chsAnyWrite s off v).pending = s.pending := by
  simp [State.chsAnyWrite, *] <;> (repeat' (first | apply And.intro | intro _ | (simp [*]; done) | split | (rw [pm_foldl]) | (rw [pd_foldl]) | (rw [pm_foldl2]) | (rw [pd_foldl2])))

@[simp] theorem State.flyRefuse_frame (s : State) (why : Nat) :
    (State.flyRefuse s why).prs.pmem = s.prs.pmem ∧ (State.flyRefuse s why).pending = s.pending := by
  simp [State.flyRefuse, *]

@[simp] theorem State.flyRequest_frame (s : State) (v : Nat) :
    (State.flyRequest s v).prs.pmem = s.prs.pmem ∧ (State.flyRequest s v).pending = s.pending := by
  simp [State.flyRequest, *]

@[simp] theorem State.startMode_frame (s : State) (v : Nat) :
    (State.startMode s v).prs.pmem = s.prs.pmem ∧ (State.startMode s v).pending = s.pending := by
  simp [State.startMode, *]

@[simp] theorem State.regWrite_frame (s : State) (off : Nat) (v : Nat) :
    (State.regWrite s off v).prs.pmem = s.prs.pmem ∧ (State.regWrite s off v).pending = s.pending := by
  simp [State.regWrite, *]

@[simp] theorem State.flyRegWrite_frame (s : State) (off : Nat) (v : Nat) :
    (State.flyRegWrite s off v).prs.pmem = s.prs.pmem ∧ (State.flyRegWrite s off v).pending = s.pending := by
  simp [State.flyRegWrite, *]

@[simp] theorem State.msixWrite_frame (s : State) (o : Nat) (v : Nat) :
    (State.msixWrite s o v).prs.pmem = s.prs.pmem ∧ (State.msixWrite s o v).pending = s.pending := by
  simp [State.msixWrite, *]

@[simp] theorem State.bar2Write_frame (s : State) (o : Nat) (size : Nat) (v : Nat) :
    (State.bar2Write s o size v).prs.pmem = s.prs.pmem ∧ (State.bar2Write s o size v).pending = s.pending := by
  simp [State.bar2Write, *]

@[simp] theorem State.busWrite_frame (s : State) (off : Nat) (size : Nat) (v : Nat) :
    (State.busWrite s off size v).prs.pmem = s.prs.pmem ∧ (State.busWrite s off size v).pending = s.pending := by
  simp [State.busWrite, *]

@[simp] theorem State.readClear_frame (s : State) (off : Nat) :
    (State.readClear s off).prs.pmem = s.prs.pmem ∧ (State.readClear s off).pending = s.pending := by
  simp [State.readClear, *] <;> (repeat' (first | apply And.intro | intro _ | (simp [*]; done) | split | (rw [pm_foldl]) | (rw [pd_foldl]) | (rw [pm_foldl2]) | (rw [pd_foldl2])))

@[simp] theorem State.busRead_frame (s : State) (off : Nat) (size : Nat) :
    (State.busRead s off size).prs.pmem = s.prs.pmem ∧ (State.busRead s off size).pending = s.pending := by
  simp [State.busRead, *]

@[simp] theorem State.loRead_frame (s : State) (req : Nat) (off : Nat) :
    (State.loRead s req off).prs.pmem = s.prs.pmem ∧ (State.loRead s req off).pending = s.pending := by
  simp [State.loRead, *]

@[simp] theorem State.flyBoot_frame (s : State) :
    (State.flyBoot s).pending = s.pending := by
  simp [State.flyBoot, *]

@[simp] theorem State.uartAnswer_frame (s : State) (cmd : Nat) (stat : Nat) :
    (State.uartAnswer s cmd stat).prs.pmem = s.prs.pmem ∧ (State.uartAnswer s cmd stat).pending = s.pending := by
  simp [State.uartAnswer, *]

@[simp] theorem State.uartIn_frame (s : State) (m : List Byte) (sig : Bool) :
    (State.uartIn s m sig).pending = s.pending := by
  simp [State.uartIn, *] <;> (repeat' (first | apply And.intro | intro _ | (simp [*]; done) | split | (rw [pm_foldl]) | (rw [pd_foldl]) | (rw [pm_foldl2]) | (rw [pd_foldl2])))

@[simp] theorem State.timeStep_frame (s : State) (o : Int) (rx : Nat) (n : Nat) :
    (State.timeStep s o rx n).prs.pmem = s.prs.pmem ∧ (State.timeStep s o rx n).pending = s.pending := by
  simp [State.timeStep, *]

@[simp] theorem State.setLeader_frame (s : State) (rank : Nat) (n : Nat) :
    (State.setLeader s rank n).prs.pmem = s.prs.pmem ∧ (State.setLeader s rank n).pending = s.pending := by
  simp [State.setLeader, *]

@[simp] theorem State.join_frame (s : State) (src : Nat) (rx : Nat) (tx : Int) (n : Nat) :
    (State.join s src rx tx n).prs.pmem = s.prs.pmem ∧ (State.join s src rx tx n).pending = s.pending := by
  simp [State.join, *]

@[simp] theorem State.track_frame (s : State) (rx : Nat) (tx : Int) (n : Nat) :
    (State.track s rx tx n).prs.pmem = s.prs.pmem ∧ (State.track s rx tx n).pending = s.pending := by
  simp [State.track, *]

@[simp] theorem State.beaconBody_frame (s : State) (rx : Nat) (n : Nat) (p : List Byte) :
    (State.beaconBody s rx n p).prs.pmem = s.prs.pmem ∧ (State.beaconBody s rx n p).pending = s.pending := by
  simp [State.beaconBody, *]

@[simp] theorem State.takeBeacon_frame (s : State) (src : Nat) (rx : Nat) (p : List Byte) :
    (State.takeBeacon s src rx p).prs.pmem = s.prs.pmem ∧ (State.takeBeacon s src rx p).pending = s.pending := by
  simp [State.takeBeacon, *]

@[simp] theorem State.sendBeacon_frame (s : State) (n : Nat) :
    (State.sendBeacon s n).prs.pmem = s.prs.pmem ∧ (State.sendBeacon s n).pending = s.pending := by
  simp [State.sendBeacon, *]

@[simp] theorem State.beaconInstant_frame (s : State) :
    (State.beaconInstant s).prs.pmem = s.prs.pmem ∧ (State.beaconInstant s).pending = s.pending := by
  simp [State.beaconInstant, *]

@[simp] theorem State.backoffExpiry_frame (s : State) :
    (State.backoffExpiry s).prs.pmem = s.prs.pmem ∧ (State.backoffExpiry s).pending = s.pending := by
  simp [State.backoffExpiry, *] <;> (repeat' (first | apply And.intro | intro _ | (simp [*]; done) | split | (rw [pm_foldl]) | (rw [pd_foldl]) | (rw [pm_foldl2]) | (rw [pd_foldl2])))

@[simp] theorem State.deliver_frame (s : State) (typ : Nat) (src : Nat) (rx : Nat) (p : List Byte) :
    (State.deliver s typ src rx p).prs.pmem = s.prs.pmem ∧ (State.deliver s typ src rx p).pending = s.pending := by
  simp [State.deliver, *] <;> (repeat' (first | apply And.intro | intro _ | (simp [*]; done) | split | (rw [pm_foldl]) | (rw [pd_foldl]) | (rw [pm_foldl2]) | (rw [pd_foldl2])))

@[simp] theorem State.stranger_frame (s : State) :
    (State.stranger s).prs.pmem = s.prs.pmem ∧ (State.stranger s).pending = s.pending := by
  simp [State.stranger, *]

@[simp] theorem State.sendAck_frame (s : State) (src : Nat) (seq : Nat) :
    (State.sendAck s src seq).prs.pmem = s.prs.pmem ∧ (State.sendAck s src seq).pending = s.pending := by
  simp [State.sendAck, *]

@[simp] theorem State.posClaim_frame (s : State) :
    (State.posClaim s).prs.pmem = s.prs.pmem ∧ (State.posClaim s).pending = s.pending := by
  simp [State.posClaim, *]

@[simp] theorem State.seqCheck_frame (s : State) (rx : Nat) (b : List Byte) :
    (State.seqCheck s rx b).prs.pmem = s.prs.pmem ∧ (State.seqCheck s rx b).pending = s.pending := by
  simp [State.seqCheck, *] <;> (repeat' (first | apply And.intro | intro _ | (simp [*]; done) | split | (rw [pm_foldl]) | (rw [pd_foldl]) | (rw [pm_foldl2]) | (rw [pd_foldl2])))

@[simp] theorem State.fennalFrame_frame (s : State) (rx : Nat) (good : Bool) (b : List Byte) :
    (State.fennalFrame s rx good b).prs.pmem = s.prs.pmem ∧ (State.fennalFrame s rx good b).pending = s.pending := by
  simp [State.fennalFrame, *] <;> (repeat' (first | apply And.intro | intro _ | (simp [*]; done) | split | (rw [pm_foldl]) | (rw [pd_foldl]) | (rw [pm_foldl2]) | (rw [pd_foldl2])))

@[simp] theorem State.delivered_frame (s : State) (typ : Nat) (src : Nat) (rx : Nat) (p : List Byte) :
    (State.delivered s typ src rx p).prs.pmem = s.prs.pmem ∧ (State.delivered s typ src rx p).pending = s.pending := by
  simp [State.delivered, *]

@[simp] theorem State.phaseRan_frame (s : State) (q : Nat) :
    (State.phaseRan s q).prs.pmem = s.prs.pmem ∧ (State.phaseRan s q).pending = s.pending := by
  simp [State.phaseRan, *]

@[simp] theorem State.periodCounts_frame (s : State) :
    (State.periodCounts s).prs.pmem = s.prs.pmem ∧ (State.periodCounts s).pending = s.pending := by
  simp [State.periodCounts, *]

@[simp] theorem State.timePasses_frame (s : State) :
    (State.timePasses s).prs.pmem = s.prs.pmem ∧ (State.timePasses s).pending = s.pending := by
  simp [State.timePasses, *]

@[simp] theorem State.loopEnd_frame (s : State) (n : Nat) :
    (State.loopEnd s n).prs.pmem = s.prs.pmem ∧ (State.loopEnd s n).pending = s.pending := by
  simp [State.loopEnd, *]

@[simp] theorem State.openCount_frame (s : State) (n : Nat) :
    (State.openCount s n).prs.pmem = s.prs.pmem ∧ (State.openCount s n).pending = s.pending := by
  simp [State.openCount, *]

@[simp] theorem State.groupNone_frame (s : State) (st : Nat) :
    (State.groupNone s st).prs.pmem = s.prs.pmem ∧ (State.groupNone s st).pending = s.pending := by
  simp [State.groupNone, *]

@[simp] theorem State.haltWork_frame (s : State) :
    (State.haltWork s).prs.pmem = s.prs.pmem ∧ (State.haltWork s).pending = s.pending := by
  simp [State.haltWork, *]

@[simp] theorem State.periodWrites_frame (s : State) :
    (State.periodWrites s).prs.pmem = s.prs.pmem ∧ (State.periodWrites s).pending = s.pending := by
  simp [State.periodWrites, *]

@[simp] theorem State.budgetAgain_frame (s : State) :
    (State.budgetAgain s).prs.pmem = s.prs.pmem ∧ (State.budgetAgain s).pending = s.pending := by
  simp [State.budgetAgain, *] <;> (repeat' (first | apply And.intro | intro _ | (simp [*]; done) | split | (rw [pm_foldl]) | (rw [pd_foldl]) | (rw [pm_foldl2]) | (rw [pd_foldl2])))

@[simp] theorem State.pressWrites_frame (s : State) :
    (State.pressWrites s).prs.pmem = s.prs.pmem ∧ (State.pressWrites s).pending = s.pending := by
  simp [State.pressWrites, *] <;> (repeat' (first | apply And.intro | intro _ | (simp [*]; done) | split | (rw [pm_foldl]) | (rw [pd_foldl]) | (rw [pm_foldl2]) | (rw [pd_foldl2])))

@[simp] theorem State.imposeEnd_frame (s : State) (c : Staged) (good : Bool) :
    (State.imposeEnd s c good).prs.pmem = s.prs.pmem ∧ (State.imposeEnd s c good).pending = s.pending := by
  simp [State.imposeEnd, *]

@[simp] theorem State.imposeOne_frame (s : State) (press : Bool) (c : Staged) :
    (State.imposeOne s press c).pending = s.pending := by
  simp [State.imposeOne, *] <;> (repeat' (first | apply And.intro | intro _ | (simp [*]; done) | split | (rw [pm_foldl]) | (rw [pd_foldl]) | (rw [pm_foldl2]) | (rw [pd_foldl2])))

@[simp] theorem State.imposeStaged_frame (s : State) (press : Bool) :
    (State.imposeStaged s press).pending = s.pending := by
  simp [State.imposeStaged, *] <;> (repeat' (first | apply And.intro | intro _ | (simp [*]; done) | split | (rw [pm_foldl]) | (rw [pd_foldl]) | (rw [pm_foldl2]) | (rw [pd_foldl2])))

@[simp] theorem State.lawDueNow_frame (s : State) :
    (State.lawDueNow s).prs.pmem = s.prs.pmem ∧ (State.lawDueNow s).pending = s.pending := by
  simp [State.lawDueNow, *] <;> (repeat' (first | apply And.intro | intro _ | (simp [*]; done) | split | (rw [pm_foldl]) | (rw [pd_foldl]) | (rw [pm_foldl2]) | (rw [pd_foldl2])))

@[simp] theorem State.listsNow_frame (s : State) :
    (State.listsNow s).prs.pmem = s.prs.pmem ∧ (State.listsNow s).pending = s.pending := by
  simp [State.listsNow, *]

@[simp] theorem State.ringLost_frame (s : State) (st : Nat) :
    (State.ringLost s st).prs.pmem = s.prs.pmem ∧ (State.ringLost s st).pending = s.pending := by
  simp [State.ringLost, *] <;> (repeat' (first | apply And.intro | intro _ | (simp [*]; done) | split | (rw [pm_foldl]) | (rw [pd_foldl]) | (rw [pm_foldl2]) | (rw [pd_foldl2])))

@[simp] theorem State.wakeEnd_frame (s : State) (q : Nat) :
    (State.wakeEnd s q).prs.pmem = s.prs.pmem ∧ (State.wakeEnd s q).pending = s.pending := by
  simp [State.wakeEnd, *]

@[simp] theorem State.holdGroup_frame (s : State) (g : Nat) :
    (State.holdGroup s g).prs.pmem = s.prs.pmem ∧ (State.holdGroup s g).pending = s.pending := by
  simp [State.holdGroup, *]

@[simp] theorem State.phaseSteps_frame (s : State) :
    (State.phaseSteps s).prs.pmem = s.prs.pmem ∧ (State.phaseSteps s).pending = s.pending := by
  simp [State.phaseSteps, *]

@[simp] theorem State.arming_frame (s : State) (rolled : Bool) :
    (State.arming s rolled).prs.pmem = s.prs.pmem ∧ (State.arming s rolled).pending = s.pending := by
  simp [State.arming, *]

@[simp] theorem State.hbPath_frame (s : State) (n : Nat) (run : Nat) (other : Nat) :
    (State.hbPath s n run other).prs.pmem = s.prs.pmem ∧ (State.hbPath s n run other).pending = s.pending := by
  simp [State.hbPath, *]

@[simp] theorem State.silenceTick_frame (s : State) (edge : Bool) :
    (State.silenceTick s edge).prs.pmem = s.prs.pmem ∧ (State.silenceTick s edge).pending = s.pending := by
  simp [State.silenceTick, *]

@[simp] theorem State.readyTick_frame (s : State) :
    (State.readyTick s).prs.pmem = s.prs.pmem ∧ (State.readyTick s).pending = s.pending := by
  simp [State.readyTick, *]

@[simp] theorem State.boardJudge_frame (s : State) :
    (State.boardJudge s).prs.pmem = s.prs.pmem ∧ (State.boardJudge s).pending = s.pending := by
  simp [State.boardJudge, *]

@[simp] theorem State.corrTick_frame (s : State) :
    (State.corrTick s).prs.pmem = s.prs.pmem ∧ (State.corrTick s).pending = s.pending := by
  simp [State.corrTick, *]

@[simp] theorem State.proveTick_frame (s : State) :
    (State.proveTick s).prs.pmem = s.prs.pmem ∧ (State.proveTick s).pending = s.pending := by
  simp [State.proveTick, *] <;> (repeat' (first | apply And.intro | intro _ | (simp [*]; done) | split | (rw [pm_foldl]) | (rw [pd_foldl]) | (rw [pm_foldl2]) | (rw [pd_foldl2])))

@[simp] theorem State.roleTick_frame (s : State) :
    (State.roleTick s).prs.pmem = s.prs.pmem ∧ (State.roleTick s).pending = s.pending := by
  simp [State.roleTick, *]

@[simp] theorem State.syncNow_frame (s : State) :
    (State.syncNow s).prs.pmem = s.prs.pmem ∧ (State.syncNow s).pending = s.pending := by
  simp [State.syncNow, *]

@[simp] theorem State.hbToggle_frame (s : State) (back : Bool) :
    (State.hbToggle s back).prs.pmem = s.prs.pmem ∧ (State.hbToggle s back).pending = s.pending := by
  simp [State.hbToggle, *]

@[simp] theorem State.blockTicks_frame (s : State) :
    (State.blockTicks s).prs.pmem = s.prs.pmem ∧ (State.blockTicks s).pending = s.pending := by
  simp [State.blockTicks, *]

@[simp] theorem State.samplesGone_frame (s : State) :
    (State.samplesGone s).prs.pmem = s.prs.pmem ∧ (State.samplesGone s).pending = s.pending := by
  simp [State.samplesGone, *]

@[simp] theorem State.periodEnd_frame (s : State) :
    (State.periodEnd s).prs.pmem = s.prs.pmem ∧ (State.periodEnd s).pending = s.pending := by
  simp [State.periodEnd, *]

@[simp] theorem State.changesNow_frame (s : State) (press : Bool) :
    (State.changesNow s press).pending = s.pending := by
  simp [State.changesNow, *] <;> (repeat' (first | apply And.intro | intro _ | (simp [*]; done) | split | (rw [pm_foldl]) | (rw [pd_foldl]) | (rw [pm_foldl2]) | (rw [pd_foldl2])))

@[simp] theorem State.linkPhases_frame (s : State) :
    (State.linkPhases s).prs.pmem = s.prs.pmem ∧ (State.linkPhases s).pending = s.pending := by
  simp [State.linkPhases, *]

@[simp] theorem State.drive_frame (s : State) (n : Nat) (unit : Nat) (again : Bool) :
    (State.drive s n unit again).pending = s.pending := by
  simp [State.drive, *] <;> (repeat' (first | apply And.intro | intro _ | (simp [*]; done) | split | (rw [pm_foldl]) | (rw [pd_foldl]) | (rw [pm_foldl2]) | (rw [pd_foldl2])))

@[simp] theorem State.occurrence_frame (s : State) (x : Injection) (again : Bool) :
    (State.occurrence s x again).pending = s.pending := by
  simp [State.occurrence, *] <;> (repeat' (first | apply And.intro | intro _ | (simp [*]; done) | split | (rw [pm_foldl]) | (rw [pd_foldl]) | (rw [pm_foldl2]) | (rw [pd_foldl2])))

@[simp] theorem State.inject_frame (s : State) (n : Nat) (mode : Nat) (p1 : Nat) (param : Nat) (ring : Nat) :
    (State.inject s n mode p1 param ring).pending = s.pending := by
  simp [State.inject, *] <;> (repeat' (first | apply And.intro | intro _ | (simp [*]; done) | split | (rw [pm_foldl]) | (rw [pd_foldl]) | (rw [pm_foldl2]) | (rw [pd_foldl2])))

@[simp] theorem State.injectionTick_frame (s : State) :
    (State.injectionTick s).pending = s.pending := by
  simp [State.injectionTick, *] <;> (repeat' (first | apply And.intro | intro _ | (simp [*]; done) | split | (rw [pm_foldl]) | (rw [pd_foldl]) | (rw [pm_foldl2]) | (rw [pd_foldl2])))

@[simp] theorem State.drivesNow_frame (s : State) (press : Bool) :
    (State.drivesNow s press).prs.pmem = s.prs.pmem ∧ (State.drivesNow s press).pending = s.pending := by
  simp [State.drivesNow, *]

@[simp] theorem State.periodBoundary_frame (s : State) (hbEdge : Bool) (hbBack : Bool) :
    (State.periodBoundary s hbEdge hbBack).pending = s.pending := by
  simp [State.periodBoundary, *]

end Sys2Proof.Machine
end

