-- ==== Sys2Proof/Laws/Memory.lean ====
section
/-!
SUPPORT. The memory of the Press: every operation keeps its canonical form, and a read after a write.
-/
namespace Sys2Proof.Machine
set_option linter.all false

theorem Memory.wf_cons (c : Host.Cell) (t : List Host.Cell) :
    Memory.wf (c :: t) = true ↔ c.2 ≠ 0 ∧ (∀ d ∈ t.head?, c.1 < d.1) ∧ Memory.wf t = true := by
  cases t with
  | nil => simp [Memory.wf]
  | cons d t => simp [Memory.wf, and_assoc]

theorem Memory.write_head (m : List Host.Cell) (a k : Nat) (b : Byte) (hk : k < a) (h : ∀ d ∈ m.head?, k < d.1)
    (hm : ∀ c t, m = c :: t → ∀ d ∈ t.head?, c.1 < d.1) :
    ∀ d ∈ (Memory.write m a b).head?, k < d.1 := by
  cases m with
  | nil => simp only [Memory.write]; split <;> simp_all
  | cons c t =>
    have h1 : k < c.1 := h c (by simp)
    have h2 := hm c t rfl
    simp only [Memory.write]
    split
    · split
      · intro d hd; have := h2 d hd; omega
      · simp_all
    · split
      · split <;> simp_all
      · simp_all

theorem Memory.wf_write (m : List Host.Cell) (a : Nat) (b : Byte) (h : Memory.wf m = true) :
    Memory.wf (Memory.write m a b) = true := by
  induction m with
  | nil => simp only [Memory.write]; split <;> simp_all [Memory.wf]
  | cons c t ih =>
    obtain ⟨h0, h1, h2⟩ := (Memory.wf_cons c t).1 h
    simp only [Memory.write]
    split
    · split
      · exact h2
      · rename_i e hb
        exact (Memory.wf_cons _ _).2 ⟨hb, fun d hd => by have := h1 d hd; simp; omega, h2⟩
    · split
      · split
        · exact h
        · rename_i e hlt hb
          exact (Memory.wf_cons _ _).2 ⟨hb, by simpa using hlt, h⟩
      · rename_i hne hlt
        refine (Memory.wf_cons _ _).2 ⟨h0, ?_, ih h2⟩
        refine Memory.write_head t a c.1 b (by omega) h1 ?_
        intro x u hx d hd
        subst hx
        exact ((Memory.wf_cons _ _).1 h2).2.1 d hd

theorem Memory.wf_foldl (bs : List Byte) (a : Nat) (m : List Host.Cell) (h : Memory.wf m = true) :
    Memory.wf (bs.foldl (fun (p : Nat × List Host.Cell) b => (p.1 + 1, Memory.write p.2 p.1 b)) (a, m)).2 = true := by
  induction bs generalizing a m with
  | nil => exact h
  | cons b bs ih => exact ih _ _ (Memory.wf_write m a b h)

@[simp] theorem Memory.wf_writes (m : List Host.Cell) (a : Nat) (bs : List Byte) (h : Memory.wf m = true) :
    Memory.wf (Memory.writes m a bs) = true := Memory.wf_foldl bs a m h

/-- Below the first address of a canonical memory every byte reads as 0. -/
theorem Memory.read_below (m : List Host.Cell) (a : Nat) (hw : Memory.wf m = true) (h : ∀ c ∈ m.head?, a < c.1) :
    Memory.read m a = 0 := by
  induction m with
  | nil => rfl
  | cons c t ih =>
    obtain ⟨_, h1, h2⟩ := (Memory.wf_cons c t).1 hw
    have hc : a < c.1 := h c (by simp)
    simp only [Memory.read]
    rw [if_neg (by omega)]
    exact ih h2 fun d hd => by have := h1 d hd; omega

/-- A byte written reads back. -/
theorem Memory.read_write_same (m : List Host.Cell) (a : Nat) (b : Byte) (hw : Memory.wf m = true) :
    Memory.read (Memory.write m a b) a = b := by
  induction m with
  | nil => simp only [Memory.write]; split <;> simp_all [Memory.read]
  | cons c t ih =>
    obtain ⟨_, h1, h2⟩ := (Memory.wf_cons c t).1 hw
    simp only [Memory.write]
    split
    · rename_i hc
      split
      · rename_i hb
        rw [hb]
        exact Memory.read_below t a h2 fun d hd => by have := h1 d hd; omega
      · simp [Memory.read]
    · split
      · rename_i hne hlt
        split
        · rename_i hb
          rw [hb]
          exact Memory.read_below _ a hw (by simpa using hlt)
        · simp [Memory.read]
      · rename_i hne _
        simp only [Memory.read, if_neg hne]
        exact ih h2

/-- Every other byte reads as before. -/
theorem Memory.read_write_ne (m : List Host.Cell) (a k : Nat) (b : Byte) (h : k ≠ a) :
    Memory.read (Memory.write m a b) k = Memory.read m k := by
  induction m with
  | nil => simp only [Memory.write]; split <;> simp [Memory.read, h.symm]
  | cons c t ih =>
    simp only [Memory.write]
    split
    · rename_i hc
      split <;> simp [Memory.read, hc, h.symm]
    · split
      · split <;> simp [Memory.read, h.symm]
      · simp [Memory.read, ih]

end Sys2Proof.Machine
end

