-- ==== Sys2Proof/Laws/Wf.lean ====
section
/-!
SUPPORT. Every function that stores to the memory of the Press keeps its canonical form.
-/
namespace Sys2Proof.Machine
set_option linter.all false

theorem memX_ite (c : Prop) [Decidable c] (a b : State) :
    Memory.wf (if c then a else b).prs.pmem = if c then Memory.wf a.prs.pmem else Memory.wf b.prs.pmem := by
  split <;> rfl
theorem memRX_ite (c : Prop) [Decidable c] (a b : Reply) :
    Memory.wf (if c then a else b).s.prs.pmem = if c then Memory.wf a.s.prs.pmem else Memory.wf b.s.prs.pmem := by
  split <;> rfl
theorem mem2X_ite {α : Type} (c : Prop) [Decidable c] (a b : α × State) :
    Memory.wf (if c then a else b).2.prs.pmem = if c then Memory.wf a.2.prs.pmem else Memory.wf b.2.prs.pmem := by
  split <;> rfl
theorem memX_foldl {α : Type} (l : List α) (f : State → α → State) (s : State) (h : Memory.wf s.prs.pmem)
    (hf : ∀ s a, Memory.wf s.prs.pmem → Memory.wf (f s a).prs.pmem) : Memory.wf (l.foldl f s).prs.pmem := by
  induction l generalizing s with
  | nil => exact h
  | cons a l ih => exact ih _ (hf _ _ h)
theorem memX_foldl2 {α β : Type} (l : List α) (f : β × State → α → β × State) (p : β × State) (h : Memory.wf p.2.prs.pmem)
    (hf : ∀ p a, Memory.wf p.2.prs.pmem → Memory.wf (f p a).2.prs.pmem) : Memory.wf (l.foldl f p).2.prs.pmem := by
  induction l generalizing p with
  | nil => exact h
  | cons a l ih => exact ih _ (hf _ _ h)

theorem wf_foldl {α : Type} (l : List α) (f : State → α → State) (s : State) (h : Memory.wf s.prs.pmem = true)
    (hf : ∀ s a, Memory.wf s.prs.pmem = true → Memory.wf (f s a).prs.pmem = true) : Memory.wf (l.foldl f s).prs.pmem = true := by
  induction l generalizing s with
  | nil => exact h
  | cons a l ih => exact ih _ (hf _ _ h)
theorem wf_foldl2 {α β : Type} (l : List α) (f : β × State → α → β × State) (p : β × State) (h : Memory.wf p.2.prs.pmem = true)
    (hf : ∀ p a, Memory.wf p.2.prs.pmem = true → Memory.wf (f p a).2.prs.pmem = true) : Memory.wf (l.foldl f p).2.prs.pmem = true := by
  induction l generalizing p with
  | nil => exact h
  | cons a l ih => exact ih _ (hf _ _ h)

theorem State.pwrite_wf (s : State) (a : Nat) (bs : List Byte) (h : Memory.wf s.prs.pmem = true) :
    Memory.wf (s.pwrite a bs).prs.pmem = true := by
  unfold State.pwrite
  split
  · exact h
  · exact Memory.wf_writes _ _ _ h

theorem State.guarded_wf (s : State) (c : Ctx) (x : Tensor) (a n : Nat) (f : State → Nat → State)
    (hf : ∀ s a, Memory.wf s.prs.pmem = true → Memory.wf (f s a).prs.pmem = true) (h : Memory.wf s.prs.pmem = true) :
    Memory.wf (s.guarded c x a n f).prs.pmem = true := by
  unfold State.guarded
  split
  · rw [(State.dramBlocked_frame _ _).1]; exact h
  · exact hf _ _ h

theorem State.rowPut_wf (s : State) (c : Ctx) (x : Tensor) (i : Inst) (r chans c0 : Nat) (vs : List Int) (row : Nat)
    (h : Memory.wf s.prs.pmem = true) : Memory.wf (s.rowPut c x i r chans c0 vs row).prs.pmem = true := by
  unfold State.rowPut
  simp only
  split
  · rw [(State.sats_frame _ _ _ _).1]
    exact State.pwrite_wf _ _ _ h
  · rw [(State.sats_frame _ _ _ _).1]
    exact State.pwrite_wf _ _ _ (State.pwrite_wf _ _ _ h)

theorem State.putRowAt_wf (s : State) (c : Ctx) (x : Tensor) (i : Inst) (r chans c0 : Nat) (vs : List Int)
    (h : Memory.wf s.prs.pmem = true) : Memory.wf (s.putRowAt c x i r chans c0 vs).prs.pmem = true := by
  unfold State.putRowAt
  exact State.guarded_wf _ _ _ _ _ _ (fun s a h => State.rowPut_wf s c x i r chans c0 vs a h) h

/-- A move over the spine keeps the canonical form when its effect does. -/
theorem State.noteMove_wf (s : State) (rows : List (List Nat × Nat × Nat)) (eff : State → State)
    (heff : ∀ s, Memory.wf s.prs.pmem = true → Memory.wf (eff s).prs.pmem = true) (h : Memory.wf s.prs.pmem = true) :
    Memory.wf (s.noteMove rows eff).prs.pmem = true := by
  unfold State.noteMove
  split
  · exact heff _ h
  · exact heff _ h

theorem State.putRow_wf (s : State) (c : Ctx) (x : Tensor) (i : Inst) (r chans : Nat) (vs : List Int) (h : Memory.wf s.prs.pmem = true) :
    Memory.wf (s.putRow c x i r chans vs).prs.pmem = true := by
  exact State.putRowAt_wf s c x i r chans 0 vs h

theorem State.elems_wf (s : State) (c : Ctx) (d : Tensor) (op : State → Inst → Nat → Nat → W Int) (h : Memory.wf s.prs.pmem = true) :
    Memory.wf (State.elems s c d op).prs.pmem = true := by
  unfold State.elems
  (simp only []; repeat' (first | assumption | apply And.intro | intro _ | (simp [*]; done) | (apply State.putRow_wf) | split | (apply wf_foldl) | (apply wf_foldl2) | (simp_all; done)))

theorem State.copyRow_wf (s : State) (d : Tensor) (x : Tensor) (dst : Nat) (src : Nat) (n : Nat) (h : Memory.wf s.prs.pmem = true) :
    Memory.wf (State.copyRow s d x dst src n).prs.pmem = true := by
  unfold State.copyRow
  (simp only []; repeat' (first | assumption | apply And.intro | intro _ | (simp [*]; done) | (apply State.pwrite_wf) | split | (apply wf_foldl) | (apply wf_foldl2) | (simp_all; done)))

/-- A change of the Press beside its memory keeps the memory. -/
theorem State.prsMod_pmem (s : State) (f : Prs → Prs) (h : ∀ p, (f p).pmem = p.pmem) :
    (s.prsMod f).prs.pmem = s.prs.pmem := h _

theorem State.prsMod_wf (s : State) (f : Prs → Prs) (h : ∀ p, (f p).pmem = p.pmem)
    (hs : Memory.wf s.prs.pmem = true) : Memory.wf (s.prsMod f).prs.pmem = true :=
  (State.prsMod_pmem s f h).symm ▸ hs

theorem State.loadBlock_wf (s : State) (c : Ctx) (d x : Tensor) (r src : Nat) (i : Inst) (leaf b : Nat)
    (h : Memory.wf s.prs.pmem = true) : Memory.wf (State.loadBlock s c d x r src i leaf b).prs.pmem = true := by
  unfold State.loadBlock
  refine State.prsMod_wf _ _ ?_ ?_
  · intro p
    rfl
  · exact State.pwrite_wf _ _ _ (State.pwrite_wf _ _ _ h)

theorem State.loadWeights_wf (s : State) (c : Ctx) (d : Tensor) (x : Tensor) (r : Nat) (src : Nat) (h : Memory.wf s.prs.pmem = true) :
    Memory.wf (State.loadWeights s c d x r src).prs.pmem = true := by
  refine wf_foldl _ _ _ h fun s b h => ?_
  simp only []
  split
  · exact h
  · exact State.loadBlock_wf _ _ _ _ _ _ _ _ _ h

theorem State.sortLoad_wf (s : State) (c : Ctx) (h : Memory.wf s.prs.pmem = true) :
    Memory.wf (s.sortLoad c).prs.pmem = true := by
  unfold State.sortLoad
  split
  · split
    · exact wf_foldl _ _ _ h fun s r h => State.loadWeights_wf _ _ _ _ _ _ h
    · refine wf_foldl _ _ _ h fun s i h => ?_
      refine wf_foldl _ _ _ h fun s r h => ?_
      exact State.copyRow_wf _ _ _ _ _ _ h
  · exact h

theorem State.maskRow_wf (s : State) (m : Tensor) (a : Nat) (vs : List Nat) (h : Memory.wf s.prs.pmem = true) :
    Memory.wf (State.maskRow s m a vs).prs.pmem = true := by
  unfold State.maskRow
  (simp only []; repeat' (first | assumption | apply And.intro | intro _ | (simp [*]; done) | (apply State.pwrite_wf) | split | (apply wf_foldl) | (apply wf_foldl2) | (simp_all; done)))

theorem State.sortStore_wf (s : State) (c : Ctx) (h : Memory.wf s.prs.pmem = true) :
    Memory.wf (State.sortStore s c).prs.pmem = true := by
  unfold State.sortStore
  split
  · refine wf_foldl _ _ _ h fun s i h => wf_foldl _ _ _ h fun s r h => ?_
    exact State.guarded_wf _ _ _ _ _ _ (fun s a h => State.copyRow_wf _ _ _ _ _ _ h) h
  · exact h

theorem State.sortCopy_wf (s : State) (c : Ctx) (h : Memory.wf s.prs.pmem = true) :
    Memory.wf (State.sortCopy s c).prs.pmem = true := by
  unfold State.sortCopy
  (simp only []; repeat' (first | assumption | apply And.intro | intro _ | (simp [*]; done) | (apply State.noteMove_wf) | (apply State.copyRow_wf) | split | (apply wf_foldl) | (apply wf_foldl2) | (simp_all; done)))

theorem State.sortInput_wf (s : State) (c : Ctx) (h : Memory.wf s.prs.pmem = true) :
    Memory.wf (State.sortInput s c).prs.pmem = true := by
  unfold State.sortInput
  (simp only []; repeat' (first | assumption | apply And.intro | intro _ | (simp [*]; done) | (apply State.guarded_wf) | (apply State.maskRow_wf) | (apply State.pwrite_wf) | split | (apply wf_foldl) | (apply wf_foldl2) | (simp_all; done)))

theorem State.sortMmul_wf (s : State) (c : Ctx) (h : Memory.wf s.prs.pmem = true) :
    Memory.wf (State.sortMmul s c).prs.pmem = true := by
  unfold State.sortMmul
  (simp only []; repeat' (first | assumption | apply And.intro | intro _ | (simp [*]; done) | (apply State.noteMove_wf) | (apply State.putRowAt_wf) | split | (apply wf_foldl) | (apply wf_foldl2) | (simp_all; done)))

theorem State.sortGouter_wf (s : State) (c : Ctx) (h : Memory.wf s.prs.pmem = true) :
    Memory.wf (State.sortGouter s c).prs.pmem = true := by
  unfold State.sortGouter
  (simp only []; repeat' (first | assumption | apply And.intro | intro _ | (simp [*]; done) | (apply State.noteMove_wf) | (apply State.putRow_wf) | split | (apply wf_foldl) | (apply wf_foldl2) | (simp_all; done)))

theorem State.sortElem_wf (op : Int → Int → Int → W Int) (s : State) (c : Ctx) (h : Memory.wf s.prs.pmem = true) :
    Memory.wf (State.sortElem op s c).prs.pmem = true := by
  unfold State.sortElem
  (simp only []; repeat' (first | assumption | apply And.intro | intro _ | (simp [*]; done) | (apply State.elems_wf) | split | (apply wf_foldl) | (apply wf_foldl2) | (simp_all; done)))

theorem State.sortUnary_wf (op : Ctx → Int → W Int) (s : State) (c : Ctx) (h : Memory.wf s.prs.pmem = true) :
    Memory.wf (State.sortUnary op s c).prs.pmem = true := by
  unfold State.sortUnary
  (simp only []; repeat' (first | assumption | apply And.intro | intro _ | (simp [*]; done) | (apply State.elems_wf) | split | (apply wf_foldl) | (apply wf_foldl2) | (simp_all; done)))

theorem State.sortClamp_wf (s : State) (c : Ctx) (h : Memory.wf s.prs.pmem = true) :
    Memory.wf (State.sortClamp s c).prs.pmem = true := by
  unfold State.sortClamp
  (simp only []; repeat' (first | assumption | apply And.intro | intro _ | (simp [*]; done) | (apply State.elems_wf) | split | (apply wf_foldl) | (apply wf_foldl2) | (simp_all; done)))

theorem State.sortRescale_wf (s : State) (c : Ctx) (h : Memory.wf s.prs.pmem = true) :
    Memory.wf (State.sortRescale s c).prs.pmem = true := by
  unfold State.sortRescale
  (simp [*] <;> (repeat' (first | assumption | apply And.intro | intro _ | (simp [*]; done) | (apply State.elems_wf) | split | (apply wf_foldl) | (apply wf_foldl2) | (simp_all; done))))

theorem State.sortReduce_wf (op : List (Int × Inst) → W Int) (s : State) (c : Ctx) (h : Memory.wf s.prs.pmem = true) :
    Memory.wf (State.sortReduce op s c).prs.pmem = true := by
  unfold State.sortReduce
  (simp only []; repeat' (first | assumption | apply And.intro | intro _ | (simp [*]; done) | (apply State.noteMove_wf) | (apply State.putRow_wf) | split | (apply wf_foldl) | (apply wf_foldl2) | (simp_all; done)))

theorem State.sortLut_wf (s : State) (c : Ctx) (h : Memory.wf s.prs.pmem = true) :
    Memory.wf (State.sortLut s c).prs.pmem = true := by
  unfold State.sortLut
  (simp only []; repeat' (first | assumption | apply And.intro | intro _ | (simp [*]; done) | (apply State.elems_wf) | split | (apply wf_foldl) | (apply wf_foldl2) | (simp_all; done)))

theorem State.sortScan_wf (s : State) (c : Ctx) (h : Memory.wf s.prs.pmem = true) :
    Memory.wf (State.sortScan s c).prs.pmem = true := by
  unfold State.sortScan
  (simp only []; repeat' (first | assumption | apply And.intro | intro _ | (simp [*]; done) | (apply State.putRow_wf) | (apply State.pwrite_wf) | split | (apply wf_foldl) | (apply wf_foldl2) | (simp_all; done)))

theorem State.sortAttn_wf (s : State) (c : Ctx) (h : Memory.wf s.prs.pmem = true) :
    Memory.wf (State.sortAttn s c).prs.pmem = true := by
  unfold State.sortAttn
  (simp only []; repeat' (first | assumption | apply And.intro | intro _ | (simp [*]; done) | (apply State.putRow_wf) | split | (apply wf_foldl) | (apply wf_foldl2) | (simp_all; done)))

theorem State.sortGapply_wf (s : State) (c : Ctx) (h : Memory.wf s.prs.pmem = true) :
    Memory.wf (State.sortGapply s c).prs.pmem = true := by
  unfold State.sortGapply
  (simp only []; repeat' (first | assumption | apply And.intro | intro _ | (simp [*]; done) | (apply State.elems_wf) | split | (apply wf_foldl) | (apply wf_foldl2) | (simp_all; done)))

theorem State.copyOne_wf (s : State) (t m : Nat) (l : List (Nat × List Byte)) (h : Memory.wf s.prs.pmem = true) :
    Memory.wf (l.foldl (fun s x => s.pwrite (dramAddr t (regionBase 2 + m + x.1)) x.2) s).prs.pmem = true := by
  induction l generalizing s with
  | nil => exact h
  | cons x l ih => rw [List.foldl_cons]; exact ih _ (State.pwrite_wf _ _ _ h)

theorem State.copyData_wf (s : State) (f : Forme) (h : Memory.wf s.prs.pmem = true) : Memory.wf (s.copyData f).prs.pmem = true := by
  unfold State.copyData
  generalize s.tbs = l
  induction l generalizing s with
  | nil => exact h
  | cons t l ih => rw [List.foldl_cons]; exact ih _ (State.copyOne_wf _ _ _ _ h)

theorem State.copyArea_wf (s : State) (src so dst dof n : Nat) (h : Memory.wf s.prs.pmem = true) :
    Memory.wf (s.copyArea src so dst dof n).prs.pmem = true := by
  unfold State.copyArea
  generalize s.tbs = l
  induction l generalizing s with
  | nil => exact h
  | cons t l ih => rw [List.foldl_cons]; exact ih _ (State.pwrite_wf _ _ _ h)

theorem State.promoBack_wf (s : State) (outcome failure : Nat) (h : Memory.wf s.prs.pmem = true) :
    Memory.wf (s.promoBack outcome failure).prs.pmem = true := by
  unfold State.promoBack
  split
  · exact h
  · simp only [(State.promoDone_frame _ _ _ _ _).1, (State.trnResume_frame _).1, (State.trnMod_frame _ _).1]
    split
    · exact State.copyArea_wf _ _ _ _ _ _ h
    · exact h

theorem State.promoEnds_wf (s : State) (i : Nat) (h : Memory.wf s.prs.pmem = true) : Memory.wf (s.promoEnds i).prs.pmem = true := by
  unfold State.promoEnds
  split
  · exact State.promoBack_wf _ _ _ h
  · exact h

theorem State.imposeUnload_wf (s : State) (i n : Nat) (h : Memory.wf s.prs.pmem = true) :
    Memory.wf (s.imposeUnload i n).prs.pmem = true := by
  unfold State.imposeUnload
  rw [(State.storeModel_frame _).1, (State.slotMod_frame _ _ _).1]
  exact State.promoEnds_wf _ _ h

theorem State.slotsGiveWay_wf (s : State) (h : Memory.wf s.prs.pmem = true) : Memory.wf (s.slotsGiveWay).prs.pmem = true := by
  unfold State.slotsGiveWay
  exact wf_foldl _ _ _ (State.promoBack_wf _ _ _ h) fun s a h => by simpa using h

theorem State.formeTakes_wf (s : State) (i : Nat) (f : Forme) (c : Staged) (v : Nat) (h : Memory.wf s.prs.pmem = true) :
    Memory.wf (s.formeTakes i f c v).prs.pmem = true := by
  have h1 := State.copyData_wf _ f (State.promoEnds_wf s i h)
  unfold State.formeTakes
  simp only []
  rw [(State.changeDone_frame _ _ _ _ _).1]
  have h2 : ∀ u : State, Memory.wf u.prs.pmem = true → Memory.wf (if u.trn.plan.head? = some i then u.set Reg.PRS_TRN_GEN 0 else u).prs.pmem = true := by
    intro u hu
    split
    · exact hu
    · exact hu
  apply h2
  simp only [(State.evt_frame _ _ _ _).1, (State.storeModel_frame _).1, (State.variantReady_frame _ _).1, (State.slotMod_frame _ _ _).1]
  exact h1

theorem State.formeImpose_wf (s : State) (i : Nat) (copied : Bool) (pick : Forme → Option Nat) (h : Memory.wf s.prs.pmem = true) :
    Memory.wf (s.formeImpose i copied pick).prs.pmem = true := by
  have h2 : ∀ (u : State) (c : Staged), Memory.wf u.prs.pmem = true → Memory.wf ((u.slotMod i fun y => { y with staged := none, due := none }).changeDone c 1 0 0x14).prs.pmem = true := by
    intro u c hu
    simpa using hu
  unfold State.formeImpose
  simp only []
  cases hs : (s.slotX i).staged with
  | none => exact h
  | some p =>
    obtain ⟨f, c⟩ := p
    simp only []
    split
    · exact h2 _ _ (by simpa using h)
    · exact State.formeTakes_wf _ _ _ _ _ (by simpa using h)

theorem State.loadModel_wf (s : State) (h : Memory.wf s.prs.pmem = true) :
    Memory.wf (State.loadModel s).prs.pmem = true := by
  unfold State.loadModel
  refine wf_foldl _ _ _ ?_ fun s a h => by simpa using h
  rw [(State.reselect_frame _).1]
  refine wf_foldl _ _ _ ?_ fun s a h => State.copyData_wf _ _ h
  exact State.slotsGiveWay_wf s h

theorem State.pressUp_wf (s : State) (h : Memory.wf s.prs.pmem = true) :
    Memory.wf (State.pressUp s).prs.pmem = true := by
  unfold State.pressUp
  (simp [*] <;> (repeat' (first | assumption | apply And.intro | intro _ | (simp [*]; done) | (apply State.loadModel_wf) | split | (apply wf_foldl) | (apply wf_foldl2) | (simp_all; done))))

theorem fillOne_wf (s : State) (l : List (Nat × List Byte)) (g : Nat → Nat) (h : Memory.wf s.prs.pmem = true) :
    Memory.wf (l.foldl (fun s x => s.pwrite (g x.1) x.2) s).prs.pmem = true := by
  induction l generalizing s with
  | nil => exact h
  | cons x l ih => rw [List.foldl_cons]; exact ih _ (State.pwrite_wf _ _ _ h)

theorem fillSlot_wf (s : State) (t : Nat) (src : Option Nat) (e : Nat × Slot) (b : Nat) (h : Memory.wf s.prs.pmem = true) :
    Memory.wf (match e.2.forme with
    | none => s
    | some f =>
      match src with
      | some u => s.pwrite (dramAddr t (b + f.marea)) (s.pbytes (dramAddr u (b + f.marea)) f.mbytes)
      | none =>
        let data := match Tab.find s.prs.store e.1 with
          | some x => if x.1.digest = f.digest then x.1.data else f.data
          | none => f.data
        data.foldl (fun s (x : Nat × List Byte) => s.pwrite (dramAddr t (b + f.marea + x.1)) x.2) s).prs.pmem = true := by
  split
  · exact h
  · split
    · exact State.pwrite_wf _ _ _ h
    · exact fillOne_wf s _ (fun x => dramAddr t (b + Forme.marea _ + x)) h

theorem State.fillStack_wf (s : State) (t : Nat) (src : Option Nat) (h : Memory.wf s.prs.pmem = true) :
    Memory.wf (State.fillStack s t src).prs.pmem = true := by
  unfold State.fillStack
  generalize s.prs.slots = l
  induction l generalizing s with
  | nil => exact h
  | cons e l ih =>
    rw [List.foldl_cons]
    exact ih _ (fillSlot_wf s t src e _ h)

theorem State.modelReload_wf (s : State) (t : Nat) (h : Memory.wf s.prs.pmem = true) :
    Memory.wf (State.modelReload s t).prs.pmem = true := by
  unfold State.modelReload
  refine State.fillStack_wf _ _ _ ?_
  simpa using h

theorem State.dramUe_wf (s : State) (t bank off : Nat) (scrub : Bool) (h : Memory.wf s.prs.pmem = true) :
    Memory.wf (State.dramUe s t bank off scrub).prs.pmem = true := by
  unfold State.dramUe
  dsimp only
  split
  · simp only [(State.settlePress_frame _).1, (State.raise_frame _ _ _ _ _).1]
    exact State.modelReload_wf _ _ (by simpa using h)
  all_goals simpa using h

theorem State.modelUp_wf (s : State) (h : Memory.wf s.prs.pmem = true) :
    Memory.wf (State.modelUp s).prs.pmem = true := by
  unfold State.modelUp
  have h1 := State.loadModel_wf s h
  dsimp only
  split
  · exact h1
  · rw [(State.pressReady_frame _).1]; exact h1

theorem State.hierFinish_wf (s : State) (g : HierChg) (h : Memory.wf s.prs.pmem = true) :
    Memory.wf (State.hierFinish s g).prs.pmem = true := by
  have key : ∀ u : State, Memory.wf u.prs.pmem = true → Memory.wf
      (if g.why = 0 then
        (u.evt 2 0x0200 (le 4 g.st.no ++ le 1 g.old ++ le 1 g.new ++ le 1 (u.get Reg.PRS_STAT_SVC) ++ le 1 0 ++
          le 4 (u.hierUs g))).changeDone g.st 0 1 0xFF
      else if g.why = 2 then u.repairEnd 0 (u.hierUs g) else u).prs.pmem = true := by
    intro u hu
    split
    · simpa using hu
    · split <;> simpa using hu
  have up : ∀ (u : State) (l : List Nat) (e : Option Nat), Memory.wf u.prs.pmem = true → Memory.wf
      ((((((l.foldl State.variantReady u).set Reg.PRS_STAT_QUIESCED 0).set Reg.PRS_STAT_CHG 0).set Reg.GLB_HIER_TARGET 0).prsMod
        fun p => { p with hier := none, hierEnd := e }).pressOut.pressUp).prs.pmem = true := by
    intro u l e hu
    refine State.pressUp_wf _ ?_
    simpa using hu
  have fill : ∀ (u : State) (src : Option Nat) (l : List Nat), Memory.wf u.prs.pmem = true →
      Memory.wf (l.foldl (fun s t => s.fillStack t src) u).prs.pmem = true :=
    fun u src l hu => wf_foldl _ _ _ hu fun s t h => State.fillStack_wf _ _ _ h
  refine key _ (up _ _ _ ?_)
  dsimp only
  split
  · rw [(State.serviceChanged_frame _ _ _ _).1, (State.putService_frame _ _ _).1]
    refine fill _ _ _ ?_
    rw [(State.set_frame _ _ _).1, (State.setNv_frame _ _ _).1]
    split
    · simpa using h
    · exact h
  · exact h

theorem State.hierTick_wf (s : State) (h : Memory.wf s.prs.pmem = true) :
    Memory.wf (s.hierTick).prs.pmem = true := by
  unfold State.hierTick
  split
  · split
    · exact State.hierFinish_wf _ _ h
    · exact h
  · exact h

theorem State.captureWrites_wf (s : State) (offs : List Nat) (k sigma gen : Nat) (rows : List (List (Nat × Nat × List (Option Int)))) (l : List Nat)
    (h : Memory.wf s.prs.pmem = true) :
    Memory.wf (l.foldl (fun s t => s.pwrite (dramAddr t ((offs[t]?).getD 0)) (captureBytes k sigma gen ((rows[t]?).getD []))) s).prs.pmem = true := by
  induction l generalizing s with
  | nil => exact h
  | cons x l ih => rw [List.foldl_cons]; exact ih _ (State.pwrite_wf _ _ _ h)

theorem State.capture_wf (s : State) (k sigma gen : Nat) (h : Memory.wf s.prs.pmem = true) :
    Memory.wf (s.capture k sigma gen).prs.pmem = true := by
  unfold State.capture
  simp only
  split
  · exact h
  · split
    · rw [(State.trnMod_frame _ _).1]; exact h
    · rw [(State.trnMod_frame _ _).1]; exact State.captureWrites_wf _ _ _ _ _ _ _ h

theorem State.stepEnd_wf (s : State) (h : Memory.wf s.prs.pmem = true) :
    Memory.wf (State.stepEnd s).prs.pmem = true := by
  unfold State.stepEnd
  (simp only []; repeat' (first | assumption | apply And.intro | intro _ | (simp [*]; done) | (apply State.copyArea_wf) | split | (apply wf_foldl) | (apply wf_foldl2) | (simp_all; done)))

theorem State.promoStart_wf (s : State) (kind reason : Nat) (auto : Bool) (st : Staged) (h : Memory.wf s.prs.pmem = true) :
    Memory.wf (s.promoStart kind reason auto st).prs.pmem = true := by
  unfold State.promoStart
  simp only [(State.trnMod_frame _ _).1, (State.set_frame _ _ _).1, (State.sendBulk_frame _ _ _).1]
  split
  · exact State.copyArea_wf _ _ _ _ _ _ (State.copyArea_wf _ _ _ _ _ _ h)
  · exact State.copyArea_wf _ _ _ _ _ _ h

theorem State.promoStage_wf (s : State) (r : Nat) (op : Nat) (kind : Nat) (reason : Nat) (h : Memory.wf s.prs.pmem = true) :
    Memory.wf (State.promoStage s r op kind reason).2.prs.pmem = true := by
  unfold State.promoStage
  (simp only []; repeat' (first | assumption | apply And.intro | intro _ | (simp [*]; done) | (apply State.promoStart_wf) | split | (apply wf_foldl) | (apply wf_foldl2) | (simp_all; done)))

theorem State.promoImpose_wf (s : State) (h : Memory.wf s.prs.pmem = true) : Memory.wf (s.promoImpose).prs.pmem = true := by
  unfold State.promoImpose
  split
  · exact h
  · split
    · exact h
    · split
      · exact State.promoBack_wf _ _ _ h
      · split
        · simpa using h
        · dsimp only
          split
          · simpa using h
          · split <;> simpa using h

theorem State.promoCheck_wf (s : State) (h : Memory.wf s.prs.pmem = true) :
    Memory.wf (s.promoCheck).prs.pmem = true := by
  unfold State.promoCheck
  split
  · exact State.promoBack_wf _ _ _ h
  · exact h

theorem State.probation_wf (s : State) (h : Memory.wf s.prs.pmem = true) :
    Memory.wf (State.probation s).prs.pmem = true := by
  unfold State.probation
  (simp only []; repeat' (first | assumption | apply And.intro | intro _ | (simp [*]; done) | (apply State.promoStage_wf) | split | (apply wf_foldl) | (apply wf_foldl2) | (simp_all; done)))

theorem State.candidatePasses_wf (s : State) (el : Nat) (ec : Nat) (h : Memory.wf s.prs.pmem = true) :
    Memory.wf (State.candidatePasses s el ec).prs.pmem = true := by
  unfold State.candidatePasses
  (simp only []; repeat' (first | assumption | apply And.intro | intro _ | (simp [*]; done) | (apply State.promoStage_wf) | split | (apply wf_foldl) | (apply wf_foldl2) | (simp_all; done)))

theorem State.judge_wf (s : State) (h : Memory.wf s.prs.pmem = true) :
    Memory.wf (State.judge s).prs.pmem = true := by
  unfold State.judge
  (simp only []; repeat' (first | assumption | apply And.intro | intro _ | (simp [*]; done) | (apply State.candidatePasses_wf) | split | (apply wf_foldl) | (apply wf_foldl2) | (simp_all; done)))

theorem State.score_wf (s : State) (q : Score) (h : Memory.wf s.prs.pmem = true) :
    Memory.wf (s.score q).prs.pmem = true := by
  unfold State.score
  split
  · simpa using h
  · simp only
    split
    · simpa using h
    · exact State.judge_wf _ (by simpa using h)

theorem State.trainTick_wf (s : State) (h : Memory.wf s.prs.pmem = true) :
    Memory.wf (s.trainTick).prs.pmem = true := by
  have h1 : Memory.wf s.promoCheck.holdTick.prs.pmem = true := by simpa using State.promoCheck_wf s h
  unfold State.trainTick
  rw [(State.stepTick_frame _).1, (State.shadowTick_frame _).1, (State.epochSwitch_frame _).1]
  generalize s.promoCheck.holdTick = u at h1
  split
  · exact State.stepEnd_wf _ h1
  · exact h1

theorem State.putPlanBlock_wf (s : State) (k : Nat) (h : Memory.wf s.prs.pmem = true) :
    Memory.wf (s.putPlanBlock k).prs.pmem = true := by
  unfold State.putPlanBlock
  exact State.pwrite_wf _ _ _ h

theorem State.planBegin_wf (s : State) (i k : Nat) (h : Memory.wf s.prs.pmem = true) :
    Memory.wf (s.planBegin i k).prs.pmem = true := by
  unfold State.planBegin
  simp only
  split
  · exact h
  · rw [(State.beginRun_frame _ _ _ _ _ _).1, (State.galMod_frame _ _).1]
    refine State.putPlanBlock_wf _ _ ?_
    split
    · split
      · rw [(State.runEnd_frame _ _).1]; exact h
      · rw [(State.stopRun_frame _ _ _).1]; exact h
    · exact h

theorem State.beginAnew_wf (s : State) (i : Nat) (h : Memory.wf s.prs.pmem = true) :
    Memory.wf (State.beginAnew s i).prs.pmem = true := by
  unfold State.beginAnew
  (simp only []; repeat' (first | assumption | apply And.intro | intro _ | (simp [*]; done) | (apply State.planBegin_wf) | split | (apply wf_foldl) | (apply wf_foldl2) | (simp_all; done) | simp))

theorem State.formesDue_wf (s : State) (h : Memory.wf s.prs.pmem = true) :
    Memory.wf (State.formesDue s).prs.pmem = true := by
  unfold State.formesDue
  dsimp only
  split
  · exact h
  refine wf_foldl _ _ _ h fun s e h => ?_
  split
  · exact State.formeImpose_wf _ _ _ _ h
  · exact h

theorem State.beginRuns_wf (s : State) (k : Nat) (h : Memory.wf s.prs.pmem = true) :
    Memory.wf (State.beginRuns s k).prs.pmem = true := by
  unfold State.beginRuns
  (simp only []; repeat' (first | assumption | apply And.intro | intro _ | (simp [*]; done) | (apply State.planBegin_wf) | split | (apply wf_foldl) | (apply wf_foldl2) | (simp_all; done)))

theorem State.openOrNot_wf (s : State) (k : Nat) (h : Memory.wf s.prs.pmem = true) :
    Memory.wf (State.openOrNot s k).prs.pmem = true := by
  unfold State.openOrNot
  (simp only []; repeat' (first | assumption | apply And.intro | intro _ | (simp [*]; done) | (apply State.beginRuns_wf) | split | (apply wf_foldl) | (apply wf_foldl2) | (simp_all; done)))

theorem State.cycleStart_wf (s : State) (h : Memory.wf s.prs.pmem = true) :
    Memory.wf (s.cycleStart).prs.pmem = true := by
  have h2 : ∀ u : State, ∀ k, Memory.wf u.prs.pmem = true → Memory.wf ((((((u.set Reg.PRS_GAL_CYC k).sparesEnter.variantsEnter).formesDue).hierTick).takeInputs k).startTick.blindTick true).prs.pmem = true := by
    intro u k hu
    rw [(State.blindTick_frame _ _).1, (State.startTick_frame _).1, (State.takeInputs_frame _ _).1]
    refine State.hierTick_wf _ (State.formesDue_wf _ ?_)
    simpa using hu
  have h3 : ∀ u : State, ∀ k, Memory.wf u.prs.pmem = true → Memory.wf (u.openOrNot k).prs.pmem = true := by
    intro u k hu
    unfold State.openOrNot
    split
    · rw [(State.noProof_frame _ _).1]; exact hu
    · simp only []
      split
      · rw [(State.openEntry_frame _ _).1]; exact hu
      · refine State.beginRuns_wf _ _ ?_
        rw [(State.openEntry_frame _ _).1]; exact hu
  unfold State.cycleStart
  simp only []
  refine State.trainTick_wf _ ?_
  rw [(State.captureDue_frame _ _).1]
  apply h3
  apply h2
  split
  · rw [(State.galleyClose_frame _).1]; exact h
  · exact h

theorem State.coldReset_wf (s : State) (code : Nat) (rails : Bool) : Memory.wf (s.coldReset code rails).prs.pmem = true := rfl

theorem State.moduleReset_wf (s : State) (code : Nat) : Memory.wf (s.moduleReset code).prs.pmem = true := by
  unfold State.moduleReset
  simp only [(State.islands_frame _).1]
  exact State.coldReset_wf _ _ _

theorem State.resetGoes_wf (s : State) (code : Nat) : Memory.wf (s.resetGoes code).prs.pmem = true := by
  unfold State.resetGoes
  rw [(State.islands_frame _).1]
  exact State.coldReset_wf _ _ _

theorem State.openCommitted_wf (s : State) (h : Memory.wf s.prs.pmem = true) :
    Memory.wf (State.openCommitted s).prs.pmem = true := by
  unfold State.openCommitted
  (simp only []; repeat' (first | assumption | apply And.intro | intro _ | (simp [*]; done) | (apply State.resetGoes_wf) | split | (apply wf_foldl) | (apply wf_foldl2) | (simp_all; done)))

theorem State.railsOff_wf (s : State) (h : Memory.wf s.prs.pmem = true) :
    Memory.wf (s.railsOff).prs.pmem = true := by
  unfold State.railsOff
  split
  · exact h
  · have key : ∀ g : Glb, Memory.wf ({ (s.pinsLow.coldReset 1 false) with glb := g } : State).prs.pmem = true := fun _ => rfl
    simp only
    split
    · rw [(State.powerOn_frame _).1]; exact key _
    · exact key _

theorem State.moveDrop_wf (s : State) (t : Nat) (h : Memory.wf s.prs.pmem = true) : Memory.wf (s.moveDrop t).prs.pmem = true := by
  unfold State.moveDrop
  refine State.prsMod_wf _ _ (fun _ => rfl) (wf_foldl _ _ _ h fun s r h => ?_)
  split
  · exact State.pwrite_wf _ _ _ h
  · exact h

theorem State.spineDrop_wf (s : State) (t : Nat) (h : Memory.wf s.prs.pmem = true) : Memory.wf (s.spineDrop t).prs.pmem = true := by
  have hd : Memory.wf s.draw.2.prs.pmem = true := by simpa using h
  unfold State.spineDrop
  dsimp only
  split
  · simpa using hd
  · split
    · exact State.moveDrop_wf _ _ hd
    · simpa using hd

theorem State.standbyRuns_wf (s : State) (k : Nat) (h : Memory.wf s.prs.pmem = true) :
    Memory.wf (State.standbyRuns s k).prs.pmem = true := by
  unfold State.standbyRuns
  (simp [*] <;> (repeat' (first | assumption | apply And.intro | intro _ | (simp [*]; done) | (apply State.beginRuns_wf) | split | (apply wf_foldl) | (apply wf_foldl2) | (simp_all; done))))

theorem State.standbyDue_wf (s : State) (h : Memory.wf s.prs.pmem = true) : Memory.wf (s.standbyDue).prs.pmem = true := by
  unfold State.standbyDue
  split
  · exact h
  · split
    · exact State.standbyRuns_wf _ _ h
    · exact h

theorem State.pcycIn_wf (s : State) (p : List Byte) (h : Memory.wf s.prs.pmem = true) :
    Memory.wf (State.pcycIn s p).prs.pmem = true := by
  unfold State.pcycIn
  (simp only []; repeat' (first | assumption | apply And.intro | intro _ | (simp [*]; done) | (apply State.standbyRuns_wf) | split | (apply wf_foldl) | (apply wf_foldl2) | (simp_all; done)))

theorem State.cfgOwn_wf (s : State) (c : Staged) (data : List Byte) (h : Memory.wf s.prs.pmem = true) :
    Memory.wf (State.cfgOwn s c data).prs.pmem = true := by
  unfold State.cfgOwn
  (simp only []; repeat' (first | assumption | apply And.intro | intro _ | (simp [*]; done) | (apply State.promoStart_wf) | split | (apply wf_foldl) | (apply wf_foldl2) | (simp_all; done)))

theorem State.cfgIn_wf (s : State) (c0 : Staged) (data : List Byte) (h : Memory.wf s.prs.pmem = true) :
    Memory.wf (State.cfgIn s c0 data).prs.pmem = true := by
  unfold State.cfgIn
  (simp only []; repeat' (first | assumption | apply And.intro | intro _ | (simp [*]; done) | (apply State.cfgOwn_wf) | split | (apply wf_foldl) | (apply wf_foldl2) | (simp_all; done)))

theorem State.planBytes_wf (s : State) (slot ofs : Nat) (b : List Byte) (h : Memory.wf s.prs.pmem = true) :
    Memory.wf (s.planBytes slot ofs b).prs.pmem = true := by
  unfold State.planBytes
  generalize s.tbs = l
  induction l generalizing s with
  | nil => exact h
  | cons t l ih => rw [List.foldl_cons]; exact ih _ (State.pwrite_wf _ _ _ h)

theorem State.bulkDone_wf (s : State) (kind : Nat) (b : List Byte) (h : Memory.wf s.prs.pmem = true) :
    Memory.wf (s.bulkDone kind b).prs.pmem = true := by
  have key : ∀ (u : State) (n : Nat), Memory.wf u.prs.pmem = true → Memory.wf
      (if bit (rd b 4 1) 0 then (u.trnMod fun x => { x with offer := some n }).set Reg.PRS_TRN_STAT_STATE 4
      else if (u.trnMod fun x => { x with offer := none }).trnState = 4 then (u.trnMod fun x => { x with offer := none }).trnResume
      else u.trnMod fun x => { x with offer := none }).prs.pmem = true := by
    intro u n hu
    split
    · simpa using hu
    · split <;> simpa using hu
  unfold State.bulkDone
  split
  · refine key _ _ (State.planBytes_wf _ _ _ _ ?_)
    simpa using h
  · simpa using h
  · have h1 := State.planBytes_wf s (s.planN 0) (s.planN 7) b h
    dsimp only
    split
    · simpa using h1
    · exact h1
  · simpa using h

theorem State.bulkIn_wf (s : State) (p : List Byte) (h : Memory.wf s.prs.pmem = true) :
    Memory.wf (State.bulkIn s p).prs.pmem = true := by
  unfold State.bulkIn
  (simp only []; repeat' (first | assumption | apply And.intro | intro _ | (simp [*]; done) | (apply State.bulkDone_wf) | split | (apply wf_foldl) | (apply wf_foldl2) | (simp_all; done)))

theorem State.mrEnd_wf (s : State) (h : Memory.wf s.prs.pmem = true) :
    Memory.wf (s.mrEnd).prs.pmem = true := by
  unfold State.mrEnd
  split
  · exact h
  · dsimp only
    split
    · rw [(State.pressOut_frame _).1, (State.set_frame _ _ _).1]; exact h
    · rw [(State.pressOut_frame _).1]
      refine State.modelUp_wf _ ?_
      rw [(State.serviceChanged_frame _ _ _ _).1, (State.putService_frame _ _ _).1, (State.set_frame _ _ _).1]
      exact h

theorem State.makeReady_wf (s : State) (t k : Nat) (fs : List (Nat × Nat)) (rows banks : Nat) (good : Bool) (us : Nat) (h : Memory.wf s.prs.pmem = true) :
    Memory.wf (s.makeReady t k fs rows banks good us).prs.pmem = true := by
  have h1 : ∀ u : State, Memory.wf u.prs.pmem = true → Memory.wf
      ((if u.prs.fwStep && u.glb.mrStep.all (fun k => decide (8 ≤ k)) then u.pressFwDone else u).mrEnd.settle).prs.pmem = true := by
    intro u hu
    rw [(State.settle_frame _).1]
    refine State.mrEnd_wf _ ?_
    split
    · rw [(State.pressFwDone_frame _).1]; exact hu
    · exact hu
  unfold State.makeReady
  simp only []
  split
  · exact h
  · refine h1 _ ?_
    split
    · split
      · exact h
      · rw [(State.mrLost_frame _ _).1]; exact h
    · split
      · exact h
      · rw [(State.mrLost_frame _ _).1]; exact h
    · rw [(State.mrDram_frame _ _ _ _ _).1]; exact h
    · rw [(State.mrFails_frame _ _ _).1]; exact h
    · rw [(State.mrFails_frame _ _ _).1]; exact h
    · split
      · exact h
      · split
        · exact h
        · split
          · rw [(State.mrLost_frame _ _).1]; exact h
          · rw [(State.mrFails_frame _ _ _).1]; exact h
    · split
      · exact h
      · rw [(State.raise_frame _ _ _ _ _).1, (State.prsMod_frame _ _).1]; exact h
    · exact h

theorem State.peerModel_wf (s : State) (formes model : List (Nat × List Byte)) (h : Memory.wf s.prs.pmem = true) :
    Memory.wf (s.peerModel formes model).prs.pmem = true := by
  unfold State.peerModel
  split
  · exact h
  · have hg := State.slotsGiveWay_wf s h
    dsimp only
    split
    · simpa using h
    · simp only [(State.modelDone_frame _).1, (State.raise_frame _ _ _ _ _).1, (State.rosMod_frame _ _).1, (State.set_frame _ _ _).1,
        (State.logC_frame _ _ _ _ _ _ _ _ _ _).1]
      split
      · rw [(State.blindTick_frame _ _).1]
        exact State.loadModel_wf _ (by simpa using hg)
      · split
        · exact State.loadModel_wf _ (by simpa using hg)
        · simpa using hg

theorem State.resetAfter_wf (s : State) (r : Nat) (d : Desc) (left : Bool) (h : Memory.wf s.prs.pmem = true) :
    Memory.wf (State.resetAfter s r d left).prs.pmem = true := by
  unfold State.resetAfter
  (simp only []; repeat' (first | assumption | apply And.intro | intro _ | (simp [*]; done) | (apply State.moduleReset_wf) | split | (apply wf_foldl) | (apply wf_foldl2) | (simp_all; done)))

theorem State.flyBoot_wf (s : State) (h : Memory.wf s.prs.pmem = true) :
    Memory.wf (State.flyBoot s).prs.pmem = true := by
  unfold State.flyBoot
  (simp only []; repeat' (first | assumption | apply And.intro | intro _ | (simp [*]; done) | (apply State.resetGoes_wf) | split | (apply wf_foldl) | (apply wf_foldl2) | (simp_all; done)))

theorem State.uartIn_wf (s : State) (m : List Byte) (sig : Bool) (h : Memory.wf s.prs.pmem = true) :
    Memory.wf (State.uartIn s m sig).prs.pmem = true := by
  unfold State.uartIn
  (simp only []; repeat' (first | assumption | apply And.intro | intro _ | (simp [*]; done) | (apply State.flyBoot_wf) | split | (apply wf_foldl) | (apply wf_foldl2) | (simp_all; done)))

theorem State.discardStaged_wf (s : State) (h : Memory.wf s.prs.pmem = true) : Memory.wf (s.discardStaged).prs.pmem = true := by
  unfold State.discardStaged
  dsimp only
  rw [(State.listDiscard_frame _ _).1]
  refine wf_foldl _ _ _ ?_ fun s a h => by simpa using h
  rw [(State.handDiscard_frame _).1]
  refine State.promoBack_wf _ _ _ ?_
  split
  · simpa using h
  · exact h

theorem State.imposeOne_wf (s : State) (press : Bool) (c : Staged) (h : Memory.wf s.prs.pmem = true) :
    Memory.wf (s.imposeOne press c).prs.pmem = true := by
  unfold State.imposeOne
  split
  case h_7 =>
    split
    · rw [(State.imposeEnd_frame _ _ _).1]; exact State.imposeUnload_wf _ _ _ h
    · exact h
  all_goals (first | (simpa using h) | (split <;> (first | (simpa using h) | (split <;> simpa using h))))

theorem State.imposeStaged_wf (s : State) (press : Bool) (h : Memory.wf s.prs.pmem = true) :
    Memory.wf (s.imposeStaged press).prs.pmem = true := by
  unfold State.imposeStaged
  split
  · exact h
  · exact wf_foldl _ _ _ h fun s c h => State.imposeOne_wf _ _ _ h

theorem State.changesNow_wf (s : State) (press : Bool) (h : Memory.wf s.prs.pmem = true) :
    Memory.wf (s.changesNow press).prs.pmem = true := by
  unfold State.changesNow
  dsimp only
  refine State.imposeStaged_wf _ _ ?_
  rw [(State.listsNow_frame _).1]
  refine wf_foldl _ _ _ ?_ fun s a h => by simpa using h
  split <;> simpa using h

theorem State.spineUe_wf (s : State) (port : Nat) (inj : Bool) (h : Memory.wf s.prs.pmem = true) :
    Memory.wf (s.spineUe port inj).prs.pmem = true := by
  unfold State.spineUe
  rw [(State.spineRaise_frame _ _ _).1]
  exact State.spineDrop_wf _ _ h

theorem State.drive_wf (s : State) (n unit : Nat) (again : Bool) (h : Memory.wf s.prs.pmem = true) :
    Memory.wf (s.drive n unit again).prs.pmem = true := by
  unfold State.drive
  dsimp only
  split
  · rw [(State.crossingMiss_frame _ _ _ _).1]; exact h
  split
  · rw [(State.wdogRaise_frame _ _).1]; exact h
  split
  · rw [(State.raise_frame _ _ _ _ _).1, (State.discardTb_frame _ _).1]; exact h
  split
  · rw [(State.set_frame _ _ _).1, (State.raise_frame _ _ _ _ _).1]; exact h
  split
  · rw [(State.barInject_frame _ _ _).1]; exact h
  split
  · exact State.spineUe_wf _ _ _ h
  · rw [(State.raise_frame _ _ _ _ _).1]; exact h

theorem State.occurrence_wf (s : State) (x : Injection) (again : Bool) (h : Memory.wf s.prs.pmem = true) :
    Memory.wf (s.occurrence x again).prs.pmem = true := by
  unfold State.occurrence
  dsimp only
  split
  · rw [(State.withdraw_frame _ _ _).1]
    exact State.drive_wf _ _ _ _ h
  · exact State.drive_wf _ _ _ _ h

theorem State.inject_wf (s : State) (n mode p1 param ring : Nat) (h : Memory.wf s.prs.pmem = true) :
    Memory.wf (s.inject n mode p1 param ring).prs.pmem = true := by
  have key : ∀ (lvl : Bool) (x : Injection) (u : State), Memory.wf u.prs.pmem = true →
      Memory.wf ((if n = detN 14 0 then u
        else if lvl then (u.detMod n fun y => { y with cause := true, injCause := true }).raise n 0 param true
        else if x.left = 0 then u.withdraw x ring
        else u.occurrence x false : State)).prs.pmem = true := by
    intro lvl x u hu
    split
    · exact hu
    split
    · rw [(State.raise_frame _ _ _ _ _).1, (State.detMod_frame _ _ _).1]; exact hu
    split
    · rw [(State.withdraw_frame _ _ _).1]; exact hu
    · exact State.occurrence_wf _ _ _ hu
  unfold State.inject
  refine key _ _ _ ?_
  rw [(State.raise_frame _ _ _ _ _).1, (State.injEvt_frame _ _ _ _ _ _ _).1]
  exact h

theorem State.injectionTick_wf (s : State) (h : Memory.wf s.prs.pmem = true) : Memory.wf s.injectionTick.prs.pmem = true := by
  refine wf_foldl _ _ _ h fun s x h => ?_
  repeat' split
  all_goals (first | exact State.occurrence_wf _ _ _ h | simpa using h)

theorem State.periodBoundary_wf (s : State) (hbEdge hbBack : Bool) (h : Memory.wf s.prs.pmem = true) :
    Memory.wf (s.periodBoundary hbEdge hbBack).prs.pmem = true := by
  have h1 : ∀ u : State, Memory.wf u.prs.pmem = true →
      Memory.wf (((u.injectionTick.blockTicks).samplesGone).settle).prs.pmem = true := by
    intro u hu
    rw [(State.settle_frame _).1, (State.samplesGone_frame _).1, (State.blockTicks_frame _).1]
    exact State.injectionTick_wf _ hu
  have h2 : ∀ u : State, ∀ p : Bool, ∀ k, Memory.wf u.prs.pmem = true → Memory.wf (if p then (u.cycleStart).pcycOut k else u).prs.pmem = true := by
    intro u p k hu
    split
    · rw [(State.pcycOut_frame _ _).1]; exact State.cycleStart_wf _ hu
    · exact hu
  have h3 : ∀ u : State, ∀ p : Bool, Memory.wf u.prs.pmem = true →
      Memory.wf (((((((((u.silenceTick hbEdge).readyTick).corrTick).handTick).proveTick).changesNow p).drivesNow p).syncNow.hbToggle
        hbBack).hbOutFrame).prs.pmem = true := by
    intro u p hu
    rw [(State.hbOutFrame_frame _).1, (State.hbToggle_frame _ _).1, (State.syncNow_frame _).1, (State.drivesNow_frame _ _).1]
    exact State.changesNow_wf _ _ (by simpa using hu)
  unfold State.periodBoundary
  split
  · exact h
  · have h4 : Memory.wf s.periodEnd.prs.pmem = true := by simpa using h
    generalize s.periodEnd = v at h4
    intros
    apply h1
    apply h2
    apply h3
    exact h4

end Sys2Proof.Machine
end

