-- ==== Sys2Proof/Laws/State.lean ====
section
/-!
SUPPORT. The fields of State that each shared operation leaves as they were.
-/
namespace Sys2Proof.Machine
set_option linter.all false

theorem foldl_keeps {α β : Type} (g : State → β) (l : List α) (f : State → α → State) (s : State)
    (hf : ∀ s a, g (f s a) = g s) : g (l.foldl f s) = g s := by
  induction l generalizing s with
  | nil => rfl
  | cons a l ih => exact (ih _).trans (hf _ _)

@[simp] theorem regs_ite (c : Prop) [Decidable c] (a b : State) : (if c then a else b).regs = if c then a.regs else b.regs := by
  split <;> rfl
@[simp] theorem regs_ite2 {α : Type} (c : Prop) [Decidable c] (a b : α × State) : (if c then a else b).2.regs = if c then a.2.regs else b.2.regs := by
  split <;> rfl
@[simp] theorem regs_foldl {α : Type} (l : List α) (f : State → α → State) (s : State)
    (hf : ∀ s a, (f s a).regs = s.regs) : (l.foldl f s).regs = s.regs := foldl_keeps _ l f s hf

@[simp] theorem nvm_ite (c : Prop) [Decidable c] (a b : State) : (if c then a else b).nvm = if c then a.nvm else b.nvm := by
  split <;> rfl
@[simp] theorem nvm_ite2 {α : Type} (c : Prop) [Decidable c] (a b : α × State) : (if c then a else b).2.nvm = if c then a.2.nvm else b.2.nvm := by
  split <;> rfl
@[simp] theorem nvm_foldl {α : Type} (l : List α) (f : State → α → State) (s : State)
    (hf : ∀ s a, (f s a).nvm = s.nvm) : (l.foldl f s).nvm = s.nvm := foldl_keeps _ l f s hf

@[simp] theorem pendW_ite (c : Prop) [Decidable c] (a b : State) : (if c then a else b).pendW = if c then a.pendW else b.pendW := by
  split <;> rfl
@[simp] theorem pendW_ite2 {α : Type} (c : Prop) [Decidable c] (a b : α × State) : (if c then a else b).2.pendW = if c then a.2.pendW else b.2.pendW := by
  split <;> rfl
@[simp] theorem pendW_foldl {α : Type} (l : List α) (f : State → α → State) (s : State)
    (hf : ∀ s a, (f s a).pendW = s.pendW) : (l.foldl f s).pendW = s.pendW := foldl_keeps _ l f s hf

@[simp] theorem chgNext_ite (c : Prop) [Decidable c] (a b : State) : (if c then a else b).chgNext = if c then a.chgNext else b.chgNext := by
  split <;> rfl
@[simp] theorem chgNext_ite2 {α : Type} (c : Prop) [Decidable c] (a b : α × State) : (if c then a else b).2.chgNext = if c then a.2.chgNext else b.2.chgNext := by
  split <;> rfl
@[simp] theorem chgNext_foldl {α : Type} (l : List α) (f : State → α → State) (s : State)
    (hf : ∀ s a, (f s a).chgNext = s.chgNext) : (l.foldl f s).chgNext = s.chgNext := foldl_keeps _ l f s hf

@[simp] theorem staged_ite (c : Prop) [Decidable c] (a b : State) : (if c then a else b).staged = if c then a.staged else b.staged := by
  split <;> rfl
@[simp] theorem staged_ite2 {α : Type} (c : Prop) [Decidable c] (a b : α × State) : (if c then a else b).2.staged = if c then a.2.staged else b.2.staged := by
  split <;> rfl
@[simp] theorem staged_foldl {α : Type} (l : List α) (f : State → α → State) (s : State)
    (hf : ∀ s a, (f s a).staged = s.staged) : (l.foldl f s).staged = s.staged := foldl_keeps _ l f s hf

@[simp] theorem nv_ite (c : Prop) [Decidable c] (a b : State) : (if c then a else b).nv = if c then a.nv else b.nv := by
  split <;> rfl
@[simp] theorem nv_ite2 {α : Type} (c : Prop) [Decidable c] (a b : α × State) : (if c then a else b).2.nv = if c then a.2.nv else b.2.nv := by
  split <;> rfl
@[simp] theorem nv_foldl {α : Type} (l : List α) (f : State → α → State) (s : State)
    (hf : ∀ s a, (f s a).nv = s.nv) : (l.foldl f s).nv = s.nv := foldl_keeps _ l f s hf

@[simp] theorem glb_ite (c : Prop) [Decidable c] (a b : State) : (if c then a else b).glb = if c then a.glb else b.glb := by
  split <;> rfl
@[simp] theorem glb_ite2 {α : Type} (c : Prop) [Decidable c] (a b : α × State) : (if c then a else b).2.glb = if c then a.2.glb else b.2.glb := by
  split <;> rfl
@[simp] theorem glb_foldl {α : Type} (l : List α) (f : State → α → State) (s : State)
    (hf : ∀ s a, (f s a).glb = s.glb) : (l.foldl f s).glb = s.glb := foldl_keeps _ l f s hf

@[simp] theorem watch_ite (c : Prop) [Decidable c] (a b : State) : (if c then a else b).watch = if c then a.watch else b.watch := by
  split <;> rfl
@[simp] theorem watch_ite2 {α : Type} (c : Prop) [Decidable c] (a b : α × State) : (if c then a else b).2.watch = if c then a.2.watch else b.2.watch := by
  split <;> rfl
@[simp] theorem watch_foldl {α : Type} (l : List α) (f : State → α → State) (s : State)
    (hf : ∀ s a, (f s a).watch = s.watch) : (l.foldl f s).watch = s.watch := foldl_keeps _ l f s hf

@[simp] theorem hst_ite (c : Prop) [Decidable c] (a b : State) : (if c then a else b).hst = if c then a.hst else b.hst := by
  split <;> rfl
@[simp] theorem hst_ite2 {α : Type} (c : Prop) [Decidable c] (a b : α × State) : (if c then a else b).2.hst = if c then a.2.hst else b.2.hst := by
  split <;> rfl
@[simp] theorem hst_foldl {α : Type} (l : List α) (f : State → α → State) (s : State)
    (hf : ∀ s a, (f s a).hst = s.hst) : (l.foldl f s).hst = s.hst := foldl_keeps _ l f s hf

@[simp] theorem rings_ite (c : Prop) [Decidable c] (a b : State) : (if c then a else b).rings = if c then a.rings else b.rings := by
  split <;> rfl
@[simp] theorem rings_ite2 {α : Type} (c : Prop) [Decidable c] (a b : α × State) : (if c then a else b).2.rings = if c then a.2.rings else b.2.rings := by
  split <;> rfl
@[simp] theorem rings_foldl {α : Type} (l : List α) (f : State → α → State) (s : State)
    (hf : ∀ s a, (f s a).rings = s.rings) : (l.foldl f s).rings = s.rings := foldl_keeps _ l f s hf

@[simp] theorem era_ite (c : Prop) [Decidable c] (a b : State) : (if c then a else b).era = if c then a.era else b.era := by
  split <;> rfl
@[simp] theorem era_ite2 {α : Type} (c : Prop) [Decidable c] (a b : α × State) : (if c then a else b).2.era = if c then a.2.era else b.2.era := by
  split <;> rfl
@[simp] theorem era_foldl {α : Type} (l : List α) (f : State → α → State) (s : State)
    (hf : ∀ s a, (f s a).era = s.era) : (l.foldl f s).era = s.era := foldl_keeps _ l f s hf

@[simp] theorem col_ite (c : Prop) [Decidable c] (a b : State) : (if c then a else b).col = if c then a.col else b.col := by
  split <;> rfl
@[simp] theorem col_ite2 {α : Type} (c : Prop) [Decidable c] (a b : α × State) : (if c then a else b).2.col = if c then a.2.col else b.2.col := by
  split <;> rfl
@[simp] theorem col_foldl {α : Type} (l : List α) (f : State → α → State) (s : State)
    (hf : ∀ s a, (f s a).col = s.col) : (l.foldl f s).col = s.col := foldl_keeps _ l f s hf

@[simp] theorem spr_ite (c : Prop) [Decidable c] (a b : State) : (if c then a else b).spr = if c then a.spr else b.spr := by
  split <;> rfl
@[simp] theorem spr_ite2 {α : Type} (c : Prop) [Decidable c] (a b : α × State) : (if c then a else b).2.spr = if c then a.2.spr else b.2.spr := by
  split <;> rfl
@[simp] theorem spr_foldl {α : Type} (l : List α) (f : State → α → State) (s : State)
    (hf : ∀ s a, (f s a).spr = s.spr) : (l.foldl f s).spr = s.spr := foldl_keeps _ l f s hf

@[simp] theorem ing_ite (c : Prop) [Decidable c] (a b : State) : (if c then a else b).ing = if c then a.ing else b.ing := by
  split <;> rfl
@[simp] theorem ing_ite2 {α : Type} (c : Prop) [Decidable c] (a b : α × State) : (if c then a else b).2.ing = if c then a.2.ing else b.2.ing := by
  split <;> rfl
@[simp] theorem ing_foldl {α : Type} (l : List α) (f : State → α → State) (s : State)
    (hf : ∀ s a, (f s a).ing = s.ing) : (l.foldl f s).ing = s.ing := foldl_keeps _ l f s hf

@[simp] theorem prs_ite (c : Prop) [Decidable c] (a b : State) : (if c then a else b).prs = if c then a.prs else b.prs := by
  split <;> rfl
@[simp] theorem prs_ite2 {α : Type} (c : Prop) [Decidable c] (a b : α × State) : (if c then a else b).2.prs = if c then a.2.prs else b.2.prs := by
  split <;> rfl
@[simp] theorem prs_foldl {α : Type} (l : List α) (f : State → α → State) (s : State)
    (hf : ∀ s a, (f s a).prs = s.prs) : (l.foldl f s).prs = s.prs := foldl_keeps _ l f s hf

@[simp] theorem gal_ite (c : Prop) [Decidable c] (a b : State) : (if c then a else b).gal = if c then a.gal else b.gal := by
  split <;> rfl
@[simp] theorem gal_ite2 {α : Type} (c : Prop) [Decidable c] (a b : α × State) : (if c then a else b).2.gal = if c then a.2.gal else b.2.gal := by
  split <;> rfl
@[simp] theorem gal_foldl {α : Type} (l : List α) (f : State → α → State) (s : State)
    (hf : ∀ s a, (f s a).gal = s.gal) : (l.foldl f s).gal = s.gal := foldl_keeps _ l f s hf

@[simp] theorem trn_ite (c : Prop) [Decidable c] (a b : State) : (if c then a else b).trn = if c then a.trn else b.trn := by
  split <;> rfl
@[simp] theorem trn_ite2 {α : Type} (c : Prop) [Decidable c] (a b : α × State) : (if c then a else b).2.trn = if c then a.2.trn else b.2.trn := by
  split <;> rfl
@[simp] theorem trn_foldl {α : Type} (l : List α) (f : State → α → State) (s : State)
    (hf : ∀ s a, (f s a).trn = s.trn) : (l.foldl f s).trn = s.trn := foldl_keeps _ l f s hf

@[simp] theorem chs_ite (c : Prop) [Decidable c] (a b : State) : (if c then a else b).chs = if c then a.chs else b.chs := by
  split <;> rfl
@[simp] theorem chs_ite2 {α : Type} (c : Prop) [Decidable c] (a b : α × State) : (if c then a else b).2.chs = if c then a.2.chs else b.2.chs := by
  split <;> rfl
@[simp] theorem chs_foldl {α : Type} (l : List α) (f : State → α → State) (s : State)
    (hf : ∀ s a, (f s a).chs = s.chs) : (l.foldl f s).chs = s.chs := foldl_keeps _ l f s hf

@[simp] theorem bup_ite (c : Prop) [Decidable c] (a b : State) : (if c then a else b).bup = if c then a.bup else b.bup := by
  split <;> rfl
@[simp] theorem bup_ite2 {α : Type} (c : Prop) [Decidable c] (a b : α × State) : (if c then a else b).2.bup = if c then a.2.bup else b.2.bup := by
  split <;> rfl
@[simp] theorem bup_foldl {α : Type} (l : List α) (f : State → α → State) (s : State)
    (hf : ∀ s a, (f s a).bup = s.bup) : (l.foldl f s).bup = s.bup := foldl_keeps _ l f s hf

@[simp] theorem est_ite (c : Prop) [Decidable c] (a b : State) : (if c then a else b).est = if c then a.est else b.est := by
  split <;> rfl
@[simp] theorem est_ite2 {α : Type} (c : Prop) [Decidable c] (a b : α × State) : (if c then a else b).2.est = if c then a.2.est else b.2.est := by
  split <;> rfl
@[simp] theorem est_foldl {α : Type} (l : List α) (f : State → α → State) (s : State)
    (hf : ∀ s a, (f s a).est = s.est) : (l.foldl f s).est = s.est := foldl_keeps _ l f s hf

@[simp] theorem fen_ite (c : Prop) [Decidable c] (a b : State) : (if c then a else b).fen = if c then a.fen else b.fen := by
  split <;> rfl
@[simp] theorem fen_ite2 {α : Type} (c : Prop) [Decidable c] (a b : α × State) : (if c then a else b).2.fen = if c then a.2.fen else b.2.fen := by
  split <;> rfl
@[simp] theorem fen_foldl {α : Type} (l : List α) (f : State → α → State) (s : State)
    (hf : ∀ s a, (f s a).fen = s.fen) : (l.foldl f s).fen = s.fen := foldl_keeps _ l f s hf

@[simp] theorem grp_ite (c : Prop) [Decidable c] (a b : State) : (if c then a else b).grp = if c then a.grp else b.grp := by
  split <;> rfl
@[simp] theorem grp_ite2 {α : Type} (c : Prop) [Decidable c] (a b : α × State) : (if c then a else b).2.grp = if c then a.2.grp else b.2.grp := by
  split <;> rfl
@[simp] theorem grp_foldl {α : Type} (l : List α) (f : State → α → State) (s : State)
    (hf : ∀ s a, (f s a).grp = s.grp) : (l.foldl f s).grp = s.grp := foldl_keeps _ l f s hf

@[simp] theorem ros_ite (c : Prop) [Decidable c] (a b : State) : (if c then a else b).ros = if c then a.ros else b.ros := by
  split <;> rfl
@[simp] theorem ros_ite2 {α : Type} (c : Prop) [Decidable c] (a b : α × State) : (if c then a else b).2.ros = if c then a.2.ros else b.2.ros := by
  split <;> rfl
@[simp] theorem ros_foldl {α : Type} (l : List α) (f : State → α → State) (s : State)
    (hf : ∀ s a, (f s a).ros = s.ros) : (l.foldl f s).ros = s.ros := foldl_keeps _ l f s hf

@[simp] theorem upd_ite (c : Prop) [Decidable c] (a b : State) : (if c then a else b).upd = if c then a.upd else b.upd := by
  split <;> rfl
@[simp] theorem upd_ite2 {α : Type} (c : Prop) [Decidable c] (a b : α × State) : (if c then a else b).2.upd = if c then a.2.upd else b.2.upd := by
  split <;> rfl
@[simp] theorem upd_foldl {α : Type} (l : List α) (f : State → α → State) (s : State)
    (hf : ∀ s a, (f s a).upd = s.upd) : (l.foldl f s).upd = s.upd := foldl_keeps _ l f s hf

@[simp] theorem prf_ite (c : Prop) [Decidable c] (a b : State) : (if c then a else b).prf = if c then a.prf else b.prf := by
  split <;> rfl
@[simp] theorem prf_ite2 {α : Type} (c : Prop) [Decidable c] (a b : α × State) : (if c then a else b).2.prf = if c then a.2.prf else b.2.prf := by
  split <;> rfl
@[simp] theorem prf_foldl {α : Type} (l : List α) (f : State → α → State) (s : State)
    (hf : ∀ s a, (f s a).prf = s.prf) : (l.foldl f s).prf = s.prf := foldl_keeps _ l f s hf

@[simp] theorem free_ite (c : Prop) [Decidable c] (a b : State) : (if c then a else b).free = if c then a.free else b.free := by
  split <;> rfl
@[simp] theorem free_ite2 {α : Type} (c : Prop) [Decidable c] (a b : α × State) : (if c then a else b).2.free = if c then a.2.free else b.2.free := by
  split <;> rfl
@[simp] theorem free_foldl {α : Type} (l : List α) (f : State → α → State) (s : State)
    (hf : ∀ s a, (f s a).free = s.free) : (l.foldl f s).free = s.free := foldl_keeps _ l f s hf

@[simp] theorem out_ite (c : Prop) [Decidable c] (a b : State) : (if c then a else b).out = if c then a.out else b.out := by
  split <;> rfl
@[simp] theorem out_ite2 {α : Type} (c : Prop) [Decidable c] (a b : α × State) : (if c then a else b).2.out = if c then a.2.out else b.2.out := by
  split <;> rfl
@[simp] theorem out_foldl {α : Type} (l : List α) (f : State → α → State) (s : State)
    (hf : ∀ s a, (f s a).out = s.out) : (l.foldl f s).out = s.out := foldl_keeps _ l f s hf

@[simp] theorem State.set_keeps (s : State) (f : Fld) (v : Nat) :
    (State.set s f v).nvm = s.nvm ∧ (State.set s f v).pendW = s.pendW ∧ (State.set s f v).chgNext = s.chgNext ∧ (State.set s f v).staged = s.staged ∧ (State.set s f v).nv = s.nv ∧ (State.set s f v).glb = s.glb ∧ (State.set s f v).watch = s.watch ∧ (State.set s f v).hst = s.hst ∧ (State.set s f v).rings = s.rings ∧ (State.set s f v).era = s.era ∧ (State.set s f v).col = s.col ∧ (State.set s f v).spr = s.spr ∧ (State.set s f v).ing = s.ing ∧ (State.set s f v).prs = s.prs ∧ (State.set s f v).gal = s.gal ∧ (State.set s f v).trn = s.trn ∧ (State.set s f v).chs = s.chs ∧ (State.set s f v).bup = s.bup ∧ (State.set s f v).est = s.est ∧ (State.set s f v).fen = s.fen ∧ (State.set s f v).grp = s.grp ∧ (State.set s f v).ros = s.ros ∧ (State.set s f v).upd = s.upd ∧ (State.set s f v).prf = s.prf ∧ (State.set s f v).free = s.free ∧ (State.set s f v).out = s.out := by
  simp [State.set, *]

@[simp] theorem State.setS_keeps (s : State) (f : Fld) (z : Int) :
    (State.setS s f z).nvm = s.nvm ∧ (State.setS s f z).pendW = s.pendW ∧ (State.setS s f z).chgNext = s.chgNext ∧ (State.setS s f z).staged = s.staged ∧ (State.setS s f z).nv = s.nv ∧ (State.setS s f z).glb = s.glb ∧ (State.setS s f z).watch = s.watch ∧ (State.setS s f z).hst = s.hst ∧ (State.setS s f z).rings = s.rings ∧ (State.setS s f z).era = s.era ∧ (State.setS s f z).col = s.col ∧ (State.setS s f z).spr = s.spr ∧ (State.setS s f z).ing = s.ing ∧ (State.setS s f z).prs = s.prs ∧ (State.setS s f z).gal = s.gal ∧ (State.setS s f z).trn = s.trn ∧ (State.setS s f z).chs = s.chs ∧ (State.setS s f z).bup = s.bup ∧ (State.setS s f z).est = s.est ∧ (State.setS s f z).fen = s.fen ∧ (State.setS s f z).grp = s.grp ∧ (State.setS s f z).ros = s.ros ∧ (State.setS s f z).upd = s.upd ∧ (State.setS s f z).prf = s.prf ∧ (State.setS s f z).free = s.free ∧ (State.setS s f z).out = s.out := by
  simp [State.setS, *]

@[simp] theorem State.setB_keeps (s : State) (f : Fld) (b : Bool) :
    (State.setB s f b).nvm = s.nvm ∧ (State.setB s f b).pendW = s.pendW ∧ (State.setB s f b).chgNext = s.chgNext ∧ (State.setB s f b).staged = s.staged ∧ (State.setB s f b).nv = s.nv ∧ (State.setB s f b).glb = s.glb ∧ (State.setB s f b).watch = s.watch ∧ (State.setB s f b).hst = s.hst ∧ (State.setB s f b).rings = s.rings ∧ (State.setB s f b).era = s.era ∧ (State.setB s f b).col = s.col ∧ (State.setB s f b).spr = s.spr ∧ (State.setB s f b).ing = s.ing ∧ (State.setB s f b).prs = s.prs ∧ (State.setB s f b).gal = s.gal ∧ (State.setB s f b).trn = s.trn ∧ (State.setB s f b).chs = s.chs ∧ (State.setB s f b).bup = s.bup ∧ (State.setB s f b).est = s.est ∧ (State.setB s f b).fen = s.fen ∧ (State.setB s f b).grp = s.grp ∧ (State.setB s f b).ros = s.ros ∧ (State.setB s f b).upd = s.upd ∧ (State.setB s f b).prf = s.prf ∧ (State.setB s f b).free = s.free ∧ (State.setB s f b).out = s.out := by
  simp [State.setB, *]

@[simp] theorem State.add_keeps (s : State) (f : Fld) (n : Nat) :
    (State.add s f n).nvm = s.nvm ∧ (State.add s f n).pendW = s.pendW ∧ (State.add s f n).chgNext = s.chgNext ∧ (State.add s f n).staged = s.staged ∧ (State.add s f n).nv = s.nv ∧ (State.add s f n).glb = s.glb ∧ (State.add s f n).watch = s.watch ∧ (State.add s f n).hst = s.hst ∧ (State.add s f n).rings = s.rings ∧ (State.add s f n).era = s.era ∧ (State.add s f n).col = s.col ∧ (State.add s f n).spr = s.spr ∧ (State.add s f n).ing = s.ing ∧ (State.add s f n).prs = s.prs ∧ (State.add s f n).gal = s.gal ∧ (State.add s f n).trn = s.trn ∧ (State.add s f n).chs = s.chs ∧ (State.add s f n).bup = s.bup ∧ (State.add s f n).est = s.est ∧ (State.add s f n).fen = s.fen ∧ (State.add s f n).grp = s.grp ∧ (State.add s f n).ros = s.ros ∧ (State.add s f n).upd = s.upd ∧ (State.add s f n).prf = s.prf ∧ (State.add s f n).free = s.free ∧ (State.add s f n).out = s.out := by
  simp [State.add, *]

@[simp] theorem State.bump_keeps (s : State) (f : Fld) :
    (State.bump s f).nvm = s.nvm ∧ (State.bump s f).pendW = s.pendW ∧ (State.bump s f).chgNext = s.chgNext ∧ (State.bump s f).staged = s.staged ∧ (State.bump s f).nv = s.nv ∧ (State.bump s f).glb = s.glb ∧ (State.bump s f).watch = s.watch ∧ (State.bump s f).hst = s.hst ∧ (State.bump s f).rings = s.rings ∧ (State.bump s f).era = s.era ∧ (State.bump s f).col = s.col ∧ (State.bump s f).spr = s.spr ∧ (State.bump s f).ing = s.ing ∧ (State.bump s f).prs = s.prs ∧ (State.bump s f).gal = s.gal ∧ (State.bump s f).trn = s.trn ∧ (State.bump s f).chs = s.chs ∧ (State.bump s f).bup = s.bup ∧ (State.bump s f).est = s.est ∧ (State.bump s f).fen = s.fen ∧ (State.bump s f).grp = s.grp ∧ (State.bump s f).ros = s.ros ∧ (State.bump s f).upd = s.upd ∧ (State.bump s f).prf = s.prf ∧ (State.bump s f).free = s.free ∧ (State.bump s f).out = s.out := by
  simp [State.bump, *]

@[simp] theorem State.setNv_keeps (s : State) (f : Fld) (v : Nat) :
    (State.setNv s f v).pendW = s.pendW ∧ (State.setNv s f v).chgNext = s.chgNext ∧ (State.setNv s f v).staged = s.staged ∧ (State.setNv s f v).nv = s.nv ∧ (State.setNv s f v).glb = s.glb ∧ (State.setNv s f v).watch = s.watch ∧ (State.setNv s f v).hst = s.hst ∧ (State.setNv s f v).rings = s.rings ∧ (State.setNv s f v).era = s.era ∧ (State.setNv s f v).col = s.col ∧ (State.setNv s f v).spr = s.spr ∧ (State.setNv s f v).ing = s.ing ∧ (State.setNv s f v).prs = s.prs ∧ (State.setNv s f v).gal = s.gal ∧ (State.setNv s f v).trn = s.trn ∧ (State.setNv s f v).chs = s.chs ∧ (State.setNv s f v).bup = s.bup ∧ (State.setNv s f v).est = s.est ∧ (State.setNv s f v).fen = s.fen ∧ (State.setNv s f v).grp = s.grp ∧ (State.setNv s f v).ros = s.ros ∧ (State.setNv s f v).upd = s.upd ∧ (State.setNv s f v).prf = s.prf ∧ (State.setNv s f v).free = s.free ∧ (State.setNv s f v).out = s.out := by
  simp [State.setNv, *]

@[simp] theorem State.resetFields_keeps (s : State) (p : Nat → Bool) :
    (State.resetFields s p).nvm = s.nvm ∧ (State.resetFields s p).pendW = s.pendW ∧ (State.resetFields s p).chgNext = s.chgNext ∧ (State.resetFields s p).staged = s.staged ∧ (State.resetFields s p).nv = s.nv ∧ (State.resetFields s p).glb = s.glb ∧ (State.resetFields s p).watch = s.watch ∧ (State.resetFields s p).hst = s.hst ∧ (State.resetFields s p).rings = s.rings ∧ (State.resetFields s p).era = s.era ∧ (State.resetFields s p).col = s.col ∧ (State.resetFields s p).spr = s.spr ∧ (State.resetFields s p).ing = s.ing ∧ (State.resetFields s p).prs = s.prs ∧ (State.resetFields s p).gal = s.gal ∧ (State.resetFields s p).trn = s.trn ∧ (State.resetFields s p).chs = s.chs ∧ (State.resetFields s p).bup = s.bup ∧ (State.resetFields s p).est = s.est ∧ (State.resetFields s p).fen = s.fen ∧ (State.resetFields s p).grp = s.grp ∧ (State.resetFields s p).ros = s.ros ∧ (State.resetFields s p).upd = s.upd ∧ (State.resetFields s p).prf = s.prf ∧ (State.resetFields s p).free = s.free ∧ (State.resetFields s p).out = s.out := by
  simp [State.resetFields, *]

@[simp] theorem State.resetBlock_keeps (s : State) (b : Nat) :
    (State.resetBlock s b).nvm = s.nvm ∧ (State.resetBlock s b).pendW = s.pendW ∧ (State.resetBlock s b).chgNext = s.chgNext ∧ (State.resetBlock s b).staged = s.staged ∧ (State.resetBlock s b).nv = s.nv ∧ (State.resetBlock s b).glb = s.glb ∧ (State.resetBlock s b).watch = s.watch ∧ (State.resetBlock s b).hst = s.hst ∧ (State.resetBlock s b).rings = s.rings ∧ (State.resetBlock s b).era = s.era ∧ (State.resetBlock s b).col = s.col ∧ (State.resetBlock s b).spr = s.spr ∧ (State.resetBlock s b).ing = s.ing ∧ (State.resetBlock s b).prs = s.prs ∧ (State.resetBlock s b).gal = s.gal ∧ (State.resetBlock s b).trn = s.trn ∧ (State.resetBlock s b).chs = s.chs ∧ (State.resetBlock s b).bup = s.bup ∧ (State.resetBlock s b).est = s.est ∧ (State.resetBlock s b).fen = s.fen ∧ (State.resetBlock s b).grp = s.grp ∧ (State.resetBlock s b).ros = s.ros ∧ (State.resetBlock s b).upd = s.upd ∧ (State.resetBlock s b).prf = s.prf ∧ (State.resetBlock s b).free = s.free ∧ (State.resetBlock s b).out = s.out := by
  simp [State.resetBlock, *]

@[simp] theorem State.later_keeps (s : State) (f : Fld) (v : Nat) (p : Point) :
    (State.later s f v p).regs = s.regs ∧ (State.later s f v p).nvm = s.nvm ∧ (State.later s f v p).chgNext = s.chgNext ∧ (State.later s f v p).staged = s.staged ∧ (State.later s f v p).nv = s.nv ∧ (State.later s f v p).glb = s.glb ∧ (State.later s f v p).watch = s.watch ∧ (State.later s f v p).hst = s.hst ∧ (State.later s f v p).rings = s.rings ∧ (State.later s f v p).era = s.era ∧ (State.later s f v p).col = s.col ∧ (State.later s f v p).spr = s.spr ∧ (State.later s f v p).ing = s.ing ∧ (State.later s f v p).prs = s.prs ∧ (State.later s f v p).gal = s.gal ∧ (State.later s f v p).trn = s.trn ∧ (State.later s f v p).chs = s.chs ∧ (State.later s f v p).bup = s.bup ∧ (State.later s f v p).est = s.est ∧ (State.later s f v p).fen = s.fen ∧ (State.later s f v p).grp = s.grp ∧ (State.later s f v p).ros = s.ros ∧ (State.later s f v p).upd = s.upd ∧ (State.later s f v p).prf = s.prf ∧ (State.later s f v p).free = s.free ∧ (State.later s f v p).out = s.out := by
  simp [State.later, *]

@[simp] theorem State.applyW_keeps (s : State) (p : Point) :
    (State.applyW s p).nvm = s.nvm ∧ (State.applyW s p).chgNext = s.chgNext ∧ (State.applyW s p).staged = s.staged ∧ (State.applyW s p).nv = s.nv ∧ (State.applyW s p).glb = s.glb ∧ (State.applyW s p).watch = s.watch ∧ (State.applyW s p).hst = s.hst ∧ (State.applyW s p).rings = s.rings ∧ (State.applyW s p).era = s.era ∧ (State.applyW s p).col = s.col ∧ (State.applyW s p).spr = s.spr ∧ (State.applyW s p).ing = s.ing ∧ (State.applyW s p).prs = s.prs ∧ (State.applyW s p).gal = s.gal ∧ (State.applyW s p).trn = s.trn ∧ (State.applyW s p).chs = s.chs ∧ (State.applyW s p).bup = s.bup ∧ (State.applyW s p).est = s.est ∧ (State.applyW s p).fen = s.fen ∧ (State.applyW s p).grp = s.grp ∧ (State.applyW s p).ros = s.ros ∧ (State.applyW s p).upd = s.upd ∧ (State.applyW s p).prf = s.prf ∧ (State.applyW s p).free = s.free ∧ (State.applyW s p).out = s.out := by
  simp [State.applyW, *]

@[simp] theorem State.draw_keeps (s : State) :
    (State.draw s).2.regs = s.regs ∧ (State.draw s).2.nvm = s.nvm ∧ (State.draw s).2.pendW = s.pendW ∧ (State.draw s).2.chgNext = s.chgNext ∧ (State.draw s).2.staged = s.staged ∧ (State.draw s).2.nv = s.nv ∧ (State.draw s).2.glb = s.glb ∧ (State.draw s).2.watch = s.watch ∧ (State.draw s).2.hst = s.hst ∧ (State.draw s).2.rings = s.rings ∧ (State.draw s).2.era = s.era ∧ (State.draw s).2.col = s.col ∧ (State.draw s).2.spr = s.spr ∧ (State.draw s).2.ing = s.ing ∧ (State.draw s).2.prs = s.prs ∧ (State.draw s).2.gal = s.gal ∧ (State.draw s).2.trn = s.trn ∧ (State.draw s).2.chs = s.chs ∧ (State.draw s).2.bup = s.bup ∧ (State.draw s).2.est = s.est ∧ (State.draw s).2.fen = s.fen ∧ (State.draw s).2.grp = s.grp ∧ (State.draw s).2.ros = s.ros ∧ (State.draw s).2.upd = s.upd ∧ (State.draw s).2.prf = s.prf ∧ (State.draw s).2.out = s.out := by
  simp [State.draw, *]

@[simp] theorem State.emit_keeps (s : State) (o : Output) :
    (State.emit s o).regs = s.regs ∧ (State.emit s o).nvm = s.nvm ∧ (State.emit s o).pendW = s.pendW ∧ (State.emit s o).chgNext = s.chgNext ∧ (State.emit s o).staged = s.staged ∧ (State.emit s o).nv = s.nv ∧ (State.emit s o).glb = s.glb ∧ (State.emit s o).watch = s.watch ∧ (State.emit s o).hst = s.hst ∧ (State.emit s o).rings = s.rings ∧ (State.emit s o).era = s.era ∧ (State.emit s o).col = s.col ∧ (State.emit s o).spr = s.spr ∧ (State.emit s o).ing = s.ing ∧ (State.emit s o).prs = s.prs ∧ (State.emit s o).gal = s.gal ∧ (State.emit s o).trn = s.trn ∧ (State.emit s o).chs = s.chs ∧ (State.emit s o).bup = s.bup ∧ (State.emit s o).est = s.est ∧ (State.emit s o).fen = s.fen ∧ (State.emit s o).grp = s.grp ∧ (State.emit s o).ros = s.ros ∧ (State.emit s o).upd = s.upd ∧ (State.emit s o).prf = s.prf ∧ (State.emit s o).free = s.free := by
  simp [State.emit, *]

@[simp] theorem State.rosOut_keeps (s : State) (type : Nat) (p : List Byte) :
    (State.rosOut s type p).regs = s.regs ∧ (State.rosOut s type p).nvm = s.nvm ∧ (State.rosOut s type p).pendW = s.pendW ∧ (State.rosOut s type p).chgNext = s.chgNext ∧ (State.rosOut s type p).staged = s.staged ∧ (State.rosOut s type p).nv = s.nv ∧ (State.rosOut s type p).glb = s.glb ∧ (State.rosOut s type p).watch = s.watch ∧ (State.rosOut s type p).hst = s.hst ∧ (State.rosOut s type p).rings = s.rings ∧ (State.rosOut s type p).era = s.era ∧ (State.rosOut s type p).col = s.col ∧ (State.rosOut s type p).spr = s.spr ∧ (State.rosOut s type p).ing = s.ing ∧ (State.rosOut s type p).prs = s.prs ∧ (State.rosOut s type p).gal = s.gal ∧ (State.rosOut s type p).trn = s.trn ∧ (State.rosOut s type p).chs = s.chs ∧ (State.rosOut s type p).bup = s.bup ∧ (State.rosOut s type p).est = s.est ∧ (State.rosOut s type p).fen = s.fen ∧ (State.rosOut s type p).grp = s.grp ∧ (State.rosOut s type p).upd = s.upd ∧ (State.rosOut s type p).prf = s.prf ∧ (State.rosOut s type p).free = s.free := by
  unfold State.rosOut
  split <;> simp

@[simp] theorem State.countTo_keeps (s : State) (n : Nat) (c : Nat) (v : Nat) :
    (State.countTo s n c v).nvm = s.nvm ∧ (State.countTo s n c v).pendW = s.pendW ∧ (State.countTo s n c v).chgNext = s.chgNext ∧ (State.countTo s n c v).staged = s.staged ∧ (State.countTo s n c v).nv = s.nv ∧ (State.countTo s n c v).glb = s.glb ∧ (State.countTo s n c v).watch = s.watch ∧ (State.countTo s n c v).hst = s.hst ∧ (State.countTo s n c v).rings = s.rings ∧ (State.countTo s n c v).era = s.era ∧ (State.countTo s n c v).col = s.col ∧ (State.countTo s n c v).spr = s.spr ∧ (State.countTo s n c v).ing = s.ing ∧ (State.countTo s n c v).prs = s.prs ∧ (State.countTo s n c v).gal = s.gal ∧ (State.countTo s n c v).trn = s.trn ∧ (State.countTo s n c v).chs = s.chs ∧ (State.countTo s n c v).bup = s.bup ∧ (State.countTo s n c v).est = s.est ∧ (State.countTo s n c v).fen = s.fen ∧ (State.countTo s n c v).grp = s.grp ∧ (State.countTo s n c v).ros = s.ros ∧ (State.countTo s n c v).upd = s.upd ∧ (State.countTo s n c v).prf = s.prf ∧ (State.countTo s n c v).free = s.free ∧ (State.countTo s n c v).out = s.out := by
  simp [State.countTo, *]

@[simp] theorem State.count_keeps (s : State) (n : Nat) (ev : Nat) (k : Nat) (kind : Nat) :
    (State.count s n ev k kind).nvm = s.nvm ∧ (State.count s n ev k kind).pendW = s.pendW ∧ (State.count s n ev k kind).chgNext = s.chgNext ∧ (State.count s n ev k kind).staged = s.staged ∧ (State.count s n ev k kind).nv = s.nv ∧ (State.count s n ev k kind).glb = s.glb ∧ (State.count s n ev k kind).watch = s.watch ∧ (State.count s n ev k kind).hst = s.hst ∧ (State.count s n ev k kind).rings = s.rings ∧ (State.count s n ev k kind).era = s.era ∧ (State.count s n ev k kind).col = s.col ∧ (State.count s n ev k kind).spr = s.spr ∧ (State.count s n ev k kind).ing = s.ing ∧ (State.count s n ev k kind).prs = s.prs ∧ (State.count s n ev k kind).gal = s.gal ∧ (State.count s n ev k kind).trn = s.trn ∧ (State.count s n ev k kind).chs = s.chs ∧ (State.count s n ev k kind).bup = s.bup ∧ (State.count s n ev k kind).est = s.est ∧ (State.count s n ev k kind).fen = s.fen ∧ (State.count s n ev k kind).grp = s.grp ∧ (State.count s n ev k kind).ros = s.ros ∧ (State.count s n ev k kind).upd = s.upd ∧ (State.count s n ev k kind).prf = s.prf ∧ (State.count s n ev k kind).free = s.free ∧ (State.count s n ev k kind).out = s.out := by
  simp [State.count, *]

@[simp] theorem State.ringMod_keeps (s : State) (r : Nat) (f : RingX → RingX) :
    (State.ringMod s r f).regs = s.regs ∧ (State.ringMod s r f).nvm = s.nvm ∧ (State.ringMod s r f).pendW = s.pendW ∧ (State.ringMod s r f).chgNext = s.chgNext ∧ (State.ringMod s r f).staged = s.staged ∧ (State.ringMod s r f).nv = s.nv ∧ (State.ringMod s r f).glb = s.glb ∧ (State.ringMod s r f).watch = s.watch ∧ (State.ringMod s r f).hst = s.hst ∧ (State.ringMod s r f).era = s.era ∧ (State.ringMod s r f).col = s.col ∧ (State.ringMod s r f).spr = s.spr ∧ (State.ringMod s r f).ing = s.ing ∧ (State.ringMod s r f).prs = s.prs ∧ (State.ringMod s r f).gal = s.gal ∧ (State.ringMod s r f).trn = s.trn ∧ (State.ringMod s r f).chs = s.chs ∧ (State.ringMod s r f).bup = s.bup ∧ (State.ringMod s r f).est = s.est ∧ (State.ringMod s r f).fen = s.fen ∧ (State.ringMod s r f).grp = s.grp ∧ (State.ringMod s r f).ros = s.ros ∧ (State.ringMod s r f).upd = s.upd ∧ (State.ringMod s r f).prf = s.prf ∧ (State.ringMod s r f).free = s.free ∧ (State.ringMod s r f).out = s.out := by
  simp [State.ringMod, *]

@[simp] theorem State.msixSend_keeps (s : State) (v : Nat) :
    (State.msixSend s v).nvm = s.nvm ∧ (State.msixSend s v).pendW = s.pendW ∧ (State.msixSend s v).chgNext = s.chgNext ∧ (State.msixSend s v).staged = s.staged ∧ (State.msixSend s v).nv = s.nv ∧ (State.msixSend s v).glb = s.glb ∧ (State.msixSend s v).watch = s.watch ∧ (State.msixSend s v).rings = s.rings ∧ (State.msixSend s v).era = s.era ∧ (State.msixSend s v).col = s.col ∧ (State.msixSend s v).spr = s.spr ∧ (State.msixSend s v).ing = s.ing ∧ (State.msixSend s v).prs = s.prs ∧ (State.msixSend s v).gal = s.gal ∧ (State.msixSend s v).trn = s.trn ∧ (State.msixSend s v).chs = s.chs ∧ (State.msixSend s v).bup = s.bup ∧ (State.msixSend s v).est = s.est ∧ (State.msixSend s v).fen = s.fen ∧ (State.msixSend s v).grp = s.grp ∧ (State.msixSend s v).ros = s.ros ∧ (State.msixSend s v).upd = s.upd ∧ (State.msixSend s v).prf = s.prf ∧ (State.msixSend s v).free = s.free := by
  simp [State.msixSend, *]

@[simp] theorem State.dmaOut_keeps (s : State) (a : Nat) (b : List Byte) :
    (State.dmaOut s a b).regs = s.regs ∧ (State.dmaOut s a b).nvm = s.nvm ∧ (State.dmaOut s a b).pendW = s.pendW ∧ (State.dmaOut s a b).chgNext = s.chgNext ∧ (State.dmaOut s a b).staged = s.staged ∧ (State.dmaOut s a b).nv = s.nv ∧ (State.dmaOut s a b).glb = s.glb ∧ (State.dmaOut s a b).watch = s.watch ∧ (State.dmaOut s a b).rings = s.rings ∧ (State.dmaOut s a b).era = s.era ∧ (State.dmaOut s a b).col = s.col ∧ (State.dmaOut s a b).spr = s.spr ∧ (State.dmaOut s a b).ing = s.ing ∧ (State.dmaOut s a b).prs = s.prs ∧ (State.dmaOut s a b).gal = s.gal ∧ (State.dmaOut s a b).trn = s.trn ∧ (State.dmaOut s a b).chs = s.chs ∧ (State.dmaOut s a b).bup = s.bup ∧ (State.dmaOut s a b).est = s.est ∧ (State.dmaOut s a b).fen = s.fen ∧ (State.dmaOut s a b).grp = s.grp ∧ (State.dmaOut s a b).ros = s.ros ∧ (State.dmaOut s a b).upd = s.upd ∧ (State.dmaOut s a b).prf = s.prf ∧ (State.dmaOut s a b).free = s.free := by
  unfold State.dmaOut
  split <;> simp

@[simp] theorem State.moderate_keeps (s : State) (r : Nat) :
    (State.moderate s r).nvm = s.nvm ∧ (State.moderate s r).pendW = s.pendW ∧ (State.moderate s r).chgNext = s.chgNext ∧ (State.moderate s r).staged = s.staged ∧ (State.moderate s r).nv = s.nv ∧ (State.moderate s r).glb = s.glb ∧ (State.moderate s r).watch = s.watch ∧ (State.moderate s r).era = s.era ∧ (State.moderate s r).col = s.col ∧ (State.moderate s r).spr = s.spr ∧ (State.moderate s r).ing = s.ing ∧ (State.moderate s r).prs = s.prs ∧ (State.moderate s r).gal = s.gal ∧ (State.moderate s r).trn = s.trn ∧ (State.moderate s r).chs = s.chs ∧ (State.moderate s r).bup = s.bup ∧ (State.moderate s r).est = s.est ∧ (State.moderate s r).fen = s.fen ∧ (State.moderate s r).grp = s.grp ∧ (State.moderate s r).ros = s.ros ∧ (State.moderate s r).upd = s.upd ∧ (State.moderate s r).prf = s.prf ∧ (State.moderate s r).free = s.free := by
  simp [State.moderate, *]

@[simp] theorem State.putEntry_keeps (s : State) (r : Nat) (entry : Bool → List Byte) :
    (State.putEntry s r entry).nvm = s.nvm ∧ (State.putEntry s r entry).pendW = s.pendW ∧ (State.putEntry s r entry).chgNext = s.chgNext ∧ (State.putEntry s r entry).staged = s.staged ∧ (State.putEntry s r entry).nv = s.nv ∧ (State.putEntry s r entry).glb = s.glb ∧ (State.putEntry s r entry).watch = s.watch ∧ (State.putEntry s r entry).era = s.era ∧ (State.putEntry s r entry).col = s.col ∧ (State.putEntry s r entry).spr = s.spr ∧ (State.putEntry s r entry).ing = s.ing ∧ (State.putEntry s r entry).prs = s.prs ∧ (State.putEntry s r entry).gal = s.gal ∧ (State.putEntry s r entry).trn = s.trn ∧ (State.putEntry s r entry).chs = s.chs ∧ (State.putEntry s r entry).bup = s.bup ∧ (State.putEntry s r entry).est = s.est ∧ (State.putEntry s r entry).fen = s.fen ∧ (State.putEntry s r entry).grp = s.grp ∧ (State.putEntry s r entry).ros = s.ros ∧ (State.putEntry s r entry).upd = s.upd ∧ (State.putEntry s r entry).prf = s.prf ∧ (State.putEntry s r entry).free = s.free := by
  simp [State.putEntry, *]

@[simp] theorem State.postEntry_keeps (s : State) (r : Nat) (typ : Nat) (src : Nat) (confirmed : Bool) (inline : Bool → List Byte) (payload : List Byte) (stamp : Option Nat) :
    (State.postEntry s r typ src confirmed inline payload stamp).nvm = s.nvm ∧ (State.postEntry s r typ src confirmed inline payload stamp).pendW = s.pendW ∧ (State.postEntry s r typ src confirmed inline payload stamp).chgNext = s.chgNext ∧ (State.postEntry s r typ src confirmed inline payload stamp).staged = s.staged ∧ (State.postEntry s r typ src confirmed inline payload stamp).nv = s.nv ∧ (State.postEntry s r typ src confirmed inline payload stamp).glb = s.glb ∧ (State.postEntry s r typ src confirmed inline payload stamp).watch = s.watch ∧ (State.postEntry s r typ src confirmed inline payload stamp).era = s.era ∧ (State.postEntry s r typ src confirmed inline payload stamp).col = s.col ∧ (State.postEntry s r typ src confirmed inline payload stamp).spr = s.spr ∧ (State.postEntry s r typ src confirmed inline payload stamp).ing = s.ing ∧ (State.postEntry s r typ src confirmed inline payload stamp).prs = s.prs ∧ (State.postEntry s r typ src confirmed inline payload stamp).gal = s.gal ∧ (State.postEntry s r typ src confirmed inline payload stamp).trn = s.trn ∧ (State.postEntry s r typ src confirmed inline payload stamp).chs = s.chs ∧ (State.postEntry s r typ src confirmed inline payload stamp).bup = s.bup ∧ (State.postEntry s r typ src confirmed inline payload stamp).est = s.est ∧ (State.postEntry s r typ src confirmed inline payload stamp).fen = s.fen ∧ (State.postEntry s r typ src confirmed inline payload stamp).grp = s.grp ∧ (State.postEntry s r typ src confirmed inline payload stamp).ros = s.ros ∧ (State.postEntry s r typ src confirmed inline payload stamp).upd = s.upd ∧ (State.postEntry s r typ src confirmed inline payload stamp).prf = s.prf ∧ (State.postEntry s r typ src confirmed inline payload stamp).free = s.free := by
  simp [State.postEntry, *]

@[simp] theorem State.evtP_keeps (s : State) (src : Nat) (typ : Nat) (inline : Bool → List Byte) (payload : List Byte) :
    (State.evtP s src typ inline payload).nvm = s.nvm ∧ (State.evtP s src typ inline payload).pendW = s.pendW ∧ (State.evtP s src typ inline payload).chgNext = s.chgNext ∧ (State.evtP s src typ inline payload).staged = s.staged ∧ (State.evtP s src typ inline payload).nv = s.nv ∧ (State.evtP s src typ inline payload).glb = s.glb ∧ (State.evtP s src typ inline payload).watch = s.watch ∧ (State.evtP s src typ inline payload).era = s.era ∧ (State.evtP s src typ inline payload).col = s.col ∧ (State.evtP s src typ inline payload).spr = s.spr ∧ (State.evtP s src typ inline payload).ing = s.ing ∧ (State.evtP s src typ inline payload).prs = s.prs ∧ (State.evtP s src typ inline payload).gal = s.gal ∧ (State.evtP s src typ inline payload).trn = s.trn ∧ (State.evtP s src typ inline payload).chs = s.chs ∧ (State.evtP s src typ inline payload).bup = s.bup ∧ (State.evtP s src typ inline payload).est = s.est ∧ (State.evtP s src typ inline payload).fen = s.fen ∧ (State.evtP s src typ inline payload).grp = s.grp ∧ (State.evtP s src typ inline payload).ros = s.ros ∧ (State.evtP s src typ inline payload).upd = s.upd ∧ (State.evtP s src typ inline payload).prf = s.prf ∧ (State.evtP s src typ inline payload).free = s.free := by
  simp [State.evtP, *]

@[simp] theorem State.evt_keeps (s : State) (src : Nat) (typ : Nat) (inline : List Byte) :
    (State.evt s src typ inline).nvm = s.nvm ∧ (State.evt s src typ inline).pendW = s.pendW ∧ (State.evt s src typ inline).chgNext = s.chgNext ∧ (State.evt s src typ inline).staged = s.staged ∧ (State.evt s src typ inline).nv = s.nv ∧ (State.evt s src typ inline).glb = s.glb ∧ (State.evt s src typ inline).watch = s.watch ∧ (State.evt s src typ inline).era = s.era ∧ (State.evt s src typ inline).col = s.col ∧ (State.evt s src typ inline).spr = s.spr ∧ (State.evt s src typ inline).ing = s.ing ∧ (State.evt s src typ inline).prs = s.prs ∧ (State.evt s src typ inline).gal = s.gal ∧ (State.evt s src typ inline).trn = s.trn ∧ (State.evt s src typ inline).chs = s.chs ∧ (State.evt s src typ inline).bup = s.bup ∧ (State.evt s src typ inline).est = s.est ∧ (State.evt s src typ inline).fen = s.fen ∧ (State.evt s src typ inline).grp = s.grp ∧ (State.evt s src typ inline).ros = s.ros ∧ (State.evt s src typ inline).upd = s.upd ∧ (State.evt s src typ inline).prf = s.prf ∧ (State.evt s src typ inline).free = s.free := by
  simp [State.evt, *]

@[simp] theorem State.openAdd_keeps (s : State) (n : Nat) :
    (State.openAdd s n).regs = s.regs ∧ (State.openAdd s n).nvm = s.nvm ∧ (State.openAdd s n).pendW = s.pendW ∧ (State.openAdd s n).chgNext = s.chgNext ∧ (State.openAdd s n).staged = s.staged ∧ (State.openAdd s n).nv = s.nv ∧ (State.openAdd s n).glb = s.glb ∧ (State.openAdd s n).watch = s.watch ∧ (State.openAdd s n).hst = s.hst ∧ (State.openAdd s n).rings = s.rings ∧ (State.openAdd s n).era = s.era ∧ (State.openAdd s n).spr = s.spr ∧ (State.openAdd s n).ing = s.ing ∧ (State.openAdd s n).prs = s.prs ∧ (State.openAdd s n).gal = s.gal ∧ (State.openAdd s n).trn = s.trn ∧ (State.openAdd s n).chs = s.chs ∧ (State.openAdd s n).bup = s.bup ∧ (State.openAdd s n).est = s.est ∧ (State.openAdd s n).fen = s.fen ∧ (State.openAdd s n).grp = s.grp ∧ (State.openAdd s n).ros = s.ros ∧ (State.openAdd s n).upd = s.upd ∧ (State.openAdd s n).prf = s.prf ∧ (State.openAdd s n).free = s.free ∧ (State.openAdd s n).out = s.out := by
  simp [State.openAdd, *]

@[simp] theorem State.storeWrap_keeps (s : State) (store : Nat) (n : Nat) (cap : Nat) (oldest : Nat) :
    (State.storeWrap s store n cap oldest).nvm = s.nvm ∧ (State.storeWrap s store n cap oldest).pendW = s.pendW ∧ (State.storeWrap s store n cap oldest).chgNext = s.chgNext ∧ (State.storeWrap s store n cap oldest).staged = s.staged ∧ (State.storeWrap s store n cap oldest).nv = s.nv ∧ (State.storeWrap s store n cap oldest).glb = s.glb ∧ (State.storeWrap s store n cap oldest).watch = s.watch ∧ (State.storeWrap s store n cap oldest).era = s.era ∧ (State.storeWrap s store n cap oldest).col = s.col ∧ (State.storeWrap s store n cap oldest).spr = s.spr ∧ (State.storeWrap s store n cap oldest).ing = s.ing ∧ (State.storeWrap s store n cap oldest).prs = s.prs ∧ (State.storeWrap s store n cap oldest).gal = s.gal ∧ (State.storeWrap s store n cap oldest).trn = s.trn ∧ (State.storeWrap s store n cap oldest).chs = s.chs ∧ (State.storeWrap s store n cap oldest).bup = s.bup ∧ (State.storeWrap s store n cap oldest).est = s.est ∧ (State.storeWrap s store n cap oldest).fen = s.fen ∧ (State.storeWrap s store n cap oldest).grp = s.grp ∧ (State.storeWrap s store n cap oldest).ros = s.ros ∧ (State.storeWrap s store n cap oldest).upd = s.upd ∧ (State.storeWrap s store n cap oldest).prf = s.prf ∧ (State.storeWrap s store n cap oldest).free = s.free := by
  simp [State.storeWrap, *]

@[simp] theorem State.logC_keeps (s : State) (o : Origin) (kind : Nat) (chgNo : Nat) (opcode : Nat) (block : Nat) (target : Nat) (old : Nat) (new : Nat) (digest : Bool) :
    (State.logC s o kind chgNo opcode block target old new digest).nvm = s.nvm ∧ (State.logC s o kind chgNo opcode block target old new digest).pendW = s.pendW ∧ (State.logC s o kind chgNo opcode block target old new digest).chgNext = s.chgNext ∧ (State.logC s o kind chgNo opcode block target old new digest).staged = s.staged ∧ (State.logC s o kind chgNo opcode block target old new digest).nv = s.nv ∧ (State.logC s o kind chgNo opcode block target old new digest).glb = s.glb ∧ (State.logC s o kind chgNo opcode block target old new digest).watch = s.watch ∧ (State.logC s o kind chgNo opcode block target old new digest).era = s.era ∧ (State.logC s o kind chgNo opcode block target old new digest).spr = s.spr ∧ (State.logC s o kind chgNo opcode block target old new digest).ing = s.ing ∧ (State.logC s o kind chgNo opcode block target old new digest).prs = s.prs ∧ (State.logC s o kind chgNo opcode block target old new digest).gal = s.gal ∧ (State.logC s o kind chgNo opcode block target old new digest).trn = s.trn ∧ (State.logC s o kind chgNo opcode block target old new digest).chs = s.chs ∧ (State.logC s o kind chgNo opcode block target old new digest).bup = s.bup ∧ (State.logC s o kind chgNo opcode block target old new digest).est = s.est ∧ (State.logC s o kind chgNo opcode block target old new digest).fen = s.fen ∧ (State.logC s o kind chgNo opcode block target old new digest).grp = s.grp ∧ (State.logC s o kind chgNo opcode block target old new digest).ros = s.ros ∧ (State.logC s o kind chgNo opcode block target old new digest).upd = s.upd ∧ (State.logC s o kind chgNo opcode block target old new digest).prf = s.prf ∧ (State.logC s o kind chgNo opcode block target old new digest).free = s.free := by
  simp [State.logC, *]

@[simp] theorem State.slug_keeps (s : State) (code : Nat) (sub : Nat) (p0 : Nat) (p1 : Nat) (p2 : Nat) (p3 : Nat) :
    (State.slug s code sub p0 p1 p2 p3).nvm = s.nvm ∧ (State.slug s code sub p0 p1 p2 p3).pendW = s.pendW ∧ (State.slug s code sub p0 p1 p2 p3).chgNext = s.chgNext ∧ (State.slug s code sub p0 p1 p2 p3).staged = s.staged ∧ (State.slug s code sub p0 p1 p2 p3).nv = s.nv ∧ (State.slug s code sub p0 p1 p2 p3).glb = s.glb ∧ (State.slug s code sub p0 p1 p2 p3).watch = s.watch ∧ (State.slug s code sub p0 p1 p2 p3).era = s.era ∧ (State.slug s code sub p0 p1 p2 p3).spr = s.spr ∧ (State.slug s code sub p0 p1 p2 p3).ing = s.ing ∧ (State.slug s code sub p0 p1 p2 p3).prs = s.prs ∧ (State.slug s code sub p0 p1 p2 p3).gal = s.gal ∧ (State.slug s code sub p0 p1 p2 p3).trn = s.trn ∧ (State.slug s code sub p0 p1 p2 p3).chs = s.chs ∧ (State.slug s code sub p0 p1 p2 p3).bup = s.bup ∧ (State.slug s code sub p0 p1 p2 p3).est = s.est ∧ (State.slug s code sub p0 p1 p2 p3).fen = s.fen ∧ (State.slug s code sub p0 p1 p2 p3).grp = s.grp ∧ (State.slug s code sub p0 p1 p2 p3).ros = s.ros ∧ (State.slug s code sub p0 p1 p2 p3).upd = s.upd ∧ (State.slug s code sub p0 p1 p2 p3).prf = s.prf ∧ (State.slug s code sub p0 p1 p2 p3).free = s.free := by
  simp [State.slug, *]

@[simp] theorem State.stallBound_keeps (s : State) (p : Nat) :
    (State.stallBound s p).nvm = s.nvm ∧ (State.stallBound s p).pendW = s.pendW ∧ (State.stallBound s p).chgNext = s.chgNext ∧ (State.stallBound s p).staged = s.staged ∧ (State.stallBound s p).nv = s.nv ∧ (State.stallBound s p).glb = s.glb ∧ (State.stallBound s p).watch = s.watch ∧ (State.stallBound s p).hst = s.hst ∧ (State.stallBound s p).rings = s.rings ∧ (State.stallBound s p).era = s.era ∧ (State.stallBound s p).col = s.col ∧ (State.stallBound s p).spr = s.spr ∧ (State.stallBound s p).ing = s.ing ∧ (State.stallBound s p).prs = s.prs ∧ (State.stallBound s p).gal = s.gal ∧ (State.stallBound s p).trn = s.trn ∧ (State.stallBound s p).chs = s.chs ∧ (State.stallBound s p).bup = s.bup ∧ (State.stallBound s p).est = s.est ∧ (State.stallBound s p).fen = s.fen ∧ (State.stallBound s p).grp = s.grp ∧ (State.stallBound s p).ros = s.ros ∧ (State.stallBound s p).upd = s.upd ∧ (State.stallBound s p).prf = s.prf ∧ (State.stallBound s p).free = s.free ∧ (State.stallBound s p).out = s.out := by
  simp [State.stallBound, *]

@[simp] theorem State.flushCpl_keeps (s : State) (p n : Nat) :
    (State.flushCpl s p n).nvm = s.nvm ∧ (State.flushCpl s p n).pendW = s.pendW ∧ (State.flushCpl s p n).chgNext = s.chgNext ∧ (State.flushCpl s p n).staged = s.staged ∧ (State.flushCpl s p n).nv = s.nv ∧ (State.flushCpl s p n).glb = s.glb ∧ (State.flushCpl s p n).watch = s.watch ∧ (State.flushCpl s p n).era = s.era ∧ (State.flushCpl s p n).col = s.col ∧ (State.flushCpl s p n).spr = s.spr ∧ (State.flushCpl s p n).ing = s.ing ∧ (State.flushCpl s p n).prs = s.prs ∧ (State.flushCpl s p n).gal = s.gal ∧ (State.flushCpl s p n).trn = s.trn ∧ (State.flushCpl s p n).chs = s.chs ∧ (State.flushCpl s p n).bup = s.bup ∧ (State.flushCpl s p n).est = s.est ∧ (State.flushCpl s p n).fen = s.fen ∧ (State.flushCpl s p n).grp = s.grp ∧ (State.flushCpl s p n).ros = s.ros ∧ (State.flushCpl s p n).upd = s.upd ∧ (State.flushCpl s p n).prf = s.prf ∧ (State.flushCpl s p n).free = s.free := by
  induction n generalizing s with
  | zero => simp [State.flushCpl]
  | succ n ih =>
    unfold State.flushCpl
    repeat' (first | (simp [ih]; done) | split)

@[simp] theorem State.writeCpl_keeps (s : State) (p : Nat) (c : Cpl) :
    (State.writeCpl s p c).nvm = s.nvm ∧ (State.writeCpl s p c).pendW = s.pendW ∧ (State.writeCpl s p c).chgNext = s.chgNext ∧ (State.writeCpl s p c).staged = s.staged ∧ (State.writeCpl s p c).nv = s.nv ∧ (State.writeCpl s p c).glb = s.glb ∧ (State.writeCpl s p c).watch = s.watch ∧ (State.writeCpl s p c).era = s.era ∧ (State.writeCpl s p c).col = s.col ∧ (State.writeCpl s p c).spr = s.spr ∧ (State.writeCpl s p c).ing = s.ing ∧ (State.writeCpl s p c).prs = s.prs ∧ (State.writeCpl s p c).gal = s.gal ∧ (State.writeCpl s p c).trn = s.trn ∧ (State.writeCpl s p c).chs = s.chs ∧ (State.writeCpl s p c).bup = s.bup ∧ (State.writeCpl s p c).est = s.est ∧ (State.writeCpl s p c).fen = s.fen ∧ (State.writeCpl s p c).grp = s.grp ∧ (State.writeCpl s p c).ros = s.ros ∧ (State.writeCpl s p c).upd = s.upd ∧ (State.writeCpl s p c).prf = s.prf ∧ (State.writeCpl s p c).free = s.free := by
  simp [State.writeCpl, *]

@[simp] theorem State.closeBatch_keeps (s : State) (r : Nat) :
    (State.closeBatch s r).nvm = s.nvm ∧ (State.closeBatch s r).pendW = s.pendW ∧ (State.closeBatch s r).chgNext = s.chgNext ∧ (State.closeBatch s r).staged = s.staged ∧ (State.closeBatch s r).nv = s.nv ∧ (State.closeBatch s r).glb = s.glb ∧ (State.closeBatch s r).watch = s.watch ∧ (State.closeBatch s r).era = s.era ∧ (State.closeBatch s r).col = s.col ∧ (State.closeBatch s r).spr = s.spr ∧ (State.closeBatch s r).ing = s.ing ∧ (State.closeBatch s r).prs = s.prs ∧ (State.closeBatch s r).gal = s.gal ∧ (State.closeBatch s r).trn = s.trn ∧ (State.closeBatch s r).chs = s.chs ∧ (State.closeBatch s r).bup = s.bup ∧ (State.closeBatch s r).est = s.est ∧ (State.closeBatch s r).fen = s.fen ∧ (State.closeBatch s r).grp = s.grp ∧ (State.closeBatch s r).ros = s.ros ∧ (State.closeBatch s r).upd = s.upd ∧ (State.closeBatch s r).prf = s.prf ∧ (State.closeBatch s r).free = s.free := by
  simp [State.closeBatch, *]

@[simp] theorem State.completeOne_keeps (s : State) (r : Nat) (op : Nat) (d : Desc) (status : Nat) (done : Nat) (result : Nat) :
    (State.completeOne s r op d status done result).nvm = s.nvm ∧ (State.completeOne s r op d status done result).pendW = s.pendW ∧ (State.completeOne s r op d status done result).chgNext = s.chgNext ∧ (State.completeOne s r op d status done result).staged = s.staged ∧ (State.completeOne s r op d status done result).nv = s.nv ∧ (State.completeOne s r op d status done result).glb = s.glb ∧ (State.completeOne s r op d status done result).watch = s.watch ∧ (State.completeOne s r op d status done result).era = s.era ∧ (State.completeOne s r op d status done result).col = s.col ∧ (State.completeOne s r op d status done result).spr = s.spr ∧ (State.completeOne s r op d status done result).ing = s.ing ∧ (State.completeOne s r op d status done result).prs = s.prs ∧ (State.completeOne s r op d status done result).gal = s.gal ∧ (State.completeOne s r op d status done result).trn = s.trn ∧ (State.completeOne s r op d status done result).chs = s.chs ∧ (State.completeOne s r op d status done result).bup = s.bup ∧ (State.completeOne s r op d status done result).est = s.est ∧ (State.completeOne s r op d status done result).fen = s.fen ∧ (State.completeOne s r op d status done result).grp = s.grp ∧ (State.completeOne s r op d status done result).ros = s.ros ∧ (State.completeOne s r op d status done result).upd = s.upd ∧ (State.completeOne s r op d status done result).prf = s.prf ∧ (State.completeOne s r op d status done result).free = s.free := by
  simp [State.completeOne, *]

@[simp] theorem State.completeMode_keeps (s : State) (r : Nat) (op : Nat) (d : Desc) (status : Nat) (done : Nat) (result : Nat) :
    (State.completeMode s r op d status done result).nvm = s.nvm ∧ (State.completeMode s r op d status done result).pendW = s.pendW ∧ (State.completeMode s r op d status done result).chgNext = s.chgNext ∧ (State.completeMode s r op d status done result).staged = s.staged ∧ (State.completeMode s r op d status done result).nv = s.nv ∧ (State.completeMode s r op d status done result).glb = s.glb ∧ (State.completeMode s r op d status done result).watch = s.watch ∧ (State.completeMode s r op d status done result).era = s.era ∧ (State.completeMode s r op d status done result).col = s.col ∧ (State.completeMode s r op d status done result).spr = s.spr ∧ (State.completeMode s r op d status done result).ing = s.ing ∧ (State.completeMode s r op d status done result).prs = s.prs ∧ (State.completeMode s r op d status done result).gal = s.gal ∧ (State.completeMode s r op d status done result).trn = s.trn ∧ (State.completeMode s r op d status done result).chs = s.chs ∧ (State.completeMode s r op d status done result).bup = s.bup ∧ (State.completeMode s r op d status done result).est = s.est ∧ (State.completeMode s r op d status done result).fen = s.fen ∧ (State.completeMode s r op d status done result).grp = s.grp ∧ (State.completeMode s r op d status done result).ros = s.ros ∧ (State.completeMode s r op d status done result).upd = s.upd ∧ (State.completeMode s r op d status done result).prf = s.prf ∧ (State.completeMode s r op d status done result).free = s.free := by
  simp [State.completeMode, *]

@[simp] theorem State.completeNow_keeps (s : State) (r : Nat) (op : Nat) (d : Desc) (status : Nat) (done : Nat) (result : Nat) :
    (State.completeNow s r op d status done result).nvm = s.nvm ∧ (State.completeNow s r op d status done result).pendW = s.pendW ∧ (State.completeNow s r op d status done result).chgNext = s.chgNext ∧ (State.completeNow s r op d status done result).staged = s.staged ∧ (State.completeNow s r op d status done result).nv = s.nv ∧ (State.completeNow s r op d status done result).glb = s.glb ∧ (State.completeNow s r op d status done result).watch = s.watch ∧ (State.completeNow s r op d status done result).era = s.era ∧ (State.completeNow s r op d status done result).col = s.col ∧ (State.completeNow s r op d status done result).spr = s.spr ∧ (State.completeNow s r op d status done result).ing = s.ing ∧ (State.completeNow s r op d status done result).prs = s.prs ∧ (State.completeNow s r op d status done result).gal = s.gal ∧ (State.completeNow s r op d status done result).trn = s.trn ∧ (State.completeNow s r op d status done result).chs = s.chs ∧ (State.completeNow s r op d status done result).bup = s.bup ∧ (State.completeNow s r op d status done result).est = s.est ∧ (State.completeNow s r op d status done result).fen = s.fen ∧ (State.completeNow s r op d status done result).grp = s.grp ∧ (State.completeNow s r op d status done result).upd = s.upd ∧ (State.completeNow s r op d status done result).prf = s.prf ∧ (State.completeNow s r op d status done result).free = s.free := by
  simp [State.completeNow, *]

@[simp] theorem State.dropBadOps_keeps (s : State) (r n : Nat) :
    (State.dropBadOps s r n).nvm = s.nvm ∧ (State.dropBadOps s r n).pendW = s.pendW ∧ (State.dropBadOps s r n).chgNext = s.chgNext ∧ (State.dropBadOps s r n).staged = s.staged ∧ (State.dropBadOps s r n).nv = s.nv ∧ (State.dropBadOps s r n).glb = s.glb ∧ (State.dropBadOps s r n).watch = s.watch ∧ (State.dropBadOps s r n).era = s.era ∧ (State.dropBadOps s r n).col = s.col ∧ (State.dropBadOps s r n).spr = s.spr ∧ (State.dropBadOps s r n).ing = s.ing ∧ (State.dropBadOps s r n).prs = s.prs ∧ (State.dropBadOps s r n).gal = s.gal ∧ (State.dropBadOps s r n).trn = s.trn ∧ (State.dropBadOps s r n).chs = s.chs ∧ (State.dropBadOps s r n).bup = s.bup ∧ (State.dropBadOps s r n).est = s.est ∧ (State.dropBadOps s r n).fen = s.fen ∧ (State.dropBadOps s r n).grp = s.grp ∧ (State.dropBadOps s r n).upd = s.upd ∧ (State.dropBadOps s r n).prf = s.prf ∧ (State.dropBadOps s r n).free = s.free := by
  induction n generalizing s with
  | zero => simp [State.dropBadOps]
  | succ n ih =>
    unfold State.dropBadOps
    dsimp only
    split
    · simp
    · split
      · simp [ih]
      · split <;> simp [ih]
      · simp

@[simp] theorem State.ringGoes_keeps (s : State) (r : Nat) :
    (State.ringGoes s r).nvm = s.nvm ∧ (State.ringGoes s r).pendW = s.pendW ∧ (State.ringGoes s r).chgNext = s.chgNext ∧ (State.ringGoes s r).staged = s.staged ∧ (State.ringGoes s r).nv = s.nv ∧ (State.ringGoes s r).glb = s.glb ∧ (State.ringGoes s r).watch = s.watch ∧ (State.ringGoes s r).era = s.era ∧ (State.ringGoes s r).col = s.col ∧ (State.ringGoes s r).spr = s.spr ∧ (State.ringGoes s r).ing = s.ing ∧ (State.ringGoes s r).prs = s.prs ∧ (State.ringGoes s r).gal = s.gal ∧ (State.ringGoes s r).trn = s.trn ∧ (State.ringGoes s r).chs = s.chs ∧ (State.ringGoes s r).bup = s.bup ∧ (State.ringGoes s r).est = s.est ∧ (State.ringGoes s r).fen = s.fen ∧ (State.ringGoes s r).grp = s.grp ∧ (State.ringGoes s r).upd = s.upd ∧ (State.ringGoes s r).prf = s.prf ∧ (State.ringGoes s r).free = s.free := by
  simp [State.ringGoes, *]

@[simp] theorem State.fencesOver_keeps (s : State) (n : Nat) :
    (State.fencesOver s n).nvm = s.nvm ∧ (State.fencesOver s n).pendW = s.pendW ∧ (State.fencesOver s n).chgNext = s.chgNext ∧ (State.fencesOver s n).staged = s.staged ∧ (State.fencesOver s n).nv = s.nv ∧ (State.fencesOver s n).glb = s.glb ∧ (State.fencesOver s n).watch = s.watch ∧ (State.fencesOver s n).era = s.era ∧ (State.fencesOver s n).col = s.col ∧ (State.fencesOver s n).spr = s.spr ∧ (State.fencesOver s n).ing = s.ing ∧ (State.fencesOver s n).prs = s.prs ∧ (State.fencesOver s n).gal = s.gal ∧ (State.fencesOver s n).trn = s.trn ∧ (State.fencesOver s n).chs = s.chs ∧ (State.fencesOver s n).bup = s.bup ∧ (State.fencesOver s n).est = s.est ∧ (State.fencesOver s n).fen = s.fen ∧ (State.fencesOver s n).grp = s.grp ∧ (State.fencesOver s n).upd = s.upd ∧ (State.fencesOver s n).prf = s.prf ∧ (State.fencesOver s n).free = s.free := by
  induction n generalizing s with
  | zero => simp [State.fencesOver]
  | succ n ih =>
    unfold State.fencesOver
    repeat' (first | (simp [ih]; done) | split)

@[simp] theorem State.complete_keeps (s : State) (r : Nat) (op : Nat) (d : Desc) (status : Nat) (done : Nat) (result : Nat) :
    (State.complete s r op d status done result).nvm = s.nvm ∧ (State.complete s r op d status done result).pendW = s.pendW ∧ (State.complete s r op d status done result).chgNext = s.chgNext ∧ (State.complete s r op d status done result).staged = s.staged ∧ (State.complete s r op d status done result).nv = s.nv ∧ (State.complete s r op d status done result).glb = s.glb ∧ (State.complete s r op d status done result).watch = s.watch ∧ (State.complete s r op d status done result).era = s.era ∧ (State.complete s r op d status done result).col = s.col ∧ (State.complete s r op d status done result).spr = s.spr ∧ (State.complete s r op d status done result).ing = s.ing ∧ (State.complete s r op d status done result).prs = s.prs ∧ (State.complete s r op d status done result).gal = s.gal ∧ (State.complete s r op d status done result).trn = s.trn ∧ (State.complete s r op d status done result).chs = s.chs ∧ (State.complete s r op d status done result).bup = s.bup ∧ (State.complete s r op d status done result).est = s.est ∧ (State.complete s r op d status done result).fen = s.fen ∧ (State.complete s r op d status done result).grp = s.grp ∧ (State.complete s r op d status done result).upd = s.upd ∧ (State.complete s r op d status done result).prf = s.prf ∧ (State.complete s r op d status done result).free = s.free := by
  simp [State.complete, *]

@[simp] theorem State.detMod_keeps (s : State) (n : Nat) (f : Det → Det) :
    (State.detMod s n f).regs = s.regs ∧ (State.detMod s n f).nvm = s.nvm ∧ (State.detMod s n f).pendW = s.pendW ∧ (State.detMod s n f).chgNext = s.chgNext ∧ (State.detMod s n f).staged = s.staged ∧ (State.detMod s n f).nv = s.nv ∧ (State.detMod s n f).glb = s.glb ∧ (State.detMod s n f).watch = s.watch ∧ (State.detMod s n f).hst = s.hst ∧ (State.detMod s n f).rings = s.rings ∧ (State.detMod s n f).col = s.col ∧ (State.detMod s n f).spr = s.spr ∧ (State.detMod s n f).ing = s.ing ∧ (State.detMod s n f).prs = s.prs ∧ (State.detMod s n f).gal = s.gal ∧ (State.detMod s n f).trn = s.trn ∧ (State.detMod s n f).chs = s.chs ∧ (State.detMod s n f).bup = s.bup ∧ (State.detMod s n f).est = s.est ∧ (State.detMod s n f).fen = s.fen ∧ (State.detMod s n f).grp = s.grp ∧ (State.detMod s n f).ros = s.ros ∧ (State.detMod s n f).upd = s.upd ∧ (State.detMod s n f).prf = s.prf ∧ (State.detMod s n f).free = s.free ∧ (State.detMod s n f).out = s.out := by
  simp [State.detMod, *]

@[simp] theorem State.stageChanged_keeps (s : State) (old : Nat) :
    (State.stageChanged s old).nvm = s.nvm ∧ (State.stageChanged s old).pendW = s.pendW ∧ (State.stageChanged s old).chgNext = s.chgNext ∧ (State.stageChanged s old).staged = s.staged ∧ (State.stageChanged s old).nv = s.nv ∧ (State.stageChanged s old).glb = s.glb ∧ (State.stageChanged s old).watch = s.watch ∧ (State.stageChanged s old).era = s.era ∧ (State.stageChanged s old).col = s.col ∧ (State.stageChanged s old).spr = s.spr ∧ (State.stageChanged s old).ing = s.ing ∧ (State.stageChanged s old).prs = s.prs ∧ (State.stageChanged s old).gal = s.gal ∧ (State.stageChanged s old).trn = s.trn ∧ (State.stageChanged s old).chs = s.chs ∧ (State.stageChanged s old).bup = s.bup ∧ (State.stageChanged s old).est = s.est ∧ (State.stageChanged s old).fen = s.fen ∧ (State.stageChanged s old).grp = s.grp ∧ (State.stageChanged s old).ros = s.ros ∧ (State.stageChanged s old).upd = s.upd ∧ (State.stageChanged s old).prf = s.prf ∧ (State.stageChanged s old).free = s.free := by
  simp [State.stageChanged, *]

@[simp] theorem State.setStage_keeps (s : State) (v : Nat) :
    (State.setStage s v).nvm = s.nvm ∧ (State.setStage s v).pendW = s.pendW ∧ (State.setStage s v).chgNext = s.chgNext ∧ (State.setStage s v).staged = s.staged ∧ (State.setStage s v).nv = s.nv ∧ (State.setStage s v).glb = s.glb ∧ (State.setStage s v).watch = s.watch ∧ (State.setStage s v).era = s.era ∧ (State.setStage s v).col = s.col ∧ (State.setStage s v).spr = s.spr ∧ (State.setStage s v).ing = s.ing ∧ (State.setStage s v).prs = s.prs ∧ (State.setStage s v).gal = s.gal ∧ (State.setStage s v).trn = s.trn ∧ (State.setStage s v).chs = s.chs ∧ (State.setStage s v).bup = s.bup ∧ (State.setStage s v).est = s.est ∧ (State.setStage s v).fen = s.fen ∧ (State.setStage s v).grp = s.grp ∧ (State.setStage s v).ros = s.ros ∧ (State.setStage s v).upd = s.upd ∧ (State.setStage s v).prf = s.prf ∧ (State.setStage s v).free = s.free := by
  simp [State.setStage, *]

@[simp] theorem State.setReady_keeps (s : State) (f : Fld) (v : Nat) :
    (State.setReady s f v).nvm = s.nvm ∧ (State.setReady s f v).pendW = s.pendW ∧ (State.setReady s f v).chgNext = s.chgNext ∧ (State.setReady s f v).staged = s.staged ∧ (State.setReady s f v).nv = s.nv ∧ (State.setReady s f v).glb = s.glb ∧ (State.setReady s f v).watch = s.watch ∧ (State.setReady s f v).era = s.era ∧ (State.setReady s f v).col = s.col ∧ (State.setReady s f v).spr = s.spr ∧ (State.setReady s f v).ing = s.ing ∧ (State.setReady s f v).prs = s.prs ∧ (State.setReady s f v).gal = s.gal ∧ (State.setReady s f v).trn = s.trn ∧ (State.setReady s f v).chs = s.chs ∧ (State.setReady s f v).bup = s.bup ∧ (State.setReady s f v).est = s.est ∧ (State.setReady s f v).fen = s.fen ∧ (State.setReady s f v).grp = s.grp ∧ (State.setReady s f v).ros = s.ros ∧ (State.setReady s f v).upd = s.upd ∧ (State.setReady s f v).prf = s.prf ∧ (State.setReady s f v).free = s.free := by
  simp [State.setReady, *]

@[simp] theorem State.halt_keeps (s : State) (n : Nat) :
    (State.halt s n).nvm = s.nvm ∧ (State.halt s n).pendW = s.pendW ∧ (State.halt s n).chgNext = s.chgNext ∧ (State.halt s n).staged = s.staged ∧ (State.halt s n).nv = s.nv ∧ (State.halt s n).watch = s.watch ∧ (State.halt s n).col = s.col ∧ (State.halt s n).spr = s.spr ∧ (State.halt s n).ing = s.ing ∧ (State.halt s n).prs = s.prs ∧ (State.halt s n).gal = s.gal ∧ (State.halt s n).trn = s.trn ∧ (State.halt s n).chs = s.chs ∧ (State.halt s n).bup = s.bup ∧ (State.halt s n).est = s.est ∧ (State.halt s n).fen = s.fen ∧ (State.halt s n).grp = s.grp ∧ (State.halt s n).upd = s.upd ∧ (State.halt s n).prf = s.prf ∧ (State.halt s n).free = s.free := by
  simp [State.halt, *]

@[simp] theorem State.raiseEvt_keeps (s : State) (n : Nat) (c : Nat) (param : Nat) (inj : Bool) (esc : Bool) :
    (State.raiseEvt s n c param inj esc).nvm = s.nvm ∧ (State.raiseEvt s n c param inj esc).pendW = s.pendW ∧ (State.raiseEvt s n c param inj esc).chgNext = s.chgNext ∧ (State.raiseEvt s n c param inj esc).staged = s.staged ∧ (State.raiseEvt s n c param inj esc).nv = s.nv ∧ (State.raiseEvt s n c param inj esc).glb = s.glb ∧ (State.raiseEvt s n c param inj esc).watch = s.watch ∧ (State.raiseEvt s n c param inj esc).col = s.col ∧ (State.raiseEvt s n c param inj esc).spr = s.spr ∧ (State.raiseEvt s n c param inj esc).ing = s.ing ∧ (State.raiseEvt s n c param inj esc).prs = s.prs ∧ (State.raiseEvt s n c param inj esc).gal = s.gal ∧ (State.raiseEvt s n c param inj esc).trn = s.trn ∧ (State.raiseEvt s n c param inj esc).chs = s.chs ∧ (State.raiseEvt s n c param inj esc).bup = s.bup ∧ (State.raiseEvt s n c param inj esc).est = s.est ∧ (State.raiseEvt s n c param inj esc).fen = s.fen ∧ (State.raiseEvt s n c param inj esc).grp = s.grp ∧ (State.raiseEvt s n c param inj esc).ros = s.ros ∧ (State.raiseEvt s n c param inj esc).upd = s.upd ∧ (State.raiseEvt s n c param inj esc).prf = s.prf ∧ (State.raiseEvt s n c param inj esc).free = s.free := by
  simp [State.raiseEvt, *]

@[simp] theorem State.raise_keeps (s : State) (n : Nat) (esc : Nat) (param : Nat) (injected : Bool) :
    (State.raise s n esc param injected).nvm = s.nvm ∧ (State.raise s n esc param injected).pendW = s.pendW ∧ (State.raise s n esc param injected).chgNext = s.chgNext ∧ (State.raise s n esc param injected).staged = s.staged ∧ (State.raise s n esc param injected).nv = s.nv ∧ (State.raise s n esc param injected).watch = s.watch ∧ (State.raise s n esc param injected).spr = s.spr ∧ (State.raise s n esc param injected).ing = s.ing ∧ (State.raise s n esc param injected).prs = s.prs ∧ (State.raise s n esc param injected).gal = s.gal ∧ (State.raise s n esc param injected).trn = s.trn ∧ (State.raise s n esc param injected).chs = s.chs ∧ (State.raise s n esc param injected).bup = s.bup ∧ (State.raise s n esc param injected).est = s.est ∧ (State.raise s n esc param injected).fen = s.fen ∧ (State.raise s n esc param injected).grp = s.grp ∧ (State.raise s n esc param injected).upd = s.upd ∧ (State.raise s n esc param injected).prf = s.prf ∧ (State.raise s n esc param injected).free = s.free := by
  simp [State.raise, *]

@[simp] theorem State.levelOn_keeps (s : State) (n : Nat) (esc : Nat) (param : Nat) :
    (State.levelOn s n esc param).nvm = s.nvm ∧ (State.levelOn s n esc param).pendW = s.pendW ∧ (State.levelOn s n esc param).chgNext = s.chgNext ∧ (State.levelOn s n esc param).staged = s.staged ∧ (State.levelOn s n esc param).nv = s.nv ∧ (State.levelOn s n esc param).watch = s.watch ∧ (State.levelOn s n esc param).spr = s.spr ∧ (State.levelOn s n esc param).ing = s.ing ∧ (State.levelOn s n esc param).prs = s.prs ∧ (State.levelOn s n esc param).gal = s.gal ∧ (State.levelOn s n esc param).trn = s.trn ∧ (State.levelOn s n esc param).chs = s.chs ∧ (State.levelOn s n esc param).bup = s.bup ∧ (State.levelOn s n esc param).est = s.est ∧ (State.levelOn s n esc param).fen = s.fen ∧ (State.levelOn s n esc param).grp = s.grp ∧ (State.levelOn s n esc param).upd = s.upd ∧ (State.levelOn s n esc param).prf = s.prf ∧ (State.levelOn s n esc param).free = s.free := by
  simp [State.levelOn, *]

@[simp] theorem State.levelOff_keeps (s : State) (n : Nat) :
    (State.levelOff s n).regs = s.regs ∧ (State.levelOff s n).nvm = s.nvm ∧ (State.levelOff s n).pendW = s.pendW ∧ (State.levelOff s n).chgNext = s.chgNext ∧ (State.levelOff s n).staged = s.staged ∧ (State.levelOff s n).nv = s.nv ∧ (State.levelOff s n).glb = s.glb ∧ (State.levelOff s n).watch = s.watch ∧ (State.levelOff s n).hst = s.hst ∧ (State.levelOff s n).rings = s.rings ∧ (State.levelOff s n).col = s.col ∧ (State.levelOff s n).spr = s.spr ∧ (State.levelOff s n).ing = s.ing ∧ (State.levelOff s n).prs = s.prs ∧ (State.levelOff s n).gal = s.gal ∧ (State.levelOff s n).trn = s.trn ∧ (State.levelOff s n).chs = s.chs ∧ (State.levelOff s n).bup = s.bup ∧ (State.levelOff s n).est = s.est ∧ (State.levelOff s n).fen = s.fen ∧ (State.levelOff s n).grp = s.grp ∧ (State.levelOff s n).ros = s.ros ∧ (State.levelOff s n).upd = s.upd ∧ (State.levelOff s n).prf = s.prf ∧ (State.levelOff s n).free = s.free ∧ (State.levelOff s n).out = s.out := by
  simp [State.levelOff, *]

@[simp] theorem State.level_keeps (s : State) (n : Nat) (esc : Nat) (param : Nat) (present : Bool) :
    (State.level s n esc param present).nvm = s.nvm ∧ (State.level s n esc param present).pendW = s.pendW ∧ (State.level s n esc param present).chgNext = s.chgNext ∧ (State.level s n esc param present).staged = s.staged ∧ (State.level s n esc param present).nv = s.nv ∧ (State.level s n esc param present).watch = s.watch ∧ (State.level s n esc param present).spr = s.spr ∧ (State.level s n esc param present).ing = s.ing ∧ (State.level s n esc param present).prs = s.prs ∧ (State.level s n esc param present).gal = s.gal ∧ (State.level s n esc param present).trn = s.trn ∧ (State.level s n esc param present).chs = s.chs ∧ (State.level s n esc param present).bup = s.bup ∧ (State.level s n esc param present).est = s.est ∧ (State.level s n esc param present).fen = s.fen ∧ (State.level s n esc param present).grp = s.grp ∧ (State.level s n esc param present).upd = s.upd ∧ (State.level s n esc param present).prf = s.prf ∧ (State.level s n esc param present).free = s.free := by
  simp [State.level, *]

@[simp] theorem State.newChange_keeps (s : State) :
    (State.newChange s).2.regs = s.regs ∧ (State.newChange s).2.nvm = s.nvm ∧ (State.newChange s).2.pendW = s.pendW ∧ (State.newChange s).2.staged = s.staged ∧ (State.newChange s).2.nv = s.nv ∧ (State.newChange s).2.glb = s.glb ∧ (State.newChange s).2.watch = s.watch ∧ (State.newChange s).2.hst = s.hst ∧ (State.newChange s).2.rings = s.rings ∧ (State.newChange s).2.era = s.era ∧ (State.newChange s).2.col = s.col ∧ (State.newChange s).2.spr = s.spr ∧ (State.newChange s).2.ing = s.ing ∧ (State.newChange s).2.prs = s.prs ∧ (State.newChange s).2.gal = s.gal ∧ (State.newChange s).2.trn = s.trn ∧ (State.newChange s).2.chs = s.chs ∧ (State.newChange s).2.bup = s.bup ∧ (State.newChange s).2.est = s.est ∧ (State.newChange s).2.fen = s.fen ∧ (State.newChange s).2.grp = s.grp ∧ (State.newChange s).2.ros = s.ros ∧ (State.newChange s).2.upd = s.upd ∧ (State.newChange s).2.prf = s.prf ∧ (State.newChange s).2.free = s.free ∧ (State.newChange s).2.out = s.out := by
  simp [State.newChange, *]

@[simp] theorem State.changeDone_keeps (s : State) (c : Staged) (outcome : Nat) (steps : Nat) (failure : Nat) :
    (State.changeDone s c outcome steps failure).nvm = s.nvm ∧ (State.changeDone s c outcome steps failure).pendW = s.pendW ∧ (State.changeDone s c outcome steps failure).chgNext = s.chgNext ∧ (State.changeDone s c outcome steps failure).staged = s.staged ∧ (State.changeDone s c outcome steps failure).nv = s.nv ∧ (State.changeDone s c outcome steps failure).glb = s.glb ∧ (State.changeDone s c outcome steps failure).watch = s.watch ∧ (State.changeDone s c outcome steps failure).era = s.era ∧ (State.changeDone s c outcome steps failure).spr = s.spr ∧ (State.changeDone s c outcome steps failure).ing = s.ing ∧ (State.changeDone s c outcome steps failure).prs = s.prs ∧ (State.changeDone s c outcome steps failure).gal = s.gal ∧ (State.changeDone s c outcome steps failure).trn = s.trn ∧ (State.changeDone s c outcome steps failure).chs = s.chs ∧ (State.changeDone s c outcome steps failure).bup = s.bup ∧ (State.changeDone s c outcome steps failure).est = s.est ∧ (State.changeDone s c outcome steps failure).fen = s.fen ∧ (State.changeDone s c outcome steps failure).grp = s.grp ∧ (State.changeDone s c outcome steps failure).prf = s.prf ∧ (State.changeDone s c outcome steps failure).free = s.free := by
  simp [State.changeDone, *]

@[simp] theorem State.changeSend_keeps (s : State) (c : Staged) (b : List Byte) :
    (State.changeSend s c b).regs = s.regs ∧ (State.changeSend s c b).nvm = s.nvm ∧ (State.changeSend s c b).pendW = s.pendW ∧ (State.changeSend s c b).chgNext = s.chgNext ∧ (State.changeSend s c b).staged = s.staged ∧ (State.changeSend s c b).nv = s.nv ∧ (State.changeSend s c b).glb = s.glb ∧ (State.changeSend s c b).watch = s.watch ∧ (State.changeSend s c b).hst = s.hst ∧ (State.changeSend s c b).rings = s.rings ∧ (State.changeSend s c b).era = s.era ∧ (State.changeSend s c b).col = s.col ∧ (State.changeSend s c b).spr = s.spr ∧ (State.changeSend s c b).ing = s.ing ∧ (State.changeSend s c b).prs = s.prs ∧ (State.changeSend s c b).gal = s.gal ∧ (State.changeSend s c b).trn = s.trn ∧ (State.changeSend s c b).chs = s.chs ∧ (State.changeSend s c b).bup = s.bup ∧ (State.changeSend s c b).est = s.est ∧ (State.changeSend s c b).fen = s.fen ∧ (State.changeSend s c b).grp = s.grp ∧ (State.changeSend s c b).upd = s.upd ∧ (State.changeSend s c b).prf = s.prf ∧ (State.changeSend s c b).free = s.free := by
  simp [State.changeSend, *]

@[simp] theorem State.stage1_keeps (s : State) (r : Nat) (block : Nat) (opcode : Nat) (target : Nat) (old : Nat) (new : Nat) (due : Nat) (act : StagedAct) (digest : Bool) :
    (State.stage1 s r block opcode target old new due act digest).2.nvm = s.nvm ∧ (State.stage1 s r block opcode target old new due act digest).2.pendW = s.pendW ∧ (State.stage1 s r block opcode target old new due act digest).2.nv = s.nv ∧ (State.stage1 s r block opcode target old new due act digest).2.glb = s.glb ∧ (State.stage1 s r block opcode target old new due act digest).2.watch = s.watch ∧ (State.stage1 s r block opcode target old new due act digest).2.era = s.era ∧ (State.stage1 s r block opcode target old new due act digest).2.spr = s.spr ∧ (State.stage1 s r block opcode target old new due act digest).2.ing = s.ing ∧ (State.stage1 s r block opcode target old new due act digest).2.prs = s.prs ∧ (State.stage1 s r block opcode target old new due act digest).2.gal = s.gal ∧ (State.stage1 s r block opcode target old new due act digest).2.trn = s.trn ∧ (State.stage1 s r block opcode target old new due act digest).2.chs = s.chs ∧ (State.stage1 s r block opcode target old new due act digest).2.bup = s.bup ∧ (State.stage1 s r block opcode target old new due act digest).2.est = s.est ∧ (State.stage1 s r block opcode target old new due act digest).2.fen = s.fen ∧ (State.stage1 s r block opcode target old new due act digest).2.grp = s.grp ∧ (State.stage1 s r block opcode target old new due act digest).2.upd = s.upd ∧ (State.stage1 s r block opcode target old new due act digest).2.prf = s.prf ∧ (State.stage1 s r block opcode target old new due act digest).2.free = s.free := by
  simp [State.stage1, *]

@[simp] theorem State.beginDesc_keeps (s : State) (r : Nat) (op : Nat) (d : Desc) :
    (State.beginDesc s r op d).regs = s.regs ∧ (State.beginDesc s r op d).nvm = s.nvm ∧ (State.beginDesc s r op d).pendW = s.pendW ∧ (State.beginDesc s r op d).chgNext = s.chgNext ∧ (State.beginDesc s r op d).staged = s.staged ∧ (State.beginDesc s r op d).nv = s.nv ∧ (State.beginDesc s r op d).glb = s.glb ∧ (State.beginDesc s r op d).watch = s.watch ∧ (State.beginDesc s r op d).hst = s.hst ∧ (State.beginDesc s r op d).era = s.era ∧ (State.beginDesc s r op d).col = s.col ∧ (State.beginDesc s r op d).spr = s.spr ∧ (State.beginDesc s r op d).ing = s.ing ∧ (State.beginDesc s r op d).prs = s.prs ∧ (State.beginDesc s r op d).gal = s.gal ∧ (State.beginDesc s r op d).trn = s.trn ∧ (State.beginDesc s r op d).chs = s.chs ∧ (State.beginDesc s r op d).bup = s.bup ∧ (State.beginDesc s r op d).est = s.est ∧ (State.beginDesc s r op d).fen = s.fen ∧ (State.beginDesc s r op d).grp = s.grp ∧ (State.beginDesc s r op d).ros = s.ros ∧ (State.beginDesc s r op d).upd = s.upd ∧ (State.beginDesc s r op d).prf = s.prf ∧ (State.beginDesc s r op d).free = s.free ∧ (State.beginDesc s r op d).out = s.out := by
  simp [State.beginDesc, *]

@[simp] theorem State.completeLate_keeps (s : State) (r : Nat) (op : Nat) (d : Desc) (status : Nat) (done : Nat) (result : Nat) :
    (State.completeLate s r op d status done result).nvm = s.nvm ∧ (State.completeLate s r op d status done result).pendW = s.pendW ∧ (State.completeLate s r op d status done result).chgNext = s.chgNext ∧ (State.completeLate s r op d status done result).staged = s.staged ∧ (State.completeLate s r op d status done result).nv = s.nv ∧ (State.completeLate s r op d status done result).glb = s.glb ∧ (State.completeLate s r op d status done result).watch = s.watch ∧ (State.completeLate s r op d status done result).era = s.era ∧ (State.completeLate s r op d status done result).col = s.col ∧ (State.completeLate s r op d status done result).spr = s.spr ∧ (State.completeLate s r op d status done result).ing = s.ing ∧ (State.completeLate s r op d status done result).prs = s.prs ∧ (State.completeLate s r op d status done result).gal = s.gal ∧ (State.completeLate s r op d status done result).trn = s.trn ∧ (State.completeLate s r op d status done result).chs = s.chs ∧ (State.completeLate s r op d status done result).bup = s.bup ∧ (State.completeLate s r op d status done result).est = s.est ∧ (State.completeLate s r op d status done result).fen = s.fen ∧ (State.completeLate s r op d status done result).grp = s.grp ∧ (State.completeLate s r op d status done result).upd = s.upd ∧ (State.completeLate s r op d status done result).prf = s.prf ∧ (State.completeLate s r op d status done result).free = s.free := by
  simp [State.completeLate, *]

@[simp] theorem Reply.finish_keeps (a : Reply) (r op : Nat) (d : Desc) :
    (a.finish r op d).nvm = a.s.nvm ∧ (a.finish r op d).pendW = a.s.pendW ∧ (a.finish r op d).chgNext = a.s.chgNext ∧ (a.finish r op d).staged = a.s.staged ∧ (a.finish r op d).nv = a.s.nv ∧ (a.finish r op d).glb = a.s.glb ∧ (a.finish r op d).watch = a.s.watch ∧ (a.finish r op d).era = a.s.era ∧ (a.finish r op d).col = a.s.col ∧ (a.finish r op d).spr = a.s.spr ∧ (a.finish r op d).ing = a.s.ing ∧ (a.finish r op d).prs = a.s.prs ∧ (a.finish r op d).gal = a.s.gal ∧ (a.finish r op d).trn = a.s.trn ∧ (a.finish r op d).chs = a.s.chs ∧ (a.finish r op d).bup = a.s.bup ∧ (a.finish r op d).est = a.s.est ∧ (a.finish r op d).fen = a.s.fen ∧ (a.finish r op d).grp = a.s.grp ∧ (a.finish r op d).upd = a.s.upd ∧ (a.finish r op d).prf = a.s.prf ∧ (a.finish r op d).free = a.s.free := by
  unfold Reply.finish
  cases a.status with
  | none => simp
  | some st => simp only; split <;> simp

end Sys2Proof.Machine
end

