-- ==== Sys2Proof/Laws/Regs.lean ====
section
/-!
SUPPORT. Reading a register field after a write, and the fields that no report writes.
-/
namespace Sys2Proof.Machine
set_option linter.all false

theorem State.get_def (s : State) (g : Fld) : s.get g = Tab.get s.regs g.key g.reset := rfl
@[simp] theorem State.tab_get (s : State) (g : Fld) : Tab.get s.regs g.key g.reset = s.get g := rfl
@[simp] theorem State.get_mk (regs : Tab Nat) nvm pendW chgNext staged nv glb watch hst rings era col spr ing prs gal trn chs bup est fen grp ros upd prf free out pending (g : Fld) :
    State.get (State.mk regs nvm pendW chgNext staged nv glb watch hst rings era col spr ing prs gal trn chs bup est fen grp ros upd prf free out pending) g = Tab.get regs g.key g.reset := rfl
@[simp] theorem State.get_ite (c : Prop) [Decidable c] (a b : State) (g : Fld) : (if c then a else b).get g = if c then a.get g else b.get g := by
  split <;> rfl
@[simp] theorem State.get_ite2 {α : Type} (c : Prop) [Decidable c] (a b : α × State) (g : Fld) : (if c then a else b).2.get g = if c then a.2.get g else b.2.get g := by
  split <;> rfl
theorem State.get_set_ne (s : State) (f g : Fld) (v : Nat) (h : g.key ≠ f.key) : (s.set f v).get g = s.get g :=
  Tab.get_put_ne _ _ _ _ _ h
theorem State.get_set_same (s : State) (f : Fld) (v : Nat) : (s.set f v).get f = v % 2 ^ f.width :=
  Tab.get_put_same _ _ _ _
@[simp] theorem State.get_set_loud (s : State) (f g : Fld) (v : Nat) (hf : calm f = false) (hg : calm g = true) : (s.set f v).get g = s.get g := by
  apply State.get_set_ne
  intro h
  simp only [calm, h] at hg
  simp only [calm] at hf
  simp [hf] at hg
@[simp] theorem State.get_foldl {α : Type} (g : Fld) (l : List α) (f : State → α → State) (s : State)
    (hf : ∀ s a, (f s a).get g = s.get g) : (l.foldl f s).get g = s.get g := foldl_keeps (fun s => s.get g) l f s hf
theorem calm_fld (a lo w r i : Nat) (h : a * 32 + lo < 0x2000000) :
    calm (fld a lo w r i) = calm (fld a lo w r 0) := by
  have h1 : (fld a lo w r i).key % 0x2000000 = a * 32 + lo := by
    show (i * 0x2000000 + a * 32 + lo) % 0x2000000 = a * 32 + lo
    rw [Nat.add_assoc, Nat.mul_add_mod_self_right, Nat.mod_eq_of_lt h]
  have h2 : (fld a lo w r 0).key % 0x2000000 = a * 32 + lo := by
    show (0 * 0x2000000 + a * 32 + lo) % 0x2000000 = a * 32 + lo
    rw [Nat.add_assoc, Nat.mul_add_mod_self_right, Nat.mod_eq_of_lt h]
  unfold calm
  rw [h1, h2]
@[simp] theorem calm_COL_LOST : calm Reg.COL_LOST = false := by decide
@[simp] theorem calm_ERA_HALT_FIRST : calm Reg.ERA_HALT_FIRST = false := by decide
@[simp] theorem calm_ERA_HALT_MORE : calm Reg.ERA_HALT_MORE = false := by decide
@[simp] theorem calm_ERA_HALT_TIME : calm Reg.ERA_HALT_TIME = false := by decide
@[simp] theorem calm_ERA_HALT_VALID : calm Reg.ERA_HALT_VALID = false := by decide
@[simp] theorem calm_ERA_STAT_HALTED : calm Reg.ERA_STAT_HALTED = false := by decide
@[simp] theorem calm_GLB_BOOTSTAT_STAGE : calm Reg.GLB_BOOTSTAT_STAGE = false := by decide
@[simp] theorem calm_CHS_STAT_TOKEN : calm Reg.CHS_STAT_TOKEN = false := by decide
@[simp] theorem calm_HST_RCNT (i : Nat) : calm (Reg.HST_RCNT i) = false := calm_fld _ _ _ _ _ (by omega)
@[simp] theorem calm_HST_RDROP (i : Nat) : calm (Reg.HST_RDROP i) = false := calm_fld _ _ _ _ _ (by omega)
@[simp] theorem calm_HST_RPTR_TAIL (i : Nat) : calm (Reg.HST_RPTR_TAIL i) = false := calm_fld _ _ _ _ _ (by omega)
@[simp] theorem calm_HST_RSTAT_STALL (i : Nat) : calm (Reg.HST_RSTAT_STALL i) = false := calm_fld _ _ _ _ _ (by omega)
@[simp] theorem calm_ERA_DFIRST (i : Nat) : calm (Reg.ERA_DFIRST i) = false := calm_fld _ _ _ _ _ (by omega)
@[simp] theorem calm_ERA_DINFO_COUNT (i : Nat) : calm (Reg.ERA_DINFO_COUNT i) = false := calm_fld _ _ _ _ _ (by omega)
@[simp] theorem calm_ERA_DINFO_ESC (i : Nat) : calm (Reg.ERA_DINFO_ESC i) = false := calm_fld _ _ _ _ _ (by omega)
@[simp] theorem calm_ERA_DLAST (i : Nat) : calm (Reg.ERA_DLAST i) = false := calm_fld _ _ _ _ _ (by omega)
@[simp] theorem calm_ERA_DPARAM (i : Nat) : calm (Reg.ERA_DPARAM i) = false := calm_fld _ _ _ _ _ (by omega)
@[simp] theorem calm_COL_SNEXT0 : calm (Reg.COL_SNEXT 0) = false := by decide
@[simp] theorem calm_COL_SNEXT1 : calm (Reg.COL_SNEXT 1) = false := by decide
@[simp] theorem calm_COL_SNEXT2 : calm (Reg.COL_SNEXT 2) = false := by decide
@[simp] theorem calm_COL_SNEXT3 : calm (Reg.COL_SNEXT 3) = false := by decide
@[simp] theorem calm_COL_SNEXT4 : calm (Reg.COL_SNEXT 4) = false := by decide
@[simp] theorem calm_COL_SSTAT_WRAPS0 : calm (Reg.COL_SSTAT_WRAPS 0) = false := by decide
@[simp] theorem calm_COL_SSTAT_WRAPS1 : calm (Reg.COL_SSTAT_WRAPS 1) = false := by decide
@[simp] theorem calm_COL_SSTAT_WRAPS2 : calm (Reg.COL_SSTAT_WRAPS 2) = false := by decide
@[simp] theorem calm_COL_SSTAT_WRAPS3 : calm (Reg.COL_SSTAT_WRAPS 3) = false := by decide
@[simp] theorem calm_COL_SSTAT_WRAPS4 : calm (Reg.COL_SSTAT_WRAPS 4) = false := by decide
@[simp] theorem State.setB_get (s : State) (f g : Fld) (b : Bool) (hf : calm f = false) (hg : calm g = true) : (s.setB f b).get g = s.get g := State.get_set_loud _ _ _ _ hf hg
@[simp] theorem State.setS_get (s : State) (f g : Fld) (z : Int) (hf : calm f = false) (hg : calm g = true) : (s.setS f z).get g = s.get g := State.get_set_loud _ _ _ _ hf hg
@[simp] theorem State.add_get (s : State) (f g : Fld) (n : Nat) (hf : calm f = false) (hg : calm g = true) : (s.add f n).get g = s.get g := State.get_set_loud _ _ _ _ hf hg
@[simp] theorem State.bump_get (s : State) (f g : Fld) (hf : calm f = false) (hg : calm g = true) : (s.bump f).get g = s.get g := State.get_set_loud _ _ _ _ hf hg
theorem calm_PRF_CNT (n c : Nat) (hn : n < 6) (hc : c < 8) : calm (Reg.PRF_CNT n c) = false := by
  have : ∀ n < 6, ∀ c < 8, calm (Reg.PRF_CNT n c) = false := by decide
  exact this n hn c hc
theorem calm_PRF_OVF (n : Nat) (hn : n < 6) : calm (Reg.PRF_OVF_CNT n) = false := by
  have : ∀ n < 6, calm (Reg.PRF_OVF_CNT n) = false := by decide
  exact this n hn
theorem State.countTo_get (s : State) (n c v : Nat) (hn : n < 6) (hc : c < 8) (g : Fld) (hg : calm g = true) : (s.countTo n c v).get g = s.get g := by
  have h1 := calm_PRF_CNT n c hn hc
  have h2 := calm_PRF_OVF n hn
  simp [State.countTo, h1, h2, hg]
theorem foldl_keeps_mem {α β : Type} (g : State → β) (l : List α) (f : State → α → State) (s : State)
    (hf : ∀ s, ∀ a ∈ l, g (f s a) = g s) : g (l.foldl f s) = g s := by
  induction l generalizing s with
  | nil => rfl
  | cons a l ih => exact (ih _ fun s b hb => hf s b (List.mem_cons_of_mem _ hb)).trans (hf _ _ (List.mem_cons_self ..))
@[simp] theorem State.count_get (s : State) (n ev k kind : Nat) (hn : n < 6) (g : Fld) (hg : calm g = true) : (s.count n ev k kind).get g = s.get g := by
  unfold State.count
  split
  · rfl
  · refine foldl_keeps_mem (fun s => s.get g) _ _ _ fun s c hc => ?_
    have hc : c < 8 := by
      have := List.mem_range.1 hc
      unfold setCounters at this
      split at this <;> omega
    split
    · exact State.countTo_get _ _ _ _ hn hc _ hg
    · rfl
@[simp] theorem State.stallBound_get (s : State) (p : Nat) (g : Fld) (hg : calm g = true) : (s.stallBound p).get g = s.get g := by
  unfold State.stallBound
  exact State.get_foldl g _ _ _ fun s a => State.setB_get _ _ _ _ (calm_HST_RSTAT_STALL a) hg

@[simp] theorem State.draw_get (s : State) (g : Fld) (hg : calm g = true) :
    (State.draw s).2.get g = s.get g := by
  simp [State.draw, *]

@[simp] theorem State.rosOut_get (s : State) (type : Nat) (p : List Byte) (g : Fld) :
    (State.rosOut s type p).get g = s.get g := by
  unfold State.rosOut
  split <;> rfl

@[simp] theorem State.emit_get (s : State) (o : Output) (g : Fld) (hg : calm g = true) :
    (State.emit s o).get g = s.get g := by
  simp [State.emit, *]

@[simp] theorem State.dmaOut_get (s : State) (a : Nat) (b : List Byte) (g : Fld) (hg : calm g = true) :
    (State.dmaOut s a b).get g = s.get g := by
  unfold State.dmaOut
  split <;> rfl

@[simp] theorem State.ringMod_get (s : State) (r : Nat) (f : RingX → RingX) (g : Fld) (hg : calm g = true) :
    (State.ringMod s r f).get g = s.get g := by
  simp [State.ringMod, *]

@[simp] theorem State.msixSend_get (s : State) (v : Nat) (g : Fld) (hg : calm g = true) :
    (State.msixSend s v).get g = s.get g := by
  simp [State.msixSend, *]

@[simp] theorem State.moderate_get (s : State) (r : Nat) (g : Fld) (hg : calm g = true) :
    (State.moderate s r).get g = s.get g := by
  simp [State.moderate, *]

@[simp] theorem State.putEntry_get (s : State) (r : Nat) (entry : Bool → List Byte) (g : Fld) (hg : calm g = true) :
    (State.putEntry s r entry).get g = s.get g := by
  simp [State.putEntry, *]

@[simp] theorem State.postEntry_get (s : State) (r : Nat) (typ : Nat) (src : Nat) (confirmed : Bool) (inline : Bool → List Byte) (payload : List Byte) (stamp : Option Nat) (g : Fld) (hg : calm g = true) :
    (State.postEntry s r typ src confirmed inline payload stamp).get g = s.get g := by
  simp [State.postEntry, *]

@[simp] theorem State.evtP_get (s : State) (src : Nat) (typ : Nat) (inline : Bool → List Byte) (payload : List Byte) (g : Fld) (hg : calm g = true) :
    (State.evtP s src typ inline payload).get g = s.get g := by
  simp [State.evtP, *]

@[simp] theorem State.evt_get (s : State) (src : Nat) (typ : Nat) (inline : List Byte) (g : Fld) (hg : calm g = true) :
    (State.evt s src typ inline).get g = s.get g := by
  simp [State.evt, *]

@[simp] theorem State.openAdd_get (s : State) (n : Nat) (g : Fld) (hg : calm g = true) :
    (State.openAdd s n).get g = s.get g := by
  simp [State.openAdd, *]

@[simp] theorem State.storeWrap_get (s : State) (store n cap oldest : Nat) (hs : store < 5) (g : Fld) (hg : calm g = true) :
    (s.storeWrap store n cap oldest).get g = s.get g := by
  have h : ∀ i < 5, calm (Reg.COL_SSTAT_WRAPS i) = false := by decide
  have h1 := h store hs
  unfold State.storeWrap
  split <;> simp [h1, hg]

@[simp] theorem State.logC_get (s : State) (o : Origin) (kind : Nat) (chgNo : Nat) (opcode : Nat) (block : Nat) (target : Nat) (old : Nat) (new : Nat) (digest : Bool) (g : Fld) (hg : calm g = true) :
    (State.logC s o kind chgNo opcode block target old new digest).get g = s.get g := by
  simp [State.logC, *]

@[simp] theorem State.slug_get (s : State) (code : Nat) (sub : Nat) (p0 : Nat) (p1 : Nat) (p2 : Nat) (p3 : Nat) (g : Fld) (hg : calm g = true) :
    (State.slug s code sub p0 p1 p2 p3).get g = s.get g := by
  simp [State.slug, *]

@[simp] theorem State.flushCpl_get (s : State) (p n : Nat) (g : Fld) (hg : calm g = true) :
    (State.flushCpl s p n).get g = s.get g := by
  induction n generalizing s with
  | zero => simp [State.flushCpl, hg]
  | succ n ih =>
    unfold State.flushCpl
    repeat' (first | (simp [ih, hg]; done) | split)

@[simp] theorem State.writeCpl_get (s : State) (p : Nat) (c : Cpl) (g : Fld) (hg : calm g = true) :
    (State.writeCpl s p c).get g = s.get g := by
  simp [State.writeCpl, *]

@[simp] theorem State.closeBatch_get (s : State) (r : Nat) (g : Fld) (hg : calm g = true) :
    (State.closeBatch s r).get g = s.get g := by
  simp [State.closeBatch, *]

@[simp] theorem State.completeOne_get (s : State) (r : Nat) (op : Nat) (d : Desc) (status : Nat) (done : Nat) (result : Nat) (g : Fld) (hg : calm g = true) :
    (State.completeOne s r op d status done result).get g = s.get g := by
  simp [State.completeOne, *]

@[simp] theorem State.completeMode_get (s : State) (r : Nat) (op : Nat) (d : Desc) (status : Nat) (done : Nat) (result : Nat) (g : Fld) (hg : calm g = true) :
    (State.completeMode s r op d status done result).get g = s.get g := by
  simp [State.completeMode, *]

@[simp] theorem State.completeNow_get (s : State) (r : Nat) (op : Nat) (d : Desc) (status : Nat) (done : Nat) (result : Nat) (g : Fld) (hg : calm g = true) :
    (State.completeNow s r op d status done result).get g = s.get g := by
  simp [State.completeNow, *]

@[simp] theorem State.dropBadOps_get (s : State) (r n : Nat) (g : Fld) (hg : calm g = true) :
    (State.dropBadOps s r n).get g = s.get g := by
  induction n generalizing s with
  | zero => simp [State.dropBadOps, hg]
  | succ n ih =>
    unfold State.dropBadOps
    dsimp only
    split
    · rfl
    · split
      · simp [ih, hg]
      · split <;> simp [ih, hg]
      · rfl

@[simp] theorem State.ringGoes_get (s : State) (r : Nat) (g : Fld) (hg : calm g = true) :
    (State.ringGoes s r).get g = s.get g := by
  simp [State.ringGoes, *]

@[simp] theorem State.fencesOver_get (s : State) (n : Nat) (g : Fld) (hg : calm g = true) :
    (State.fencesOver s n).get g = s.get g := by
  induction n generalizing s with
  | zero => simp [State.fencesOver, hg]
  | succ n ih =>
    unfold State.fencesOver
    repeat' (first | (simp [ih, hg]; done) | split)

@[simp] theorem State.complete_get (s : State) (r : Nat) (op : Nat) (d : Desc) (status : Nat) (done : Nat) (result : Nat) (g : Fld) (hg : calm g = true) :
    (State.complete s r op d status done result).get g = s.get g := by
  simp [State.complete, *]

@[simp] theorem State.detMod_get (s : State) (n : Nat) (f : Det → Det) (g : Fld) (hg : calm g = true) :
    (State.detMod s n f).get g = s.get g := by
  simp [State.detMod, *]

@[simp] theorem State.stageChanged_get (s : State) (old : Nat) (g : Fld) (hg : calm g = true) :
    (State.stageChanged s old).get g = s.get g := by
  simp [State.stageChanged, *]

@[simp] theorem State.setStage_get (s : State) (v : Nat) (g : Fld) (hg : calm g = true) : (s.setStage v).get g = s.get g := by
  simp [State.setStage, hg]

theorem State.setReady_get (s : State) (f : Fld) (v : Nat) (g : Fld) (hg : calm g = true) (h : g.key ≠ f.key) : (s.setReady f v).get g = s.get g := by
  simp [State.setReady, hg, State.get_set_ne _ _ _ _ h]

@[simp] theorem State.halt_get (s : State) (n : Nat) (g : Fld) (hg : calm g = true) :
    (State.halt s n).get g = s.get g := by
  simp [State.halt, *]

@[simp] theorem State.raiseEvt_get (s : State) (n : Nat) (c : Nat) (param : Nat) (inj : Bool) (esc : Bool) (g : Fld) (hg : calm g = true) :
    (State.raiseEvt s n c param inj esc).get g = s.get g := by
  simp [State.raiseEvt, *]

@[simp] theorem State.raise_get (s : State) (n : Nat) (esc : Nat) (param : Nat) (injected : Bool) (g : Fld) (hg : calm g = true) :
    (State.raise s n esc param injected).get g = s.get g := by
  simp [State.raise, *]

@[simp] theorem State.levelOn_get (s : State) (n : Nat) (esc : Nat) (param : Nat) (g : Fld) (hg : calm g = true) :
    (State.levelOn s n esc param).get g = s.get g := by
  simp [State.levelOn, *]

@[simp] theorem State.levelOff_get (s : State) (n : Nat) (g : Fld) (hg : calm g = true) :
    (State.levelOff s n).get g = s.get g := by
  simp [State.levelOff, *]

@[simp] theorem State.level_get (s : State) (n : Nat) (esc : Nat) (param : Nat) (present : Bool) (g : Fld) (hg : calm g = true) :
    (State.level s n esc param present).get g = s.get g := by
  simp [State.level, *]

@[simp] theorem State.newChange_get (s : State) (g : Fld) (hg : calm g = true) :
    (State.newChange s).2.get g = s.get g := by
  simp [State.newChange, *]

@[simp] theorem State.changeDone_get (s : State) (c : Staged) (outcome : Nat) (steps : Nat) (failure : Nat) (g : Fld) (hg : calm g = true) :
    (State.changeDone s c outcome steps failure).get g = s.get g := by
  simp [State.changeDone, *]

@[simp] theorem State.changeSend_get (s : State) (c : Staged) (b : List Byte) (g : Fld) :
    (s.changeSend c b).get g = s.get g := by
  unfold State.changeSend
  split
  · exact foldl_keeps (fun s => s.get g) _ _ _ fun _ _ => State.rosOut_get _ _ _ _
  · rfl

@[simp] theorem State.stage1_get (s : State) (r : Nat) (block : Nat) (opcode : Nat) (target : Nat) (old : Nat) (new : Nat) (due : Nat) (act : StagedAct) (digest : Bool) (g : Fld) (hg : calm g = true) :
    (State.stage1 s r block opcode target old new due act digest).2.get g = s.get g := by
  simp [State.stage1, *]

@[simp] theorem State.beginDesc_get (s : State) (r : Nat) (op : Nat) (d : Desc) (g : Fld) (hg : calm g = true) :
    (State.beginDesc s r op d).get g = s.get g := by
  simp [State.beginDesc, *]

@[simp] theorem State.completeLate_get (s : State) (r : Nat) (op : Nat) (d : Desc) (status : Nat) (done : Nat) (result : Nat) (g : Fld) (hg : calm g = true) :
    (State.completeLate s r op d status done result).get g = s.get g := by
  simp [State.completeLate, *]

@[simp] theorem Reply.finish_get (a : Reply) (r op : Nat) (d : Desc) (g : Fld) (hg : calm g = true) :
    (a.finish r op d).get g = a.s.get g := by
  unfold Reply.finish
  cases a.status with
  | none => simp
  | some st => simp only; split <;> simp [hg]

theorem State.only_refl (s : State) (fs : List Fld) : s.only s fs := fun _ _ _ => rfl
theorem State.only_trans (s t u : State) (fs : List Fld) (h : s.only t fs) (k : t.only u fs) : s.only u fs :=
  fun g hc hn => (k g hc hn).trans (h g hc hn)
theorem State.only_set (s t : State) (f : Fld) (v : Nat) (fs : List Fld) (h : s.only t fs) (hf : f.key ∈ fs.map (·.key)) :
    s.only (t.set f v) fs :=
  fun g hc hn => (State.get_set_ne t f g v fun e => hn (e ▸ hf)).trans (h g hc hn)
theorem State.only_setB (s t : State) (f : Fld) (b : Bool) (fs : List Fld) (h : s.only t fs) (hf : f.key ∈ fs.map (·.key)) :
    s.only (t.setB f b) fs := State.only_set s t f _ fs h hf
theorem State.only_setS (s t : State) (f : Fld) (z : Int) (fs : List Fld) (h : s.only t fs) (hf : f.key ∈ fs.map (·.key)) :
    s.only (t.setS f z) fs := State.only_set s t f _ fs h hf
theorem State.only_of_get (s t u : State) (fs : List Fld) (h : s.only t fs) (k : ∀ g, calm g = true → u.get g = t.get g) :
    s.only u fs := fun g hc hn => (k g hc).trans (h g hc hn)

end Sys2Proof.Machine
end

