-- ==== Sys2Proof/Laws/Rings.lean ====
section
/-!
SUPPORT. A command of a ring that passes the checks of R607, and one that does not.
-/
namespace Sys2Proof.Machine
set_option linter.all false

theorem fit_length (n : Nat) (b : List Byte) : (fit n b).length = n := by
  simp [fit, zeros]; omega

@[simp] theorem ok_finish (s : State) (r op : Nat) (d : Desc) : (ok s).finish r op d = s.completeLate r op d 0 0 0 := rfl
@[simp] theorem okR_finish (s : State) (v r op : Nat) (d : Desc) :
    (okR s v).finish r op d = s.completeLate r op d 0 0 (v % 2 ^ 32) := rfl
@[simp] theorem okN_finish (s : State) (n r op : Nat) (d : Desc) : (okN s n).finish r op d = s.completeLate r op d 0 n 0 := rfl
@[simp] theorem staged_finish (s : State) (n r op : Nat) (d : Desc) : (staged s n).finish r op d = s.completeLate r op d 2 0 n := rfl
@[simp] theorem bad_finish (s : State) (st r op : Nat) (d : Desc) : (bad s st).finish r op d = s.completeLate r op d st 0 0 := rfl
@[simp] theorem refuse_finish (s : State) (x r op : Nat) (d : Desc) : (refuse s x).finish r op d = s.completeLate r op d 0x1E 0 x := rfl
theorem fit_nonempty (n : Nat) (b : List Byte) (h : n ≠ 0) : (fit n b).isEmpty = false := by
  cases hf : fit n b with
  | nil => have := fit_length n b; rw [hf] at this; exact absurd this.symm h
  | cons _ _ => rfl
theorem image_finish (s : State) (n : Nat) (b : List Byte) (r op : Nat) (d : Desc) (h : n ≠ 0) (hb : d.buf ≠ none) :
    (image s n b).finish r op d = (s.dmaOut d.addr (fit n b)).completeLate r op d 0 n 0 := by
  simp [Reply.finish, image, fit_nonempty n b h, hb]
theorem image_fails (s : State) (n : Nat) (b : List Byte) (r op : Nat) (d : Desc) (h : n ≠ 0) (hb : d.buf = none) :
    (image s n b).finish r op d = s.completeLate r op d 0x13 0 0 := by
  simp [Reply.finish, image, fit_nonempty n b h, hb]

theorem State.begins_free (s : State) (cls r op : Nat) (d : Desc) (h : s.begins cls r op d) :
    (!s.ringLive r || (s.ring r).busy || (cls == 0 && s.glb.mgmtDown) || !s.dmaOn || !s.atFront r op d) = false := by
  obtain ⟨h1, h2, h3, h4, h5⟩ := h
  by_cases hc : cls = 0
  · simp [h1, h2, h3, h4, h5 hc]
  · simp [h1, h2, h3, h4, hc]

theorem State.cmdOn_served (s : State) (cls r op : Nat) (d : Desc) (i : CmdInfo) (body : State → Reply) (h : s.serves cls r op d i) :
    s.cmdOn cls r op d i body = (body (s.beginDesc r op d)).finish r op d := by
  obtain ⟨hb, h4, _⟩ := h
  have h5 : (s.beginDesc r op d).check r cls d i = none := h4
  unfold State.cmdOn
  rw [s.begins_free cls r op d hb]
  simp [h5]

theorem State.cmd_served (s : State) (r op : Nat) (d : Desc) (i : CmdInfo) (body : State → Reply) (h : s.serves 0 r op d i) :
    s.cmd r op d i body = (body (s.beginDesc r op d)).finish r op d := s.cmdOn_served 0 r op d i body h

theorem State.cmdOn_checked (s : State) (cls r op : Nat) (d : Desc) (i : CmdInfo) (body : State → Reply) (st : Nat)
    (h : s.begins cls r op d) (hc : s.check r cls d i = some st) :
    s.cmdOn cls r op d i body = (s.beginDesc r op d).completeLate r op d st 0 0 := by
  have h5 : (s.beginDesc r op d).check r cls d i = some st := hc
  unfold State.cmdOn
  rw [s.begins_free cls r op d h]
  simp [h5]

end Sys2Proof.Machine
end

