-- ==== Sys2Proof/Tests/Slice0.lean ====
section
/-!
SUPPORT. Tests: ill-formed commands that well-formedness refuses, small tests with results from the manual, and for each clause of
a statement that has hypotheses a state and operands that meet them together.
-/
namespace Sys2Proof.Tests
open Sys2Proof Sys2Proof.Machine
set_option maxRecDepth 100000
set_option Elab.async false
set_option linter.all false

/-- The reset state with fields written. -/
def wSet (l : List (Fld × Nat)) (s : State := State.reset) : State := l.foldl (fun s e => s.set e.1 e.2) s
/-- A descriptor without a buffer. -/
def wDesc : Desc := { idx := 0, tag := 0, flags := 0, rsv := 0, addr := 0, len := 0, p0 := 0, p1 := 0, p2 := 0, buf := none }
/-- A descriptor with a buffer of `n` bytes that begins with `b`. -/
def wBuf (n : Nat) (b : List Byte := []) : Desc :=
  { wDesc with addr := 4096, len := n, buf := some (fit n b) }
/-- A state with ring 0 enabled in a class. -/
def wRing (cls : Nat) : State :=
  wSet [(Reg.HST_RSTAT_EN 0, 1), (Reg.HST_RCFG_CLASS 0, cls), (Reg.HST_RCFG_PRIV 0, 3), (Reg.HST_RCFG_CPLRING 0, 1)]
/-- A forme of a kind. -/
def wForme (k : Nat) : Forme :=
  { kind := k, seedbase := 1, fid := 2, fver := 3, mbytes := 0, sbytes := 0, rbytes := 0, digest := [1, 2, 3], variants := [], data := [] }
/-- A state in which the host's writes reach the module. -/
def wOpen (s : State) : State := { s with glb := { s.glb with powered := true, hostUp := true } }
/-- A sort. -/
def wSortW (op sc n2 : Nat) : SortW :=
  { op := op, scope := sc, rnd := 0, out := 1, wait := 0, a := 0, dst := 0, src1 := 0, src2 := 0, src3 := 0, mod := 0, n1 := 1, n2 := n2, seedofs := 0, imm := 0 }
/-- A variant of one sort on one quire. -/
def wVar (op sc n2 : Nat) : Variant := { svc := 1, nq := [1, 0, 0, 0], wcyc := 100, tensors := [], sorts := [wSortW op sc n2] }
/-- A run of that variant. -/
def wRun (op : Nat) (sc n2 kind : Nat := 0) : Run :=
  { slot := 0, kind := kind, cycle := 1, step := 0, v := wVar op sc n2, f := wForme kind, tbs := List.replicate 4 {} }
/-- A state with one run, whose next sort has opcode `op`. -/
def wSort (op : Nat) (sc n2 : Nat := 0) : State := { State.reset with prs := { State.reset.prs with runs := [wRun op sc n2] } }
/-- A place to execute a sort in. -/
def wCtx : Ctx := { run := wRun 0, t := 0, x := {}, w := wSortW 0 0 0 }
/-- A staged change. -/
def wStaged : Staged := { no := 1, block := 2, opcode := 0x0200, target := 0, old := 1, new := 2, ring := 0, due := 8, act := .own }
/-- The sections of a small AUX container: its directory, the key of a variant in Q, and one END sort. -/
def wBody : List Byte :=
  let key := le 1 1 ++ le 1 0 ++ [1, 0, 0, 0] ++ zeros 2 ++ le 4 1 ++ zeros 4
  let sort := le 4 0xFF000001 ++ le 4 0x00FFFFFF ++ zeros 8
  let dir := fun (t o n : Nat) (b : List Byte) => le 2 t ++ zeros 2 ++ le 4 o ++ le 4 n ++ le 4 (crc32 b)
  dir 1 176 16 key ++ dir 2 192 0 [] ++ dir 3 192 16 sort ++ key ++ sort
/-- The container. -/
def wContainer : List Byte :=
  let h := le 4 0x4D524F46 ++ le 2 1 ++ le 1 3 ++ le 1 1 ++ le 4 208 ++ le 2 3 ++ zeros 2 ++ le 4 1 ++ zeros 4 ++ le 4 7 ++ le 4 1 ++
    zeros 32 ++ sha384 wBody ++ zeros 12
  h ++ le 4 (crc32 h) ++ wBody
/-- A load that has been written whole. -/
def wLoad : Load := { ring := 0, tlen := 208, chunks := [(0, wContainer)] }
/-- A state with that load in slot 0. -/
def wGood : State := { wRing 0 with prs := { State.reset.prs with slots := [(0, { load := some wLoad })] } }
/-- The forme that it loads. -/
def wGoodForme : Forme := match (wGood.beginDesc 0 0x0212 wDesc).commitCheck 0 wLoad with
  | .inr f => f
  | .inl _ => wForme 3
/-- The change that its commit stages. -/
def wGoodStaged : Staged :=
  { no := wGood.chgNext, block := 2, opcode := 0x0212, target := 0, old := 0, new := ofLe (wGoodForme.digest.take 8), ring := 0, due := 0,
    act := .own, digest := true }
/-- A frame with its CRC-32. -/
def wCrc (b : List Byte) : List Byte := b ++ le 4 (crc32 b)
/-- A change list of one LAW record, to the plain law. -/
def wListIn : ListIn :=
  { check := 0, hold := 1, chkv := 0, steps := [[{ type := 6, first := 0, value := 1, mask := 0, last := 0 }]] }
/-- A descriptor with that list in its buffer. -/
def wList : Desc :=
  wBuf 48 (le 1 1 ++ le 1 0 ++ le 2 1 ++ zeros 12 ++ (le 2 1 ++ zeros 14) ++ (le 1 6 ++ zeros 3 ++ le 4 1 ++ zeros 8))
/-- The axes of a SoC table. -/
def wSocHead : List Byte := le 2 1 ++ zeros 2 ++ (List.range 8).flatMap (fun i => le 2 i) ++ (List.range 6).flatMap (fun i => le 2 i)
/-- A SoC table that R451 takes: 48 like curves. -/
def wSoc : List Byte :=
  let b := wSocHead ++ (List.range 48).flatMap (fun _ => (List.range 11).flatMap fun i => le 2 i)
  let b := b ++ zeros (1088 - b.length)
  b ++ le 4 (crc32 b)
/-- A state whose next descriptor of ring `r` is `d`, with opcode `op`, and whose host takes requests. -/
def wGot (s : State) (r op : Nat) (d : Desc) : State :=
  let s := wSet [(Reg.HST_CTL_DMA_EN, 1)] s
  ({ s with hst := { s.hst with linkUp := true, busMaster := true } } : State).ringMod r fun x => { x with fetched := [(op, d)] }
/-- The soft values of a frame that is received without error. -/
def wSoft (b : List Byte) : List (List Int) :=
  (List.range (cdiv b.length 6)).map fun k => (List.range 240).map fun i => if bit (rawBits b k) (i % 48) then 1 else -1

/-! ## Small tests; the results are the manual's, or those of the published standard it names -/

/-- CRC-32 of "123456789" (the check value of the published code). -/
theorem test_crc32 : crc32 [0x31, 0x32, 0x33, 0x34, 0x35, 0x36, 0x37, 0x38, 0x39] = 0xCBF43926 := by decide +kernel
/-- SHA-384 of "abc" (FIPS 180-4). -/
theorem test_sha384 : (sha384 [0x61, 0x62, 0x63]).take 8 = [0xCB, 0x00, 0x75, 0x3F, 0x45, 0xA3, 0x5E, 0x8B] := by decide +kernel
/-- AES-CMAC of the empty message (RFC 4493, example 1). -/
theorem test_cmac : (cmac [0x2B, 0x7E, 0x15, 0x16, 0x28, 0xAE, 0xD2, 0xA6, 0xAB, 0xF7, 0x15, 0x88, 0x09, 0xCF, 0x4F, 0x3C] []).take 8 =
    [0xBB, 0x1D, 0x69, 0x29, 0xE9, 0x59, 0x37, 0x28] := by decide +kernel
/-- The example of the sort encoding: the bytes of an MMUL. -/
theorem test_sort_word :
    (fun w : SortW => ([w.op, w.scope, w.dst, w.src1, w.src2, w.src3, w.n1, w.n2], w.a))
      (readSort [0x10, 0x62, 0xF4, 0x05, 0x02, 0x03, 0x04, 0x00, 0x10, 0x00, 0x40, 0x00, 0, 0, 0, 0]) =
    ([0x10, 2, 5, 2, 3, 4, 16, 64], -12) := by decide +kernel
/-- A state whose Press memory holds the table of the LUT example. -/
def lutState : State := { State.reset with prs := { State.reset.prs with
  pmem := Memory.writes [] 0x10000000000 (le 2 0 ++ le 2 100 ++ le 2 400 ++ le 2 900 ++ le 2 1600) } }
/-- The LUT example: inside the table, past its end, and below its base. -/
theorem test_lut_example :
    [(-3 : Int), 38, -40].map (lutState.lutV { n := 5, k := 4, ey := -8, base := -32, addr := 0x10000000000 }) = [344, 1600, 0] := by decide +kernel
/-- The SCAN example, a tie that goes to even. -/
theorem test_scan_example : (scanChan 24576 [1000, 1000, 0] 0).1.map (·.1) = [1000, 1750, 1312] := by decide +kernel
/-- The share of a proof point in a group: 390,000.5 goes to the even 390,000. -/
theorem test_share_example : rne (3120004 * 8192) 16 = 390000 := by decide +kernel
/-- The estimator's last step in the example of a cell. -/
theorem test_estimator_rounding : 50000000 + rne (-8583439546) 16 = 49869027 := by decide +kernel
/-- Detector 14.0 is number 224. -/
theorem test_detector_number : detN 14 0 = 224 := by decide +kernel
/-- A module at position 5 in seat B: rank 11, good parity (the low ten bits of GLB_SEAT read 0x2EB). -/
theorem test_seat_example :
    (fun t : State => ([t.get Reg.GLB_SEAT_SEAT, t.get Reg.GLB_SEAT_POS, t.get Reg.GLB_SEAT_PAROK, t.get Reg.GLB_SEAT_RANK],
      t.read 0x40 0 % 1024)) (State.reset.errataStarts 1 5 0) = ([1, 5, 1, 11], 0x2EB) := by decide +kernel
/-- The hours of a slug at operating time 123,456,789,012 ms. -/
theorem test_slug_hours :
    (((wSet [(Reg.COL_OPT, 123456789012)]).slug 0x40E0 0 0 0 0 0).col.slugs.getLast?).map (·.hours) = some 3429355 := by decide +kernel
/-- Writing the byte that an unlisted address reads as removes the cell. -/
theorem test_memory_canonical : Memory.write (Memory.write [] 7 5) 7 0 = [] := by decide +kernel

/-! ## Ill-formed commands, one for each check, are refused -/

theorem test_ill_formed_refused_1 : ([
    .inputLow false 0x10000 0 0,
    .inputLow false 0 0x10000 0,
    .inputLow false 0 0 0x10000,
    .inputLoss 0x10000 0,
    .inputLoss 0 0x10000,
    .inputPowerLimit false 0x10000 0 0,
    .inputPowerLimit false 0 0x10000 0,
    .inputPowerLimit false 0 0 0x10000,
    .inputCurrentLimit 3 0 0 0,
    .inputCurrentLimit 0 0x10000 0 0,
    .inputCurrentLimit 0 0 0x10000 0,
    .inputCurrentLimit 0 0 0 0x10000,
    .reservoirCharged 0x10000,
    .errataLeavesReset 2 0 0,
    .errataLeavesReset 0 8 0,
    .errataLeavesReset 0 0 2,
    .strapChange 2 0 0,
    .strapChange 0 8 0,
    .strapChange 0 0 2,
    .junctionTemp 6 0,
    .junctionTemp 0 (-32769),
    .junctionTemp 0 32768,
    .coolingSample 0x10000 0 0 0 0,
    .coolingSample 0 0x10000 0 0 0,
    .coolingSample 0 0 0x10000 0 0] : List Instr).all (fun i => !i.wf) = true := by decide +kernel
theorem test_ill_formed_refused_2 : ([
    .coolingSample 0 0 0 0x10000 0,
    .coolingSample 0 0 0 0 0x10000,
    .coolingFailure 3 false,
    .meterFrame [],
    .pcieLinkUp 8 0,
    .pcieLinkUp 0 17,
    .configRequest 4096 none,
    .configRequest 0 (some 0x100000000),
    .clockCheckWindow [] [],
    .clockCheckWindow (List.replicate 13 0x80000000) [],
    .clockCheckWindow (List.replicate 13 0) ([13]),
    .crossingMiss 11 false,
    .enterSettingsStage ([(5, 0)]),
    .enterWait 0x100000000,
    .enterFlyleaf 7,
    .enterFlyleaf 0,
    .makeReadyStepDone 4 1 [] 0 0 false 0,
    .makeReadyStepDone 0 1 [] 0x10000 0 false 0,
    .makeReadyStepDone 0 1 [] 0 0 false 0x100000000,
    .makeReadyStepDone 0 9 [] 0 0 false 0,
    .makeReadyStepDone 0 1 [] 0 17 false 0,
    .makeReadyStepDone 0 0 [] 0 0 false 0,
    .makeReadyStepDone 0 1 ([(4, 0)]) 0 0 false 0,
    .makeReadyStepDone 0 1 ([(0, 0)]) 0 0 false 0,
    .makeReadyStepDone 0 1 ([(1, 0x8000)]) 0 0 false 0] : List Instr).all (fun i => !i.wf) = true := by decide +kernel
theorem test_ill_formed_refused_3 : ([
    .modelSetFromPeer ([(256, [])]) [],
    .modelSetFromPeer [] ([(0x4000000000, [])]),
    .enumRetry 4,
    .nop 16384 wDesc,
    .nop 0 ({ wDesc with idx := 65536 }),
    .fence 16384 wDesc,
    .fence 0 ({ wDesc with idx := 65536 }),
    .health 16384 wDesc,
    .health 0 ({ wDesc with idx := 65536 }),
    .seatEnable 16384 wDesc,
    .seatEnable 0 ({ wDesc with idx := 65536 }),
    .ringQuery 16384 wDesc,
    .ringQuery 0 ({ wDesc with idx := 65536 }),
    .ptmResync 16384 wDesc false 0,
    .ptmResync 0 ({ wDesc with idx := 65536 }) false 0,
    .moduleReset 16384 wDesc,
    .moduleReset 0 ({ wDesc with idx := 65536 }),
    .ringEnable 16384 false,
    .ringDisable 16384,
    .doorbellTail 16384 0 false,
    .doorbellTail 0 0x100000000 false,
    .doorbellHead 16384 0 false,
    .doorbellHead 0 0x100000000 false,
    .descriptorFetch 16384 [],
    .descriptorFetch 0 ([(65536, wDesc)])] : List Instr).all (fun i => !i.wf) = true := by decide +kernel
theorem test_ill_formed_refused_4 : ([
    .descriptorFetch 0 ([(1, { wDesc with tag := 0x100000000 })]),
    .descriptorFetch 0 (List.replicate 17 (1, wDesc)),
    .dmaError 16384 1 0,
    .dmaError 0 1 0x10000000000000000,
    .dmaError 0 6 0,
    .dmaError 0 0 0,
    .msixModerationTimer 16384,
    .batchIdleTimeout 16384,
    .paceUnreadTimeout 16384 0,
    .paceUnreadTimeout 0 0x100000000,
    .shadowHoldTimeout 16384,
    .registerWrite 0x100000 0 0,
    .registerWrite 0 0 0x10000000000000000,
    .registerWrite 0 4097 0,
    .registerReadClear 0x100000 0,
    .registerReadClear 0 4097,
    .loReadCapture 0x10000 0,
    .loReadCapture 0 0x100000,
    .traceBuf 16384 wDesc,
    .traceBuf 0 ({ wDesc with idx := 65536 }),
    .scoreBuf 16384 wDesc,
    .scoreBuf 0 ({ wDesc with idx := 65536 }),
    .traceRecord 16384 0 0 0 (List.replicate 1 0),
    .traceRecord 0 8192 0 0 (List.replicate 1 0),
    .traceRecord 0 0 0x100000000 0 (List.replicate 1 0)] : List Instr).all (fun i => !i.wf) = true := by decide +kernel
theorem test_ill_formed_refused_5 : ([
    .traceRecord 0 0 0 0x10000000000000000 (List.replicate 1 0),
    .traceRecord 0 0 0 0 [],
    .traceRecord 0 0 0 0 ([65536]),
    .traceRecord 0 0 0 0 (List.replicate 4097 0),
    .keepAlive 16384 0 0 0,
    .keepAlive 0 8192 0 0,
    .keepAlive 0 0 0x100000000 0,
    .keepAlive 0 0 0 0x10000000000000000,
    .bind 16384 0 1 0 0 0 0 0,
    .bind 0 0 1 0x10000000000000000 0 0 0 0,
    .bind 0 0 1 0 128 0 0 0,
    .bind 0 0 1 0 0 256 0 0,
    .bind 0 0 1 0 0 0 64 0,
    .bind 0 0 1 0 0 0 0 4,
    .bind 0 0 8193 0 0 0 0 0,
    .bind 0 0 0 0 0 0 0 0,
    .bind 0 8193 1 0 0 0 0 0,
    .leave 16384 0 1 0 1,
    .leave 0 0 1 0x10000000000000000 1,
    .leave 0 0 8193 0 1,
    .leave 0 0 1 0 5,
    .leave 0 0 0 0 1,
    .leave 0 0 1 0 0,
    .leave 0 8193 1 0 1,
    .leaveTimeReached 8192] : List Instr).all (fun i => !i.wf) = true := by decide +kernel
theorem test_ill_formed_refused_6 : ([
    .sched 16384 0 0 ([{ t := 0, dur := 0, kind := 1, kclass := 0, level := 0, arg := 0 }]),
    .sched 0 0 8193 ([{ t := 0, dur := 0, kind := 1, kclass := 0, level := 0, arg := 0 }]),
    .sched 0 8193 0 ([{ t := 0, dur := 0, kind := 1, kclass := 0, level := 0, arg := 0 }]),
    .sched 0 0 0 ([{ t := 0, dur := 0, kind := 6, kclass := 0, level := 0, arg := 0 }]),
    .sched 0 0 0 [],
    .sched 0 0 0 (List.replicate 65 { t := 0, dur := 0, kind := 1, kclass := 0, level := 0, arg := 0 }),
    .cancel 16384 0 0 0,
    .cancel 0 0 0 0x10000000000000000,
    .cancel 0 0 8193 0,
    .cancel 0 8193 0 0,
    .streamLagChange 8192,
    .streamSilenceTimeout 8192,
    .historySample 0x10000000000000000,
    .sampleCut 0 ([18]),
    .pressQuery 16384 wDesc,
    .pressQuery 0 ({ wDesc with idx := 65536 }),
    .memRead 16384 wDesc,
    .memRead 0 ({ wDesc with idx := 65536 }),
    .scrubNow 16384 wDesc,
    .scrubNow 0 ({ wDesc with idx := 65536 }),
    .hierSet 16384 wDesc,
    .hierSet 0 ({ wDesc with idx := 65536 }),
    .hierRollback 4,
    .hierRollback 0,
    .leafResidueMismatch 32768] : List Instr).all (fun i => !i.wf) = true := by decide +kernel
theorem test_ill_formed_refused_7 : ([
    .weightCrcSweep 32768 false,
    .spineError 4 false,
    .barrierRelease 4 1,
    .barrierRelease 0 5,
    .barrierRelease 0 0,
    .barrierTimeout 4 1 0,
    .barrierTimeout 0 1 32768,
    .barrierTimeout 0 5 0,
    .barrierTimeout 0 0 0,
    .dramCorrectable 4 0 0 0 1 false,
    .dramCorrectable 0 0 0 0xEE6B28000 1 false,
    .dramCorrectable 0 0 0 0 3 false,
    .dramCorrectable 0 0 0 0 0 false,
    .dramUncorrectable 4 0 0 0 false,
    .dramUncorrectable 0 0 0 0xEE6B28000 false,
    .dramUncorrectable 0 0 0 4 false,
    .bankSpareDone 4 0,
    .patrolScrub 4 0 false false 0,
    .patrolScrub 0 101 false false 0,
    .formeOpen 16384 wDesc,
    .formeOpen 0 ({ wDesc with idx := 65536 }),
    .formeWrite 16384 wDesc,
    .formeWrite 0 ({ wDesc with idx := 65536 }),
    .formeCommit 16384 wDesc,
    .formeCommit 0 ({ wDesc with idx := 65536 })] : List Instr).all (fun i => !i.wf) = true := by decide +kernel
theorem test_ill_formed_refused_8 : ([
    .formeAbort 16384 wDesc,
    .formeAbort 0 ({ wDesc with idx := 65536 }),
    .formeUnload 16384 wDesc,
    .formeUnload 0 ({ wDesc with idx := 65536 }),
    .formeEnable 16384 wDesc,
    .formeEnable 0 ({ wDesc with idx := 65536 }),
    .formeQuery 16384 wDesc,
    .formeQuery 0 ({ wDesc with idx := 65536 }),
    .formeRun 16384 wDesc,
    .formeRun 0 ({ wDesc with idx := 65536 }),
    .formeDigest 16384 wDesc,
    .formeDigest 0 ({ wDesc with idx := 65536 }),
    .formeLoadTimeout 256,
    .formeImpose 256 false,
    .variantLoadDone 256,
    .runEnd 256,
    .sortNop 4 0,
    .endSort 4 0,
    .bar 4 0,
    .loop 4 0,
    .load 4 0,
    .store 4 0,
    .copy 4 0,
    .input 4 0,
    .emit 4 0] : List Instr).all (fun i => !i.wf) = true := by decide +kernel
theorem test_ill_formed_refused_9 : ([
    .mmul 4 0,
    .add 4 0,
    .sub 4 0,
    .mul 4 0,
    .max 4 0,
    .min 4 0,
    .shift 4 0,
    .clamp 4 0,
    .rescale 4 0,
    .convert 4 0,
    .rsum 4 0,
    .rmax 4 0,
    .lut 4 0,
    .scan 4 0,
    .attn 4 0,
    .gouter 4 0,
    .gapply 4 0,
    .galleyQuery 16384 wDesc,
    .galleyQuery 0 ({ wDesc with idx := 65536 }),
    .trainSetup 16384 wDesc,
    .trainSetup 0 ({ wDesc with idx := 65536 }),
    .trainRun 16384 wDesc,
    .trainRun 0 ({ wDesc with idx := 65536 }),
    .trainPromote 16384 wDesc,
    .trainPromote 0 ({ wDesc with idx := 65536 })] : List Instr).all (fun i => !i.wf) = true := by decide +kernel
theorem test_ill_formed_refused_10 : ([
    .trainReject 16384 wDesc,
    .trainReject 0 ({ wDesc with idx := 65536 }),
    .trainRevert 16384 wDesc,
    .trainRevert 0 ({ wDesc with idx := 65536 }),
    .trainQuery 16384 wDesc,
    .trainQuery 0 ({ wDesc with idx := 65536 }),
    .chaseQuery 16384 wDesc,
    .chaseQuery 0 ({ wDesc with idx := 65536 }),
    .changeSubmit 16384 wDesc,
    .changeSubmit 0 ({ wDesc with idx := 65536 }),
    .bankWrite 16384 wDesc,
    .bankWrite 0 ({ wDesc with idx := 65536 }),
    .bankRead 16384 wDesc,
    .bankRead 0 ({ wDesc with idx := 65536 }),
    .periodSet 16384 wDesc,
    .periodSet 0 ({ wDesc with idx := 65536 }),
    .lawSet 16384 wDesc,
    .lawSet 0 ({ wDesc with idx := 65536 }),
    .changeAbort 16384 wDesc,
    .changeAbort 0 ({ wDesc with idx := 65536 }),
    .chsRegisterWrite 0x10000 0,
    .chsRegisterWrite 0 0x100000000,
    .chsRegisterWrite 2 0,
    .fesumClear 6 0,
    .fesumClear 0 0x100000000] : List Instr).all (fun i => !i.wf) = true := by decide +kernel
theorem test_ill_formed_refused_11 : ([
    .sample 40 [],
    .linkRetrainAttempt 40,
    .linkMapWrite false 0x100000000,
    .phaseWakeTimeout 156,
    .warmHoldExpiry 156,
    .estTimeout 156,
    .spareStepDone 156,
    .phaseQuery 16384 wDesc,
    .phaseQuery 0 ({ wDesc with idx := 65536 }),
    .phaseClear 16384 wDesc,
    .phaseClear 0 ({ wDesc with idx := 65536 }),
    .phaseRole 16384 wDesc,
    .phaseRole 0 ({ wDesc with idx := 65536 }),
    .linkRetrain 16384 wDesc,
    .linkRetrain 0 ({ wDesc with idx := 65536 }),
    .beacon 16 0 (List.replicate 140 0),
    .beacon 0 0x10000000000000000 (List.replicate 140 0),
    .beacon 0 0 [],
    .ack 16 0,
    .ack 0 0x100000000,
    .fennalFrame 0x10000000000000000 false [],
    .fennalFrame 0 false [List.replicate 239 0],
    .toneReport 16 (List.replicate 64 0),
    .toneReport 0 [],
    .toneReportDue []] : List Instr).all (fun i => !i.wf) = true := by decide +kernel
theorem test_ill_formed_refused_12 : ([
    .toneReportDue (List.replicate 255 0),
    .fennalQuery 16384 wDesc,
    .fennalQuery 0 ({ wDesc with idx := 65536 }),
    .fennalKey 16384 wDesc,
    .fennalKey 0 ({ wDesc with idx := 65536 }),
    .fennalKeytx 16384 wDesc,
    .fennalKeytx 0 ({ wDesc with idx := 65536 }),
    .fennalKeydel 16384 wDesc,
    .fennalKeydel 0 ({ wDesc with idx := 65536 }),
    .report 16 (List.replicate 64 0),
    .report 0 [],
    .fennalLeave 16 (List.replicate 8 0),
    .fennalLeave 0 [],
    .pace 16 (List.replicate 16 0),
    .pace 0 [],
    .paceAckTimeout 0x100000000,
    .paceAck 16384 wDesc,
    .paceAck 0 ({ wDesc with idx := 65536 }),
    .groupQuery 16384 wDesc,
    .groupQuery 0 ({ wDesc with idx := 65536 }),
    .snapDue 4,
    .snap 4 0 [],
    .snap 0 2 [],
    .snap 0 0 (List.replicate 2049 0),
    .collect 4 0 []] : List Instr).all (fun i => !i.wf) = true := by decide +kernel
theorem test_ill_formed_refused_13 : ([
    .collect 0 2 [],
    .collect 0 0 (List.replicate 2049 0),
    .enum 4 0 [] 0,
    .enum 0 2 [] 0,
    .enum 0 0 [] 0x100000000,
    .enum 0 0 (List.replicate 2049 0) 0,
    .enumTimeout 4,
    .echo 4 0 [],
    .echo 0 2 [],
    .echo 0 0 (List.replicate 2049 0),
    .bupilinCfg 4 0 [],
    .bupilinCfg 0 2 [],
    .bupilinCfg 0 0 (List.replicate 2049 0),
    .ringBreak 4,
    .ringProbe 4 false,
    .wakeTone 4,
    .owTestDue 4,
    .balanceAlt 4,
    .fastHoldExpiry 4,
    .bupRingQuery 16384 wDesc,
    .bupRingQuery 0 ({ wDesc with idx := 65536 }),
    .cellRead 16384 wDesc,
    .cellRead 0 ({ wDesc with idx := 65536 }),
    .ringEnum 16384 wDesc,
    .ringEnum 0 ({ wDesc with idx := 65536 })] : List Instr).all (fun i => !i.wf) = true := by decide +kernel
theorem test_ill_formed_refused_14 : ([
    .owTest 16384 wDesc,
    .owTest 0 ({ wDesc with idx := 65536 }),
    .bupFast 16384 wDesc,
    .bupFast 0 ({ wDesc with idx := 65536 }),
    .restEnd 4,
    .driftAlarm 4,
    .cellStale 4 0,
    .cellStale 0 384,
    .estQuery 16384 wDesc,
    .estQuery 0 ({ wDesc with idx := 65536 }),
    .estTable 16384 wDesc,
    .estTable 0 ({ wDesc with idx := 65536 }),
    .estTableRead 16384 wDesc,
    .estTableRead 0 ({ wDesc with idx := 65536 }),
    .restNow 16384 wDesc,
    .restNow 0 ({ wDesc with idx := 65536 }),
    .estRecords 16384 wDesc,
    .estRecords 0 ({ wDesc with idx := 65536 }),
    .detectorEvent 384 0 0 false,
    .detectorEvent 0 0 0x100000000 false,
    .detectorEvent 0 3 0 false,
    .eraDstatClear 12 0,
    .eraDstatClear 0 0x100000000,
    .injectionHoldExpiry 384,
    .eraQuery 16384 wDesc] : List Instr).all (fun i => !i.wf) = true := by decide +kernel
theorem test_ill_formed_refused_15 : ([
    .eraQuery 0 ({ wDesc with idx := 65536 }),
    .eraDetail 16384 wDesc,
    .eraDetail 0 ({ wDesc with idx := 65536 }),
    .eraClear 16384 wDesc,
    .eraClear 0 ({ wDesc with idx := 65536 }),
    .eraClass 16384 wDesc,
    .eraClass 0 ({ wDesc with idx := 65536 }),
    .eraUnlock 16384 wDesc,
    .eraUnlock 0 ({ wDesc with idx := 65536 }),
    .eraInject 16384 wDesc,
    .eraInject 0 ({ wDesc with idx := 65536 }),
    .eraWithdraw 16384 wDesc,
    .eraWithdraw 0 ({ wDesc with idx := 65536 }),
    .eraLock 16384 wDesc,
    .eraLock 0 ({ wDesc with idx := 65536 }),
    .hb false 256 0 0 (List.replicate 32 0) 0,
    .hb false 0 0x100000000 0 (List.replicate 32 0) 0,
    .hb false 0 0 0x10000000000000000 (List.replicate 32 0) 0,
    .hb false 0 0 0 (List.replicate 32 0) 0x10000000000000000,
    .hb false 0 0 0 [] 0,
    .state false 256 0 0 (List.replicate 4096 0) 0,
    .state false 0 0x100000000 0 (List.replicate 4096 0) 0,
    .state false 0 0 0x10000000000000000 (List.replicate 4096 0) 0,
    .state false 0 0 0 (List.replicate 4096 0) 2000,
    .state false 0 0 0 [] 0] : List Instr).all (fun i => !i.wf) = true := by decide +kernel
theorem test_ill_formed_refused_16 : ([
    .takeover false 256 0 0 (List.replicate 16 0),
    .takeover false 0 0x100000000 0 (List.replicate 16 0),
    .takeover false 0 0 0x10000000000000000 (List.replicate 16 0),
    .takeover false 0 0 0 [],
    .leaving false 256 0 0 (List.replicate 16 0),
    .leaving false 0 0x100000000 0 (List.replicate 16 0),
    .leaving false 0 0 0x10000000000000000 (List.replicate 16 0),
    .leaving false 0 0 0 [],
    .pcyc false 256 0 0 (List.replicate 24 0),
    .pcyc false 0 0x100000000 0 (List.replicate 24 0),
    .pcyc false 0 0 0x10000000000000000 (List.replicate 24 0),
    .pcyc false 0 0 0 (List.replicate 1021 0),
    .pcyc false 0 0 0 [],
    .rack false 256 0 0 [],
    .rack false 0 0x100000000 0 [],
    .rack false 0 0 0x10000000000000000 [],
    .rack false 0 0 0 (List.replicate 1025 0),
    .roscorCfg false 256 0 0 [] wStaged [],
    .roscorCfg false 0 0x100000000 0 [] wStaged [],
    .roscorCfg false 0 0 0x10000000000000000 [] wStaged [],
    .roscorCfg false 0 0 0 (List.replicate 1025 0) wStaged [],
    .bulk false 256 0 0 [],
    .bulk false 0 0x100000000 0 [],
    .bulk false 0 0 0x10000000000000000 [],
    .bulk false 0 0 0 (List.replicate 1025 0)] : List Instr).all (fun i => !i.wf) = true := by decide +kernel
theorem test_ill_formed_refused_17 : ([
    .shadowLaw ([40]),
    .roscorTrained 201,
    .roscorTrained 79,
    .laneSelftest ([18]),
    .seatQuery 16384 wDesc,
    .seatQuery 0 ({ wDesc with idx := 65536 }),
    .seatSwitch 16384 wDesc,
    .seatSwitch 0 ({ wDesc with idx := 65536 }),
    .provingRun 16384 wDesc,
    .provingRun 0 ({ wDesc with idx := 65536 }),
    .provingStop 16384 wDesc,
    .provingStop 0 ({ wDesc with idx := 65536 }),
    .seatHealth 16384 wDesc,
    .seatHealth 0 ({ wDesc with idx := 65536 }),
    .pageCommit 0x100000000,
    .finalCommitDone 0x100000000,
    .triggerFire 64 0 false,
    .triggerFire 0 0x100000000 false,
    .snapshotCapture 64 [],
    .snapshotCapture 0x7F [],
    .snapshotCapture 0x83 [],
    .snapshotCapture 0 ([512]),
    .colQuery 16384 wDesc,
    .colQuery 0 ({ wDesc with idx := 65536 }),
    .trigWrite 16384 wDesc] : List Instr).all (fun i => !i.wf) = true := by decide +kernel
theorem test_ill_formed_refused_18 : ([
    .trigWrite 0 ({ wDesc with idx := 65536 }),
    .trigRead 16384 wDesc,
    .trigRead 0 ({ wDesc with idx := 65536 }),
    .snapNow 16384 wDesc,
    .snapNow 0 ({ wDesc with idx := 65536 }),
    .colRead 16384 wDesc,
    .colRead 0 ({ wDesc with idx := 65536 }),
    .colCommit 16384 wDesc,
    .colCommit 0 ({ wDesc with idx := 65536 }),
    .updQuery 16384 wDesc,
    .updQuery 0 ({ wDesc with idx := 65536 }),
    .imgOpen 16384 wDesc false,
    .imgOpen 0 ({ wDesc with idx := 65536 }) false,
    .imgWrite 16384 wDesc,
    .imgWrite 0 ({ wDesc with idx := 65536 }),
    .imgFinish 16384 wDesc,
    .imgFinish 0 ({ wDesc with idx := 65536 }),
    .imgAbort 16384 wDesc,
    .imgAbort 0 ({ wDesc with idx := 65536 }),
    .lockExpired 7,
    .lockExpired 0,
    .updActivate 16384 wDesc,
    .updActivate 0 ({ wDesc with idx := 65536 }),
    .updCommit 16384 wDesc,
    .updCommit 0 ({ wDesc with idx := 65536 })] : List Instr).all (fun i => !i.wf) = true := by decide +kernel
theorem test_ill_formed_refused_19 : ([
    .updRollback 16384 wDesc,
    .updRollback 0 ({ wDesc with idx := 65536 }),
    .tapUnlock 16384 wDesc false,
    .tapUnlock 0 ({ wDesc with idx := 65536 }) false,
    .hdrRead 16384 wDesc,
    .hdrRead 0 ({ wDesc with idx := 65536 }),
    .imgcheck 4 0 [],
    .imgcheck 0 2 [],
    .imgcheck 0 0 (List.replicate 2049 0),
    .nodeSwapTimeout 4,
    .flyOpen 16 [] false,
    .flyWrite 16 0 [],
    .flyWrite 0 0x100000000 [],
    .flyFinish 16,
    .flyAbort 16,
    .uartMessage (List.replicate 4105 0) false,
    .flyleafRequest 0x100000000,
    .startModeWrite 0x100000000,
    .prfSnapshot 16384 wDesc,
    .prfSnapshot 0 ({ wDesc with idx := 65536 }),
    .prfZero 16384 wDesc,
    .prfZero 0 ({ wDesc with idx := 65536 }),
    .counterWrite 6 0 false 0,
    .counterWrite 0 8 false 0,
    .counterWrite 0 0 false 0x100000000] : List Instr).all (fun i => !i.wf) = true := by decide +kernel
theorem test_ill_formed_refused_20 : ([
    .spareQuery 16384 wDesc,
    .spareQuery 0 ({ wDesc with idx := 65536 }),
    .repair 16384 wDesc,
    .repair 0 ({ wDesc with idx := 65536 }),
    .repairTestDone false 0x100000000,
    .spareRetire 16384 wDesc,
    .spareRetire 0 ({ wDesc with idx := 65536 }),
    .wornUnitRetire 10 0,
    .wornUnitRetire 0 0x8000,
    .injectedOccurrence 384,
    .formeRunTimeout 256] : List Instr).all (fun i => !i.wf) = true := by decide +kernel


/-! ## A SoC table that R451 takes, without evaluating it whole -/

/-- The curves of the first `n` groups of 22 bytes rise. -/
def curvesRise : Nat → List Byte → Bool
  | 0, _ => true
  | n + 1, b => rises ((List.range 11).map fun j => (rd b (2 * j) 2 : Int)) && curvesRise n (b.drop 22)

/-- A read beyond an offset is a read of what follows it. -/
theorem rd_drop (b : List Byte) (o k n : Nat) : rd b (o + k) n = rd (b.drop o) k n := by
  simp [rd, List.drop_drop]

/-- The curves, read one after another or each at its place. -/
theorem curvesRise_eq (n : Nat) (b : List Byte) :
    ((List.range n).all fun c => rises ((List.range 11).map fun j => (rd b (22 * c + 2 * j) 2 : Int))) = curvesRise n b := by
  induction n generalizing b with
  | zero => rfl
  | succ n ih =>
    rw [List.range_succ_eq_map, List.all_cons, List.all_map, curvesRise, ← ih]
    have e : ∀ c j, rd b (22 * (c + 1) + 2 * j) 2 = rd (b.drop 22) (22 * c + 2 * j) 2 := fun c j => by
      rw [← rd_drop, show 22 * (c + 1) + 2 * j = 22 + (22 * c + 2 * j) by omega]
    simp only [Function.comp_def, Nat.succ_eq_add_one, e, Nat.mul_zero, Nat.zero_add]

/-- The condition of R451 on the curves. -/
theorem curves_rise (b : List Byte) (h : curvesRise 48 (b.drop 32) = true) :
    ((List.range 48).all fun c => rises ((List.range 11).map fun j =>
      (((((List.range 528).map fun i => rd b (32 + 2 * i) 2)[11 * c + j]?).getD 0 : Nat) : Int))) = true := by
  rw [← curvesRise_eq] at h
  simp only [List.all_eq_true, List.mem_range] at h ⊢
  intro c hc
  have e : ((List.range 11).map fun j =>
      (((((List.range 528).map fun i => rd b (32 + 2 * i) 2)[11 * c + j]?).getD 0 : Nat) : Int)) =
      (List.range 11).map fun j => (rd (b.drop 32) (22 * c + 2 * j) 2 : Int) := by
    refine List.map_congr_left fun j hj => ?_
    have hj := List.mem_range.mp hj
    rw [List.getElem?_map, List.getElem?_range (by omega), ← rd_drop]
    simp only [Option.map_some, Option.getD_some]
    rw [show 32 + (22 * c + 2 * j) = 32 + 2 * (11 * c + j) by omega]
  rw [e]
  exact h c hc

theorem wSoc_curves : curvesRise 48 ((bufBytes (wBuf 1092 wSoc)).drop 32) = true := by decide +kernel
theorem wSoc_length : (bufBytes (wBuf 1092 wSoc)).length = 1092 := by decide +kernel
theorem wSoc_crc : rd (bufBytes (wBuf 1092 wSoc)) 1088 4 = crc32 ((bufBytes (wBuf 1092 wSoc)).take 1088) := by decide +kernel
/-- The table is taken. -/
theorem wSoc_taken : (socOf (bufBytes (wBuf 1092 wSoc))).isSome = true := by
  unfold socOf
  rw [if_pos ⟨wSoc_length, by decide +kernel, wSoc_crc, by decide +kernel, by decide +kernel, curves_rise _ wSoc_curves⟩]
  rfl

/-- The loops from `l` on are open, and no loop asks for a period of its own. -/
def OpenFrom (l : Nat) (s : State) : Prop :=
  (∀ n, l ≤ n → (s.loop n).isOpen = true) ∧ (∀ n b, (s.bank n b).per = 0) ∧ s.openMax = 200

theorem openFrom_mod (l : Nat) (s : State) (m : Nat) (f : LoopC → LoopC) (h : OpenFrom l s)
    (hf : l ≤ m → (f (s.loop m)).isOpen = true) : OpenFrom l (s.loopMod m f) := by
  refine ⟨fun n hn => ?_, h.2⟩
  by_cases e : n = m
  · subst e
    show (Tab.get (Tab.put s.chs.loops n (f (s.loop n))) n {}).isOpen = true
    rw [Tab.get_put_same]
    exact hf hn
  · show (Tab.get (Tab.put s.chs.loops m (f (s.loop m))) n {}).isOpen = true
    rw [Tab.get_put_ne _ _ _ _ _ e]
    exact h.1 n hn

theorem openFrom_fold (l : Nat) (g : State → Nat → State) (ns : List Nat)
    (hg : ∀ s m, m ∈ ns → OpenFrom l s → OpenFrom l (g s m)) (s : State) (h : OpenFrom l s) : OpenFrom l (ns.foldl g s) := by
  induction ns generalizing s with
  | nil => exact h
  | cons m ns ih => exact ih (fun s k hk => hg s k (.tail _ hk)) _ (hg s m (.head _) h)

/-- A record that closes no loop from `l` on, and is no REGWRITE or LAW, keeps them open. -/
theorem openFrom_rec (l : Nat) (s : State) (r : ChgRec) (h : OpenFrom l s)
    (hr : r.type = 1 ∨ r.type = 3 ∨ r.type = 5 ∨ r.type = 2 ∧ r.last < l) : OpenFrom l (s.applyRec r).2 := by
  unfold State.applyRec
  rcases hr with e | e | e | ⟨e, hl⟩ <;> rw [e]
  · refine openFrom_fold l _ _ (fun s m _ h => ?_) s h
    unfold State.loopOpen
    split
    · exact h
    · exact openFrom_mod l s m _ h fun _ => rfl
  · exact openFrom_fold l _ _ (fun s m _ h => openFrom_mod l s m _ h fun hm => h.1 m hm) s h
  · refine ⟨h.1, fun n b => ?_, ?_⟩
    · show ((s.set Reg.CHS_PERIOD_CYC r.value).get (Reg.CHS_LFET_PER (bankIdx n b))) = 0
      rw [State.get_set_ne]
      · exact h.2.1 n b
      · simp only [Reg.CHS_LFET_PER, Reg.CHS_PERIOD_CYC, fld, fieldKey]
        omega
    · show (s.set Reg.CHS_PERIOD_CYC r.value).openMax = 200
      unfold State.openMax
      rw [State.get_set_ne _ _ _ _ (by decide)]
      exact h.2.2
  · refine openFrom_fold l _ _ (fun s m hm h => ?_) s h
    unfold State.loopBack
    split
    · exact h
    refine openFrom_mod l s m _ h fun hn => ?_
    simp only [List.mem_filter, ChgRec.loops, List.mem_map, List.mem_range] at hm
    obtain ⟨⟨k, hk, rfl⟩, _⟩ := hm
    omega

theorem openFrom_opens (l : Nat) (s : State) (st : List ChgRec) (h : OpenFrom l s) : OpenFrom l (s.afterOpens st) := by
  unfold State.afterOpens
  have hs : ∀ r ∈ st.filter (fun r => r.type == 1), r.type = 1 := by simp
  generalize st.filter (fun r => r.type == 1) = rs at hs
  induction rs generalizing s with
  | nil => exact h
  | cons r rs ih => exact ih _ (openFrom_rec l s r h (.inl (hs r (.head _)))) fun r hr => hs r (.tail _ hr)

/-- A step whose records stand in the order of their types and close no loop from `l` on keeps them open. -/
theorem openFrom_step (l : Nat) (s : State) (st : List ChgRec) (h : OpenFrom l s)
    (hs : sortBy (fun a b => decide (recOrder a.type ≤ recOrder b.type)) st = st)
    (hr : ∀ r ∈ st, r.type = 1 ∨ r.type = 3 ∨ r.type = 5 ∨ r.type = 2 ∧ r.last < l) : OpenFrom l (s.applyStep st).2 := by
  unfold State.applyStep
  rw [hs]
  have k : ∀ (rs : List ChgRec) (a : List Undo × State), (∀ r ∈ rs, r ∈ st) → OpenFrom l a.2 →
      OpenFrom l (rs.foldl (fun a r => let (u, t) := a.2.applyRec r; (u :: a.1, t)) a).2 := by
    intro rs
    induction rs with
    | nil => exact fun a _ h => h
    | cons r rs ih => exact fun a hm h => ih _ (fun r hr => hm r (.tail _ hr)) (openFrom_rec l a.2 r h (hr r (hm r (.head _))))
  exact k st _ (fun _ h => h) h

theorem badRec_none (steps : List (List ChgRec)) (p : Nat → ChgRec → Bool)
    (h : ∀ x ∈ steps.zipIdx, ∀ r ∈ x.1, p x.2 r = true) : badRec steps p = none := by
  unfold badRec
  generalize steps.zipIdx = xs at h
  induction xs with
  | nil => rfl
  | cons x xs ih =>
    rw [List.foldl_cons]
    have e : (x.1.findIdx? fun r => !p x.2 r) = none := by simpa using h x (.head _)
    simp only [e, Option.map_none]
    exact ih fun y hy => h y (.tail _ hy)

/-- The steps of PERIOD_SET's list. -/
def perA : List ChgRec := [{ type := 1, first := 156, value := 0, mask := 0, last := 165 }]
def perB : List ChgRec :=
  [{ type := 1, first := 0, value := 0, mask := 0, last := 155 }, { type := 3, first := 0, value := 0, mask := 0, last := 155 },
   { type := 5, first := 0, value := 1000, mask := 0, last := 0 }]
def perC : List ChgRec := [{ type := 2, first := 0, value := 0, mask := 0, last := 155 }]
def perD : List ChgRec :=
  [{ type := 3, first := 156, value := 0, mask := 0, last := 165 }, { type := 2, first := 156, value := 0, mask := 0, last := 165 }]

/-- PERIOD_SET's list is fit where every loop is open, no loop asks for a period and no list is held. -/
theorem periodList_fit (s : State) (hl : s.chs.lists = []) (h0 : OpenFrom 0 s) :
    s.listBad (periodList 1000) = none := by
  have ea : s.afterLists = s := by simp [State.afterLists, hl]
  have e : (periodList 1000).steps = [perA, perB, perC, perD] := rfl
  have h1 : OpenFrom 0 (s.applyStep perA).2 := openFrom_step 0 s _ h0 rfl (by decide)
  have h2 : OpenFrom 0 ((s.applyStep perA).2.applyStep perB).2 := openFrom_step 0 _ _ h1 rfl (by decide)
  have h156 : ∀ s, OpenFrom 0 s → OpenFrom 156 s := fun s h => ⟨fun n _ => h.1 n (Nat.zero_le n), h.2⟩
  have h3 : OpenFrom 156 (((s.applyStep perA).2.applyStep perB).2.applyStep perC).2 :=
    openFrom_step 156 _ _ (h156 _ h2) rfl (by decide)
  have h4 : OpenFrom 166 ((((s.applyStep perA).2.applyStep perB).2.applyStep perC).2.applyStep perD).2 :=
    openFrom_step 166 _ _ ⟨fun n hn => h3.1 n (by omega), h3.2⟩ rfl (by decide)
  have eb : s.before [perA, perB, perC, perD] = [s, (s.applyStep perA).2, ((s.applyStep perA).2.applyStep perB).2,
      (((s.applyStep perA).2.applyStep perB).2.applyStep perC).2] := rfl
  unfold State.listBad
  rw [ea, e, eb]
  generalize (s.applyStep perA).2 = s1 at *
  generalize hs2 : (s1.applyStep perB).2 = s2 at *
  generalize (s2.applyStep perC).2 = s3 at *
  rw [badRec_none _ _ (by decide)]
  simp only []
  have om : (fun m => (([s, s1, s2, s3][m + 1]?).getD s).openMax) = fun _ => 200 := by
    funext m
    match m with
    | 0 => exact h1.2.2
    | 1 => exact h2.2.2
    | 2 => exact h3.2.2
    | n + 3 => exact h0.2.2
  have o : openCheck [perA, perB, perC, perD] (periodList 1000).hold (fun m => (([s, s1, s2, s3][m + 1]?).getD s).openMax) = none := by
    rw [om]; decide +kernel
  rw [badRec_none, badRec_none, badRec_none, badRec_none, o]
  · intro x hx
    simp only [List.zipIdx_cons, List.zipIdx_nil, List.mem_cons, List.not_mem_nil, or_false] at hx
    rcases hx with rfl | rfl | rfl | rfl <;> simp [perA, perB, perC, perD]
  · intro x hx
    simp only [List.zipIdx_cons, List.zipIdx_nil, List.mem_cons, List.not_mem_nil, or_false] at hx
    rcases hx with rfl | rfl | rfl | rfl <;> simp [perA, perB, perC, perD]
    exact fun n _ => (openFrom_opens 0 s1 perB h1).1 n (Nat.zero_le n)
  · intro x hx
    simp only [List.zipIdx_cons, List.zipIdx_nil, List.mem_cons, List.not_mem_nil, or_false] at hx
    have h2' : OpenFrom 0 (s1.applyStep perB).2 := hs2 ▸ h2
    rcases hx with rfl | rfl | rfl | rfl <;> simp [perA, perB, perC, perD]
    · exact fun n _ => .inl (h2'.2.1 n _)
    · exact fun n _ => .inl (h4.2.1 n _)
  · intro x hx
    simp only [List.zipIdx_cons, List.zipIdx_nil, List.mem_cons, List.not_mem_nil, or_false] at hx
    rcases hx with rfl | rfl | rfl | rfl <;> simp [perA, perB, perC, perD]
    · exact fun n _ => (openFrom_opens 0 s1 perB h1).1 n (Nat.zero_le n)
    · intro n hn
      refine (openFrom_opens 156 s3 perD h3).1 n ?_
      simp only [ChgRec.loops, List.mem_map, List.mem_range] at hn
      obtain ⟨k, _, rfl⟩ := hn
      omega

/-- No register of a table with no key at LFET.PER's address gives a period to a bank. -/
theorem noPer (t : Tab Nat) (i : Nat) (h : ∀ e ∈ t, e.1 % 0x2000000 ≠ 0x300A0 * 32 + 16) : Tab.get t (fieldKey 0x300A0 16 i) 0 = 0 := by
  induction t with
  | nil => rfl
  | cons e t ih =>
    have he := h e (.head _)
    unfold Tab.get Tab.find
    rw [if_neg (fun c => he (by rw [c]; simp only [fieldKey]; omega))]
    exact ih fun e m => h e (.tail _ m)

/-- PERIOD_SET's list is fit in a state with no loop, list or bank written. -/
theorem periodList_fit' (s : State) (hl : s.chs.lists = []) (h0 : s.chs.loops = []) (ho : s.openMax = 200)
    (hr : ∀ e ∈ s.regs, e.1 % 0x2000000 ≠ 0x300A0 * 32 + 16) : s.listBad (periodList 1000) = none := by
  refine periodList_fit _ hl ⟨fun n _ => ?_, fun n b => noPer s.regs _ hr, ho⟩
  unfold State.loop
  rw [h0]
  rfl
theorem wPer_fit : ((wGot (wRing 0) 0 0x0504 { wDesc with p0 := 1000 }).beginDesc 0 0x0504 { wDesc with p0 := 1000 }).listBad (periodList 1000) = none :=
  periodList_fit' _ (by decide +kernel) (by decide +kernel) (by decide +kernel) (by decide +kernel)


/-! ## The hypotheses of the statements are met -/

/-- A descriptor on a ring of another class fails the first check, whatever the command. -/
theorem met_CommandChecks (op : Nat) (i : CmdInfo) :
    (wGot (wRing 4) 0 op wDesc).begins 0 0 op wDesc ∧ ((wGot (wRing 4) 0 op wDesc).beginDesc 0 op wDesc).check 0 0 wDesc i = some 0x10 :=
  ⟨⟨rfl, rfl, rfl, beq_self_eq_true (some (op, wDesc)), fun _ => rfl⟩, rfl⟩
/-- A CMD ring of level 0, whatever the command. -/
theorem met_PrivilegeRefused (op : Nat) : (fun s : State => s.begins 0 0 op wDesc ∧ s.get (Reg.HST_RCFG_CLASS 0) = 0 ∧ s.get (Reg.HST_RCFG_PRIV 0) < 1)
    (wGot (wSet [(Reg.HST_RSTAT_EN 0, 1), (Reg.HST_RCFG_CPLRING 0, 1)]) 0 op wDesc) :=
  ⟨⟨rfl, rfl, rfl, beq_self_eq_true (some (op, wDesc)), fun _ => rfl⟩, rfl, Nat.zero_lt_one⟩
/-- A CMD ring of level 3 in a standby seat, whatever the command. -/
theorem met_StandbyRefused (op : Nat) :
    (fun s : State => s.begins 0 0 op wDesc ∧ s.get (Reg.HST_RCFG_CLASS 0) = 0 ∧ 3 ≤ s.get (Reg.HST_RCFG_PRIV 0) ∧ s.standby = true)
    (wGot (wSet [(Reg.HST_RCFG_PRIV 0, 3), (Reg.HST_RSTAT_EN 0, 1), (Reg.HST_RCFG_CPLRING 0, 1), (Reg.GLB_BOOTSTAT_STAGE, 7)]) 0 op wDesc) :=
  ⟨⟨rfl, rfl, rfl, beq_self_eq_true (some (op, wDesc)), fun _ => rfl⟩, rfl, Nat.le_refl 3, rfl⟩
/-- SCRUB_NOW in a standby seat whose textblock 0 is in service. -/
theorem met_StandbyRefused_1 :
    (fun s : State => s.serves 0 0 0x0203 wDesc { priv := 2 } ∧ s.standby = true ∧ bit (s.get Reg.PRS_STAT_TBSVC) (bits wDesc.p0 0 2) = true)
    (wGot (wSet [(Reg.HST_RCFG_PRIV 0, 3), (Reg.HST_RSTAT_EN 0, 1), (Reg.HST_RCFG_CPLRING 0, 1), (Reg.GLB_BOOTSTAT_STAGE, 7), (Reg.PRS_STAT_TBSVC, 1)]) 0 0x0203 wDesc) := by
  (repeat' apply And.intro) <;> first | decide +kernel | rfl
theorem met_StepRunsFront_1 : (fun (s : State) (c : Instr) (rest : List Instr) => (s.pending = c :: rest)) ({ State.reset with pending := [.presentClose, .powerOn] }) (.presentClose) ([.powerOn]) := by
  (repeat' apply And.intro) <;> first | decide +kernel | rfl
theorem met_EmptyQueueIdles_1 : (fun (s : State) => (s.pending = [])) (State.reset) := by
  (repeat' apply And.intro) <;> first | decide +kernel | rfl
theorem met_PressMemoryKept_1 : (fun (c : Instr) (s : State) => (storesPress c = false)) (.presentClose) (State.reset) := by
  (repeat' apply And.intro) <;> first | decide +kernel | rfl
theorem met_StepKeepsInv_1 : (fun (s t : State) => (s.Inv) ∧ (step s = .next t)) ({ State.reset with pending := [.presentClose] }) ({ State.reset with glb := { State.reset.glb with present := true, inrush := true } }) := by
  (repeat' apply And.intro) <;> first | decide +kernel | rfl
theorem met_QueryFrame_1 : (fun (c : Instr) (s : State) => (queries c = true)) (.health 0 (wBuf 256)) (wRing 0) := by
  (repeat' apply And.intro) <;> first | decide +kernel | rfl
theorem met_SortFrame_1 : (fun (c : Instr) (s : State) => (sorts c = true)) (.sortNop 0 5) (wSort 0) := by
  (repeat' apply And.intro) <;> first | decide +kernel | rfl
theorem met_RegisterFramesOfSignals_22 : (fun (s : State) (n : Nat) => (s.era.orders = []) ∧ (s.baseClass n = 0) ∧ (n / 16 = 0 ∨ 13 ≤ n / 16) ∧ (s.glb.safeLeft ≠ 10)) ({ State.reset with era := { State.reset.era with injections := [{ number := 4, det := 0xE3, mode := 2, param := 3, spacing := 5, left := 2, ends := none }] } }) (0xE3) := by
  (repeat' apply And.intro) <;> first | decide +kernel | rfl
theorem met_BufferWriteFails_1 : (fun (s : State) (r : Nat) (d : Desc) => (s.begins 0 r 0x0101 d) ∧ (s.check r 0 d { priv := 0, buf := .writes, lenOk := fun n => decide (256 ≤ n) } = none) ∧ (d.buf = none)) (wGot (wRing 0) 0 0x0101 { wBuf 256 with buf := none }) (0) ({ wBuf 256 with buf := none }) := by
  (repeat' apply And.intro) <;> first | decide +kernel | rfl
theorem met_BufferWriteFails_2 : (fun (s : State) (r : Nat) (d : Desc) => (s.begins 0 r 0x0103 d) ∧ (s.check r 0 d { priv := 0, buf := .writes, lenOk := fun n => 64 ≤ n } = none) ∧ (d.buf = none)) (wGot (wRing 0) 0 0x0103 { wBuf 64 with buf := none }) (0) ({ wBuf 64 with buf := none }) := by
  (repeat' apply And.intro) <;> first | decide +kernel | rfl
theorem met_BufferWriteFails_3 : (fun (s : State) (r : Nat) (d : Desc) => (s.begins 0 r 0x0201 d) ∧ (s.check r 0 d { priv := 0, buf := .writes, lenOk := fun n => 64 ≤ n } = none) ∧ (d.buf = none)) (wGot (wRing 0) 0 0x0201 { wBuf 64 with buf := none }) (0) ({ wBuf 64 with buf := none }) := by
  (repeat' apply And.intro) <;> first | decide +kernel | rfl
theorem met_BufferWriteFails_4 : (fun (s : State) (r : Nat) (d : Desc) => (s.begins 0 r 0x0216 d) ∧ (s.check r 0 d { priv := 0, buf := .writes, lenOk := fun n => 64 ≤ n } = none) ∧ (d.buf = none)) (wGot (wRing 0) 0 0x0216 { wBuf 64 with buf := none }) (0) ({ wBuf 64 with buf := none }) := by
  (repeat' apply And.intro) <;> first | decide +kernel | rfl
theorem met_BufferWriteFails_5 : (fun (s : State) (r : Nat) (d : Desc) => (s.begins 0 r 0x0218 d) ∧ (s.check r 0 d { priv := 0, buf := .writes, lenOk := fun n => 48 ≤ n } = none) ∧ (d.buf = none)) (wGot (wRing 0) 0 0x0218 { wBuf 64 with buf := none }) (0) ({ wBuf 64 with buf := none }) := by
  (repeat' apply And.intro) <;> first | decide +kernel | rfl
theorem met_BufferWriteFails_6 : (fun (s : State) (r : Nat) (d : Desc) => (s.begins 0 r 0x0300 d) ∧ (s.check r 0 d { priv := 0, buf := .writes, lenOk := fun n => 128 ≤ n } = none) ∧ (d.buf = none)) (wGot (wRing 0) 0 0x0300 { wBuf 128 with buf := none }) (0) ({ wBuf 128 with buf := none }) := by
  (repeat' apply And.intro) <;> first | decide +kernel | rfl
theorem met_BufferWriteFails_7 : (fun (s : State) (r : Nat) (d : Desc) => (s.begins 0 r 0x0405 d) ∧ (s.check r 0 d { priv := 0, buf := .writes, lenOk := fun n => 64 ≤ n } = none) ∧ (d.buf = none)) (wGot (wRing 0) 0 0x0405 { wBuf 64 with buf := none }) (0) ({ wBuf 64 with buf := none }) := by
  (repeat' apply And.intro) <;> first | decide +kernel | rfl
theorem met_BufferWriteFails_8 : (fun (s : State) (r : Nat) (d : Desc) => (s.begins 0 r 0x0500 d) ∧ (s.check r 0 d { priv := 0, buf := .writes, lenOk := fun n => decide (64 ≤ n) } = none) ∧ (d.buf = none)) (wGot (wRing 0) 0 0x0500 { wBuf 64 with buf := none }) (0) ({ wBuf 64 with buf := none }) := by
  (repeat' apply And.intro) <;> first | decide +kernel | rfl
theorem met_BufferWriteFails_9 : (fun (s : State) (r : Nat) (d : Desc) => (s.begins 0 r 0x0700 d) ∧ (s.check r 0 d { priv := 0, buf := .writes, lenOk := fun n => 64 ≤ n } = none) ∧ (d.buf = none)) (wGot (wRing 0) 0 0x0700 { wBuf 64 with buf := none }) (0) ({ wBuf 64 with buf := none }) := by
  (repeat' apply And.intro) <;> first | decide +kernel | rfl
theorem met_BufferWriteFails_10 : (fun (s : State) (r : Nat) (d : Desc) => (s.begins 0 r 0x0710 d) ∧ (s.check r 0 d { priv := 0, buf := .writes, lenOk := fun n => 128 ≤ n } = none) ∧ (d.buf = none)) (wGot (wRing 0) 0 0x0710 { wBuf 128 with buf := none }) (0) ({ wBuf 128 with buf := none }) := by
  (repeat' apply And.intro) <;> first | decide +kernel | rfl
theorem met_BufferWriteFails_11 : (fun (s : State) (r : Nat) (d : Desc) => (s.begins 0 r 0x0800 d) ∧ (s.check r 0 d { priv := 0, buf := .writes, lenOk := fun n => 64 ≤ n } = none) ∧ (d.buf = none)) (wGot (wRing 0) 0 0x0800 { wBuf 64 with buf := none }) (0) ({ wBuf 64 with buf := none }) := by
  (repeat' apply And.intro) <;> first | decide +kernel | rfl
theorem met_BufferWriteFails_12 : (fun (s : State) (r : Nat) (d : Desc) => (s.begins 0 r 0x0801 d) ∧ (s.check r 0 d { priv := 0, buf := .writes, lenOk := fun n => 1536 ≤ n } = none) ∧ (d.buf = none)) (wGot (wRing 0) 0 0x0801 { wBuf 1536 with buf := none }) (0) ({ wBuf 1536 with buf := none }) := by
  (repeat' apply And.intro) <;> first | decide +kernel | rfl
theorem met_BufferWriteFails_13 : (fun (s : State) (r : Nat) (d : Desc) => (s.begins 0 r 0x0810 d) ∧ (s.check r 0 d { priv := 0, buf := .writes, lenOk := fun n => 64 ≤ n } = none) ∧ (d.buf = none)) (wGot (wRing 0) 0 0x0810 { wBuf 64 with buf := none }) (0) ({ wBuf 64 with buf := none }) := by
  (repeat' apply And.intro) <;> first | decide +kernel | rfl
theorem met_BufferWriteFails_14 : (fun (s : State) (r : Nat) (d : Desc) => (s.begins 0 r 0x0814 d) ∧ (s.check r 0 d { priv := 0, buf := .writes, lenOk := fun n => 256 ≤ n } = none) ∧ (d.buf = none)) (wGot (wRing 0) 0 0x0814 { wBuf 256 with buf := none }) (0) ({ wBuf 256 with buf := none }) := by
  (repeat' apply And.intro) <;> first | decide +kernel | rfl
theorem met_BufferWriteFails_15 : (fun (s : State) (r : Nat) (d : Desc) => (s.begins 0 r 0x0900 d) ∧ (s.check r 0 d { priv := 0, buf := .writes, lenOk := fun n => 64 ≤ n } = none) ∧ (d.buf = none)) (wGot (wRing 0) 0 0x0900 { wBuf 64 with buf := none }) (0) ({ wBuf 64 with buf := none }) := by
  (repeat' apply And.intro) <;> first | decide +kernel | rfl
theorem met_BufferWriteFails_16 : (fun (s : State) (r : Nat) (d : Desc) => (s.begins 0 r 0x0A00 d) ∧ (s.check r 0 d { priv := 0, buf := .writes, lenOk := (256 ≤ ·) } = none) ∧ (d.buf = none)) (wGot (wRing 0) 0 0x0A00 { wBuf 256 with buf := none }) (0) ({ wBuf 256 with buf := none }) := by
  (repeat' apply And.intro) <;> first | decide +kernel | rfl
theorem met_BufferWriteFails_17 : (fun (s : State) (r : Nat) (d : Desc) => (s.begins 0 r 0x0B00 d) ∧ (s.check r 0 d { priv := 0, buf := .writes, lenOk := fun n => decide (64 ≤ n) } = none) ∧ (d.buf = none)) (wGot (wRing 0) 0 0x0B00 { wBuf 64 with buf := none }) (0) ({ wBuf 64 with buf := none }) := by
  (repeat' apply And.intro) <;> first | decide +kernel | rfl
theorem met_BufferWriteFails_18 : (fun (s : State) (r : Nat) (d : Desc) => (s.begins 0 r 0x0D00 d) ∧ (s.check r 0 d { priv := 0, buf := .writes, lenOk := fun n => decide (64 ≤ n) } = none) ∧ (d.buf = none)) (wGot (wRing 0) 0 0x0D00 { wBuf 64 with buf := none }) (0) ({ wBuf 64 with buf := none }) := by
  (repeat' apply And.intro) <;> first | decide +kernel | rfl
theorem met_BufferWriteFails_19 : (fun (s : State) (r : Nat) (d : Desc) => (s.begins 0 r 0x0E00 d) ∧ (s.check r 0 d { priv := 0, buf := .writes, lenOk := fun n => decide (64 ≤ n) } = none) ∧ (d.buf = none)) (wGot (wRing 0) 0 0x0E00 { wBuf 64 with buf := none }) (0) ({ wBuf 64 with buf := none }) := by
  (repeat' apply And.intro) <;> first | decide +kernel | rfl
theorem met_BufferWriteFails_20 : (fun (s : State) (r : Nat) (d : Desc) => (s.begins 0 r 0x0E04 d) ∧ (s.check r 0 d { priv := 0, buf := .writes, lenOk := fun n => decide (64 ≤ n) } = none) ∧ (d.buf = none)) (wGot (wRing 0) 0 0x0E04 { wBuf 64 with buf := none }) (0) ({ wBuf 64 with buf := none }) := by
  (repeat' apply And.intro) <;> first | decide +kernel | rfl
theorem met_UnnamedRegisters_1 : (fun (s : State) (off : Nat) => (s.barUp = true) ∧ (s.stage ≠ 0xE) ∧ (off < 0x200000) ∧ (off % 4 = 0) ∧ (regRow off = none)) ({ State.reset with glb := { State.reset.glb with powered := true, hostUp := true } }) (0x3FFC) := by
  (repeat' apply And.intro) <;> first | decide +kernel | rfl
theorem met_UnnamedRegisters_2 : (fun (s : State) (off v : Nat) => (s.barUp = true) ∧ (s.stage ≠ 0xE) ∧ (s.glb.hostUp = true) ∧ (off < 0x200000) ∧ (off % 4 = 0) ∧ (regRow off = none)) ({ State.reset with glb := { State.reset.glb with powered := true, hostUp := true } }) (0x3FFC) (77) := by
  (repeat' apply And.intro) <;> first | decide +kernel | rfl
theorem met_HaltDecision_1 : (fun (s : State) (n : Nat) => (s.halted = false)) (wSet [(Reg.CHS_STAT_TOKEN, 1), (Reg.GLB_BOOTSTAT_STAGE, 8)]) (0x33) := by
  (repeat' apply And.intro) <;> first | decide +kernel | rfl
theorem met_HaltDecision_2 : (fun (s : State) (n : Nat) => (s.halted = false) ∧ (s.on Reg.ERA_HALT_VALID = false)) (wSet [(Reg.CHS_STAT_TOKEN, 1), (Reg.GLB_BOOTSTAT_STAGE, 8)]) (0x33) := by
  (repeat' apply And.intro) <;> first | decide +kernel | rfl
theorem met_HaltDecision_3 : (fun (s : State) (n : Nat) => (s.halted = false) ∧ (s.on Reg.ERA_HALT_VALID = true)) (wSet [(Reg.ERA_HALT_VALID, 1), (Reg.ERA_HALT_FIRST, 5)]) (0x33) := by
  (repeat' apply And.intro) <;> first | decide +kernel | rfl
theorem met_HaltDecision_4 : (fun (s : State) (n : Nat) => (s.halted = true)) (wSet [(Reg.ERA_STAT_HALTED, 1)]) (0x33) := by
  (repeat' apply And.intro) <;> first | decide +kernel | rfl
theorem met_RaiseRecorded_2 : (fun (s : State) (n esc param : Nat) (inj : Bool) => (s.col.finalCommit = 0)) (State.reset) (0x33) (2) (7) (false) := by
  (repeat' apply And.intro) <;> first | decide +kernel | rfl
theorem met_CompletionLayout_1 : (fun (c : Cpl) (seat : Nat) (ph : Bool) => (c.opcode < 2 ^ 16) ∧ (seat < 2) ∧ (c.flags = 0 ∨ c.flags = 2 ∨ c.flags = 4 ∨ c.flags = 6) ∧ (c.status < 2 ^ 8) ∧ (c.tag < 2 ^ 32) ∧ (c.ring < 2 ^ 14) ∧ (c.index < 2 ^ 16) ∧ (c.count < 2 ^ 32) ∧ (c.done < 2 ^ 32) ∧ (c.result < 2 ^ 32) ∧ (c.time < 2 ^ 64)) ({ opcode := 0x0203, flags := 4, status := 0x11, tag := 0x12345678, ring := 16383, index := 65535, count := 1, done := 64, result := 7, time := 0x123456789ABCDEF0 }) (1) (true) := by
  (repeat' apply And.intro) <;> first | decide +kernel | rfl
theorem met_PowerSignals_3 : (fun (s : State) => (s.glb.powered = false)) (State.reset) := by
  (repeat' apply And.intro) <;> first | decide +kernel | rfl
theorem met_PowerSignals_4 : (fun (s : State) => (s.glb.powered = true) ∧ (s.glb.lossStep = 0)) ({ State.reset with glb := { State.reset.glb with powered := true } }) := by
  (repeat' apply And.intro) <;> first | decide +kernel | rfl
theorem met_PowerSignals_5 : (fun (s : State) (v w : Nat) => (s.glb.powered = true) ∧ (s.glb.lossStep = 0)) ({ State.reset with glb := { State.reset.glb with powered := true } }) (4300) (5000) := by
  (repeat' apply And.intro) <;> first | decide +kernel | rfl
theorem met_PowerSignals_9 : (fun (s : State) (v : Nat) => (s.glb.powered = true)) ({ State.reset with glb := { State.reset.glb with powered := true } }) (4000) := by
  (repeat' apply And.intro) <;> first | decide +kernel | rfl
theorem met_PowerSignals_10 : (fun (s : State) => (s.glb.lossStep = 1)) ({ State.reset with glb := { State.reset.glb with lossStep := 1 } }) := by
  (repeat' apply And.intro) <;> first | decide +kernel | rfl
theorem met_PowerSignals_11 : (fun (s : State) => (s.glb.lossStep = 2)) ({ State.reset with glb := { State.reset.glb with lossStep := 2 } }) := by
  (repeat' apply And.intro) <;> first | decide +kernel | rfl
theorem met_PowerSignals_12 : (fun (s : State) => (s.glb.lossStep = 3)) ({ State.reset with glb := { State.reset.glb with lossStep := 3 } }) := by
  (repeat' apply And.intro) <;> first | decide +kernel | rfl
theorem met_PowerSignals_13 : (fun (s : State) => (s.glb.lossStep = 4) ∧ (s.col.finalCommit = 2)) ({ State.reset with glb := { State.reset.glb with lossStep := 4 }, col := { State.reset.col with finalCommit := 2 } }) := by
  (repeat' apply And.intro) <;> first | decide +kernel | rfl
theorem met_PowerSignals_15 : (fun (s : State) => (s.glb.lossStep ≠ 0) ∧ (s.col.finalCommit ≠ 2)) ({ State.reset with glb := { State.reset.glb with lossStep := 4 } }) := by
  (repeat' apply And.intro) <;> first | decide +kernel | rfl
theorem met_PowerSignals_16 : (fun (s : State) => (4 ≤ s.glb.lossStep ∧ s.col.finalCommit = 2 ∨ s.glb.exhausted = true) ∧ (s.glb.inputBack = false)) ({ State.reset with glb := { State.reset.glb with lossStep := 5 }, col := { State.reset.col with finalCommit := 2 } }) := by
  (repeat' apply And.intro) <;> first | decide +kernel | rfl
theorem met_MeasurementSignals_2 : (fun (s : State) (c : Nat) (first : Bool) => (c ≠ 7)) (State.reset) (4) (true) := by
  (repeat' apply And.intro) <;> first | decide +kernel | rfl
theorem met_MeasurementSignals_3 : (fun (s : State) (die : Nat) (t : Int) => (5 ≤ die)) (State.reset) (5) (1101) := by
  (repeat' apply And.intro) <;> first | decide +kernel | rfl
theorem met_MeasurementSignals_4 : (fun (s : State) (die : Nat) (t : Int) => (die < 5) ∧ (950 ≤ t)) (State.reset) (0) (1150) := by
  (repeat' apply And.intro) <;> first | decide +kernel | rfl
theorem met_MeasurementSignals_6 : (fun (s : State) (i : Nat) => (s.watch.coolBad.contains i = false) ∧ ((s.coolItem i).1 ≠ 0)) (wSet [(Reg.CHS_COOL_CTL_FLOWMIN, 5)]) (2) := by
  (repeat' apply And.intro) <;> first | decide +kernel | rfl
theorem met_MeasurementSignals_7 : (fun (s : State) (i : Nat) => (s.watch.coolBad.contains i = true)) ({ State.reset with watch := { State.reset.watch with coolBad := [2] } }) (2) := by
  (repeat' apply And.intro) <;> first | decide +kernel | rfl
theorem met_MeasurementSignals_8 : (fun (s : State) (t : Nat) => (s.chs.rmp.start = some t)) ({ wSet [(Reg.CHS_TIME, 30000000000)] with chs := { State.reset.chs with rmp := { State.reset.chs.rmp with start := some 0 } } }) (0) := by
  (repeat' apply And.intro) <;> first | decide +kernel | rfl
theorem met_MeasurementSignals_9 : (fun (s : State) (f : List Byte) => (s.glb.chaseUp = true) ∧ (rd f 0 1 ≠ 0x5A ∨ crc32 (f.take 16) ≠ rd f 16 4)) ({ State.reset with glb := { State.reset.glb with chaseUp := true } }) ([0x5A]) := by
  (repeat' apply And.intro) <;> first | decide +kernel | rfl
theorem met_MeasurementSignals_10 : (fun (s : State) (f : List Byte) => (s.glb.chaseUp = true) ∧ (rd f 0 1 = 0x5A) ∧ (crc32 (f.take 16) = rd f 16 4) ∧ (s.glb.meterSeq = none)) ({ State.reset with glb := { State.reset.glb with chaseUp := true } }) (([0x5A] ++ zeros 15 ++ le 4 (crc32 ([0x5A] ++ zeros 15)))) := by
  (repeat' apply And.intro) <;> first | decide +kernel | rfl
theorem met_MeasurementSignals_11 : (fun (s : State) => (s.glb.chaseUp = true)) ({ State.reset with glb := { State.reset.glb with chaseUp := true } }) := by
  (repeat' apply And.intro) <;> first | decide +kernel | rfl
theorem met_MeasurementSignals_12 : (fun (s : State) => (s.tdoOn = true)) ({ State.reset with glb := { State.reset.glb with powered := true } }) := by
  (repeat' apply And.intro) <;> first | decide +kernel | rfl
theorem met_MeasurementSignals_13 : (fun (s : State) (b : Bool) => (s.tdoOn = true)) ({ State.reset with glb := { State.reset.glb with powered := true } }) (true) := by
  (repeat' apply And.intro) <;> first | decide +kernel | rfl
theorem met_MeasurementSignals_14 : (fun (s : State) => (s.tdoOn = false)) (wSet [(Reg.GLB_ISL_RST_ISL, 4096)] ({ State.reset with glb := { State.reset.glb with powered := true } })) := by
  (repeat' apply And.intro) <;> first | decide +kernel | rfl
theorem met_MeasurementSignals_15 : (fun (s : State) (b : Bool) => (s.tdoOn = false) ∧ (s.glb.powered = true)) (wSet [(Reg.GLB_ISL_RST_ISL, 4096)] ({ State.reset with glb := { State.reset.glb with powered := true } })) (true) := by
  (repeat' apply And.intro) <;> first | decide +kernel | rfl
theorem met_StartStages_1 : (fun (s : State) (a p i : Nat) => (s.glb.powered = true) ∧ (bit (s.get Reg.GLB_ISL_RST_ISL) 12 = true) ∧ (s.col.resetWait = none) ∧ (s.glb.resetCode ≠ 1)) ({ wSet [(Reg.GLB_ISL_RST_ISL, 0x1FFF)] with glb := { State.reset.glb with powered := true, resetCode := 4 } }) (1) (5) (0) := by
  (repeat' apply And.intro) <;> first | decide +kernel | rfl
theorem met_StartStages_2 : (fun (s : State) (a p i : Nat) => (a ≠ s.get Reg.GLB_SEAT_LSEAT)) (State.reset) (1) (0) (0) := by
  (repeat' apply And.intro) <;> first | decide +kernel | rfl
theorem met_StartStages_4 : (fun (s : State) => (s.glb.powered = true) ∧ (s.glb.uart = none)) ({ State.reset with glb := { State.reset.glb with powered := true } }) := by
  (repeat' apply And.intro) <;> first | decide +kernel | rfl
theorem met_StartStages_5 : (fun (s : State) => (s.glb.uart = none) ∧ (s.glb.chaseUp = false) ∧ (s.bootAt 3 = true)) ({ wSet [(Reg.GLB_BOOTSTAT_STAGE, 3)] with glb := { State.reset.glb with powered := true } }) := by
  (repeat' apply And.intro) <;> first | decide +kernel | rfl
theorem met_StartStages_6 : (fun (s : State) => (s.bootAt 0 = true) ∧ (s.glb.chaseUp = false) ∧ (s.glb.flyNext = false)) ({ wSet [(Reg.GLB_BOOTSTAT_STAGE, 0)] with glb := { State.reset.glb with powered := true } }) := by
  (repeat' apply And.intro) <;> first | decide +kernel | rfl
theorem met_StartStages_7_1 : (fun (s : State) (pages : List (Nat × Nat × Bool)) => (s.bootAt 1 = true) ∧ (s.glb.chaseUp = false)) ({ wSet [(Reg.GLB_BOOTSTAT_STAGE, 1)] with glb := { State.reset.glb with powered := true } }) ([]) := by
  (repeat' apply And.intro) <;> first | decide +kernel | rfl
theorem met_StartStages_7_2 : (fun (s : State) (pages : List (Nat × Nat × Bool)) => (s.bootAt 1 = true) ∧ (s.glb.chaseUp = false)) ({ wSet [(Reg.GLB_BOOTSTAT_STAGE, 1)] with glb := { State.reset.glb with powered := true } }) ([(2, 0, true), (0, 1, true)]) := by
  (repeat' apply And.intro) <;> first | decide +kernel | rfl
theorem met_StartStages_8 : (fun (s : State) => (s.bootAt 2 = true) ∧ (s.glb.chaseUp = false) ∧ (s.glb.flyCond = 0)) ({ wSet [(Reg.GLB_BOOTSTAT_STAGE, 2)] with glb := { State.reset.glb with powered := true } }) := by
  (repeat' apply And.intro) <;> first | decide +kernel | rfl
theorem met_StartStages_9 : (fun (s : State) => (s.bootAt 3 = true) ∧ (s.glb.chaseUp = false) ∧ (s.glb.mgmtDown = false) ∧ (s.glb.uart = some true)) ({ wSet [(Reg.GLB_BOOTSTAT_STAGE, 3)] with glb := { State.reset.glb with powered := true, uart := some true } }) := by
  (repeat' apply And.intro) <;> first | decide +kernel | rfl
theorem met_StartStages_10 : (fun (s : State) => (s.bootAt 4 = true) ∧ (s.glb.hostUp = false) ∧ (s.hst.linkUp = true) ∧ (s.hst.perst = false)) ({ wSet [(Reg.GLB_BOOTSTAT_STAGE, 4)] with glb := { State.reset.glb with powered := true }, hst := { State.reset.hst with linkUp := true } }) := by
  (repeat' apply And.intro) <;> first | decide +kernel | rfl
theorem met_StartStages_11 : (fun (s : State) => (s.glb.chaseUp = true) ∧ (s.halted = false) ∧ (6 ≤ s.stage ∧ s.stage ≤ 8) ∧ (s.glb.lossStep = 0) ∧ (s.glb.hostSeen = false) ∧ (s.glb.hostUp = false) ∧ (s.hst.linkUp = true) ∧ (s.hst.perst = false)) ({ wSet [(Reg.GLB_BOOTSTAT_STAGE, 6)] with glb := { State.reset.glb with powered := true, chaseUp := true }, hst := { State.reset.hst with linkUp := true } }) := by
  (repeat' apply And.intro) <;> first | decide +kernel | rfl
theorem met_StartStages_12 : (fun (s : State) (ms : Nat) => (s.stage = 4 ∨ s.stage = 5) ∧ (s.waitCond % 32 = 31) ∧ (s.glb.reported = false)) ({ wSet [(Reg.GLB_BOOTSTAT_STAGE, 5), (Reg.GLB_SEAT_PAROK, 1), (Reg.GLB_BOOTSTAT_RES, 1), (Reg.STL_LMAP, 0), (Reg.STL_MRSET, 0)] with glb := { State.reset.glb with hostUp := true, chaseUp := true, meterOk := true } }) (900) := by
  (repeat' apply And.intro) <;> first | decide +kernel | rfl
theorem met_StartStages_13 : (fun (s : State) => (s.bootAt 1 = true) ∧ (s.glb.chaseUp = false)) ({ wSet [(Reg.GLB_BOOTSTAT_STAGE, 1)] with glb := { State.reset.glb with powered := true } }) := by
  (repeat' apply And.intro) <;> first | decide +kernel | rfl
theorem met_StartStages_14 : (fun (s : State) => (s.stage = 6) ∧ (s.glb.permit = true)) ({ wSet [(Reg.GLB_BOOTSTAT_STAGE, 6), (Reg.GLB_SEAT_PAROK, 1), (Reg.CHS_TIME, 300000000)] with glb := { State.reset.glb with permit := true } }) := by
  (repeat' apply And.intro) <;> first | decide +kernel | rfl
theorem met_StartStages_15 : (fun (s : State) => (s.stage = 6)) (wSet [(Reg.GLB_BOOTSTAT_STAGE, 6)]) := by
  (repeat' apply And.intro) <;> first | decide +kernel | rfl
theorem met_StartStages_16 : (fun (s : State) (t : Nat) (us : Nat) => (s.glb.powered = true) ∧ (s.glb.lossStep = 0) ∧ (3 ≤ s.stage) ∧ (s.stage ≠ 0xE) ∧ (s.glb.mrStep[t]? = some 5) ∧ (s.prs.fwStep = false)) ({ wSet [(Reg.GLB_BOOTSTAT_STAGE, 3)] with glb := { State.reset.glb with powered := true, mrStep := [5, 0, 0, 0] } }) (0) (77) := by
  (repeat' apply And.intro) <;> first | decide +kernel | rfl
theorem met_StartStages_17_1 : (fun (s : State) (formes model : List (Nat × List Byte)) => (s.peerToken = false ∨ s.on Reg.GLB_BOOTSTAT_PRESS = true ∧ (s.standby = false ∨ s.on Reg.ROS_STAT_PDIV = false ∧ s.ros.modelAsk = false))) (State.reset) ([]) ([]) := by
  (repeat' apply And.intro) <;> first | decide +kernel | rfl
theorem met_StartStages_17_2 : (fun (s : State) (formes model : List (Nat × List Byte)) => (s.peerToken = false ∨ s.on Reg.GLB_BOOTSTAT_PRESS = true ∧ (s.standby = false ∨ s.on Reg.ROS_STAT_PDIV = false ∧ s.ros.modelAsk = false))) (wSet [(Reg.GLB_BOOTSTAT_PRESS, 1), (Reg.ROS_STAT_PDIV, 1)] ({ State.reset with ros := { State.reset.ros with hb := some { token := true, stage := 8, flags := 0, epoch := 0, chg := 0, lastCp := 0, sameSeat := false } } })) ([]) ([]) := by
  (repeat' apply And.intro) <;> first | decide +kernel | rfl
theorem met_StartStages_18 : (fun (s : State) (formes model : List (Nat × List Byte)) => (s.peerToken = true) ∧ (s.on Reg.GLB_BOOTSTAT_PRESS = true) ∧ (s.standby = true) ∧ (s.on Reg.ROS_STAT_PDIV = true ∨ s.ros.modelAsk = true)) ({ wSet [(Reg.GLB_BOOTSTAT_PRESS, 1), (Reg.GLB_BOOTSTAT_STAGE, 7), (Reg.ROS_STAT_PDIV, 1)] with ros := { State.reset.ros with hb := some { token := true, stage := 8, flags := 0, epoch := 0, chg := 0, lastCp := 0, sameSeat := false } } }) ([]) ([]) := by
  (repeat' apply And.intro) <;> first | decide +kernel | rfl
theorem met_StartStages_19_1 : (fun (s : State) (formes model : List (Nat × List Byte)) => (s.peerToken = true) ∧ (s.on Reg.GLB_BOOTSTAT_PRESS = false)) ({ State.reset with ros := { State.reset.ros with hb := some { token := true, stage := 8, flags := 0, epoch := 0, chg := 0, lastCp := 0, sameSeat := false } } }) ([]) ([]) := by
  (repeat' apply And.intro) <;> first | decide +kernel | rfl
theorem met_StartStages_19_2 : (fun (s : State) (formes model : List (Nat × List Byte)) => (s.peerToken = true) ∧ (s.on Reg.GLB_BOOTSTAT_PRESS = false)) ({ State.reset with ros := { State.reset.ros with hb := some { token := true, stage := 8, flags := 0, epoch := 0, chg := 0, lastCp := 0, sameSeat := false } }, prs := { State.reset.prs with slots := [(0, { forme := some (wForme 0) })] } }) ([]) ([]) := by
  (repeat' apply And.intro) <;> first | decide +kernel | rfl
theorem met_StartStages_20 : (fun (s : State) (r : Nat) => ((s.bring r).retry.isSome = true) ∧ ((s.bring r).enum = 0)) ({ State.reset with bup := { State.reset.bup with rings := [(1, { retry := some 3 })] } }) (1) := by
  (repeat' apply And.intro) <;> first | decide +kernel | rfl
theorem met_StartStages_21 : (fun (s : State) (r : Nat) => (s.masters r = true)) ({ wSet [(Reg.BUP_STAT_MASTER, 2)] with bup := { State.reset.bup with rings := [(1, { retry := some 3 })] } }) (1) := by
  (repeat' apply And.intro) <;> first | decide +kernel | rfl
theorem met_ResetSignals_2_1 : (fun (s : State) => (s.hst.perst = true) ∧ (s.glb.powered = true) ∧ (s.glb.lossStep < 2)) ({ wSet [(Reg.GLB_BOOTSTAT_STAGE, 5)] with glb := { State.reset.glb with powered := true, hostSeen := true }, hst := { State.reset.hst with perst := true } }) := by
  (repeat' apply And.intro) <;> first | decide +kernel | rfl
theorem met_ResetSignals_2_2 : (fun (s : State) => (s.hst.perst = true) ∧ (s.glb.powered = true) ∧ (s.glb.lossStep < 2)) ({ wSet [(Reg.GLB_BOOTSTAT_STAGE, 4)] with glb := { State.reset.glb with powered := true }, hst := { State.reset.hst with perst := true } }) := by
  (repeat' apply And.intro) <;> first | decide +kernel | rfl
theorem met_ResetSignals_3 : (fun (s : State) => (s.hst.perst = true) ∧ (s.glb.powered = false ∨ 2 ≤ s.glb.lossStep)) ({ State.reset with hst := { State.reset.hst with perst := true } }) := by
  (repeat' apply And.intro) <;> first | decide +kernel | rfl
theorem met_ResetSignals_5 : (fun (s : State) (rate width : Nat) => (s.glb.powered = false ∨ s.hst.perst = true ∨ 2 ≤ s.glb.lossStep)) ({ State.reset with glb := { State.reset.glb with powered := true, lossStep := 2 } }) (5) (8) := by
  (repeat' apply And.intro) <;> first | decide +kernel | rfl
theorem met_ResetSignals_6 : (fun (s : State) (rate width : Nat) => (s.glb.powered = true) ∧ (s.hst.perst = false) ∧ (bit (s.get Reg.GLB_ISL_RST_ISL) 12 = false) ∧ (s.glb.lossStep < 2)) ({ State.reset with glb := { State.reset.glb with powered := true } }) (5) (8) := by
  (repeat' apply And.intro) <;> first | decide +kernel | rfl
theorem met_ResetSignals_7 : (fun (s : State) (off : Nat) (w : Option Nat) => (s.hst.linkUp = true) ∧ (s.glb.settled = false)) ({ State.reset with hst := { State.reset.hst with linkUp := true } }) (0) (none) := by
  (repeat' apply And.intro) <;> first | decide +kernel | rfl
theorem met_ResetSignals_8 : (fun (s : State) => (s.hst.linkUp = true) ∧ (s.glb.settled = true)) ({ State.reset with hst := { State.reset.hst with linkUp := true }, glb := { State.reset.glb with settled := true } }) := by
  (repeat' apply And.intro) <;> first | decide +kernel | rfl
theorem met_ResetSignals_9 : (fun (s : State) (v : Nat) => (s.hst.linkUp = true) ∧ (s.glb.settled = true)) ({ State.reset with hst := { State.reset.hst with linkUp := true }, glb := { State.reset.glb with settled := true } }) (4) := by
  (repeat' apply And.intro) <;> first | decide +kernel | rfl
theorem met_ResetSignals_10_1 : (fun (s : State) (r : Nat) (d : Desc) => (s.glb.modReset = some (r, d))) ({ State.reset with glb := { State.reset.glb with modReset := some (0, wDesc) } }) (0) (wDesc) := by
  (repeat' apply And.intro) <;> first | decide +kernel | rfl
theorem met_ResetSignals_10_2 : (fun (s : State) (r : Nat) (d : Desc) => (s.glb.modReset = some (r, d))) ({ wSet [(Reg.CHS_STAT_TOKEN, 1)] with glb := { State.reset.glb with modReset := some (0, wDesc) } }) (0) (wDesc) := by
  (repeat' apply And.intro) <;> first | decide +kernel | rfl
theorem met_ResetSignals_11 : (fun (s : State) => (s.glb.chaseUp = true) ∧ (s.glb.lossStep = 0)) ({ State.reset with glb := { State.reset.glb with chaseUp := true } }) := by
  (repeat' apply And.intro) <;> first | decide +kernel | rfl
theorem met_ResetSignals_12 : (fun (s : State) => (s.glb.mgmtDown = true) ∧ (s.stepNow = none)) ({ State.reset with glb := { State.reset.glb with mgmtDown := true } }) := by
  (repeat' apply And.intro) <;> first | decide +kernel | rfl
theorem met_ResetSignals_13 : (fun (s : State) => (s.halted = true) ∧ (0 < s.get (Reg.ERA_DINFO_COUNT 0)) ∧ (s.glb.powered = true) ∧ (s.glb.lossStep = 0) ∧ (s.col.resetWait = none)) ({ wSet [(Reg.ERA_STAT_HALTED, 1), (Reg.ERA_DINFO_COUNT 0, 1)] with glb := { State.reset.glb with powered := true } }) := by
  (repeat' apply And.intro) <;> first | decide +kernel | rfl
theorem met_ResetSignals_14_1 : (fun (s : State) => (s.col.committing = true) ∧ (s.col.finalCommit = 0)) ({ State.reset with col := { State.reset.col with committing := true } }) := by
  (repeat' apply And.intro) <;> first | decide +kernel | rfl
theorem met_ResetSignals_14_2 : (fun (s : State) => (s.col.committing = true) ∧ (s.col.finalCommit = 0)) ({ State.reset with col := { State.reset.col with committing := true, resetWait := some 4 } }) := by
  (repeat' apply And.intro) <;> first | decide +kernel | rfl
theorem met_HostCommands_1 : (fun (s : State) (r : Nat) (d : Desc) => (s.serves 0 r 0x0000 d { priv := 0 })) (wGot (wRing 0) 0 0x0000 wDesc) (0) (wDesc) := by
  (repeat' apply And.intro) <;> first | decide +kernel | rfl
theorem met_HostCommands_2 : (fun (s : State) (r : Nat) (d : Desc) => (s.serves 0 r 0x0100 d { priv := 0 }) ∧ (bits d.p0 0 14 ≠ r) ∧ ((s.ring (bits d.p0 0 14)).nFetched ≤ (s.ring (bits d.p0 0 14)).nDone)) (wGot (wRing 0) 0 0x0100 { wDesc with p0 := 5 }) (0) ({ wDesc with p0 := 5 }) := by
  (repeat' apply And.intro) <;> first | decide +kernel | rfl
theorem met_HostCommands_3 : (fun (s : State) (r : Nat) (d : Desc) => (s.serves 0 r 0x0100 d { priv := 0 }) ∧ (bits d.p0 0 14 ≠ r) ∧ ((s.ring (bits d.p0 0 14)).nDone < (s.ring (bits d.p0 0 14)).nFetched)) (wGot { wRing 0 with rings := [(5, { nFetched := 2, nDone := 1 })] } 0 0x0100 { wDesc with p0 := 5 }) (0) ({ wDesc with p0 := 5 }) := by
  (repeat' apply And.intro) <;> first | decide +kernel | rfl
theorem met_HostCommands_4 : (fun (s : State) (r : Nat) (d : Desc) => (s.serves 0 r 0x0101 d { priv := 0, buf := .writes, lenOk := fun n => decide (256 ≤ n) })) (wGot (wRing 0) 0 0x0101 (wBuf 256)) (0) (wBuf 256) := by
  (repeat' apply And.intro) <;> first | decide +kernel | rfl
theorem met_HostCommands_5_1 : (fun (s : State) (r : Nat) (d : Desc) => (s.serves 0 r 0x0102 d { priv := 1 })) (wGot (wRing 0) 0 0x0102 wDesc) (0) (wDesc) := by
  (repeat' apply And.intro) <;> first | decide +kernel | rfl
theorem met_HostCommands_5_2 : (fun (s : State) (r : Nat) (d : Desc) => (s.serves 0 r 0x0102 d { priv := 1 })) (wGot (wSet [(Reg.GLB_START_MODE, 1)] (wRing 0)) 0 0x0102 wDesc) (0) (wDesc) := by
  (repeat' apply And.intro) <;> first | decide +kernel | rfl
theorem met_HostCommands_6 : (fun (s : State) (r : Nat) (d : Desc) => (s.serves 0 r 0x0103 d { priv := 0, buf := .writes, lenOk := fun n => decide (64 ≤ n) })) (wGot (wRing 0) 0 0x0103 (wBuf 64)) (0) (wBuf 64) := by
  (repeat' apply And.intro) <;> first | decide +kernel | rfl
theorem met_HostCommands_7 : (fun (s : State) (r : Nat) (d : Desc) (ofs : Int) => (s.serves 0 r 0x0104 d { priv := 1 }) ∧ (s.hst.ptmEnable = true)) (wGot { wRing 0 with hst := { State.reset.hst with ptmEnable := true } } 0 0x0104 wDesc) (0) (wDesc) (-5) := by
  (repeat' apply And.intro) <;> first | decide +kernel | rfl
theorem met_HostCommands_8 : (fun (s : State) (r : Nat) (d : Desc) (ofs : Int) => (s.serves 0 r 0x0104 d { priv := 1 })) (wGot (wRing 0) 0 0x0104 wDesc) (0) (wDesc) (5) := by
  (repeat' apply And.intro) <;> first | decide +kernel | rfl
theorem met_HostCommands_9 : (fun (s : State) (r : Nat) (d : Desc) => (s.serves 0 r 0x0105 d { priv := 3 }) ∧ (s.col.resetWait = none) ∧ (s.token = false)) (wGot (wRing 0) 0 0x0105 wDesc) (0) (wDesc) := by
  (repeat' apply And.intro) <;> first | decide +kernel | rfl
theorem met_HostCommands_10 : (fun (s : State) (r : Nat) (d : Desc) => (s.serves 0 r 0x0105 d { priv := 3 }) ∧ (s.col.resetWait = none) ∧ (s.token = true) ∧ (bit d.p0 0 = true)) (wGot (wSet [(Reg.CHS_STAT_TOKEN, 1)] (wRing 0)) 0 0x0105 { wDesc with p0 := 1 }) (0) ({ wDesc with p0 := 1 }) := by
  (repeat' apply And.intro) <;> first | decide +kernel | rfl
theorem met_HostCommands_11 : (fun (s : State) (r : Nat) (d : Desc) => (s.serves 0 r 0x0105 d { priv := 3 }) ∧ (s.col.resetWait = none) ∧ (s.token = true) ∧ (bit d.p0 0 = false) ∧ (s.on Reg.ROS_STAT_PREADY = false)) (wGot (wSet [(Reg.CHS_STAT_TOKEN, 1)] (wRing 0)) 0 0x0105 wDesc) (0) (wDesc) := by
  (repeat' apply And.intro) <;> first | decide +kernel | rfl
theorem met_RingSignals_1 : (fun (s : State) (r : Nat) => let u := s.logC regOrigin 1 0 0 1 0x14 0 1
    (s.hostOpen) ∧ (u.on (Reg.HST_RSTAT_EN r) = false) ∧ (u.enableCheck r = none)) (wOpen (wSet [(Reg.HST_RCFG_SIZE 2, 4), (Reg.HST_RCFG_CLASS 2, 4), (Reg.HST_RBASE 2, 4096)])) (2) := by
  (repeat' apply And.intro) <;> first | decide +kernel | rfl
theorem met_RingSignals_2 : (fun (s : State) (r e : Nat) (b : Bool) => let u := s.logC regOrigin 1 0 0 1 0x14 0 1
    (s.hostOpen) ∧ (u.on (Reg.HST_RSTAT_EN r) = false) ∧ (u.enableCheck r = some e)) (wOpen State.reset) (2) (1) (false) := by
  (repeat' apply And.intro) <;> first | decide +kernel | rfl
theorem met_RingSignals_3 : (fun (s : State) (r : Nat) => let u := s.logC regOrigin 1 0 0 1 0x14 0 1
    (s.hostOpen) ∧ (u.on (Reg.HST_RSTAT_EN r) = true)) (wOpen (wSet [(Reg.HST_RCFG_SHADOW 0, 1), (Reg.GLB_BOOTSTAT_STAGE, 7)] (wRing 2))) (0) := by
  (repeat' apply And.intro) <;> first | decide +kernel | rfl
theorem met_RingSignals_4 : (fun (s : State) (r : Nat) => let u := s.logC regOrigin 1 0 0 1 0x14 0 2
    (s.hostOpen) ∧ (u.on (Reg.HST_RSTAT_EN r) = true) ∧ (u.get (Reg.HST_RCFG_CLASS r) ≠ 1)) (wOpen (wRing 0)) (0) := by
  (repeat' apply And.intro) <;> first | decide +kernel | rfl
theorem met_RingSignals_5 : (fun (s : State) (r v : Nat) => (s.hostOpen) ∧ (v < 65536) ∧ (s.on (Reg.HST_RSTAT_EN r) = true) ∧ (s.on (Reg.HST_RSTAT_ERR r) = false) ∧ (hostFilled (s.get (Reg.HST_RCFG_CLASS r)) = true) ∧ ((s.count 5 3 1).served (s.get (Reg.HST_RCFG_CLASS r)) = true)) (wOpen (wSet [(Reg.HST_RCFG_SIZE 0, 4)] (wRing 0))) (0) (3) := by
  (repeat' apply And.intro) <;> first | decide +kernel | rfl
theorem met_RingSignals_6 : (fun (s : State) (r v : Nat) => (s.hostOpen) ∧ (v < 65536) ∧ (s.on (Reg.HST_RSTAT_EN r) = true) ∧ (s.on (Reg.HST_RSTAT_ERR r) = false) ∧ (hostFilled (s.get (Reg.HST_RCFG_CLASS r)) = false) ∧ ((s.count 5 3 1).served (s.get (Reg.HST_RCFG_CLASS r)) = true)) (wOpen (wSet [(Reg.HST_RCFG_SIZE 0, 4)] (wRing 4))) (0) (3) := by
  (repeat' apply And.intro) <;> first | decide +kernel | rfl
theorem met_RingSignals_7 : (fun (s : State) (r v : Nat) => (s.hostOpen) ∧ (v < 65536) ∧ (s.on (Reg.HST_RSTAT_EN r) = true) ∧ (s.on (Reg.HST_RSTAT_ERR r) = false) ∧ ((s.count 5 3 1).served (s.get (Reg.HST_RCFG_CLASS r)) = false)) (wOpen (wSet [(Reg.HST_RCFG_SIZE 0, 4)] (wRing 6))) (0) (3) := by
  (repeat' apply And.intro) <;> first | decide +kernel | rfl
theorem met_RingSignals_8 : (fun (s : State) (r v : Nat) => (s.hostOpen)) (wOpen State.reset) (0) (0) := by
  (repeat' apply And.intro) <;> first | decide +kernel | rfl
theorem met_RingSignals_9 : (fun (s : State) (r v : Nat) => (s.hostOpen) ∧ (v < 65536) ∧ (s.on (Reg.HST_RSTAT_EN r) = false)) (wOpen State.reset) (0) (0) := by
  (repeat' apply And.intro) <;> first | decide +kernel | rfl
theorem met_RingSignals_10 : (fun (s : State) (r v : Nat) (b m : Bool) => (s.barUp = true) ∧ (s.stage ≠ 0xE) ∧ (s.glb.hostUp = false)) ({ State.reset with glb := { State.reset.glb with powered := true } }) (0) (0) (true) (true) := by
  (repeat' apply And.intro) <;> first | decide +kernel | rfl
theorem met_RingSignals_12 : (fun (s : State) (r v : Nat) => (s.get (Reg.HST_RCFG_CLASS r) ≠ 1) ∧ (v < s.ringLen r) ∧ ((s.set (Reg.HST_RPTR_HEAD r) v).get (Reg.HST_RCFG_CLASS r) ≠ 1)) (wSet [(Reg.HST_RCFG_SIZE 0, 4)] (wRing 4)) (0) (3) := by
  (repeat' apply And.intro) <;> first | decide +kernel | rfl
theorem met_RingSignals_13 : (fun (s : State) (r : Nat) (ds : List (Nat × Desc)) => (0 < s.fetchable r) ∧ (ds ≠ [])) ({ wSet [(Reg.HST_RCFG_SIZE 0, 4), (Reg.HST_RPTR_TAIL 0, 1), (Reg.HST_RSTAT_EN 1, 1), (Reg.HST_RCFG_CLASS 1, 1), (Reg.HST_RCFG_SIZE 1, 4), (Reg.HST_CTL_DMA_EN, 1)] (wRing 0) with hst := { State.reset.hst with busMaster := true, linkUp := true } }) (0) ([(0, wDesc)]) := by
  (repeat' apply And.intro) <;> first | decide +kernel | rfl
theorem met_RingSignals_14 : (fun (s : State) (r k a : Nat) => (s.ringLive r = true)) (wRing 0) (0) (1) (4096) := by
  (repeat' apply And.intro) <;> first | decide +kernel | rfl
theorem met_RingSignals_15 : (fun (s : State) (bme en : Bool) => (bme = false ∨ en = false)) (State.reset) (true) (false) := by
  (repeat' apply And.intro) <;> first | decide +kernel | rfl
theorem met_RingSignals_16 : (fun (s : State) => let u := ({ s with hst := { s.hst with busMaster := true } } : State).setB Reg.HST_CTL_DMA_EN true
    (u.dmaOn = true)) ({ State.reset with hst := { State.reset.hst with linkUp := true, dmaWait := [(4096, [1, 2])] } }) := by
  (repeat' apply And.intro) <;> first | decide +kernel | rfl
theorem met_RingSignals_17 : (fun (s : State) => let u := ({ s with hst := { s.hst with busMaster := true } } : State).setB Reg.HST_CTL_DMA_EN true
    (u.dmaOn = false)) (State.reset) := by
  (repeat' apply And.intro) <;> first | decide +kernel | rfl
theorem met_RingSignals_18 : (fun (s : State) (r : Nat) => (s.dmaOn = true) ∧ (s.on (Reg.HST_RIRQ_IEN r) = true) ∧ (s.get (Reg.HST_RIRQ_MTIME r) ≠ 0) ∧ ((s.ring r).since ≠ 0)) ({ wSet [(Reg.HST_CTL_DMA_EN, 1), (Reg.HST_RIRQ_IEN 2, 1), (Reg.HST_RIRQ_MTIME 2, 3)] with hst := { State.reset.hst with busMaster := true, linkUp := true }, rings := [(2, { since := 1 })] }) (2) := by
  (repeat' apply And.intro) <;> first | decide +kernel | rfl
theorem met_RingSignals_19 : (fun (s : State) (r : Nat) => (s.get (Reg.HST_RPTR_HEAD r) = s.get (Reg.HST_RPTR_TAIL r)) ∧ ((s.ring r).fetched = [])) ({ State.reset with rings := [(0, { batchN := 2 })] }) (0) := by
  (repeat' apply And.intro) <;> first | decide +kernel | rfl
theorem met_RingSignals_20 : (fun (s : State) (ofs : Int) => (s.hst.ptmEnable = true) ∧ (s.on Reg.HST_PTM_CTL_AUTO = true) ∧ (s.get Reg.HST_PTM_CTL_PERIOD ≠ 0)) ({ wSet [(Reg.HST_PTM_CTL_AUTO, 1), (Reg.HST_PTM_CTL_PERIOD, 1)] with hst := { State.reset.hst with ptmEnable := true } }) (7) := by
  (repeat' apply And.intro) <;> first | decide +kernel | rfl
theorem met_RingSignals_22 : (fun (s : State) (r n e : Nat) (x : Notice) => (s.grp.notices = [x]) ∧ (x.num = n) ∧ (x.entries = [(r, e)]) ∧ ((e + s.ringLen r - s.get (Reg.HST_RPTR_HEAD r)) % s.ringLen r < (s.get (Reg.HST_RPTR_TAIL r) + s.ringLen r - s.get (Reg.HST_RPTR_HEAD r)) % s.ringLen r)) ({ wSet [(Reg.HST_RCFG_SIZE 3, 4), (Reg.HST_RPTR_TAIL 3, 1)] with grp := { State.reset.grp with notices := [{ num := 9, action := 1, time := 0, entries := [(3, 0)] }] } }) (3) (9) (0) ({ num := 9, action := 1, time := 0, entries := [(3, 0)] }) := by
  (repeat' apply And.intro) <;> first | decide +kernel | rfl
theorem met_RingSignals_23 : (fun (s : State) (r : Nat) => (s.standby = true)) (wSet [(Reg.GLB_BOOTSTAT_STAGE, 7)]) (3) := by
  (repeat' apply And.intro) <;> first | decide +kernel | rfl
theorem met_RingSignals_24 : (fun (s : State) (r : Nat) (h : ShadowHold) => (s.standby = false) ∧ (s.hst.shadowHold.find? (fun g => g.ring == r) = some h)) ({ State.reset with hst := { State.reset.hst with shadowHold := [{ ring := 3, index := 0, opcode := 0x1001, desc := wDesc, status := 0, done := 0, result := 0 }] } }) (3) ({ ring := 3, index := 0, opcode := 0x1001, desc := wDesc, status := 0, done := 0, result := 0 }) := by
  (repeat' apply And.intro) <;> first | decide +kernel | rfl
theorem met_IngestCommands_1 : (fun (s : State) (r n : Nat) (d : Desc) (k : Nat) (u : State) => (s.serves 2 r 0x1001 d { priv := 1, buf := .reads, lenOk := fun n => n % 8 = 0 && decide (n ≤ 1048576), parOk := decide (d.p0 = 0 ∧ d.p1 = 0 ∧ d.p2 = 0) }) ∧ ((s.beginDesc r 0x1001 d).takeRecs r true ((bufBytes d).length / 8 + 1) 0 0 (bufBytes d) = (n, k, false, u))) (wGot (wRing 2) 0 0x1001 (wBuf 24 [1, 1, 3])) (0) (24) (wBuf 24 [1, 1, 3]) (1) (((((wGot (wRing 2) 0 0x1001 (wBuf 24 [1, 1, 3])).beginDesc 0 0x1001 (wBuf 24 [1, 1, 3])).bump Reg.HST_ING_UNB).count 5 8 1)) := by
  (repeat' apply And.intro) <;> first | decide +kernel | rfl
theorem met_IngestCommands_2 : (fun (s : State) (r n : Nat) (d : Desc) (k : Nat) (u : State) => (s.serves 3 r 0x1002 d { priv := 1, buf := .reads, lenOk := fun n => n % 8 = 0 && decide (n ≤ 1048576), parOk := decide (d.p0 = 0 ∧ d.p1 = 0 ∧ d.p2 = 0) }) ∧ ((s.beginDesc r 0x1002 d).takeRecs r false ((bufBytes d).length / 8 + 1) 0 0 (bufBytes d) = (n, k, false, u))) (wGot (wRing 3) 0 0x1002 (wBuf 32 [0x13, 1, 4, 0, 0, 0, 0, 0, 0, 0, 0, 0, 1])) (0) (32) (wBuf 32 [0x13, 1, 4, 0, 0, 0, 0, 0, 0, 0, 0, 0, 1]) (1) ((((wGot (wRing 3) 0 0x1002 (wBuf 32 [0x13, 1, 4, 0, 0, 0, 0, 0, 0, 0, 0, 0, 1])).beginDesc 0 0x1002 (wBuf 32 [0x13, 1, 4, 0, 0, 0, 0, 0, 0, 0, 0, 0, 1])).bump Reg.HST_ING_UNB)) := by
  (repeat' apply And.intro) <;> first | decide +kernel | rfl
theorem met_IngestCommands_3 : (fun (s : State) (r n : Nat) (d : Desc) (k : Nat) (u : State) => (s.serves 2 r 0x1001 d { priv := 1, buf := .reads, lenOk := fun n => n % 8 = 0 && decide (n ≤ 1048576), parOk := decide (d.p0 = 0 ∧ d.p1 = 0 ∧ d.p2 = 0) }) ∧ ((s.beginDesc r 0x1001 d).takeRecs r true ((bufBytes d).length / 8 + 1) 0 0 (bufBytes d) = (n, k, true, u))) (wGot (wRing 2) 0 0x1001 (wBuf 8)) (0) (0) (wBuf 8) (0) (((wGot (wRing 2) 0 0x1001 (wBuf 8)).beginDesc 0 0x1001 (wBuf 8))) := by
  (repeat' apply And.intro) <;> first | decide +kernel | rfl
theorem met_IngestCommands_4 : (fun (s : State) (r n seq t0 : Nat) (xs : List Nat) => (s.stream n = none)) (State.reset) (0) (7) (1) (0) ([1]) := by
  (repeat' apply And.intro) <;> first | decide +kernel | rfl
theorem met_IngestCommands_5 : (fun (s : State) (r n seq t0 : Nat) (x : Stream) => (s.stream n = some x) ∧ (x.ring = none ∨ x.ring = some r) ∧ (s.on Reg.HST_ING_STAT_UNANCH = false) ∧ (s.shelfOf t0 ≤ (s.time : Int) + 100000) ∧ ((seqCheck x.lastSeq seq).or (if x.anySeq = true then some false else none) = some false)) ({ State.reset with ing := { State.reset.ing with streams := [(5, { state := 2 })] } }) (0) (5) (1) (99000) ({ state := 2 }) := by
  (repeat' apply And.intro) <;> first | decide +kernel | rfl
theorem met_IngestCommands_6 : (fun (s : State) (r n seq t0 v : Nat) (x : Stream) => (s.stream n = some x) ∧ (x.ring = none ∨ x.ring = some r) ∧ (s.on Reg.HST_ING_STAT_UNANCH = false) ∧ (s.shelfOf t0 ≤ (s.time : Int) + 100000) ∧ (x.lastSeq = some seq) ∧ (x.anySeq = false)) ({ State.reset with ing := { State.reset.ing with streams := [(5, { state := 2, lastSeq := some 4 })] } }) (0) (5) (4) (99000) (7) ({ state := 2, lastSeq := some 4 }) := by
  (repeat' apply And.intro) <;> first | decide +kernel | rfl
theorem met_IngestCommands_7 : (fun (s : State) (r n seq t0 v : Nat) (x : Stream) (q t : Nat) => (s.stream n = some x) ∧ (x.ring = some q) ∧ (q ≠ r) ∧ (Tab.find s.ing.ringTime n = some t) ∧ (s.time < t + 2000000)) ({ State.reset with ing := { State.reset.ing with streams := [(5, { state := 2, ring := some 3 })], ringTime := [(5, 0)] } }) (0) (5) (4) (99000) (7) ({ state := 2, ring := some 3 }) (3) (0) := by
  (repeat' apply And.intro) <;> first | decide +kernel | rfl
theorem met_IngestCommands_8 : (fun (s : State) (r n seq t0 : Nat) (xs : List Nat) (x : Stream) => (s.stream n = some x) ∧ (x.ring = none ∨ x.ring = some r) ∧ (s.on Reg.HST_ING_STAT_UNANCH = false) ∧ (s.shelfOf t0 ≤ (s.time : Int) + 100000) ∧ ((seqCheck x.lastSeq seq).or (if x.anySeq = true then some false else none) = some false) ∧ (xs ≠ [])) ({ State.reset with ing := { State.reset.ing with streams := [(5, { state := 2 })] } }) (0) (5) (4) (99000) ([7, 0x8000, 8]) ({ state := 2 }) := by
  (repeat' apply And.intro) <;> first | decide +kernel | rfl
theorem met_IngestCommands_9 : (fun (s : State) (r n die tray slot cls rate : Nat) => (s.stream n = none)) (State.reset) (0) (5) (77) (1) (2) (3) (0) := by
  (repeat' apply And.intro) <;> first | decide +kernel | rfl
theorem met_IngestCommands_11 : (fun (s : State) (n : Nat) (x : Stream) (reason : Nat) => (s.stream n = some x)) ({ State.reset with ing := { State.reset.ing with streams := [(5, { state := 2 })] } }) (5) ({ state := 2 }) (1) := by
  (repeat' apply And.intro) <;> first | decide +kernel | rfl
theorem met_IngestCommands_12 : (fun (s : State) (n a reason : Nat) => ((n, a, reason) ∈ s.ing.leaves) ∧ (a ≤ s.time)) ({ State.reset with ing := { State.reset.ing with leaves := [(5, 0, 1)] } }) (5) (0) (1) := by
  (repeat' apply And.intro) <;> first | decide +kernel | rfl
theorem met_IngestCommands_13 : (fun (s : State) (r n : Nat) (e : SchedRec) (x : Stream) => (s.stream n = some x)) ({ State.reset with ing := { State.reset.ing with streams := [(5, { state := 2 })] } }) (0) (5) ({ t := 9, dur := 3, kind := 1, kclass := 2, level := 3, arg := 4 }) ({ state := 2 }) := by
  (repeat' apply And.intro) <;> first | decide +kernel | rfl
theorem met_IngestCommands_14 : (fun (s : State) (r n t : Nat) (x : Stream) => (s.stream n = some x)) ({ State.reset with ing := { State.reset.ing with streams := [(5, { state := 2 })] } }) (0) (5) (3) ({ state := 2 }) := by
  (repeat' apply And.intro) <;> first | decide +kernel | rfl
theorem met_IngestCommands_15 : (fun (s : State) (n : Nat) (x : Stream) => (s.stream n = some x) ∧ (x.state ≠ 1)) ({ State.reset with ing := { State.reset.ing with streams := [(5, { state := 2 })] } }) (5) ({ state := 2 }) := by
  (repeat' apply And.intro) <;> first | decide +kernel | rfl
theorem met_IngestCommands_16 : (fun (s : State) (n : Nat) (x : Stream) => (s.stream n = some x) ∧ (x.state = 4) ∧ (s.on Reg.HST_ING_STAT_LOST = false)) ({ State.reset with ing := { State.reset.ing with streams := [(5, { state := 4 })] } }) (5) ({ state := 4 }) := by
  (repeat' apply And.intro) <;> first | decide +kernel | rfl
theorem met_IngestCommands_17 : (fun (s : State) => (s.on Reg.HST_PTM_STAT_VALID = false)) (State.reset) := by
  (repeat' apply And.intro) <;> first | decide +kernel | rfl
theorem met_IngestCommands_18 : (fun (s : State) (t : Nat) => (t % 25 = 0) ∧ ((t + 25) * 1000 ≤ s.time)) (wSet [(Reg.CHS_TIME, 25000)]) (0) := by
  (repeat' apply And.intro) <;> first | decide +kernel | rfl
theorem met_RegisterAccess_1 : (fun (s : State) (v : Nat) => (s.barUp = true) ∧ (s.stage ≠ 0xE) ∧ (s.glb.hostUp = true)) ({ State.reset with glb := { State.reset.glb with powered := true, hostUp := true } }) (0x123456789) := by
  (repeat' apply And.intro) <;> first | decide +kernel | rfl
theorem met_RegisterAccess_2 : (fun (s : State) (off size v : Nat) => (s.barUp = true) ∧ (s.stage ≠ 0xE) ∧ (s.glb.hostUp = true) ∧ (off < 0x200000) ∧ (¬ (size = 4 ∧ off % 4 = 0)) ∧ (¬ (size = 8 ∧ off % 8 = 0))) ({ State.reset with glb := { State.reset.glb with powered := true, hostUp := true } }) (2) (4) (7) := by
  (repeat' apply And.intro) <;> first | decide +kernel | rfl
theorem met_RegisterAccess_3 : (fun (s : State) (off size v : Nat) => (s.barUp = true) ∧ (s.stage ≠ 0xE) ∧ (s.glb.hostUp = false)) ({ State.reset with glb := { State.reset.glb with powered := true } }) (4) (4) (7) := by
  (repeat' apply And.intro) <;> first | decide +kernel | rfl
theorem met_RegisterAccess_4 : (fun (s : State) (v : Nat) => (s.barUp = true) ∧ (s.stage ≠ 0xE) ∧ (s.glb.hostUp = true) ∧ (s.on (Reg.HST_RSTAT_EN (s.get Reg.HST_RSEL_RING)) = true)) ({ wSet [(Reg.HST_RSEL_RING, 7), (Reg.HST_RSTAT_EN 7, 1)] with glb := { State.reset.glb with powered := true, hostUp := true } }) (4097) := by
  (repeat' apply And.intro) <;> first | decide +kernel | rfl
theorem met_RegisterAccess_5 : (fun (s : State) (o v : Nat) => (s.hostOpen) ∧ (o < 0x100000)) (wOpen State.reset) (0x80) (3) := by
  (repeat' apply And.intro) <;> first | decide +kernel | rfl
theorem met_RegisterAccess_6 : (fun (s : State) (n k v : Nat) => (s.hostOpen) ∧ (n < 2048) ∧ (k < 4)) (wOpen State.reset) (5) (1) (3) := by
  (repeat' apply And.intro) <;> first | decide +kernel | rfl
theorem met_RegisterAccess_7 : (fun (s : State) (off size v : Nat) => (s.hostOpen) ∧ (0x400000 ≤ off)) (wOpen State.reset) (0x400010) (4) (3) := by
  (repeat' apply And.intro) <;> first | decide +kernel | rfl
theorem met_RegisterAccess_8 : (fun (s : State) (off : Nat) => (s.barUp = true) ∧ (off % 4 = 0)) ({ State.reset with glb := { State.reset.glb with powered := true, hostUp := true } }) (0x30000) := by
  (repeat' apply And.intro) <;> first | decide +kernel | rfl
theorem met_RegisterAccess_9_1 : (fun (s : State) (off size : Nat) => (s.barUp = true) ∧ ((size = 1 ∨ size = 2) ∧ off % 4 + size ≤ 4)) ({ State.reset with glb := { State.reset.glb with powered := true, hostUp := true } }) (0x30002) (2) := by
  (repeat' apply And.intro) <;> first | decide +kernel | rfl
theorem met_RegisterAccess_9_2 : (fun (s : State) (off size : Nat) => (s.barUp = true) ∧ ((size = 1 ∨ size = 2) ∧ off % 4 + size ≤ 4)) ({ State.reset with glb := { State.reset.glb with powered := true, hostUp := true } }) (0x30003) (1) := by
  (repeat' apply And.intro) <;> first | decide +kernel | rfl
theorem met_RegisterAccess_10 : (fun (s : State) (off : Nat) => (s.barUp = true) ∧ (off % 8 = 0)) ({ State.reset with glb := { State.reset.glb with powered := true, hostUp := true } }) (0x30000) := by
  (repeat' apply And.intro) <;> first | decide +kernel | rfl
theorem met_RegisterAccess_11 : (fun (s : State) (off size : Nat) => (s.barUp = true) ∧ ((size = 4 ∧ off % 4 ≠ 0 ∨ size = 8 ∧ off % 8 ≠ 0 ∨ 8 < size))) ({ State.reset with glb := { State.reset.glb with powered := true, hostUp := true } }) (0x30001) (4) := by
  (repeat' apply And.intro) <;> first | decide +kernel | rfl
theorem met_RegisterAccess_12 : (fun (s : State) (q off : Nat) => (s.barUp = true) ∧ (isLo off = true)) ({ State.reset with glb := { State.reset.glb with powered := true, hostUp := true } }) (3) (0x30010) := by
  (repeat' apply And.intro) <;> first | decide +kernel | rfl
theorem met_RegisterAccess_13 : (fun (s : State) (q off v : Nat) => (s.barUp = true) ∧ (isLo off = false) ∧ (isHi off = true) ∧ (Tab.find s.hst.holding (q * 2 ^ 20 + off) = some v)) ({ State.reset with glb := { State.reset.glb with powered := true, hostUp := true }, hst := { State.reset.hst with holding := [(3 * 2 ^ 20 + 0x30014, 55)] } }) (3) (0x30014) (55) := by
  (repeat' apply And.intro) <;> first | decide +kernel | rfl
theorem met_RegisterAccess_14 : (fun (s : State) (n c : Nat) (hi : Bool) (v : Nat) => (s.hostOpen) ∧ (n < 6) ∧ (c < setCounters n) ∧ (s.on (Reg.PRF_SEL_EN n c) = true) ∧ (s.on Reg.PRF_CTL_FRZ = false)) (wOpen (wSet [(Reg.PRF_SEL_EN 2 3, 1)])) (2) (3) (true) (9) := by
  (repeat' apply And.intro) <;> first | decide +kernel | rfl
theorem met_RegisterAccess_15 : (fun (s : State) (n c lo v : Nat) => (s.hostOpen) ∧ (n < 6) ∧ (c < setCounters n) ∧ (s.on (Reg.PRF_SEL_EN n c) = false)) (wOpen (State.reset)) (5) (3) (9) (70000) := by
  (repeat' apply And.intro) <;> first | decide +kernel | rfl
theorem met_RegisterAccess_16 : (fun (s : State) (v : Nat) => (s.barUp = true) ∧ (s.stage ≠ 0xE) ∧ (s.glb.hostUp = true)) ({ State.reset with glb := { State.reset.glb with powered := true, hostUp := true } }) (1) := by
  (repeat' apply And.intro) <;> first | decide +kernel | rfl
theorem met_RegisterAccess_17 : (fun (s : State) (v : Nat) => (s.barUp = true) ∧ (s.stage ≠ 0xE) ∧ (s.glb.hostUp = true) ∧ (bit v 0 = true) ∧ (s.token = false) ∧ (s.upd.plan = none) ∧ (bits v 16 16 = 0xF17E) ∧ (s.col.resetWait = none)) ({ State.reset with glb := { State.reset.glb with powered := true, hostUp := true } }) (0xF17E0001) := by
  (repeat' apply And.intro) <;> first | decide +kernel | rfl
theorem met_RegisterAccess_18 : (fun (s : State) (v : Nat) => (s.barUp = true) ∧ (s.stage ≠ 0xE) ∧ (s.glb.hostUp = true) ∧ (bit v 0 = true) ∧ (s.token = true)) ({ wSet [(Reg.CHS_STAT_TOKEN, 1)] with glb := { State.reset.glb with powered := true, hostUp := true } }) (1) := by
  (repeat' apply And.intro) <;> first | decide +kernel | rfl
theorem met_RegisterAccess_19 : (fun (s : State) (hi : Bool) (v : Nat) => (s.hostOpen)) (wOpen (State.reset)) (false) (5) := by
  (repeat' apply And.intro) <;> first | decide +kernel | rfl
theorem met_RegisterAccess_20 : (fun (s : State) (off v : Nat) => (s.hostOpen) ∧ (chsMask off ≠ 0) ∧ (off ≠ 0x80) ∧ (s.chs.lists.length < 16) ∧ (s.listBad { check := 0, hold := 1, chkv := 0, steps := [[{ type := 4, first := off, value := v &&& chsMask off, mask := chsMask off, last := 0 }]] } = none)) (wOpen (State.reset)) (0x38) (0) := by
  (repeat' apply And.intro) <;> first | decide +kernel | rfl
theorem met_RegisterAccess_21 : (fun (s : State) (off v : Nat) => (s.hostOpen) ∧ (chsMask off ≠ 0) ∧ (off ≠ 0x80) ∧ (16 ≤ s.chs.lists.length)) (wOpen ({ State.reset with chs := { State.reset.chs with lists := List.replicate 16 { check := 0, hold := 1, chkv := 0, steps := [], st := { no := 1, block := 3, opcode := 0, target := 0, old := 0, new := 0, ring := 0, due := 0, act := .own } } } })) (0x38) (0) := by
  (repeat' apply And.intro) <;> first | decide +kernel | rfl
theorem met_RegisterAccess_22 : (fun (s : State) (w v : Nat) => (s.hostOpen)) (wOpen (State.reset)) (0) (5) := by
  (repeat' apply And.intro) <;> first | decide +kernel | rfl
theorem met_ErrataCommands_1 : (fun (s : State) (n e p : Nat) (b : Bool) => ((detInfo n).level = true)) (State.reset) (0x47) (0) (5) (true) := by
  (repeat' apply And.intro) <;> first | decide +kernel | rfl
theorem met_ErrataCommands_2 : (fun (s : State) (n e p : Nat) => ((detInfo n).level = false)) (State.reset) (2) (0) (5) := by
  (repeat' apply And.intro) <;> first | decide +kernel | rfl
theorem met_ErrataCommands_4 : (fun (s : State) (b : Bool) => (s.era.keep = true) ∧ (s.halted = false) ∧ (1 ≤ s.stage) ∧ (s.stage ≠ 0xE) ∧ (s.glb.lossStep = 0)) ({ wSet [(Reg.GLB_BOOTSTAT_STAGE, 1)] with era := { State.reset.era with keep := true } }) (true) := by
  (repeat' apply And.intro) <;> first | decide +kernel | rfl
theorem met_ErrataCommands_5 : (fun (s : State) (b : Bool) => (s.era.keep = false ∨ s.halted = true)) (wSet [(Reg.ERA_STAT_HALTED, 1)]) (true) := by
  (repeat' apply And.intro) <;> first | decide +kernel | rfl
theorem met_ErrataCommands_6 : (fun (s : State) (w v : Nat) => (s.hostOpen)) (wOpen State.reset) (1) (6) := by
  (repeat' apply And.intro) <;> first | decide +kernel | rfl
theorem met_ErrataCommands_7 : (fun (s : State) => (s.on Reg.ERA_STAT_UNLOCKED = true)) (wSet [(Reg.ERA_STAT_UNLOCKED, 1)]) := by
  (repeat' apply And.intro) <;> first | decide +kernel | rfl
theorem met_ErrataCommands_9 : (fun (s : State) (x : Injection) (n : Nat) => (s.era.injections.find? (fun y => y.det == n && y.mode == 2 && y.spacing != 0 && y.left != 0) = some x) ∧ (x.left ≠ 1)) ({ State.reset with era := { State.reset.era with injections := [{ number := 4, det := 7, mode := 2, param := 3, spacing := 5, left := 2, ends := none }] } }) ({ number := 4, det := 7, mode := 2, param := 3, spacing := 5, left := 2, ends := none }) (7) := by
  (repeat' apply And.intro) <;> first | decide +kernel | rfl
theorem met_ErrataCommands_10 : (fun (s : State) (i unit : Nat) (again : Bool) => (i ≤ 10)) (State.reset) (3) (7) (true) := by
  (repeat' apply And.intro) <;> first | decide +kernel | rfl
theorem met_ErrataCommands_11 : (fun (s : State) (t unit : Nat) (again : Bool) => (t < 4)) (State.reset) (2) (7) (true) := by
  (repeat' apply And.intro) <;> first | decide +kernel | rfl
theorem met_ErrataCommands_12 : (fun (s : State) (n unit : Nat) (again : Bool) => ((n / 16 = 0 ∨ 13 ≤ n / 16))) (State.reset) (0xE5) (7) (true) := by
  (repeat' apply And.intro) <;> first | decide +kernel | rfl
theorem met_ErrataCommands_13 : (fun (s : State) (r : Nat) (d : Desc) => (s.serves 0 r 0x0902 d { priv := 1, parOk := decide (bits d.p0 0 9 ≤ 383 ∨ bits d.p0 0 9 = 0x1FF) })) (wGot (wRing 0) 0 0x0902 { wDesc with p0 := 7 }) (0) ({ wDesc with p0 := 7 }) := by
  (repeat' apply And.intro) <;> first | decide +kernel | rfl
theorem met_ErrataCommands_14 : (fun (s : State) (r : Nat) (d : Desc) => (s.serves 0 r 0x0903 d { priv := 2, standby := true, parOk := decide (d.p0 ≤ 383 ∧ d.p1 ≤ 2) }) ∧ (d.p1 = 0 ∨ (detInfo d.p0).cls ≤ d.p1)) (wGot (wRing 0) 0 0x0903 { wDesc with p0 := 7, p1 := 2 }) (0) ({ wDesc with p0 := 7, p1 := 2 }) := by
  (repeat' apply And.intro) <;> first | decide +kernel | rfl
theorem met_ErrataCommands_15 : (fun (s : State) (r : Nat) (d : Desc) => (s.serves 0 r 0x0904 d { priv := 3, buf := .reads, lenOk := fun n => 16 ≤ n, parOk := decide (d.p0 = 1 ∨ d.p0 = 2) }) ∧ (s.on Reg.ERA_STAT_LOCKOUT = false) ∧ ((if d.p0 = 1 then s.nv.injKey1 else s.nv.injKey2) = some ((bufBytes d).take 16))) (wGot { wRing 0 with nv := { State.reset.nv with injKey1 := some (zeros 16) } } 0 0x0904 { wBuf 16 with p0 := 1 }) (0) ({ wBuf 16 with p0 := 1 }) := by
  (repeat' apply And.intro) <;> first | decide +kernel | rfl
theorem met_ErrataCommands_16 : (fun (s : State) (r : Nat) (d : Desc) => (s.serves 0 r 0x0904 d { priv := 3, buf := .reads, lenOk := fun n => 16 ≤ n, parOk := decide (d.p0 = 1 ∨ d.p0 = 2) }) ∧ (s.on Reg.ERA_STAT_LOCKOUT = true)) (wGot (wSet [(Reg.ERA_STAT_LOCKOUT, 1)] (wRing 0)) 0 0x0904 { wBuf 16 with p0 := 2 }) (0) ({ wBuf 16 with p0 := 2 }) := by
  (repeat' apply And.intro) <;> first | decide +kernel | rfl
theorem met_ErrataCommands_17 : (fun (s : State) (r : Nat) (d : Desc) => (s.serves 0 r 0x0905 d { priv := 3, parOk := decide (bits d.p0 0 9 ≤ 383) && (bits d.p0 12 2 == 0 || (bits d.p0 12 2 == 1 && (detInfo (bits d.p0 0 9)).level) || (bits d.p0 12 2 == 2 && !(detInfo (bits d.p0 0 9)).level)) }) ∧ (s.on Reg.ERA_STAT_UNLOCKED = true) ∧ (s.get Reg.ERA_STAT_ULEVEL ≠ 1) ∧ (s.era.injections = []) ∧ ((s.det (bits d.p0 0 9)).cause = false)) (wGot (wSet [(Reg.ERA_STAT_UNLOCKED, 1), (Reg.ERA_STAT_ULEVEL, 2)] (wRing 0)) 0 0x0905 { wDesc with p0 := 7 }) (0) ({ wDesc with p0 := 7 }) := by
  (repeat' apply And.intro) <;> first | decide +kernel | rfl
theorem met_ErrataCommands_18 : (fun (s : State) (r : Nat) (d : Desc) => (s.serves 0 r 0x0906 d { priv := 3, parOk := decide (d.p0 ≤ 383 ∨ d.p0 = 0x1FF) })) (wGot (wRing 0) 0 0x0906 { wDesc with p0 := 7 }) (0) ({ wDesc with p0 := 7 }) := by
  (repeat' apply And.intro) <;> first | decide +kernel | rfl
theorem met_ErrataCommands_19 : (fun (s : State) (r : Nat) (d : Desc) => (s.serves 0 r 0x0907 d { priv := 3 })) (wGot (wRing 0) 0 0x0907 wDesc) (0) (wDesc) := by
  (repeat' apply And.intro) <;> first | decide +kernel | rfl
theorem met_RegisterQueries_1 : (fun (s : State) (r : Nat) (d : Desc) => (s.serves 0 r 0x0201 d { priv := 0, buf := .writes, lenOk := fun n => 64 ≤ n })) (wGot (wRing 0) 0 0x0201 (wBuf 64)) (0) (wBuf 64) := by
  (repeat' apply And.intro) <;> first | decide +kernel | rfl
theorem met_RegisterQueries_2 : (fun (s : State) (r : Nat) (d : Desc) => (s.serves 0 r 0x0405 d { priv := 0, buf := .writes, lenOk := fun n => 64 ≤ n })) (wGot (wRing 0) 0 0x0405 (wBuf 64)) (0) (wBuf 64) := by
  (repeat' apply And.intro) <;> first | decide +kernel | rfl
theorem met_RegisterQueries_3 : (fun (s : State) (r : Nat) (d : Desc) => (s.serves 0 r 0x0500 d { priv := 0, buf := .writes, lenOk := fun n => decide (64 ≤ n) })) (wGot (wRing 0) 0 0x0500 (wBuf 64)) (0) (wBuf 64) := by
  (repeat' apply And.intro) <;> first | decide +kernel | rfl
theorem met_RegisterQueries_4 : (fun (s : State) (r : Nat) (d : Desc) => (s.serves 0 r 0x0700 d { priv := 0, buf := .writes, lenOk := fun n => 64 ≤ n })) (wGot (wRing 0) 0 0x0700 (wBuf 64)) (0) (wBuf 64) := by
  (repeat' apply And.intro) <;> first | decide +kernel | rfl
theorem met_RegisterQueries_5 : (fun (s : State) (r : Nat) (d : Desc) => (s.serves 0 r 0x0801 d { priv := 0, buf := .writes, lenOk := fun n => 1536 ≤ n })) (wGot (wRing 0) 0 0x0801 (wBuf 1536)) (0) (wBuf 1536) := by
  (repeat' apply And.intro) <;> first | decide +kernel | rfl
theorem met_RegisterQueries_6 : (fun (s : State) (r : Nat) (d : Desc) => (s.serves 0 r 0x0900 d { priv := 0, buf := .writes, lenOk := fun n => 64 ≤ n })) (wGot (wRing 0) 0 0x0900 (wBuf 64)) (0) (wBuf 64) := by
  (repeat' apply And.intro) <;> first | decide +kernel | rfl
theorem met_RegisterQueries_7 : (fun (s : State) (r : Nat) (d : Desc) => (s.serves 0 r 0x0E00 d { priv := 0, buf := .writes, lenOk := fun n => decide (64 ≤ n) })) (wGot (wRing 0) 0 0x0E00 (wBuf 64)) (0) (wBuf 64) := by
  (repeat' apply And.intro) <;> first | decide +kernel | rfl
theorem met_RegisterQueries_8 : (fun (s : State) (r : Nat) (d : Desc) => (s.serves 0 r 0x0A00 d { priv := 0, buf := .writes, lenOk := fun n => 256 ≤ n })) (wGot (wRing 0) 0 0x0A00 (wBuf 256)) (0) (wBuf 256) := by
  (repeat' apply And.intro) <;> first | decide +kernel | rfl
theorem met_RegisterQueries_9 : (fun (s : State) (r : Nat) (d : Desc) => (s.serves 0 r 0x0B00 d { priv := 0, buf := .writes, lenOk := fun n => decide (64 ≤ n) })) (wGot (wRing 0) 0 0x0B00 (wBuf 64)) (0) (wBuf 64) := by
  (repeat' apply And.intro) <;> first | decide +kernel | rfl
theorem met_RegisterQueries_10 : (fun (s : State) (r : Nat) (d : Desc) => (s.serves 0 r 0x0D00 d { priv := 0, buf := .writes, lenOk := fun n => decide (64 ≤ n) })) (wGot (wRing 0) 0 0x0D00 (wBuf 64)) (0) (wBuf 64) := by
  (repeat' apply And.intro) <;> first | decide +kernel | rfl
theorem met_TableQueries_1 : (fun (s : State) (r : Nat) (d : Desc) => (s.serves 0 r 0x0202 d { priv := 3, buf := .writes, lenOk := fun n => 64 ≤ n && n ≤ 1048576 && n % 64 == 0, parOk := memOff d % 64 == 0 && decide (memOff d + d.len ≤ dramSize) }) ∧ (bit (s.get Reg.PRS_STAT_TBSVC) (bits d.p0 0 2) = true)) (wGot (wSet [(Reg.PRS_STAT_TBSVC, 1)] (wRing 0)) 0 0x0202 (wBuf 64)) (0) (wBuf 64) := by
  (repeat' apply And.intro) <;> first | decide +kernel | rfl
theorem met_TableQueries_2 : (fun (s : State) (r : Nat) (d : Desc) => (s.serves 0 r 0x0202 d { priv := 3, buf := .writes, lenOk := fun n => 64 ≤ n && n ≤ 1048576 && n % 64 == 0, parOk := memOff d % 64 == 0 && decide (memOff d + d.len ≤ dramSize) }) ∧ (bit (s.get Reg.PRS_STAT_TBSVC) (bits d.p0 0 2) = false)) (wGot (wRing 0) 0 0x0202 (wBuf 64)) (0) (wBuf 64) := by
  (repeat' apply And.intro) <;> first | decide +kernel | rfl
theorem met_TableQueries_3 : (fun (s : State) (r : Nat) (d : Desc) => (s.serves 0 r 0x0216 d { priv := 0, buf := .writes, lenOk := fun n => 64 ≤ n }) ∧ ((s.slotX (bits d.p0 0 8)).forme = none)) (wGot { wRing 0 with prs := { State.reset.prs with slots := [(0, {})] } } 0 0x0216 (wBuf 64)) (0) (wBuf 64) := by
  (repeat' apply And.intro) <;> first | decide +kernel | rfl
theorem met_TableQueries_4 : (fun (s : State) (r : Nat) (d : Desc) => (s.serves 0 r 0x0218 d { priv := 0, buf := .writes, lenOk := fun n => 48 ≤ n })) (wGot (wRing 0) 0 0x0218 (wBuf 48)) (0) (wBuf 48) := by
  (repeat' apply And.intro) <;> first | decide +kernel | rfl
theorem met_TableQueries_5 : (fun (s : State) (r : Nat) (d : Desc) => (s.serves 0 r 0x0300 d { priv := 0, buf := .writes, lenOk := fun n => 128 ≤ n }) ∧ (s.gal.plan = none) ∧ (s.gal.planWait = [])) (wGot (wRing 0) 0 0x0300 (wBuf 128)) (0) (wBuf 128) := by
  (repeat' apply And.intro) <;> first | decide +kernel | rfl
theorem met_TableQueries_6 : (fun (s : State) (r : Nat) (d : Desc) => (s.serves 0 r 0x0503 d { priv := 0, buf := .writes, lenOk := fun n => decide (32 * d.p1 ≤ n), parOk := decide (1 ≤ d.p1 ∧ d.p1 ≤ 166 ∧ d.p0 + d.p1 ≤ 166 ∧ d.p2 ≤ 1) }) ∧ (1 ≤ d.p1)) (wGot (wRing 0) 0 0x0503 { wBuf 64 with p1 := 2 }) (0) ({ wBuf 64 with p1 := 2 }) := by
  (repeat' apply And.intro) <;> first | decide +kernel | rfl
theorem met_TableQueries_7 : (fun (s : State) (r : Nat) (d : Desc) => (s.serves 0 r 0x0600 d { priv := 0, buf := .writes, lenOk := fun n => decide (16 * d.p1 ≤ n), parOk := decide (1 ≤ d.p1 ∧ d.p1 ≤ 156 ∧ d.p0 + d.p1 ≤ 156) }) ∧ (1 ≤ d.p1)) (wGot (wRing 0) 0 0x0600 { wBuf 64 with p1 := 2 }) (0) ({ wBuf 64 with p1 := 2 }) := by
  (repeat' apply And.intro) <;> first | decide +kernel | rfl
theorem met_TableQueries_8 : (fun (s : State) (r : Nat) (d : Desc) => (s.serves 0 r 0x0710 d { priv := 0, buf := .writes, lenOk := fun n => 128 ≤ n }) ∧ (s.grp.inForce = none)) (wGot (wRing 0) 0 0x0710 (wBuf 128)) (0) (wBuf 128) := by
  (repeat' apply And.intro) <;> first | decide +kernel | rfl
theorem met_TableQueries_9 : (fun (s : State) (r : Nat) (d : Desc) => (s.serves 0 r 0x0800 d { priv := 0, buf := .writes, lenOk := fun n => 64 ≤ n })) (wGot (wRing 0) 0 0x0800 (wBuf 64)) (0) (wBuf 64) := by
  (repeat' apply And.intro) <;> first | decide +kernel | rfl
theorem met_TableQueries_10 : (fun (s : State) (r : Nat) (d : Desc) => (s.serves 0 r 0x0810 d { priv := 0, buf := .writes, lenOk := fun n => 64 ≤ n })) (wGot (wRing 0) 0 0x0810 (wBuf 64)) (0) (wBuf 64) := by
  (repeat' apply And.intro) <;> first | decide +kernel | rfl
theorem met_TableQueries_11 : (fun (s : State) (r : Nat) (d : Desc) => (s.serves 0 r 0x0812 d { priv := 0, buf := .writes, lenOk := fun n => decide (tableLen d.p0 ≤ n), parOk := decide (d.p0 ≤ 2) }) ∧ (tableLen d.p0 ≠ 0)) (wGot (wRing 0) 0 0x0812 (wBuf 8192)) (0) (wBuf 8192) := by
  (repeat' apply And.intro) <;> first | decide +kernel | rfl
theorem met_TableQueries_12 : (fun (s : State) (r : Nat) (d : Desc) => (s.serves 0 r 0x0814 d { priv := 0, buf := .writes, lenOk := fun n => 256 ≤ n })) (wGot (wRing 0) 0 0x0814 (wBuf 256)) (0) (wBuf 256) := by
  (repeat' apply And.intro) <;> first | decide +kernel | rfl
theorem met_TableQueries_13 : (fun (s : State) (r : Nat) (d : Desc) => (s.serves 0 r 0x0901 d { priv := 0, buf := .writes, lenOk := fun n => 32 ≤ n, parOk := decide (bits d.p0 0 9 ≤ 383) })) (wGot (wRing 0) 0 0x0901 { wBuf 32 with p0 := 5 }) (0) ({ wBuf 32 with p0 := 5 }) := by
  (repeat' apply And.intro) <;> first | decide +kernel | rfl
theorem met_TableQueries_14 : (fun (s : State) (r : Nat) (d : Desc) => (s.serves 0 r 0x0E04 d { priv := 0, buf := .writes, lenOk := fun n => decide (64 ≤ n) })) (wGot (wRing 0) 0 0x0E04 (wBuf 64)) (0) (wBuf 64) := by
  (repeat' apply And.intro) <;> first | decide +kernel | rfl
theorem met_TableQueries_15 : (fun (s : State) (r : Nat) (d : Desc) => (s.serves 0 r 0x0A02 d { priv := 0, buf := .writes, lenOk := (16 ≤ ·) }) ∧ ((trigBytes (Tab.get s.col.triggers (bits d.p0 0 6) {})).length ≤ d.len)) (wGot (wRing 0) 0 0x0A02 (wBuf 4096)) (0) (wBuf 4096) := by
  (repeat' apply And.intro) <;> first | decide +kernel | rfl
theorem met_TableQueries_16 : (fun (s : State) (r : Nat) (d : Desc) => (s.serves 0 r 0x0A04 d { priv := 0, buf := .writes, lenOk := (64 ≤ ·), parOk := decide (2 ≤ d.p0 ∧ d.p0 ≤ 4) })) (wGot (wRing 0) 0 0x0A04 { wBuf 64 with p0 := 3 }) (0) ({ wBuf 64 with p0 := 3 }) := by
  (repeat' apply And.intro) <;> first | decide +kernel | rfl
theorem met_TableQueries_17 : (fun (s : State) (r : Nat) (d : Desc) => (s.serves 0 r 0x0B09 d { priv := 0, buf := .writes, lenOk := fun n => decide (512 ≤ n), parOk := imgType d.p0 && decide (d.p1 ≤ 1) }) ∧ ((s.img d.p0 d.p1).st ≠ 0)) (wGot (wRing 0) 0 0x0B09 { wBuf 512 with p0 := 1 }) (0) ({ wBuf 512 with p0 := 1 }) := by
  (repeat' apply And.intro) <;> first | decide +kernel | rfl
theorem met_HierarchyChanges_1 : (fun (s : State) (r : Nat) (d : Desc) => (s.serves 0 r 0x0203 d { priv := 2, standby := true }) ∧ (bit (s.get Reg.PRS_STAT_TBSVC) (bits d.p0 0 2) = true)) (wGot (wSet [(Reg.PRS_STAT_TBSVC, 1)] (wRing 0)) 0 0x0203 wDesc) (0) (wDesc) := by
  (repeat' apply And.intro) <;> first | decide +kernel | rfl
theorem met_HierarchyChanges_2 : (fun (s : State) (r : Nat) (d : Desc) => (s.serves 0 r 0x0203 d { priv := 2, standby := true }) ∧ (bit (s.get Reg.PRS_STAT_TBSVC) (bits d.p0 0 2) = false)) (wGot (wRing 0) 0 0x0203 wDesc) (0) (wDesc) := by
  (repeat' apply And.intro) <;> first | decide +kernel | rfl
theorem met_HierarchyChanges_3 : (fun (s : State) (r : Nat) (d : Desc) (c : Nat) (st : Staged) => let u := s.beginDesc r 0x0200 d
    let p := u.stage1 r 2 0x0200 0 (u.get Reg.GLB_HIER_CFG) c 0 .own
    (c = bits d.p0 0 4) ∧ (s.serves 0 r 0x0200 d { priv := 2, standby := true, parOk := decide (1 ≤ c ∧ c ≤ 4 ∧ d.p1 = 0 ∧ d.p2 = 0) }) ∧ (s.pressBusy = false) ∧ (s.prs.slots.any (fun e => e.2.staged.isSome) = false) ∧ (s.prs.slots.any (fun e => e.2.forme.any fun f => decide (f.kind ≤ 1) && !f.variants.any fun v => v.svc == c) = false) ∧ (svcTbs c ≤ s.tbsGood.length) ∧ (s.get Reg.GLB_HIER_CFG ≠ c) ∧ (p.2.staged.find? (fun x => x.no == p.1) = some st)) (wGot (wRing 0) 0 0x0200 { wDesc with p0 := 2 }) (0) ({ wDesc with p0 := 2 }) (2) ({ no := (wRing 0).chgNext, block := 2, opcode := 0x0200, target := 0, old := (wRing 0).get Reg.GLB_HIER_CFG, new := 2, ring := 0, due := 0, act := .own }) := by
  (repeat' apply And.intro) <;> first | decide +kernel | rfl
theorem met_HierarchyChanges_4 : (fun (s : State) (r : Nat) (d : Desc) (c : Nat) => (c = bits d.p0 0 4) ∧ (s.serves 0 r 0x0200 d { priv := 2, standby := true, parOk := decide (1 ≤ c ∧ c ≤ 4 ∧ d.p1 = 0 ∧ d.p2 = 0) }) ∧ (s.pressBusy = false) ∧ (s.prs.slots.any (fun e => e.2.staged.isSome) = false) ∧ (s.prs.slots.any (fun e => e.2.forme.any fun f => decide (f.kind ≤ 1) && !f.variants.any fun v => v.svc == c) = false) ∧ (s.tbsGood.length < svcTbs c)) (wGot (wSet [(Reg.PRS_TB_STAT_STATE 0, 3), (Reg.PRS_TB_STAT_STATE 1, 3), (Reg.PRS_TB_STAT_STATE 2, 3)] (wRing 0)) 0 0x0200 { wDesc with p0 := 4 }) (0) ({ wDesc with p0 := 4 }) (4) := by
  (repeat' apply And.intro) <;> first | decide +kernel | rfl
theorem met_HierarchyChanges_5 : (fun (s : State) (h : HierChg) => (s.prs.hier = some h) ∧ (h.begun = false) ∧ (s.glb.mgmtDown = false) ∧ (h.at_ ≤ s.time) ∧ (s.time % 20000 = 0) ∧ (s.hierGrows h = true)) ({ State.reset with prs := { State.reset.prs with hier := some { st := wStaged, old := 1, new := 2, begun := false, at_ := 0 } } }) ({ st := wStaged, old := 1, new := 2, begun := false, at_ := 0 }) := by
  (repeat' apply And.intro) <;> first | decide +kernel | rfl
theorem met_HierarchyChanges_6 : (fun (s : State) (h : HierChg) => (s.prs.hier = some h) ∧ (h.begun = true ∨ s.glb.mgmtDown = true ∨ s.time < h.at_ ∨ s.time % 20000 ≠ 0)) ({ State.reset with prs := { State.reset.prs with hier := some { st := wStaged, old := 1, new := 2, begun := true, at_ := 0 } } }) ({ st := wStaged, old := 1, new := 2, begun := true, at_ := 0 }) := by
  (repeat' apply And.intro) <;> first | decide +kernel | rfl
theorem met_HierarchyChanges_7 : (fun (s : State) (h : HierChg) => (s.prs.hier = some h) ∧ (h.begun = true)) ({ State.reset with prs := { State.reset.prs with hier := some { st := wStaged, old := 1, new := 2, begun := true, at_ := 0 } } }) ({ st := wStaged, old := 1, new := 2, begun := true, at_ := 0 }) := by
  (repeat' apply And.intro) <;> first | decide +kernel | rfl
theorem met_HierarchyChanges_8_1 : (fun (s : State) (h : HierChg) (reason : Nat) => (s.prs.hier = some h) ∧ (h.begun = true) ∧ (h.why = 0) ∧ (h.tbs = []) ∧ (reason ≠ 3 ∨ h.at_ + 250000000 ≤ s.time)) ({ State.reset with prs := { State.reset.prs with hier := some { st := wStaged, old := 1, new := 2, begun := true, at_ := 0 } } }) ({ st := wStaged, old := 1, new := 2, begun := true, at_ := 0 }) (1) := by
  (repeat' apply And.intro) <;> first | decide +kernel | rfl
theorem met_HierarchyChanges_8_2 : (fun (s : State) (h : HierChg) (reason : Nat) => (s.prs.hier = some h) ∧ (h.begun = true) ∧ (h.why = 0) ∧ (h.tbs = []) ∧ (reason ≠ 3 ∨ h.at_ + 250000000 ≤ s.time)) (wSet [(Reg.CHS_TIME, 250000000)] ({ State.reset with prs := { State.reset.prs with hier := some { st := wStaged, old := 1, new := 2, begun := true, at_ := 0 } } })) ({ st := wStaged, old := 1, new := 2, begun := true, at_ := 0 }) (3) := by
  (repeat' apply And.intro) <;> first | decide +kernel | rfl
theorem met_HierarchyChanges_9 : (fun (s : State) (h : HierChg) => (s.prs.hier = some h) ∧ (s.time < h.at_ + 250000000)) ({ State.reset with prs := { State.reset.prs with hier := some { st := wStaged, old := 1, new := 2, begun := true, at_ := 0 } } }) ({ st := wStaged, old := 1, new := 2, begun := true, at_ := 0 }) := by
  (repeat' apply And.intro) <;> first | decide +kernel | rfl
theorem met_HierarchyChanges_10 : (fun (s : State) (t k : Nat) => (s.prs.quireRepl = some (t, k))) ({ State.reset with prs := { State.reset.prs with quireRepl := some (0, 7) } }) (0) (7) := by
  (repeat' apply And.intro) <;> first | decide +kernel | rfl
theorem met_PressChecks_2 : (fun (s : State) (u t : Nat) => (Tab.find s.prs.leafCrc u = some t) ∧ (s.time < t + 1000000000)) ({ State.reset with prs := { State.reset.prs with leafCrc := [(5, 0)] } }) (5) (0) := by
  (repeat' apply And.intro) <;> first | decide +kernel | rfl
theorem met_PressChecks_3 : (fun (s : State) (u : Nat) => (Tab.find s.prs.leafCrc u = none)) (State.reset) (5) := by
  (repeat' apply And.intro) <;> first | decide +kernel | rfl
theorem met_PressChecks_7 : (fun (s : State) (t level : Nat) (r : Run) => (s.prs.runs = [r]) ∧ (level ≠ 4) ∧ ((r.tb t).wait = level)) ({ State.reset with prs := { State.reset.prs with runs := [{ wRun 2 with tbs := [{ wait := 1 }, {}, {}, {}] }] } }) (0) (1) ({ wRun 2 with tbs := [{ wait := 1 }, {}, {}, {}] }) := by
  (repeat' apply And.intro) <;> first | decide +kernel | rfl
theorem met_PressChecks_8 : (fun (s : State) (t : Nat) (r : Run) => (s.prs.runs = [r]) ∧ ((r.v.used.all fun u => (r.tb u).wait == 4) = true)) ({ State.reset with prs := { State.reset.prs with runs := [{ wRun 2 with tbs := [{ wait := 4 }, {}, {}, {}] }] } }) (0) ({ wRun 2 with tbs := [{ wait := 4 }, {}, {}, {}] }) := by
  (repeat' apply And.intro) <;> first | decide +kernel | rfl
theorem met_PressChecks_9 : (fun (s : State) (t level unit : Nat) (r : Run) => (s.barrierFirst t level = some r) ∧ (level ≠ 4)) ({ State.reset with prs := { State.reset.prs with runs := [{ wRun 2 with tbs := [{ wait := 1 }, {}, {}, {}] }] } }) (0) (1) (7) ({ wRun 2 with tbs := [{ wait := 1 }, {}, {}, {}] }) := by
  (repeat' apply And.intro) <;> first | decide +kernel | rfl
theorem met_PressChecks_10 : (fun (s : State) (t bank row off : Nat) => (s.get Reg.PRS_SCRUB_CTL_CETHR = 0)) (wSet [(Reg.PRS_SCRUB_CTL_CETHR, 0)]) (1) (2) (3) (64) := by
  (repeat' apply And.intro) <;> first | decide +kernel | rfl
theorem met_PressChecks_11 : (fun (s : State) (t bank row off : Nat) => (Tab.get s.prs.bankRows (bankKey t bank) 0 < 47) ∧ (Tab.get s.prs.bankRows (bankKey t bank) 0 + Tab.get s.prs.bankBad (bankKey t bank) 0 < 63)) (State.reset) (1) (2) (3) (64) := by
  (repeat' apply And.intro) <;> first | decide +kernel | rfl
theorem met_PressChecks_12 : (fun (s : State) (t bank row off n : Nat) => (s.prs.bankCopy.contains (t, bank) = false) ∧ (s.get (Reg.PRS_TB_SPARE_BANK t) = n + 1)) (wSet [(Reg.PRS_TB_SPARE_BANK 1, 2)]) (1) (2) (3) (64) (1) := by
  (repeat' apply And.intro) <;> first | decide +kernel | rfl
theorem met_PressChecks_13 : (fun (s : State) (t bank row off : Nat) (b : Bool) => (off < 0xB00000000)) (State.reset) (1) (2) (3) (64) (true) := by
  (repeat' apply And.intro) <;> first | decide +kernel | rfl
theorem met_PressChecks_14 : (fun (s : State) (t bank row off : Nat) (b : Bool) => (0xCDCD65000 ≤ off) ∧ (off < 0xDDCD65000)) (State.reset) (1) (2) (3) (0xCDCD65000) (true) := by
  (repeat' apply And.intro) <;> first | decide +kernel | rfl
theorem met_PressChecks_15 : (fun (s : State) (t bank : Nat) => (s.prs.bankCopy.contains (t, bank) = true)) ({ State.reset with prs := { State.reset.prs with bankCopy := [(1, 2)] } }) (1) (2) := by
  (repeat' apply And.intro) <;> first | decide +kernel | rfl
theorem met_PressChecks_16 : (fun (s : State) (n bank : Nat) => (bit (s.get Reg.PRS_STAT_TBSVC) 0 = true ∧ s.on Reg.PRS_SCRUB_CTL_EN = true ∨ s.prs.fastScrub.contains 0 = true) ∧ (n < 100)) (wSet [(Reg.PRS_STAT_TBSVC, 1), (Reg.PRS_SCRUB_CTL_EN, 1)]) (50) (0) := by
  (repeat' apply And.intro) <;> first | decide +kernel | rfl
theorem met_PressChecks_17 : (fun (s : State) (bank : Nat) => (bit (s.get Reg.PRS_STAT_TBSVC) 3 = true ∧ s.on Reg.PRS_SCRUB_CTL_EN = true ∨ s.prs.fastScrub.contains 3 = true)) (wSet [(Reg.PRS_STAT_TBSVC, 8), (Reg.PRS_SCRUB_CTL_EN, 1)]) (0) := by
  (repeat' apply And.intro) <;> first | decide +kernel | rfl
theorem met_PressChecks_18 : (fun (s : State) (t n bank : Nat) (a b : Bool) => (s.prs.fastScrub.contains t = false) ∧ (bit (s.get Reg.PRS_STAT_TBSVC) t = false ∨ s.on Reg.PRS_SCRUB_CTL_EN = false)) (State.reset) (0) (50) (0) (true) (true) := by
  (repeat' apply And.intro) <;> first | decide +kernel | rfl
theorem met_FormeCommands_1 : (fun (s : State) (r : Nat) (d : Desc) => (s.serves 0 r 0x0210 d { priv := 2, standby := true, parOk := decide (128 ≤ d.p1 ∧ d.p1 ≤ 268435456) }) ∧ (s.pressBusy = false) ∧ ((s.slotX (bits d.p0 0 8)).load.any (fun l => l.ring != r) = false)) (wGot (wRing 0) 0 0x0210 { wDesc with p1 := 128 }) (0) ({ wDesc with p1 := 128 }) := by
  (repeat' apply And.intro) <;> first | decide +kernel | rfl
theorem met_FormeCommands_2 : (fun (s : State) (r : Nat) (d : Desc) (l : Load) => (s.serves 0 r 0x0211 d { priv := 2, standby := true, buf := .reads, lenOk := fun n => 8 ≤ n && n ≤ 1048576 && n % 8 == 0, parOk := d.p1 % 8 == 0 }) ∧ ((s.slotX (bits d.p0 0 8)).load = some l) ∧ (l.ring = r) ∧ (d.p1 + d.len ≤ l.tlen)) (wGot { wRing 0 with prs := { State.reset.prs with slots := [(0, { load := some { ring := 0, tlen := 16 } })] } } 0 0x0211 (wBuf 8 [1, 2])) (0) (wBuf 8 [1, 2]) ({ ring := 0, tlen := 16 }) := by
  (repeat' apply And.intro) <;> first | decide +kernel | rfl
theorem met_FormeCommands_3 : (fun (s : State) (r : Nat) (d : Desc) (l : Load) => (s.serves 0 r 0x0211 d { priv := 2, standby := true, buf := .reads, lenOk := fun n => 8 ≤ n && n ≤ 1048576 && n % 8 == 0, parOk := d.p1 % 8 == 0 }) ∧ ((s.slotX (bits d.p0 0 8)).load = some l) ∧ (l.ring = r) ∧ (l.tlen < d.p1 + d.len)) (wGot { wRing 0 with prs := { State.reset.prs with slots := [(0, { load := some { ring := 0, tlen := 16 } })] } } 0 0x0211 { wBuf 8 with p1 := 16 }) (0) ({ wBuf 8 with p1 := 16 }) ({ ring := 0, tlen := 16 }) := by
  (repeat' apply And.intro) <;> first | decide +kernel | rfl
theorem met_FormeCommands_4 : (fun (s : State) (r : Nat) (d : Desc) (l : Load) (f : Forme) (c : Staged) => let i := bits d.p0 0 8
    let u := s.beginDesc r 0x0212 d
    let p := u.stage1 r 2 0x0212 i (u.slotX i).mark (ofLe (f.digest.take 8)) 0 .own true
    (s.serves 0 r 0x0212 d { priv := 2, standby := true }) ∧ (s.pressBusy = false) ∧ ((s.slotX i).load = some l) ∧ (l.ring = r) ∧ (u.commitCheck i l = .inr f) ∧ (p.2.staged.find? (fun c => c.no == p.1) = some c)) (wGot wGood 0 0x0212 wDesc) (0) (wDesc) (wLoad) (wGoodForme) (wGoodStaged) := by
  (repeat' apply And.intro) <;> first | decide +kernel | rfl
theorem met_FormeCommands_5 : (fun (s : State) (r : Nat) (d : Desc) (l : Load) (x : Refused) => let i := bits d.p0 0 8
    let u := s.beginDesc r 0x0212 d
    (s.serves 0 r 0x0212 d { priv := 2, standby := true }) ∧ (s.pressBusy = false) ∧ ((s.slotX i).load = some l) ∧ (l.ring = r) ∧ (u.commitCheck i l = .inl x)) (wGot { wRing 0 with prs := { State.reset.prs with slots := [(0, { load := some { ring := 0, tlen := 16 } })] } } 0 0x0212 wDesc) (0) (wDesc) ({ ring := 0, tlen := 16 }) ((1, 0, 0)) := by
  (repeat' apply And.intro) <;> first | decide +kernel | rfl
theorem met_FormeCommands_6 : (fun (s : State) (r : Nat) (d : Desc) => (s.serves 0 r 0x0213 d { priv := 2, standby := true })) (wGot { wRing 0 with prs := { State.reset.prs with slots := [(0, { load := some { ring := 0, tlen := 16 } })] } } 0 0x0213 wDesc) (0) (wDesc) := by
  (repeat' apply And.intro) <;> first | decide +kernel | rfl
theorem met_FormeCommands_8 : (fun (s : State) (r : Nat) (d : Desc) => let u := s.beginDesc r 0x0214 d
    let p := u.stage1 r 2 0x0214 (bits d.p0 0 8) (u.slotX (bits d.p0 0 8)).mark 0 u.leadPeriod (.formeUnload (bits d.p0 0 8)) true
    (s.serves 0 r 0x0214 d { priv := 2, standby := true }) ∧ (s.pressBusy = false)) (wGot { wRing 0 with prs := { State.reset.prs with slots := [(0, { forme := some { wForme 3 with variants := [wVar 1 0 0] }, var := some 0, ready := true })] } } 0 0x0214 wDesc) (0) (wDesc) := by
  (repeat' apply And.intro) <;> first | decide +kernel | rfl
theorem met_FormeCommands_9 : (fun (s : State) (r : Nat) (d : Desc) => let i := bits d.p0 0 8
    let u := s.beginDesc r 0x0215 d
    let p := u.stage1 r 2 0x0215 i (b2n (u.slotX i).en) (b2n (bit d.p1 0)) u.leadPeriod (.formeEnable i (bit d.p1 0))
    (s.serves 0 r 0x0215 d { priv := 2, standby := true }) ∧ (s.pressBusy = false) ∧ (bit d.p1 0 = false) ∧ ((s.slotX i).code = 3)) (wGot { wRing 0 with prs := { State.reset.prs with slots := [(0, { forme := some { wForme 3 with variants := [wVar 1 0 0] }, var := some 0, ready := true })] } } 0 0x0215 wDesc) (0) (wDesc) := by
  (repeat' apply And.intro) <;> first | decide +kernel | rfl
theorem met_FormeCommands_10 : (fun (s : State) (r : Nat) (d : Desc) (f : Forme) => let i := bits d.p0 0 8
    let u := s.beginDesc r 0x0215 d
    let p := u.stage1 r 2 0x0215 i (b2n (u.slotX i).en) (b2n (bit d.p1 0)) u.leadPeriod (.formeEnable i (bit d.p1 0))
    (s.serves 0 r 0x0215 d { priv := 2, standby := true }) ∧ (s.pressBusy = false) ∧ (bit d.p1 0 = true) ∧ ((s.slotX i).code = 3) ∧ ((s.slotX i).forme = some f) ∧ ((f.kind = 0 → s.willEnOf 0 i < 4)) ∧ ((f.kind = 1 → s.willEnOf 1 i = 0)) ∧ ((2 ≤ f.kind → s.willEnOf f.kind i < 256)) ∧ (s.willFit i f.kind (s.slotX i).wcyc = true)) (wGot { wRing 0 with prs := { State.reset.prs with slots := [(0, { forme := some { wForme 3 with variants := [wVar 1 0 0] }, var := some 0, ready := true })] } } 0 0x0215 { wDesc with p1 := 1 }) (0) ({ wDesc with p1 := 1 }) ({ wForme 3 with variants := [wVar 1 0 0] }) := by
  (repeat' apply And.intro) <;> first | decide +kernel | rfl
theorem met_FormeCommands_11 : (fun (s : State) (r : Nat) (d : Desc) => (s.serves 0 r 0x0215 d { priv := 2, standby := true }) ∧ (s.pressBusy = false) ∧ (bit d.p1 0 = false) ∧ ((s.slotX (bits d.p0 0 8)).code ≠ 3)) (wGot (wRing 0) 0 0x0215 wDesc) (0) (wDesc) := by
  (repeat' apply And.intro) <;> first | decide +kernel | rfl
theorem met_FormeCommands_12 : (fun (s : State) (r : Nat) (d : Desc) (f : Forme) (v : Variant) => let i := bits d.p0 0 8
    (s.serves 0 r 0x0217 d { priv := 3, standby := true }) ∧ ((s.slotX i).forme = some f) ∧ (f.kind = 3) ∧ ((s.slotX i).variant = some v) ∧ (s.on Reg.PRS_FCTL_RUN = true) ∧ (s.pressBusy = false) ∧ (s.prs.runs.any (fun q => q.cmd.isSome) = false)) (wGot (wSet [(Reg.PRS_FCTL_RUN, 1)] ({ wRing 0 with prs := { State.reset.prs with slots := [(0, { forme := some { wForme 3 with variants := [wVar 1 0 0] }, var := some 0, ready := true })] } })) 0 0x0217 wDesc) (0) (wDesc) ({ wForme 3 with variants := [wVar 1 0 0] }) (wVar 1 0 0) := by
  (repeat' apply And.intro) <;> first | decide +kernel | rfl
theorem met_FormeCommands_13 : (fun (s : State) (i : Nat) (f : Forme) (c : Staged) (v : Nat) => let u := s.unstage c.no
    (s.time % 20000 = 0) ∧ (s.prs.hierEnd ≠ some s.time) ∧ (s.glb.mgmtDown = false) ∧ ((s.slotX i).staged = some (f, c)) ∧ ((s.slotX i).en = false) ∧ (s.pickNow f = some v)) ({ State.reset with prs := { State.reset.prs with slots := [(0, { staged := some ({ wForme 3 with variants := [{ wVar 1 0 0 with svc := 0, nq := [0, 0, 0, 0] }] }, wStaged) })] } }) (0) ({ wForme 3 with variants := [{ wVar 1 0 0 with svc := 0, nq := [0, 0, 0, 0] }] }) (wStaged) (0) := by
  (repeat' apply And.intro) <;> first | decide +kernel | rfl
theorem met_FormeCommands_14 : (fun (s : State) (i : Nat) (f : Forme) (c : Staged) => (s.time % 20000 = 0) ∧ (s.prs.hierEnd ≠ some s.time) ∧ (s.glb.mgmtDown = false) ∧ ((s.slotX i).staged = some (f, c))) ({ State.reset with prs := { State.reset.prs with slots := [(0, { staged := some ({ wForme 3 with variants := [{ wVar 1 0 0 with svc := 0, nq := [0, 0, 0, 0] }] }, wStaged) })] } }) (0) ({ wForme 3 with variants := [{ wVar 1 0 0 with svc := 0, nq := [0, 0, 0, 0] }] }) (wStaged) := by
  (repeat' apply And.intro) <;> first | decide +kernel | rfl
theorem met_FormeCommands_15 : (fun (s : State) (i : Nat) (b : Bool) => (s.time % 20000 ≠ 0 ∨ s.prs.hierEnd = some s.time ∨ s.glb.mgmtDown = true) ∧ ((s.slotX i).staged.isSome = true)) (wSet [(Reg.CHS_TIME, 10000)] ({ State.reset with prs := { State.reset.prs with slots := [(0, { staged := some ({ wForme 3 with variants := [{ wVar 1 0 0 with svc := 0, nq := [0, 0, 0, 0] }] }, wStaged) })] } })) (0) (true) := by
  (repeat' apply And.intro) <;> first | decide +kernel | rfl
theorem met_FormeCommands_16 : (fun (s : State) (i : Nat) (b : Bool) => (s.time % 20000 ≠ 0 ∨ s.prs.hierEnd = some s.time ∨ s.glb.mgmtDown = true) ∧ ((s.slotX i).staged = none)) (wSet [(Reg.CHS_TIME, 10000)] State.reset) (0) (true) := by
  (repeat' apply And.intro) <;> first | decide +kernel | rfl
theorem met_FormeCommands_17 : (fun (s : State) (i : Nat) (v : Variant) => ((s.slotX i).ready = false) ∧ ((s.slotX i).variant = some v)) ({ State.reset with prs := { State.reset.prs with slots := [(0, { forme := some { wForme 3 with variants := [wVar 1 0 0] }, var := some 0 })] } }) (0) (wVar 1 0 0) := by
  (repeat' apply And.intro) <;> first | decide +kernel | rfl
theorem met_FormeCommands_18 : (fun (s : State) (slot : Nat) (r : Run) => (s.prs.runs.find? (fun r => r.slot == slot) = some r) ∧ (r.kind = 0) ∧ ((r.v.used.all fun t => (r.tb t).ended) = true)) ({ State.reset with prs := { State.reset.prs with runs := [{ wRun 1 with tbs := [{ ended := true }, {}, {}, {}] }] } }) (0) ({ wRun 1 with tbs := [{ ended := true }, {}, {}, {}] }) := by
  (repeat' apply And.intro) <;> first | decide +kernel | rfl
theorem met_FormeCommands_19 : (fun (s : State) (slot ring : Nat) (r : Run) (d : Desc) => (s.prs.runs.find? (fun r => r.slot == slot) = some r) ∧ (r.kind = 3) ∧ (r.cmd = some (ring, d)) ∧ ((r.v.used.all fun t => (r.tb t).ended) = true)) ({ wRing 0 with prs := { State.reset.prs with runs := [{ wRun 1 0 0 3 with cmd := some (0, wDesc), tbs := [{ ended := true }, {}, {}, {}] }] } }) (0) (0) ({ wRun 1 0 0 3 with cmd := some (0, wDesc), tbs := [{ ended := true }, {}, {}, {}] }) (wDesc) := by
  (repeat' apply And.intro) <;> first | decide +kernel | rfl
theorem met_FormeCommands_20 : (fun (s : State) (r : Run) => (s.prs.runs = [r]) ∧ (r.kind = 1) ∧ (r.over = false) ∧ (r.cycle + s.planDiv ≤ s.get Reg.PRS_GAL_CYC)) (wSet [(Reg.PRS_GAL_CYC, 100)] ({ State.reset with prs := { State.reset.prs with runs := [wRun 1 0 0 1] } })) (wRun 1 0 0 1) := by
  (repeat' apply And.intro) <;> first | decide +kernel | rfl
theorem met_FormeCommands_21 : (fun (s : State) (slot : Nat) (r : Run) => (s.prs.runs.find? (fun r => r.slot == slot) = some r) ∧ (r.kind = 3) ∧ (r.cmd.isSome = true)) ({ wRing 0 with prs := { State.reset.prs with runs := [{ wRun 1 0 0 3 with cmd := some (0, wDesc) }] } }) (0) ({ wRun 1 0 0 3 with cmd := some (0, wDesc) }) := by
  (repeat' apply And.intro) <;> first | decide +kernel | rfl
theorem met_ControlAndMovementSorts_1 : (fun (s : State) (t cyc : Nat) (c : Ctx) => (s.nextSort t = some c) ∧ (c.w.op = 0x00)) (wSort 0x00) (0) (5) (((wSort 0x00).nextSort 0).getD wCtx) := by
  (repeat' apply And.intro) <;> first | decide +kernel | rfl
theorem met_ControlAndMovementSorts_2 : (fun (s : State) (t cyc : Nat) (c : Ctx) => (s.nextSort t = some c) ∧ (c.w.op = 0x01)) (wSort 0x01) (0) (5) (((wSort 0x01).nextSort 0).getD wCtx) := by
  (repeat' apply And.intro) <;> first | decide +kernel | rfl
theorem met_ControlAndMovementSorts_3 : (fun (s : State) (t cyc : Nat) (c : Ctx) => (s.nextSort t = some c) ∧ (c.w.op = 0x02)) (wSort 0x02) (0) (5) (((wSort 0x02).nextSort 0).getD wCtx) := by
  (repeat' apply And.intro) <;> first | decide +kernel | rfl
theorem met_ControlAndMovementSorts_4 : (fun (s : State) (t cyc : Nat) (c : Ctx) => (s.nextSort t = some c) ∧ (c.w.op = 0x03) ∧ (c.w.n2 = 0)) (wSort 0x03) (0) (5) (((wSort 0x03).nextSort 0).getD wCtx) := by
  (repeat' apply And.intro) <;> first | decide +kernel | rfl
theorem met_ControlAndMovementSorts_5 : (fun (s : State) (t cyc : Nat) (c : Ctx) => (s.nextSort t = some c) ∧ (c.w.op = 0x03) ∧ (c.w.n2 ≠ 0)) (wSort 0x03 0 3) (0) (5) (((wSort 0x03 0 3).nextSort 0).getD wCtx) := by
  (repeat' apply And.intro) <;> first | decide +kernel | rfl
theorem met_ControlAndMovementSorts_6 : (fun (s : State) (t cyc : Nat) (c : Ctx) => (s.nextSort t = some c) ∧ (c.w.op = 0x08)) (wSort 0x08) (0) (5) (((wSort 0x08).nextSort 0).getD wCtx) := by
  (repeat' apply And.intro) <;> first | decide +kernel | rfl
theorem met_ControlAndMovementSorts_7 : (fun (s : State) (t cyc : Nat) (c : Ctx) => (s.nextSort t = some c) ∧ (c.w.op = 0x09)) (wSort 0x09) (0) (5) (((wSort 0x09).nextSort 0).getD wCtx) := by
  (repeat' apply And.intro) <;> first | decide +kernel | rfl
theorem met_ControlAndMovementSorts_8 : (fun (s : State) (t cyc : Nat) (c : Ctx) => (s.nextSort t = some c) ∧ (c.w.op = 0x0A)) (wSort 0x0A) (0) (5) (((wSort 0x0A).nextSort 0).getD wCtx) := by
  (repeat' apply And.intro) <;> first | decide +kernel | rfl
theorem met_ControlAndMovementSorts_9 : (fun (s : State) (t cyc : Nat) (c : Ctx) => (s.nextSort t = some c) ∧ (c.w.op = 0x0B)) (wSort 0x0B) (0) (5) (((wSort 0x0B).nextSort 0).getD wCtx) := by
  (repeat' apply And.intro) <;> first | decide +kernel | rfl
theorem met_ControlAndMovementSorts_10 : (fun (s : State) (t cyc : Nat) (c : Ctx) => (s.nextSort t = some c) ∧ (c.w.op = 0x0C)) (wSort 0x0C) (0) (5) (((wSort 0x0C).nextSort 0).getD wCtx) := by
  (repeat' apply And.intro) <;> first | decide +kernel | rfl
theorem met_ElementSorts_1 : (fun (s : State) (t cyc : Nat) (c : Ctx) => (s.nextSort t = some c) ∧ (c.w.op = 0x18)) (wSort 0x18) (0) (5) (((wSort 0x18).nextSort 0).getD wCtx) := by
  (repeat' apply And.intro) <;> first | decide +kernel | rfl
theorem met_ElementSorts_2 : (fun (s : State) (t cyc : Nat) (c : Ctx) => (s.nextSort t = some c) ∧ (c.w.op = 0x19)) (wSort 0x19) (0) (5) (((wSort 0x19).nextSort 0).getD wCtx) := by
  (repeat' apply And.intro) <;> first | decide +kernel | rfl
theorem met_ElementSorts_3 : (fun (s : State) (t cyc : Nat) (c : Ctx) => (s.nextSort t = some c) ∧ (c.w.op = 0x1A)) (wSort 0x1A) (0) (5) (((wSort 0x1A).nextSort 0).getD wCtx) := by
  (repeat' apply And.intro) <;> first | decide +kernel | rfl
theorem met_ElementSorts_4 : (fun (s : State) (t cyc : Nat) (c : Ctx) => (s.nextSort t = some c) ∧ (c.w.op = 0x1B)) (wSort 0x1B) (0) (5) (((wSort 0x1B).nextSort 0).getD wCtx) := by
  (repeat' apply And.intro) <;> first | decide +kernel | rfl
theorem met_ElementSorts_5 : (fun (s : State) (t cyc : Nat) (c : Ctx) => (s.nextSort t = some c) ∧ (c.w.op = 0x1C)) (wSort 0x1C) (0) (5) (((wSort 0x1C).nextSort 0).getD wCtx) := by
  (repeat' apply And.intro) <;> first | decide +kernel | rfl
theorem met_ElementSorts_6 : (fun (s : State) (t cyc : Nat) (c : Ctx) => (s.nextSort t = some c) ∧ (c.w.op = 0x1D)) (wSort 0x1D) (0) (5) (((wSort 0x1D).nextSort 0).getD wCtx) := by
  (repeat' apply And.intro) <;> first | decide +kernel | rfl
theorem met_ElementSorts_7 : (fun (s : State) (t cyc : Nat) (c : Ctx) => (s.nextSort t = some c) ∧ (c.w.op = 0x1E)) (wSort 0x1E) (0) (5) (((wSort 0x1E).nextSort 0).getD wCtx) := by
  (repeat' apply And.intro) <;> first | decide +kernel | rfl
theorem met_ElementSorts_8 : (fun (s : State) (t cyc : Nat) (c : Ctx) => (s.nextSort t = some c) ∧ (c.w.op = 0x20)) (wSort 0x20) (0) (5) (((wSort 0x20).nextSort 0).getD wCtx) := by
  (repeat' apply And.intro) <;> first | decide +kernel | rfl
theorem met_ElementSorts_9 : (fun (s : State) (t cyc : Nat) (c : Ctx) => (s.nextSort t = some c) ∧ (c.w.op = 0x21)) (wSort 0x21) (0) (5) (((wSort 0x21).nextSort 0).getD wCtx) := by
  (repeat' apply And.intro) <;> first | decide +kernel | rfl
theorem met_ElementSorts_10 : (fun (s : State) (t cyc : Nat) (c : Ctx) => (s.nextSort t = some c) ∧ (c.w.op = 0x28)) (wSort 0x28) (0) (5) (((wSort 0x28).nextSort 0).getD wCtx) := by
  (repeat' apply And.intro) <;> first | decide +kernel | rfl
theorem met_ElementSorts_11 : (fun (s : State) (t cyc : Nat) (c : Ctx) => (s.nextSort t = some c) ∧ (c.w.op = 0x2C)) (wSort 0x2C) (0) (5) (((wSort 0x2C).nextSort 0).getD wCtx) := by
  (repeat' apply And.intro) <;> first | decide +kernel | rfl
theorem met_ElementSorts_12 : (fun (s : State) (t cyc : Nat) (c : Ctx) => (s.nextSort t = some c) ∧ (c.w.op = 0x30)) (wSort 0x30) (0) (5) (((wSort 0x30).nextSort 0).getD wCtx) := by
  (repeat' apply And.intro) <;> first | decide +kernel | rfl
theorem met_ElementSorts_13 : (fun (s : State) (t cyc : Nat) (c : Ctx) => (s.nextSort t = some c) ∧ (c.w.op = 0x39)) (wSort 0x39) (0) (5) (((wSort 0x39).nextSort 0).getD wCtx) := by
  (repeat' apply And.intro) <;> first | decide +kernel | rfl
theorem met_VolumeSorts_1 : (fun (s : State) (t cyc : Nat) (c : Ctx) => (s.nextSort t = some c) ∧ (c.w.op = 0x10) ∧ (c.w.scope ≠ 4)) (wSort 0x10) (0) (5) (((wSort 0x10).nextSort 0).getD wCtx) := by
  (repeat' apply And.intro) <;> first | decide +kernel | rfl
theorem met_VolumeSorts_2 : (fun (s : State) (t cyc : Nat) (c : Ctx) => (s.nextSort t = some c) ∧ (c.w.op = 0x10) ∧ (c.w.scope = 4)) (wSort 0x10 4) (0) (5) (((wSort 0x10 4).nextSort 0).getD wCtx) := by
  (repeat' apply And.intro) <;> first | decide +kernel | rfl
theorem met_VolumeSorts_3 : (fun (s : State) (t cyc : Nat) (c : Ctx) => (s.nextSort t = some c) ∧ (c.w.op = 0x25) ∧ (c.w.scope ≠ 4)) (wSort 0x25) (0) (5) (((wSort 0x25).nextSort 0).getD wCtx) := by
  (repeat' apply And.intro) <;> first | decide +kernel | rfl
theorem met_VolumeSorts_4 : (fun (s : State) (t cyc : Nat) (c : Ctx) => (s.nextSort t = some c) ∧ (c.w.op = 0x25) ∧ (c.w.scope = 4)) (wSort 0x25 4) (0) (5) (((wSort 0x25 4).nextSort 0).getD wCtx) := by
  (repeat' apply And.intro) <;> first | decide +kernel | rfl
theorem met_VolumeSorts_5 : (fun (s : State) (t cyc : Nat) (c : Ctx) => (s.nextSort t = some c) ∧ (c.w.op = 0x24) ∧ (c.w.scope ≠ 4)) (wSort 0x24) (0) (5) (((wSort 0x24).nextSort 0).getD wCtx) := by
  (repeat' apply And.intro) <;> first | decide +kernel | rfl
theorem met_VolumeSorts_6 : (fun (s : State) (t cyc : Nat) (c : Ctx) => (s.nextSort t = some c) ∧ (c.w.op = 0x24) ∧ (c.w.scope = 4)) (wSort 0x24 4) (0) (5) (((wSort 0x24 4).nextSort 0).getD wCtx) := by
  (repeat' apply And.intro) <;> first | decide +kernel | rfl
theorem met_VolumeSorts_7 : (fun (s : State) (t cyc : Nat) (c : Ctx) => (s.nextSort t = some c) ∧ (c.w.op = 0x38) ∧ (c.w.scope ≠ 4)) (wSort 0x38) (0) (5) (((wSort 0x38).nextSort 0).getD wCtx) := by
  (repeat' apply And.intro) <;> first | decide +kernel | rfl
theorem met_VolumeSorts_8 : (fun (s : State) (t cyc : Nat) (c : Ctx) => (s.nextSort t = some c) ∧ (c.w.op = 0x38) ∧ (c.w.scope = 4)) (wSort 0x38 4) (0) (5) (((wSort 0x38 4).nextSort 0).getD wCtx) := by
  (repeat' apply And.intro) <;> first | decide +kernel | rfl
theorem met_GalleyAndPeriod_1 : (fun (s : State) (a b : Bool) => (s.glb.chaseUp = false)) (State.reset) (true) (true) := by
  (repeat' apply And.intro) <;> first | decide +kernel | rfl
theorem met_GalleyAndPeriod_2 : (fun (s : State) (a b : Bool) => let u := s.periodEnd
    (s.glb.chaseUp = true) ∧ (u.time % 20000 ≠ 0)) ({ State.reset with glb := { State.reset.glb with chaseUp := true } }) (true) (true) := by
  (repeat' apply And.intro) <;> first | decide +kernel | rfl
theorem met_GalleyAndPeriod_3 : (fun (s : State) (a b : Bool) => let u := s.periodEnd
    (s.glb.chaseUp = true) ∧ (u.time % 20000 = 0)) (wSet [(Reg.CHS_TIME, 20000 - State.reset.periodNs)] ({ State.reset with glb := { State.reset.glb with chaseUp := true } })) (true) (true) := by
  (repeat' apply And.intro) <;> first | decide +kernel | rfl
theorem met_GalleyAndPeriod_4 : (fun (s : State) (n : Nat) (ls : List Nat) => (s.glb.chaseUp = false)) (State.reset) (0) ([]) := by
  (repeat' apply And.intro) <;> first | decide +kernel | rfl
theorem met_GalleyAndPeriod_5 : (fun (s : State) (n : Nat) (ls : List Nat) => (s.glb.chaseUp = true)) ({ State.reset with glb := { State.reset.glb with chaseUp := true } }) (100) ([]) := by
  (repeat' apply And.intro) <;> first | decide +kernel | rfl
theorem met_GalleyAndPeriod_6 : (fun (s : State) => (s.glb.chaseUp = true) ∧ (s.glb.safeLeft ≠ 0) ∧ (s.glb.safeLeft < 9)) ({ State.reset with glb := { State.reset.glb with chaseUp := true, safeLeft := 3 } }) := by
  (repeat' apply And.intro) <;> first | decide +kernel | rfl
theorem met_GalleyAndPeriod_7 : (fun (s : State) => (s.glb.chaseUp = true) ∧ (s.glb.safeLeft = 10)) ({ State.reset with glb := { State.reset.glb with chaseUp := true, safeLeft := 10 } }) := by
  (repeat' apply And.intro) <;> first | decide +kernel | rfl
theorem met_GalleyAndPeriod_8 : (fun (s : State) => (s.glb.chaseUp = true) ∧ (s.glb.safeLeft = 0) ∧ (s.holder = true)) (wSet [(Reg.CHS_STAT_TOKEN, 1)] ({ State.reset with glb := { State.reset.glb with chaseUp := true } })) := by
  (repeat' apply And.intro) <;> first | decide +kernel | rfl
theorem met_GalleyAndPeriod_9_1 : (fun (s : State) => (s.glb.chaseUp = false ∨ (s.glb.safeLeft = 0 ∧ s.holder = false))) (State.reset) := by
  (repeat' apply And.intro) <;> first | decide +kernel | rfl
theorem met_GalleyAndPeriod_9_2 : (fun (s : State) => (s.glb.chaseUp = false ∨ (s.glb.safeLeft = 0 ∧ s.holder = false))) ({ State.reset with glb := { State.reset.glb with chaseUp := true } }) := by
  (repeat' apply And.intro) <;> first | decide +kernel | rfl
theorem met_GalleyAndPeriod_10 : (fun (s : State) => ((s.entry (s.get Reg.PRS_GAL_CYC % 8)).state ≠ 1)) (State.reset) := by
  (repeat' apply And.intro) <;> first | decide +kernel | rfl
theorem met_GalleyAndPeriod_11 : (fun (s : State) (k last : Nat) => (k = s.get Reg.PRS_GAL_CYC) ∧ (last = satU 16 (s.prs.proofCyc.foldl max 0)) ∧ ((s.entry (k % 8)).state = 1) ∧ ((s.entry (k % 8)).cyc = k) ∧ (s.prs.runs.filter (fun r => r.kind == 0) = []) ∧ (s.prs.discard = true)) ({ { State.reset with prs := { State.reset.prs with discard := true } } with gal := { State.reset.gal with entries := List.replicate 8 { cyc := 0, state := 1 } } }) (0) (0) := by
  (repeat' apply And.intro) <;> first | decide +kernel | rfl
theorem met_GalleyAndPeriod_12 : (fun (s : State) (k last : Nat) => (k = s.get Reg.PRS_GAL_CYC) ∧ (last = satU 16 (s.prs.proofCyc.foldl max 0)) ∧ ((s.entry (k % 8)).state = 1) ∧ ((s.entry (k % 8)).cyc = k) ∧ (s.prs.runs.filter (fun r => r.kind == 0) = []) ∧ (s.gal.startBlind = true) ∧ (s.startOver = false)) (wSet [(Reg.PRS_FCTL_RUN, 1)] ({ State.reset with gal := { State.reset.gal with entries := List.replicate 8 { cyc := 0, state := 1 }, tgt := [(0, [1]), (2, [2])], startBlind := true } })) (0) (0) := by
  (repeat' apply And.intro) <;> first | decide +kernel | rfl
theorem met_GalleyAndPeriod_13 : (fun (s : State) (k last : Nat) => (k = s.get Reg.PRS_GAL_CYC) ∧ (last = satU 16 (s.prs.proofCyc.foldl max 0)) ∧ ((s.entry (k % 8)).state = 1) ∧ ((s.entry (k % 8)).cyc = k) ∧ (s.prs.runs.filter (fun r => r.kind == 0) = []) ∧ (s.prs.discard = false) ∧ ((Tab.find s.gal.tgt 0).isSome = true) ∧ ((Tab.find s.gal.tgt 2).isSome = true) ∧ (s.on Reg.PRS_FCTL_RUN = true) ∧ (s.halted = false) ∧ (s.gal.startBlind = false) ∧ (s.on Reg.PRS_GAL_EXP_WHEN = true)) (wSet [(Reg.PRS_FCTL_RUN, 1), (Reg.PRS_GAL_EXP_WHEN, 1), (Reg.PRS_GAL_STAT_BLIND, 0)] ({ State.reset with gal := { State.reset.gal with entries := List.replicate 8 { cyc := 0, state := 1 }, tgt := [(0, [1]), (2, [2])], startBlind := false } })) (0) (0) := by
  (repeat' apply And.intro) <;> first | decide +kernel | rfl
theorem met_GalleyAndPeriod_14 : (fun (s : State) (p : Plan) => (s.gal.plan = some p) ∧ (p.basis * 20000 + s.planLife ≤ s.time)) (wSet [(Reg.CHS_TIME, 4000000)] ({ State.reset with gal := { State.reset.gal with plan := some { basis := 0, steps := [], status := 0 } } })) ({ basis := 0, steps := [], status := 0 }) := by
  (repeat' apply And.intro) <;> first | decide +kernel | rfl
theorem met_GalleyAndPeriod_15 : (fun (s : State) (p : Plan) => (s.gal.plan = some p) ∧ (s.time < p.basis * 20000 + s.planLife)) ({ State.reset with gal := { State.reset.gal with plan := some { basis := 0, steps := [], status := 0 } } }) ({ basis := 0, steps := [], status := 0 }) := by
  (repeat' apply And.intro) <;> first | decide +kernel | rfl
theorem met_TrainingCommands_1 : (fun (s : State) (r : Nat) (d : Desc) => let u := s.beginDesc r 0x0400 d
    let b := (bufBytes d).take 32
    let p := u.stage1 r 2 0x0400 (rd b 0 1) 0 (digest8 b) (u.get Reg.CHS_PNUM) (.trainSetup b) true
    (s.serves 0 r 0x0400 d { priv := 2, standby := true, buf := .reads, lenOk := fun n => decide (32 ≤ n) }) ∧ (rd b 3 1 = 0) ∧ (s.planBad (readPlan b) = false) ∧ (s.trnState = 0 ∨ s.trnState = 3)) (wGot { wRing 0 with prs := { State.reset.prs with slots := [(0, { forme := some { wForme 0 with mbytes := 4096 } }), (1, { forme := some { wForme 2 with mbytes := 4096 } }), (2, { forme := some { wForme 2 with mbytes := 4096 } })] } } 0 0x0400 (wBuf 32 (le 1 0 ++ le 1 1 ++ le 1 2 ++ le 1 0 ++ le 4 0 ++ le 4 64 ++ le 4 64 ++ le 4 0 ++ le 4 0 ++ le 4 64 ++ le 4 128))) (0) (wBuf 32 (le 1 0 ++ le 1 1 ++ le 1 2 ++ le 1 0 ++ le 4 0 ++ le 4 64 ++ le 4 64 ++ le 4 0 ++ le 4 0 ++ le 4 64 ++ le 4 128)) := by
  (repeat' apply And.intro) <;> first | decide +kernel | rfl
theorem met_TrainingCommands_2 : (fun (s : State) (r : Nat) (d : Desc) => (s.serves 0 r 0x0400 d { priv := 2, standby := true, buf := .reads, lenOk := fun n => decide (32 ≤ n) }) ∧ (rd ((bufBytes d).take 32) 3 1 ≠ 0)) (wGot (wRing 0) 0 0x0400 (wBuf 32 [0, 0, 0, 1])) (0) (wBuf 32 [0, 0, 0, 1]) := by
  (repeat' apply And.intro) <;> first | decide +kernel | rfl
theorem met_TrainingCommands_3 : (fun (s : State) (r : Nat) (d : Desc) => let u := (s.beginDesc r 0x0401 d).logC (.host r) 2 0 0x0401 2 0 0 1
    (s.serves 0 r 0x0401 d { priv := 2, standby := true }) ∧ (s.trnState = 3) ∧ (s.get Reg.PRS_TRN_STAT_HCAUSE ≠ 2) ∧ (s.get Reg.PRS_TRN_STAT_HCAUSE ≠ 5) ∧ (bits d.p0 0 1 = 1)) (wGot (wSet [(Reg.PRS_TRN_STAT_STATE, 3), (Reg.PRS_TRN_STAT_HCAUSE, 1)] (wRing 0)) 0 0x0401 { wDesc with p0 := 1 }) (0) ({ wDesc with p0 := 1 }) := by
  (repeat' apply And.intro) <;> first | decide +kernel | rfl
theorem met_TrainingCommands_4 : (fun (s : State) (r : Nat) (d : Desc) => let u := (s.beginDesc r 0x0401 d).logC (.host r) 2 0 0x0401 2 0 0 0
    (s.serves 0 r 0x0401 d { priv := 2, standby := true }) ∧ (s.trnState ≠ 0) ∧ (s.trnState ≠ 5) ∧ (bits d.p0 0 1 = 0)) (wGot (wSet [(Reg.PRS_TRN_STAT_STATE, 2)] (wRing 0)) 0 0x0401 wDesc) (0) (wDesc) := by
  (repeat' apply And.intro) <;> first | decide +kernel | rfl
theorem met_TrainingCommands_5 : (fun (s : State) (r : Nat) (d : Desc) => (s.serves 0 r 0x0401 d { priv := 2, standby := true }) ∧ (s.trnState = 0)) (wGot (wRing 0) 0 0x0401 wDesc) (0) (wDesc) := by
  (repeat' apply And.intro) <;> first | decide +kernel | rfl
theorem met_TrainingCommands_6 : (fun (s : State) (r : Nat) (d : Desc) => (s.serves 0 r 0x0402 d { priv := 2, standby := true }) ∧ (s.trn.offer = some d.p0)) (wGot { wRing 0 with trn := { State.reset.trn with offer := some 5 } } 0 0x0402 { wDesc with p0 := 5 }) (0) ({ wDesc with p0 := 5 }) := by
  (repeat' apply And.intro) <;> first | decide +kernel | rfl
theorem met_TrainingCommands_7 : (fun (s : State) (r : Nat) (d : Desc) (n : Nat) => (s.serves 0 r 0x0402 d { priv := 2, standby := true }) ∧ (s.trn.offer = some n) ∧ (n ≠ d.p0)) (wGot { wRing 0 with trn := { State.reset.trn with offer := some 5 } } 0 0x0402 { wDesc with p0 := 6 }) (0) ({ wDesc with p0 := 6 }) (5) := by
  (repeat' apply And.intro) <;> first | decide +kernel | rfl
theorem met_TrainingCommands_8 : (fun (s : State) (r : Nat) (d : Desc) (n : Nat) => (s.serves 0 r 0x0403 d { priv := 1, standby := true }) ∧ (s.trn.offer = some n) ∧ (s.trnState ≠ 4)) (wGot { wRing 0 with trn := { State.reset.trn with offer := some 5 } } 0 0x0403 wDesc) (0) (wDesc) (5) := by
  (repeat' apply And.intro) <;> first | decide +kernel | rfl
theorem met_TrainingCommands_9 : (fun (s : State) (r : Nat) (d : Desc) => (s.serves 0 r 0x0403 d { priv := 1, standby := true }) ∧ (s.trn.offer = none)) (wGot (wRing 0) 0 0x0403 wDesc) (0) (wDesc) := by
  (repeat' apply And.intro) <;> first | decide +kernel | rfl
theorem met_TrainingCommands_10 : (fun (s : State) (r : Nat) (d : Desc) => (s.serves 0 r 0x0404 d { priv := 2, standby := true }) ∧ (s.on Reg.PRS_TRN_STAT_PRIOR = true) ∧ (s.trnState ≠ 5)) (wGot (wSet [(Reg.PRS_TRN_STAT_PRIOR, 1)] (wRing 0)) 0 0x0404 wDesc) (0) (wDesc) := by
  (repeat' apply And.intro) <;> first | decide +kernel | rfl
theorem met_TrainingCommands_11 : (fun (s : State) (r : Nat) (d : Desc) => (s.serves 0 r 0x0404 d { priv := 2, standby := true }) ∧ (s.on Reg.PRS_TRN_STAT_PRIOR = false)) (wGot (wRing 0) 0 0x0404 wDesc) (0) (wDesc) := by
  (repeat' apply And.intro) <;> first | decide +kernel | rfl
theorem met_TrainingCommands_12 : (fun (s : State) (k sg g : Nat) (t : List (Nat × Nat × Nat)) => (s.trn.due = (k, sg, g) :: t) ∧ (k * 20000 + 2100000 ≤ s.time)) (wSet [(Reg.CHS_TIME, 2100000)] ({ State.reset with trn := { State.reset.trn with due := [(0, 1, 2)] } })) (0) (1) (2) ([]) := by
  (repeat' apply And.intro) <;> first | decide +kernel | rfl
theorem met_TrainingCommands_13 : (fun (s : State) => (s.trn.stepDone = true) ∧ (s.trnState ≠ 2)) ({ State.reset with trn := { State.reset.trn with stepDone := true } }) := by
  (repeat' apply And.intro) <;> first | decide +kernel | rfl
theorem met_TrainingCommands_14 : (fun (s : State) => (s.trn.stepDone = true) ∧ (s.trnState = 2)) (wSet [(Reg.PRS_TRN_STAT_STATE, 2)] ({ State.reset with trn := { State.reset.trn with stepDone := true } })) := by
  (repeat' apply And.intro) <;> first | decide +kernel | rfl
theorem met_TrainingCommands_15 : (fun (s : State) (q : Score) (t : List Score) => (s.trn.queue = q :: t) ∧ (q.cand = none) ∧ (q.cyc * 20000 + 2100000 ≤ s.time)) (wSet [(Reg.CHS_TIME, 2100000)] ({ State.reset with trn := { State.reset.trn with queue := [{ cyc := 0, live := [], band := none, sigma := 0, inputs := {} }] } })) ({ cyc := 0, live := [], band := none, sigma := 0, inputs := {} }) ([]) := by
  (repeat' apply And.intro) <;> first | decide +kernel | rfl
theorem met_TrainingCommands_16 : (fun (s : State) (q : Score) (t : List Score) => (s.trn.queue = q :: t) ∧ (q.cyc * 20000 + 2100000 ≤ s.time) ∧ (s.get Reg.PRS_TRN_CTL_SHDIV ≠ 0)) (wSet [(Reg.CHS_TIME, 2100000)] ({ State.reset with trn := { State.reset.trn with queue := [{ cyc := 0, live := [], band := none, sigma := 0, inputs := {}, cand := some [] }] } })) ({ cyc := 0, live := [], band := none, sigma := 0, inputs := {}, cand := some [] }) ([]) := by
  (repeat' apply And.intro) <;> first | decide +kernel | rfl
theorem met_TrainingCommands_17 : (fun (s : State) (q : Score) (t : List Score) => (s.trn.queue = q :: t) ∧ (q.cyc * 20000 + 2100000 ≤ s.time) ∧ (s.get Reg.PRS_TRN_CTL_SHDIV = 0)) (wSet [(Reg.CHS_TIME, 2100000), (Reg.PRS_TRN_CTL_SHDIV, 0)] ({ State.reset with trn := { State.reset.trn with queue := [{ cyc := 0, live := [], band := none, sigma := 0, inputs := {}, cand := some [] }] } })) ({ cyc := 0, live := [], band := none, sigma := 0, inputs := {}, cand := some [] }) ([]) := by
  (repeat' apply And.intro) <;> first | decide +kernel | rfl
theorem met_TrainingCommands_19 : (fun (s : State) (n : Nat) => (s.get Reg.PRS_TRN_CTL2_OFFER ≠ 0) ∧ (s.trn.offer = some n) ∧ (s.trnState = 4)) (wSet [(Reg.PRS_TRN_CTL2_OFFER, 1), (Reg.PRS_TRN_STAT_STATE, 4)] ({ State.reset with trn := { State.reset.trn with offer := some 5 } })) (5) := by
  (repeat' apply And.intro) <;> first | decide +kernel | rfl
theorem met_TrainingCommands_20 : (fun (s : State) (p : Promo) (t : Nat) => (s.trn.promo = some p) ∧ (p.copied = some t) ∧ (p.kind = 1) ∧ (s.time % 20000 = 0) ∧ (t + 2000000 ≤ s.time) ∧ (s.glb.mgmtDown = false) ∧ (p.hit = false) ∧ (s.standby = false ∨ p.got = true)) (wSet [(Reg.CHS_TIME, 2000000)] ({ State.reset with trn := { State.reset.trn with promo := some { kind := 1, st := wStaged, reason := 0, auto := false, copied := some 0, oldDigest := 0 } } })) ({ kind := 1, st := wStaged, reason := 0, auto := false, copied := some 0, oldDigest := 0 }) (0) := by
  (repeat' apply And.intro) <;> first | decide +kernel | rfl
theorem met_TrainingCommands_21 : (fun (s : State) => (s.on Reg.PRS_TRN_STAT_PROBE = true) ∧ (frac16 s.trn.wdSec s.trn.nSec ≤ max (2 * s.trn.fPrior) 655) ∧ (2 ≤ s.trn.probeLeft)) (wSet [(Reg.PRS_TRN_STAT_PROBE, 1)] ({ State.reset with trn := { State.reset.trn with nSec := 1, probeLeft := 2 } })) := by
  (repeat' apply And.intro) <;> first | decide +kernel | rfl
theorem met_TrainingCommands_22 : (fun (s : State) => (s.on Reg.PRS_TRN_STAT_PROBE = true) ∧ (max (2 * s.trn.fPrior) 655 < frac16 s.trn.wdSec s.trn.nSec) ∧ (2 ≤ s.trn.probeLeft) ∧ (s.trn.promo = none)) (wSet [(Reg.PRS_TRN_STAT_PROBE, 1)] ({ State.reset with trn := { State.reset.trn with nSec := 1, wdSec := 1, probeLeft := 2 } })) := by
  (repeat' apply And.intro) <;> first | decide +kernel | rfl
theorem met_TrainingCommands_23 : (fun (s : State) => (s.get Reg.PRS_TRN_CTL3_CKPT ≠ 0) ∧ (s.trnState ≠ 0)) (wSet [(Reg.PRS_TRN_CTL3_CKPT, 1), (Reg.PRS_TRN_STAT_STATE, 1)]) := by
  (repeat' apply And.intro) <;> first | decide +kernel | rfl
theorem met_ChangeCommands_1 : (fun (s : State) (r : Nat) (d : Desc) (l : ListIn) => let u := s.beginDesc r 0x0501 d
    let p := u.listStage r 0x0501 0 0 (digest8 (bufBytes d)) true l
    (s.serves 0 r 0x0501 d { priv := 2, standby := true, buf := .reads }) ∧ (ListIn.read (bufBytes d) = .ok l) ∧ (s.chs.lists.length < 16) ∧ (u.listBad l = none)) (wGot (wRing 0) 0 0x0501 wList) (0) (wList) (wListIn) := by
  (repeat' apply And.intro) <;> first | decide +kernel | rfl
theorem met_ChangeCommands_2 : (fun (s : State) (r : Nat) (d : Desc) (x : Nat × Nat × Nat) => (s.serves 0 r 0x0501 d { priv := 2, standby := true, buf := .reads }) ∧ (ListIn.read (bufBytes d) = .error x) ∧ (s.chs.lists.length < 16)) (wGot (wRing 0) 0 0x0501 (wBuf 16)) (0) (wBuf 16) ((1, 0, 0)) := by
  (repeat' apply And.intro) <;> first | decide +kernel | rfl
theorem met_ChangeCommands_3 : (fun (s : State) (r : Nat) (d : Desc) (l : ListIn) => (s.serves 0 r 0x0501 d { priv := 2, standby := true, buf := .reads }) ∧ (ListIn.read (bufBytes d) = .ok l) ∧ (16 ≤ s.chs.lists.length)) (wGot { wRing 0 with chs := { State.reset.chs with lists := List.replicate 16 { st := wStaged, check := 0, hold := 1, chkv := 0, steps := [] } } } 0 0x0501 wList) (0) (wList) (wListIn) := by
  (repeat' apply And.intro) <;> first | decide +kernel | rfl
theorem met_ChangeCommands_4 : (fun (s : State) (r : Nat) (d : Desc) (rs : List (List Byte)) => (rs = (List.range (d.len / 32)).map (fun k => ((bufBytes d).drop (32 * k)).take 32)) ∧ (s.serves 0 r 0x0502 d { priv := 2, standby := true, buf := .reads, lenOk := fun n => decide (n % 32 = 0 ∧ n ≤ 10624) }) ∧ (s.bankBad rs = none)) (wGot (wRing 0) 0 0x0502 (wBuf 32 (le 2 3 ++ le 1 1 ++ le 1 0 ++ zeros 28))) (0) (wBuf 32 (le 2 3 ++ le 1 1 ++ le 1 0 ++ zeros 28)) ((List.range 1).map (fun k => ((bufBytes (wBuf 32 (le 2 3 ++ le 1 1 ++ le 1 0 ++ zeros 28))).drop (32 * k)).take 32)) := by
  (repeat' apply And.intro) <;> first | decide +kernel | rfl
theorem met_ChangeCommands_5 : (fun (s : State) (r : Nat) (d : Desc) (rs : List (List Byte)) (why k : Nat) => (rs = (List.range (d.len / 32)).map (fun k => ((bufBytes d).drop (32 * k)).take 32)) ∧ (s.serves 0 r 0x0502 d { priv := 2, standby := true, buf := .reads, lenOk := fun n => decide (n % 32 = 0 ∧ n ≤ 10624) }) ∧ (s.bankBad rs = some (why, k))) (wGot (wRing 0) 0 0x0502 (wBuf 32 (le 2 3))) (0) (wBuf 32 (le 2 3)) ((List.range 1).map (fun k => ((bufBytes (wBuf 32 (le 2 3))).drop (32 * k)).take 32)) (1) (0) := by
  (repeat' apply And.intro) <;> first | decide +kernel | rfl
theorem met_ChangeCommands_6 : (fun (s : State) (r : Nat) (d : Desc) => let u := s.beginDesc r 0x0504 d
    let p := u.listStage r 0x0504 0 (u.get Reg.CHS_PERIOD_CYC) d.p0 false (periodList d.p0)
    (s.serves 0 r 0x0504 d { priv := 2, standby := true, parOk := d.p0 == 500 || d.p0 == 1000 || d.p0 == 2000 }) ∧ (s.chs.lists.length < 16) ∧ (u.listBad (periodList d.p0) = none)) (wGot (wRing 0) 0 0x0504 { wDesc with p0 := 1000 }) (0) ({ wDesc with p0 := 1000 }) := by
  refine ⟨?_, ?_, wPer_fit⟩ <;> decide +kernel
theorem met_ChangeCommands_7 : (fun (s : State) (r : Nat) (d : Desc) (l : ListIn) => let u := s.beginDesc r 0x0505 d
    let p := u.listStage r 0x0505 0 (u.get Reg.CHS_STAT_LAW) d.p0 false l
    (l = { check := 0, hold := 1, chkv := 0, steps := [[{ type := 6, first := 0, value := d.p0, mask := 0, last := 0 }]] }) ∧ (s.serves 0 r 0x0505 d { priv := 2, standby := true, parOk := decide (d.p0 ≤ 1) }) ∧ (s.chs.lists.length < 16) ∧ (u.listBad l = none) ∧ (d.p0 ≠ 0 ∨ lawBound false s.lanes ≤ s.lawWindow)) (wGot (wRing 0) 0 0x0505 { wDesc with p0 := 1 }) (0) ({ wDesc with p0 := 1 }) ({ check := 0, hold := 1, chkv := 0, steps := [[{ type := 6, first := 0, value := 1, mask := 0, last := 0 }]] }) := by
  (repeat' apply And.intro) <;> first | decide +kernel | rfl
theorem met_ChangeCommands_8 : (fun (s : State) (r : Nat) (d : Desc) => (s.serves 0 r 0x0505 d { priv := 2, standby := true, parOk := decide (d.p0 ≤ 1) }) ∧ (s.chs.lists.length < 16) ∧ (d.p0 = 0) ∧ (s.lawWindow < lawBound false s.lanes)) (wGot { wSet [(Reg.CHS_PERIOD_CYC, 500)] (wRing 0) with spr := { State.reset.spr with units := [(327680, { st := 2 }), (327681, { st := 2 })] } } 0 0x0505 wDesc) (0) (wDesc) := by
  (repeat' apply And.intro) <;> first | decide +kernel | rfl
theorem met_ChangeCommands_9 : (fun (s : State) (r : Nat) (d : Desc) (l : ChgList) => (s.serves 0 r 0x0506 d { priv := 2, standby := true }) ∧ (s.chs.lists.find? (fun l => l.st.no == d.p0) = some l) ∧ (l.done = 0)) (wGot { wRing 0 with chs := { State.reset.chs with lists := [{ st := { wStaged with no := 7 }, check := 0, hold := 1, chkv := 0, steps := [] }] } } 0 0x0506 { wDesc with p0 := 7 }) (0) ({ wDesc with p0 := 7 }) ({ st := { wStaged with no := 7 }, check := 0, hold := 1, chkv := 0, steps := [] }) := by
  (repeat' apply And.intro) <;> first | decide +kernel | rfl
theorem met_ChangeCommands_10 : (fun (s : State) (r : Nat) (d : Desc) (l : ChgList) => (s.serves 0 r 0x0506 d { priv := 2, standby := true }) ∧ (s.chs.lists.find? (fun l => l.st.no == d.p0) = some l) ∧ (l.done ≠ 0)) (wGot { wRing 0 with chs := { State.reset.chs with lists := [{ st := { wStaged with no := 7 }, check := 0, hold := 1, chkv := 0, steps := [], done := 1 }] } } 0 0x0506 { wDesc with p0 := 7 }) (0) ({ wDesc with p0 := 7 }) ({ st := { wStaged with no := 7 }, check := 0, hold := 1, chkv := 0, steps := [], done := 1 }) := by
  (repeat' apply And.intro) <;> first | decide +kernel | rfl
theorem met_ChangeCommands_11 : (fun (s : State) (r : Nat) (d : Desc) => (s.serves 0 r 0x0506 d { priv := 2, standby := true }) ∧ (s.chs.lists.find? (fun l => l.st.no == d.p0) = none)) (wGot (wRing 0) 0 0x0506 { wDesc with p0 := 7 }) (0) ({ wDesc with p0 := 7 }) := by
  (repeat' apply And.intro) <;> first | decide +kernel | rfl
theorem met_StageCommands_1 : (fun (s : State) (l : Nat) (f : List Byte) => (s.glb.chaseUp = false ∨ s.linkHears l = false)) (State.reset) (3) ([]) := by
  (repeat' apply And.intro) <;> first | decide +kernel | rfl
theorem met_StageCommands_2 : (fun (s : State) (l : Nat) (f : List Byte) => (s.glb.chaseUp = true) ∧ (s.linkHears l = true) ∧ (s.injectedOn (detN 14 0) l = false) ∧ (f.length ≠ 40 ∨ rd f 0 1 ≠ 8 ∨ rd f 36 4 ≠ crc32 (f.take 36))) (wSet [(Reg.STL_UP, 8)] ({ State.reset with glb := { State.reset.glb with chaseUp := true } })) (3) ([]) := by
  (repeat' apply And.intro) <;> first | decide +kernel | rfl
theorem met_StageCommands_3 : (fun (s : State) (l : Nat) (f : List Byte) => (s.glb.chaseUp = true) ∧ (s.linkHears l = true) ∧ (s.injectedOn (detN 14 0) l = false) ∧ (f.length = 40) ∧ (rd f 0 1 = 8) ∧ (rd f 36 4 = crc32 (f.take 36)) ∧ (rd f 1 1 ≠ s.boardOf l)) (wSet [(Reg.STL_UP, 8)] ({ State.reset with glb := { State.reset.glb with chaseUp := true } })) (3) ((wCrc (le 1 8 ++ le 1 4 ++ le 1 0 ++ zeros 33))) := by
  (repeat' apply And.intro) <;> first | decide +kernel | rfl
theorem met_StageCommands_4_1 : (fun (s : State) (l : Nat) (f : List Byte) => (s.glb.chaseUp = true) ∧ (s.linkHears l = true) ∧ (s.injectedOn (detN 14 0) l = false) ∧ (f.length = 40) ∧ (rd f 0 1 = 8) ∧ (rd f 36 4 = crc32 (f.take 36)) ∧ (rd f 1 1 = s.boardOf l)) (wSet [(Reg.STL_UP, 8)] ({ State.reset with glb := { State.reset.glb with chaseUp := true } })) (3) ((wCrc (le 1 8 ++ le 1 3 ++ le 1 0 ++ zeros 33))) := by
  (repeat' apply And.intro) <;> first | decide +kernel | rfl
theorem met_StageCommands_4_2 : (fun (s : State) (l : Nat) (f : List Byte) => (s.glb.chaseUp = true) ∧ (s.linkHears l = true) ∧ (s.injectedOn (detN 14 0) l = false) ∧ (f.length = 40) ∧ (rd f 0 1 = 8) ∧ (rd f 36 4 = crc32 (f.take 36)) ∧ (rd f 1 1 = s.boardOf l)) (wSet [(Reg.STL_UP, 8)] ({ State.reset with glb := { State.reset.glb with chaseUp := true } })) (3) ((wCrc (le 1 8 ++ le 1 3 ++ le 1 12 ++ zeros 33))) := by
  (repeat' apply And.intro) <;> first | decide +kernel | rfl
theorem met_StageCommands_5 : (fun (s : State) (l : Nat) => (s.glb.chaseUp = true) ∧ (s.linkUp l = false) ∧ ((s.link l).training = false) ∧ ((s.link l).retry ≤ s.time) ∧ (l ≠ 39) ∧ (s.linkMapped l = true)) (wSet [(Reg.STL_LMAP, 8)] ({ State.reset with glb := { State.reset.glb with chaseUp := true } })) (3) := by
  (repeat' apply And.intro) <;> first | decide +kernel | rfl
theorem met_StageCommands_6 : (fun (s : State) (l : Nat) => (s.glb.chaseUp = false ∨ s.linkUp l = true ∨ s.time < (s.link l).retry)) (State.reset) (3) := by
  (repeat' apply And.intro) <;> first | decide +kernel | rfl
theorem met_StageCommands_7 : (fun (s : State) (q : Nat) => (s.holder = true) ∧ (s.pst q = 1) ∧ ((s.phase q).since + 40000 < s.time)) (wSet [(Reg.CHS_STAT_TOKEN, 1), (Reg.CHS_TIME, 40001), (Reg.STL_PSTAT_STATE 5, 1)]) (5) := by
  (repeat' apply And.intro) <;> first | decide +kernel | rfl
theorem met_StageCommands_8 : (fun (s : State) (q : Nat) => (s.holder = true) ∧ (s.pst q = 2) ∧ (s.get Reg.STL_SHED_WARMHOLD ≠ 0) ∧ ((s.phase q).job = 0) ∧ (s.groupHeld (phaseGroup q) = false) ∧ (s.chs.turn.contains q = false) ∧ ((s.phase q).since + s.get Reg.STL_SHED_WARMHOLD * 1000000 ≤ s.time)) (wSet [(Reg.CHS_STAT_TOKEN, 1), (Reg.CHS_TIME, 2000000), (Reg.STL_SHED_WARMHOLD, 2), (Reg.STL_PSTAT_STATE 5, 2)]) (5) := by
  (repeat' apply And.intro) <;> first | decide +kernel | rfl
theorem met_StageCommands_9 : (fun (s : State) (q : Nat) => (s.get Reg.STL_SHED_WARMHOLD = 0)) (wSet [(Reg.STL_SHED_WARMHOLD, 0)]) (5) := by
  (repeat' apply And.intro) <;> first | decide +kernel | rfl
theorem met_StageCommands_10 : (fun (s : State) (q t : Nat) => (s.holder = true) ∧ ((s.phase q).estAt = some t) ∧ (s.pst q = 7) ∧ (t + min 200 (s.get Reg.STL_DET2_ESTMAX) * 1000000 ≤ s.time)) ({ wSet [(Reg.CHS_STAT_TOKEN, 1), (Reg.STL_PSTAT_STATE 5, 7), (Reg.CHS_TIME, 200000000)] with chs := { State.reset.chs with phases := [(5, { estAt := some 0 })] } }) (5) (0) := by
  (repeat' apply And.intro) <;> first | decide +kernel | rfl
theorem met_StageCommands_11 : (fun (s : State) (q : Nat) => (s.holder = true) ∧ ((s.phase q).job = 1) ∧ (s.pst q = 2)) ({ wSet [(Reg.CHS_STAT_TOKEN, 1), (Reg.STL_PSTAT_STATE 5, 2)] with chs := { State.reset.chs with phases := [(5, { job := 1 })] } }) (5) := by
  (repeat' apply And.intro) <;> first | decide +kernel | rfl
theorem met_StageCommands_12 : (fun (s : State) (q : Nat) => (s.holder = true) ∧ ((s.phase q).job = 2) ∧ (256 ≤ (s.phase q).jobN)) ({ wSet [(Reg.CHS_STAT_TOKEN, 1), (Reg.STL_PSTAT_STATE 5, 3)] with chs := { State.reset.chs with phases := [(5, { job := 2, jobN := 256, jobSum := 512 })] } }) (5) := by
  (repeat' apply And.intro) <;> first | decide +kernel | rfl
theorem met_StageCommands_13 : (fun (s : State) (q : Nat) => (s.holder = true) ∧ ((s.phase q).job = 3) ∧ ((s.phase q).jobBad = true)) ({ wSet [(Reg.CHS_STAT_TOKEN, 1), (Reg.STL_PSTAT_STATE 5, 3)] with chs := { State.reset.chs with phases := [(5, { job := 3, jobBad := true })] } }) (5) := by
  (repeat' apply And.intro) <;> first | decide +kernel | rfl
theorem met_StageCommands_14 : (fun (s : State) (q : Nat) => (s.holder = true) ∧ ((s.phase q).job = 4) ∧ (s.pst q = 4) ∧ (s.get (Reg.STL_PSTAT_FACTOR q) < 7)) ({ wSet [(Reg.CHS_STAT_TOKEN, 1), (Reg.STL_PSTAT_STATE 5, 4), (Reg.STL_PSTAT_FACTOR 5, 3)] with chs := { State.reset.chs with phases := [(5, { job := 4 })] } }) (5) := by
  (repeat' apply And.intro) <;> first | decide +kernel | rfl
theorem met_StageCommands_15 : (fun (s : State) (r q : Nat) (d : Desc) => (q = bits d.p0 0 8) ∧ (s.serves 0 r 0x0601 d { priv := 2, standby := true, parOk := decide (q < 156) }) ∧ (q < 0x80 ∨ 0x84 < q) ∧ (s.role q = 2 ∨ s.pst q = 8) ∧ (((s.beginDesc r 0x0601 d).sendClr q).phaseBad q = false)) (wGot (wSet [(Reg.STL_PSTAT_STATE 5, 8), (Reg.STL_UP, 2)] (wRing 0)) 0 0x0601 { wDesc with p0 := 5 }) (0) (5) ({ wDesc with p0 := 5 }) := by
  (repeat' apply And.intro) <;> first | decide +kernel | rfl
theorem met_StageCommands_16 : (fun (s : State) (r q : Nat) (d : Desc) => (q = bits d.p0 0 8) ∧ (s.serves 0 r 0x0601 d { priv := 2, standby := true, parOk := decide (q < 156) }) ∧ (q < 0x80 ∨ 0x84 < q) ∧ (s.role q = 2 ∨ s.pst q = 8) ∧ (((s.beginDesc r 0x0601 d).sendClr q).phaseBad q = true)) (wGot (wSet [(Reg.STL_PSTAT_STATE 5, 8)] (wRing 0)) 0 0x0601 { wDesc with p0 := 5 }) (0) (5) ({ wDesc with p0 := 5 }) := by
  (repeat' apply And.intro) <;> first | decide +kernel | rfl
theorem met_StageCommands_17 : (fun (s : State) (r q : Nat) (d : Desc) => let u := s.beginDesc r 0x0602 d
    let p := u.stage1 r 4 0x0602 q (u.role q) d.p1 u.leadPeriod (.phaseRole q d.p1)
    (q = bits d.p0 0 8) ∧ (s.serves 0 r 0x0602 d { priv := 2, standby := true, parOk := decide (q < 156 ∧ d.p1 ≤ 1) }) ∧ (s.pst q ≠ 8) ∧ (s.role q ≠ 2) ∧ (d.p1 ≠ 1 ∨ 52 ≤ q ∨ s.mrset.contains q = false)) (wGot (wSet [(Reg.STL_PSTAT_ROLE 55, 0)] (wRing 0)) 0 0x0602 { wDesc with p0 := 55, p1 := 1 }) (0) (55) ({ wDesc with p0 := 55, p1 := 1 }) := by
  (repeat' apply And.intro) <;> first | decide +kernel | rfl
theorem met_StageCommands_18 : (fun (s : State) (r q : Nat) (d : Desc) => (q = bits d.p0 0 8) ∧ (s.serves 0 r 0x0602 d { priv := 2, standby := true, parOk := decide (q < 156 ∧ d.p1 ≤ 1) }) ∧ (s.pst q ≠ 8) ∧ (s.role q ≠ 2) ∧ (d.p1 = 1) ∧ (q < 52) ∧ (s.mrset.contains q = true)) (wGot (wSet [(Reg.STL_MRSET, 32)] (wRing 0)) 0 0x0602 { wDesc with p0 := 5, p1 := 1 }) (0) (5) ({ wDesc with p0 := 5, p1 := 1 }) := by
  (repeat' apply And.intro) <;> first | decide +kernel | rfl
theorem met_StageCommands_19 : (fun (s : State) (r l : Nat) (d : Desc) => (l = bits d.p0 0 6) ∧ (s.serves 0 r 0x0603 d { priv := 2, standby := true, parOk := decide (l < 40) }) ∧ (l < 39) ∧ (s.linkMapped l = true) ∧ (s.linkUp l = false) ∧ ((s.link l).training = false)) (wGot (wSet [(Reg.STL_LMAP, 8)] (wRing 0)) 0 0x0603 { wDesc with p0 := 3 }) (0) (3) ({ wDesc with p0 := 3 }) := by
  (repeat' apply And.intro) <;> first | decide +kernel | rfl
theorem met_StageCommands_20 : (fun (s : State) (r l : Nat) (d : Desc) => (l = bits d.p0 0 6) ∧ (s.serves 0 r 0x0603 d { priv := 2, standby := true, parOk := decide (l < 40) }) ∧ (l = 39 ∨ s.linkMapped l = false)) (wGot (wRing 0) 0 0x0603 { wDesc with p0 := 39 }) (0) (39) ({ wDesc with p0 := 39 }) := by
  (repeat' apply And.intro) <;> first | decide +kernel | rfl
theorem met_FennalCommands_1 : (fun (s : State) => let u := (s.stopLead).maskDue (s.instant % 2 ^ 32)
    (s.fenUp = false)) (wSet [(Reg.FEN_STAT_BEACONING, 1), (Reg.CHS_STAT_TOKEN, 1), (Reg.FEN_GRP_CTL_LEADOK, 1), (Reg.GLB_SEAT_PAROK, 1)]) := by
  (repeat' apply And.intro) <;> first | decide +kernel | rfl
theorem met_FennalCommands_2 : (fun (s : State) => let u := (s.stopLead).maskDue (s.instant % 2 ^ 32)
    (u.on Reg.FEN_STAT_BEACONING = false)) ({ wSet [(Reg.FEN_CTL_EN, 1), (Reg.FEN_GROUP, 7)] (State.reset) with glb := { State.reset.glb with fenOn := true } }) := by
  (repeat' apply And.intro) <;> first | decide +kernel | rfl
theorem met_FennalCommands_3 : (fun (s : State) => let u := (s.stopLead).maskDue (s.instant % 2 ^ 32)
    (u.fenUp = true) ∧ (u.on Reg.FEN_STAT_BEACONING = true) ∧ (s.instant % 10 ≠ 0)) ({ wSet [(Reg.FEN_CTL_EN, 1), (Reg.FEN_GROUP, 7), (Reg.FEN_STAT_BEACONING, 1), (Reg.CHS_STAT_TOKEN, 1), (Reg.FEN_GRP_CTL_LEADOK, 1), (Reg.GLB_SEAT_PAROK, 1), (Reg.CHS_TIME, 10000000)] (State.reset) with glb := { State.reset.glb with fenOn := true } }) := by
  (repeat' apply And.intro) <;> first | decide +kernel | rfl
theorem met_FennalCommands_4 : (fun (s : State) (n : Nat) => (s.fen.bWait = some n)) ({ wSet [(Reg.FEN_CTL_EN, 1), (Reg.FEN_GROUP, 7)] (State.reset) with glb := { State.reset.glb with fenOn := true }, fen := { State.reset.fen with bWait := some 3 } }) (3) := by
  (repeat' apply And.intro) <;> first | decide +kernel | rfl
theorem met_FennalCommands_5 : (fun (s : State) => (s.on Reg.FEN_STAT_BEACONING = false) ∧ (s.on Reg.FEN_STAT_JOINED = true) ∧ (s.on Reg.FEN_STAT_BLOST = false) ∧ (5 ≤ s.fen.miss) ∧ (s.fen.missAny < 100)) ({ wSet [(Reg.FEN_CTL_EN, 1), (Reg.FEN_GROUP, 7), (Reg.FEN_STAT_JOINED, 1)] (State.reset) with glb := { State.reset.glb with fenOn := true }, fen := { State.reset.fen with miss := 5, missAny := 5 } }) := by
  (repeat' apply And.intro) <;> first | decide +kernel | rfl
theorem met_FennalCommands_6 : (fun (s : State) => (s.on Reg.FEN_STAT_BEACONING = true)) ({ wSet [(Reg.FEN_CTL_EN, 1), (Reg.FEN_GROUP, 7), (Reg.FEN_STAT_BEACONING, 1)] (State.reset) with glb := { State.reset.glb with fenOn := true } }) := by
  (repeat' apply And.intro) <;> first | decide +kernel | rfl
theorem met_FennalCommands_7_1 : (fun (s : State) (src rx : Nat) (p : List Byte) => (s.fenUp = true)) ({ wSet [(Reg.FEN_CTL_EN, 1), (Reg.FEN_GROUP, 7)] (State.reset) with glb := { State.reset.glb with fenOn := true } }) (1) (500) (zeros 140) := by
  (repeat' apply And.intro) <;> first | decide +kernel | rfl
theorem met_FennalCommands_7_2 : (fun (s : State) (src rx : Nat) (p : List Byte) => (s.fenUp = true)) ({ wSet [(Reg.FEN_CTL_EN, 1), (Reg.FEN_GROUP, 7), (Reg.FEN_STAT_JOINED, 1), (Reg.FEN_STAT_LRANK, 1), (Reg.FEN_STAT_LRANKV, 1)] (State.reset) with glb := { State.reset.glb with fenOn := true } }) (1) (500) (zeros 140) := by
  (repeat' apply And.intro) <;> first | decide +kernel | rfl
theorem met_FennalCommands_8 : (fun (s : State) (src rx : Nat) (p : List Byte) => (s.fenUp = false)) (State.reset) (1) (500) (zeros 140) := by
  (repeat' apply And.intro) <;> first | decide +kernel | rfl
theorem met_FennalCommands_9 : (fun (s : State) => (s.eligible = true) ∧ (s.on Reg.FEN_STAT_BEACONING = false) ∧ (5 + s.rank ≤ s.fen.missAny) ∧ (s.on Reg.FEN_STAT_JOINED = true)) ({ wSet [(Reg.FEN_CTL_EN, 1), (Reg.FEN_GROUP, 7), (Reg.CHS_STAT_TOKEN, 1), (Reg.FEN_GRP_CTL_LEADOK, 1), (Reg.GLB_SEAT_PAROK, 1), (Reg.FEN_STAT_JOINED, 1)] (State.reset) with glb := { State.reset.glb with fenOn := true }, fen := { State.reset.fen with missAny := 20 } }) := by
  (repeat' apply And.intro) <;> first | decide +kernel | rfl
theorem met_FennalCommands_10 : (fun (s : State) => (s.fen.missAny < 5 + s.rank)) (State.reset) := by
  (repeat' apply And.intro) <;> first | decide +kernel | rfl
theorem met_FennalCommands_12 : (fun (s : State) (e : Int) => ((s.get Reg.FEN_PHY_CSTHR : Int) * 10 < e)) (wSet [(Reg.FEN_PHY_CSTHR, 6)]) (61) := by
  (repeat' apply And.intro) <;> first | decide +kernel | rfl
theorem met_FennalCommands_13 : (fun (s : State) (e : Int) (t : Nat) => (e < (s.get Reg.FEN_PHY_CSTHR : Int) * 10) ∧ (s.fen.low.getD s.time = t) ∧ (t + 12000 ≤ s.time) ∧ (s.fen.busy = true)) ({ wSet [(Reg.FEN_PHY_CSTHR, 6), (Reg.CHS_TIME, 1000000)] with fen := { State.reset.fen with busy := true, low := some 988000 } }) (59) (988000) := by
  (repeat' apply And.intro) <;> first | decide +kernel | rfl
theorem met_FennalCommands_14 : (fun (s : State) (e : Int) (t : Nat) => (e < (s.get Reg.FEN_PHY_CSTHR : Int) * 10) ∧ (s.fen.low.getD s.time = t) ∧ (s.time < t + 12000)) ({ wSet [(Reg.FEN_PHY_CSTHR, 6), (Reg.CHS_TIME, 1000000)] with fen := { State.reset.fen with busy := true, low := some 988001 } }) (59) (988001) := by
  (repeat' apply And.intro) <;> first | decide +kernel | rfl
theorem met_FennalCommands_15 : (fun (s : State) (n : Nat) => (s.fenUp = true) ∧ (s.halted = false) ∧ (s.medium = false) ∧ (s.idleSince + aifs 3 ≤ s.time) ∧ (s.fen.bWait = some n)) ({ wSet [(Reg.FEN_CTL_EN, 1), (Reg.FEN_GROUP, 7), (Reg.CHS_TIME, 1000000)] (State.reset) with glb := { State.reset.glb with fenOn := true }, fen := { State.reset.fen with bWait := some 3 } }) (3) := by
  (repeat' apply And.intro) <;> first | decide +kernel | rfl
theorem met_FennalCommands_16 : (fun (s : State) (x : FenTx) => (s.fenUp = true) ∧ (s.fen.bWait = none) ∧ (s.fenQuiet = false) ∧ (s.on Reg.FEN_STAT_FAR = false) ∧ (s.nextFrame = some x) ∧ (s.medium = false) ∧ (s.idleSince + aifs x.pri ≤ s.time) ∧ (x.count ≤ s.slots x)) ({ wSet [(Reg.FEN_CTL_EN, 1), (Reg.FEN_GROUP, 7), (Reg.CHS_TIME, 1000000)] (State.reset) with glb := { State.reset.glb with fenOn := true }, fen := { State.reset.fen with queue := [{ typ := 3, pri := 1, dst := 0xFF, payload := [1] }] } }) ({ typ := 3, pri := 1, dst := 0xFF, payload := [1] }) := by
  (repeat' apply And.intro) <;> first | decide +kernel | rfl
theorem met_FennalCommands_17_1 : (fun (s : State) => (s.fenUp = false ∨ s.medium = true ∨ (s.fen.bWait = none ∧ (s.fenQuiet = true ∨ s.on Reg.FEN_STAT_FAR = true ∨ s.nextFrame = none)))) (State.reset) := by
  (repeat' apply And.intro) <;> first | decide +kernel | rfl
theorem met_FennalCommands_17_2 : (fun (s : State) => (s.fenUp = false ∨ s.medium = true ∨ (s.fen.bWait = none ∧ (s.fenQuiet = true ∨ s.on Reg.FEN_STAT_FAR = true ∨ s.nextFrame = none)))) ({ wSet [(Reg.FEN_CTL_EN, 1), (Reg.FEN_GROUP, 7), (Reg.CHS_TIME, 1000000)] (State.reset) with glb := { State.reset.glb with fenOn := true }, fen := { State.reset.fen with busy := true } }) := by
  (repeat' apply And.intro) <;> first | decide +kernel | rfl
theorem met_FennalCommands_17_3 : (fun (s : State) => (s.fenUp = false ∨ s.medium = true ∨ (s.fen.bWait = none ∧ (s.fenQuiet = true ∨ s.on Reg.FEN_STAT_FAR = true ∨ s.nextFrame = none)))) ({ wSet [(Reg.FEN_CTL_EN, 1), (Reg.FEN_GROUP, 7), (Reg.CHS_TIME, 1000000)] (State.reset) with glb := { State.reset.glb with fenOn := true }, fen := { State.reset.fen with bWait := some 3, txEnd := 2000000 } }) := by
  (repeat' apply And.intro) <;> first | decide +kernel | rfl
theorem met_FennalCommands_17_4 : (fun (s : State) => (s.fenUp = false ∨ s.medium = true ∨ (s.fen.bWait = none ∧ (s.fenQuiet = true ∨ s.on Reg.FEN_STAT_FAR = true ∨ s.nextFrame = none)))) ({ wSet [(Reg.FEN_CTL_EN, 1), (Reg.FEN_GROUP, 7), (Reg.CHS_TIME, 1000000)] (State.reset) with glb := { State.reset.glb with fenOn := true } }) := by
  (repeat' apply And.intro) <;> first | decide +kernel | rfl
theorem met_FennalCommands_18 : (fun (s : State) (x : FenTx) => (s.fen.flight = some x) ∧ (s.get Reg.FEN_CTL_RETRY ≤ x.tries)) (wSet [(Reg.FEN_CTL_RETRY, 2)] ({ wSet [(Reg.FEN_CTL_EN, 1), (Reg.FEN_GROUP, 7)] (State.reset) with glb := { State.reset.glb with fenOn := true }, fen := { State.reset.fen with flight := some { typ := 3, pri := 1, dst := 2, payload := [], tries := 2, cw := 16 } } })) ({ typ := 3, pri := 1, dst := 2, payload := [], tries := 2, cw := 16 }) := by
  (repeat' apply And.intro) <;> first | decide +kernel | rfl
theorem met_FennalCommands_19 : (fun (s : State) (x : FenTx) => (s.fen.flight = some x) ∧ (x.tries < s.get Reg.FEN_CTL_RETRY)) (wSet [(Reg.FEN_CTL_RETRY, 2)] ({ wSet [(Reg.FEN_CTL_EN, 1), (Reg.FEN_GROUP, 7)] (State.reset) with glb := { State.reset.glb with fenOn := true }, fen := { State.reset.fen with flight := some { typ := 3, pri := 1, dst := 2, payload := [], tries := 1, cw := 16 } } })) ({ typ := 3, pri := 1, dst := 2, payload := [], tries := 1, cw := 16 }) := by
  (repeat' apply And.intro) <;> first | decide +kernel | rfl
theorem met_FennalCommands_20 : (fun (s : State) (src seq : Nat) => (s.fenUp = true)) ({ wSet [(Reg.FEN_CTL_EN, 1), (Reg.FEN_GROUP, 7)] (State.reset) with glb := { State.reset.glb with fenOn := true }, fen := { State.reset.fen with flight := some { typ := 3, pri := 1, dst := 2, payload := [], seq := some 9 } } }) (2) (9) := by
  (repeat' apply And.intro) <;> first | decide +kernel | rfl
theorem met_FennalCommands_21 : (fun (s : State) (rx : Nat) (x : List (List Int)) => (s.on Reg.FEN_CTL_EN = true)) ({ wSet [(Reg.FEN_CTL_EN, 1), (Reg.FEN_GROUP, 7)] (State.reset) with glb := { State.reset.glb with fenOn := true } }) (0) ([]) := by
  (repeat' apply And.intro) <;> first | decide +kernel | rfl
theorem met_FennalCommands_22 : (fun (s : State) (rx : Nat) (x : List (List Int)) (b : List Byte) => (s.demod rx x = b) ∧ (s.on Reg.FEN_CTL_EN = true) ∧ (rd b 12 2 ≤ 256) ∧ (b.length = 28 + rd b 12 2) ∧ (rd b (b.length - 4) 4 = crc32 (b.take (b.length - 4))) ∧ (s.get Reg.FEN_GROUP = 0 ∨ rd b 4 4 ≠ s.get Reg.FEN_GROUP)) ({ wSet [(Reg.FEN_CTL_EN, 1), (Reg.FEN_GROUP, 7)] (State.reset) with glb := { State.reset.glb with fenOn := true } }) (0) (wSoft (wCrc (zeros 24))) (wCrc (zeros 24)) := by
  (repeat' apply And.intro) <;> first | decide +kernel | rfl
theorem met_FennalCommands_23 : (fun (s : State) (rx : Nat) (x : List (List Int)) (b k : List Byte) => (s.demod rx x = b) ∧ (s.on Reg.FEN_CTL_EN = true) ∧ (rd b 12 2 ≤ 256) ∧ (b.length = 28 + rd b 12 2) ∧ (rd b (b.length - 4) 4 = crc32 (b.take (b.length - 4))) ∧ (s.get Reg.FEN_GROUP ≠ 0) ∧ (rd b 4 4 = s.get Reg.FEN_GROUP) ∧ (s.fenKey (bits (rd b 1 1) 0 1) = some k) ∧ ((cmac k (b.take (16 + rd b 12 2))).take 8 = (b.drop (16 + rd b 12 2)).take 8) ∧ (headerGood b = true) ∧ (rd b 2 1 ≠ s.rank ∨ s.fenSent (rd b 8 4) = true) ∧ (rd b 3 1 = 0xFF ∨ rd b 3 1 = s.rank)) ({ wSet [(Reg.FEN_CTL_EN, 1), (Reg.FEN_GROUP, 7)] (State.reset) with glb := { State.reset.glb with fenOn := true }, nv := { State.reset.nv with fenKeys := [some (List.replicate 16 1), none] } }) (77) (wSoft (frameBytes (List.replicate 16 1) 0 3 1 2 0xFF 7 5 false (zeros 64))) (frameBytes (List.replicate 16 1) 0 3 1 2 0xFF 7 5 false (zeros 64)) ((List.replicate 16 1)) := by
  (repeat' apply And.intro) <;> first | decide +kernel | rfl
theorem met_FennalCommands_24 : (fun (s : State) (rx : Nat) (x : List (List Int)) (b k : List Byte) => (s.demod rx x = b) ∧ (s.on Reg.FEN_CTL_EN = true) ∧ (rd b 12 2 ≤ 256) ∧ (b.length = 28 + rd b 12 2) ∧ (rd b (b.length - 4) 4 = crc32 (b.take (b.length - 4))) ∧ (s.get Reg.FEN_GROUP ≠ 0) ∧ (rd b 4 4 = s.get Reg.FEN_GROUP) ∧ (s.fenKey (bits (rd b 1 1) 0 1) = some k) ∧ ((cmac k (b.take (16 + rd b 12 2))).take 8 = (b.drop (16 + rd b 12 2)).take 8) ∧ (headerGood b = true) ∧ (rd b 2 1 = s.rank) ∧ (s.fenSent (rd b 8 4) = false) ∧ (rd b 3 1 = 0xFF)) ({ wSet [(Reg.FEN_CTL_EN, 1), (Reg.FEN_GROUP, 7)] (State.reset) with glb := { State.reset.glb with fenOn := true }, nv := { State.reset.nv with fenKeys := [some (List.replicate 16 1), none] } }) (77) (wSoft (frameBytes (List.replicate 16 1) 0 3 1 0 0xFF 7 5 false (zeros 64))) (frameBytes (List.replicate 16 1) 0 3 1 0 0xFF 7 5 false (zeros 64)) ((List.replicate 16 1)) := by
  (repeat' apply And.intro) <;> first | decide +kernel | rfl
theorem met_FennalCommands_25 : (fun (s : State) (rx : Nat) (g : Bool) (x : List (List Int)) => (s.on Reg.FEN_CTL_EN = false)) (wSet [(Reg.FEN_CTL_EN, 0)]) (0) (true) ([]) := by
  (repeat' apply And.intro) <;> first | decide +kernel | rfl
theorem met_FennalCommands_26 : (fun (s : State) (src : Nat) (p : List Byte) => (s.fenUp = true)) ({ wSet [(Reg.FEN_CTL_EN, 1), (Reg.FEN_GROUP, 7)] (State.reset) with glb := { State.reset.glb with fenOn := true } }) (2) (zeros 64) := by
  (repeat' apply And.intro) <;> first | decide +kernel | rfl
theorem met_FennalCommands_27 : (fun (s : State) (snr : List Int) => (s.fenUp = false)) (State.reset) ([120, 180]) := by
  (repeat' apply And.intro) <;> first | decide +kernel | rfl
theorem met_FennalCommands_28 : (fun (s : State) (snr : List Int) => let u := (List.range 16).foldl (fun s w => s.set (Reg.FEN_SNR w) (toneClasses snr / 2 ^ (32 * w) % 2 ^ 32)) s
    (u.fenUp = true) ∧ (u.on Reg.FEN_STAT_JOINED = true) ∧ (u.on Reg.FEN_STAT_FAR = false)) ({ wSet [(Reg.FEN_CTL_EN, 1), (Reg.FEN_GROUP, 7), (Reg.FEN_STAT_JOINED, 1)] (State.reset) with glb := { State.reset.glb with fenOn := true } }) ([59, 60]) := by
  (repeat' apply And.intro) <;> first | decide +kernel | rfl
theorem met_FennalCommands_29 : (fun (s : State) (r : Nat) (d : Desc) => let u := s.beginDesc r 0x0701 d
    let b := bufBytes d
    let key := (b.drop 16).take 16
    let p := u.stage1 r 6 0x0701 (rd b 0 1) (kcv (u.fenKey (rd b 0 1))) (kcv (some key)) u.leadPeriod (.fennalKey (rd b 0 1) (some key))
    (s.serves 0 r 0x0701 d { priv := 3, standby := true, buf := .reads, lenOk := fun n => decide (32 ≤ n) }) ∧ (rd b 0 1 < 2) ∧ (rd b 1 15 = 0) ∧ (s.get Reg.FEN_STAT_KEYTX ≠ rd b 0 1) ∧ (ofLe key ≠ 0)) (wGot (wSet [(Reg.FEN_STAT_KEYTX, 1)] (wRing 0)) 0 0x0701 (wBuf 32 (zeros 16 ++ [5]))) (0) (wBuf 32 (zeros 16 ++ [5])) := by
  (repeat' apply And.intro) <;> first | decide +kernel | rfl
theorem met_FennalCommands_30 : (fun (s : State) (r : Nat) (d : Desc) => (s.serves 0 r 0x0701 d { priv := 3, standby := true, buf := .reads, lenOk := fun n => decide (32 ≤ n) }) ∧ (rd (bufBytes d) 0 1 < 2) ∧ (rd (bufBytes d) 1 15 = 0) ∧ (s.get Reg.FEN_STAT_KEYTX = rd (bufBytes d) 0 1)) (wGot (wRing 0) 0 0x0701 (wBuf 32 (zeros 16 ++ [5]))) (0) (wBuf 32 (zeros 16 ++ [5])) := by
  (repeat' apply And.intro) <;> first | decide +kernel | rfl
theorem met_FennalCommands_31 : (fun (s : State) (r : Nat) (d : Desc) => let u := s.beginDesc r 0x0702 d
    let p := u.stage1 r 6 0x0702 d.p0 (kcv (u.fenKey (u.get Reg.FEN_STAT_KEYTX))) (kcv (u.fenKey d.p0)) u.leadPeriod (.fennalTx d.p0)
    (s.serves 0 r 0x0702 d { priv := 3, standby := true, parOk := decide (d.p0 < 2) }) ∧ ((s.fenKey d.p0).isSome = true)) (wGot { wRing 0 with nv := { State.reset.nv with fenKeys := [some (List.replicate 16 1), none] } } 0 0x0702 wDesc) (0) (wDesc) := by
  (repeat' apply And.intro) <;> first | decide +kernel | rfl
theorem met_FennalCommands_32 : (fun (s : State) (r : Nat) (d : Desc) => let u := s.beginDesc r 0x0703 d
    let p := u.stage1 r 6 0x0703 d.p0 (kcv (u.fenKey d.p0)) 0 u.leadPeriod (.fennalKey d.p0 none)
    (s.serves 0 r 0x0703 d { priv := 3, standby := true, parOk := decide (d.p0 < 2) }) ∧ (s.get Reg.FEN_STAT_KEYTX ≠ d.p0)) (wGot (wRing 0) 0 0x0703 { wDesc with p0 := 1 }) (0) ({ wDesc with p0 := 1 }) := by
  (repeat' apply And.intro) <;> first | decide +kernel | rfl
theorem met_FennalCommands_33 : (fun (s : State) (r : Nat) (d : Desc) => (s.serves 0 r 0x0703 d { priv := 3, standby := true, parOk := decide (d.p0 < 2) }) ∧ (s.get Reg.FEN_STAT_KEYTX = d.p0)) (wGot (wRing 0) 0 0x0703 wDesc) (0) (wDesc) := by
  (repeat' apply And.intro) <;> first | decide +kernel | rfl
theorem met_GroupCommands_1 : (fun (s : State) (src : Nat) (p : List Byte) => (s.fenUp = true)) ({ wSet [(Reg.FEN_CTL_EN, 1), (Reg.FEN_GROUP, 7)] (State.reset) with glb := { State.reset.glb with fenOn := true } }) (1) (zeros 64) := by
  (repeat' apply And.intro) <;> first | decide +kernel | rfl
theorem met_GroupCommands_2 : (fun (s : State) => (s.fenUp = false)) (State.reset) := by
  (repeat' apply And.intro) <;> first | decide +kernel | rfl
theorem met_GroupCommands_3 : (fun (s : State) => let u := s.set Reg.FEN_PACE_STAT_REQ s.paceRequest
    (u.fenUp = true) ∧ (u.token = true) ∧ (u.halted = false) ∧ (u.on Reg.FEN_STAT_JOINED = true) ∧ (u.on Reg.FEN_STAT_FAR = false)) ({ wSet [(Reg.FEN_CTL_EN, 1), (Reg.FEN_GROUP, 7), (Reg.FEN_STAT_JOINED, 1), (Reg.CHS_STAT_TOKEN, 1)] (State.reset) with glb := { State.reset.glb with fenOn := true } }) := by
  (repeat' apply And.intro) <;> first | decide +kernel | rfl
theorem met_GroupCommands_4 : (fun (s : State) (src : Nat) (p : List Byte) => (s.fenUp = true) ∧ (rd p 2 1 ≠ 2)) ({ wSet [(Reg.FEN_CTL_EN, 1), (Reg.FEN_GROUP, 7)] (State.reset) with glb := { State.reset.glb with fenOn := true } }) (1) ([0, 0, 1]) := by
  (repeat' apply And.intro) <;> first | decide +kernel | rfl
theorem met_GroupCommands_5 : (fun (s : State) (src : Nat) (p : List Byte) => (s.fenUp = true) ∧ (rd p 2 1 = 2)) ({ wSet [(Reg.FEN_CTL_EN, 1), (Reg.FEN_GROUP, 7)] (State.reset) with glb := { State.reset.glb with fenOn := true } }) (1) ([0, 0, 2]) := by
  (repeat' apply And.intro) <;> first | decide +kernel | rfl
theorem met_GroupCommands_6 : (fun (s : State) => (s.contractDue = none)) (State.reset) := by
  (repeat' apply And.intro) <;> first | decide +kernel | rfl
theorem met_GroupCommands_7 : (fun (s : State) (c : Contract) => (s.contractDue = some c) ∧ (s.grp.inForce.map (·.cnum) ≠ some c.cnum)) ({ wSet [(Reg.FEN_CTL_EN, 1), (Reg.FEN_GROUP, 7), (Reg.FEN_STAT_JOINED, 1)] (State.reset) with glb := { State.reset.glb with fenOn := true }, grp := { State.reset.grp with heard := some { cnum := 4, eff := 0, vals := [1, 2, 3, 4], share := [9, 0, 0, 0, 0, 0, 0, 0], digest := 0, cver := 1 } } }) ({ cnum := 4, eff := 0, vals := [1, 2, 3, 4], share := [9, 0, 0, 0, 0, 0, 0, 0], digest := 0, cver := 1 }) := by
  (repeat' apply And.intro) <;> first | decide +kernel | rfl
theorem met_GroupCommands_8 : (fun (s : State) (c : Contract) => (s.contractDue = some c) ∧ (s.grp.inForce.map (·.cnum) = some c.cnum)) ({ wSet [(Reg.FEN_CTL_EN, 1), (Reg.FEN_GROUP, 7), (Reg.FEN_STAT_JOINED, 1)] (State.reset) with glb := { State.reset.glb with fenOn := true }, grp := { State.reset.grp with heard := some { cnum := 4, eff := 0, vals := [1, 2, 3, 4], share := [9, 0, 0, 0, 0, 0, 0, 0], digest := 0, cver := 1 }, inForce := some { cnum := 4, eff := 3, vals := [1, 2, 3, 4], share := [9, 0, 0, 0, 0, 0, 0, 0], digest := 0, cver := 1 } } }) ({ cnum := 4, eff := 0, vals := [1, 2, 3, 4], share := [9, 0, 0, 0, 0, 0, 0, 0], digest := 0, cver := 1 }) := by
  (repeat' apply And.intro) <;> first | decide +kernel | rfl
theorem met_GroupCommands_9 : (fun (s : State) => (s.grp.inForce.isSome = true) ∧ (s.on Reg.FEN_STAT_BEACONING = false)) ({ wSet [(Reg.FEN_CTL_EN, 1), (Reg.FEN_GROUP, 7)] (State.reset) with glb := { State.reset.glb with fenOn := true }, grp := { State.reset.grp with inForce := some { cnum := 4, eff := 0, vals := [1, 2, 3, 4], share := [9, 0, 0, 0, 0, 0, 0, 0], digest := 0, cver := 1 } } }) := by
  (repeat' apply And.intro) <;> first | decide +kernel | rfl
theorem met_GroupCommands_10 : (fun (s : State) => (s.grp.inForce = none)) (State.reset) := by
  (repeat' apply And.intro) <;> first | decide +kernel | rfl
theorem met_GroupCommands_11 : (fun (s : State) (src : Nat) (p : List Byte) => (s.fenUp = true) ∧ (((s.bump Reg.FEN_RXOK).frameFrom src).grpMode ≠ 1) ∧ (((s.bump Reg.FEN_RXOK).frameFrom src).grpMode ≠ 2) ∧ (rd p 4 1 ≠ 3)) ({ wSet [(Reg.FEN_CTL_EN, 1), (Reg.FEN_GROUP, 7)] (State.reset) with glb := { State.reset.glb with fenOn := true } }) (1) ([5, 0, 0, 0, 1]) := by
  (repeat' apply And.intro) <;> first | decide +kernel | rfl
theorem met_GroupCommands_12 : (fun (s : State) (src : Nat) (p : List Byte) => (s.fenUp = true)) ({ wSet [(Reg.FEN_CTL_EN, 1), (Reg.FEN_GROUP, 7), (Reg.FEN_STAT_JOINED, 1)] (State.reset) with glb := { State.reset.glb with fenOn := true }, rings := (wSet [(Reg.HST_RSTAT_EN 0, 1)]).rings }) (1) ([5, 0, 0, 0, 1]) := by
  (repeat' apply And.intro) <;> first | decide +kernel | rfl
theorem met_GroupCommands_13 : (fun (s : State) => (s.on Reg.FEN_STAT_BEACONING = false)) (State.reset) := by
  (repeat' apply And.intro) <;> first | decide +kernel | rfl
theorem met_GroupCommands_14 : (fun (s : State) => (s.fenUp = true) ∧ (s.on Reg.FEN_STAT_BEACONING = true) ∧ (s.halted = false) ∧ (s.liveReports = []) ∧ (s.grp.owed = false)) ({ wSet [(Reg.FEN_CTL_EN, 1), (Reg.FEN_GROUP, 7), (Reg.FEN_STAT_BEACONING, 1)] (State.reset) with glb := { State.reset.glb with fenOn := true } }) := by
  (repeat' apply And.intro) <;> first | decide +kernel | rfl
theorem met_GroupCommands_15 : (fun (s : State) (src : Nat) (b : List Byte) => (s.fenUp = true) ∧ (s.on Reg.FEN_STAT_BEACONING = true) ∧ (s.halted = false) ∧ (s.liveReports = [(src, b)]) ∧ (rd b 52 1 = 1)) ({ wSet [(Reg.FEN_CTL_EN, 1), (Reg.FEN_GROUP, 7), (Reg.FEN_STAT_BEACONING, 1)] (State.reset) with glb := { State.reset.glb with fenOn := true }, grp := { State.reset.grp with reports := [(2, (0, zeros 52 ++ [1]))] } }) (2) (zeros 52 ++ [1]) := by
  (repeat' apply And.intro) <;> first | decide +kernel | rfl
theorem met_GroupCommands_16 : (fun (s : State) (num : Nat) (n : Notice) => (s.grp.notices.find? (fun n => n.num == num) = some n) ∧ (n.lost = false) ∧ (n.acked = false)) ({ State.reset with grp := { State.reset.grp with notices := [{ num := 5, action := 1, time := 0, entries := [(3, 0)] }] } }) (5) ({ num := 5, action := 1, time := 0, entries := [(3, 0)] }) := by
  (repeat' apply And.intro) <;> first | decide +kernel | rfl
theorem met_GroupCommands_17 : (fun (s : State) (num : Nat) (n : Notice) => (s.grp.notices.find? (fun n => n.num == num) = some n) ∧ (n.lost = true ∨ n.acked = true)) ({ State.reset with grp := { State.reset.grp with notices := [{ num := 5, action := 1, time := 0, entries := [(3, 0)], acked := true }] } }) (5) ({ num := 5, action := 1, time := 0, entries := [(3, 0)], acked := true }) := by
  (repeat' apply And.intro) <;> first | decide +kernel | rfl
theorem met_GroupCommands_18 : (fun (s : State) (r : Nat) (d : Desc) (n : Notice) => (s.serves 0 r 0x0711 d { priv := 1, standby := true }) ∧ (s.grp.notices.find? (fun n => n.num == d.p0 && !n.entries.isEmpty && decide (s.time < n.time + 1000000000)) = some n)) (wGot { wRing 0 with grp := { State.reset.grp with notices := [{ num := 5, action := 1, time := 0, entries := [(3, 0)] }] } } 0 0x0711 { wDesc with p0 := 5 }) (0) ({ wDesc with p0 := 5 }) ({ num := 5, action := 1, time := 0, entries := [(3, 0)] }) := by
  (repeat' apply And.intro) <;> first | decide +kernel | rfl
theorem met_GroupCommands_19 : (fun (s : State) (r : Nat) (d : Desc) => (s.serves 0 r 0x0711 d { priv := 1, standby := true }) ∧ (s.grp.notices = [])) (wGot (wRing 0) 0 0x0711 wDesc) (0) (wDesc) := by
  (repeat' apply And.intro) <;> first | decide +kernel | rfl
theorem met_GroupCommands_20 : (fun (s : State) (t : Nat) => (s.chs.rmp.brAt = some t)) ({ State.reset with chs := { State.reset.chs with rmp := { State.reset.chs.rmp with brAt := some 0 } } }) (0) := by
  (repeat' apply And.intro) <;> first | decide +kernel | rfl
theorem met_GroupCommands_21 : (fun (s : State) => (s.chs.rmp.brAt = none)) (State.reset) := by
  (repeat' apply And.intro) <;> first | decide +kernel | rfl
theorem met_RingCommands_1 : (fun (s : State) (k : Nat) => (s.masters k = false)) (State.reset) (0) := by
  (repeat' apply And.intro) <;> first | decide +kernel | rfl
theorem met_RingCommands_2 : (fun (s : State) (k : Nat) => (s.masters k = true) ∧ ((s.get (Reg.BUP_RSTAT_STATE k) ≠ 1 ∧ s.get (Reg.BUP_RSTAT_STATE k) ≠ 2) ∨ (s.bring k).enum ≠ 0 ∨ (s.bring k).echo.isSome = true ∨ s.periodRuns = true)) ({ wSet [(Reg.BUP_STAT_MASTER, 1)] (State.reset) with bup := { State.reset.bup with rings := [(0, {  })], strs := [] } }) (0) := by
  (repeat' apply And.intro) <;> first | decide +kernel | rfl
theorem met_RingCommands_3_1 : (fun (s : State) (k : Nat) => (s.masters k = true) ∧ ((s.get (Reg.BUP_RSTAT_STATE k) = 1 ∨ s.get (Reg.BUP_RSTAT_STATE k) = 2)) ∧ ((s.bring k).enum = 0) ∧ ((s.bring k).echo = none) ∧ (s.periodRuns = false)) ({ wSet [(Reg.BUP_STAT_MASTER, 1), (Reg.BUP_RSTAT_STATE 0, 1)] (State.reset) with bup := { State.reset.bup with rings := [(0, {  })], strs := [] } }) (0) := by
  (repeat' apply And.intro) <;> first | decide +kernel | rfl
theorem met_RingCommands_3_2 : (fun (s : State) (k : Nat) => (s.masters k = true) ∧ ((s.get (Reg.BUP_RSTAT_STATE k) = 1 ∨ s.get (Reg.BUP_RSTAT_STATE k) = 2)) ∧ ((s.bring k).enum = 0) ∧ ((s.bring k).echo = none) ∧ (s.periodRuns = false)) ({ wSet [(Reg.BUP_STAT_MASTER, 1), (Reg.BUP_RSTAT_STATE 0, 2)] (State.reset) with bup := { State.reset.bup with rings := [(0, { announced := true, fast := true, owAsk := [2] })], strs := [] } }) (0) := by
  (repeat' apply And.intro) <;> first | decide +kernel | rfl
theorem met_RingCommands_4 : (fun (s : State) (k p d : Nat) (f : List Byte) => (f.length < 6 ∨ crc16 (f.take (f.length - 2)) ≠ rd f (f.length - 2) 2) ∧ (s.masters k = true)) ({ wSet [(Reg.BUP_STAT_MASTER, 1)] (State.reset) with bup := { State.reset.bup with rings := [(0, {  })], strs := [] } }) (0) (0) (0) (zeros 8) := by
  (repeat' apply And.intro) <;> first | decide +kernel | rfl
theorem met_RingCommands_5 : (fun (s : State) (k p a fl : Nat) (f args recs : List Byte) => (bupParts f 2 a fl args recs) ∧ (args.length = 6) ∧ (s.masters k = true) ∧ ((s.bring k).snaps = []) ∧ ((s.bring k).fast = false) ∧ (recs = [])) ({ wSet [(Reg.BUP_STAT_MASTER, 1)] (State.reset) with bup := { State.reset.bup with rings := [(0, {  })], strs := [] } }) (0) (0) (3) (0) (bupFrame 2 3 0 (zeros 6) []) (zeros 6) ([]) := by
  (repeat' apply And.intro) <;> first | decide +kernel | rfl
theorem met_RingCommands_6 : (fun (s : State) (k p a fl : Nat) (f args recs : List Byte) => (bupParts f 3 a fl args recs) ∧ (args.length = 4) ∧ ((s.strX k).learn = none)) (State.reset) (0) (0) (3) (0) (bupFrame 3 3 0 (zeros 4) []) (zeros 4) ([]) := by
  (repeat' apply And.intro) <;> first | decide +kernel | rfl
theorem met_RingCommands_7 : (fun (s : State) (k a fl dl n : Nat) (f args recs : List Byte) => (bupParts f 1 a fl args recs) ∧ (args.length = 2) ∧ (s.masters k = true) ∧ ((s.bring k).enum = 1) ∧ (bit fl 1 = true) ∧ (n = rd args 0 1) ∧ (n = (s.bring k).num) ∧ (n ≠ 25) ∧ ((s.bring k).seen.contains n = false)) ({ wSet [(Reg.BUP_STAT_MASTER, 1)] (State.reset) with bup := { State.reset.bup with rings := [(0, { enum := 1, num := 2 })], strs := [] } }) (0) (0) (2) (0) (2) (bupFrame 1 0 2 [2, 0] []) ([2, 0]) ([]) := by
  (repeat' apply And.intro) <;> first | decide +kernel | rfl
theorem met_RingCommands_8 : (fun (s : State) (k a fl dl : Nat) (f args recs : List Byte) => (bupParts f 1 a fl args recs) ∧ (args.length = 2) ∧ (s.masters k = true) ∧ ((s.bring k).enum = 1) ∧ (bit fl 1 = true) ∧ (rd args 0 1 = 25) ∧ ((s.bring k).num = 25)) ({ wSet [(Reg.BUP_STAT_MASTER, 1)] (State.reset) with bup := { State.reset.bup with rings := [(0, { enum := 1, num := 25 })], strs := [] } }) (0) (0) (2) (0) (bupFrame 1 0 2 [25, 0] []) ([25, 0]) ([]) := by
  (repeat' apply And.intro) <;> first | decide +kernel | rfl
theorem met_RingCommands_9 : (fun (s : State) (k a fl dl : Nat) (f args recs : List Byte) => (bupParts f 1 a fl args recs) ∧ (args.length = 2) ∧ (s.masters k = true) ∧ ((s.bring k).enum = 3) ∧ (bit fl 1 = false)) ({ wSet [(Reg.BUP_STAT_MASTER, 1)] (State.reset) with bup := { State.reset.bup with rings := [(0, { enum := 3 })], strs := [] } }) (0) (0) (0) (7) (bupFrame 1 0 0 [0, 2] []) ([0, 2]) ([]) := by
  (repeat' apply And.intro) <;> first | decide +kernel | rfl
theorem met_RingCommands_10 : (fun (s : State) (k : Nat) => (s.masters k = true) ∧ ((s.bring k).enum = 1)) ({ wSet [(Reg.BUP_STAT_MASTER, 1)] (State.reset) with bup := { State.reset.bup with rings := [(0, { enum := 1 })], strs := [] } }) (0) := by
  (repeat' apply And.intro) <;> first | decide +kernel | rfl
theorem met_RingCommands_11 : (fun (s : State) (k : Nat) => (s.masters k = true) ∧ ((s.bring k).enum = 3)) ({ wSet [(Reg.BUP_STAT_MASTER, 1)] (State.reset) with bup := { State.reset.bup with rings := [(0, { enum := 3 })], strs := [] } }) (0) := by
  (repeat' apply And.intro) <;> first | decide +kernel | rfl
theorem met_RingCommands_12 : (fun (s : State) (k p a fl : Nat) (f args recs : List Byte) => (bupParts f 5 a fl args recs) ∧ (bit fl 1 = true) ∧ (s.masters k = true) ∧ ((s.bring k).echo.isSome = true) ∧ (1 ≤ a) ∧ (a ≤ 24)) ({ wSet [(Reg.BUP_STAT_MASTER, 1)] (State.reset) with bup := { State.reset.bup with rings := [(0, { echo := some 0 })], strs := [] } }) (0) (0) (3) (2) (bupFrame 5 3 2 [] []) ([]) ([]) := by
  (repeat' apply And.intro) <;> first | decide +kernel | rfl
theorem met_RingCommands_13 : (fun (s : State) (k p a fl : Nat) (f args recs : List Byte) => (bupParts f 4 a fl args recs) ∧ (args.length = 8) ∧ (s.masters k = true) ∧ ((s.bring k).cfg.head? = some (rd args 0 1))) ({ wSet [(Reg.BUP_STAT_MASTER, 1)] (State.reset) with bup := { State.reset.bup with rings := [(0, { cfg := [1], missing := [3] })], strs := [] } }) (0) (0) (0) (0) (bupFrame 4 0 0 [1, 0, 0, 0, 0, 0, 0, 0] [4, 0, 0]) ([1, 0, 0, 0, 0, 0, 0, 0]) ([4, 0, 0]) := by
  (repeat' apply And.intro) <;> first | decide +kernel | rfl
theorem met_RingCommands_14 : (fun (s : State) (k : Nat) => (s.masters k = true) ∧ (s.get (Reg.BUP_RSTAT_STATE k) = 1) ∧ ((s.bring k).echo = none)) ({ wSet [(Reg.BUP_STAT_MASTER, 1), (Reg.BUP_RSTAT_STATE 0, 1)] (State.reset) with bup := { State.reset.bup with rings := [(0, {  })], strs := [] } }) (0) := by
  (repeat' apply And.intro) <;> first | decide +kernel | rfl
theorem met_RingCommands_15 : (fun (s : State) (k : Nat) => (s.masters k = true) ∧ (s.ringSplit k = true)) ({ wSet [(Reg.BUP_STAT_MASTER, 1), (Reg.BUP_RSTAT_STATE 0, 2)] (State.reset) with bup := { State.reset.bup with rings := [(0, {  })], strs := [] } }) (0) := by
  (repeat' apply And.intro) <;> first | decide +kernel | rfl
theorem met_RingCommands_16 : (fun (s : State) (k n : Nat) => let u := s.bupSend k 0 5 0 4 []
    (s.masters k = true) ∧ (s.ringSplit k = true) ∧ (n = u.get (Reg.BUP_RSTAT_NOUT k)) ∧ (1 ≤ n) ∧ (n ≤ 23)) ({ wSet [(Reg.BUP_STAT_MASTER, 1), (Reg.BUP_RSTAT_STATE 0, 2), (Reg.BUP_RSTAT_NOUT 0, 9)] (State.reset) with bup := { State.reset.bup with rings := [(0, {  })], strs := [] } }) (0) (9) := by
  (repeat' apply And.intro) <;> first | decide +kernel | rfl
theorem met_RingCommands_17 : (fun (s : State) (k : Nat) (b : Bool) => (s.masters k = false)) (State.reset) (0) (true) := by
  (repeat' apply And.intro) <;> first | decide +kernel | rfl
theorem met_RingCommands_18 : (fun (s : State) (k : Nat) => let u := (s.putBit Reg.BUP_STAT_WAKE k true).raise (detN 17 (4 + k)) 0 k
    let u := u.evt 5 0x0803 (le 1 k ++ zeros 3 ++ le 4 (u.time / 1000000) ++ zeros 4)
    (s.ringsRun = true) ∧ (u.get (Reg.BUP_RSTAT_STATE k) = 0)) (wSet [(Reg.GLB_ISL_PWR_ISL, 0x100), (Reg.GLB_ISL_RST_ISL, 0)]) (0) := by
  (repeat' apply And.intro) <;> first | decide +kernel | rfl
theorem met_RingCommands_19 : (fun (s : State) (k : Nat) => (s.ringsRun = false)) (State.reset) (0) := by
  (repeat' apply And.intro) <;> first | decide +kernel | rfl
theorem met_RingCommands_20 : (fun (s : State) (k : Nat) => (s.get Reg.BUP_OWT_OWPER ≠ 0) ∧ ((s.bring k).suspect = [])) (wSet [(Reg.BUP_OWT_OWPER, 5)]) (0) := by
  (repeat' apply And.intro) <;> first | decide +kernel | rfl
theorem met_RingCommands_22 : (fun (s : State) (k : Nat) => (s.fastCause k = false)) (State.reset) (0) := by
  (repeat' apply And.intro) <;> first | decide +kernel | rfl
theorem met_RingCommands_23 : (fun (s : State) (k : Nat) => (s.fastCause k = true)) ({ wSet [(Reg.BUP_STAT_MASTER, 1)] (State.reset) with bup := { State.reset.bup with rings := [(0, { force := 5 })], strs := [] } }) (0) := by
  (repeat' apply And.intro) <;> first | decide +kernel | rfl
theorem met_RingCommands_24 : (fun (s : State) (r : Nat) (d : Desc) => (s.serves 0 r 0x0802 d { priv := 2, standby := true }) ∧ (s.strArmed (bits d.p0 0 2) = false ∨ bit d.p1 0 = true)) (wGot (wRing 0) 0 0x0802 wDesc) (0) (wDesc) := by
  (repeat' apply And.intro) <;> first | decide +kernel | rfl
theorem met_RingCommands_25 : (fun (s : State) (r : Nat) (d : Desc) => (s.serves 0 r 0x0802 d { priv := 2, standby := true }) ∧ (s.strArmed (bits d.p0 0 2) = true) ∧ (bit d.p1 0 = false)) (wGot (wSet [(Reg.STL_PSTAT_STATE 52, 4)] (wRing 0)) 0 0x0802 wDesc) (0) (wDesc) := by
  (repeat' apply And.intro) <;> first | decide +kernel | rfl
theorem met_RingCommands_26 : (fun (s : State) (r : Nat) (d : Desc) => (s.serves 0 r 0x0803 d { priv := 2, standby := true, parOk := decide (d.p1 = 1 ∨ d.p1 = 2) })) (wGot (wRing 0) 0 0x0803 { wDesc with p1 := 1 }) (0) ({ wDesc with p1 := 1 }) := by
  (repeat' apply And.intro) <;> first | decide +kernel | rfl
theorem met_RingCommands_27 : (fun (s : State) (r : Nat) (d : Desc) => (s.serves 0 r 0x0804 d { priv := 1, standby := true, parOk := decide (d.p1 ≤ 3600) })) (wGot (wRing 0) 0 0x0804 { wDesc with p1 := 1 }) (0) ({ wDesc with p1 := 1 }) := by
  (repeat' apply And.intro) <;> first | decide +kernel | rfl
theorem met_CellCommands_1 : (fun (s : State) => (s.restDue = none)) (State.reset) := by
  (repeat' apply And.intro) <;> first | decide +kernel | rfl
theorem met_CellCommands_2 : (fun (s : State) (k : Nat) => (s.restDue = some k) ∧ (s.restFails k = 0)) (wSet [(Reg.BUP_EST_RSTAT_EARLY, 1), (Reg.CHS_STAT_WINARM, 1)] ({ wSet [(Reg.BUP_STAT_MASTER, 1), (Reg.BUP_RSTAT_STATE 0, 1), (Reg.GLB_BOOTSTAT_RING, 15)] (State.reset) with bup := { State.reset.bup with rings := [(0, {  })], strs := [(1, { ld := 1000 })] } })) (0) := by
  (repeat' apply And.intro) <;> first | decide +kernel | rfl
theorem met_CellCommands_3 : (fun (s : State) (k : Nat) => (s.restDue = some k) ∧ (s.restFails k ≠ 0) ∧ ((s.strX k).defer = none)) (wSet [(Reg.BUP_EST_RSTAT_EARLY, 1)]) (0) := by
  (repeat' apply And.intro) <;> first | decide +kernel | rfl
theorem met_CellCommands_4 : (fun (s : State) (k : Nat) => ((s.strX k).rest ≠ 2)) (State.reset) (0) := by
  (repeat' apply And.intro) <;> first | decide +kernel | rfl
theorem met_CellCommands_5 : (fun (s : State) (k : Nat) => ((s.strX k).rest = 2)) ({ wSet [(Reg.BUP_STAT_MASTER, 1)] (State.reset) with bup := { State.reset.bup with rings := [(0, {  })], strs := [(0, { rest := 2 })] } }) (0) := by
  (repeat' apply And.intro) <;> first | decide +kernel | rfl
theorem met_CellCommands_6 : (fun (s : State) (k : Nat) => (s.get Reg.BUP_EST_DRIFT_DTHR ≠ 0) ∧ (s.get Reg.BUP_EST_DRIFT_DTIME ≠ 0) ∧ ((s.strX k).on = true) ∧ (s.get Reg.BUP_EST_DRIFT_DTHR * 10000 < ((s.strX k).soc - s.zcc k).natAbs)) ({ wSet [(Reg.BUP_STAT_MASTER, 1), (Reg.BUP_EST_DRIFT_DTHR, 1), (Reg.BUP_EST_DRIFT_DTIME, 1)] (State.reset) with bup := { State.reset.bup with rings := [(0, {  })], strs := [(0, { on := true, soc := 5000000 })] } }) (0) := by
  (repeat' apply And.intro) <;> first | decide +kernel | rfl
theorem met_CellCommands_7 : (fun (s : State) (k : Nat) => (s.get Reg.BUP_EST_DRIFT_DTHR = 0 ∨ (s.strX k).on = false)) (State.reset) (0) := by
  (repeat' apply And.intro) <;> first | decide +kernel | rfl
theorem met_CellCommands_8 : (fun (s : State) => ((List.range 4).all (fun k => !(s.strX k).on) = true) ∧ (s.bup.tick < 99)) (State.reset) := by
  (repeat' apply And.intro) <;> first | decide +kernel | rfl
theorem met_CellCommands_10 : (fun (s : State) (k i : Nat) => ((((s.bring k).node (i / 16 + 1)).cells[i % 16]?) = none)) ({ wSet [(Reg.BUP_STAT_MASTER, 1)] (State.reset) with bup := { State.reset.bup with rings := [(0, { nodes := [(1, { cells := [] })] })], strs := [] } }) (0) (3) := by
  (repeat' apply And.intro) <;> first | decide +kernel | rfl
theorem met_CellCommands_11 : (fun (s : State) (k i : Nat) (c : CellX) => ((((s.bring k).node (i / 16 + 1)).cells[i % 16]?) = some c) ∧ (c.on = true) ∧ (s.get Reg.BUP_EST_TAP_STALE = 0) ∧ (s.time < c.time + 2000000000)) ({ wSet [(Reg.BUP_STAT_MASTER, 1), (Reg.BUP_EST_TAP_STALE, 0)] (State.reset) with bup := { State.reset.bup with rings := [(0, { nodes := [(1, { cells := [{ on := true }] })] })], strs := [] } }) (0) (0) ({ on := true }) := by
  (repeat' apply And.intro) <;> first | decide +kernel | rfl
theorem met_CellCommands_12 : (fun (s : State) (r : Nat) (d : Desc) => let u := s.beginDesc r 0x0811 d
    let b := bufBytes d
    let p := u.stage1 r 5 0x0811 (4 * bits d.p1 0 2) (digest8 u.socTab.bytes) (digest8 b) u.leadPeriod (.estTable 0 (bits d.p1 0 2) b) true
    (s.serves 0 r 0x0811 d { priv := 2, standby := true, buf := .reads, lenOk := fun n => n == tableLen d.p0, parOk := decide (d.p0 ≤ 2) }) ∧ (d.p0 = 0) ∧ ((socOf b).isSome = true)) (wGot (wRing 0) 0 0x0811 (wBuf 1092 wSoc)) (0) (wBuf 1092 wSoc) := by
  refine ⟨?_, rfl, wSoc_taken⟩
  (repeat' apply And.intro) <;> first | decide +kernel | rfl
theorem met_CellCommands_13 : (fun (s : State) (r : Nat) (d : Desc) => (s.serves 0 r 0x0811 d { priv := 2, standby := true, buf := .reads, lenOk := fun n => n == tableLen d.p0, parOk := decide (d.p0 ≤ 2) }) ∧ (d.p0 = 0) ∧ (socOf (bufBytes d) = none)) (wGot (wRing 0) 0 0x0811 (wBuf 1092)) (0) (wBuf 1092) := by
  (repeat' apply And.intro) <;> first | decide +kernel | rfl
theorem met_CellCommands_14 : (fun (s : State) (r : Nat) (d : Desc) => (s.serves 0 r 0x0813 d { priv := 1, standby := true })) (wGot (wRing 0) 0 0x0813 wDesc) (0) (wDesc) := by
  (repeat' apply And.intro) <;> first | decide +kernel | rfl
theorem met_PeerFrames_1 : (fun (s : State) (g : Bool) (fl sq n cy : Nat) (p d : List Byte) (c : Staged) => (s.get Reg.ROS_STAT_UP = 0)) (State.reset) (true) (2) (0) (0) (0) (zeros 32) ([]) (wStaged) := by
  (repeat' apply And.intro) <;> first | decide +kernel | rfl
theorem met_PeerFrames_2 : (fun (s : State) (fl sq n cy : Nat) (p d : List Byte) (c : Staged) => let u := (s.bump Reg.ROS_CRC).rosMod fun r => { r with bad := r.bad + 1 }
    (s.on Reg.ROS_STAT_UP = true) ∧ (s.ros.bad ≠ 7)) (wSet [(Reg.ROS_STAT_UP, 1)] (State.reset)) (2) (0) (0) (0) (zeros 32) ([]) (wStaged) := by
  (repeat' apply And.intro) <;> first | decide +kernel | rfl
theorem met_PeerFrames_3 : (fun (s : State) (fl sq n cy : Nat) (p d : List Byte) (c : Staged) => let u := (s.bump Reg.ROS_CRC).rosMod fun r => { r with bad := r.bad + 1 }
    (s.on Reg.ROS_STAT_UP = true) ∧ (s.ros.bad = 7)) ({ wSet [(Reg.ROS_STAT_UP, 1), (Reg.ROS_STAT_LOCK, 1)] (State.reset) with ros := { State.reset.ros with bad := 7 } }) (2) (0) (0) (0) (zeros 32) ([]) (wStaged) := by
  (repeat' apply And.intro) <;> first | decide +kernel | rfl
theorem met_PeerFrames_4 : (fun (s : State) (fl sq n rx : Nat) (p : List Byte) => let h : PeerHb := { token := bit fl 2, stage := rd p 8 1, flags := rd p 9 1, epoch := rd p 10 2, chg := rd p 12 4, lastCp := rd p 16 8, sameSeat := decide (fl % 2 = s.get Reg.GLB_SEAT_SEAT) }
    (s.on Reg.ROS_STAT_UP = true) ∧ (bit fl 1 = true) ∧ (bit fl 2 = false) ∧ (s.ros.prove = none)) (wSet [(Reg.ROS_STAT_UP, 1)] (State.reset)) (2) (0) (0) (0) ((le 8 5000 ++ le 1 8 ++ le 1 1 ++ zeros 22)) := by
  (repeat' apply And.intro) <;> first | decide +kernel | rfl
theorem met_PeerFrames_5 : (fun (s : State) (fl sq n rx : Nat) (p : List Byte) => (s.on Reg.ROS_STAT_UP = true) ∧ (bit fl 1 = false)) (wSet [(Reg.ROS_STAT_UP, 1)] (State.reset)) (0) (0) (0) (0) ((le 8 5000 ++ le 1 8 ++ le 1 1 ++ zeros 22)) := by
  (repeat' apply And.intro) <;> first | decide +kernel | rfl
theorem met_PeerFrames_6 : (fun (s : State) (fl sq n rx : Nat) (p : List Byte) => let h : PeerHb := { token := true, stage := rd p 8 1, flags := rd p 9 1, epoch := rd p 10 2, chg := rd p 12 4, lastCp := rd p 16 8, sameSeat := decide (fl % 2 = s.get Reg.GLB_SEAT_SEAT) }
    let u := s.seatJudge h.sameSeat
    let u := u.rosMod fun r => { r with hb := some h, got := true }
    let u := (u.peerReady (bit (rd p 9 1) 0)).set Reg.ROS_STAT_PSTAGE (rd p 8 1)
    (s.on Reg.ROS_STAT_UP = true) ∧ (bit fl 1 = true) ∧ (bit fl 2 = true) ∧ (u.standby = true) ∧ (s.ros.prove = none)) (wSet [(Reg.ROS_STAT_UP, 1), (Reg.GLB_BOOTSTAT_STAGE, 7)] (State.reset)) (6) (0) (7) (5000) ((le 8 5000 ++ le 1 8 ++ le 1 1 ++ zeros 22)) := by
  (repeat' apply And.intro) <;> first | decide +kernel | rfl
theorem met_PeerFrames_7 : (fun (s : State) (fl sq n cy : Nat) (p : List Byte) => (s.on Reg.ROS_STAT_UP = true) ∧ (bit fl 1 = true) ∧ (s.standby = true) ∧ (cy ≤ 320)) (wSet [(Reg.ROS_STAT_UP, 1), (Reg.GLB_BOOTSTAT_STAGE, 7)] (State.reset)) (2) (0) (0) (300) ((le 8 4 ++ le 2 3 ++ zeros 4086)) := by
  (repeat' apply And.intro) <;> first | decide +kernel | rfl
theorem met_PeerFrames_8 : (fun (s : State) (fl sq n cy : Nat) (p : List Byte) => (s.on Reg.ROS_STAT_UP = true) ∧ (bit fl 1 = true) ∧ (s.standby = true) ∧ (320 < cy)) (wSet [(Reg.ROS_STAT_UP, 1), (Reg.GLB_BOOTSTAT_STAGE, 7)] (State.reset)) (2) (0) (0) (321) ((le 8 4 ++ le 2 3 ++ zeros 4086)) := by
  (repeat' apply And.intro) <;> first | decide +kernel | rfl
theorem met_PeerFrames_9 : (fun (s : State) (fl sq n cy : Nat) (p : List Byte) => (s.on Reg.ROS_STAT_UP = true) ∧ (bit fl 1 = true) ∧ (s.standby = false) ∧ (s.token = true) ∧ (s.chs.gap = true) ∧ (cy ≤ 320) ∧ (1000 ≤ s.get Reg.CHS_PERIOD_CYC) ∧ (s.get Reg.ROS_LASTCP < rd p 0 8)) ({ wSet [(Reg.ROS_STAT_UP, 1), (Reg.CHS_STAT_TOKEN, 1), (Reg.CHS_PERIOD_CYC, 1000)] (State.reset) with chs := { State.reset.chs with gap := true } }) (2) (0) (0) (320) ((le 8 4 ++ le 2 3 ++ zeros 4086)) := by
  (repeat' apply And.intro) <;> first | decide +kernel | rfl
theorem met_PeerFrames_10 : (fun (s : State) (fl sq n cy : Nat) (p : List Byte) => (s.on Reg.ROS_STAT_UP = true) ∧ (bit fl 1 = true) ∧ (s.standby = false) ∧ (s.chs.gap = false ∨ 320 < cy ∨ rd p 0 8 ≤ s.get Reg.ROS_LASTCP)) (wSet [(Reg.ROS_STAT_UP, 1)] (State.reset)) (2) (0) (0) (320) ((le 8 4 ++ le 2 3 ++ zeros 4086)) := by
  (repeat' apply And.intro) <;> first | decide +kernel | rfl
theorem met_PeerFrames_11 : (fun (s : State) (fl sq n : Nat) (p : List Byte) => (s.on Reg.ROS_STAT_UP = true) ∧ (s.standby = true) ∧ (s.haltSet = false) ∧ (rd p 0 1 = 1)) (wSet [(Reg.ROS_STAT_UP, 1), (Reg.GLB_BOOTSTAT_STAGE, 7)] (State.reset)) (2) (0) (0) ([1] ++ zeros 15) := by
  (repeat' apply And.intro) <;> first | decide +kernel | rfl
theorem met_PeerFrames_12_1 : (fun (s : State) (fl sq n : Nat) (p : List Byte) => (s.on Reg.ROS_STAT_UP = true) ∧ (s.standby = true) ∧ (s.haltSet = false) ∧ (2 ≤ rd p 0 1) ∧ (rd p 0 1 ≤ 5)) (wSet [(Reg.ROS_STAT_UP, 1), (Reg.GLB_BOOTSTAT_STAGE, 7)] (State.reset)) (2) (0) (0) ([2] ++ zeros 15) := by
  (repeat' apply And.intro) <;> first | decide +kernel | rfl
theorem met_PeerFrames_12_2 : (fun (s : State) (fl sq n : Nat) (p : List Byte) => (s.on Reg.ROS_STAT_UP = true) ∧ (s.standby = true) ∧ (s.haltSet = false) ∧ (2 ≤ rd p 0 1) ∧ (rd p 0 1 ≤ 5)) (wSet [(Reg.ROS_STAT_UP, 1), (Reg.GLB_BOOTSTAT_STAGE, 7)] (State.reset)) (2) (0) (0) ([5] ++ zeros 7 ++ le 8 12) := by
  (repeat' apply And.intro) <;> first | decide +kernel | rfl
theorem met_PeerFrames_13 : (fun (s : State) (fl sq n : Nat) (p : List Byte) => (s.on Reg.ROS_STAT_UP = true) ∧ (s.standby = false ∨ s.haltSet = true)) (wSet [(Reg.ROS_STAT_UP, 1)] (State.reset)) (2) (0) (0) ([1] ++ zeros 15) := by
  (repeat' apply And.intro) <;> first | decide +kernel | rfl
theorem met_PeerFrames_14 : (fun (s : State) (fl sq n : Nat) (p : List Byte) => (s.on Reg.ROS_STAT_UP = true)) (wSet [(Reg.ROS_STAT_UP, 1)] (State.reset)) (2) (0) (0) (zeros 16) := by
  (repeat' apply And.intro) <;> first | decide +kernel | rfl
theorem met_PeerFrames_15 : (fun (s : State) (fl sq n : Nat) (p : List Byte) (d : List Byte) (c : Staged) => (s.on Reg.ROS_STAT_UP = true) ∧ (s.standby = false) ∧ (s.token = false ∨ rd p 0 1 ≠ 5) ∧ (rd p 0 1 ≠ 6)) (wSet [(Reg.ROS_STAT_UP, 1)] (State.reset)) (2) (0) (0) (zeros 16) ([]) (wStaged) := by
  (repeat' apply And.intro) <;> first | decide +kernel | rfl
theorem met_PeerFrames_16 : (fun (s : State) (fl sq n : Nat) (p : List Byte) => (s.on Reg.ROS_STAT_UP = true) ∧ (s.standby = false) ∧ (rd p 0 1 = 6) ∧ (s.ros.bulk = none)) (wSet [(Reg.ROS_STAT_UP, 1), (Reg.CHS_STAT_TOKEN, 1)]) (2) (0) (0) ([6, 1, 3]) := by
  (repeat' apply And.intro) <;> first | decide +kernel | rfl
theorem met_PeerFrames_17 : (fun (s : State) (fl sq n : Nat) (p : List Byte) (x : Promo) => (s.on Reg.ROS_STAT_UP = true) ∧ (s.token = true) ∧ (s.halted = false) ∧ (s.standby = false) ∧ (rd p 0 1 = 5) ∧ (s.ros.bulk = none) ∧ (s.trn.promo = some x)) ({ wSet [(Reg.ROS_STAT_UP, 1), (Reg.CHS_STAT_TOKEN, 1)] with trn := { State.reset.trn with promo := some { kind := 1, st := wStaged, reason := 0, auto := false, oldDigest := 0 } } }) (2) (0) (0) ([5, 1, 1, 0, 0, 0]) ({ kind := 1, st := wStaged, reason := 0, auto := false, oldDigest := 0 }) := by
  (repeat' apply And.intro) <;> first | decide +kernel | rfl
theorem met_PeerFrames_18 : (fun (s : State) (fl sq n k : Nat) (p : List Byte) => let es := pcycEntries (min 166 (rd p 18 2)) (p.drop 24)
    let u := es.foldl (fun s e => s.shadowHead e.1 e.2.1) s
    (s.on Reg.ROS_STAT_UP = true) ∧ (s.standby = true) ∧ (s.ros.pcyc = none) ∧ (k = ((rd p 0 8 : Nat) - s.deltaK).toNat) ∧ (bit (rd p 20 1) 0 = false)) (wSet [(Reg.ROS_STAT_UP, 1), (Reg.GLB_BOOTSTAT_STAGE, 7)] (State.reset)) (2) (0) (0) (9) ((le 8 9 ++ le 8 0 ++ le 2 0 ++ le 2 1 ++ le 1 0 ++ zeros 3 ++ le 2 5 ++ le 2 6 ++ le 2 7)) := by
  (repeat' apply And.intro) <;> first | decide +kernel | rfl
theorem met_PeerFrames_19 : (fun (s : State) (fl sq n k : Nat) (p : List Byte) => let es := pcycEntries (min 166 (rd p 18 2)) (p.drop 24)
    let u := es.foldl (fun s e => s.shadowHead e.1 e.2.1) s
    let cuts := es.map fun e => (e.1, e.2.2)
    (s.on Reg.ROS_STAT_UP = true) ∧ (s.standby = true) ∧ (s.ros.pcyc = none) ∧ (k = ((rd p 0 8 : Nat) - s.deltaK).toNat) ∧ (bit (rd p 20 1) 0 = true)) (wSet [(Reg.ROS_STAT_UP, 1), (Reg.GLB_BOOTSTAT_STAGE, 7)] (State.reset)) (2) (0) (0) (9) ((le 8 9 ++ le 8 0 ++ le 2 0 ++ le 2 1 ++ le 1 1 ++ zeros 3 ++ le 2 5 ++ le 2 6 ++ le 2 7)) := by
  (repeat' apply And.intro) <;> first | decide +kernel | rfl
theorem met_PeerFrames_20 : (fun (s : State) (fl sq n : Nat) (p : List Byte) => (s.on Reg.ROS_STAT_UP = true) ∧ (s.token = true)) (wSet [(Reg.ROS_STAT_UP, 1), (Reg.CHS_STAT_TOKEN, 1)] (State.reset)) (2) (0) (0) ([5, 0, 1, 0]) := by
  (repeat' apply And.intro) <;> first | decide +kernel | rfl
theorem met_PeerFrames_21 : (fun (s : State) (fl sq n : Nat) (p : List Byte) => (s.on Reg.ROS_STAT_UP = true) ∧ (s.token = false)) (wSet [(Reg.ROS_STAT_UP, 1)] (State.reset)) (2) (0) (0) ([5, 0, 1, 0]) := by
  (repeat' apply And.intro) <;> first | decide +kernel | rfl
theorem met_PeerFrames_22 : (fun (s : State) (fl sq n : Nat) (p d : List Byte) (c0 : Staged) => let c : Staged := { c0 with due := if c0.due = 0 then 0 else s.ownPeriod c0.due, ring := 0x20000 + 0x20000 * (1 - s.get Reg.GLB_SEAT_SEAT) + c0.ring % 0x20000 }
    let u : State := { s with chgNext := max s.chgNext (c.no + 1) }
    let u := if c.due ≠ 0 ∧ c.due ≤ u.get Reg.CHS_PNUM + 1 then u.set Reg.ROS_STAT_CFGLAG 1 else u
    let u := u.logC (changeOrigin c.ring c.block) 2 c.no c.opcode c.block c.target c.old c.new c.digest
    (s.on Reg.ROS_STAT_UP = true) ∧ (s.standby = true) ∧ (c0.act ≠ .own)) (wSet [(Reg.ROS_STAT_UP, 1), (Reg.GLB_BOOTSTAT_STAGE, 7)] (State.reset)) (2) (0) (0) (zeros 16) ([]) ({ wStaged with act := .trigger 3 {} }) := by
  (repeat' apply And.intro) <;> first | decide +kernel | rfl
theorem met_PeerFrames_23 : (fun (s : State) (fl sq n : Nat) (p d : List Byte) (c0 : Staged) => let c : Staged := { c0 with due := if c0.due = 0 then 0 else s.ownPeriod c0.due, ring := 0x20000 + 0x20000 * (1 - s.get Reg.GLB_SEAT_SEAT) + c0.ring % 0x20000 }
    let u : State := { s with chgNext := max s.chgNext (c.no + 1) }
    let u := if c.due ≠ 0 ∧ c.due ≤ u.get Reg.CHS_PNUM + 1 then u.set Reg.ROS_STAT_CFGLAG 1 else u
    let u := u.logC (changeOrigin c.ring c.block) 2 c.no c.opcode c.block c.target c.old c.new c.digest
    (s.on Reg.ROS_STAT_UP = true) ∧ (s.standby = true) ∧ (c0.act = .own)) (wSet [(Reg.ROS_STAT_UP, 1), (Reg.GLB_BOOTSTAT_STAGE, 7)] (State.reset)) (2) (0) (0) (zeros 16) ([]) (wStaged) := by
  (repeat' apply And.intro) <;> first | decide +kernel | rfl
theorem met_PeerFrames_24 : (fun (s : State) (fl sq n : Nat) (p : List Byte) => (s.on Reg.ROS_STAT_UP = true) ∧ (s.standby = true) ∧ (s.ros.bulk = none) ∧ (bit (rd p 1 1) 0 = true)) (wSet [(Reg.ROS_STAT_UP, 1), (Reg.GLB_BOOTSTAT_STAGE, 7)] (State.reset)) (2) (0) (0) ([5, 1, 7, 8]) := by
  (repeat' apply And.intro) <;> first | decide +kernel | rfl
theorem met_PeerFrames_25 : (fun (s : State) (fl sq n : Nat) (p : List Byte) => (s.on Reg.ROS_STAT_UP = true) ∧ (s.standby = true) ∧ (s.ros.bulk = none) ∧ (bit (rd p 1 1) 0 = false)) (wSet [(Reg.ROS_STAT_UP, 1), (Reg.GLB_BOOTSTAT_STAGE, 7)] (State.reset)) (2) (0) (0) ([5, 0, 7, 8]) := by
  (repeat' apply And.intro) <;> first | decide +kernel | rfl
theorem met_PeerFrames_26 : (fun (s : State) (fl sq n : Nat) (p b : List Byte) => (s.on Reg.ROS_STAT_UP = true) ∧ (s.standby = true) ∧ (s.ros.bulk = some (rd p 0 1, b)) ∧ (bit (rd p 1 1) 0 = true)) ({ wSet [(Reg.ROS_STAT_UP, 1), (Reg.GLB_BOOTSTAT_STAGE, 7)] (State.reset) with ros := { State.reset.ros with bulk := some (5, [3]) } }) (2) (0) (0) ([5, 1, 7, 8]) ([3]) := by
  (repeat' apply And.intro) <;> first | decide +kernel | rfl
theorem met_SeatCommands_1 : (fun (s : State) => (s.tokenDue = none)) (State.reset) := by
  (repeat' apply And.intro) <;> first | decide +kernel | rfl
theorem met_SeatCommands_2 : (fun (s : State) (w : Nat) => (s.tokenDue = some w) ∧ ((s.ros.prove.any fun v => !v.prover) = false)) ({ wSet [(Reg.ROS_STAT_UP, 1), (Reg.GLB_BOOTSTAT_STAGE, 7), (Reg.GLB_SEAT_PAROK, 1)] (State.reset) with ros := { State.reset.ros with asked := true } }) (2) := by
  (repeat' apply And.intro) <;> first | decide +kernel | rfl
theorem met_SeatCommands_3 : (fun (s : State) => (s.standby = true) ∧ (s.haltSet = false) ∧ ((s.det (detN 5 2)).cause = false) ∧ (s.on Reg.GLB_SEAT_PAROK = true) ∧ (s.ros.asked = false) ∧ (4 ≤ s.ros.rRun) ∧ (4 ≤ s.ros.bRun) ∧ ((s.ros.prove.any fun v => !v.prover) = false)) ({ wSet [(Reg.ROS_STAT_UP, 1), (Reg.GLB_BOOTSTAT_STAGE, 7), (Reg.GLB_SEAT_PAROK, 1)] (State.reset) with ros := { State.reset.ros with rRun := 4, bRun := 5 } }) := by
  (repeat' apply And.intro) <;> first | decide +kernel | rfl
theorem met_SeatCommands_4 : (fun (s : State) => (s.ros.asked = false) ∧ (s.ros.rRun < 4 ∨ s.ros.bRun < 4)) (State.reset) := by
  (repeat' apply And.intro) <;> first | decide +kernel | rfl
theorem met_SeatCommands_5 : (fun (s : State) (bad : List Nat) => (s.standby = false)) (State.reset) ([]) := by
  (repeat' apply And.intro) <;> first | decide +kernel | rfl
theorem met_SeatCommands_6 : (fun (s : State) (bad : List Nat) => (s.standby = true) ∧ ((s.ros.copies.find? fun e => e.1 + 1 == s.heldPeriod) = none)) (wSet [(Reg.ROS_STAT_UP, 1), (Reg.GLB_BOOTSTAT_STAGE, 7)] (State.reset)) ([]) := by
  (repeat' apply And.intro) <;> first | decide +kernel | rfl
theorem met_SeatCommands_7 : (fun (s : State) (bad : List Nat) (e : Nat × List Byte) => (s.standby = true) ∧ ((s.ros.copies.find? fun e => e.1 + 1 == s.heldPeriod) = some e)) ({ wSet [(Reg.ROS_STAT_UP, 1), (Reg.GLB_BOOTSTAT_STAGE, 7), (Reg.ROS_DPNUM, 8)] (State.reset) with ros := { State.reset.ros with copies := [(7, zeros 4096)] } }) ([1]) ((7, zeros 4096)) := by
  (repeat' apply And.intro) <;> first | decide +kernel | rfl
theorem met_SeatCommands_8 : (fun (s : State) => (s.ros.hand = none)) (State.reset) := by
  (repeat' apply And.intro) <;> first | decide +kernel | rfl
theorem met_SeatCommands_9 : (fun (s : State) (h : Hand) => (s.ros.hand = some h) ∧ (s.get Reg.CHS_PNUM < h.at_ ∨ s.glb.mgmtDown = true ∧ h.st.isSome = true)) ({ wSet [(Reg.ROS_STAT_UP, 1)] (State.reset) with ros := { State.reset.ros with hand := some { kind := 3, at_ := 5, gives := true } } }) ({ kind := 3, at_ := 5, gives := true }) := by
  (repeat' apply And.intro) <;> first | decide +kernel | rfl
theorem met_SeatCommands_10_1 : (fun (s : State) (h : Hand) => (s.ros.hand = some h) ∧ (h.at_ ≤ s.get Reg.CHS_PNUM) ∧ (s.glb.mgmtDown = false ∨ h.st = none) ∧ (h.gives = true) ∧ (s.handBlocked = true)) ({ wSet [(Reg.ROS_STAT_UP, 1)] (State.reset) with ros := { State.reset.ros with hand := some { kind := 3, at_ := 0, gives := true } } }) ({ kind := 3, at_ := 0, gives := true }) := by
  (repeat' apply And.intro) <;> first | decide +kernel | rfl
theorem met_SeatCommands_10_2 : (fun (s : State) (h : Hand) => (s.ros.hand = some h) ∧ (h.at_ ≤ s.get Reg.CHS_PNUM) ∧ (s.glb.mgmtDown = false ∨ h.st = none) ∧ (h.gives = true) ∧ (s.handBlocked = true)) ({ wSet [(Reg.ROS_STAT_UP, 1)] (State.reset) with ros := { State.reset.ros with hand := some { kind := 3, at_ := 0, gives := true, st := some wStaged } } }) ({ kind := 3, at_ := 0, gives := true, st := some wStaged }) := by
  (repeat' apply And.intro) <;> first | decide +kernel | rfl
theorem met_SeatCommands_11 : (fun (s : State) (h : Hand) => (s.ros.hand = some h) ∧ (h.at_ ≤ s.get Reg.CHS_PNUM) ∧ (s.glb.mgmtDown = false ∨ h.st = none) ∧ (h.gives = true) ∧ (s.handBlocked = false)) ({ wSet [(Reg.ROS_STAT_UP, 1), (Reg.ROS_STAT_PREADY, 1)] (State.reset) with ros := { State.reset.ros with hand := some { kind := 3, at_ := 0, gives := true } } }) ({ kind := 3, at_ := 0, gives := true }) := by
  (repeat' apply And.intro) <;> first | decide +kernel | rfl
theorem met_SeatCommands_12 : (fun (s : State) (h : Hand) => (s.ros.hand = some h) ∧ (h.at_ ≤ s.get Reg.CHS_PNUM) ∧ (s.glb.mgmtDown = false ∨ h.st = none) ∧ (h.gives = false) ∧ (s.rosReady = true) ∧ (s.handBusy = false) ∧ ((s.det (detN 5 2)).cause = false)) ({ wSet [(Reg.ROS_STAT_UP, 1), (Reg.GLB_BOOTSTAT_STAGE, 7), (Reg.ROS_STAT_LOCK, 1)] (State.reset) with ros := { State.reset.ros with hand := some { kind := 3, at_ := 0, gives := false }, copyRun := 16, hb := some { chg := 0 } } }) ({ kind := 3, at_ := 0, gives := false }) := by
  (repeat' apply And.intro) <;> first | decide +kernel | rfl
theorem met_SeatCommands_13 : (fun (s : State) (h : Hand) => (s.ros.hand = some h) ∧ (h.at_ ≤ s.get Reg.CHS_PNUM) ∧ (s.glb.mgmtDown = false ∨ h.st = none) ∧ (h.gives = false) ∧ (s.rosReady = false ∨ s.handBusy = true ∨ (s.det (detN 5 2)).cause = true)) ({ wSet [(Reg.ROS_STAT_UP, 1), (Reg.GLB_BOOTSTAT_STAGE, 7)] (State.reset) with ros := { State.reset.ros with hand := some { kind := 3, at_ := 0, gives := false } } }) ({ kind := 3, at_ := 0, gives := false }) := by
  (repeat' apply And.intro) <;> first | decide +kernel | rfl
theorem met_SeatCommands_15 : (fun (s : State) (n : Nat) => (3 ≤ s.stage) ∧ (s.stage ≠ 0xE) ∧ (s.glb.lossStep < 2)) (wSet [(Reg.ROS_STAT_UP, 1), (Reg.GLB_BOOTSTAT_STAGE, 7)] (State.reset)) (12) := by
  (repeat' apply And.intro) <;> first | decide +kernel | rfl
theorem met_SeatCommands_16 : (fun (s : State) (n : Nat) => (s.stage < 3 ∨ s.stage = 0xE ∨ 2 ≤ s.glb.lossStep)) (State.reset) (12) := by
  (repeat' apply And.intro) <;> first | decide +kernel | rfl
theorem met_SeatCommands_17 : (fun (s : State) (bad : List Nat) => (s.standby = true) ∧ (s.on Reg.ROS_CTL_SELFTEST = true)) (wSet [(Reg.ROS_STAT_UP, 1), (Reg.GLB_BOOTSTAT_STAGE, 7), (Reg.ROS_CTL_SELFTEST, 1)] (State.reset)) ([1, 2]) := by
  (repeat' apply And.intro) <;> first | decide +kernel | rfl
theorem met_SeatCommands_18 : (fun (s : State) (bad : List Nat) => (s.standby = false ∨ s.on Reg.ROS_CTL_SELFTEST = false)) (State.reset) ([1]) := by
  (repeat' apply And.intro) <;> first | decide +kernel | rfl
theorem met_SeatCommands_19 : (fun (s : State) => (s.token = false ∨ s.ros.prove.any (·.prover) = false)) (State.reset) := by
  (repeat' apply And.intro) <;> first | decide +kernel | rfl
theorem met_SeatCommands_20 : (fun (s : State) (v : Prove) => (s.token = true) ∧ (s.ros.prove = some v) ∧ (v.prover = true) ∧ (s.on Reg.ROS_STAT_PREADY = false)) ({ wSet [(Reg.ROS_STAT_UP, 1), (Reg.CHS_STAT_TOKEN, 1)] (State.reset) with ros := { State.reset.ros with prove := some { start := 0, len := 60, prover := true } } }) ({ start := 0, len := 60, prover := true }) := by
  (repeat' apply And.intro) <;> first | decide +kernel | rfl
theorem met_SeatCommands_21 : (fun (s : State) (v : Prove) => (s.token = true) ∧ (s.ros.prove = some v) ∧ (v.prover = true) ∧ (s.on Reg.ROS_STAT_PREADY = true) ∧ (s.ros.hand = none) ∧ (s.handBlocked = false)) ({ wSet [(Reg.ROS_STAT_UP, 1), (Reg.CHS_STAT_TOKEN, 1), (Reg.ROS_STAT_PREADY, 1)] (State.reset) with ros := { State.reset.ros with prove := some { start := 0, len := 60, prover := true } } }) ({ start := 0, len := 60, prover := true }) := by
  (repeat' apply And.intro) <;> first | decide +kernel | rfl
theorem met_SeatCommands_22 : (fun (s : State) (v : Prove) => (s.token = true) ∧ (s.ros.prove = some v) ∧ (v.prover = true) ∧ (s.on Reg.ROS_STAT_PREADY = true) ∧ (s.ros.hand = none) ∧ (s.handBusy = true)) ({ wSet [(Reg.ROS_STAT_UP, 1), (Reg.CHS_STAT_TOKEN, 1), (Reg.ROS_STAT_PREADY, 1), (Reg.STL_STAT_BURST, 1)] (State.reset) with ros := { State.reset.ros with prove := some { start := 0, len := 60, prover := true } } }) ({ start := 0, len := 60, prover := true }) := by
  (repeat' apply And.intro) <;> first | decide +kernel | rfl
theorem met_SeatCommands_23 : (fun (s : State) (r : Nat) (d : Desc) => (s.serves 0 r 0x0E01 d { priv := 2, standby := true }) ∧ (s.token = false)) (wGot (wSet [(Reg.ROS_STAT_UP, 1)] (wRing 0)) 0 0x0E01 wDesc) (0) (wDesc) := by
  (repeat' apply And.intro) <;> first | decide +kernel | rfl
theorem met_SeatCommands_24 : (fun (s : State) (r : Nat) (d : Desc) (c : Staged) => let u := s.beginDesc r 0x0E01 d
    let seat := u.get Reg.GLB_SEAT_SEAT
    let p := u.stage1 r 7 0x0E01 0 seat (1 - seat) u.leadPeriod .own
    (s.serves 0 r 0x0E01 d { priv := 2, standby := true }) ∧ (s.token = true) ∧ (u.handBlocked = false) ∧ (s.ros.hand = none) ∧ (s.ros.prove = none) ∧ ((p.2.staged.find? fun c => c.no == p.1) = some c)) (wGot (wSet [(Reg.ROS_STAT_UP, 1), (Reg.CHS_STAT_TOKEN, 1), (Reg.ROS_STAT_PREADY, 1)] (wRing 0)) 0 0x0E01 wDesc) (0) (wDesc) ((match (let u := (wSet [(Reg.ROS_STAT_UP, 1), (Reg.CHS_STAT_TOKEN, 1), (Reg.ROS_STAT_PREADY, 1)] (wRing 0)).beginDesc 0 0x0E01 wDesc; let p := u.stage1 0 7 0x0E01 0 0 1 u.leadPeriod .own; p.2.staged.find? fun c => c.no == p.1) with | some c => c | none => wStaged)) := by
  (repeat' apply And.intro) <;> first | decide +kernel | rfl
theorem met_SeatCommands_25 : (fun (s : State) (r : Nat) (d : Desc) => (s.serves 0 r 0x0E02 d { priv := 2, standby := true, parOk := decide (d.p0 ≤ 600) }) ∧ (s.token = false)) (wGot (wSet [(Reg.ROS_STAT_UP, 1)] (wRing 0)) 0 0x0E02 wDesc) (0) (wDesc) := by
  (repeat' apply And.intro) <;> first | decide +kernel | rfl
theorem met_SeatCommands_26 : (fun (s : State) (r : Nat) (d : Desc) (c : Staged) => let u := s.beginDesc r 0x0E02 d
    let p := u.stage1 r 7 0x0E02 0 0 d.p0 u.leadPeriod .own
    (s.serves 0 r 0x0E02 d { priv := 2, standby := true, parOk := decide (d.p0 ≤ 600) }) ∧ (s.token = true) ∧ (u.handBlocked = false) ∧ (s.ros.hand = none) ∧ (s.ros.prove = none) ∧ (d.p0 ≠ 0) ∧ ((p.2.staged.find? fun c => c.no == p.1) = some c)) (wGot (wSet [(Reg.ROS_STAT_UP, 1), (Reg.CHS_STAT_TOKEN, 1), (Reg.ROS_STAT_PREADY, 1)] (wRing 0)) 0 0x0E02 { wDesc with p0 := 5 }) (0) ({ wDesc with p0 := 5 }) ((match (let u := (wSet [(Reg.ROS_STAT_UP, 1), (Reg.CHS_STAT_TOKEN, 1), (Reg.ROS_STAT_PREADY, 1)] (wRing 0)).beginDesc 0 0x0E02 { wDesc with p0 := 5 }; let p := u.stage1 0 7 0x0E02 0 0 5 u.leadPeriod .own; p.2.staged.find? fun c => c.no == p.1) with | some c => c | none => wStaged)) := by
  (repeat' apply And.intro) <;> first | decide +kernel | rfl
theorem met_SeatCommands_27 : (fun (s : State) (r : Nat) (d : Desc) (c : Staged) => let u := s.beginDesc r 0x0E02 d
    let p := u.stage1 r 7 0x0E02 0 0 60 u.leadPeriod .own
    (s.serves 0 r 0x0E02 d { priv := 2, standby := true, parOk := decide (d.p0 ≤ 600) }) ∧ (s.token = true) ∧ (u.handBlocked = false) ∧ (s.ros.hand = none) ∧ (s.ros.prove = none) ∧ (d.p0 = 0) ∧ (u.get Reg.ROS_CTL_PROVE = 0) ∧ ((p.2.staged.find? fun c => c.no == p.1) = some c)) (wGot (wSet [(Reg.ROS_CTL_PROVE, 0)] (wSet [(Reg.ROS_STAT_UP, 1), (Reg.CHS_STAT_TOKEN, 1), (Reg.ROS_STAT_PREADY, 1)] (wRing 0))) 0 0x0E02 wDesc) (0) (wDesc) ((match (let u := (wSet [(Reg.ROS_CTL_PROVE, 0)] (wSet [(Reg.ROS_STAT_UP, 1), (Reg.CHS_STAT_TOKEN, 1), (Reg.ROS_STAT_PREADY, 1)] (wRing 0))).beginDesc 0 0x0E02 wDesc; let p := u.stage1 0 7 0x0E02 0 0 60 u.leadPeriod .own; p.2.staged.find? fun c => c.no == p.1) with | some c => c | none => wStaged)) := by
  (repeat' apply And.intro) <;> first | decide +kernel | rfl
theorem met_SeatCommands_28 : (fun (s : State) (r : Nat) (d : Desc) => (s.serves 0 r 0x0E03 d { priv := 2, standby := true }) ∧ (s.ros.prove = none)) (wGot (wRing 0) 0 0x0E03 wDesc) (0) (wDesc) := by
  (repeat' apply And.intro) <;> first | decide +kernel | rfl
theorem met_SeatCommands_29 : (fun (s : State) (r : Nat) (d : Desc) => let u := s.beginDesc r 0x0E03 d
    (s.serves 0 r 0x0E03 d { priv := 2, standby := true }) ∧ (s.ros.prove.isSome = true)) (wGot { wSet [(Reg.ROS_STAT_UP, 1)] (wRing 0) with ros := { State.reset.ros with prove := some { start := 0, len := 60, prover := true } } } 0 0x0E03 wDesc) (0) (wDesc) := by
  (repeat' apply And.intro) <;> first | decide +kernel | rfl
theorem met_ColophonCommands_1 : (fun (s : State) (n : Nat) => (s.col.finalCommit = 0) ∧ (n ≤ 65536)) (State.reset) (3) := by
  (repeat' apply And.intro) <;> first | decide +kernel | rfl
theorem met_ColophonCommands_2 : (fun (s : State) (n : Nat) => (s.col.finalCommit ≠ 0)) ({ State.reset with col := { State.reset.col with finalCommit := 1 } }) (0) := by
  (repeat' apply And.intro) <;> first | decide +kernel | rfl
theorem met_ColophonCommands_3 : (fun (s : State) (us : Nat) => (s.col.finalCommit = 1) ∧ (s.glb.exhausted = false)) ({ State.reset with col := { State.reset.col with finalCommit := 1 } }) (9) := by
  (repeat' apply And.intro) <;> first | decide +kernel | rfl
theorem met_ColophonCommands_4 : (fun (s : State) (us : Nat) => (s.col.finalCommit ≠ 1 ∨ s.glb.exhausted = true)) (State.reset) (9) := by
  (repeat' apply And.intro) <;> first | decide +kernel | rfl
theorem met_ColophonCommands_5 : (fun (s : State) (k c : Nat) (i : Bool) => ((Tab.get s.col.triggers k {}).en = false)) (State.reset) (1) (7) (false) := by
  (repeat' apply And.intro) <;> first | decide +kernel | rfl
theorem met_ColophonCommands_6 : (fun (s : State) (k c : Nat) (i : Bool) => (s.occurs (Tab.get s.col.triggers k {}) c = false)) ({ State.reset with col := { State.reset.col with triggers := [(1, { kind := 2, en := true, a := 7 })] } }) (1) (8) (false) := by
  (repeat' apply And.intro) <;> first | decide +kernel | rfl
theorem met_ColophonCommands_7 : (fun (s : State) (k c t : Nat) (i : Bool) => (Tab.find s.col.lastCap k = some t) ∧ (s.time < t + (Tab.get s.col.triggers k {}).holdoff * 1000000)) ({ State.reset with col := { State.reset.col with triggers := [(1, { kind := 2, en := true, a := 7, holdoff := 1 })], lastCap := [(1, 5)] } }) (1) (7) (5) (false) := by
  (repeat' apply And.intro) <;> first | decide +kernel | rfl
theorem met_ColophonCommands_8 : (fun (s : State) (k c : Nat) (i : Bool) (t : Trigger) => (Tab.get s.col.triggers k {} = t) ∧ (t.en = true) ∧ (s.occurs t c = true) ∧ (Tab.find s.col.lastCap k = none) ∧ (s.get Reg.COL_CTL_SNAPMAX ≠ 0) ∧ (3 ≤ s.glb.lossStep)) ({ wSet [(Reg.COL_CTL_SNAPMAX, 4)] with col := { State.reset.col with triggers := [(1, { kind := 2, en := true, a := 7 })] }, glb := { State.reset.glb with lossStep := 3 } }) (1) (7) (false) ({ kind := 2, en := true, a := 7 }) := by
  (repeat' apply And.intro) <;> first | decide +kernel | rfl
theorem met_ColophonCommands_9 : (fun (s : State) (k c : Nat) (i : Bool) (t : Trigger) => (Tab.get s.col.triggers k {} = t) ∧ (t.en = true) ∧ (s.occurs t c = true) ∧ (Tab.find s.col.lastCap k = none) ∧ (s.get Reg.COL_CTL_SNAPMAX ≠ 0) ∧ (s.glb.lossStep < 3) ∧ ((s.col.captures.any fun c => c.trig == k) = true ∨ s.rateAllows t.kind (s.time + t.delay * 1000000) = false)) ({ wSet [(Reg.COL_CTL_SNAPMAX, 4)] with col := { State.reset.col with triggers := [(1, { kind := 2, en := true, a := 7 })], captures := [{ trig := 1, cause := 7, injected := false, now := false, due := 0, defn := { kind := 2, en := true, a := 7 } }] } }) (1) (7) (false) ({ kind := 2, en := true, a := 7 }) := by
  (repeat' apply And.intro) <;> first | decide +kernel | rfl
theorem met_ColophonCommands_10 : (fun (s : State) (k c : Nat) (i : Bool) (t : Trigger) => (Tab.get s.col.triggers k {} = t) ∧ (t.en = true) ∧ (s.occurs t c = true) ∧ (Tab.find s.col.lastCap k = none) ∧ (s.get Reg.COL_CTL_SNAPMAX ≠ 0) ∧ (s.glb.lossStep < 3) ∧ ((s.col.captures.any fun c => c.trig == k) = false) ∧ (s.rateAllows t.kind (s.time + t.delay * 1000000) = true)) ({ wSet [(Reg.COL_CTL_SNAPMAX, 4)] with col := { State.reset.col with triggers := [(1, { kind := 2, en := true, a := 7 })] } }) (1) (7) (false) ({ kind := 2, en := true, a := 7 }) := by
  (repeat' apply And.intro) <;> first | decide +kernel | rfl
theorem met_ColophonCommands_11 : (fun (s : State) (late : List Nat) => (s.era.haltSnap = false)) (State.reset) ([]) := by
  (repeat' apply And.intro) <;> first | decide +kernel | rfl
theorem met_ColophonCommands_12 : (fun (s : State) (late : List Nat) => (s.era.haltSnap = true) ∧ (3 ≤ s.glb.lossStep)) ({ State.reset with era := { State.reset.era with haltSnap := true }, glb := { State.reset.glb with lossStep := 3 } }) ([]) := by
  (repeat' apply And.intro) <;> first | decide +kernel | rfl
theorem met_ColophonCommands_13 : (fun (s : State) (late : List Nat) (n : Nat) => (s.era.haltSnap = true) ∧ (s.glb.lossStep < 3) ∧ (n = s.get Reg.ERA_HALT_FIRST)) ({ State.reset with era := { State.reset.era with haltSnap := true } }) ([]) ((State.reset.get Reg.ERA_HALT_FIRST)) := by
  (repeat' apply And.intro) <;> first | decide +kernel | rfl
theorem met_ColophonCommands_14 : (fun (s : State) (late : List Nat) => (s.glb.lossStep = 2)) ({ State.reset with glb := { State.reset.glb with lossStep := 2 } }) ([]) := by
  (repeat' apply And.intro) <;> first | decide +kernel | rfl
theorem met_ColophonCommands_15 : (fun (s : State) (late : List Nat) => (s.glb.lossStep ≠ 2)) (State.reset) ([]) := by
  (repeat' apply And.intro) <;> first | decide +kernel | rfl
theorem met_ColophonCommands_16 : (fun (s : State) (k : Nat) (late : List Nat) => (k ≠ 0x81) ∧ (k ≠ 0x82) ∧ ((s.col.captures.find? fun c => c.trig == k) = none)) (State.reset) (1) ([]) := by
  (repeat' apply And.intro) <;> first | decide +kernel | rfl
theorem met_ColophonCommands_17 : (fun (s : State) (k : Nat) (late : List Nat) (c : Capture) => let u := s.colMod fun x => { x with captures := x.captures.filter fun y => y.trig != k }
    (k ≠ 0x81) ∧ (k ≠ 0x82) ∧ ((s.col.captures.find? fun c => c.trig == k) = some c) ∧ (s.glb.lossStep < 3)) ({ State.reset with col := { State.reset.col with triggers := [(1, { kind := 2, en := true, a := 7 })], captures := [{ trig := 1, cause := 7, injected := false, now := false, due := 0, defn := { kind := 2, en := true, a := 7 } }] } }) (1) ([]) ({ trig := 1, cause := 7, injected := false, now := false, due := 0, defn := { kind := 2, en := true, a := 7 } }) := by
  (repeat' apply And.intro) <;> first | decide +kernel | rfl
theorem met_ColophonCommands_18 : (fun (s : State) (r x : Nat) (d : Desc) => (s.serves 0 r 0x0A01 d { priv := 2, standby := true, buf := .reads, lenOk := (16 ≤ ·) }) ∧ (triggerBad (bufBytes d) = some x)) (wGot (wRing 0) 0 0x0A01 (wBuf 16 [9])) (0) (1) (wBuf 16 [9]) := by
  (repeat' apply And.intro) <;> first | decide +kernel | rfl
theorem met_ColophonCommands_19 : (fun (s : State) (r : Nat) (d : Desc) => let u := s.beginDesc r 0x0A01 d
    let b := bufBytes d
    let i := bits d.p0 0 6
    let p := u.stage1 r 9 0x0A01 i (digest8 (trigBytes (Tab.get u.col.triggers i {}))) (digest8 b) u.leadPeriod (.trigger i (readTrigger b)) true
    (s.serves 0 r 0x0A01 d { priv := 2, standby := true, buf := .reads, lenOk := (16 ≤ ·) }) ∧ (triggerBad b = none)) (wGot (wRing 0) 0 0x0A01 ((wBuf 16 [2, 1]))) (0) ((wBuf 16 [2, 1])) := by
  (repeat' apply And.intro) <;> first | decide +kernel | rfl
theorem met_ColophonCommands_20 : (fun (s : State) (r : Nat) (d : Desc) => (s.serves 0 r 0x0A03 d { priv := 1 }) ∧ ((Tab.get s.col.triggers (bits d.p0 0 6) {}).en = false)) (wGot (wRing 0) 0 0x0A03 wDesc) (0) (wDesc) := by
  (repeat' apply And.intro) <;> first | decide +kernel | rfl
theorem met_ColophonCommands_21 : (fun (s : State) (r i : Nat) (d : Desc) (t : Trigger) => (s.serves 0 r 0x0A03 d { priv := 1 }) ∧ (i = bits d.p0 0 6) ∧ (Tab.get s.col.triggers i {} = t) ∧ (t.en = true) ∧ (s.glb.lossStep < 3) ∧ ((s.col.captures.any fun c => c.trig == i) = true)) (wGot { wRing 0 with col := { State.reset.col with triggers := [(1, { kind := 2, en := true, a := 7 })], captures := [{ trig := 1, cause := 7, injected := false, now := false, due := 0, defn := { kind := 2, en := true, a := 7 } }] } } 0 0x0A03 { wDesc with p0 := 1 }) (0) (1) ({ wDesc with p0 := 1 }) ({ kind := 2, en := true, a := 7 }) := by
  (repeat' apply And.intro) <;> first | decide +kernel | rfl
theorem met_ColophonCommands_22 : (fun (s : State) (r i : Nat) (d : Desc) (t : Trigger) => let u := s.beginDesc r 0x0A03 d
    (s.serves 0 r 0x0A03 d { priv := 1 }) ∧ (i = bits d.p0 0 6) ∧ (Tab.get s.col.triggers i {} = t) ∧ (t.en = true) ∧ (s.glb.lossStep < 3) ∧ ((s.col.captures.any fun c => c.trig == i) = false) ∧ (u.rateAllows t.kind u.time = true)) (wGot { wSet [(Reg.COL_CTL_SNAPMAX, 4)] (wRing 0) with col := { State.reset.col with triggers := [(1, { kind := 2, en := true, a := 7 })] } } 0 0x0A03 { wDesc with p0 := 1 }) (0) (1) ({ wDesc with p0 := 1 }) ({ kind := 2, en := true, a := 7 }) := by
  (repeat' apply And.intro) <;> first | decide +kernel | rfl
theorem met_ColophonCommands_23 : (fun (s : State) (r : Nat) (d : Desc) => (s.serves 0 r 0x0A05 d { priv := 1 })) (wGot (wRing 0) 0 0x0A05 wDesc) (0) (wDesc) := by
  (repeat' apply And.intro) <;> first | decide +kernel | rfl
theorem met_RepairCommands_1 : (fun (s : State) (r : Nat) (d : Desc) => (s.serves 0 r 0x0C00 d { priv := 0, buf := .writes, lenOk := fun n => decide (640 ≤ n) })) (wGot (wRing 0) 0 0x0C00 (wBuf 640)) (0) (wBuf 640) := by
  (repeat' apply And.intro) <;> first | decide +kernel | rfl
theorem met_RepairCommands_2 : (fun (s : State) (r : Nat) (d : Desc) => (s.serves 0 r 0x0C01 d { priv := 1, parOk := bits d.p0 0 6 != 0 })) (wGot (wRing 0) 0 0x0C01 { wDesc with p0 := 1 }) (0) ({ wDesc with p0 := 1 }) := by
  (repeat' apply And.intro) <;> first | decide +kernel | rfl
theorem met_RepairCommands_3 : (fun (s : State) (r : Nat) (d : Desc) => (s.serves 0 r 0x0D01 d { priv := 2, parOk := repairUnit d.p0 d.p1 }) ∧ (s.repairBusy = true)) (wGot { wRing 0 with spr := { State.reset.spr with repair := some { kind := 1, unit := 3, ring := 0, desc := wDesc } } } 0 0x0D01 { wDesc with p0 := 1, p1 := 3, p2 := 0 }) (0) ({ wDesc with p0 := 1, p1 := 3, p2 := 0 }) := by
  (repeat' apply And.intro) <;> first | decide +kernel | rfl
theorem met_RepairCommands_4 : (fun (s : State) (r : Nat) (d : Desc) => let u := ((s.beginDesc r 0x0D01 d).set Reg.SPR_RSTAT_KIND d.p0).set Reg.SPR_RSTAT_UNIT d.p1
    (s.serves 0 r 0x0D01 d { priv := 2, parOk := repairUnit d.p0 d.p1 }) ∧ ((s.beginDesc r 0x0D01 d).repairBusy = false) ∧ (((s.beginDesc r 0x0D01 d).unit d.p0 d.p1).st = 3)) (wGot ((wRing 0).unitMod 1 3 fun _ => { st := 3 }) 0 0x0D01 { wDesc with p0 := 1, p1 := 3, p2 := 0 }) (0) ({ wDesc with p0 := 1, p1 := 3, p2 := 0 }) := by
  (repeat' apply And.intro) <;> first | decide +kernel | rfl
theorem met_RepairCommands_5 : (fun (s : State) (r : Nat) (d : Desc) => let u := ((s.beginDesc r 0x0D01 d).set Reg.SPR_RSTAT_KIND d.p0).set Reg.SPR_RSTAT_UNIT d.p1
    (s.serves 0 r 0x0D01 d { priv := 2, parOk := repairUnit d.p0 d.p1 }) ∧ ((s.beginDesc r 0x0D01 d).repairBusy = false) ∧ (((s.beginDesc r 0x0D01 d).unit d.p0 d.p1).st < 2)) (wGot (wRing 0) 0 0x0D01 { wDesc with p0 := 1, p1 := 3, p2 := 0 }) (0) ({ wDesc with p0 := 1, p1 := 3, p2 := 0 }) := by
  (repeat' apply And.intro) <;> first | decide +kernel | rfl
theorem met_RepairCommands_6 : (fun (s : State) (r : Nat) (d : Desc) => let u := ((((s.beginDesc r 0x0D01 d).set Reg.SPR_RSTAT_KIND d.p0).set Reg.SPR_RSTAT_UNIT d.p1).set Reg.SPR_RSTAT_OUT 0).logC (.host r) 2 0 0x0D01 0xC d.p1 2 0
    (s.serves 0 r 0x0D01 d { priv := 2, parOk := repairUnit d.p0 d.p1 }) ∧ ((s.beginDesc r 0x0D01 d).repairBusy = false) ∧ (((s.beginDesc r 0x0D01 d).unit d.p0 d.p1).st = 2) ∧ (d.p0 ≠ 4) ∧ (bit d.p2 0 = false)) (wGot ((wRing 0).unitMod 1 3 fun _ => { st := 2 }) 0 0x0D01 { wDesc with p0 := 1, p1 := 3, p2 := 0 }) (0) ({ wDesc with p0 := 1, p1 := 3, p2 := 0 }) := by
  (repeat' apply And.intro) <;> first | decide +kernel | rfl
theorem met_RepairCommands_7 : (fun (s : State) (r : Nat) (d : Desc) => let u := ((((s.beginDesc r 0x0D01 d).set Reg.SPR_RSTAT_KIND d.p0).set Reg.SPR_RSTAT_UNIT d.p1).set Reg.SPR_RSTAT_OUT 0).logC (.host r) 2 0 0x0D01 0xC d.p1 2 0
    (s.serves 0 r 0x0D01 d { priv := 2, parOk := repairUnit d.p0 d.p1 }) ∧ ((s.beginDesc r 0x0D01 d).repairBusy = false) ∧ (((s.beginDesc r 0x0D01 d).unit d.p0 d.p1).st = 2) ∧ (((s.beginDesc r 0x0D01 d).unit d.p0 d.p1).injected = true) ∧ (d.p0 ≠ 4) ∧ (bit d.p2 0 = true)) (wGot ((wRing 0).unitMod 1 3 fun _ => { st := 2, injected := true }) 0 0x0D01 { wDesc with p0 := 1, p1 := 3, p2 := 1 }) (0) ({ wDesc with p0 := 1, p1 := 3, p2 := 1 }) := by
  (repeat' apply And.intro) <;> first | decide +kernel | rfl
theorem met_RepairCommands_8 : (fun (s : State) (r : Nat) (d : Desc) => let u := ((((s.beginDesc r 0x0D01 d).set Reg.SPR_RSTAT_KIND d.p0).set Reg.SPR_RSTAT_UNIT d.p1).set Reg.SPR_RSTAT_OUT 0).logC (.host r) 2 0 0x0D01 0xC d.p1 2 0
    (s.serves 0 r 0x0D01 d { priv := 2, parOk := repairUnit d.p0 d.p1 }) ∧ ((s.beginDesc r 0x0D01 d).repairBusy = false) ∧ (((s.beginDesc r 0x0D01 d).unit d.p0 d.p1).st = 2) ∧ (d.p0 = 4)) (wGot ((wRing 0).unitMod 4 2 fun _ => { st := 2 }) 0 0x0D01 { wDesc with p0 := 4, p1 := 2, p2 := 0 }) (0) ({ wDesc with p0 := 4, p1 := 2, p2 := 0 }) := by
  (repeat' apply And.intro) <;> first | decide +kernel | rfl
theorem met_RepairCommands_9 : (fun (s : State) (b : Bool) (us : Nat) => (s.spr.repair = none)) (State.reset) (true) (5) := by
  (repeat' apply And.intro) <;> first | decide +kernel | rfl
theorem met_RepairCommands_10 : (fun (s : State) (us : Nat) (p : Repair) => (s.spr.repair = some p) ∧ (p.kind ≠ 4) ∧ (p.abandoned = false) ∧ (p.broken = false)) ({ wRing 0 with spr := { State.reset.spr with repair := some { kind := 1, unit := 3, ring := 0, desc := wDesc } } }) (5) ({ kind := 1, unit := 3, ring := 0, desc := wDesc }) := by
  (repeat' apply And.intro) <;> first | decide +kernel | rfl
theorem met_RepairCommands_11 : (fun (s : State) (us : Nat) (p : Repair) => let u : State := { s with spr := { s.spr with repair := none } }
    (s.spr.repair = some p) ∧ (p.kind ≠ 4) ∧ (p.abandoned = false)) ({ wRing 0 with spr := { State.reset.spr with repair := some { kind := 1, unit := 3, ring := 0, desc := wDesc } } }) (5) ({ kind := 1, unit := 3, ring := 0, desc := wDesc }) := by
  (repeat' apply And.intro) <;> first | decide +kernel | rfl
theorem met_RepairCommands_12 : (fun (s : State) (us : Nat) (p : Repair) => (s.spr.repair = some p) ∧ (p.kind = 4)) ({ wRing 0 with spr := { State.reset.spr with repair := some { kind := 4, unit := 2, ring := 0, desc := wDesc } } }) (5) ({ kind := 4, unit := 2, ring := 0, desc := wDesc }) := by
  (repeat' apply And.intro) <;> first | decide +kernel | rfl
theorem met_RepairCommands_13 : (fun (s : State) (r : Nat) (d : Desc) => let u := s.beginDesc r 0x0D02 d
    (s.serves 0 r 0x0D02 d { priv := 2, parOk := (d.p0 == 1 || d.p0 == 2 || d.p0 == 5) && repairUnit d.p0 d.p1 }) ∧ (u.spareFor d.p0 d.p1 = none)) (wGot (((wRing 0).unitMod 5 16 fun _ => { st := 0 }).unitMod 5 17 fun _ => { st := 3 }) 0 0x0D02 { wDesc with p0 := 5, p1 := 16, p2 := 0 }) (0) ({ wDesc with p0 := 5, p1 := 16, p2 := 0 }) := by
  (repeat' apply And.intro) <;> first | decide +kernel | rfl
theorem met_RepairCommands_14 : (fun (s : State) (r : Nat) (d : Desc) => let u := s.beginDesc r 0x0D02 d
    (s.serves 0 r 0x0D02 d { priv := 2, parOk := (d.p0 == 1 || d.p0 == 2 || d.p0 == 5) && repairUnit d.p0 d.p1 }) ∧ ((u.spareFor d.p0 d.p1).isSome = true) ∧ ((u.unit d.p0 d.p1).st = 0)) (wGot (wRing 0) 0 0x0D02 { wDesc with p0 := 1, p1 := 3, p2 := 0 }) (0) ({ wDesc with p0 := 1, p1 := 3, p2 := 0 }) := by
  (repeat' apply And.intro) <;> first | decide +kernel | rfl
theorem met_RepairCommands_15 : (fun (s : State) (r : Nat) (d : Desc) => let u := s.beginDesc r 0x0D02 d
    (s.serves 0 r 0x0D02 d { priv := 2, parOk := (d.p0 == 1 || d.p0 == 2 || d.p0 == 5) && repairUnit d.p0 d.p1 }) ∧ ((u.spareFor d.p0 d.p1).isSome = true) ∧ ((u.unit d.p0 d.p1).st = 1)) (wGot (wRing 0) 0 0x0D02 { wDesc with p0 := 5, p1 := 16, p2 := 0 }) (0) ({ wDesc with p0 := 5, p1 := 16, p2 := 0 }) := by
  (repeat' apply And.intro) <;> first | decide +kernel | rfl
theorem met_RepairCommands_16 : (fun (s : State) (k u : Nat) => (k = 2 ∨ 9 < k)) (State.reset) (2) (0) := by
  (repeat' apply And.intro) <;> first | decide +kernel | rfl
theorem met_RepairCommands_17_1 : (fun (s : State) (k u : Nat) => let v := s.unitMod (mapKind k) u fun x => { x with retire :=
      (if x.retire = 0 ∧ x.worn ∧ s.on Reg.SPR_CTL_PREEMPT then 2 else if x.retire = 2 ∧ !s.on Reg.SPR_CTL_PREEMPT then 0 else x.retire) }
    (k ≠ 2) ∧ (k ≤ 9) ∧ (mapKind k ≠ 6) ∧ (mapKind k ≠ 7)) (State.reset) (0) (3) := by
  (repeat' apply And.intro) <;> first | decide +kernel | rfl
theorem met_RepairCommands_17_2 : (fun (s : State) (k u : Nat) => let v := s.unitMod (mapKind k) u fun x => { x with retire :=
      (if x.retire = 0 ∧ x.worn ∧ s.on Reg.SPR_CTL_PREEMPT then 2 else if x.retire = 2 ∧ !s.on Reg.SPR_CTL_PREEMPT then 0 else x.retire) }
    (k ≠ 2) ∧ (k ≤ 9) ∧ (mapKind k ≠ 6) ∧ (mapKind k ≠ 7)) (State.reset) (3) (3) := by
  (repeat' apply And.intro) <;> first | decide +kernel | rfl
theorem met_RepairCommands_17_3 : (fun (s : State) (k u : Nat) => let v := s.unitMod (mapKind k) u fun x => { x with retire :=
      (if x.retire = 0 ∧ x.worn ∧ s.on Reg.SPR_CTL_PREEMPT then 2 else if x.retire = 2 ∧ !s.on Reg.SPR_CTL_PREEMPT then 0 else x.retire) }
    (k ≠ 2) ∧ (k ≤ 9) ∧ (mapKind k ≠ 6) ∧ (mapKind k ≠ 7)) (State.reset) (1) (0) := by
  (repeat' apply And.intro) <;> first | decide +kernel | rfl
theorem met_ImageCommands_1 : (fun (s : State) (r v m : Nat) (g : Bool) (d : Desc) => (s.serves 0 r 0x0B01 d { priv := 3, buf := .reads, lenOk := fun n => n == 512, parOk := imgType (bits d.p0 0 3) }) ∧ ((s.beginDesc r 0x0B01 d).headerBad (bufBytes d) (bits d.p0 0 3) g = some (v, m))) (wGot (wRing 0) 0 0x0B01 { wBuf 512 with p0 := 1 }) (0) (1) (0) (true) ({ wBuf 512 with p0 := 1 }) := by
  (repeat' apply And.intro) <;> first | decide +kernel | rfl
theorem met_ImageCommands_2 : (fun (s : State) (r t : Nat) (g : Bool) (d : Desc) => let u := s.beginDesc r 0x0B01 d
    let v := u.updMod fun x => { x with nextSess := u.upd.nextSess + 1 }
    let w := v.imgMod t (u.spareSlot t) fun _ => { st := 1, hdr := bufBytes d }
    (s.serves 0 r 0x0B01 d { priv := 3, buf := .reads, lenOk := fun n => n == 512, parOk := imgType (bits d.p0 0 3) }) ∧ (t = bits d.p0 0 3) ∧ (u.headerBad (bufBytes d) t g = none) ∧ (Tab.find u.upd.sess t = none) ∧ ((u.img t (u.spareSlot t)).st ≠ 4)) (wGot (wRing 0) 0 0x0B01 { wBuf 512 (fit 512 (le 4 0x9640494D ++ le 2 1 ++ le 2 512 ++ le 4 0x96400B00 ++ le 1 1 ++ zeros 3 ++ le 4 7 ++ zeros 8 ++ le 4 1 ++ zeros 56 ++ sha384 [1])) with p0 := 1 }) (0) (1) (true) ({ wBuf 512 (fit 512 (le 4 0x9640494D ++ le 2 1 ++ le 2 512 ++ le 4 0x96400B00 ++ le 1 1 ++ zeros 3 ++ le 4 7 ++ zeros 8 ++ le 4 1 ++ zeros 56 ++ sha384 [1])) with p0 := 1 }) := by
  (repeat' apply And.intro) <;> first | decide +kernel | rfl
theorem met_ImageCommands_3 : (fun (s : State) (r t : Nat) (g : Bool) (d : Desc) (x : Session) => let u := s.beginDesc r 0x0B01 d
    (s.serves 0 r 0x0B01 d { priv := 3, buf := .reads, lenOk := fun n => n == 512, parOk := imgType (bits d.p0 0 3) }) ∧ (t = bits d.p0 0 3) ∧ (u.headerBad (bufBytes d) t g = none) ∧ (Tab.find u.upd.sess t = some x) ∧ (x.src ≠ .ring r)) (wGot { wRing 0 with upd := { State.reset.upd with sess := [(1, { no := 4, src := .peer, hdr := [], last := 0 })] } } 0 0x0B01 { wBuf 512 (fit 512 (le 4 0x9640494D ++ le 2 1 ++ le 2 512 ++ le 4 0x96400B00 ++ le 1 1 ++ zeros 3 ++ le 4 7 ++ zeros 8 ++ le 4 1 ++ zeros 56 ++ sha384 [1])) with p0 := 1 }) (0) (1) (true) ({ wBuf 512 (fit 512 (le 4 0x9640494D ++ le 2 1 ++ le 2 512 ++ le 4 0x96400B00 ++ le 1 1 ++ zeros 3 ++ le 4 7 ++ zeros 8 ++ le 4 1 ++ zeros 56 ++ sha384 [1])) with p0 := 1 }) ({ no := 4, src := .peer, hdr := [], last := 0 }) := by
  (repeat' apply And.intro) <;> first | decide +kernel | rfl
theorem met_ImageCommands_4 : (fun (s : State) (r : Nat) (d : Desc) => (s.serves 0 r 0x0B02 d { priv := 3, buf := .reads, lenOk := fun n => decide (8 ≤ n ∧ n ≤ 1048576) }) ∧ (s.upd.expired.contains d.p0 = true)) (wGot { wRing 0 with upd := { State.reset.upd with expired := [4] } } 0 0x0B02 { wBuf 8 with p0 := 4 }) (0) ({ wBuf 8 with p0 := 4 }) := by
  (repeat' apply And.intro) <;> first | decide +kernel | rfl
theorem met_ImageCommands_5 : (fun (s : State) (r t : Nat) (d : Desc) (x : Session) => (s.serves 0 r 0x0B02 d { priv := 3, buf := .reads, lenOk := fun n => decide (8 ≤ n ∧ n ≤ 1048576) }) ∧ (s.upd.expired.contains d.p0 = false) ∧ (s.session r d.p0 = some (t, x)) ∧ (d.p1 = x.body.length)) (wGot { wRing 0 with upd := { State.reset.upd with sess := [(1, { no := 4, src := .ring 0, hdr := [], last := 0 })] } } 0 0x0B02 { wBuf 8 with p0 := 4 }) (0) (1) ({ wBuf 8 with p0 := 4 }) ({ no := 4, src := .ring 0, hdr := [], last := 0 }) := by
  (repeat' apply And.intro) <;> first | decide +kernel | rfl
theorem met_ImageCommands_6 : (fun (s : State) (r t : Nat) (d : Desc) (x : Session) => (s.serves 0 r 0x0B02 d { priv := 3, buf := .reads, lenOk := fun n => decide (8 ≤ n ∧ n ≤ 1048576) }) ∧ (s.upd.expired.contains d.p0 = false) ∧ (s.session r d.p0 = some (t, x)) ∧ (d.p1 ≠ x.body.length)) (wGot { wRing 0 with upd := { State.reset.upd with sess := [(1, { no := 4, src := .ring 0, hdr := [], last := 0 })] } } 0 0x0B02 { wBuf 8 with p0 := 4, p1 := 8 }) (0) (1) ({ wBuf 8 with p0 := 4, p1 := 8 }) ({ no := 4, src := .ring 0, hdr := [], last := 0 }) := by
  (repeat' apply And.intro) <;> first | decide +kernel | rfl
theorem met_ImageCommands_7 : (fun (s : State) (r : Nat) (d : Desc) => (s.serves 0 r 0x0B03 d { priv := 3 }) ∧ (s.upd.expired.contains d.p0 = false) ∧ (s.session r d.p0 = none)) (wGot (wRing 0) 0 0x0B03 { wDesc with p0 := 4 }) (0) ({ wDesc with p0 := 4 }) := by
  (repeat' apply And.intro) <;> first | decide +kernel | rfl
theorem met_ImageCommands_8 : (fun (s : State) (r : Nat) (d : Desc) => (s.serves 0 r 0x0B04 d { priv := 3 }) ∧ (s.upd.expired.contains d.p0 = false) ∧ (s.session r d.p0 = none)) (wGot (wRing 0) 0 0x0B04 { wDesc with p0 := 4 }) (0) ({ wDesc with p0 := 4 }) := by
  (repeat' apply And.intro) <;> first | decide +kernel | rfl
theorem met_ImageCommands_9 : (fun (s : State) (r t : Nat) (d : Desc) (x : Session) => let u := s.beginDesc r 0x0B03 d
    (s.serves 0 r 0x0B03 d { priv := 3 }) ∧ (s.upd.expired.contains d.p0 = false) ∧ (s.session r d.p0 = some (t, x)) ∧ (x.body.length = rd x.hdr 28 4) ∧ (sha384 x.body = (x.hdr.drop 88).take 48) ∧ (t ≠ 6)) (wGot { wRing 0 with upd := { State.reset.upd with sess := [(1, { no := 4, src := .ring 0, hdr := (fit 512 (le 4 0x9640494D ++ le 2 1 ++ le 2 512 ++ le 4 0x96400B00 ++ le 1 1 ++ zeros 3 ++ le 4 7 ++ zeros 8 ++ le 4 1 ++ zeros 56 ++ sha384 [1])), body := [1], last := 0 })] } } 0 0x0B03 { wDesc with p0 := 4 }) (0) (1) ({ wDesc with p0 := 4 }) ({ no := 4, src := .ring 0, hdr := (fit 512 (le 4 0x9640494D ++ le 2 1 ++ le 2 512 ++ le 4 0x96400B00 ++ le 1 1 ++ zeros 3 ++ le 4 7 ++ zeros 8 ++ le 4 1 ++ zeros 56 ++ sha384 [1])), body := [1], last := 0 }) := by
  (repeat' apply And.intro) <;> first | decide +kernel | rfl
theorem met_ImageCommands_10 : (fun (s : State) (r t : Nat) (d : Desc) (x : Session) => let u := s.beginDesc r 0x0B03 d
    (s.serves 0 r 0x0B03 d { priv := 3 }) ∧ (s.upd.expired.contains d.p0 = false) ∧ (s.session r d.p0 = some (t, x)) ∧ (x.body.length ≠ rd x.hdr 28 4)) (wGot { wRing 0 with upd := { State.reset.upd with sess := [(1, { no := 4, src := .ring 0, hdr := [], last := 0, body := [1] })] } } 0 0x0B03 { wDesc with p0 := 4 }) (0) (1) ({ wDesc with p0 := 4 }) ({ no := 4, src := .ring 0, hdr := [], last := 0, body := [1] }) := by
  (repeat' apply And.intro) <;> first | decide +kernel | rfl
theorem met_ImageCommands_11 : (fun (s : State) (r t : Nat) (d : Desc) (x : Session) => (s.serves 0 r 0x0B04 d { priv := 3 }) ∧ (s.upd.expired.contains d.p0 = false) ∧ (s.session r d.p0 = some (t, x))) (wGot { wRing 0 with upd := { State.reset.upd with sess := [(1, { no := 4, src := .ring 0, hdr := [], last := 0 })] } } 0 0x0B04 { wDesc with p0 := 4 }) (0) (1) ({ wDesc with p0 := 4 }) ({ no := 4, src := .ring 0, hdr := [], last := 0 }) := by
  (repeat' apply And.intro) <;> first | decide +kernel | rfl
theorem met_ImageCommands_12 : (fun (s : State) (t : Nat) => (Tab.find s.upd.sess t = none)) (State.reset) (1) := by
  (repeat' apply And.intro) <;> first | decide +kernel | rfl
theorem met_ImageCommands_13 : (fun (s : State) (t : Nat) (x : Session) => (Tab.find s.upd.sess t = some x)) ({ wRing 0 with upd := { State.reset.upd with sess := [(1, { no := 4, src := .ring 0, hdr := [], last := 0 })] } }) (1) ({ no := 4, src := .ring 0, hdr := [], last := 0 }) := by
  (repeat' apply And.intro) <;> first | decide +kernel | rfl
theorem met_ImageCommands_14 : (fun (s : State) (r : Nat) (g : Bool) (d : Desc) => let u := (s.beginDesc r 0x0B08 d).draw
    (s.serves 0 r 0x0B08 d { priv := 3, standby := true, buf := .reads, lenOk := fun n => n == 128 }) ∧ (s.token = true)) (wGot (wSet [(Reg.CHS_STAT_TOKEN, 1)] (wRing 0)) 0 0x0B08 ((wBuf 128 (le 4 0x96405441 ++ le 2 1 ++ le 1 0 ++ le 1 0 ++ le 8 (State.reset.get Reg.GLB_SERIAL) ++ le 8 (State.reset.get Reg.UPD_NONCE))))) (0) (true) ((wBuf 128 (le 4 0x96405441 ++ le 2 1 ++ le 1 0 ++ le 1 0 ++ le 8 (State.reset.get Reg.GLB_SERIAL) ++ le 8 (State.reset.get Reg.UPD_NONCE)))) := by
  (repeat' apply And.intro) <;> first | decide +kernel | rfl
theorem met_ImageCommands_15 : (fun (s : State) (r : Nat) (d : Desc) => let u := (s.beginDesc r 0x0B08 d).draw
    (s.serves 0 r 0x0B08 d { priv := 3, standby := true, buf := .reads, lenOk := fun n => n == 128 }) ∧ (s.token = false)) (wGot (wRing 0) 0 0x0B08 ((wBuf 128 (le 4 0x96405441 ++ le 2 1 ++ le 1 0 ++ le 1 0 ++ le 8 (State.reset.get Reg.GLB_SERIAL) ++ le 8 (State.reset.get Reg.UPD_NONCE))))) (0) ((wBuf 128 (le 4 0x96405441 ++ le 2 1 ++ le 1 0 ++ le 1 0 ++ le 8 (State.reset.get Reg.GLB_SERIAL) ++ le 8 (State.reset.get Reg.UPD_NONCE)))) := by
  (repeat' apply And.intro) <;> first | decide +kernel | rfl
theorem met_ImageCommands_16 : (fun (s : State) (r : Nat) (d : Desc) => let b := bufBytes d
    let u := (s.beginDesc r 0x0B08 d).draw
    (s.serves 0 r 0x0B08 d { priv := 3, standby := true, buf := .reads, lenOk := fun n => n == 128 }) ∧ (s.token = false) ∧ (rd b 0 4 = 0x96405441) ∧ (rd b 4 2 = 1) ∧ (rd b 6 1 < 4) ∧ (bit (s.get Reg.UPD_STAT_REVOKED) (rd b 6 1) = false) ∧ (rd b 8 8 = s.get Reg.GLB_SERIAL) ∧ (rd b 16 8 = s.get Reg.UPD_NONCE)) (wGot (wRing 0) 0 0x0B08 ((wBuf 128 (le 4 0x96405441 ++ le 2 1 ++ le 1 0 ++ le 1 0 ++ le 8 (State.reset.get Reg.GLB_SERIAL) ++ le 8 (State.reset.get Reg.UPD_NONCE))))) (0) ((wBuf 128 (le 4 0x96405441 ++ le 2 1 ++ le 1 0 ++ le 1 0 ++ le 8 (State.reset.get Reg.GLB_SERIAL) ++ le 8 (State.reset.get Reg.UPD_NONCE)))) := by
  (repeat' apply And.intro) <;> first | decide +kernel | rfl
theorem met_ImageCommands_17 : (fun (s : State) (t n : Nat) (w : List Byte) (g : Bool) => (s.stage ≠ 0xE)) (State.reset) (1) (4) ([]) (true) := by
  (repeat' apply And.intro) <;> first | decide +kernel | rfl
theorem met_ImageCommands_18 : (fun (s : State) (t v m : Nat) (w : List Byte) (g : Bool) => (s.stage = 0xE) ∧ (s.headerBad (fit 512 w) t g = some (v, m))) (wSet [(Reg.GLB_BOOTSTAT_STAGE, 14)]) (1) (1) (0) ([]) (true) := by
  (repeat' apply And.intro) <;> first | decide +kernel | rfl
theorem met_ImageCommands_19 : (fun (s : State) (t : Nat) (w : List Byte) (g : Bool) => let k := s.spareSlot t
    let no := s.upd.nextSess
    let v := (s.updMod fun u => { u with nextSess := no + 1 }).imgMod t k fun _ => { st := 1, hdr := fit 512 w }
    (s.stage = 0xE) ∧ (s.headerBad (fit 512 w) t g = none) ∧ (Tab.find s.upd.sess t = none) ∧ ((s.img t k).st ≠ 4)) (wSet [(Reg.GLB_BOOTSTAT_STAGE, 14)]) (1) ((fit 512 (le 4 0x9640494D ++ le 2 1 ++ le 2 512 ++ le 4 0x96400B00 ++ le 1 1 ++ zeros 3 ++ le 4 7 ++ zeros 8 ++ le 4 1 ++ zeros 56 ++ sha384 [1]))) (true) := by
  (repeat' apply And.intro) <;> first | decide +kernel | rfl
theorem met_ImageCommands_20 : (fun (s : State) (t n : Nat) (w : List Byte) => (s.stage = 0xE) ∧ (Tab.find s.upd.sess t = none)) (wSet [(Reg.GLB_BOOTSTAT_STAGE, 14)]) (1) (4) ([9]) := by
  (repeat' apply And.intro) <;> first | decide +kernel | rfl
theorem met_ImageCommands_21 : (fun (s : State) (t n : Nat) (w : List Byte) (x : Session) => (s.stage = 0xE) ∧ (Tab.find s.upd.sess t = some x)) ({ wSet [(Reg.GLB_BOOTSTAT_STAGE, 14)] with upd := { State.reset.upd with sess := [(1, { no := 4, src := .flyleaf, hdr := [], last := 0 })] } }) (1) (4) ([9]) ({ no := 4, src := .flyleaf, hdr := [], last := 0 }) := by
  (repeat' apply And.intro) <;> first | decide +kernel | rfl
theorem met_ImageCommands_22 : (fun (s : State) => (s.stage = 0xE) ∧ (s.setGood (imgTypes.filter fun t => (s.img t (s.spareSlot t)).st == 2) = false)) ({ wSet [(Reg.GLB_BOOTSTAT_STAGE, 14)] with upd := { State.reset.upd with slots := [(3, { st := 2, hdr := zeros 48 ++ le 4 5 ++ le 4 9 })] } }) := by
  (repeat' apply And.intro) <;> first | decide +kernel | rfl
theorem met_ImageCommands_23_1 : (fun (s : State) (ts : List Nat) => (s.stage = 0xE) ∧ (ts = (imgTypes.filter fun t => (s.img t (s.spareSlot t)).st == 2)) ∧ (s.setGood ts = true)) (wSet [(Reg.GLB_BOOTSTAT_STAGE, 14)]) ([]) := by
  (repeat' apply And.intro) <;> first | decide +kernel | rfl
theorem met_ImageCommands_23_2 : (fun (s : State) (ts : List Nat) => (s.stage = 0xE) ∧ (ts = (imgTypes.filter fun t => (s.img t (s.spareSlot t)).st == 2)) ∧ (s.setGood ts = true)) ({ wSet [(Reg.GLB_BOOTSTAT_STAGE, 14)] with upd := { State.reset.upd with slots := [(3, { st := 2 })] } }) ([1]) := by
  (repeat' apply And.intro) <;> first | decide +kernel | rfl
theorem met_ImageCommands_24 : (fun (s : State) (m : List Byte) (g : Bool) => (s.stage = 0xE) ∧ (rd m 0 1 ≠ 0xA5)) (wSet [(Reg.GLB_BOOTSTAT_STAGE, 14)]) ([0]) (true) := by
  (repeat' apply And.intro) <;> first | decide +kernel | rfl
theorem met_ImageCommands_25 : (fun (s : State) (m : List Byte) (g : Bool) => (s.stage = 0xE) ∧ (s.glb.lossStep = 0) ∧ (rd m 0 1 = 0xA5) ∧ (m.length ≠ rd m 2 2 + 8 ∨ 4096 < rd m 2 2 ∨ crc32 (m.take (4 + rd m 2 2)) ≠ rd m (4 + rd m 2 2) 4)) (wSet [(Reg.GLB_BOOTSTAT_STAGE, 14)]) ([0xA5, 1]) (true) := by
  (repeat' apply And.intro) <;> first | decide +kernel | rfl
theorem met_ImageCommands_26 : (fun (s : State) (m : List Byte) (g : Bool) => (s.stage = 0xE) ∧ (s.glb.lossStep ≠ 0) ∧ (rd m 0 1 = 0xA5) ∧ (m.length ≠ rd m 2 2 + 8 ∨ 4096 < rd m 2 2 ∨ crc32 (m.take (4 + rd m 2 2)) ≠ rd m (4 + rd m 2 2) 4)) (wSet [(Reg.GLB_BOOTSTAT_STAGE, 14)] ({ State.reset with glb := { State.reset.glb with lossStep := 2 } })) ([0xA5, 1]) (true) := by
  (repeat' apply And.intro) <;> first | decide +kernel | rfl
theorem met_ImageCommands_27 : (fun (s : State) (m : List Byte) (g : Bool) (n : Nat) => let u := s.flyOpen (bits (rd m 1 1) 4 4) ((m.drop 4).take n) g
    (s.stage = 0xE) ∧ (rd m 0 1 = 0xA5) ∧ (n = rd m 2 2) ∧ (m.length = n + 8) ∧ (n ≤ 4096) ∧ (crc32 (m.take (4 + n)) = rd m (4 + n) 4) ∧ (rd m 1 1 % 16 = 1)) (wSet [(Reg.GLB_BOOTSTAT_STAGE, 14)]) ((let b := [0xA5, 17] ++ le 2 2 ++ [1, 2]; b ++ le 4 (crc32 b))) (true) (2) := by
  (repeat' apply And.intro) <;> first | decide +kernel | rfl
theorem met_ImageCommands_28 : (fun (s : State) (m : List Byte) (g : Bool) (n : Nat) => let u := s.flyWrite (bits (rd m 1 1) 4 4) n ((m.drop 4).take n)
    (s.stage = 0xE) ∧ (rd m 0 1 = 0xA5) ∧ (n = rd m 2 2) ∧ (m.length = n + 8) ∧ (n ≤ 4096) ∧ (crc32 (m.take (4 + n)) = rd m (4 + n) 4) ∧ (rd m 1 1 % 16 = 2)) (wSet [(Reg.GLB_BOOTSTAT_STAGE, 14)]) ((let b := [0xA5, 18] ++ le 2 2 ++ [1, 2]; b ++ le 4 (crc32 b))) (true) (2) := by
  (repeat' apply And.intro) <;> first | decide +kernel | rfl
theorem met_ImageCommands_29 : (fun (s : State) (m : List Byte) (g : Bool) (n : Nat) => let u := s.flyFinish (bits (rd m 1 1) 4 4)
    (s.stage = 0xE) ∧ (rd m 0 1 = 0xA5) ∧ (n = rd m 2 2) ∧ (m.length = n + 8) ∧ (n ≤ 4096) ∧ (crc32 (m.take (4 + n)) = rd m (4 + n) 4) ∧ (rd m 1 1 % 16 = 3)) (wSet [(Reg.GLB_BOOTSTAT_STAGE, 14)]) ((let b := [0xA5, 19] ++ le 2 2 ++ [1, 2]; b ++ le 4 (crc32 b))) (true) (2) := by
  (repeat' apply And.intro) <;> first | decide +kernel | rfl
theorem met_ImageCommands_30 : (fun (s : State) (m : List Byte) (g : Bool) (n : Nat) => let u := s.flyAbort (bits (rd m 1 1) 4 4)
    (s.stage = 0xE) ∧ (rd m 0 1 = 0xA5) ∧ (n = rd m 2 2) ∧ (m.length = n + 8) ∧ (n ≤ 4096) ∧ (crc32 (m.take (4 + n)) = rd m (4 + n) 4) ∧ (rd m 1 1 % 16 = 4)) (wSet [(Reg.GLB_BOOTSTAT_STAGE, 14)]) ((let b := [0xA5, 20] ++ le 2 2 ++ [1, 2]; b ++ le 4 (crc32 b))) (true) (2) := by
  (repeat' apply And.intro) <;> first | decide +kernel | rfl
theorem met_PlanCommands_1 : (fun (s : State) (r : Nat) (d : Desc) => let u := s.beginDesc r 0x0B05 d
    (s.serves 0 r 0x0B05 d { priv := 3, standby := true, parOk := bits d.p0 0 6 != 0 }) ∧ (u.upd.plan.isSome = true ∨ u.prs.hier.isSome = true ∨ u.chs.lists ≠ [])) (wGot { wRing 0 with upd := { State.reset.upd with plan := some ({ no := 3, st := wStaged, steps := [{ type := 1, st := 1 }] }) } } 0 0x0B05 { wDesc with p0 := 1, p1 := 0 }) (0) ({ wDesc with p0 := 1, p1 := 0 }) := by
  (repeat' apply And.intro) <;> first | decide +kernel | rfl
theorem met_PlanCommands_2 : (fun (s : State) (r t : Nat) (d : Desc) => let u := s.beginDesc r 0x0B05 d
    let ts := imgTypes.filter fun t => bit d.p0 (t - 1)
    (s.serves 0 r 0x0B05 d { priv := 3, standby := true, parOk := bits d.p0 0 6 != 0 }) ∧ (u.upd.plan = none) ∧ (u.prs.hier = none) ∧ (u.chs.lists = []) ∧ ((ts.find? fun t => (u.img t (u.spareSlot t)).st != 2) = some t)) (wGot (wRing 0) 0 0x0B05 { wDesc with p0 := 1, p1 := 0 }) (0) (1) ({ wDesc with p0 := 1, p1 := 0 }) := by
  (repeat' apply And.intro) <;> first | decide +kernel | rfl
theorem met_PlanCommands_3 : (fun (s : State) (r t : Nat) (d : Desc) => let u := s.beginDesc r 0x0B05 d
    let ts := imgTypes.filter fun t => bit d.p0 (t - 1)
    (s.serves 0 r 0x0B05 d { priv := 3, standby := true, parOk := bits d.p0 0 6 != 0 }) ∧ (u.upd.plan = none) ∧ (u.prs.hier = none) ∧ (u.chs.lists = []) ∧ ((ts.find? fun t => (u.img t (u.spareSlot t)).st != 2) = none) ∧ (stepFails (fun new _ => u.setGood new) [] ts = some t)) (wGot { wRing 0 with upd := { State.reset.upd with slots := [(3, { st := 2, hdr := zeros 48 ++ le 4 5 ++ le 4 9 })] } } 0 0x0B05 { wDesc with p0 := 1, p1 := 0 }) (0) (1) ({ wDesc with p0 := 1, p1 := 0 }) := by
  (repeat' apply And.intro) <;> first | decide +kernel | rfl
theorem met_PlanCommands_4 : (fun (s : State) (r : Nat) (d : Desc) => let u := s.beginDesc r 0x0B05 d
    let ts := imgTypes.filter fun t => bit d.p0 (t - 1)
    (s.serves 0 r 0x0B05 d { priv := 3, standby := true, parOk := bits d.p0 0 6 != 0 }) ∧ (u.upd.plan = none) ∧ (u.prs.hier = none) ∧ (u.chs.lists = []) ∧ ((ts.find? fun t => (u.img t (u.spareSlot t)).st != 2) = none) ∧ (stepFails (fun new _ => u.setGood new) [] ts = none) ∧ (ts.contains 5 = false) ∧ (u.token = true) ∧ (u.get Reg.ROS_STAT_PREADY = 0) ∧ (ts.contains 1 = true ∨ ts.contains 2 = true) ∧ (bit d.p1 0 = false)) (wGot { wSet [(Reg.CHS_STAT_TOKEN, 1)] (wRing 0) with upd := { State.reset.upd with slots := [(3, { st := 2 })] } } 0 0x0B05 { wDesc with p0 := 1, p1 := 0 }) (0) ({ wDesc with p0 := 1, p1 := 0 }) := by
  (repeat' apply And.intro) <;> first | decide +kernel | rfl
theorem met_PlanCommands_5 : (fun (s : State) (r : Nat) (d : Desc) => let u := s.beginDesc r 0x0B05 d
    let ts := imgTypes.filter fun t => bit d.p0 (t - 1)
    let v := u.newChange.2
    let c : Staged := { no := u.newChange.1, block := 0xA, opcode := 0x0B05, target := bits d.p0 0 6, old := 0, new := 0, ring := r, due := v.leadPeriod, act := .own }
    (s.serves 0 r 0x0B05 d { priv := 3, standby := true, parOk := bits d.p0 0 6 != 0 }) ∧ (u.upd.plan = none) ∧ (u.prs.hier = none) ∧ (u.chs.lists = []) ∧ ((ts.find? fun t => (u.img t (u.spareSlot t)).st != 2) = none) ∧ (stepFails (fun new _ => u.setGood new) [] ts = none) ∧ (ts.contains 5 = false) ∧ (u.token = false)) (wGot { wRing 0 with upd := { State.reset.upd with slots := [(3, { st := 2 })] } } 0 0x0B05 { wDesc with p0 := 1, p1 := 0 }) (0) ({ wDesc with p0 := 1, p1 := 0 }) := by
  (repeat' apply And.intro) <;> first | decide +kernel | rfl
theorem met_PlanCommands_6 : (fun (s : State) (r : Nat) (d : Desc) => (s.serves 0 r 0x0B06 d { priv := 3, standby := true }) ∧ ((s.beginDesc r 0x0B06 d).planWhole = false)) (wGot (wRing 0) 0 0x0B06 wDesc) (0) (wDesc) := by
  (repeat' apply And.intro) <;> first | decide +kernel | rfl
theorem met_PlanCommands_7 : (fun (s : State) (r : Nat) (d : Desc) => (s.serves 0 r 0x0B06 d { priv := 3, standby := true }) ∧ ((s.beginDesc r 0x0B06 d).planWhole = true)) (wGot { wRing 0 with upd := { State.reset.upd with plan := some ({ no := 3, st := wStaged, steps := [{ type := 1, st := 2 }] }) } } 0 0x0B06 wDesc) (0) (wDesc) := by
  (repeat' apply And.intro) <;> first | decide +kernel | rfl
theorem met_PlanCommands_8 : (fun (s : State) (r : Nat) (d : Desc) => (s.serves 0 r 0x0B07 d { priv := 3, standby := true }) ∧ (s.upd.plan = none)) (wGot (wRing 0) 0 0x0B07 wDesc) (0) (wDesc) := by
  (repeat' apply And.intro) <;> first | decide +kernel | rfl
theorem met_PlanCommands_9 : (fun (s : State) (r : Nat) (d : Desc) (p : UPlan) => let u := (s.beginDesc r 0x0B07 d).newChange
    let v := u.2.logC (.host r) 2 u.1 0x0B07 0xA 0 p.no 0
    let w := v.updMod fun x => { x with plan := some { p with st := { p.st with no := u.1, opcode := 0x0B07 } } }
    (s.serves 0 r 0x0B07 d { priv := 3, standby := true }) ∧ (s.upd.plan = some p) ∧ (p.rolling = false)) (wGot { wRing 0 with upd := { State.reset.upd with plan := some ({ no := 3, st := wStaged, steps := [{ type := 1, st := 1 }] }) } } 0 0x0B07 wDesc) (0) (wDesc) ({ no := 3, st := wStaged, steps := [{ type := 1, st := 1 }] }) := by
  (repeat' apply And.intro) <;> first | decide +kernel | rfl
theorem met_PlanCommands_10 : (fun (s : State) => (s.stepNow = none)) (State.reset) := by
  (repeat' apply And.intro) <;> first | decide +kernel | rfl
theorem met_PlanCommands_11 : (fun (s : State) (x : PlanStep) => (s.stepNow = some x) ∧ (x.type = 0 ∨ 5 ≤ x.type)) ({ wRing 0 with upd := { State.reset.upd with plan := some ({ no := 3, st := wStaged, steps := [{ type := 5, st := 1 }] }) } }) ({ type := 5, st := 1 }) := by
  (repeat' apply And.intro) <;> first | decide +kernel | rfl
theorem met_PlanCommands_12 : (fun (s : State) (x : PlanStep) => (s.stepNow = some x) ∧ (x.type ≠ 0) ∧ (x.type < 5) ∧ (x.peer = true)) ({ wRing 0 with upd := { State.reset.upd with plan := some ({ no := 3, st := wStaged, steps := [{ type := 1, st := 1, peer := true }] }) } }) ({ type := 1, st := 1, peer := true }) := by
  (repeat' apply And.intro) <;> first | decide +kernel | rfl
theorem met_PlanCommands_13 : (fun (s : State) (x : PlanStep) => (s.stepNow = some x) ∧ (x.type ≠ 0) ∧ (x.type < 5) ∧ (x.peer = false) ∧ ((s.migrate x.type).1 = true)) ({ wRing 0 with upd := { State.reset.upd with plan := some ({ no := 3, st := wStaged, steps := [{ type := 1, st := 1 }] }) } }) ({ type := 1, st := 1 }) := by
  (repeat' apply And.intro) <;> first | decide +kernel | rfl
theorem met_PlanCommands_14 : (fun (s : State) (x : PlanStep) => (s.stepNow = some x) ∧ (x.type ≠ 0) ∧ (x.type < 5) ∧ (x.peer = false) ∧ ((s.migrate x.type).1 = false) ∧ ((s.migrate x.type).2.upd.plan.any (·.rolling) = false)) ({ wRing 0 with upd := { State.reset.upd with plan := some ({ no := 3, st := wStaged, steps := [{ type := 1, st := 1 }] }), sects := [1, 0, 0, 0] } }) ({ type := 1, st := 1 }) := by
  (repeat' apply And.intro) <;> first | decide +kernel | rfl
theorem met_PlanCommands_15 : (fun (s : State) (p : UPlan) (x : PlanStep) => (s.upd.plan = some p) ∧ (s.stepNow = some x) ∧ (p.rolling = false)) ({ wRing 0 with upd := { State.reset.upd with plan := some ({ no := 3, st := wStaged, steps := [{ type := 1, st := 1 }] }) } }) ({ no := 3, st := wStaged, steps := [{ type := 1, st := 1 }] }) ({ type := 1, st := 1 }) := by
  (repeat' apply And.intro) <;> first | decide +kernel | rfl
theorem met_PlanCommands_16 : (fun (s : State) (p : UPlan) (x y : PlanStep) (i : Nat) => (s.upd.plan = some p) ∧ (s.stepNow = some x) ∧ (p.rolling = true) ∧ (((p.steps.zipIdx.map fun e => (e.2, e.1)).find? fun e => e.2.st == 1) = some (i, y))) ({ wRing 0 with upd := { State.reset.upd with plan := some ({ no := 3, st := wStaged, steps := [{ type := 1, st := 1 }], rolling := true }) } }) ({ no := 3, st := wStaged, steps := [{ type := 1, st := 1 }], rolling := true }) ({ type := 1, st := 1 }) ({ type := 1, st := 1 }) (0) := by
  (repeat' apply And.intro) <;> first | decide +kernel | rfl
theorem met_PlanCommands_17 : (fun (s : State) => (s.planWhole = true) ∧ (s.on Reg.UPD_CTL_AUTO = true) ∧ (s.get Reg.UPD_CTL_SOAK ≠ 0)) ({ wSet [(Reg.UPD_CTL_AUTO, 1), (Reg.UPD_CTL_SOAK, 5)] with upd := { State.reset.upd with plan := some ({ no := 3, st := wStaged, steps := [{ type := 1, st := 2 }] }) } }) := by
  (repeat' apply And.intro) <;> first | decide +kernel | rfl
theorem met_PlanCommands_18 : (fun (s : State) => (s.planWhole = false ∨ s.on Reg.UPD_CTL_AUTO = false ∨ s.get Reg.UPD_CTL_SOAK = 0)) (State.reset) := by
  (repeat' apply And.intro) <;> first | decide +kernel | rfl
theorem met_PlanCommands_19 : (fun (s : State) (k p : Nat) (f : List Byte) => (f.length < 6 ∨ crc16 (f.take (f.length - 2)) ≠ rd f (f.length - 2) 2) ∧ (s.masters k = true)) (wSet [(Reg.BUP_STAT_MASTER, 1)]) (0) (0) (zeros 8) := by
  (repeat' apply And.intro) <;> first | decide +kernel | rfl
theorem met_PlanCommands_20 : (fun (s : State) (k p a fl : Nat) (f args recs : List Byte) => (bupParts f 8 a fl args recs) ∧ (s.masters k = true) ∧ (p ≤ 1)) (wSet [(Reg.BUP_STAT_MASTER, 1)]) (0) (0) (0) (2) (bupFrame 8 0 2 [] [1, 0, 0, 0, 7, 0, 0, 0]) ([]) ([1, 0, 0, 0, 7, 0, 0, 0]) := by
  (repeat' apply And.intro) <;> first | decide +kernel | rfl
theorem met_PlanCommands_21 : (fun (s : State) (k : Nat) => (Tab.find s.upd.push k = none)) (State.reset) (0) := by
  (repeat' apply And.intro) <;> first | decide +kernel | rfl
theorem met_PlanCommands_22 : (fun (s : State) (k : Nat) (x : Push) => (Tab.find s.upd.push k = some x) ∧ (x.step = 3) ∧ (x.node ≠ 0)) ({ wRing 0 with upd := { State.reset.upd with push := [(0, { step := 3, node := 4 })], plan := some ({ no := 3, st := wStaged, steps := [{ type := 5, st := 1 }] }) } }) (0) ({ step := 3, node := 4 }) := by
  (repeat' apply And.intro) <;> first | decide +kernel | rfl
theorem met_PlanCommands_23 : (fun (s : State) (k : Nat) (x : Push) => (Tab.find s.upd.push k = some x) ∧ (x.step ≠ 3 ∨ x.node = 0)) ({ wRing 0 with upd := { State.reset.upd with push := [(0, { step := 2, node := 4 })] } }) (0) ({ step := 2, node := 4 }) := by
  (repeat' apply And.intro) <;> first | decide +kernel | rfl
theorem met_ReductionTree_1 : (fun (n kind : Nat) (vs : List Int) (k : Nat) => (0 < n) ∧ (2 ^ k < vs.length) ∧ (vs.length ≤ 2 * 2 ^ k)) (48) (4) ([100000000000000, 60000000000000, -50000000000000, 0]) (1) := by
  (repeat' apply And.intro) <;> first | decide +kernel | rfl
theorem met_Rounding_2_1 : (fun (x : Int) (s u : Nat) => (u < 2 ^ 32)) (-5) (2) (0x80000000) := by
  (repeat' apply And.intro) <;> first | decide +kernel | rfl
theorem met_Rounding_2_2 : (fun (x : Int) (s u : Nat) => (u < 2 ^ 32)) (0x123456789A) (40) (0xFFFFFFFF) := by
  (repeat' apply And.intro) <;> first | decide +kernel | rfl
theorem met_Rounding_3 : (fun (x : Int) (n : Nat) => (0 < n)) (200) (8) := by
  (repeat' apply And.intro) <;> first | decide +kernel | rfl
theorem met_LeafSaturation_1 : (fun (fa fw i j : Nat) (bs : List (Blk × Blk)) => (fa < 4) ∧ (fw < 4) ∧ (i < fmtD fa) ∧ (j < fmtD fw) ∧ (bs.length ≤ 2 ^ leafB fa fw) ∧ ((∀ p ∈ bs, p.1.m.length = 32 ∧ p.2.m.length = 32 ∧ p.1.m.all (inW (fmtW fa)) = true ∧ p.2.m.all (inW (fmtW fw)) = true))) (0) (0) (0) (0) ([({ m := List.replicate 32 (-2), scale := 0 }, { m := List.replicate 32 (-2), scale := 0 })]) := by
  (repeat' apply And.intro) <;> first | decide +kernel | rfl
theorem met_LeafSaturation_2 : (fun (fa fw i j : Nat) (bs : List (Blk × Blk)) => (fa < 4) ∧ (fw < 4) ∧ (i < fmtD fa) ∧ (j < fmtD fw) ∧ (bs.length ≤ 2 ^ leafB fa fw) ∧ ((∀ p ∈ bs, p.1.m.length = 32 ∧ p.2.m.length = 32 ∧ p.1.m.all (inW (fmtW fa)) = true ∧ p.2.m.all (inW (fmtW fw)) = true)) ∧ ((leafResult fa fw i j bs).2 ≠ [])) (1) (1) (0) (0) ([({ m := List.replicate 32 (-8), scale := 0 }, { m := List.replicate 32 (-8), scale := 0 })]) := by
  (repeat' apply And.intro) <;> first | decide +kernel | rfl
theorem met_FolioNeverSaturates_1 : (fun (ls : List (Option (Int × Int))) => (ls.length ≤ 4096) ∧ ((∀ l ∈ ls, ∀ x : Int × Int, l = some x → -(2 ^ 19) ≤ x.1 ∧ x.1 < 2 ^ 19))) ([some (4992, -10), some (-300, -12), none]) := by
  (repeat' apply And.intro) <;> first | decide +kernel | rfl
theorem met_BlockOutput_1 : (fun (w rnd : Nat) (a : Int) (vs : List (Int × Nat)) => (0 < w)) (8) (0) (-4) ([(1000, 0), (-3, 5)]) := by
  (repeat' apply And.intro) <;> first | decide +kernel | rfl
theorem met_BlockOutput_2 : (fun (w rnd : Nat) (a : Int) (vs : List (Int × Nat)) (e : Int) => (0 < w) ∧ ((requant w rnd a vs).1.z = false) ∧ (-64 ≤ e) ∧ (e < (requant w rnd a vs).1.e)) (8) (0) (-4) ([(1000, 0), (-3, 5)]) (-8) := by
  (repeat' apply And.intro) <;> first | decide +kernel | rfl

end Sys2Proof.Tests
end

section
/-! ## Offsets of BAR0 that name no register (R12)

The special cases of a read and of a write are each guarded by the address of one register, or by the addresses of one row of
registers. Each of those rows is listed in `regTable`, so an offset that `regRow` does not find meets none of the guards. -/
namespace Sys2Proof.Machine

/-- The register table lists a row of `n` registers at `a`, `st` bytes apart. -/
def rowListed (a n st : Nat) : Bool := regTable.any fun r => r.addr == a && r.count == n && r.stride == st

/-- An offset that names no register lies at none of the addresses of a listed row. -/
theorem beyond_row_of_unnamed {off : Nat} (a n st : Nat) (h : regRow off = none)
    (hr : rowListed a n st = true := by decide +kernel)
    (ha : a ≤ off) (hst : (off - a) % st = 0) : n ≤ (off - a) / st := by
  obtain ⟨r, hmem, hrow⟩ := List.any_eq_true.1 hr
  simp only [Bool.and_eq_true, beq_iff_eq] at hrow
  obtain ⟨⟨rfl, rfl⟩, rfl⟩ := hrow
  have hnot := List.find?_eq_none.1 h r hmem
  simp only [decide_eq_true_eq, not_and, not_lt] at hnot
  exact hnot ha hst

theorem ne_of_unnamed {off : Nat} (a : Nat) (h : regRow off = none)
    (hr : rowListed a 1 4 = true := by decide +kernel) : off ≠ a := by
  have := beyond_row_of_unnamed a 1 4 h hr
  omega

theorem outside_words_of_unnamed {off : Nat} (a n b : Nat) (h : regRow off = none) (h4 : off % 4 = 0)
    (hr : rowListed a n 4 = true := by decide +kernel) (hb : a % 4 = 0 ∧ b = a + 4 * n := by decide) :
    ¬ (a ≤ off ∧ off < b) := by
  have := beyond_row_of_unnamed a n 4 h hr
  omega

/-! ### No mirror lies at such an offset -/

section Mirrors
variable {off : Nat} (s : State) (idx v : Nat) (h : regRow off = none) (h4 : off % 4 = 0)
include h

theorem mirrorGlb_of_unnamed : s.mirrorGlb off v = v := by
  rw [State.mirrorGlb, if_neg (ne_of_unnamed 0x28 h), if_neg (ne_of_unnamed 0x34 h),
    if_neg (ne_of_unnamed 0x3C h), if_neg (ne_of_unnamed 0x80 h),
    if_neg (ne_of_unnamed 0x88 h)]

theorem mirrorRos_of_unnamed : s.mirrorRos off v = v := by
  rw [State.mirrorRos, if_neg (ne_of_unnamed 0x70008 h)]

include h4

theorem mirrorHst_of_unnamed : s.mirrorHst off idx v = v := by
  rw [State.mirrorHst, if_neg (ne_of_unnamed 0x10008 h), if_neg (ne_of_unnamed 0x1003C h),
    if_neg (ne_of_unnamed 0x10084 h), if_neg (ne_of_unnamed 0x1010C h),
    if_neg (ne_of_unnamed 0x10110 h),
    if_neg (outside_words_of_unnamed 0x14000 8192 0x1C000 h h4),
    if_neg (outside_words_of_unnamed 0x11000 512 0x11800 h h4),
    if_neg (outside_words_of_unnamed 0x12000 512 0x12800 h h4)]

/-- The four words of a forme slot are all named; a textblock has words at 0 and 8 of its 64 bytes. -/
theorem mirrorPrs_of_unnamed : s.mirrorPrs off v = v := by
  have hslot : ¬ (0x24000 ≤ off ∧ off < 0x25000) := by
    have hrows : ∀ w < 4, rowListed (0x24000 + 4 * w) 256 0x10 = true := by decide +kernel
    have := beyond_row_of_unnamed _ _ _ h (hrows (off % 16 / 4) (by omega))
    omega
  have h0 := beyond_row_of_unnamed 0x20100 4 0x40 h
  have h8 := beyond_row_of_unnamed 0x20108 4 0x40 h
  simp only [State.mirrorPrs, if_neg (ne_of_unnamed 0x21004 h), if_neg hslot]
  split
  case isTrue htb =>
    split
    · omega
    · omega
    · rfl
  case isFalse => rfl

theorem mirrorChs_of_unnamed : s.mirrorChs off idx v = v := by
  simp only [State.mirrorChs, if_neg (ne_of_unnamed 0x30004 h), if_neg (ne_of_unnamed 0x3002C h),
    if_neg (ne_of_unnamed 0x3004C h), if_neg (ne_of_unnamed 0x30084 h),
    if_neg (ne_of_unnamed 0x300A4 h), if_neg (ne_of_unnamed 0x300A8 h),
    if_neg (ne_of_unnamed 0x300AC h), if_neg (ne_of_unnamed 0x300B0 h),
    if_neg (outside_words_of_unnamed 0x30120 6 0x30138 h h4)]

theorem mirrorStl_of_unnamed : s.mirrorStl off v = v := by
  simp only [State.mirrorStl, if_neg (ne_of_unnamed 0x40044 h), if_neg (ne_of_unnamed 0x40008 h),
    if_neg (outside_words_of_unnamed 0x40100 5 0x40114 h h4)]

/-- The cells of a ring fill 1,536 of its 2,048 bytes, and the mirror gives nothing beyond them; the three words of each of 24
nodes reach over the 256 bytes from one ring's first node to the next one's. -/
theorem mirrorBup_of_unnamed : s.mirrorBup off v = v := by
  have hnode : ¬ (0x53000 ≤ off ∧ off < 0x53400) := by
    have hrows : ∀ ring < 4, ∀ w < 3, rowListed (0x53000 + 0x100 * ring + 4 * w) 24 0xC = true := by decide +kernel
    intro hin
    have := beyond_row_of_unnamed _ _ _ h (hrows ((off - 0x53000) / 0x100) (by omega) (off % 0x100 / 4 % 3) (by omega))
    omega
  have hcell (hin : 0x51000 ≤ off ∧ off < 0x53000) : 384 ≤ off % 0x800 / 4 := by
    have hrows : ∀ ring < 4, rowListed (0x51000 + 0x800 * ring) 384 4 = true := by decide +kernel
    have := beyond_row_of_unnamed _ _ _ h (hrows ((off - 0x51000) / 0x800) (by omega))
    omega
  simp only [State.mirrorBup, if_neg hnode]
  split
  case isTrue hc => rw [if_pos (hcell hc)]
  case isFalse => rfl

theorem mirrorEra_of_unnamed : s.mirrorEra off idx v = v := by
  simp only [State.mirrorEra, if_neg (ne_of_unnamed 0x80008 h), if_neg (ne_of_unnamed 0x8001C h),
    if_neg (outside_words_of_unnamed 0x80100 12 0x80130 h h4),
    if_neg (outside_words_of_unnamed 0x80140 12 0x80170 h h4),
    if_neg (outside_words_of_unnamed 0x80180 12 0x801B0 h h4)]

/-- A store has words at 0, 4 and 8 of its 32 bytes; the mirror gives nothing at the others. -/
theorem mirrorCol_of_unnamed : s.mirrorCol off idx v = v := by
  have h0 := beyond_row_of_unnamed 0x90100 5 0x20 h
  have h1 := beyond_row_of_unnamed 0x90104 5 0x20 h
  have h2 := beyond_row_of_unnamed 0x90108 5 0x20 h
  simp only [State.mirrorCol, if_neg (ne_of_unnamed 0x90008 h), if_neg (ne_of_unnamed 0x9001C h)]
  split
  case isTrue hstore =>
    split
    · omega
    · omega
    · omega
    · rfl
  case isFalse => rfl

theorem mirrorUpd_of_unnamed : s.mirrorUpd off v = v := by
  simp only [State.mirrorUpd, if_neg (ne_of_unnamed 0xA0008 h),
    if_neg (outside_words_of_unnamed 0xA0020 6 0xA0038 h h4),
    if_neg (outside_words_of_unnamed 0xA0040 6 0xA0058 h h4)]

theorem mirrorSpr_of_unnamed : s.mirrorSpr off v = v := by
  simp only [State.mirrorSpr, if_neg (ne_of_unnamed 0xC0008 h),
    if_neg (outside_words_of_unnamed 0xC0100 10 0xC0128 h h4)]

theorem mirror_of_unnamed : s.mirror off idx v = v := by
  unfold State.mirror
  split
  · exact mirrorGlb_of_unnamed s v h
  · exact mirrorHst_of_unnamed s idx v h h4
  · exact mirrorPrs_of_unnamed s v h h4
  · exact mirrorChs_of_unnamed s idx v h h4
  · exact mirrorStl_of_unnamed s v h h4
  · exact mirrorBup_of_unnamed s v h h4
  · exact mirrorEra_of_unnamed s idx v h h4
  · exact mirrorRos_of_unnamed s v h
  · exact mirrorCol_of_unnamed s idx v h h4
  · exact mirrorUpd_of_unnamed s v h h4
  · exact mirrorSpr_of_unnamed s v h h4
  · rfl

end Mirrors

/-! ### Reads -/

theorem inBar2_eq_false_of_lt {off : Nat} (h : off < 0x200000) : inBar2 off = false :=
  decide_eq_false (by omega)

theorem stored_of_unnamed {off : Nat} (s : State) (idx : Nat) (h : regRow off = none) : s.stored off idx = 0 := by
  simp only [State.stored, h]

theorem read_of_unnamed {off : Nat} (s : State) (idx : Nat) (h : regRow off = none) (h4 : off % 4 = 0) :
    s.read off idx = 0 := by
  rw [State.read, stored_of_unnamed s idx h, mirror_of_unnamed s idx 0 h h4]

theorem busReg_of_unnamed {off : Nat} (s : State) (hst : s.stage ≠ 0xE) (hoff : off < 0x200000) (h4 : off % 4 = 0)
    (h : regRow off = none) : s.busReg off = 0 := by
  have hbar2 := inBar2_eq_false_of_lt hoff
  have hbar4 : ¬ 0x400000 ≤ off := by omega
  simp [State.busReg, hst, hbar2, hbar4, read_of_unnamed s _ h h4]

theorem readClear_of_unnamed {off : Nat} (s : State) (h : regRow off = none) : s.readClear off = s := by
  simp only [State.readClear, h, ite_self]

theorem busRead_word {off : Nat} (s : State) (hb : s.barUp = true) (h4 : off % 4 = 0) :
    s.busRead off 4 = (s.readClear off).emit (.read (s.busReg off)) := by
  simp [State.busRead, hb, h4]

/-! ### Writes -/

theorem plainWrite_of_unnamed {off : Nat} (s : State) (v : Nat) (h : regRow off = none) : s.plainWrite off v = s := by
  simp only [State.plainWrite, h]

theorem chsAnyWrite_of_unnamed {off : Nat} (s : State) (v : Nat) (h : regRow off = none) : s.chsAnyWrite off v = s := by
  simp only [State.chsAnyWrite, h]

theorem counterWrite_beyond (s : State) (n c : Nat) (hi : Bool) (v : Nat) (h : 6 ≤ n ∨ setCounters n ≤ c) :
    s.counterWrite n c hi v = s := by
  simp only [State.counterWrite, if_pos h]

/-- A word of the counters' window that names no counter half lies beyond the 4 counters of set 4 or 5. -/
theorem setCounters_le_of_unnamed {off : Nat} (h : regRow off = none) (h4 : off % 4 = 0) (hc : prfCounter off = true) :
    setCounters ((off - 0xB0100) / 0x100) ≤ (off % 0x100 - 0x10) / 8 := by
  have hrows : ∀ n < 6, ∀ half < 2, rowListed (0xB0110 + 0x100 * n + 4 * half) (setCounters n) 8 = true := by
    decide +kernel
  have hin := of_decide_eq_true hc
  have := beyond_row_of_unnamed _ _ _ h (hrows ((off - 0xB0100) / 0x100) (by omega) (off % 8 / 4) (by omega))
  omega

theorem regWrite_of_unnamed {off : Nat} (s : State) (v : Nat) (h : regRow off = none) (h4 : off % 4 = 0) :
    s.regWrite off v = s := by
  have hctx : ¬ (0x10018 ≤ off ∧ off ≤ 0x1004C) := by
    have hrows : ∀ k < 14, rowListed (0x10018 + 4 * k) 1 4 = true := by decide +kernel
    intro ⟨hlo, hhi⟩
    exact ne_of_unnamed _ h (hrows ((off - 0x10018) / 4) (by omega)) (by omega)
  rw [State.regWrite, if_neg (ne_of_unnamed 0x30 h), if_neg (ne_of_unnamed 0x38 h),
    if_neg (ne_of_unnamed 0x10004 h), if_neg (ne_of_unnamed 0x10014 h),
    if_neg (ne_of_unnamed 0x10100 h), if_neg hctx, chsAnyWrite_of_unnamed s v h, plainWrite_of_unnamed s v h,
    if_neg (ne_of_unnamed 0x4004C h), if_neg (ne_of_unnamed 0x40050 h),
    if_neg (ne_of_unnamed 0xB000C h),
    if_neg (outside_words_of_unnamed 0x80100 12 0x80130 h h4), ite_eq_left_iff]
  intro hchs
  split
  case isTrue hprf => exact counterWrite_beyond s _ _ _ v (.inr (setCounters_le_of_unnamed h h4 hprf))
  case isFalse => rfl

theorem busWrite_word {off : Nat} (s : State) (v : Nat) (hopen : s.hostOpen) (hoff : off < 0x200000) (h4 : off % 4 = 0) :
    s.busWrite off 4 v = s.regWrite off (v % 2 ^ 32) := by
  obtain ⟨hbar, hst, hup⟩ := hopen
  have hbar2 := inBar2_eq_false_of_lt hoff
  have hbar4 : ¬ 0x400000 ≤ off := by omega
  simp [State.busWrite, State.hostWrite, hbar, hst, hup, hbar2, hbar4, h4]

/-- Settles O16: no field, no mirror and no special case of a write lies at an offset that names no register. -/
theorem unnamedRegisters : Obligations.UnnamedRegisters := by
  constructor
  · intro s off hbar hst hoff h4 h
    calc exec (.registerReadClear off 4) s
        = .next (s.busRead off 4) := rfl
      _ = .next (s.emit (.read 0)) := by
        rw [busRead_word s hbar h4, readClear_of_unnamed s h, busReg_of_unnamed s hst hoff h4 h]
  · intro s off v hbar hst hup hoff h4 h
    calc exec (.registerWrite off 4 v) s
        = .next (s.busWrite off 4 v).settle := rfl
      _ = .next s.settle := by
        rw [busWrite_word s v ⟨hbar, hst, hup⟩ hoff h4, regWrite_of_unnamed s _ h h4]

end Sys2Proof.Machine
end

section
/-! ## Commands above the level of their ring (R93) -/
namespace Sys2Proof.Machine

theorem State.check_of_priv_lt (s : State) (r cls : Nat) (d : Desc) (i : CmdInfo)
    (hcls : s.get (Reg.HST_RCFG_CLASS r) = cls) (hpriv : s.get (Reg.HST_RCFG_PRIV r) < i.priv) :
    s.check r cls d i = some 0x11 := by
  rw [State.check, if_neg (not_not_intro hcls), if_pos hpriv]

/-- R93 for a command whose arm is a command of a CMD ring: the level is checked before the body runs. -/
theorem exec_of_priv_lt {c : Instr} {s : State} {r op : Nat} {d : Desc} {i : CmdInfo} {body : State → Reply}
    (harm : exec c s = .next (s.cmd r op d i body)) (hbegins : s.begins 0 r op d)
    (hcls : s.get (Reg.HST_RCFG_CLASS r) = 0) (hpriv : s.get (Reg.HST_RCFG_PRIV r) < i.priv) :
    exec c s = .next ((s.beginDesc r op d).completeLate r op d 0x11 0 0) := by
  have hcheck := s.check_of_priv_lt r 0 d i hcls hpriv
  rw [harm, State.cmd, s.cmdOn_checked 0 r op d i body 0x11 hbegins hcheck]

/-- Settles O13: each arm named is a command of a CMD ring whose least level is the one stated. -/
theorem privilegeRefused : Obligations.PrivilegeRefused := by
  unfold Obligations.PrivilegeRefused
  and_intros
  all_goals
    intros
    rename_i hbegins hcls hpriv
    exact exec_of_priv_lt rfl hbegins hcls hpriv

end Sys2Proof.Machine
end

section
/- One proof at a time: elaborated together, the proofs below hold more memory than the check allows. -/
set_option Elab.async false

section
/-! ## What every command keeps: the queue, and the canonical form of the memory of the Press -/
namespace Sys2Proof.Machine

/-! ### The shapes that commands share -/

theorem State.cmd_pending (s : State) (r op : Nat) (d : Desc) (i : CmdInfo) (body : State → Reply)
    (h : ∀ s, (body s).s.pending = s.pending) : (s.cmd r op d i body).pending = s.pending :=
  s.cmdOn_pending 0 r op d i body h

theorem State.cmd_wf (s : State) (r op : Nat) (d : Desc) (i : CmdInfo) (body : State → Reply)
    (hs : Memory.wf s.prs.pmem = true)
    (hbody : ∀ s, Memory.wf s.prs.pmem = true → Memory.wf (body s).s.prs.pmem = true) :
    Memory.wf (s.cmd r op d i body).prs.pmem = true := by
  have hbegin : Memory.wf (s.beginDesc r op d).prs.pmem = true := by simpa using hs
  unfold State.cmd State.cmdOn
  split
  · exact hs
  · dsimp only
    split
    · simpa using hbegin
    · simpa using hbody _ hbegin

theorem State.issue_pending (s : State) (t op cyc : Nat) (eff : State → Ctx → State)
    (h : ∀ s c, (eff s c).pending = s.pending) : (s.issue t op cyc eff).pending = s.pending := by
  unfold State.issue
  split
  · rfl
  · split <;> simp [h]

theorem State.issue_wf (s : State) (t op cyc : Nat) (eff : State → Ctx → State) (hs : Memory.wf s.prs.pmem = true)
    (h : ∀ s c, Memory.wf s.prs.pmem = true → Memory.wf (eff s c).prs.pmem = true) :
    Memory.wf (s.issue t op cyc eff).prs.pmem = true := by
  unfold State.issue
  split
  · exact hs
  · split
    · exact hs
    · simpa using h _ _ hs

/-- A volume sort waits with the rest of the run and, when the last textblock has come, has its effect once. -/
theorem State.issueV_pending (s : State) (t op cyc : Nat) (eff : State → Ctx → State)
    (h : ∀ s c, (eff s c).pending = s.pending) : (s.issueV t op cyc eff).pending = s.pending := by
  unfold State.issueV
  split
  · rfl
  · split
    · rfl
    · split
      · simp [h]
      · dsimp only
        split <;> simp [h]

theorem State.issueV_wf (s : State) (t op cyc : Nat) (eff : State → Ctx → State) (hs : Memory.wf s.prs.pmem = true)
    (h : ∀ s c, Memory.wf s.prs.pmem = true → Memory.wf (eff s c).prs.pmem = true) :
    Memory.wf (s.issueV t op cyc eff).prs.pmem = true := by
  unfold State.issueV
  split
  · exact hs
  · split
    · exact hs
    · split
      · simpa using h _ _ hs
      · dsimp only
        split
        · refine wf_foldl _ _ _ (h _ _ (by simpa using hs)) fun s u hu => by simpa using hu
        · simpa using hs

theorem State.rosFrame_pending (s : State) (good : Bool) (f : State → State)
    (h : ∀ s, (f s).pending = s.pending) : (s.rosFrame good f).pending = s.pending := by
  simp [State.rosFrame, h]

theorem State.rosFrame_wf (s : State) (good : Bool) (f : State → State) (hs : Memory.wf s.prs.pmem = true)
    (h : ∀ s, Memory.wf s.prs.pmem = true → Memory.wf (f s).prs.pmem = true) :
    Memory.wf (s.rosFrame good f).prs.pmem = true := by
  unfold State.rosFrame
  split
  · exact hs
  · split
    · exact h s hs
    · dsimp only
      split <;> simpa using hs

theorem State.inFly_pending (s : State) (f : State → State) (h : ∀ s, (f s).pending = s.pending) :
    (s.inFly f).pending = s.pending := by
  simp [State.inFly, h]

theorem State.inFly_wf (s : State) (f : State → State) (hs : Memory.wf s.prs.pmem = true)
    (h : ∀ s, Memory.wf s.prs.pmem = true → Memory.wf (f s).prs.pmem = true) :
    Memory.wf (s.inFly f).prs.pmem = true := by
  unfold State.inFly
  split
  · exact h s hs
  · exact hs

/-! ### Commands that store nothing in the Press -/

/-- A command of a ring: one that begins with a descriptor (R113). -/
def onRing : Instr → Bool

  | .nop .. | .fence .. | .health .. | .seatEnable .. | .ringQuery .. | .ptmResync .. | .moduleReset .. | .descriptorFetch ..
  | .traceBuf .. | .scoreBuf .. | .pressQuery .. | .memRead .. | .scrubNow .. | .hierSet .. | .formeOpen .. | .formeWrite ..
  | .formeCommit .. | .formeAbort .. | .formeUnload .. | .formeEnable .. | .formeQuery .. | .formeRun .. | .formeDigest ..
  | .galleyQuery .. | .trainSetup .. | .trainRun .. | .trainPromote .. | .trainReject .. | .trainRevert .. | .trainQuery ..
  | .chaseQuery .. | .changeSubmit .. | .bankWrite .. | .bankRead .. | .periodSet .. | .lawSet .. | .changeAbort .. | .phaseQuery ..
  | .phaseClear .. | .phaseRole .. | .linkRetrain .. | .fennalQuery .. | .fennalKey .. | .fennalKeytx .. | .fennalKeydel ..
  | .paceAck .. | .groupQuery .. | .bupRingQuery .. | .cellRead .. | .ringEnum .. | .owTest .. | .bupFast .. | .estQuery ..
  | .estTable .. | .estTableRead .. | .restNow .. | .estRecords .. | .eraQuery .. | .eraDetail .. | .eraClear .. | .eraClass ..
  | .eraUnlock .. | .eraInject .. | .eraWithdraw .. | .eraLock .. | .seatQuery .. | .seatSwitch .. | .provingRun .. | .provingStop ..
  | .seatHealth .. | .colQuery .. | .trigWrite .. | .trigRead .. | .snapNow .. | .colRead .. | .colCommit .. | .updQuery ..
  | .imgOpen .. | .imgWrite .. | .imgFinish .. | .imgAbort .. | .updActivate .. | .updCommit .. | .updRollback .. | .tapUnlock ..
  | .hdrRead .. | .prfSnapshot .. | .prfZero .. | .spareQuery .. | .repair .. | .spareRetire .. => true  | _ => false

theorem ringCommand_quiet (c : Instr) (s : State) (h : storesPress c = false) (hr : onRing c = true) :
    Gives c s fun t => t.prs.pmem = s.prs.pmem ∧ t.pending = s.pending := by
  cases c
  all_goals cases h
  all_goals cases hr
  all_goals refine ⟨_, rfl, ?_⟩
  case descriptorFetch => exact s.fetch_frame _ _
  all_goals refine State.cmd_frame _ _ _ _ _ _ fun s => ?_
  case trainReject | changeAbort | paceAck | trainRun | changeSubmit | imgWrite | imgAbort =>
    repeat' split
    all_goals simp [-prs_ite]
  case hierSet | formeWrite | formeCommit | bankWrite | trigWrite | imgFinish | updActivate | updRollback | spareRetire =>
    dsimp only
    repeat' split
    all_goals simp [-prs_ite, -prs_ite2]
  all_goals simp [-prs_ite, -prs_ite2]

theorem State.execSnap_quiet (s : State) (ring port : Nat) (frame : List Byte) :
    Gives (.snap ring port frame) s fun t => t.prs.pmem = s.prs.pmem ∧ t.pending = s.pending := by
  refine ⟨_, rfl, State.bupTake_frame _ _ _ _ fun _ _ _ args _ s => ?_⟩
  split
  · simp
  · simp only [pm_ite, pd_ite, State.bupAll_frame, State.bringMod_frame, ite_self]
    constructor
    · repeat' split
      all_goals simp [-prs_ite]
    · repeat' split
      all_goals simp

theorem State.execCollect_quiet (s : State) (ring port : Nat) (frame : List Byte) :
    Gives (.collect ring port frame) s fun t => t.prs.pmem = s.prs.pmem ∧ t.pending = s.pending := by
  refine ⟨_, rfl, State.bupTake_frame _ _ _ _ fun _ _ _ _ _ s => ?_⟩
  split
  · simp
  · simp only [State.fullSet_frame, State.strUpdate_frame, State.staleJudge_frame]
    constructor
    · repeat' split
      all_goals simp [-prs_ite]
    · repeat' split
      all_goals simp

theorem signal_quiet (c : Instr) (s : State) (h : storesPress c = false) (hr : onRing c = false) :
    Gives c s fun t => t.prs.pmem = s.prs.pmem ∧ t.pending = s.pending := by
  cases c
  all_goals cases h
  all_goals cases hr
  case snap => exact s.execSnap_quiet _ _ _
  case collect => exact s.execCollect_quiet _ _ _
  all_goals refine ⟨_, rfl, ?_⟩
  case configRequest off w => cases w <;> simp [-prs_ite, -prs_ite2]
  case enumTimeout =>
    dsimp only
    repeat' split
    all_goals simp
  case derateStep | beaconSkipped | shadowHoldTimeout | streamSilenceTimeout | hierChangeStart | hierChangeStepDone |
      hierRollback | runEnd | ackTimeout | restDue | snapshotCapture | stepDeadline | nodeSwapTimeout =>
    repeat' split
    all_goals simp [-prs_ite, -prs_ite2]
  case enum | echo | bupilinCfg | imgcheck =>
    refine State.bupTake_frame _ _ _ _ fun _ _ _ _ _ s => ?_
    repeat' split
    all_goals simp [-prs_ite, -prs_ite2]
  all_goals simp [-prs_ite, -prs_ite2]

theorem exec_quiet (c : Instr) (s : State) (h : storesPress c = false) :
    Gives c s fun t => t.prs.pmem = s.prs.pmem ∧ t.pending = s.pending := by
  cases hr : onRing c
  · exact signal_quiet c s h hr
  · exact ringCommand_quiet c s h hr

/-! ### Commands that store to the Press -/

theorem storing_pending (c : Instr) (s : State) (h : storesPress c = true) : Gives c s fun t => t.pending = s.pending := by
  cases c
  all_goals cases h
  all_goals refine ⟨_, rfl, ?_⟩
  case add | sub | mul | min | max | shift | convert | clamp | rescale | lut | scan | attn | gapply | load | store | copy | input =>
    exact State.issue_pending _ _ _ _ _ fun _ _ => by simp
  case rsum | rmax | gouter | mmul => exact State.issueV_pending _ _ _ _ _ fun _ _ => by simp
  case bulk | pcyc | roscorCfg => exact State.rosFrame_pending _ _ _ fun _ => by simp
  case flyBoot | uartMessage => exact State.inFly_pending _ _ fun _ => by simp
  case moduleReset | trainRevert | eraInject => exact State.cmd_pending _ _ _ _ _ _ fun _ => by simp
  case trainPromote =>
    refine State.cmd_pending _ _ _ _ _ _ fun _ => ?_
    split <;> simp
  case moduleResetProceed | capture | shadowScore | injectedOccurrence | replacementQuireInService =>
    split <;> simp
  all_goals simp

theorem storing_wf (c : Instr) (s : State) (h : storesPress c = true) (hs : Memory.wf s.prs.pmem = true) :
    Gives c s fun t => Memory.wf t.prs.pmem = true := by
  cases c
  all_goals cases h
  all_goals refine ⟨_, rfl, ?_⟩
  case load => exact s.issue_wf _ _ _ _ hs State.sortLoad_wf
  case store => exact s.issue_wf _ _ _ _ hs State.sortStore_wf
  case copy => exact s.issue_wf _ _ _ _ hs State.sortCopy_wf
  case input => exact s.issue_wf _ _ _ _ hs State.sortInput_wf
  case mmul => exact s.issueV_wf _ _ _ _ hs State.sortMmul_wf
  case gouter => exact s.issueV_wf _ _ _ _ hs State.sortGouter_wf
  case add | sub | mul | max | min => exact s.issue_wf _ _ _ _ hs (State.sortElem_wf _)
  case shift | convert => exact s.issue_wf _ _ _ _ hs (State.sortUnary_wf _)
  case clamp => exact s.issue_wf _ _ _ _ hs State.sortClamp_wf
  case rescale => exact s.issue_wf _ _ _ _ hs State.sortRescale_wf
  case rsum | rmax => exact s.issueV_wf _ _ _ _ hs (State.sortReduce_wf _)
  case lut => exact s.issue_wf _ _ _ _ hs State.sortLut_wf
  case scan => exact s.issue_wf _ _ _ _ hs State.sortScan_wf
  case attn => exact s.issue_wf _ _ _ _ hs State.sortAttn_wf
  case gapply => exact s.issue_wf _ _ _ _ hs State.sortGapply_wf
  case bulk => exact s.rosFrame_wf _ _ hs fun s => s.bulkIn_wf _
  case pcyc => exact s.rosFrame_wf _ _ hs fun s => s.pcycIn_wf _
  case roscorCfg => exact s.rosFrame_wf _ _ hs fun s => s.cfgIn_wf _ _
  case flyBoot => exact s.inFly_wf _ hs State.flyBoot_wf
  case uartMessage => exact s.inFly_wf _ hs fun s => s.uartIn_wf _ _
  case chasePeriodBoundary => exact s.periodBoundary_wf _ _ hs
  case dramUncorrectable => exact s.dramUe_wf _ _ _ _ hs
  case makeReadyStepDone => exact s.makeReady_wf _ _ _ _ _ _ _ hs
  case probationCheck => exact s.probation_wf hs
  case promotionImpose => exact s.promoImpose_wf hs
  case railsOff => exact s.railsOff_wf hs
  case trainStepEnd => exact s.stepEnd_wf hs
  case modelSetFromPeer => simpa using s.peerModel_wf _ _ hs
  case traceBuf | scoreBuf => exact State.standbyDue_wf _ (by simpa using hs)
  case capture =>
    split
    · split
      · simpa using s.capture_wf _ _ _ hs
      · exact hs
    · exact hs
  case shadowScore =>
    split
    · split
      · exact State.score_wf _ _ (by simpa using hs)
      · exact hs
    · exact hs
  case eraInject =>
    refine s.cmd_wf _ _ _ _ _ hs fun s hs => ?_
    dsimp only
    rw [memRX_ite]
    simp [hs, State.inject_wf]
  case injectedOccurrence =>
    split
    · exact hs
    · simpa using s.occurrence_wf _ _ hs
  case formeImpose =>
    split
    · exact State.beginAnew_wf _ _ (s.formeImpose_wf _ _ _ hs)
    · split <;> simpa using hs
  case lockstepReset =>
    split
    · exact s.moduleReset_wf _
    · exact hs
  case mgmtRestartDone =>
    split
    · exact s.discardStaged_wf hs
    · exact hs
  case moduleReset =>
    refine s.cmd_wf _ _ _ _ _ hs fun s hs => ?_
    split
    · exact hs
    · split
      · exact State.resetAfter_wf _ _ _ _ (by simpa using hs)
      · repeat' split
        all_goals simpa using hs
  case moduleResetProceed =>
    split
    · exact hs
    · dsimp only
      split
      · simpa using hs
      · exact State.resetAfter_wf _ _ _ _ hs
  case openPagesCommitted =>
    split
    · exact s.openCommitted_wf hs
    · exact hs
  case replacementQuireInService =>
    split
    · exact hs
    · exact State.pressUp_wf _ (by simpa using hs)
  case spineError =>
    split
    · simpa using hs
    · simpa using s.spineUe_wf _ _ hs
  case trainPromote =>
    refine s.cmd_wf _ _ _ _ _ hs fun s hs => ?_
    split
    · exact hs
    · split
      · exact hs
      · exact s.promoStage_wf _ _ _ _ hs
  case trainRevert =>
    refine s.cmd_wf _ _ _ _ _ hs fun s hs => ?_
    split
    · exact hs
    · split
      · exact hs
      · exact s.promoStage_wf _ _ _ _ hs

/-! ### The obligations -/

theorem exec_pending (c : Instr) (s : State) : Gives c s fun t => t.pending = s.pending := by
  cases h : storesPress c
  · obtain ⟨t, hexec, _, hpending⟩ := exec_quiet c s h
    exact ⟨t, hexec, hpending⟩
  · exact storing_pending c s h

theorem exec_wf (c : Instr) (s : State) (hs : Memory.wf s.prs.pmem = true) :
    Gives c s fun t => Memory.wf t.prs.pmem = true := by
  cases h : storesPress c
  · obtain ⟨t, hexec, hpmem, _⟩ := exec_quiet c s h
    exact ⟨t, hexec, (congrArg Memory.wf hpmem).trans hs⟩
  · exact storing_wf c s h hs

/-- Settles O4: the commands that store nothing in the Press, and those that do, keep the queue. -/
theorem queueKept : Obligations.QueueKept := exec_pending

/-- Settles O6: a step shortens the queue by its front at most, and its command keeps the canonical form. -/
theorem stepKeepsInv : Obligations.StepKeepsInv := by
  intro s t ⟨hmem, hwf⟩ hstep
  unfold step at hstep
  split at hstep
  case h_1 =>
    cases hstep
    exact ⟨hmem, hwf⟩
  case h_2 c rest hpending =>
    obtain ⟨u, hu, hmem'⟩ := exec_wf c { s with pending := rest } hmem
    obtain ⟨v, hv, hqueue⟩ := exec_pending c { s with pending := rest }
    cases hu.symm.trans hstep
    cases hv.symm.trans hstep
    refine ⟨hmem', fun d hd => hwf d ?_⟩
    rw [hqueue] at hd
    rw [hpending]
    exact List.mem_cons_of_mem _ hd

/-- Settles O1: the arm of a queue that is not empty. -/
theorem stepRunsFront : Obligations.StepRunsFront := by
  intro s c rest hpending
  rw [step, hpending]

/-- Settles O2: the arm of an empty queue. -/
theorem emptyQueueIdles : Obligations.EmptyQueueIdles := by
  intro s hpending
  rw [step, hpending]

/-- Settles O3: every arm of `exec` answers a next state. -/
theorem everyCommandAnswers : Obligations.EveryCommandAnswers := fun c s =>
  have ⟨t, hexec, _⟩ := exec_pending c s
  ⟨t, hexec⟩

/-- Settles O7: reset lists no cell of the Press memory, and no command waits. -/
theorem resetInv : Obligations.ResetInv := by
  refine ⟨rfl, ?_⟩
  simp [State.reset]

end Sys2Proof.Machine
end

section
/-! ## Press arithmetic: rounding, the reduction tree, leaf and folio sums, block output -/
namespace Sys2Proof.Machine

/-! ### Rounding and clamping (R184) -/

/-- The quotient of `divRne` lies within half a divisor of the exact one, and is even where both neighbours do. -/
theorem divRne_nearest (x : Int) {b : Nat} (hb : 0 < b) :
    2 * (b * divRne x b - x) ≤ b ∧ 2 * (x - b * divRne x b) ≤ b ∧
      (2 * (b * divRne x b - x) = b ∨ 2 * (x - b * divRne x b) = b → divRne x b % 2 = 0) := by
  have hpos : (0 : Int) < b := by exact_mod_cast hb
  have hr0 := Int.emod_nonneg x hpos.ne'
  have hrb := Int.emod_lt_of_pos x hpos
  have hx := Int.mul_ediv_add_emod x b
  have hnext : (b : Int) * (x / b + 1) = b * (x / b) + b := by ring
  have hrn : ((x % b).toNat : Int) = x % b := Int.toNat_of_nonneg hr0
  unfold divRne
  dsimp only
  split
  · omega
  · split
    · rw [hnext]; omega
    · split
      · omega
      · rw [hnext]; omega

theorem rne_nearest (x : Int) (k : Nat) :
    2 * (2 ^ k * rne x k - x) ≤ 2 ^ k ∧ 2 * (x - 2 ^ k * rne x k) ≤ 2 ^ k ∧
      (2 * (2 ^ k * rne x k - x) = 2 ^ k ∨ 2 * (x - 2 ^ k * rne x k) = 2 ^ k → rne x k % 2 = 0) := by
  have h := divRne_nearest x (Nat.two_pow_pos k)
  push_cast at h
  exact h

/-- Rounding by at least one bit halves a bound on the magnitude. -/
theorem rne_bounds {x M : Int} {k : Nat} (hk : 0 < k) (hlo : -M ≤ x) (hhi : x ≤ M) :
    2 * rne x k ≤ M + 1 ∧ -(M + 1) ≤ 2 * rne x k := by
  obtain ⟨hup, hdown, -⟩ := rne_nearest x k
  have h2 : (2 : Int) ≤ 2 ^ k := by
    calc (2 : Int) = 2 ^ 1 := rfl
      _ ≤ 2 ^ k := pow_le_pow_right₀ (by norm_num) hk
  constructor
  · by_contra hgt
    have : (2 : Int) * (2 * rne x k - 1) ≤ 2 ^ k * (2 * rne x k - 1) :=
      mul_le_mul_of_nonneg_right h2 (by omega)
    linarith
  · by_contra hlt
    have : (2 : Int) * (-(2 * rne x k) - 1) ≤ 2 ^ k * (-(2 * rne x k) - 1) :=
      mul_le_mul_of_nonneg_right h2 (by omega)
    linarith

/-- A part of the divisor added before the division raises the quotient by one at most. -/
theorem ediv_add_part (x : Int) {b d : Int} (hd : 0 ≤ d) (hdb : d < b) :
    ((x + d) / b = x / b ∨ (x + d) / b = x / b + 1) ∧ (x % b = 0 → (x + d) / b = x / b) := by
  have hb : 0 < b := by omega
  have hr0 := Int.emod_nonneg x hb.ne'
  have hrb := Int.emod_lt_of_pos x hb
  have hx := Int.ediv_mul_add_emod x b
  have hnext : (x / b + 1) * b = x / b * b + b := by ring
  have hq : (x + d) / b = x / b ↔ x % b + d < b := by
    rw [Int.ediv_eq_iff_of_pos hb]
    omega
  have hq1 : (x + d) / b = x / b + 1 ↔ b ≤ x % b + d := by
    rw [Int.ediv_eq_iff_of_pos hb, hnext]
    omega
  omega

theorem satS_eq_min_max (n : Nat) (x : Int) : satS n x = min (max x (-(2 ^ (n - 1)))) (2 ^ (n - 1) - 1) := by
  simp [satS, clampI]

theorem satS_range (n : Nat) (x : Int) : -(2 ^ (n - 1)) ≤ satS n x ∧ satS n x < 2 ^ (n - 1) := by
  have hpos : (0 : Int) < 2 ^ (n - 1) := by positivity
  rw [satS_eq_min_max]
  omega

theorem satS_of_range {n : Nat} {x : Int} (hlo : -(2 ^ (n - 1)) ≤ x) (hhi : x < 2 ^ (n - 1)) : satS n x = x := by
  rw [satS_eq_min_max]
  omega

theorem satK_of_range {n : Nat} {x : Int} (kind : Nat) (hlo : -(2 ^ (n - 1)) ≤ x) (hhi : x < 2 ^ (n - 1)) :
    satK n kind x = (x, []) := by
  simp [satK, satS_of_range hlo hhi]

/-- Settles O54: the division to nearest, the division with random bits below the divisor, and the clamp. -/
theorem rounding : Obligations.Rounding := by
  refine ⟨fun x s => ?_, fun x s u hu => ?_, fun x n _ => ?_⟩
  · obtain ⟨hup, hdown, htie⟩ := rne_nearest x s
    exact ⟨hup, hdown, fun _ => htie⟩
  · unfold sr
    split
    case isTrue hs => simp [hs]
    case isFalse =>
      split
      case isTrue hs =>
        have hpart : u / 2 ^ (32 - s) < 2 ^ s := by
          rw [Nat.div_lt_iff_lt_mul (by positivity), ← pow_add, Nat.add_sub_of_le hs]
          exact hu
        have := ediv_add_part x (b := (2 ^ s : Nat)) (d := (u / 2 ^ (32 - s) : Nat)) (by positivity) (by exact_mod_cast hpart)
        push_cast at this ⊢
        exact this
      case isFalse hs =>
        have hpart : u * 2 ^ (s - 32) < 2 ^ s := by
          calc u * 2 ^ (s - 32) < 2 ^ 32 * 2 ^ (s - 32) := by gcongr
            _ = 2 ^ s := by rw [← pow_add]; congr 1; omega
        have := ediv_add_part x (b := (2 ^ s : Nat)) (d := (u * 2 ^ (s - 32) : Nat)) (by positivity) (by exact_mod_cast hpart)
        push_cast at this ⊢
        exact this
  · obtain ⟨hlo, hhi⟩ := satS_range n x
    exact ⟨hlo, hhi, satS_of_range⟩

/-! ### The reduction tree (R155) -/

theorem clog2_le_iff {n c : Nat} : clog2 n ≤ c ↔ n ≤ 2 ^ c := by
  have hpos := Nat.two_pow_pos c
  unfold clog2
  split
  · omega
  · rw [Nat.succ_le_iff, Nat.log2_lt (by omega)]
    omega

theorem le_two_pow_clog2 (n : Nat) : n ≤ 2 ^ clog2 n := clog2_le_iff.1 le_rfl

theorem clog2_eq_succ {n k : Nat} (hlo : 2 ^ k < n) (hhi : n ≤ 2 * 2 ^ k) : clog2 n = k + 1 := by
  have hle : clog2 n ≤ k + 1 := clog2_le_iff.2 (by rw [pow_succ]; omega)
  have hlt : ¬ clog2 n ≤ k := fun h => by
    have := clog2_le_iff.1 h
    omega
  omega

/-- The first half of a tree over two values or more: neither empty nor all of them. -/
theorem clog2_half {n : Nat} (h : 2 ≤ n) : 0 < 2 ^ (clog2 n - 1) ∧ 2 ^ (clog2 n - 1) < n := by
  refine ⟨Nat.two_pow_pos _, ?_⟩
  by_contra hge
  have := clog2_le_iff.2 (not_lt.1 hge)
  have hpos : clog2 n ≠ 0 := fun h0 => by
    have := clog2_le_iff.1 h0.le
    omega
  omega

/-- One level of the tree. -/
theorem tree_succ_of_two_le (n kind fuel : Nat) {vs : List Int} (h : 2 ≤ vs.length) :
    tree n kind (fuel + 1) vs =
      let a := tree n kind fuel (vs.take (2 ^ (clog2 vs.length - 1)))
      let b := tree n kind fuel (vs.drop (2 ^ (clog2 vs.length - 1)))
      let c := if n = 0 then (a.1 + b.1, []) else satK n kind (a.1 + b.1)
      (c.1, a.2 ++ b.2 ++ c.2) := by
  match vs, h with
  | _ :: _ :: _, _ => rfl

/-- Fuel beyond the number of values changes nothing. -/
theorem tree_fuel (n kind : Nat) : ∀ (f g : Nat) (vs : List Int), vs.length ≤ f → vs.length ≤ g →
    tree n kind f vs = tree n kind g vs
  | 0, g, vs, hf, _ => by
    obtain rfl := List.length_eq_zero_iff.1 (Nat.le_zero.1 hf)
    cases g <;> rfl
  | f + 1, 0, vs, _, hg => by
    obtain rfl := List.length_eq_zero_iff.1 (Nat.le_zero.1 hg)
    rfl
  | f + 1, g + 1, [], _, _ => rfl
  | f + 1, g + 1, [_], _, _ => rfl
  | f + 1, g + 1, v :: w :: vs, hf, hg => by
    have h2 : 2 ≤ (v :: w :: vs).length := by simp
    obtain ⟨hpos, hlt⟩ := clog2_half h2
    have ha := tree_fuel n kind f g ((v :: w :: vs).take (2 ^ (clog2 (v :: w :: vs).length - 1)))
      (by rw [List.length_take]; omega) (by rw [List.length_take]; omega)
    have hb := tree_fuel n kind f g ((v :: w :: vs).drop (2 ^ (clog2 (v :: w :: vs).length - 1)))
      (by rw [List.length_drop]; omega) (by rw [List.length_drop]; omega)
    rw [tree_succ_of_two_le n kind f h2, tree_succ_of_two_le n kind g h2, ha, hb]

theorem sum_range {vs : List Int} {B : Int} (h : ∀ v ∈ vs, -B ≤ v ∧ v < B) :
    -(vs.length * B) ≤ vs.sum ∧ vs.sum ≤ vs.length * (B - 1) := by
  have hlo := List.card_nsmul_le_sum vs (-B) fun v hv => (h v hv).1
  have hhi := List.sum_le_card_nsmul vs (B - 1) fun v hv => by have := (h v hv).2; omega
  rw [nsmul_eq_mul] at hlo hhi
  exact ⟨by linarith, hhi⟩

/-- So many values of `[-B, B)` that no sum of some of them leaves the width (`n` bits, 0 for any width). -/
def Roomy (n : Nat) (B : Int) (vs : List Int) : Prop :=
  n = 0 ∨ vs.length * B ≤ 2 ^ (n - 1) ∧ ∀ v ∈ vs, -B ≤ v ∧ v < B

theorem Roomy.of_sublist {n : Nat} {B : Int} {us vs : List Int} (hB : 1 ≤ B) (hsub : us.Sublist vs) (h : Roomy n B vs) :
    Roomy n B us := by
  refine h.imp_right fun ⟨hlen, hall⟩ => ⟨?_, fun v hv => hall v (hsub.subset hv)⟩
  have : (us.length : Int) ≤ vs.length := by exact_mod_cast hsub.length_le
  nlinarith

theorem Roomy.satK_sum {n : Nat} {B : Int} {vs : List Int} (hn : n ≠ 0) (hvs : 0 < vs.length) (kind : Nat)
    (h : Roomy n B vs) : satK n kind vs.sum = (vs.sum, []) := by
  obtain ⟨hlen, hall⟩ := h.resolve_left hn
  obtain ⟨hlo, hhi⟩ := sum_range hall
  have : (0 : Int) < vs.length := by exact_mod_cast hvs
  exact satK_of_range kind (by linarith) (by linarith)

/-- A tree whose sums have room is the plain sum, and nothing saturates. -/
theorem tree_eq_sum (n kind : Nat) {B : Int} (hB : 1 ≤ B) : ∀ (fuel : Nat) (vs : List Int),
    Roomy n B vs → tree n kind fuel vs = (vs.sum, [])
  | 0, vs, _ => by simp [tree, List.sum_eq_foldl]
  | fuel + 1, [], _ => rfl
  | fuel + 1, [v], _ => by simp [tree]
  | fuel + 1, v :: w :: vs, hvs => by
    generalize hl : v :: w :: vs = l at hvs
    have h2 : 2 ≤ l.length := by simp [← hl]
    have ha := tree_eq_sum n kind hB fuel _ (hvs.of_sublist hB (l.take_sublist (2 ^ (clog2 l.length - 1))))
    have hb := tree_eq_sum n kind hB fuel _ (hvs.of_sublist hB (l.drop_sublist (2 ^ (clog2 l.length - 1))))
    rw [tree_succ_of_two_le n kind fuel h2, ha, hb]
    dsimp only
    rw [List.sum_take_add_sum_drop]
    split
    · rfl
    case isFalse hn => rw [hvs.satK_sum hn (by omega)]; rfl

/-- Settles O53: the split point of R155 is the one of the model, and fuel for the whole is enough for both parts. -/
theorem reductionTree : Obligations.ReductionTree := by
  refine ⟨fun n kind vs k hn hlo hhi => ?_, fun n kind v => rfl, fun kind vs => ?_⟩
  · have hk := Nat.two_pow_pos k
    have hfuel (us : List Int) (hus : us.length ≤ vs.length) : tree n kind vs.length us = treeSum n kind us :=
      tree_fuel n kind _ _ us hus (Nat.le_succ _)
    rw [treeSum, tree_succ_of_two_le n kind _ (by omega), clog2_eq_succ hlo hhi, Nat.add_sub_cancel]
    dsimp only
    rw [hfuel (vs.take _) (by simp), hfuel (vs.drop _) (by simp), if_neg hn.ne', satK]
  · exact tree_eq_sum 0 kind le_rfl _ vs (.inl rfl)

/-! ### Alignment and folio sums (R184, R191) -/

/-- A value moved from exponent `f` to exponent `t`, before the clamp. -/
def alignRaw (x f t : Int) : Int := if t ≤ f then x * 2 ^ (f - t).toNat else rne x (t - f).toNat

theorem align_eq_satK (n kind : Nat) (x f t : Int) : align n kind x f t = satK n kind (alignRaw x f t) := by
  unfold align alignRaw
  split <;> simp

theorem two_pow_toNat_le {d : Int} {g : Nat} (h : d ≤ g) : (2 : Int) ^ d.toNat ≤ 2 ^ g :=
  pow_le_pow_right₀ (by norm_num) (by omega)

/-- A move down by at most `g` bits keeps a range, `2 ^ g` times as wide. -/
theorem alignRaw_range {x f t N : Int} {g : Nat} (hN : 2 ≤ N) (hg : f - t ≤ g) (hlo : -N ≤ x) (hhi : x < N) :
    -(N * 2 ^ g) ≤ alignRaw x f t ∧ alignRaw x f t < N * 2 ^ g := by
  have hone : (1 : Int) ≤ 2 ^ g := one_le_pow₀ (by norm_num)
  unfold alignRaw
  split
  · have hpow := two_pow_toNat_le hg
    have hpos : (1 : Int) ≤ 2 ^ (f - t).toNat := one_le_pow₀ (by norm_num)
    constructor <;> nlinarith
  · obtain ⟨hup, hdown⟩ := rne_bounds (k := (t - f).toNat) (by omega) hlo hhi.le
    constructor <;> nlinarith

theorem le_foldl_max (x : Int) (l : List Int) : x ≤ l.foldl max x ∧ ∀ y ∈ l, y ≤ l.foldl max x := by
  induction l generalizing x with
  | nil => simp
  | cons y l ih =>
    obtain ⟨hx, hl⟩ := ih (max x y)
    simp only [List.foldl_cons, List.mem_cons, forall_eq_or_imp]
    exact ⟨by omega, by omega, hl⟩

theorem le_of_maxI {l : List Int} {m : Int} (h : maxI l = some m) : ∀ y ∈ l, y ≤ m := by
  cases l with
  | nil => simp
  | cons x l =>
    obtain rfl := Option.some.inj h
    simpa using le_foldl_max x l

/-- A folio's guard bits make room for every leaf result. -/
theorem folio_room {n : Nat} (h : n ≤ 4096) : (n : Int) * (2 ^ 19 * 2 ^ (12 - clog2 n)) ≤ 2 ^ 31 := by
  have hc : clog2 n ≤ 12 := clog2_le_iff.2 (by omega)
  have hn : (n : Int) ≤ 2 ^ clog2 n := by exact_mod_cast le_two_pow_clog2 n
  calc (n : Int) * (2 ^ 19 * 2 ^ (12 - clog2 n)) ≤ 2 ^ clog2 n * (2 ^ 19 * 2 ^ (12 - clog2 n)) := by gcongr
    _ = 2 ^ 31 := by rw [← pow_add, ← pow_add]; congr 1; omega

/-- A leaf result in the frame of its pass. -/
def folioTerm (f : Int) : Option (Int × Int) → W Int
  | none => (0, [])
  | some (v, e) => align 32 1 v e f

theorem folioResult_eq (ls : List (Option (Int × Int))) : folioResult ls =
    match maxI (ls.filterMap fun l => l.map (·.2)) with
    | none => (none, [])
    | some em =>
      let f := em - ((12 - clog2 ls.length : Nat) : Int)
      let xs := ls.map (folioTerm f)
      let t := treeSum 32 1 (xs.map (·.1))
      (some (t.1, f), xs.flatMap (·.2) ++ t.2) := by
  rfl

/-- Settles O56: every aligned leaf result is in range, and so is every sum of the tree. -/
theorem folioNeverSaturates : Obligations.FolioNeverSaturates := by
  intro ls hlen hls
  rw [folioResult_eq]
  split
  · rfl
  case h_2 em hem =>
    have hroom := folio_room hlen
    set g := 12 - clog2 ls.length
    have hB : (1 : Int) ≤ 2 ^ 19 * 2 ^ g := by
      have : (1 : Int) ≤ 2 ^ g := one_le_pow₀ (by norm_num)
      omega
    have hterm : ∀ l ∈ ls, (folioTerm (em - g) l).2 = [] ∧
        -(2 ^ 19 * 2 ^ g) ≤ (folioTerm (em - g) l).1 ∧ (folioTerm (em - g) l).1 < 2 ^ 19 * 2 ^ g := by
      intro l hl
      match l, hl with
      | none, _ =>
        refine ⟨rfl, ?_, ?_⟩ <;> simp only [folioTerm] <;> omega
      | some (v, e), hl =>
        obtain ⟨hlo, hhi⟩ := hls _ hl (v, e) rfl
        have he : e ≤ em := le_of_maxI hem e (List.mem_filterMap.2 ⟨_, hl, rfl⟩)
        obtain ⟨hrlo, hrhi⟩ := alignRaw_range (f := e) (t := em - g) (g := g) (by norm_num) (by omega) hlo hhi
        have hle : (2 : Int) ^ 19 * 2 ^ g ≤ 2 ^ 31 := by
          rw [← pow_add]
          exact pow_le_pow_right₀ (by norm_num) (by omega)
        rw [folioTerm, align_eq_satK, satK_of_range 1 (by norm_num at hle ⊢; linarith) (by norm_num at hle ⊢; linarith)]
        exact ⟨rfl, hrlo, hrhi⟩
    have htree : (treeSum 32 1 ((ls.map (folioTerm (em - g))).map (·.1))).2 = [] := by
      refine congrArg Prod.snd (tree_eq_sum 32 1 hB _ _ (.inr ⟨by simpa using hroom, ?_⟩))
      simp only [List.mem_map, forall_exists_index, and_imp, forall_apply_eq_imp_iff₂]
      exact fun l hl => (hterm l hl).2
    dsimp only
    rw [htree, List.append_nil, List.flatMap_eq_nil_iff]
    simp only [List.mem_map, forall_exists_index, and_imp, forall_apply_eq_imp_iff₂]
    exact fun l hl => (hterm l hl).1

/-! ### Block output (R197) -/

theorem inW_iff {w : Nat} {m : Int} : inW w m = true ↔ -(2 ^ (w - 1)) ≤ m ∧ m < 2 ^ (w - 1) := by
  simp [inW]

theorem inW_zero (w : Nat) : inW w 0 = true := by
  have : (0 : Int) < 2 ^ (w - 1) := by positivity
  rw [inW_iff]
  omega

theorem ofS_lt (w : Nat) (z : Int) : ofS w z < 2 ^ w := by
  have hpos : (0 : Int) < (2 ^ w : Nat) := by positivity
  have h0 := Int.emod_nonneg z hpos.ne'
  have hlt := Int.emod_lt_of_pos z hpos
  unfold ofS
  omega

theorem toS_ofS_seven {e : Int} (hlo : -64 ≤ e) (hhi : e ≤ 63) : toS 7 (ofS 7 e) = e := by
  simp only [toS, ofS]
  norm_num
  split <;> omega

/-- The block of mantissas `m` at exponent `e`, with its flag for all zeros. -/
def blkOf (m : List Int) (e : Int) : Blk := if m.all (· == 0) then { m := m, scale := 0x80 } else { m := m, scale := ofS 7 e }

theorem blkOf_m (m : List Int) (e : Int) : (blkOf m e).m = m := by
  unfold blkOf; split <;> rfl

theorem blkOf_scale_lt (m : List Int) (e : Int) : (blkOf m e).scale < 256 := by
  have := ofS_lt 7 e
  unfold blkOf
  split <;> dsimp only <;> omega

theorem blkOf_z (m : List Int) (e : Int) : (blkOf m e).z = m.all (· == 0) := by
  have hlt := ofS_lt 7 e
  unfold blkOf Blk.z
  split
  case isTrue h => simp [h, bit]
  case isFalse h =>
    rw [Bool.not_eq_true] at h
    dsimp only
    rw [h, bit, Nat.div_eq_of_lt hlt]
    rfl

theorem blkOf_e {m : List Int} {e : Int} (hz : (blkOf m e).z = false) (hlo : -64 ≤ e) (hhi : e ≤ 63) : (blkOf m e).e = e := by
  rw [blkOf_z] at hz
  simp [blkOf, hz, Blk.e, toS_ofS_seven hlo hhi]

/-- The exponents at which the mantissas fit, as R197 searches them: 0 for -64. -/
def fits (w rnd : Nat) (a : Int) (vs : List (Int × Nat)) (k : Nat) : Bool := (blkAt rnd a ((k : Int) - 64) vs).all (inW w)

/-- What a block output is: all zeros, the mantissas at the least exponent that holds them, or, where none does, the clamped
ones at 63. -/
theorem requant_cases (w rnd : Nat) (a : Int) (vs : List (Int × Nat)) :
    ((requant w rnd a vs).1 = blkOf (vs.map fun _ => 0) 0 ∨
    (∃ k, (List.range 128).find? (fits w rnd a vs) = some k ∧ (requant w rnd a vs).1 = blkOf (blkAt rnd a ((k : Int) - 64) vs) ((k : Int) - 64)) ∨
    ((List.range 128).find? (fits w rnd a vs) = none ∧ (requant w rnd a vs).1 = blkOf ((blkAt rnd a 63 vs).map (satS w)) 63)) := by
  unfold requant
  split
  · left
    simp [blkOf]
  · right
    dsimp only
    have hfind : ((List.range 128 : List Nat) >>= fun k => pure (k : Int)).find? (fun k => (blkAt rnd a (k - 64) vs).all (inW w)) =
        ((List.range 128).find? (fits w rnd a vs)).map (Int.ofNat) := by
      rw [bind_pure_comp]
      exact List.find?_map ..
    cases hk : (List.range 128).find? (fits w rnd a vs) with
    | some k =>
      refine .inl ⟨k, rfl, ?_⟩
      rw [hk] at hfind
      rw [hfind]
      rfl
    | none =>
      refine .inr ⟨rfl, ?_⟩
      rw [hk] at hfind
      rw [hfind]
      rfl

/-- Settles O57: by the three cases of a block output. -/
theorem blockOutput : Obligations.BlockOutput := by
  refine ⟨fun w rnd a vs hw => ?_, fun w rnd a vs e hw hz hlo hlt => ?_⟩
  · have hblk {m : List Int} {e : Int} (hb : (requant w rnd a vs).1 = blkOf m e) (hlen : m.length = vs.length)
        (hin : m.all (inW w) = true) : (requant w rnd a vs).1.m.length = vs.length ∧ (requant w rnd a vs).1.m.all (inW w) = true ∧
          (requant w rnd a vs).1.scale < 256 ∧
            ((requant w rnd a vs).1.z = true ↔ (requant w rnd a vs).1.m.all (· == 0) = true) := by
      rw [hb, blkOf_m, blkOf_z]
      exact ⟨hlen, hin, blkOf_scale_lt m e, Iff.rfl⟩
    obtain hb | ⟨k, hk, hb⟩ | ⟨-, hb⟩ := requant_cases w rnd a vs
    · exact hblk hb (by simp) (by simp [inW_zero])
    · exact hblk hb (by simp [blkAt]) (List.find?_some (p := fits w rnd a vs) hk)
    · refine hblk hb (by simp [blkAt]) ?_
      simp only [List.all_map, List.all_eq_true]
      exact fun v _ => inW_iff.2 (satS_range w v)
  · have hk : ((e + 64).toNat : Int) - 64 = e := by omega
    obtain hb | ⟨k, hfind, hb⟩ | ⟨hfind, hb⟩ := requant_cases w rnd a vs
    · rw [hb, blkOf_z] at hz
      simp at hz
    · obtain ⟨hk128, hbefore⟩ : k < 128 ∧ ∀ j < k, fits w rnd a vs j = false := by
        obtain ⟨-, hmem, hall⟩ := List.find?_range_eq_some.1 hfind
        exact ⟨List.mem_range.1 hmem, by simpa using hall⟩
      rw [hb] at hz hlt
      rw [blkOf_e hz (by omega) (by omega)] at hlt
      have := hbefore (e + 64).toNat (by omega)
      rwa [fits, hk] at this
    · rw [hb] at hz hlt
      rw [blkOf_e hz (by omega) (by omega)] at hlt
      rw [List.find?_eq_none] at hfind
      have := hfind (e + 64).toNat (List.mem_range.2 (by omega))
      rwa [fits, hk, Bool.not_eq_true] at this

/-! ### The worked examples -/

/-- Settles O58: each example, computed. -/
theorem workedExamples : Obligations.WorkedExamples := by
  unfold Obligations.WorkedExamples
  decide +kernel

end Sys2Proof.Machine
end

section
/-! ## When a leaf accumulator saturates (R189, R190) -/
namespace Sys2Proof.Machine

/-! ### The accumulator -/

/-- One addition of the leaf accumulator: the aligned term and the sum, each clamped to 20 bits (R189). -/
def leafAdd (a : W Int) (t : Int) : W Int :=
  let x := satK 20 0 t
  let y := satK 20 0 (a.1 + x.1)
  (y.1, a.2 ++ x.2 ++ y.2)

/-- The accumulator after these terms. -/
def leafAcc (ts : List Int) : W Int := ts.foldl leafAdd (0, [])

theorem leafAcc_append (ts : List Int) (t : Int) : leafAcc (ts ++ [t]) = leafAdd (leafAcc ts) t := by
  simp [leafAcc]

theorem satK20_of_range {x : Int} (hlo : -(2 ^ 19) ≤ x) (hhi : x < 2 ^ 19) : satK 20 0 x = (x, []) :=
  satK_of_range 0 hlo hhi

theorem satK20_top : satK 20 0 (2 ^ 19) = (2 ^ 19 - 1, [0]) := by decide

theorem sum_le_length_mul {ts : List Int} {T : Int} (h : ∀ t ∈ ts, t ≤ T) : ts.sum ≤ ts.length * T := by
  have := List.sum_le_card_nsmul ts T h
  rwa [nsmul_eq_mul] at this

theorem neg_length_mul_le_sum {ts : List Int} {T : Int} (h : ∀ t ∈ ts, -T ≤ t) : -(ts.length * T) ≤ ts.sum := by
  have := List.card_nsmul_le_sum ts (-T) h
  rw [nsmul_eq_mul] at this
  linarith

/-- A sum reaches the bound of its terms only when each of them does. -/
theorem sum_eq_length_mul_iff {ts : List Int} {T : Int} (h : ∀ t ∈ ts, t ≤ T) :
    ts.sum = ts.length * T ↔ ∀ t ∈ ts, t = T := by
  induction ts with
  | nil => simp
  | cons t ts ih =>
    have ht := h t (List.mem_cons_self ..)
    have hts := sum_le_length_mul fun u hu => h u (List.mem_cons_of_mem _ hu)
    have ih := ih fun u hu => h u (List.mem_cons_of_mem _ hu)
    simp only [List.sum_cons, List.length_cons, List.forall_mem_cons, ← ih]
    push_cast
    constructor
    · intro; constructor <;> linarith
    · rintro ⟨rfl, hs⟩; linarith

/-- Terms of at most `T`, so many that they reach `2 ^ 19` together at most: the accumulator saturates exactly when they reach it,
and then only the last addition (or, of a single term, its alignment) is clamped. -/
theorem leafAcc_cases {T : Int} (hT : 1 ≤ T) (ts : List Int) (hlen : ts.length * T ≤ 2 ^ 19)
    (hts : ∀ t ∈ ts, -T ≤ t ∧ t ≤ T) :
    leafAcc ts = if ts.sum = 2 ^ 19 then (2 ^ 19 - 1, [0]) else (ts.sum, []) := by
  induction ts using List.reverseRecOn with
  | nil => rfl
  | append_singleton ts t ih =>
    obtain ⟨hall, ht⟩ : (∀ u ∈ ts, -T ≤ u ∧ u ≤ T) ∧ -T ≤ t ∧ t ≤ T := by
      rw [List.forall_mem_append, List.forall_mem_singleton] at hts
      exact hts
    rw [List.length_append, List.length_singleton] at hlen
    push_cast at hlen
    rw [add_one_mul] at hlen
    have hhi := sum_le_length_mul fun u hu => (hall u hu).2
    have hlo := neg_length_mul_le_sum fun u hu => (hall u hu).1
    have hpos : 0 ≤ (ts.length : Int) * T := by positivity
    rw [leafAcc_append, ih (by omega) hall, if_neg (by omega), List.sum_append, List.sum_singleton, leafAdd]
    by_cases htop : t = 2 ^ 19
    · have h0 : ts.sum = 0 := by omega
      rw [htop, h0]
      decide
    · rw [satK20_of_range (x := t) (by omega) (by omega)]
      dsimp only
      split
      case isTrue h => rw [h, satK20_top]; rfl
      case isFalse h => rw [satK20_of_range (x := ts.sum + t) (by omega) (by omega)]; rfl

/-! ### One block pair (R187, R189) -/

/-- The greatest magnitude of a product of two digits, by the formats. -/
def digitTop (fa fw : Nat) : Int := if fa = 0 ∧ fw = 0 then 4 else if fa ≤ 1 ∧ fw ≤ 1 then (if fa = fw then 64 else 16) else 225

/-- A digit of a mantissa: an i2 value, an i4 value, or a digit of a longer one, whose lower digits are not negative. -/
theorem digit_range {f i : Nat} {x : Int} (hf : f < 4) (hi : i < fmtD f) (hx : inW (fmtW f) x = true) :
    (if f = 0 then -2 else -8 : Int) ≤ digit x (fmtD f) i ∧
      digit x (fmtD f) i ≤ (if f = 0 then 1 else if f = 1 then 7 else 15 : Int) := by
  rw [inW_iff] at hx
  interval_cases f <;> simp only [fmtD] at hi <;> interval_cases i <;> simp [digit, fmtD, fmtW] at hx ⊢ <;> omega

theorem abs_mul_le {a b A B : Int} (ha : |a| ≤ A) (hb : |b| ≤ B) : |a * b| ≤ A * B := by
  rw [abs_mul]
  exact mul_le_mul ha hb (abs_nonneg b) ((abs_nonneg a).trans ha)

theorem digit_mul_range {fa fw i j : Nat} {x y : Int} (hfa : fa < 4) (hfw : fw < 4) (hi : i < fmtD fa) (hj : j < fmtD fw)
    (hx : inW (fmtW fa) x = true) (hy : inW (fmtW fw) y = true) :
    |digit x (fmtD fa) i * digit y (fmtD fw) j| ≤ digitTop fa fw := by
  have hbound {f k : Nat} {z : Int} (hf : f < 4) (hk : k < fmtD f) (hz : inW (fmtW f) z = true) :
      |digit z (fmtD f) k| ≤ (if f = 0 then 2 else if f = 1 then 8 else 15) := by
    obtain ⟨hlo, hhi⟩ := digit_range hf hk hz
    rw [abs_le]
    split at hlo <;> split at hhi <;> omega
  refine (abs_mul_le (hbound hfa hi hx) (hbound hfw hj hy)).trans ?_
  unfold digitTop
  interval_cases fa <;> interval_cases fw <;> decide

/-- The greatest magnitude of the sum of a block pair. -/
def leafTop (fa fw : Nat) : Int := 32 * digitTop fa fw

/-- A block pair of these formats: 32 mantissas each, in range (R180, R181). -/
def FitsPair (fa fw : Nat) (p : Blk × Blk) : Prop :=
  p.1.m.length = 32 ∧ p.2.m.length = 32 ∧ p.1.m.all (inW (fmtW fa)) = true ∧ p.2.m.all (inW (fmtW fw)) = true

section Pair
variable {fa fw i j : Nat} {p : Blk × Blk} (hfa : fa < 4) (hfw : fw < 4) (hi : i < fmtD fa) (hj : j < fmtD fw)
  (hp : FitsPair fa fw p)

/-- The digit products of a block pair. -/
def digitProducts (fa fw i j : Nat) (p : Blk × Blk) : List Int :=
  (p.1.m.zip p.2.m).map fun x => digit x.1 (fmtD fa) i * digit x.2 (fmtD fw) j

theorem blkSum_eq_sum : blkSum p.1 p.2 (fmtD fa) (fmtD fw) i j = (digitProducts fa fw i j p).sum := by
  rw [List.sum_eq_foldl]
  rfl

include hp in
theorem digitProducts_length : (digitProducts fa fw i j p).length = 32 := by
  obtain ⟨ha, hw, -, -⟩ := hp
  simp [digitProducts, ha, hw]

include hfa hfw hi hj hp in
theorem digitProducts_range : ∀ v ∈ digitProducts fa fw i j p, -digitTop fa fw ≤ v ∧ v ≤ digitTop fa fw := by
  obtain ⟨-, -, ha, hw⟩ := hp
  simp only [digitProducts, List.mem_map, forall_exists_index, and_imp, forall_apply_eq_imp_iff₂]
  intro x hx
  have hmem := List.of_mem_zip (a := x.1) (b := x.2) hx
  exact abs_le.1 (digit_mul_range hfa hfw hi hj (List.all_eq_true.1 ha _ hmem.1) (List.all_eq_true.1 hw _ hmem.2))

include hfa hfw hi hj hp in
theorem blkSum_range : -leafTop fa fw ≤ blkSum p.1 p.2 (fmtD fa) (fmtD fw) i j ∧
    blkSum p.1 p.2 (fmtD fa) (fmtD fw) i j ≤ leafTop fa fw := by
  have hrange := digitProducts_range hfa hfw hi hj hp
  have hhi := sum_le_length_mul fun v hv => (hrange v hv).2
  have hlo := neg_length_mul_le_sum fun v hv => (hrange v hv).1
  rw [digitProducts_length hp] at hhi hlo
  rw [blkSum_eq_sum]
  exact ⟨hlo, hhi⟩

include hfa hfw hi hj hp in
theorem blkSum_eq_leafTop_iff : blkSum p.1 p.2 (fmtD fa) (fmtD fw) i j = leafTop fa fw ↔
    ∀ x ∈ p.1.m.zip p.2.m, digit x.1 (fmtD fa) i * digit x.2 (fmtD fw) j = digitTop fa fw := by
  have htop := sum_eq_length_mul_iff fun v hv => (digitProducts_range hfa hfw hi hj hp v hv).2
  rw [digitProducts_length hp, ← blkSum_eq_sum] at htop
  refine htop.trans ?_
  simp only [digitProducts, List.mem_map, forall_exists_index, and_imp, forall_apply_eq_imp_iff₂]

end Pair

/-- A move down by at most `g` bits keeps a bound, `2 ^ g` times as wide, and reaches it from the bound alone, by `g` bits. -/
theorem alignRaw_bound {x f t M : Int} {g : Nat} (hM : 2 ≤ M) (hg : f - t ≤ g) (hlo : -M ≤ x) (hhi : x ≤ M) :
    -(M * 2 ^ g) ≤ alignRaw x f t ∧ alignRaw x f t ≤ M * 2 ^ g ∧
      (alignRaw x f t = M * 2 ^ g ↔ x = M ∧ f - t = g) := by
  have hone : (1 : Int) ≤ 2 ^ g := one_le_pow₀ (by norm_num)
  unfold alignRaw
  split
  case isTrue h =>
    have hpow := two_pow_toNat_le hg
    have hpos : (1 : Int) ≤ 2 ^ (f - t).toNat := one_le_pow₀ (by norm_num)
    refine ⟨by nlinarith, by nlinarith, fun heq => ?_, fun ⟨hx, hft⟩ => by rw [hx, hft]; rfl⟩
    obtain rfl : x = M := by
      by_contra hne
      have : x + 1 ≤ M := by omega
      nlinarith
    have hexp := Int.pow_right_injective (a := 2) (by norm_num) (mul_left_cancel₀ (by omega) heq)
    omega
  case isFalse h =>
    obtain ⟨hup, hdown⟩ := rne_bounds (k := (t - f).toNat) (by omega) hlo hhi
    exact ⟨by nlinarith, by nlinarith, fun heq => by nlinarith, fun ⟨_, hft⟩ => by omega⟩

/-! ### The leaf result -/

/-- The guard of R189 leaves just enough room: 20 bits are reached by i2 pairs and by i4 pairs only. -/
theorem leafTop_room {fa fw : Nat} (hfa : fa < 4) (hfw : fw < 4) :
    leafTop fa fw * 2 ^ leafB fa fw ≤ 2 ^ 19 ∧ (leafTop fa fw * 2 ^ leafB fa fw = 2 ^ 19 ↔ fa = fw ∧ fa ≤ 1) := by
  interval_cases fa <;> interval_cases fw <;> decide

theorem two_le_leafTop (fa fw : Nat) : 2 ≤ leafTop fa fw := by
  unfold leafTop digitTop
  split
  · decide
  · split
    · split <;> decide
    · decide

/-- `m` of `n` terms, each at its bound with the guard for `n`, fill the accumulator only when `n` is a power of two, `m` is `n`,
and the formats are both i2 or both i4. -/
theorem leaf_room {fa fw m n : Nat} (hfa : fa < 4) (hfw : fw < 4) (hm : m ≤ n) (hn : n ≤ 2 ^ leafB fa fw) :
    m * (leafTop fa fw * 2 ^ (leafB fa fw - clog2 n)) ≤ 2 ^ 19 ∧
      (m * (leafTop fa fw * 2 ^ (leafB fa fw - clog2 n)) = 2 ^ 19 ↔ m = n ∧ n = 2 ^ clog2 n ∧ fa = fw ∧ fa ≤ 1) := by
  obtain ⟨hle, hiff⟩ := leafTop_room hfa hfw
  have hM := two_le_leafTop fa fw
  have hc : clog2 n ≤ leafB fa fw := clog2_le_iff.2 hn
  have hnc := le_two_pow_clog2 n
  have hT : 0 < leafTop fa fw * 2 ^ (leafB fa fw - clog2 n) := by positivity
  have hfull : ((2 ^ clog2 n : Nat) : Int) * (leafTop fa fw * 2 ^ (leafB fa fw - clog2 n)) = leafTop fa fw * 2 ^ leafB fa fw := by
    push_cast
    rw [mul_left_comm, ← pow_add, Nat.add_sub_of_le hc]
  have hmc : (m : Int) * (leafTop fa fw * 2 ^ (leafB fa fw - clog2 n)) ≤ leafTop fa fw * 2 ^ leafB fa fw := by
    rw [← hfull]
    exact mul_le_mul_of_nonneg_right (by exact_mod_cast hm.trans hnc) hT.le
  refine ⟨hmc.trans hle, fun heq => ?_, fun ⟨hmn, hpow, hfmt⟩ => ?_⟩
  · have hmax : leafTop fa fw * 2 ^ leafB fa fw = 2 ^ 19 := le_antisymm hle (heq ▸ hmc)
    have hmeq : m = 2 ^ clog2 n := by
      exact_mod_cast mul_right_cancel₀ hT.ne' (heq.trans (hmax.symm.trans hfull.symm))
    exact ⟨by omega, by omega, hiff.1 hmax⟩
  · rw [hmn.trans hpow, hfull]
    exact hiff.2 hfmt

/-- The block pairs that count: neither block is a zero block (R183). -/
def liveBlocks (bs : List (Blk × Blk)) : List (Blk × Blk) := bs.filter fun p => !p.1.zero && !p.2.zero

theorem liveBlocks_length_le (bs : List (Blk × Blk)) : (liveBlocks bs).length ≤ bs.length := List.length_filter_le _ bs

/-- The aligned sum of a block pair before any clamp, in an accumulator of exponent `el`. -/
def leafTerm (fa fw i j : Nat) (el : Int) (p : Blk × Blk) : Int :=
  alignRaw (blkSum p.1 p.2 (fmtD fa) (fmtD fw) i j) (p.1.e + p.2.e + (4 * (i + j) : Nat)) el

theorem leafResult_eq (fa fw i j : Nat) (bs : List (Blk × Blk)) : leafResult fa fw i j bs =
    match maxI ((liveBlocks bs).map fun p => p.1.e + p.2.e) with
    | none => (none, [])
    | some em =>
      let el := em + (4 * (i + j) : Nat) - ((leafB fa fw - clog2 bs.length : Nat) : Int)
      let r := leafAcc ((liveBlocks bs).map (leafTerm fa fw i j el))
      (some (r.1, el), r.2) := by
  unfold leafResult liveBlocks leafAcc
  simp only [align_eq_satK, List.foldl_map]
  rfl

theorem maxI_mem {l : List Int} {m : Int} (h : maxI l = some m) : m ∈ l := by
  cases l with
  | nil => cases h
  | cons x l =>
    obtain rfl := Option.some.inj h
    clear h
    induction l generalizing x with
    | nil => simp
    | cons y l ih =>
      have := ih (max x y)
      simp only [List.foldl_cons, List.mem_cons] at this ⊢
      rcases max_choice x y with hm | hm <;> rw [hm] at this ⊢ <;> tauto

theorem maxI_eq_none_iff {l : List Int} : maxI l = none ↔ l = [] := by
  cases l <;> simp [maxI]

/-- A digit of a mantissa of one digit is the mantissa. -/
theorem digit_one (x : Int) : digit x 1 0 = x := by simp [digit]

/-- What R190 says of the block pairs of a leaf that saturates. -/
def LeafFull (fa fw : Nat) (bs : List (Blk × Blk)) : Prop :=
  bs ≠ [] ∧ fa = fw ∧ fa ≤ 1 ∧ bs.length = 2 ^ clog2 bs.length ∧ (∀ p ∈ bs, ∀ q ∈ bs, p.1.e + p.2.e = q.1.e + q.2.e) ∧
    ∀ p ∈ bs, p.1.z = false ∧ p.2.z = false ∧ ∀ x ∈ p.1.m.zip p.2.m, x.1 * x.2 = if fa = 0 then 4 else 64

/-- Where every product is at its positive top, no block is a zero block. -/
theorem live_of_full {fa fw : Nat} {bs : List (Blk × Blk)} (hbs : ∀ p ∈ bs, FitsPair fa fw p) (h : LeafFull fa fw bs) :
    liveBlocks bs = bs := by
  obtain ⟨-, -, -, -, -, hall⟩ := h
  refine List.filter_eq_self.2 fun p hp => ?_
  obtain ⟨hz1, hz2, hprod⟩ := hall p hp
  obtain ⟨hl1, hl2, -, -⟩ := hbs p hp
  obtain ⟨a, as, ha⟩ := List.exists_cons_of_length_eq_add_one hl1
  obtain ⟨w, ws, hw⟩ := List.exists_cons_of_length_eq_add_one hl2
  have htop : a * w ≠ 0 := by
    rw [hprod (a, w) (by simp [ha, hw])]
    split <;> decide
  obtain ⟨ha0, hw0⟩ := mul_ne_zero_iff.1 htop
  simp [Blk.zero, hz1, hz2, ha, hw, ha0, hw0]

section Leaf
variable {fa fw i j : Nat} {bs : List (Blk × Blk)} (hfa : fa < 4) (hfw : fw < 4) (hi : i < fmtD fa) (hj : j < fmtD fw)
  (hn : bs.length ≤ 2 ^ leafB fa fw) (hbs : ∀ p ∈ bs, FitsPair fa fw p)

include hfa hfw hi hj in
/-- A pair of i2 or i4 blocks is at its top exactly when every product is. -/
theorem blkSum_top_of_short {p : Blk × Blk} (hp : FitsPair fa fw p) (hfmt : fa = fw) (hshort : fa ≤ 1) :
    blkSum p.1 p.2 (fmtD fa) (fmtD fw) i j = leafTop fa fw ↔
      ∀ x ∈ p.1.m.zip p.2.m, x.1 * x.2 = if fa = 0 then 4 else 64 := by
  rw [blkSum_eq_leafTop_iff hfa hfw hi hj hp]
  subst hfmt
  have hd : fmtD fa = 1 := by interval_cases fa <;> rfl
  have htop : digitTop fa fa = if fa = 0 then 4 else 64 := by interval_cases fa <;> rfl
  obtain rfl : i = 0 := by omega
  obtain rfl : j = 0 := by omega
  simp only [hd, htop, digit_one]

/-- The bound of an aligned sum. -/
def termTop (fa fw : Nat) (bs : List (Blk × Blk)) : Int := leafTop fa fw * 2 ^ (leafB fa fw - clog2 bs.length)

/-- The exponent of the accumulator (R189). -/
def leafExp (fa fw i j : Nat) (bs : List (Blk × Blk)) (em : Int) : Int :=
  em + (4 * (i + j) : Nat) - ((leafB fa fw - clog2 bs.length : Nat) : Int)

include hfa hfw hi hj hbs in
theorem leafTerm_bound {em : Int} (hem : maxI ((liveBlocks bs).map fun p => p.1.e + p.2.e) = some em) {p : Blk × Blk}
    (hp : p ∈ liveBlocks bs) :
    -termTop fa fw bs ≤ leafTerm fa fw i j (leafExp fa fw i j bs em) p ∧
      leafTerm fa fw i j (leafExp fa fw i j bs em) p ≤ termTop fa fw bs ∧
      (leafTerm fa fw i j (leafExp fa fw i j bs em) p = termTop fa fw bs ↔
        blkSum p.1 p.2 (fmtD fa) (fmtD fw) i j = leafTop fa fw ∧ p.1.e + p.2.e = em) := by
  have hle := le_of_maxI hem _ (List.mem_map_of_mem hp)
  obtain ⟨hlo, hhi⟩ := blkSum_range hfa hfw hi hj (hbs p (List.mem_of_mem_filter hp))
  obtain ⟨hrlo, hrhi, hrtop⟩ := alignRaw_bound (f := p.1.e + p.2.e + (4 * (i + j) : Nat)) (t := leafExp fa fw i j bs em)
    (g := leafB fa fw - clog2 bs.length) (two_le_leafTop fa fw) (by unfold leafExp; omega) hlo hhi
  refine ⟨hrlo, hrhi, hrtop.trans (and_congr_right fun _ => ?_)⟩
  unfold leafExp
  omega

include hfa hfw hi hj hn hbs in
theorem leafAcc_live {em : Int} (hem : maxI ((liveBlocks bs).map fun p => p.1.e + p.2.e) = some em) :
    leafAcc ((liveBlocks bs).map (leafTerm fa fw i j (leafExp fa fw i j bs em))) =
      if ((liveBlocks bs).map (leafTerm fa fw i j (leafExp fa fw i j bs em))).sum = 2 ^ 19 then (2 ^ 19 - 1, [0])
      else (((liveBlocks bs).map (leafTerm fa fw i j (leafExp fa fw i j bs em))).sum, []) := by
  have hM := two_le_leafTop fa fw
  have hT : 0 < termTop fa fw bs := by unfold termTop; positivity
  have hroom := (leaf_room hfa hfw (liveBlocks_length_le bs) hn).1
  refine leafAcc_cases hT _ (by rw [List.length_map]; exact hroom) ?_
  simp only [List.mem_map, forall_exists_index, and_imp, forall_apply_eq_imp_iff₂]
  intro p hp
  obtain ⟨hlo, hhi, -⟩ := leafTerm_bound hfa hfw hi hj hbs hem hp
  exact ⟨hlo, hhi⟩

include hfa hfw hi hj hn hbs in
/-- The aligned sums add up to `2 ^ 19` exactly when the leaf is full. -/
theorem leafTerms_sum_iff {em : Int} (hem : maxI ((liveBlocks bs).map fun p => p.1.e + p.2.e) = some em) :
    ((liveBlocks bs).map (leafTerm fa fw i j (leafExp fa fw i j bs em))).sum = 2 ^ 19 ↔ LeafFull fa fw bs := by
  have hterm := fun p hp => leafTerm_bound hfa hfw hi hj hbs hem (p := p) hp
  obtain ⟨hroom, hfill⟩ := leaf_room (fa := fa) (fw := fw) hfa hfw (liveBlocks_length_le bs) hn
  have hall : ∀ t ∈ (liveBlocks bs).map (leafTerm fa fw i j (leafExp fa fw i j bs em)), t ≤ termTop fa fw bs := by
    simp only [List.mem_map, forall_exists_index, and_imp, forall_apply_eq_imp_iff₂]
    exact fun p hp => (hterm p hp).2.1
  have hsum := sum_le_length_mul hall
  have htop := sum_eq_length_mul_iff hall
  rw [List.length_map] at hsum htop
  constructor
  · intro heq
    have hlen : ((liveBlocks bs).length : Int) * termTop fa fw bs = 2 ^ 19 := le_antisymm hroom (heq ▸ hsum)
    obtain ⟨hm, hpow, hfmt, hshort⟩ := hfill.1 hlen
    have hlive : liveBlocks bs = bs := List.filter_eq_self.2 (List.length_filter_eq_length_iff.1 hm)
    have hat := htop.1 (heq.trans hlen.symm)
    simp only [List.mem_map, forall_exists_index, and_imp, forall_apply_eq_imp_iff₂] at hat
    have hpair : ∀ p ∈ bs, blkSum p.1 p.2 (fmtD fa) (fmtD fw) i j = leafTop fa fw ∧ p.1.e + p.2.e = em := fun p hp =>
      (hterm p (hlive.symm ▸ hp)).2.2.1 (hat p (hlive.symm ▸ hp))
    refine ⟨fun h0 => ?_, hfmt, hshort, hpow, fun p hp q hq => (hpair p hp).2.trans (hpair q hq).2.symm, fun p hp => ?_⟩
    · simp [liveBlocks, h0, maxI] at hem
    · have hz := List.length_filter_eq_length_iff.1 hm p hp
      simp only [Blk.zero, Bool.not_or, Bool.and_eq_true, Bool.not_eq_true'] at hz
      obtain ⟨⟨hz1, -⟩, hz2, -⟩ := hz
      exact ⟨hz1, hz2, (blkSum_top_of_short hfa hfw hi hj (hbs p hp) hfmt hshort).1 (hpair p hp).1⟩
  · intro hfull
    have hlive := live_of_full hbs hfull
    obtain ⟨-, hfmt, hshort, hpow, hexp, hprod⟩ := hfull
    have hlen : ((liveBlocks bs).length : Int) * termTop fa fw bs = 2 ^ 19 :=
      hfill.2 ⟨congrArg List.length hlive, hpow, hfmt, hshort⟩
    refine (htop.2 ?_).trans hlen
    simp only [List.mem_map, forall_exists_index, and_imp, forall_apply_eq_imp_iff₂]
    intro p hp
    obtain ⟨q, hq, rfl⟩ := List.mem_map.1 (maxI_mem hem)
    rw [hlive] at hq
    have hpb : p ∈ bs := hlive ▸ hp
    exact (hterm p hp).2.2.2
      ⟨(blkSum_top_of_short hfa hfw hi hj (hbs p hpb) hfmt hshort).2 (hprod p hpb).2.2, hexp p hpb q hq⟩

include hfa hfw hi hj hn hbs in
/-- A full leaf saturates once, at the top of its width; any other leaf does not. -/
theorem leafResult_sats :
    (LeafFull fa fw bs → (leafResult fa fw i j bs).2 = [0] ∧ (leafResult fa fw i j bs).1.map (·.1) = some (2 ^ 19 - 1)) ∧
      (¬ LeafFull fa fw bs → (leafResult fa fw i j bs).2 = []) := by
  rw [leafResult_eq]
  split
  case h_1 hnone =>
    refine ⟨fun hfull => ?_, fun _ => rfl⟩
    rw [live_of_full hbs hfull, maxI_eq_none_iff, List.map_eq_nil_iff] at hnone
    exact absurd hnone hfull.1
  case h_2 em hem =>
    have hacc := leafAcc_live hfa hfw hi hj hn hbs hem
    have hsum := leafTerms_sum_iff hfa hfw hi hj hn hbs hem
    unfold leafExp at hacc hsum
    dsimp only
    rw [hacc]
    constructor
    · intro hfull
      rw [if_pos (hsum.2 hfull)]
      exact ⟨rfl, rfl⟩
    · intro hnot
      rw [if_neg (hsum.not.2 hnot)]

end Leaf

/-- Settles O55: a leaf saturates exactly when it is full. -/
theorem leafSaturation : Obligations.LeafSaturation := by
  refine ⟨fun fa fw i j bs hfa hfw hi hj hn hbs => ?_, fun fa fw i j bs hfa hfw hi hj hn hbs hsat => ?_⟩
  all_goals obtain ⟨hfull, hnot⟩ := leafResult_sats hfa hfw hi hj hn hbs
  · show (leafResult fa fw i j bs).2 ≠ [] ↔ LeafFull fa fw bs
    refine ⟨fun hsat => by_contra fun h => hsat (hnot h), fun h => ?_⟩
    rw [(hfull h).1]
    decide
  · exact hfull (by_contra fun h => hsat (hnot h))

end Sys2Proof.Machine
end

section
/-! ## Commands that a standby refuses (R116), and buffers that take no write (R607) -/
namespace Sys2Proof.Machine

theorem State.check_of_standby (s : State) (r cls : Nat) (d : Desc) (i : CmdInfo)
    (hcls : s.get (Reg.HST_RCFG_CLASS r) = cls) (hpriv : i.priv ≤ s.get (Reg.HST_RCFG_PRIV r))
    (hseat : s.standby = true) (hi : i.standby = true) : s.check r cls d i = some 0x18 := by
  rw [State.check, if_neg (not_not_intro hcls), if_neg (Nat.not_lt.mpr hpriv), if_pos ⟨hseat, hi⟩]

/-- R116 for a command whose arm is a command of a CMD ring that a standby refuses. -/
theorem exec_of_standby {c : Instr} {s : State} {r op : Nat} {d : Desc} {i : CmdInfo} {body : State → Reply}
    (harm : exec c s = .next (s.cmd r op d i body)) (hi : i.standby = true) (hbegins : s.begins 0 r op d)
    (hcls : s.get (Reg.HST_RCFG_CLASS r) = 0) (hpriv : i.priv ≤ s.get (Reg.HST_RCFG_PRIV r)) (hseat : s.standby = true) :
    exec c s = .next ((s.beginDesc r op d).completeLate r op d 0x18 0 0) := by
  have hcheck := s.check_of_standby r 0 d i hcls hpriv hseat hi
  rw [harm, State.cmd, s.cmdOn_checked 0 r op d i body 0x18 hbegins hcheck]

/-- The body of a CMD command runs once the ring begins it and its checks pass (R113, R607). -/
theorem State.cmd_of_check_none (s : State) (r op : Nat) (d : Desc) (i : CmdInfo) (body : State → Reply)
    (hbegins : s.begins 0 r op d) (hcheck : s.check r 0 d i = none) :
    s.cmd r op d i body = (body (s.beginDesc r op d)).finish r op d := by
  have hcheck' : (s.beginDesc r op d).check r 0 d i = none := hcheck
  rw [State.cmd, State.cmdOn, s.begins_free 0 r op d hbegins]
  simp [hcheck']

/-- R607 for a query that writes an image: a buffer that takes no write completes BADADDR. -/
theorem exec_of_buffer_fails {c : Instr} {s : State} {r op n : Nat} {d : Desc} {i : CmdInfo} {img : State → List Byte}
    (hn : n ≠ 0) (harm : exec c s = .next (s.cmd r op d i fun t => image t n (img t))) (hbegins : s.begins 0 r op d)
    (hcheck : s.check r 0 d i = none) (hbuf : d.buf = none) :
    exec c s = .next ((s.beginDesc r op d).completeLate r op d 0x13 0 0) := by
  rw [harm, s.cmd_of_check_none r op d i _ hbegins hcheck, image_fails _ n _ r op d hn hbuf]

/-- Settles O14: SCRUB_NOW is served; every other arm named is a command of a CMD ring that a standby refuses. -/
theorem standbyRefused : Obligations.StandbyRefused := by
  unfold Obligations.StandbyRefused
  constructor
  · intro s r d hserves hseat htb
    have htb' : bit ((s.beginDesc r 0x0203 d).get Reg.PRS_STAT_TBSVC) (bits d.p0 0 2) = true := htb
    change execScrubNow .. = _
    simp [execScrubNow, s.cmd_served r 0x0203 d _ _ hserves, htb']
  · and_intros
    all_goals
      intros
      rename_i hbegins hcls hpriv hseat
      exact exec_of_standby rfl rfl hbegins hcls hpriv hseat

/-- Settles O15: each arm named writes an image of a fixed, positive length. -/
theorem bufferWriteFails : Obligations.BufferWriteFails := by
  unfold Obligations.BufferWriteFails
  and_intros
  all_goals
    intros
    rename_i hbegins hcheck hbuf
    exact exec_of_buffer_fails (by decide) rfl hbegins hcheck hbuf

end Sys2Proof.Machine
end

section
/-! ## Completion entries read back (R96) -/
namespace Sys2Proof.Machine

@[simp] theorem le_length (n v : Nat) : (le n v).length = n := by
  induction n generalizing v with
  | zero => rfl
  | succ n ih => simp [le, ih]

theorem ofLe_le (n v : Nat) : ofLe (le n v) = v % 256 ^ n := by
  induction n generalizing v with
  | zero => simp [le, ofLe, Nat.mod_one]
  | succ n ih =>
    have hbyte : (byte v).toNat = v % 256 := by simp [byte]
    rw [le, ofLe, ih, hbyte, Nat.pow_succ', Nat.mod_mul]

/-- The first `n` bytes of a list that begins with a number of `n` bytes. -/
theorem rd_le_append (n v : Nat) (t : List Byte) : rd (le n v ++ t) 0 n = v % 256 ^ n := by
  rw [rd, List.drop_zero, List.take_left' (le_length n v), ofLe_le]

theorem rd_le (n v : Nat) : rd (le n v) 0 n = v % 256 ^ n := by
  simpa using rd_le_append n v []

/-- An offset behind a number that a list begins with counts from the number's end. -/
theorem rd_append_of_le {n o : Nat} (v : Nat) (t : List Byte) (m : Nat) (h : n ≤ o) :
    rd (le n v ++ t) o m = rd t (o - n) m := by
  rw [rd, List.drop_append, List.drop_eq_nil_of_le (by simpa using h), le_length, List.nil_append, rd]

theorem cpl_flags_byte (ph : Bool) {flags seat : Nat} (hseat : seat < 2) (hf : flags ∈ [0, 2, 4, 6]) :
    let b := (b2n ph + flags + 8 * seat) % 256 ^ 1
    bit b 0 = ph ∧ bit b 1 = bit flags 1 ∧ bit b 2 = bit flags 2 ∧ bits b 3 1 = seat ∧ bits b 4 4 = 0 := by
  have hall : ∀ ph : Bool, ∀ flags ∈ [0, 2, 4, 6], ∀ seat < 2,
      let b := (b2n ph + flags + 8 * seat) % 256 ^ 1
      bit b 0 = ph ∧ bit b 1 = bit flags 1 ∧ bit b 2 = bit flags 2 ∧ bits b 3 1 = seat ∧ bits b 4 4 = 0 := by decide
  exact hall ph flags hf seat hseat

/-- Settles O20: each field is a number of fixed length at its offset, and fits it. -/
theorem completionLayout : Obligations.CompletionLayout := by
  unfold Obligations.CompletionLayout
  intro c seat ph hop hseat hflags hstatus htag hring hindex hcount hdone hresult htime
  obtain ⟨h0, h1, h2, h3, h4⟩ := cpl_flags_byte (flags := c.flags) ph hseat (by simpa using hflags)
  have hfl : rd (c.bytes seat ph) 2 1 = (b2n ph + c.flags + 8 * seat) % 256 ^ 1 := by
    simp [Cpl.bytes, rd_append_of_le, rd_le_append, List.append_assoc]
  rw [hfl]
  refine ⟨by simp [Cpl.bytes], ?_, h0, h1, h2, h3, h4, ?_⟩
  · simp [Cpl.bytes, rd_le_append, List.append_assoc]
    omega
  · simp only [Cpl.bytes, rd_append_of_le, rd_le_append, rd_le, List.append_assoc, Nat.reduceLeDiff, Nat.reduceSub]
    norm_num only
    omega

end Sys2Proof.Machine
end

section
/-! ## What a raise and the halt decision leave in the fields of other blocks (R473, R475) -/
namespace Sys2Proof.Machine

/-- A field of a block that neither ring entries nor log records nor performance counters write to. -/
def unposted (g : Fld) : Bool := keyBlock g.key != 1 && keyBlock g.key != 9 && keyBlock g.key != 11

theorem fieldKey_mod {a lo : Nat} (h : a * 32 + lo < 0x2000000) (i : Nat) :
    fieldKey a lo i % 0x2000000 = a * 32 + lo := by
  rw [fieldKey, Nat.add_assoc, Nat.mul_add_mod_self_right, Nat.mod_eq_of_lt h]

/-- The block of a windowed field does not depend on the window's entry. -/
theorem keyBlock_fieldKey {a lo : Nat} (hlo : lo < 32) (ha : a < 0x100000) (i : Nat) :
    keyBlock (fieldKey a lo i) = a / 0x10000 := by
  unfold keyBlock fieldKey
  omega

/-- Windowed fields at different bits of the register map differ whatever their entries. -/
theorem fieldKey_ne {a lo a' lo' : Nat} (h : a * 32 + lo < 0x2000000) (h' : a' * 32 + lo' < 0x2000000)
    (hne : a * 32 + lo ≠ a' * 32 + lo') (i j : Nat) : fieldKey a lo i ≠ fieldKey a' lo' j := by
  intro he
  exact hne (by rw [← fieldKey_mod h i, he, fieldKey_mod h' j])

theorem unposted_fld {a lo : Nat} (w r i : Nat) (hlo : lo < 32) (ha : a < 0x100000) :
    unposted (fld a lo w r i) = (a / 0x10000 != 1 && a / 0x10000 != 9 && a / 0x10000 != 11) := by
  rw [unposted, show (fld a lo w r i).key = fieldKey a lo i from rfl, keyBlock_fieldKey hlo ha]

variable {s : State} {g : Fld}

theorem get_set_of_unposted {f : Fld} (v : Nat) (hg : unposted g = true) (hf : unposted f = false) :
    (s.set f v).get g = s.get g := by
  refine State.get_set_ne s f g v fun he => ?_
  rw [unposted, he] at hg
  rw [unposted, hg] at hf
  cases hf

theorem get_add_of_unposted {f : Fld} (v : Nat) (hg : unposted g = true) (hf : unposted f = false) :
    (s.add f v).get g = s.get g := get_set_of_unposted _ hg hf

theorem count5_get (ev k kind : Nat) (hg : unposted g = true) : (s.count 5 ev k kind).get g = s.get g := by
  have hcnt : ∀ c < setCounters 5, unposted (Reg.PRF_CNT 5 c) = false := by decide
  have hovf : unposted (Reg.PRF_OVF_CNT 5) = false := by decide
  unfold State.count
  split
  · rfl
  · refine foldl_keeps_mem (fun s => s.get g) _ _ _ fun s c hc => ?_
    have hc' := hcnt c (List.mem_range.mp hc)
    split
    · unfold State.countTo
      split <;> simp [get_set_of_unposted _ hg hc', get_set_of_unposted _ hg hovf]
    · rfl

theorem msixSend_get_of_unposted (v : Nat) (hg : unposted g = true) : (s.msixSend v).get g = s.get g := by
  unfold State.msixSend
  dsimp only
  split
  · rfl
  · exact count5_get _ _ _ hg

theorem moderate_get_of_unposted (r : Nat) (hg : unposted g = true) : (s.moderate r).get g = s.get g := by
  unfold State.moderate
  split
  · rfl
  · dsimp only
    split
    · exact msixSend_get_of_unposted _ hg
    · rfl

theorem unposted_HST_RDROP (r : Nat) : unposted (Reg.HST_RDROP r) = false := unposted_fld _ _ _ (by decide) (by decide)
theorem unposted_HST_RPTR_TAIL (r : Nat) : unposted (Reg.HST_RPTR_TAIL r) = false :=
  unposted_fld _ _ _ (by decide) (by decide)
theorem unposted_HST_RCNT (r : Nat) : unposted (Reg.HST_RCNT r) = false := unposted_fld _ _ _ (by decide) (by decide)

theorem putEntry_get_of_unposted (r : Nat) (entry : Bool → List Byte) (hg : unposted g = true) :
    (s.putEntry r entry).get g = s.get g := by
  unfold State.putEntry
  rw [moderate_get_of_unposted r hg, count5_get _ _ _ hg]
  calc _ = _ := get_add_of_unposted (s := (s.emit _).set (Reg.HST_RPTR_TAIL r) _) 1 hg (unposted_HST_RCNT r)
    _ = _ := get_set_of_unposted _ hg (unposted_HST_RPTR_TAIL r)

theorem postEntry_get_of_unposted (r typ src : Nat) (confirmed : Bool) (inline : Bool → List Byte) (payload : List Byte)
    (stamp : Option Nat) (hg : unposted g = true) :
    (s.postEntry r typ src confirmed inline payload stamp).get g = s.get g := by
  unfold State.postEntry
  split
  · exact get_add_of_unposted 1 hg (unposted_HST_RDROP r)
  · dsimp only
    rw [putEntry_get_of_unposted _ _ hg]
    split <;> rfl

theorem evtP_get_of_unposted (src typ : Nat) (inline : Bool → List Byte) (payload : List Byte) (hg : unposted g = true) :
    (s.evtP src typ inline payload).get g = s.get g :=
  foldl_keeps (fun s => s.get g) _ _ _ fun _ _ => postEntry_get_of_unposted _ _ _ _ _ _ _ hg

theorem evt_get_of_unposted (src typ : Nat) (inline : List Byte) (hg : unposted g = true) :
    (s.evt src typ inline).get g = s.get g := evtP_get_of_unposted _ _ _ _ hg

theorem storeWrap3_get_of_unposted (n cap oldest : Nat) (hg : unposted g = true) :
    (s.storeWrap 3 n cap oldest).get g = s.get g := by
  have hwraps : unposted (Reg.COL_SSTAT_WRAPS 3) = false := by decide
  unfold State.storeWrap
  split
  · rw [evt_get_of_unposted _ _ _ hg]
    exact get_add_of_unposted 1 hg hwraps
  · rfl

theorem slug_get_of_unposted (code sub p0 p1 p2 p3 : Nat) (hg : unposted g = true) :
    (s.slug code sub p0 p1 p2 p3).get g = s.get g := by
  have hlost : unposted Reg.COL_LOST = false := by decide
  have hnext : unposted (Reg.COL_SNEXT 3) = false := by decide
  unfold State.slug
  split
  · exact get_add_of_unposted 1 hg hlost
  · dsimp only
    rw [storeWrap3_get_of_unposted _ _ _ hg]
    exact get_set_of_unposted _ hg hnext

theorem setStage_get_of_unposted (v : Nat) (hg : unposted g = true) (hne : g.key ≠ Reg.GLB_BOOTSTAT_STAGE.key) :
    (s.setStage v).get g = s.get g := by
  unfold State.setStage
  dsimp only
  split
  · rfl
  · split
    · exact (evt_get_of_unposted _ _ _ hg).trans (State.get_set_ne _ _ _ _ hne)
    · exact State.get_set_ne _ _ _ _ hne

theorem setStage_stage (s : State) (v : Nat) : (s.setStage v).stage = v % 16 ∨ (s.setStage v).stage = v := by
  have hg : unposted Reg.GLB_BOOTSTAT_STAGE = true := by decide
  unfold State.setStage
  dsimp only
  split
  · next h => exact .inr h
  · refine .inl ?_
    split
    · exact (evt_get_of_unposted _ _ _ hg).trans (State.get_set_same _ _ _)
    · exact State.get_set_same _ _ _

/-- The DETECTOR entry of a raise touches the detector's record of entries and, when it is due, posts one event. -/
theorem raiseEvt_eq (s : State) (n c param : Nat) (inj esc : Bool) :
    ∃ f : Det → Det, (∀ y, (f y).status = y.status) ∧
      (s.raiseEvt n c param inj esc = s.detMod n f ∨ ∃ b, s.raiseEvt n c param inj esc = (s.detMod n f).evt 8 0x0900 b) := by
  unfold State.raiseEvt
  dsimp only
  split
  all_goals split
  · refine ⟨_, ?_, .inl rfl⟩
    exact fun _ => rfl
  · refine ⟨_, ?_, .inr ⟨_, rfl⟩⟩
    exact fun _ => rfl
  · contradiction
  · refine ⟨_, ?_, .inr ⟨_, rfl⟩⟩
    exact fun _ => rfl

theorem raiseEvt_get_of_unposted (n c param : Nat) (inj esc : Bool) (hg : unposted g = true) :
    (s.raiseEvt n c param inj esc).get g = s.get g := by
  obtain ⟨f, -, h | ⟨b, h⟩⟩ := raiseEvt_eq s n c param inj esc
  · rw [h]; rfl
  · rw [h, evt_get_of_unposted _ _ _ hg]; rfl

/-! ### The halt decision -/

/-- The registers of the halt as its decision leaves them: HALTED, and the first halt unless one is latched (R476). -/
def State.haltLatch (s : State) (n : Nat) : State :=
  let t := s.set Reg.ERA_STAT_HALTED 1
  if t.on Reg.ERA_HALT_VALID then t
  else ((t.set Reg.ERA_HALT_FIRST n).set Reg.ERA_HALT_VALID 1).set Reg.ERA_HALT_TIME t.time

theorem halt_of_halted (n : Nat) (h : s.halted = true) : s.halt n = s.bump Reg.ERA_HALT_MORE := by
  rw [State.halt, if_pos h]

/-- What the halt decision writes to the registers, frames and pins apart. -/
theorem halt_get (n : Nat) (h : s.halted = false) :
    (s.halt n).get g =
      (((({ s with glb := { s.glb with preHalt := s.stage } } : State).haltLatch n).setStage 0xF).set
        Reg.CHS_STAT_TOKEN 0).get g := by
  rw [State.halt, if_neg (by simp [h])]
  dsimp only
  split
  · rw [State.rosOut_get]; rfl
  · split
    · rw [State.rosOut_get]; rfl
    · rfl

/-- A field of no log or ring, neither the stage nor the seat token: the halt decision writes it as its latch does. -/
theorem halt_get_of_unposted (n : Nat) (h : s.halted = false) (hg : unposted g = true)
    (hstage : g.key ≠ Reg.GLB_BOOTSTAT_STAGE.key) (htoken : g.key ≠ Reg.CHS_STAT_TOKEN.key) :
    (s.halt n).get g = (s.haltLatch n).get g := by
  rw [halt_get n h, State.get_set_ne _ _ _ _ htoken, setStage_get_of_unposted _ hg hstage]
  unfold State.haltLatch
  dsimp only
  split <;> split
  · rfl
  · contradiction
  · contradiction
  · rfl

theorem haltLatch_get_of_ne (n : Nat) (hhalted : g.key ≠ Reg.ERA_STAT_HALTED.key)
    (hfirst : g.key ≠ Reg.ERA_HALT_FIRST.key) (hvalid : g.key ≠ Reg.ERA_HALT_VALID.key)
    (htime : g.key ≠ Reg.ERA_HALT_TIME.key) : (s.haltLatch n).get g = s.get g := by
  unfold State.haltLatch
  dsimp only
  split
  · exact State.get_set_ne _ _ _ _ hhalted
  · rw [State.get_set_ne _ _ _ _ htime, State.get_set_ne _ _ _ _ hvalid, State.get_set_ne _ _ _ _ hfirst,
      State.get_set_ne _ _ _ _ hhalted]

theorem haltLatch_halted (s : State) (n : Nat) : (s.haltLatch n).get Reg.ERA_STAT_HALTED = 1 := by
  have hfirst : Reg.ERA_STAT_HALTED.key ≠ Reg.ERA_HALT_FIRST.key := by decide
  have hvalid : Reg.ERA_STAT_HALTED.key ≠ Reg.ERA_HALT_VALID.key := by decide
  have htime : Reg.ERA_STAT_HALTED.key ≠ Reg.ERA_HALT_TIME.key := by decide
  unfold State.haltLatch
  dsimp only
  split
  · exact State.get_set_same _ _ _
  · rw [State.get_set_ne _ _ _ _ htime, State.get_set_ne _ _ _ _ hvalid, State.get_set_ne _ _ _ _ hfirst]
    exact State.get_set_same _ _ _

theorem halted_keeps_valid (s : State) :
    (s.set Reg.ERA_STAT_HALTED 1).on Reg.ERA_HALT_VALID = s.on Reg.ERA_HALT_VALID := by
  rw [State.on, State.on, State.get_set_ne _ _ _ _ (by decide)]

theorem haltLatch_of_valid (n : Nat) (hv : s.on Reg.ERA_HALT_VALID = true) :
    s.haltLatch n = s.set Reg.ERA_STAT_HALTED 1 := by
  have hv' : (s.set Reg.ERA_STAT_HALTED 1).on Reg.ERA_HALT_VALID = true := (halted_keeps_valid s).trans hv
  rw [State.haltLatch, if_pos hv']

theorem haltLatch_of_not_valid (n : Nat) (hv : s.on Reg.ERA_HALT_VALID = false) :
    s.haltLatch n =
      (((s.set Reg.ERA_STAT_HALTED 1).set Reg.ERA_HALT_FIRST n).set Reg.ERA_HALT_VALID 1).set Reg.ERA_HALT_TIME s.time := by
  have hv' : (s.set Reg.ERA_STAT_HALTED 1).on Reg.ERA_HALT_VALID = false := (halted_keeps_valid s).trans hv
  have htime : (s.set Reg.ERA_STAT_HALTED 1).time = s.time := State.get_set_ne _ _ _ _ (by decide)
  simp only [State.haltLatch, hv', htime, Bool.false_eq_true, if_false]

theorem halt_halted (s : State) (n : Nat) (h : s.halted = false) : (s.halt n).halted = true := by
  have hget : (s.halt n).get Reg.ERA_STAT_HALTED = 1 :=
    (halt_get_of_unposted n h (by decide) (by decide) (by decide)).trans (haltLatch_halted s n)
  simp [State.halted, State.on, hget]

theorem halt_stage (s : State) (n : Nat) (h : s.halted = false) : (s.halt n).stage = 0xF := by
  rw [State.stage, halt_get n h, State.get_set_ne _ _ _ _ (by decide)]
  exact (setStage_stage _ _).elim id id

theorem halt_token (s : State) (n : Nat) (h : s.halted = false) : (s.halt n).token = false := by
  have hget : (s.halt n).get Reg.CHS_STAT_TOKEN = 0 := (halt_get n h).trans (State.get_set_same _ _ _)
  simp [State.token, State.on, hget]

theorem halt_pins_low (s : State) (n : Nat) (h : s.halted = false) :
    (s.halt n).glb.alive = false ∧ (s.halt n).glb.hbOut = false := by
  rw [State.halt, if_neg (by simp [h])]
  dsimp only
  split
  · simp
  · split <;> simp

/-- Settles O18: the decision's writes, the latch of the first halt, and MORE for a further one. -/
theorem haltDecision : Obligations.HaltDecision := by
  unfold Obligations.HaltDecision
  refine ⟨fun s n h => ?_, fun s n h hv => ?_, fun s n h hv => ?_, fun s n h => halt_of_halted n h⟩
  · exact ⟨halt_halted s n h, halt_stage s n h, halt_token s n h, halt_pins_low s n h⟩
  · have hfirst : (s.halt n).get Reg.ERA_HALT_FIRST = n % 512 := by
      rw [halt_get_of_unposted n h (by decide) (by decide) (by decide), haltLatch_of_not_valid n hv,
        State.get_set_ne _ _ _ _ (by decide), State.get_set_ne _ _ _ _ (by decide)]
      exact State.get_set_same _ _ _
    have htime : (s.halt n).get Reg.ERA_HALT_TIME = s.time % 2 ^ 64 := by
      rw [halt_get_of_unposted n h (by decide) (by decide) (by decide), haltLatch_of_not_valid n hv]
      exact State.get_set_same _ _ _
    have hvalid : (s.halt n).get Reg.ERA_HALT_VALID = 1 := by
      rw [halt_get_of_unposted n h (by decide) (by decide) (by decide), haltLatch_of_not_valid n hv,
        State.get_set_ne _ _ _ _ (by decide)]
      exact State.get_set_same _ _ _
    exact ⟨hfirst, htime, by simp [State.on, hvalid]⟩
  · have hkept (g : Fld) (hg : unposted g = true) (h1 : g.key ≠ Reg.GLB_BOOTSTAT_STAGE.key)
        (h2 : g.key ≠ Reg.CHS_STAT_TOKEN.key) (h3 : g.key ≠ Reg.ERA_STAT_HALTED.key) : (s.halt n).get g = s.get g := by
      rw [halt_get_of_unposted n h hg h1 h2, haltLatch_of_valid n hv, State.get_set_ne _ _ _ _ h3]
    exact ⟨hkept _ (by decide) (by decide) (by decide) (by decide), hkept _ (by decide) (by decide) (by decide) (by decide)⟩

/-! ### A raise -/

/-- A field that the halt decision leaves alone. -/
def unhalted (g : Fld) : Bool :=
  unposted g && [Reg.GLB_BOOTSTAT_STAGE, Reg.CHS_STAT_TOKEN, Reg.ERA_STAT_HALTED, Reg.ERA_HALT_FIRST, Reg.ERA_HALT_VALID,
    Reg.ERA_HALT_TIME, Reg.ERA_HALT_MORE].all fun f => g.key != f.key

theorem unhalted_unposted (hg : unhalted g = true) : unposted g = true := ((Bool.and_eq_true _ _).mp hg).1

/-- The fields of the detector window lie at other bits than those that the halt decision writes. -/
theorem unhalted_fld {a lo : Nat} (w r i : Nat) (hlo : lo < 32) (ha : a < 0x100000)
    (hzero : unhalted (fld a lo w r 0) = true) : unhalted (fld a lo w r i) = true := by
  have hlt : a * 32 + lo < 0x2000000 := by omega
  have hkey (f : Fld) (hf : f.key < 0x2000000) (h0 : ((fld a lo w r 0).key != f.key) = true) :
      ((fld a lo w r i).key != f.key) = true := by
    have hmod : (fld a lo w r i).key % 0x2000000 = a * 32 + lo := fieldKey_mod hlt i
    have hkey0 : (fld a lo w r 0).key = a * 32 + lo := by
      show fieldKey a lo 0 = _
      unfold fieldKey
      omega
    rw [bne_iff_ne, hkey0] at h0
    rw [bne_iff_ne]
    intro he
    rw [he, Nat.mod_eq_of_lt hf] at hmod
    exact h0 hmod.symm
  rw [unhalted, Bool.and_eq_true, List.all_eq_true] at hzero ⊢
  obtain ⟨hpost, hall⟩ := hzero
  rw [unposted_fld w r 0 hlo ha] at hpost
  refine ⟨(unposted_fld w r i hlo ha).trans hpost, fun f hf => hkey f ?_ (hall f hf)⟩
  have hsmall : ∀ f ∈ [Reg.GLB_BOOTSTAT_STAGE, Reg.CHS_STAT_TOKEN, Reg.ERA_STAT_HALTED, Reg.ERA_HALT_FIRST,
      Reg.ERA_HALT_VALID, Reg.ERA_HALT_TIME, Reg.ERA_HALT_MORE], f.key < 0x2000000 := by decide
  exact hsmall f hf

theorem halt_get_of_unhalted (n : Nat) (hg : unhalted g = true) : (s.halt n).get g = s.get g := by
  have hne : ∀ f ∈ [Reg.GLB_BOOTSTAT_STAGE, Reg.CHS_STAT_TOKEN, Reg.ERA_STAT_HALTED, Reg.ERA_HALT_FIRST,
      Reg.ERA_HALT_VALID, Reg.ERA_HALT_TIME, Reg.ERA_HALT_MORE], g.key ≠ f.key := by
    simpa [unhalted] using ((Bool.and_eq_true _ _).mp hg).2
  simp only [List.mem_cons, List.not_mem_nil, or_false, forall_eq_or_imp, forall_eq] at hne
  obtain ⟨hstage, htoken, hhalted, hfirst, hvalid, htime, hmore⟩ := hne
  cases h : s.halted with
  | true =>
    rw [halt_of_halted n h]
    exact State.get_set_ne _ _ _ _ hmore
  | false =>
    rw [halt_get_of_unposted n h (unhalted_unposted hg) hstage htoken]
    exact haltLatch_get_of_ne n hhalted hfirst hvalid htime

theorem halt_dets (s : State) (n : Nat) : (s.halt n).era.dets = s.era.dets := by
  unfold State.halt
  split
  · rfl
  · dsimp only
    split
    · simp
    · split <;> simp

/-- The registers in which a raise is recorded. -/
def State.raiseMarks (s : State) (n esc param : Nat) : State :=
  let t := if (s.det n).status then s else s.set (Reg.ERA_DFIRST n) s.time
  let t := ((t.set (Reg.ERA_DLAST n) t.time).bump (Reg.ERA_DINFO_COUNT n)).set (Reg.ERA_DPARAM n) param
  if decide (s.baseClass n < esc) then t.set (Reg.ERA_DINFO_ESC n) 1 else t

/-- The raise as it is recorded: its marks, the detector's state, the event and the slug. -/
def State.raiseLogged (s : State) (n esc param : Nat) (inj : Bool) : State :=
  let inj := inj || s.era.injections.any fun x => x.det == n && x.param == param
  let c := s.classOf n esc
  let escd := decide (s.baseClass n < esc)
  let t := (s.raiseMarks n esc param).detMod n fun y =>
    { y with status := true, injected := inj || (y.status && y.injected), cls := if y.status then max y.cls c else c }
  let t := t.raiseEvt n c param inj escd
  t.slug (0x4000 + n) (c + 4 * b2n inj + 8 * b2n escd + 16 * b2n (t.det n).cause) param 1
    (t.time / 1000000) (t.get Reg.CHS_PNUM)

/-- A recorded raise joins the report of the start while none has gone out (R80). -/
def State.raiseReport (s : State) (n c : Nat) : State :=
  if s.glb.reported then s
  else { s with glb := { s.glb with raises := noteRaise s.glb.raises n c, raisesAll := s.glb.raisesAll + 1 } }

theorem raise_eq (s : State) (n esc param : Nat) (inj : Bool) :
    s.raise n esc param inj =
      let t := (s.raiseLogged n esc param inj).raiseReport n (s.classOf n esc)
      if s.classOf n esc = 2 then t.halt n
      else if s.classOf n esc = 1 then
        { t with era := { t.era with
            orders := t.era.orders ++ [(n, param, inj || s.era.injections.any fun x => x.det == n && x.param == param)] } }
      else t := rfl

theorem raiseReport_keeps (s : State) (n c : Nat) :
    (s.raiseReport n c).regs = s.regs ∧ (s.raiseReport n c).era = s.era ∧ (s.raiseReport n c).col = s.col := by
  unfold State.raiseReport
  split <;> exact ⟨rfl, rfl, rfl⟩

/-- Whatever its class, a raise leaves the detectors, the logs and all registers but those of a halt as its record does. -/
theorem raise_keeps_record (s : State) (n esc param : Nat) (inj : Bool) :
    (∀ g, unhalted g = true → (s.raise n esc param inj).get g = (s.raiseLogged n esc param inj).get g) ∧
    (s.raise n esc param inj).era.dets = (s.raiseLogged n esc param inj).era.dets ∧
    (s.raise n esc param inj).col = (s.raiseLogged n esc param inj).col := by
  obtain ⟨hregs, hera, hcol⟩ := raiseReport_keeps (s.raiseLogged n esc param inj) n (s.classOf n esc)
  have hget (g : Fld) : ((s.raiseLogged n esc param inj).raiseReport n (s.classOf n esc)).get g =
      (s.raiseLogged n esc param inj).get g := by rw [State.get, State.get, hregs]
  have hdets := congrArg Era.dets hera
  rw [raise_eq]
  dsimp only
  split
  · refine ⟨fun g hg => (halt_get_of_unhalted n hg).trans (hget g), (halt_dets _ n).trans hdets, ?_⟩
    simp [hcol]
  · split
    · exact ⟨fun g _ => hget g, hdets, hcol⟩
    · exact ⟨fun g _ => hget g, hdets, hcol⟩

theorem raiseLogged_get (n esc param : Nat) (inj : Bool) (hg : unposted g = true) :
    (s.raiseLogged n esc param inj).get g = (s.raiseMarks n esc param).get g := by
  unfold State.raiseLogged
  dsimp only
  rw [slug_get_of_unposted _ _ _ _ _ _ hg, raiseEvt_get_of_unposted _ _ _ _ _ hg]
  rfl

theorem raise_get_of_unhalted (n esc param : Nat) (inj : Bool) (hg : unhalted g = true) :
    (s.raise n esc param inj).get g = (s.raiseMarks n esc param).get g :=
  ((raise_keeps_record s n esc param inj).1 g hg).trans (raiseLogged_get n esc param inj (unhalted_unposted hg))

theorem det_detMod (s : State) (n : Nat) (f : Det → Det) : (s.detMod n f).det n = f (s.det n) :=
  Tab.get_put_same _ _ _ _

theorem raiseEvt_det_status (s : State) (n c param : Nat) (inj esc : Bool) :
    ((s.raiseEvt n c param inj esc).det n).status = (s.det n).status := by
  obtain ⟨f, hf, h | ⟨b, h⟩⟩ := raiseEvt_eq s n c param inj esc
  · rw [h, det_detMod, hf]
  · have hera : ((s.detMod n f).evt 8 0x0900 b).era = (s.detMod n f).era := by simp
    rw [h, State.det, hera]
    exact (congrArg Det.status (det_detMod s n f)).trans (hf _)

theorem raiseLogged_status (s : State) (n esc param : Nat) (inj : Bool) :
    ((s.raiseLogged n esc param inj).det n).status = true := by
  have hslug (t : State) (code sub p0 p1 p2 p3 : Nat) : (t.slug code sub p0 p1 p2 p3).det n = t.det n := by
    simp [State.det]
  unfold State.raiseLogged
  dsimp only
  rw [hslug, raiseEvt_det_status, det_detMod]

/-- A slug is written while the log stores take records (R528, R533). -/
theorem slug_getLast (s : State) (code sub p0 p1 p2 p3 : Nat) (h : s.col.finalCommit = 0) :
    ((s.slug code sub p0 p1 p2 p3).col.slugs.getLast?).map (fun e => (e.code, e.p0)) = some (code, p0 % 2 ^ 32) := by
  have hwrap (t : State) (store n cap oldest : Nat) : (t.storeWrap store n cap oldest).col = t.col := by simp
  rw [State.slug, if_neg (fun hne => hne.1 h)]
  dsimp only
  rw [hwrap]
  simp [State.openAdd, State.set]

theorem raiseLogged_getLast (s : State) (n esc param : Nat) (inj : Bool) (h : s.col.finalCommit = 0) :
    ((s.raiseLogged n esc param inj).col.slugs.getLast?).map (fun e => (e.code, e.p0)) =
      some (0x4000 + n, param % 2 ^ 32) := by
  have hmarks : (s.raiseMarks n esc param).col = s.col := by
    unfold State.raiseMarks
    dsimp only
    split <;> split <;> rfl
  have hevt (t : State) (c : Nat) (inj esc : Bool) : (t.raiseEvt n c param inj esc).col = t.col := by simp
  refine slug_getLast _ _ _ _ _ _ _ ?_
  rw [hevt]
  exact (congrArg Col.finalCommit hmarks).trans h

/-! ### The marks of a raise, field by field -/

theorem raiseMarks_get_of_not_esc (n esc param : Nat) (h : g.key ≠ (Reg.ERA_DINFO_ESC n).key) :
    (s.raiseMarks n esc param).get g =
      ((((if (s.det n).status then s else s.set (Reg.ERA_DFIRST n) s.time).set (Reg.ERA_DLAST n) s.time).bump
        (Reg.ERA_DINFO_COUNT n)).set (Reg.ERA_DPARAM n) param).get g := by
  have htime : (if (s.det n).status then s else s.set (Reg.ERA_DFIRST n) s.time).time = s.time := by
    split
    · rfl
    · exact State.get_set_ne _ _ _ _ (fieldKey_ne (by decide) (by decide) (by decide) 0 n)
  unfold State.raiseMarks
  dsimp only
  rw [htime]
  split
  · exact State.get_set_ne _ _ _ _ h
  · rfl

theorem raiseMarks_param (s : State) (n esc param : Nat) :
    (s.raiseMarks n esc param).get (Reg.ERA_DPARAM n) = param % 2 ^ 32 := by
  rw [raiseMarks_get_of_not_esc n esc param (fieldKey_ne (by decide) (by decide) (by decide) n n)]
  exact State.get_set_same _ _ _

theorem raiseMarks_count (s : State) (n esc param : Nat) :
    (s.raiseMarks n esc param).get (Reg.ERA_DINFO_COUNT n) = (s.bump (Reg.ERA_DINFO_COUNT n)).get (Reg.ERA_DINFO_COUNT n) := by
  have hlast : (Reg.ERA_DINFO_COUNT n).key ≠ (Reg.ERA_DLAST n).key := fieldKey_ne (by decide) (by decide) (by decide) n n
  have hfirst : (Reg.ERA_DINFO_COUNT n).key ≠ (Reg.ERA_DFIRST n).key := fieldKey_ne (by decide) (by decide) (by decide) n n
  have hparam : (Reg.ERA_DINFO_COUNT n).key ≠ (Reg.ERA_DPARAM n).key := fieldKey_ne (by decide) (by decide) (by decide) n n
  rw [raiseMarks_get_of_not_esc n esc param (fieldKey_ne (by decide) (by decide) (by decide) n n),
    State.get_set_ne _ _ _ _ hparam]
  unfold State.bump State.add
  rw [State.get_set_same, State.get_set_same, State.get_set_ne _ _ _ _ hlast]
  split
  · rfl
  · rw [State.get_set_ne _ _ _ _ hfirst]

theorem raiseMarks_last (s : State) (n esc param : Nat) :
    (s.raiseMarks n esc param).get (Reg.ERA_DLAST n) = s.time % 2 ^ 64 := by
  have hcount : (Reg.ERA_DLAST n).key ≠ (Reg.ERA_DINFO_COUNT n).key := fieldKey_ne (by decide) (by decide) (by decide) n n
  have hparam : (Reg.ERA_DLAST n).key ≠ (Reg.ERA_DPARAM n).key := fieldKey_ne (by decide) (by decide) (by decide) n n
  rw [raiseMarks_get_of_not_esc n esc param (fieldKey_ne (by decide) (by decide) (by decide) n n),
    State.get_set_ne _ _ _ _ hparam, State.bump, State.add, State.get_set_ne _ _ _ _ hcount]
  exact State.get_set_same _ _ _

theorem raiseMarks_first (s : State) (n esc param : Nat) :
    (s.raiseMarks n esc param).get (Reg.ERA_DFIRST n) =
      if (s.det n).status then s.get (Reg.ERA_DFIRST n) else s.time % 2 ^ 64 := by
  have hlast : (Reg.ERA_DFIRST n).key ≠ (Reg.ERA_DLAST n).key := fieldKey_ne (by decide) (by decide) (by decide) n n
  have hcount : (Reg.ERA_DFIRST n).key ≠ (Reg.ERA_DINFO_COUNT n).key := fieldKey_ne (by decide) (by decide) (by decide) n n
  have hparam : (Reg.ERA_DFIRST n).key ≠ (Reg.ERA_DPARAM n).key := fieldKey_ne (by decide) (by decide) (by decide) n n
  rw [raiseMarks_get_of_not_esc n esc param (fieldKey_ne (by decide) (by decide) (by decide) n n),
    State.get_set_ne _ _ _ _ hparam, State.bump, State.add, State.get_set_ne _ _ _ _ hcount,
    State.get_set_ne _ _ _ _ hlast]
  split
  · rfl
  · exact State.get_set_same _ _ _

/-- Settles O19: whatever the raise's class does afterwards leaves its record alone. -/
theorem raiseRecorded : Obligations.RaiseRecorded := by
  unfold Obligations.RaiseRecorded
  constructor
  · intro s n esc param inj
    obtain ⟨-, hdets, -⟩ := raise_keeps_record s n esc param inj
    have hstatus : ((s.raise n esc param inj).det n).status = true := by
      rw [State.det, hdets]
      exact raiseLogged_status s n esc param inj
    have hfirst : (s.raise n esc param inj).get (Reg.ERA_DFIRST n) = _ :=
      (raise_get_of_unhalted n esc param inj (unhalted_fld _ _ n (by decide) (by decide) (by decide))).trans
        (raiseMarks_first s n esc param)
    refine ⟨hstatus, ?_, ?_, ?_, fun h => ?_, fun h => ?_⟩
    · exact (raise_get_of_unhalted n esc param inj (unhalted_fld _ _ n (by decide) (by decide) (by decide))).trans
        (raiseMarks_count s n esc param)
    · exact (raise_get_of_unhalted n esc param inj (unhalted_fld _ _ n (by decide) (by decide) (by decide))).trans
        (raiseMarks_last s n esc param)
    · exact (raise_get_of_unhalted n esc param inj (unhalted_fld _ _ n (by decide) (by decide) (by decide))).trans
        (raiseMarks_param s n esc param)
    · rw [hfirst, h, if_neg Bool.false_ne_true]
    · rw [hfirst, h, if_pos rfl]
  · intro s n esc param inj hcommit
    obtain ⟨-, -, hcol⟩ := raise_keeps_record s n esc param inj
    rw [hcol]
    exact raiseLogged_getLast s n esc param inj hcommit

end Sys2Proof.Machine
end

section
/-! ## What the completion of a command leaves alone, and the queries (R113) -/
namespace Sys2Proof.Machine

/-- The state without what a completion may change: registers, the host's part, rings, output, and the count of Roscor frames
sent. -/
def State.beyondHost (s : State) : State :=
  { s with regs := [], hst := State.reset.hst, rings := [], out := [], ros := { s.ros with sent := 0 } }

variable (s : State)

theorem rosOut_beyondHost (type : Nat) (p : List Byte) : (s.rosOut type p).beyondHost = s.beyondHost := by
  unfold State.rosOut
  split <;> rfl

theorem ringMod_beyondHost (r : Nat) (f : RingX → RingX) : (s.ringMod r f).beyondHost = s.beyondHost := rfl

theorem dmaOut_beyondHost (a : Nat) (b : List Byte) : (s.dmaOut a b).beyondHost = s.beyondHost := by
  unfold State.dmaOut
  split <;> rfl

theorem closeBatch_beyondHost (r : Nat) : (s.closeBatch r).beyondHost = s.beyondHost := by
  simp [State.beyondHost]

theorem completeOne_beyondHost (r op : Nat) (d : Desc) (status done result : Nat) :
    (s.completeOne r op d status done result).beyondHost = s.beyondHost := by
  simp [State.beyondHost]

theorem completeMode_beyondHost (r op : Nat) (d : Desc) (status done result : Nat) :
    (s.completeMode r op d status done result).beyondHost = s.beyondHost := by
  simp [State.beyondHost]

theorem completeNow_beyondHost (r op : Nat) (d : Desc) (status done result : Nat) :
    (s.completeNow r op d status done result).beyondHost = s.beyondHost := by
  unfold State.completeNow
  split
  · rfl
  · dsimp only
    split
    · rw [rosOut_beyondHost]; rfl
    · split
      · rfl
      · rw [completeMode_beyondHost]; rfl

theorem dropBadOps_beyondHost (r n : Nat) : (s.dropBadOps r n).beyondHost = s.beyondHost := by
  induction n generalizing s with
  | zero => rfl
  | succ n ih =>
    unfold State.dropBadOps
    dsimp only
    split
    · rfl
    · split
      · rw [ih, completeNow_beyondHost]; rfl
      · split
        · rfl
        · rw [ih, completeNow_beyondHost]; rfl
      · rfl

theorem ringGoes_beyondHost (r : Nat) : (s.ringGoes r).beyondHost = s.beyondHost := by
  unfold State.ringGoes
  dsimp only
  split
  · rw [closeBatch_beyondHost, dropBadOps_beyondHost]
  · exact dropBadOps_beyondHost s r _

theorem fencesOver_beyondHost (n : Nat) : (s.fencesOver n).beyondHost = s.beyondHost := by
  induction n generalizing s with
  | zero => rfl
  | succ n ih =>
    unfold State.fencesOver
    split
    · rfl
    · rw [ih, ringGoes_beyondHost, completeOne_beyondHost]; rfl

theorem completeLate_beyondHost (r op : Nat) (d : Desc) (status done result : Nat) :
    (s.completeLate r op d status done result).beyondHost = s.beyondHost := by
  unfold State.completeLate
  dsimp only
  rw [fencesOver_beyondHost, ringGoes_beyondHost, completeNow_beyondHost]

theorem finish_beyondHost (a : Reply) (r op : Nat) (d : Desc) : (a.finish r op d).beyondHost = a.s.beyondHost := by
  unfold Reply.finish
  split
  · rfl
  · split
    · exact completeLate_beyondHost ..
    · split
      · exact completeLate_beyondHost ..
      · rw [completeLate_beyondHost, dmaOut_beyondHost]

/-- A command whose body changes no state changes nothing but what its completion does, and no calm register field. -/
theorem cmd_of_body_reads {body : State → Reply} (hbody : ∀ s, (body s).s = s) (r op : Nat) (d : Desc) (i : CmdInfo) :
    (s.cmd r op d i body).beyondHost = s.beyondHost ∧ s.only (s.cmd r op d i body) [] := by
  have hget (g : Fld) (hg : calm g = true) : (s.beginDesc r op d).get g = s.get g := by simp [hg]
  unfold State.cmd State.cmdOn
  split
  · exact ⟨rfl, s.only_refl _⟩
  · dsimp only
    split
    · exact ⟨finish_beyondHost _ r op d, fun g hg _ => (Reply.finish_get _ r op d g hg).trans (hget g hg)⟩
    · refine ⟨?_, fun g hg _ => ?_⟩
      · rw [finish_beyondHost, hbody]; rfl
      · rw [Reply.finish_get _ r op d g hg, hbody, hget g hg]

/-- Each query is a command of a CMD ring whose body changes no state. -/
theorem query_reads (c : Instr) (hc : queries c = true) :
    ∃ r op d i body, (∀ s, exec c s = .next (s.cmd r op d i body)) ∧ ∀ s, (body s).s = s := by
  cases c
  case trigRead r d =>
    refine ⟨_, _, _, _, _, fun s => rfl, fun s => ?_⟩
    dsimp only
    split <;> rfl
  case hdrRead r d =>
    refine ⟨_, _, _, _, _, fun s => rfl, fun s => ?_⟩
    dsimp only
    split <;> rfl
  all_goals simp only [queries, Bool.false_eq_true] at hc
  all_goals exact ⟨_, _, _, _, _, fun s => rfl, fun s => rfl⟩

/-- Settles O8. -/
theorem queryFrame : Obligations.QueryFrame := by
  unfold Obligations.QueryFrame
  intro c s hc
  obtain ⟨r, op, d, i, body, hexec, hbody⟩ := query_reads c hc
  obtain ⟨hbeyond, honly⟩ := cmd_of_body_reads s hbody r op d i
  have hros : { (s.cmd r op d i body).ros with sent := 0 } = { s.ros with sent := 0 } := congrArg State.ros hbeyond
  exact ⟨_, hexec s, honly, (congrArg State.nvm hbeyond :), (congrArg State.pendW hbeyond :), (congrArg State.chgNext hbeyond :),
    (congrArg State.staged hbeyond :), (congrArg State.nv hbeyond :), (congrArg State.glb hbeyond :), (congrArg State.watch hbeyond :),
    (congrArg State.era hbeyond :), (congrArg State.col hbeyond :), (congrArg State.spr hbeyond :), (congrArg State.ing hbeyond :),
    (congrArg State.prs hbeyond :), (congrArg State.gal hbeyond :), (congrArg State.trn hbeyond :), (congrArg State.chs hbeyond :),
    (congrArg State.bup hbeyond :), (congrArg State.est hbeyond :), (congrArg State.fen hbeyond :), (congrArg State.grp hbeyond :),
    (congrArg (fun x : Ros => { x with sent := (s.cmd r op d i body).ros.sent }) hros :),
    (congrArg State.upd hbeyond :), (congrArg State.prf hbeyond :), (congrArg State.free hbeyond :), (congrArg State.pending hbeyond :)⟩

end Sys2Proof.Machine
end

section
/-! ## The sorts of the Press leave everything beyond the Press and the module's records alone (R211) -/
namespace Sys2Proof.Machine

/-- The parts of the state that no sort changes. -/
def State.beyondPress (s : State) : State :=
  { State.reset with
    nvm := s.nvm, pendW := s.pendW, chgNext := s.chgNext, staged := s.staged, nv := s.nv, watch := s.watch, bup := s.bup,
    est := s.est, fen := s.fen, grp := s.grp, ros := { s.ros with sent := 0 }, upd := s.upd, pending := s.pending }

variable (s : State)

theorem beyondPress_of_beyondHost {s t : State} (h : t.beyondHost = s.beyondHost) : t.beyondPress = s.beyondPress :=
  (congrArg State.beyondPress h :)

/-! ### Reports -/

theorem count_beyondPress (n ev k kind : Nat) : (s.count n ev k kind).beyondPress = s.beyondPress := by
  simp [State.beyondPress]

theorem postEntry_beyondPress (r typ src : Nat) (confirmed : Bool) (inline : Bool → List Byte) (payload : List Byte)
    (stamp : Option Nat) : (s.postEntry r typ src confirmed inline payload stamp).beyondPress = s.beyondPress := by
  simp [State.beyondPress]

theorem evt_beyondPress (src typ : Nat) (inline : List Byte) : (s.evt src typ inline).beyondPress = s.beyondPress := by
  simp [State.beyondPress]

theorem slug_beyondPress (code sub p0 p1 p2 p3 : Nat) :
    (s.slug code sub p0 p1 p2 p3).beyondPress = s.beyondPress := by
  simp [State.beyondPress]

theorem rosOut_ros (type : Nat) (p : List Byte) :
    { (s.rosOut type p).ros with sent := 0 } = { s.ros with sent := 0 } := by
  unfold State.rosOut
  split <;> rfl

theorem halt_ros (n : Nat) : { (s.halt n).ros with sent := 0 } = { s.ros with sent := 0 } := by
  have hlatch (t : State) : (t.haltLatch n).ros = t.ros := by
    unfold State.haltLatch
    dsimp only
    split <;> rfl
  unfold State.halt
  split
  · rfl
  · dsimp only
    split
    · rw [rosOut_ros]
      simp
    · split
      · rw [rosOut_ros]
        simp
      · simp

theorem halt_beyondPress (n : Nat) : (s.halt n).beyondPress = s.beyondPress := by
  have hros := halt_ros s n
  simp only [Ros.mk.injEq] at hros
  simp [State.beyondPress, hros]

theorem raiseLogged_beyondPress (n esc param : Nat) (inj : Bool) :
    (s.raiseLogged n esc param inj).beyondPress = s.beyondPress := by
  have hevt (t : State) (c : Nat) (inj esc : Bool) : (t.raiseEvt n c param inj esc).beyondPress = t.beyondPress := by
    simp [State.beyondPress]
  have hmarks : (s.raiseMarks n esc param).beyondPress = s.beyondPress := by
    unfold State.raiseMarks
    dsimp only
    split <;> split <;> rfl
  unfold State.raiseLogged
  dsimp only
  rw [slug_beyondPress, hevt]
  exact hmarks

theorem raise_beyondPress (n esc param : Nat) (inj : Bool) : (s.raise n esc param inj).beyondPress = s.beyondPress := by
  have hreport (t : State) (c : Nat) : (t.raiseReport n c).beyondPress = t.beyondPress := by
    unfold State.raiseReport
    split <;> rfl
  have hera (t : State) (e : Era) : ({ t with era := e } : State).beyondPress = t.beyondPress := rfl
  rw [raise_eq]
  dsimp only
  split
  · rw [halt_beyondPress, hreport, raiseLogged_beyondPress]
  · split
    · rw [hera, hreport, raiseLogged_beyondPress]
    · rw [hreport, raiseLogged_beyondPress]

theorem foldl_beyondPress {α : Type} (l : List α) (f : State → α → State) (hf : ∀ s a, (f s a).beyondPress = s.beyondPress) :
    (l.foldl f s).beyondPress = s.beyondPress := foldl_keeps State.beyondPress l f s hf

/-! ### Rows written -/

theorem prsMod_beyondPress (f : Prs → Prs) : (s.prsMod f).beyondPress = s.beyondPress := rfl

theorem pwrite_beyondPress (a : Nat) (b : List Byte) : (s.pwrite a b).beyondPress = s.beyondPress := by
  unfold State.pwrite
  split
  · exact prsMod_beyondPress s _
  · exact prsMod_beyondPress s _

theorem sats_beyondPress (c : Ctx) (ks : Sats) (t : Nat) : (s.sats c ks t).beyondPress = s.beyondPress := by
  have hset (l : List Nat) : (l.foldl (fun s k => s.set (satFlag k) 1) s).beyondPress = s.beyondPress :=
    foldl_beyondPress s _ _ fun _ _ => rfl
  unfold State.sats
  dsimp only
  split
  · exact hset _
  · have hcount (l : List Nat) (u : State) (f : Nat → Nat) :
        (l.foldl (fun s j => s.count (s.physTb (f j)) 14 1 c.run.kind) u).beyondPress = u.beyondPress :=
      foldl_beyondPress u _ _ fun _ _ => count_beyondPress _ _ _ _ _
    split
    · exact (hcount _ _ _).trans (hset _)
    · exact (hcount _ _ _).trans (hset _)

theorem discardTb_beyondPress (t : Nat) : (s.discardTb t).beyondPress = s.beyondPress := by
  unfold State.discardTb
  split
  · rfl
  · refine (foldl_beyondPress _ _ _ fun s w => ?_).trans rfl
    exact (evt_beyondPress _ _ _ _).trans rfl

theorem guarded_beyondPress (c : Ctx) (x : Tensor) (a n : Nat) (f : State → Nat → State)
    (hf : ∀ s a, (f s a).beyondPress = s.beyondPress) : (s.guarded c x a n f).beyondPress = s.beyondPress := by
  unfold State.guarded
  split
  · exact (raise_beyondPress _ _ _ _ _).trans (discardTb_beyondPress s _)
  · exact hf s a

theorem rowPut_beyondPress (c : Ctx) (x : Tensor) (i : Inst) (r chans c0 : Nat) (vs : List Int) (row : Nat) :
    (s.rowPut c x i r chans c0 vs row).beyondPress = s.beyondPress := by
  unfold State.rowPut
  split
  · rw [sats_beyondPress, pwrite_beyondPress]
  · rw [sats_beyondPress, pwrite_beyondPress, pwrite_beyondPress]

theorem putRowAt_beyondPress (c : Ctx) (x : Tensor) (i : Inst) (r chans c0 : Nat) (vs : List Int) :
    (s.putRowAt c x i r chans c0 vs).beyondPress = s.beyondPress :=
  guarded_beyondPress s c x _ _ _ fun s a => rowPut_beyondPress s c x i r chans c0 vs a

theorem putRow_beyondPress (c : Ctx) (x : Tensor) (i : Inst) (r chans : Nat) (vs : List Int) :
    (s.putRow c x i r chans vs).beyondPress = s.beyondPress := putRowAt_beyondPress s c x i r chans 0 vs

theorem satsPutRow_beyondPress (c : Ctx) (ks : Sats) (t : Nat) (x : Tensor) (i : Inst) (r chans : Nat) (vs : List Int) :
    ((s.sats c ks t).putRow c x i r chans vs).beyondPress = s.beyondPress := by
  rw [putRow_beyondPress, sats_beyondPress]

theorem elems_beyondPress (c : Ctx) (d : Tensor) (op : State → Inst → Nat → Nat → W Int) :
    (s.elems c d op).beyondPress = s.beyondPress :=
  foldl_beyondPress s _ _ fun s _ => foldl_beyondPress s _ _ fun s _ => satsPutRow_beyondPress s ..

theorem copyRow_beyondPress (d x : Tensor) (dst src n : Nat) : (s.copyRow d x dst src n).beyondPress = s.beyondPress := by
  unfold State.copyRow
  split
  · rw [pwrite_beyondPress, pwrite_beyondPress]
  · rw [pwrite_beyondPress]

theorem noteMove_beyondPress (rows : List (List Nat × Nat × Nat)) (eff : State → State)
    (heff : ∀ s, (eff s).beyondPress = s.beyondPress) : (s.noteMove rows eff).beyondPress = s.beyondPress := by
  unfold State.noteMove
  split
  · exact heff s
  · exact heff s

/-! ### The sequencer -/

theorem countZero_beyondPress (c : Ctx) (pt : Nat) : (s.countZero c pt).beyondPress = s.beyondPress := by
  unfold State.countZero
  split
  · exact (count_beyondPress _ _ _ _ _).trans rfl
  · rfl

theorem tagRecord_beyondPress (c : Ctx) (pt no cyc : Nat) : (s.tagRecord c pt no cyc).beyondPress = s.beyondPress :=
  (foldl_beyondPress _ _ _ fun s _ => postEntry_beyondPress s ..).trans rfl

theorem tagSort_beyondPress (c : Ctx) (pt cyc : Nat) : (s.tagSort c pt cyc).beyondPress = s.beyondPress := by
  unfold State.tagSort
  dsimp only
  split
  · rfl
  · split
    all_goals split
    · exact tagRecord_beyondPress _ c pt _ cyc
    · rfl
    · exact tagRecord_beyondPress _ c pt _ cyc
    · rfl

theorem charge_beyondPress (c : Ctx) (t cyc : Nat) : (s.charge c t cyc).beyondPress = s.beyondPress := by
  unfold State.charge
  dsimp only
  rw [tagSort_beyondPress, countZero_beyondPress, count_beyondPress, count_beyondPress, count_beyondPress]
  split <;> rfl

theorem advance_beyondPress (slot t pc : Nat) : (s.advance slot t pc).beyondPress = s.beyondPress :=
  prsMod_beyondPress s _

theorem issue_beyondPress (t op cyc : Nat) (eff : State → Ctx → State)
    (heff : ∀ s c, (eff s c).beyondPress = s.beyondPress) : (s.issue t op cyc eff).beyondPress = s.beyondPress := by
  unfold State.issue
  split
  · rfl
  · split
    · rfl
    · rw [advance_beyondPress, charge_beyondPress, heff]

theorem issueV_beyondPress (t op cyc : Nat) (eff : State → Ctx → State)
    (heff : ∀ s c, (eff s c).beyondPress = s.beyondPress) : (s.issueV t op cyc eff).beyondPress = s.beyondPress := by
  unfold State.issueV
  split
  · rfl
  · split
    · rfl
    · split
      · rw [advance_beyondPress, charge_beyondPress, heff]
      · dsimp only
        split
        · rw [foldl_beyondPress _ _ _ fun s _ => advance_beyondPress s .., heff, State.runPut, prsMod_beyondPress,
            charge_beyondPress]
        · rw [State.runPut, prsMod_beyondPress, charge_beyondPress]

theorem sortEnd_beyondPress (t cyc : Nat) : (s.sortEnd t cyc).beyondPress = s.beyondPress := by
  unfold State.sortEnd
  split
  · rfl
  · split
    · rfl
    · rw [prsMod_beyondPress, charge_beyondPress]

theorem sortBar_beyondPress (t cyc : Nat) : (s.sortBar t cyc).beyondPress = s.beyondPress := by
  unfold State.sortBar
  split
  · rfl
  · split
    · rfl
    · rw [prsMod_beyondPress, charge_beyondPress]

theorem sortLoop_beyondPress (t cyc : Nat) : (s.sortLoop t cyc).beyondPress = s.beyondPress := by
  unfold State.sortLoop
  split
  · rfl
  · split
    · rfl
    · dsimp only
      split
      · rw [advance_beyondPress, charge_beyondPress]
      · rw [prsMod_beyondPress, charge_beyondPress]

/-! ### The effect of each sort -/

theorem loadWeights_beyondPress (c : Ctx) (d x : Tensor) (r src : Nat) :
    (s.loadWeights c d x r src).beyondPress = s.beyondPress := by
  refine foldl_beyondPress s _ _ fun s b => ?_
  dsimp only
  split
  · rfl
  · rw [State.loadBlock, prsMod_beyondPress, pwrite_beyondPress, pwrite_beyondPress]

theorem sortLoad_beyondPress (c : Ctx) : (s.sortLoad c).beyondPress = s.beyondPress := by
  unfold State.sortLoad
  split
  · split
    · exact foldl_beyondPress s _ _ fun s r => loadWeights_beyondPress s ..
    · exact foldl_beyondPress s _ _ fun s _ => foldl_beyondPress s _ _ fun s _ => copyRow_beyondPress s ..
  · rfl

theorem sortStore_beyondPress (c : Ctx) : (s.sortStore c).beyondPress = s.beyondPress := by
  unfold State.sortStore
  split
  · exact foldl_beyondPress s _ _ fun s _ => foldl_beyondPress s _ _ fun s _ =>
      guarded_beyondPress s _ _ _ _ _ fun s _ => copyRow_beyondPress s ..
  · rfl

theorem sortCopy_beyondPress (c : Ctx) : (s.sortCopy c).beyondPress = s.beyondPress := by
  unfold State.sortCopy
  split
  · exact noteMove_beyondPress s _ _ fun s => foldl_beyondPress s _ _ fun s _ => foldl_beyondPress s _ _ fun s _ =>
      foldl_beyondPress s _ _ fun s _ => copyRow_beyondPress s ..
  · rfl

theorem maskRow_beyondPress (m : Tensor) (a : Nat) (vs : List Nat) : (s.maskRow m a vs).beyondPress = s.beyondPress := by
  unfold State.maskRow
  split
  · exact (pwrite_beyondPress _ _ _).trans (pwrite_beyondPress _ _ _)
  · exact pwrite_beyondPress _ _ _

theorem sortInput_beyondPress (c : Ctx) : (s.sortInput c).beyondPress = s.beyondPress := by
  unfold State.sortInput
  split
  · rfl
  · refine foldl_beyondPress s _ _ fun s r => ?_
    dsimp only
    split
    · exact guarded_beyondPress s _ _ _ _ _ fun s _ => pwrite_beyondPress s ..
    · rw [guarded_beyondPress _ _ _ _ _ _ fun s _ => maskRow_beyondPress s ..,
        guarded_beyondPress _ _ _ _ _ _ fun s _ => pwrite_beyondPress s ..]

theorem sortEmit_beyondPress (c : Ctx) : (s.sortEmit c).beyondPress = s.beyondPress := by
  unfold State.sortEmit
  split
  · rfl
  · split
    · rfl
    · dsimp only
      split <;> rfl

theorem sortElem_beyondPress (op : Int → Int → Int → W Int) (c : Ctx) : (s.sortElem op c).beyondPress = s.beyondPress := by
  unfold State.sortElem
  split
  · exact elems_beyondPress s ..
  · rfl

theorem sortUnary_beyondPress (op : Ctx → Int → W Int) (c : Ctx) : (s.sortUnary op c).beyondPress = s.beyondPress := by
  unfold State.sortUnary
  split
  · exact elems_beyondPress s ..
  · rfl

theorem sortClamp_beyondPress (c : Ctx) : (s.sortClamp c).beyondPress = s.beyondPress := by
  unfold State.sortClamp
  split
  · exact elems_beyondPress s ..
  · rfl

theorem sortRescale_beyondPress (c : Ctx) : (s.sortRescale c).beyondPress = s.beyondPress := by
  unfold State.sortRescale
  split
  · exact elems_beyondPress s ..
  · rfl

theorem sortLut_beyondPress (c : Ctx) : (s.sortLut c).beyondPress = s.beyondPress := by
  unfold State.sortLut
  split
  · exact elems_beyondPress s ..
  · rfl

theorem sortGapply_beyondPress (c : Ctx) : (s.sortGapply c).beyondPress = s.beyondPress := by
  unfold State.sortGapply
  split
  · exact elems_beyondPress s ..
  · rfl

theorem sortReduce_beyondPress (op : List (Int × Inst) → W Int) (c : Ctx) :
    (s.sortReduce op c).beyondPress = s.beyondPress := by
  unfold State.sortReduce
  split
  · dsimp only
    split
    · refine foldl_beyondPress s _ _ fun s i => ?_
      split
      · exact foldl_beyondPress s _ _ fun s _ => satsPutRow_beyondPress s ..
      · exact satsPutRow_beyondPress s ..
    · exact noteMove_beyondPress s _ _ fun s => foldl_beyondPress s _ _ fun s _ => foldl_beyondPress s _ _ fun s _ =>
        satsPutRow_beyondPress s ..
  · rfl

theorem sortScan_beyondPress (c : Ctx) : (s.sortScan c).beyondPress = s.beyondPress := by
  unfold State.sortScan
  split
  · refine foldl_beyondPress s _ _ fun s i => ?_
    rw [pwrite_beyondPress, foldl_beyondPress _ _ _ fun s _ => putRow_beyondPress s .., sats_beyondPress]
  · rfl

theorem sortAttn_beyondPress (c : Ctx) : (s.sortAttn c).beyondPress = s.beyondPress := by
  unfold State.sortAttn
  split
  · exact foldl_beyondPress s _ _ fun s _ => foldl_beyondPress s _ _ fun s _ => satsPutRow_beyondPress s ..
  · rfl

theorem sortMmul_beyondPress (c : Ctx) : (s.sortMmul c).beyondPress = s.beyondPress := by
  unfold State.sortMmul
  split
  · refine noteMove_beyondPress s _ _ fun s => foldl_beyondPress s _ _ fun s g => ?_
    dsimp only
    split
    · rfl
    · refine foldl_beyondPress s _ _ fun s r => ?_
      rw [putRowAt_beyondPress, sats_beyondPress]
  · rfl

theorem sortGouter_beyondPress (c : Ctx) : (s.sortGouter c).beyondPress = s.beyondPress := by
  unfold State.sortGouter
  split
  · exact noteMove_beyondPress s _ _ fun s => foldl_beyondPress s _ _ fun s _ => foldl_beyondPress s _ _ fun s _ =>
      satsPutRow_beyondPress s ..
  · rfl

theorem sort_beyondPress (c : Instr) (hc : sorts c = true) :
    Gives c s fun t => t.beyondPress = s.beyondPress := by
  cases c
  case sortNop t cyc => exact ⟨_, rfl, issue_beyondPress s t _ cyc _ fun _ _ => rfl⟩
  case endSort t cyc => exact ⟨_, rfl, sortEnd_beyondPress s t cyc⟩
  case bar t cyc => exact ⟨_, rfl, sortBar_beyondPress s t cyc⟩
  case loop t cyc => exact ⟨_, rfl, sortLoop_beyondPress s t cyc⟩
  case load t cyc => exact ⟨_, rfl, issue_beyondPress s t _ cyc _ sortLoad_beyondPress⟩
  case store t cyc => exact ⟨_, rfl, issue_beyondPress s t _ cyc _ sortStore_beyondPress⟩
  case copy t cyc => exact ⟨_, rfl, issue_beyondPress s t _ cyc _ sortCopy_beyondPress⟩
  case input t cyc => exact ⟨_, rfl, issue_beyondPress s t _ cyc _ sortInput_beyondPress⟩
  case emit t cyc => exact ⟨_, rfl, issue_beyondPress s t _ cyc _ sortEmit_beyondPress⟩
  case mmul t cyc => exact ⟨_, rfl, issueV_beyondPress s t _ cyc _ sortMmul_beyondPress⟩
  case gouter t cyc => exact ⟨_, rfl, issueV_beyondPress s t _ cyc _ sortGouter_beyondPress⟩
  case add t cyc => exact ⟨_, rfl, issue_beyondPress s t _ cyc _ fun s => sortElem_beyondPress s _⟩
  case sub t cyc => exact ⟨_, rfl, issue_beyondPress s t _ cyc _ fun s => sortElem_beyondPress s _⟩
  case mul t cyc => exact ⟨_, rfl, issue_beyondPress s t _ cyc _ fun s => sortElem_beyondPress s _⟩
  case max t cyc => exact ⟨_, rfl, issue_beyondPress s t _ cyc _ fun s => sortElem_beyondPress s _⟩
  case min t cyc => exact ⟨_, rfl, issue_beyondPress s t _ cyc _ fun s => sortElem_beyondPress s _⟩
  case shift t cyc => exact ⟨_, rfl, issue_beyondPress s t _ cyc _ fun s => sortUnary_beyondPress s _⟩
  case convert t cyc => exact ⟨_, rfl, issue_beyondPress s t _ cyc _ fun s => sortUnary_beyondPress s _⟩
  case clamp t cyc => exact ⟨_, rfl, issue_beyondPress s t _ cyc _ sortClamp_beyondPress⟩
  case rescale t cyc => exact ⟨_, rfl, issue_beyondPress s t _ cyc _ sortRescale_beyondPress⟩
  case rsum t cyc => exact ⟨_, rfl, issueV_beyondPress s t _ cyc _ fun s => sortReduce_beyondPress s _⟩
  case rmax t cyc => exact ⟨_, rfl, issueV_beyondPress s t _ cyc _ fun s => sortReduce_beyondPress s _⟩
  case lut t cyc => exact ⟨_, rfl, issue_beyondPress s t _ cyc _ sortLut_beyondPress⟩
  case scan t cyc => exact ⟨_, rfl, issue_beyondPress s t _ cyc _ sortScan_beyondPress⟩
  case attn t cyc => exact ⟨_, rfl, issue_beyondPress s t _ cyc _ sortAttn_beyondPress⟩
  case gapply t cyc => exact ⟨_, rfl, issue_beyondPress s t _ cyc _ sortGapply_beyondPress⟩
  all_goals exact absurd hc Bool.false_ne_true

/-- Settles O9: no sort's effect, and nothing of its issue, reaches beyond the Press, the host's part and the records. -/
theorem sortFrame : Obligations.SortFrame := by
  unfold Obligations.SortFrame
  intro c s hc
  obtain ⟨t, hexec, h⟩ := sort_beyondPress s c hc
  have hros : { t.ros with sent := 0 } = { s.ros with sent := 0 } := congrArg State.ros h
  exact ⟨t, hexec, (congrArg State.nvm h :), (congrArg State.pendW h :), (congrArg State.chgNext h :),
    (congrArg State.staged h :), (congrArg State.nv h :), (congrArg State.watch h :), (congrArg State.bup h :),
    (congrArg State.est h :), (congrArg State.fen h :), (congrArg State.grp h :),
    (congrArg (fun x : Ros => { x with sent := t.ros.sent }) hros :), (congrArg State.upd h :), (congrArg State.pending h :)⟩

end Sys2Proof.Machine
end

section
/-! ## Sorts as their textblock issues them (R211 to R226) -/
namespace Sys2Proof.Machine

section Issue
variable {s : State} {t cyc op : Nat} {c : Ctx}

theorem issue_of_next (eff : State → Ctx → State) (hnext : s.nextSort t = some c) (hop : c.w.op = op) :
    s.issue t op cyc eff = ((eff s c).charge c t cyc).advance c.run.slot t (c.x.pc + 1) := by
  simp [State.issue, hnext, hop]

theorem issueV_of_scope_ne (eff : State → Ctx → State) (hnext : s.nextSort t = some c) (hop : c.w.op = op)
    (hscope : c.w.scope ≠ 4) :
    s.issueV t op cyc eff = ((eff s c).charge c t cyc).advance c.run.slot t (c.x.pc + 1) := by
  simp [State.issueV, hnext, hop, hscope]

/-- A sort of the volume: its textblock waits at it, and the last one to come has it executed over all of them. -/
theorem issueV_of_volume (eff : State → Ctx → State) (hnext : s.nextSort t = some c) (hop : c.w.op = op)
    (hscope : c.w.scope = 4) :
    s.issueV t op cyc eff =
      (let u := s.charge c t cyc
       let r := ((u.prs.runs.find? fun q => q.slot == c.run.slot).getD c.run).tbMod t
         fun x => { x with wait := 5, since := s.time }
       let q := ((u.runPut r).prs.runs.find? fun q => q.slot == c.run.slot).getD c.run
       if (c.run.v.used.all fun k => (q.tb k).wait == 5 && (q.tb k).pc == c.x.pc) = true
       then c.run.v.used.foldl (fun s k => s.advance c.run.slot k (c.x.pc + 1)) (eff (u.runPut r) c) else u.runPut r) := by
  rw [State.issueV, hnext]
  dsimp only
  rw [if_neg (not_not_intro hop), if_neg (not_not_intro hscope)]

/-! ### The cycles of a sort take no time of the module's clock -/

theorem time_set_of_lt {f : Fld} (v : Nat) (h : Reg.CHS_TIME.key < f.key) : (s.set f v).time = s.time :=
  State.get_set_ne s f _ v (Nat.ne_of_lt h)

theorem time_lt_counter (n k : Nat) : Reg.CHS_TIME.key < (Reg.PRF_CNT n k).key := by
  show fieldKey 0x30018 0 0 < fieldKey (0xB0110 + 0x100 * n + 8 * k) 0 0
  unfold fieldKey
  omega

theorem time_lt_sticky (n : Nat) : Reg.CHS_TIME.key < (Reg.PRF_OVF_CNT n).key := by
  show fieldKey 0x30018 0 0 < fieldKey (0xB0100 + 0x100 * n) 0 0
  unfold fieldKey
  omega

theorem count_time (s : State) (n ev k kind : Nat) : (s.count n ev k kind).time = s.time := by
  unfold State.count
  split
  · rfl
  · refine foldl_keeps State.time _ _ _ fun s j => ?_
    split
    · unfold State.countTo
      dsimp only
      split
      · rw [time_set_of_lt _ (time_lt_sticky n), time_set_of_lt _ (time_lt_counter n j)]
      · exact time_set_of_lt _ (time_lt_counter n j)
    · rfl

theorem countZero_time (s : State) (c : Ctx) (pt : Nat) : (s.countZero c pt).time = s.time := by
  unfold State.countZero
  split
  · exact count_time _ _ _ _ _
  · rfl

theorem tagRecord_time (s : State) (c : Ctx) (pt no cyc : Nat) : (s.tagRecord c pt no cyc).time = s.time :=
  (foldl_keeps State.time _ _ _ fun s r => postEntry_get_of_unposted r _ _ _ _ _ _ (by decide)).trans
    (time_set_of_lt _ (by decide))

theorem tagSort_time (s : State) (c : Ctx) (pt cyc : Nat) : (s.tagSort c pt cyc).time = s.time := by
  unfold State.tagSort
  dsimp only
  split
  · rfl
  · split
    all_goals split
    · exact tagRecord_time _ c pt _ cyc
    · rfl
    · exact tagRecord_time _ c pt _ cyc
    · rfl

theorem charge_time (s : State) (c : Ctx) (t cyc : Nat) : (s.charge c t cyc).time = s.time := by
  unfold State.charge
  dsimp only
  rw [tagSort_time, countZero_time, count_time, count_time, count_time]
  split <;> rfl

end Issue

/-- Settles O36: each is issued as its textblock's next sort; the control sorts have a place of their own to go on from. -/
theorem controlAndMovementSorts : Obligations.ControlAndMovementSorts := by
  unfold Obligations.ControlAndMovementSorts
  refine ⟨?_, ?_, ?_, ?_, ?_, ?_⟩
  · intro s t cyc c hnext hop
    exact congrArg Host.Outcome.next (issue_of_next _ hnext hop)
  · intro s t cyc c hnext hop
    change execEndSort .. = _
    simp [execEndSort, State.sortEnd, hnext, hop]
  · intro s t cyc c hnext hop
    change execBar .. = _
    simp [execBar, State.sortBar, hnext, hop, charge_time]
  · intro s t cyc c hnext hop hn
    change execLoop .. = _
    simp [execLoop, State.sortLoop, hnext, hop, hn]
  · intro s t cyc c hnext hop hn
    change execLoop .. = _
    simp [execLoop, State.sortLoop, hnext, hop, hn]
  · and_intros
    all_goals
      intro s t cyc c hnext hop
      exact congrArg Host.Outcome.next (issue_of_next _ hnext hop)

/-- Settles O37. -/
theorem elementSorts : Obligations.ElementSorts := by
  unfold Obligations.ElementSorts
  and_intros
  all_goals
    intro s t cyc c hnext hop
    exact congrArg Host.Outcome.next (issue_of_next _ hnext hop)

/-- Settles O38: below SCOPE 4 such a sort is issued as any other; at SCOPE 4 by `issueV_of_volume`. -/
theorem volumeSorts : Obligations.VolumeSorts := by
  unfold Obligations.VolumeSorts
  refine ⟨?_, ?_, ?_, ?_, ?_, ?_, ?_, ?_⟩
  all_goals intro s t cyc c hnext hop hscope
  · exact congrArg Host.Outcome.next (issueV_of_scope_ne _ hnext hop hscope)
  · exact congrArg Host.Outcome.next (issueV_of_volume _ hnext hop hscope)
  · exact congrArg Host.Outcome.next (issueV_of_scope_ne _ hnext hop hscope)
  · exact congrArg Host.Outcome.next (issueV_of_volume _ hnext hop hscope)
  · exact congrArg Host.Outcome.next (issueV_of_scope_ne _ hnext hop hscope)
  · exact congrArg Host.Outcome.next (issueV_of_volume _ hnext hop hscope)
  · exact congrArg Host.Outcome.next (issueV_of_scope_ne _ hnext hop hscope)
  · exact congrArg Host.Outcome.next (issueV_of_volume _ hnext hop hscope)

end Sys2Proof.Machine
end

section
/-! ## Commands that a ring serves, and the queries (R113, R177) -/
namespace Sys2Proof.Machine

section Served
variable {c : Instr} {s : State} {r op : Nat} {d : Desc} {i : CmdInfo}

theorem dmaOn_of_serves (h : s.serves 0 r op d i) : s.dmaOn = true := by
  obtain ⟨⟨-, -, hdma, -, -⟩, -, -⟩ := h
  exact hdma

theorem check_of_serves (h : s.serves 0 r op d i) : s.check r 0 d i = none := by
  obtain ⟨-, hcheck, -⟩ := h
  exact hcheck

theorem buf_of_serves (h : s.serves 0 r op d i) (hi : i.buf = .writes) : d.buf ≠ none := by
  obtain ⟨-, -, hbuf⟩ := h
  exact hbuf hi

/-- A command of a CMD ring that its ring serves is its body's answer (R113). -/
theorem exec_of_served {body : State → Reply} (harm : exec c s = .next (s.cmd r op d i body))
    (hserves : s.serves 0 r op d i) : exec c s = .next ((body (s.beginDesc r op d)).finish r op d) := by
  rw [harm, s.cmd_served r op d i body hserves]

/-- A query that its ring serves writes its image and completes OK with DONE the image's length. -/
theorem exec_of_image {body : State → Reply} {n : Nat} {b : List Byte} (harm : exec c s = .next (s.cmd r op d i body))
    (hserves : s.serves 0 r op d i) (hbuf : i.buf = .writes) (hn : n ≠ 0)
    (hbody : body (s.beginDesc r op d) = image (s.beginDesc r op d) n b) :
    exec c s = .next ((s.imaged r op d n b).completeLate r op d 0 n 0) := by
  rw [exec_of_served harm hserves, hbody, image_finish _ n _ r op d hn (buf_of_serves hserves hbuf)]
  rfl

end Served

/-- Settles O31: the image of each is a list of registers. -/
theorem registerQueries : Obligations.RegisterQueries := by
  unfold Obligations.RegisterQueries
  and_intros
  all_goals
    intro s r d hserves
    exact exec_of_image rfl hserves rfl (by decide) rfl

/-- A command that answers bytes which its buffer takes. -/
theorem finish_of_data (s : State) (st done result r op : Nat) (d : Desc) (b : List Byte) (hb : b ≠ []) (hbuf : d.buf ≠ none) :
    Reply.finish { s := s, status := some st, done := done, result := result, data := b } r op d =
      (s.dmaOut d.addr b).completeLate r op d st done result := by
  simp [Reply.finish, hb, hbuf]

theorem lenOk_of_check {s : State} {r cls : Nat} {d : Desc} {i : CmdInfo} (h : s.check r cls d i = none)
    (hbuf : i.buf = .writes) : i.lenOk d.len = true := by
  by_contra hlen
  grind [State.check]

theorem memRead_data_ne_nil {s : State} {r : Nat} {d : Desc} {p : Bool} (f : Nat → Byte)
    (h : s.check r 0 d { priv := 3, buf := .writes, lenOk := fun n => 64 ≤ n && n ≤ 1048576 && n % 64 == 0, parOk := p } = none) :
    (List.range d.len).map f ≠ [] := by
  have hlen := lenOk_of_check h rfl
  simp at hlen ⊢
  omega

/-- COL_READ answers the records' bytes, which may be none, with their number as its RESULT. -/
theorem colRead_finish (s : State) (r : Nat) (d : Desc) (out : List (List Byte)) (hdma : s.dmaOn = true)
    (hbuf : d.buf ≠ none) :
    Reply.finish { image s (out.flatMap fun x => x).length (out.flatMap fun x => x) with result := out.length } r 0x0A04 d =
      (let b := fit (out.flatMap fun x => x).length (out.flatMap fun x => x)
       (if b.isEmpty then s else s.emit (.dma d.addr b)).completeLate r 0x0A04 d 0 (out.flatMap fun x => x).length out.length) := by
  simp only [Reply.finish, image, if_neg hbuf, State.dmaOut, hdma, if_true]
  split <;> rfl

/-- Settles O32: what each image holds, by the equations of the query's body. -/
theorem tableQueries : Obligations.TableQueries := by
  unfold Obligations.TableQueries
  refine ⟨?_, ?_, ?_, ?_, ?_, ?_, ?_, ?_, ?_, ?_, ?_, ?_, ?_, ?_, ?_, ?_, ?_⟩
  -- MEM_READ of a textblock in service
  · intro s r d hserves htb
    have htb' : bit ((s.beginDesc r 0x0202 d).get Reg.PRS_STAT_TBSVC) (bits d.p0 0 2) = true := htb
    rw [exec_of_served rfl hserves]
    dsimp only
    rw [htb', Bool.not_true, if_neg Bool.false_ne_true]
    exact congrArg Host.Outcome.next
      (finish_of_data _ _ _ _ _ _ _ _ (memRead_data_ne_nil _ (check_of_serves hserves)) (buf_of_serves hserves rfl))
  -- MEM_READ of a textblock out of service
  · intro s r d hserves htb
    have htb' : bit ((s.beginDesc r 0x0202 d).get Reg.PRS_STAT_TBSVC) (bits d.p0 0 2) = false := htb
    rw [exec_of_served rfl hserves]
    dsimp only
    rw [htb', Bool.not_false, if_pos rfl, bad_finish]
  -- FORME_QUERY of an empty slot
  · intro s r d hserves hforme
    have hforme' : ((s.beginDesc r 0x0216 d).slotX (bits d.p0 0 8)).forme = none := hforme
    exact exec_of_image rfl hserves rfl (by decide) (by simp only [hforme'])
  -- FORME_DIGEST
  · intro s r d hserves
    exact exec_of_image rfl hserves rfl (by decide) rfl
  -- GALLEY_QUERY without a plan
  · intro s r d hserves hplan hwait
    have hplan' : (s.beginDesc r 0x0300 d).gal.plan = none := hplan
    have hwait' : (s.beginDesc r 0x0300 d).gal.planWait = [] := hwait
    exact exec_of_image rfl hserves rfl (by decide) (by
      simp only [hplan', hwait', Option.isSome_none, List.isEmpty_nil, Bool.not_true, Bool.false_eq_true, if_false])
  -- BANK_READ
  · intro s r d hserves hn
    exact exec_of_image rfl hserves rfl (by omega) rfl
  -- PHASE_QUERY
  · intro s r d hserves hn
    exact exec_of_image rfl hserves rfl (by omega) rfl
  -- GROUP_QUERY without a contract
  · intro s r d hserves hnone
    have hnone' : (s.beginDesc r 0x0710 d).grp.inForce = none := hnone
    exact exec_of_image rfl hserves rfl (by decide) (by simp only [hnone'])
  -- BUP_RING_QUERY
  · intro s r d hserves
    exact exec_of_image rfl hserves rfl (by decide) rfl
  -- EST_QUERY
  · intro s r d hserves
    exact exec_of_image rfl hserves rfl (by decide) rfl
  -- EST_TABLE_READ
  · intro s r d hserves hn
    exact exec_of_image rfl hserves rfl hn rfl
  -- EST_RECORDS
  · intro s r d hserves
    exact exec_of_image rfl hserves rfl (by decide) rfl
  -- ERA_DETAIL
  · intro s r d hserves
    exact exec_of_image rfl hserves rfl (by decide) rfl
  -- SEAT_HEALTH
  · intro s r d hserves
    exact exec_of_image rfl hserves rfl (by decide) rfl
  -- TRIG_READ
  · intro s r d hserves hlen
    rw [exec_of_served rfl hserves]
    exact congrArg (fun a : Reply => Host.Outcome.next (a.finish r 0x0A02 d)) (if_neg (Nat.not_lt.mpr hlen))
  -- COL_READ
  · intro s r d hserves
    have hdma : s.dmaOn = true := dmaOn_of_serves hserves
    rw [exec_of_served rfl hserves]
    exact congrArg Host.Outcome.next (colRead_finish _ _ _ _ hdma (buf_of_serves hserves rfl))
  -- HDR_READ
  · intro s r d hserves hst
    exact exec_of_image rfl hserves rfl (by decide) (if_neg hst)

end Sys2Proof.Machine
end

section
/-! ## The first step of a hierarchy change (R167) -/
namespace Sys2Proof.Machine

/-- A change from one textblock to two that adds textblock 1, begun and at its first step. -/
def growingChange : HierChg :=
  { st := { no := 1, block := 2, opcode := 0x0200, target := 0, old := 1, new := 2, ring := 0, due := 8, act := .own }
    old := 1, new := 2, begun := true, tbs := [1] }

/-- The module after reset with that change in progress. -/
def growingState : State := { State.reset with prs := { State.reset.prs with hier := some growingChange } }

/-- At its first step a change starts a scrub of the textblocks it adds. -/
theorem hierChangeStepDone_scrubs :
    Gives .hierChangeStepDone growingState fun t => t.get (Reg.PRS_TB_STAT_SCRUB 1) = 1 :=
  ⟨_, rfl, by decide +kernel⟩

/-- Refutes O33: its clause on the steps leaves out that the first step of a change that adds textblocks also starts their
scrub, which is seen in the change of `growingState`. -/
theorem not_hierarchyChanges : ¬ Obligations.HierarchyChanges := by
  intro h
  obtain ⟨-, -, -, -, -, -, hstep, -⟩ := h
  have hclaim := hstep growingState growingChange rfl rfl
  obtain ⟨t, hexec, hscrub⟩ := hierChangeStepDone_scrubs
  rw [hclaim, Host.Outcome.next.injEq] at hexec
  rw [← hexec] at hscrub
  revert hscrub
  decide +kernel

end Sys2Proof.Machine
end

section
/-! ## What the checks of the Press find (R153, R154, R158, R159, R171 to R174) -/
namespace Sys2Proof.Machine

theorem pwrite_spine (s : State) (a : Nat) (b : List Byte) : (s.pwrite a b).prs.spine = s.prs.spine := by
  unfold State.pwrite
  split <;> rfl

theorem emitDrop_spine (s : State) : s.emitDrop.prs.spine = s.prs.spine := by
  unfold State.emitDrop
  split
  · rfl
  · dsimp only
    split <;> rfl

theorem moveDrop_spine (s : State) (port : Nat) : (s.moveDrop port).prs.spine = s.prs.spine := by
  refine foldl_keeps (fun s : State => s.prs.spine) _ _ s fun s r => ?_
  split
  · exact pwrite_spine s _ _
  · rfl

theorem dropRecord_spine (s : State) (port : Nat) : (s.dropRecord port).prs.spine = s.prs.spine := by
  unfold State.dropRecord
  split
  · rfl
  · dsimp only
    split <;> rfl

/-- What an uncorrectable error of a spine port drops leaves the errors counted at the ports alone (R154). -/
theorem spineDrop_spine (s : State) (port : Nat) : (s.spineDrop port).prs.spine = s.prs.spine := by
  unfold State.spineDrop
  dsimp only
  split
  · exact emitDrop_spine _
  · split
    · exact moveDrop_spine _ port
    · exact dropRecord_spine _ port

/-! ### The textblocks in service while a run is stopped -/

theorem physTb_lt (s : State) (t : Nat) : s.physTb t < 4 := by
  unfold State.physTb
  cases h : s.tbs[t]? with
  | none => decide
  | some k =>
    have hmem : k ∈ s.tbs := List.mem_of_getElem? h
    exact List.mem_range.mp (List.mem_of_mem_filter hmem)

theorem physTb_of_get {s u : State} (h : u.get Reg.PRS_STAT_TBSVC = s.get Reg.PRS_STAT_TBSVC) (t : Nat) :
    u.physTb t = s.physTb t := by
  rw [State.physTb, State.physTb, State.tbs, State.tbs, h]

theorem prsMod_get (s : State) (f : Prs → Prs) (g : Fld) : (s.prsMod f).get g = s.get g := rfl

theorem slotMod_get (s : State) (i : Nat) (f : Slot → Slot) (g : Fld) : (s.slotMod i f).get g = s.get g := rfl

/-- Abandoning a run writes no calm field but the count of abandoned runs. -/
theorem abandon_get (s : State) (slot cause : Nat) {g : Fld} (hg : calm g = true) (hne : g.key ≠ Reg.PRS_FABANDON.key) :
    (s.abandon slot cause).get g = s.get g := by
  have hcount (l : List Nat) (k : Nat) (u : State) :
      (l.foldl (fun s t => s.count (s.physTb t) 13 1 k) u).get g = u.get g :=
    foldl_keeps (fun s : State => s.get g) _ _ _ fun s t => State.count_get _ _ _ _ _ (by have := physTb_lt s t; omega) _ hg
  have hbump (u : State) : (u.bump Reg.PRS_FABANDON).get g = u.get g := State.get_set_ne _ _ _ _ hne
  unfold State.abandon
  split
  · rfl
  · dsimp only
    split
    all_goals
      simp only [State.completeLate_get, State.raise_get, State.evt_get, hg, hcount]
      rw [State.get_ite]
      simp only [State.countProof, prsMod_get, hbump]
      rw [State.get_ite]
      simp [slotMod_get, prsMod_get]

theorem planDrop_get (s : State) (basis reason status : Nat) {g : Fld} (hg : calm g = true)
    (hne : g.key ≠ Reg.PRS_GAL_PDISC.key) : (s.planDrop basis reason status).get g = s.get g := by
  unfold State.planDrop
  rw [State.evt_get _ _ _ _ g hg]
  exact State.get_set_ne _ _ _ _ hne

theorem stopRun_get (s : State) (slot cause : Nat) {g : Fld} (hg : calm g = true)
    (hne : g.key ≠ Reg.PRS_FABANDON.key ∧ g.key ≠ Reg.PRS_GAL_PDISC.key) : (s.stopRun slot cause).get g = s.get g := by
  unfold State.stopRun
  split
  · rfl
  · dsimp only
    split
    · rw [planDrop_get _ _ _ _ hg hne.2, abandon_get s slot cause hg hne.1]
    · split
      · exact abandon_get s slot cause hg hne.1
      · exact abandon_get s slot cause hg hne.1

theorem stopRun_physTb (s : State) (slot cause t : Nat) : (s.stopRun slot cause).physTb t = s.physTb t :=
  physTb_of_get (stopRun_get s slot cause (by decide) (by decide)) t

theorem tbCe_ne {a lo : Nat} (t : Nat) (hlo : lo < 32) (ha : a < 0x20100 ∨ a % 0x40 ≠ 0xC) :
    fieldKey a lo 0 ≠ (Reg.PRS_TB_CE t).key := by
  show fieldKey a lo 0 ≠ fieldKey (0x2010C + 0x40 * t) 0 0
  unfold fieldKey
  omega

theorem tbSpare_ne_tbCe (t : Nat) : (Reg.PRS_TB_SPARE_BANK t).key ≠ (Reg.PRS_TB_CE t).key := by
  show fieldKey (0x20108 + 0x40 * t) 12 0 ≠ fieldKey (0x2010C + 0x40 * t) 0 0
  unfold fieldKey
  omega

/-- A bank with spare rows to spare takes one, and is not due for sparing itself (R172). -/
theorem rowSpare_of_room (s : State) (t bank off : Nat) (hrows : Tab.get s.prs.bankRows (bankKey t bank) 0 < 47)
    (hbad : Tab.get s.prs.bankRows (bankKey t bank) 0 + Tab.get s.prs.bankBad (bankKey t bank) 0 < 63) :
    s.rowSpare t bank off =
      (let u := (s.prsMod fun p =>
        { p with bankRows := Tab.put p.bankRows (bankKey t bank) (Tab.get p.bankRows (bankKey t bank) 0 + 1) }).bump
          (Reg.PRS_TB_SPARE_ROWSP t)
       u.evt 2 0x0204 (le 1 t ++ le 1 1 ++ le 2 (u.get (Reg.PRS_TB_SPARE_BANK t)) ++ le 8 off)) := by
  have hroom : ¬ 64 ≤ Tab.get s.prs.bankRows (bankKey t bank) 0 + Tab.get s.prs.bankBad (bankKey t bank) 0 := by omega
  have hnext : ¬ (47 ≤ Tab.get s.prs.bankRows (bankKey t bank) 0 ∨
      64 ≤ Tab.get s.prs.bankRows (bankKey t bank) 0 + 1 + Tab.get s.prs.bankBad (bankKey t bank) 0) := by omega
  rw [State.rowSpare, if_neg hroom]
  dsimp only
  rw [State.bankDue]
  simp [State.prsMod, Tab.get_put_same, hnext]

/-- A textblock whose patrol scrub goes on: it is in service and the scrub is on, or it is scrubbed fast (R171). -/
theorem scrub_runs {s : State} {t : Nat}
    (h : bit (s.get Reg.PRS_STAT_TBSVC) t = true ∧ s.on Reg.PRS_SCRUB_CTL_EN = true ∨ s.prs.fastScrub.contains t = true) :
    ¬ ((!s.prs.fastScrub.contains t) = true ∧
      ((!bit (s.get Reg.PRS_STAT_TBSVC) t) = true ∨ (!s.on Reg.PRS_SCRUB_CTL_EN) = true)) := by
  rcases h with ⟨hsvc, hon⟩ | hfast
  · simp [hsvc, hon]
  · rw [hfast]
    simp

/-- Settles O34: each finding's effect, by the equations of its handler. -/
theorem pressChecks : Obligations.PressChecks := by
  unfold Obligations.PressChecks
  refine ⟨?_, ?_, ?_, ?_, ?_, ?_, ?_, ?_, ?_, ?_, ?_, ?_, ?_, ?_, ?_, ?_, ?_, ?_⟩
  -- a residue mismatch of a leaf
  · exact fun s unit => rfl
  -- the CRC of a leaf, bad again within a second
  · intro s u t hfind hlt
    change execWeightCrcSweep .. = _
    simp [execWeightCrcSweep, State.leafCrc, hfind, hlt]
  -- the CRC of a leaf, bad for the first time
  · intro s u hfind
    change execWeightCrcSweep .. = _
    simp [execWeightCrcSweep, State.leafCrc, hfind]
  -- a good CRC
  · exact fun s u => rfl
  -- a corrected error of a spine port
  · exact fun s port => rfl
  -- an uncorrectable error of a spine port
  · intro s port
    change execSpineError .. = _
    simp [execSpineError, State.spineUe, State.spineRaise, spineDrop_spine, State.prsMod]
  -- a barrier below the volume is released
  · intro s t level r hruns hlevel hwait
    change execBarrierRelease .. = _
    simp [execBarrierRelease, State.barRelease, hruns, hlevel, hwait]
  -- a barrier of the volume is released
  · intro s t r hruns hall
    change execBarrierRelease .. = _
    simp only [execBarrierRelease, State.barRelease, hruns, List.foldl_cons, List.foldl_nil, if_true, hall]
  -- a barrier names a unit
  · intro s t level unit r hfirst hlevel
    change execBarrierTimeout .. = _
    simp only [execBarrierTimeout, State.barTimeout, hfirst, if_neg hlevel, State.barRaise]
    rw [← stopRun_physTb s r.slot 3 t]
    rfl
  -- a corrected DRAM error
  · intro s t bank row off hthr
    have htime : (s.bump (Reg.PRS_TB_CE t)).time = s.time := State.get_set_ne _ _ _ _ (tbCe_ne t (by decide) (by decide))
    have hthr' : (s.bump (Reg.PRS_TB_CE t)).get Reg.PRS_SCRUB_CTL_CETHR = 0 :=
      (State.get_set_ne _ _ _ _ (tbCe_ne t (by decide) (by decide))).trans hthr
    change execDramCorrectable .. = _
    simp only [execDramCorrectable, State.dramCe, hthr', htime]
    rfl
  -- a corrected error of two bits takes a spare row
  · intro s t bank row off hrows hbad
    exact congrArg Host.Outcome.next (rowSpare_of_room _ t bank off hrows hbad)
  -- a corrected error that spans rows takes a spare bank
  · intro s t bank row off n hcopy hn
    have hn' : (s.bump (Reg.PRS_TB_CE t)).get (Reg.PRS_TB_SPARE_BANK t) = n + 1 :=
      (State.get_set_ne _ _ _ _ (tbSpare_ne_tbCe t)).trans hn
    have hcopy' : (t, bank) ∉ s.prs.bankCopy := by simpa using hcopy
    change execDramCorrectable .. = _
    simp [execDramCorrectable, State.dramCe, State.bankSpare, hn', hcopy']
  -- an uncorrectable error outside models and captures
  · intro s t bank row off b hoff
    change execDramUncorrectable t bank row off b s = _
    simp [execDramUncorrectable, State.dramUe, regionOf, hoff]
  -- an uncorrectable error in a model
  · intro s t bank row off b hlo hhi
    have hregion : regionOf off = 2 := by
      unfold regionOf
      split_ifs <;> omega
    change execDramUncorrectable t bank row off b s = _
    simp only [execDramUncorrectable, State.dramUe, hregion]
  -- a bank has been spared
  · intro s t bank hcopy
    change execBankSpareDone .. = _
    simp only [execBankSpareDone, hcopy, if_true]
  -- patrol scrub of textblock 0 goes on
  · intro s n bank hon hn
    have hn' : n ≠ 100 := by omega
    change execPatrolScrub .. = _
    simp only [execPatrolScrub, State.scrub]
    rw [if_neg (scrub_runs hon)]
    simp [hn, hn', State.setB, b2n]
  -- patrol scrub of textblock 3 has gone round
  · intro s bank hon
    change execPatrolScrub .. = _
    simp only [execPatrolScrub, State.scrub]
    rw [if_neg (scrub_runs hon)]
    simp [State.setB, b2n]
  -- no patrol scrub of a textblock out of service
  · intro s t n bank a b hfast hoff
    have hidle : (!s.prs.fastScrub.contains t) = true ∧
        ((!bit (s.get Reg.PRS_STAT_TBSVC) t) = true ∨ (!s.on Reg.PRS_SCRUB_CTL_EN) = true) := by
      rw [hfast]
      simpa using hoff
    change execPatrolScrub .. = _
    simp only [execPatrolScrub, State.scrub]
    rw [if_pos hidle]

end Sys2Proof.Machine
end

section
/-! ## Formes and their runs (R231 to R237) -/
namespace Sys2Proof.Machine

/-! ### Reports neither read nor write the Press -/

section Reports
variable (s : State) (f : Prs → Prs)

theorem count_prsMod (n ev k kind : Nat) : (s.prsMod f).count n ev k kind = (s.count n ev k kind).prsMod f := by
  unfold State.count
  rw [apply_ite (State.prsMod · f)]
  refine if_congr Iff.rfl rfl ?_
  refine List.foldl_hom (fun s : State => s.prsMod f) fun s c => ?_
  rw [apply_ite (State.prsMod · f)]
  refine if_congr Iff.rfl ?_ rfl
  unfold State.countTo
  dsimp only
  rw [apply_ite (State.prsMod · f)]
  rfl

theorem msixSend_prsMod (v : Nat) : (s.prsMod f).msixSend v = (s.msixSend v).prsMod f := by
  unfold State.msixSend
  dsimp only
  rw [apply_ite (State.prsMod · f)]
  exact if_congr Iff.rfl rfl (count_prsMod (s.emit (.msix v)) f 5 4 1 0)

theorem moderate_prsMod (r : Nat) : (s.prsMod f).moderate r = (s.moderate r).prsMod f := by
  unfold State.moderate
  dsimp only
  rw [apply_ite (State.prsMod · f), apply_ite (State.prsMod · f)]
  refine if_congr Iff.rfl rfl (if_congr Iff.rfl ?_ rfl)
  exact msixSend_prsMod (s.ringMod r fun x => { x with since := 0 }) f (s.get (Reg.HST_RIRQ_VECTOR r))

theorem putEntry_prsMod (r : Nat) (entry : Bool → List Byte) :
    (s.prsMod f).putEntry r entry = (s.putEntry r entry).prsMod f := by
  unfold State.putEntry
  dsimp only
  rw [← moderate_prsMod, ← count_prsMod]
  rfl

theorem emitUnless_prsMod (c : Prop) [Decidable c] (o : Output) :
    (if c then s.prsMod f else (s.prsMod f).emit o) = (if c then s else s.emit o).prsMod f := by
  split <;> rfl

theorem postEntry_prsMod (r typ src : Nat) (confirmed : Bool) (inline : Bool → List Byte) (payload : List Byte)
    (stamp : Option Nat) :
    (s.prsMod f).postEntry r typ src confirmed inline payload stamp =
      (s.postEntry r typ src confirmed inline payload stamp).prsMod f := by
  unfold State.postEntry
  dsimp only
  rw [apply_ite (State.prsMod · f)]
  refine if_congr Iff.rfl rfl ?_
  rw [← putEntry_prsMod]
  rw [emitUnless_prsMod]
  rfl

theorem evt_prsMod (src typ : Nat) (inline : List Byte) : (s.prsMod f).evt src typ inline = (s.evt src typ inline).prsMod f :=
  List.foldl_hom (fun s : State => s.prsMod f) fun s _ => postEntry_prsMod s f ..

theorem storeWrap_prsMod (store n cap oldest : Nat) :
    (s.prsMod f).storeWrap store n cap oldest = (s.storeWrap store n cap oldest).prsMod f := by
  unfold State.storeWrap
  rw [apply_ite (State.prsMod · f), ← evt_prsMod]
  rfl

theorem logC_prsMod (o : Origin) (kind chgNo opcode block target old new : Nat) (digest : Bool) :
    (s.prsMod f).logC o kind chgNo opcode block target old new digest =
      (s.logC o kind chgNo opcode block target old new digest).prsMod f := by
  unfold State.logC
  dsimp only
  rw [apply_ite (State.prsMod · f), ← storeWrap_prsMod]
  rfl

theorem changeDone_prsMod (c : Staged) (outcome steps failure : Nat) :
    (s.prsMod f).changeDone c outcome steps failure = (s.changeDone c outcome steps failure).prsMod f := by
  unfold State.changeDone
  dsimp only
  rw [logC_prsMod, ← evt_prsMod]
  split
  all_goals split
  all_goals rfl

end Reports

theorem run_find_slot {l : List Run} {slot : Nat} {r : Run} (h : l.find? (fun r => r.slot == slot) = some r) : r.slot = slot := by
  simpa using List.find?_some h

theorem tab_put_put {α : Type} (t : Tab α) (k : Nat) (v w : α) : Tab.put (Tab.put t k v) k w = Tab.put t k w := by
  induction t with
  | nil => simp [Tab.put]
  | cons p t ih =>
    simp only [Tab.put]
    split
    · simp [Tab.put]
    · split
      · simp [Tab.put]
      · rename_i hne hlt
        simp [Tab.put, hne, hlt, ih]

theorem slotMod_slotMod (s : State) (i : Nat) (f g : Slot → Slot) :
    (s.slotMod i f).slotMod i g = s.slotMod i fun x => g (f x) := by
  unfold State.slotMod State.slotX State.prsMod
  simp [Tab.get_put_same, tab_put_put]

theorem changeDone_slotX (s : State) (c : Staged) (outcome steps failure i : Nat) :
    (s.changeDone c outcome steps failure).slotX i = s.slotX i := by
  unfold State.slotX
  simp

theorem changeDone_slotMod (s : State) (c : Staged) (outcome steps failure i : Nat) (f : Slot → Slot) :
    (s.slotMod i f).changeDone c outcome steps failure = (s.changeDone c outcome steps failure).slotMod i f := by
  simp only [State.slotMod, changeDone_slotX, changeDone_prsMod]

/-- A forme staged before gives way to the one that a commit stages now (R233). -/
theorem stagedOff_slotMod (s : State) (i : Nat) (f : Forme) (c : Staged) :
    ((s.stagedOff i).slotMod i fun x => { x with load := none, staged := some (f, c), due := none }) =
      (match (s.slotX i).staged with
        | some (_, b) => (s.unstage b.no).changeDone b 1 0 0x14
        | none => s).slotMod i fun x => { x with load := none, staged := some (f, c), due := none } := by
  unfold State.stagedOff
  cases h : (s.slotX i).staged with
  | some p =>
    dsimp only
    rw [changeDone_slotMod, slotMod_slotMod]
  | none => rfl

theorem formeLimit_room {kind n : Nat} (h0 : kind = 0 → n < 4) (h1 : kind = 1 → n = 0) (h2 : 2 ≤ kind → n < 256) :
    ¬ enLimit kind ≤ n := by
  match kind with
  | 0 => have := h0 rfl; simp [enLimit]; omega
  | 1 => have := h1 rfl; simp [enLimit]; omega
  | k + 2 => have := h2 (by omega); simp [enLimit]; omega

/-- The run that begins on a slot whose forme `f` has the variant `v` in its leaves (R236). -/
def newRun (s : State) (i : Nat) (f : Forme) (v : Variant) (cycle step : Nat) (ing : Inputs) (cmd : Option (Nat × Desc)) : Run :=
  { slot := i, kind := f.kind, cycle := cycle, step := step, v := v, f := f, tbs := List.replicate 4 {}, inputs := ing,
    cmd := cmd, inst := (s.slotX i).inst }

theorem beginRun_of_forme {s : State} {i : Nat} {f : Forme} {v : Variant} (cycle step : Nat) (ing : Inputs)
    (cmd : Option (Nat × Desc)) (hforme : (s.slotX i).forme = some f) (hvariant : (s.slotX i).variant = some v) :
    s.beginRun i cycle step ing cmd =
      s.prsMod fun p => { p with runs := p.runs ++ [newRun s i f v cycle step ing cmd] } := by
  unfold State.beginRun
  rw [hforme, hvariant]
  rfl

theorem logC_slotX (s : State) (o : Origin) (kind chgNo opcode block target old new i : Nat) (digest : Bool) :
    (s.logC o kind chgNo opcode block target old new digest).slotX i = s.slotX i := by
  unfold State.slotX
  simp

theorem imposition_waits {s : State}
    (h : s.time % 20000 ≠ 0 ∨ s.prs.hierEnd = some s.time ∨ s.glb.mgmtDown = true) :
    ¬ (s.time % 20000 = 0 ∧ s.prs.hierEnd ≠ some s.time ∧ (!s.glb.mgmtDown) = true) := by
  rintro ⟨htime, hend, hmgmt⟩
  rcases h with h | h | h
  · exact h htime
  · exact hend h
  · simp [h] at hmgmt

/-- Settles O35, clause by clause; a commit over a forme still staged needs `stagedOff_slotMod`, a run `beginRun_of_forme`. -/
theorem formeCommands : Obligations.FormeCommands := by
  unfold Obligations.FormeCommands
  refine ⟨?_, ?_, ?_, ?_, ?_, ?_, ?_, ?_, ?_, ?_, ?_, ?_, ?_, ?_, ?_, ?_, ?_, ?_, ?_, ?_, ?_⟩
  -- FORME_OPEN of a slot that no other ring loads
  · intro s r d hserves hbusy hload
    have hfree : ((s.beginDesc r 0x0210 d).pressBusy ||
        ((s.beginDesc r 0x0210 d).slotX (bits d.p0 0 8)).load.any fun l => l.ring != r) = false :=
      (Bool.or_eq_false_iff).mpr ⟨hbusy, hload⟩
    rw [exec_of_served rfl hserves]
    simp [hfree]
  -- FORME_WRITE within the container
  · intro s r d l hserves hload hring hlen
    have hload' : ((s.beginDesc r 0x0211 d).slotX (bits d.p0 0 8)).load = some l := hload
    rw [exec_of_served rfl hserves]
    simp [hload', hring, Nat.not_lt.mpr hlen]
  -- FORME_WRITE beyond its end
  · intro s r d l hserves hload hring hlen
    have hload' : ((s.beginDesc r 0x0211 d).slotX (bits d.p0 0 8)).load = some l := hload
    rw [exec_of_served rfl hserves]
    simp [hload', hring, hlen]
  -- FORME_COMMIT of a container that passes its checks
  · intro s r d l f c i u p hserves hbusy hload hring hcheck hfind
    have hbusy' : u.pressBusy = false := hbusy
    have hload' : (u.slotX i).load = some l := hload
    rw [exec_of_served rfl hserves]
    simp only [u, i, p] at *
    simp only [hbusy', hload', hcheck, hring, hfind, Bool.false_eq_true, if_false, ne_eq, not_true, staged_finish,
      stagedOff_slotMod] <;> rfl
  -- FORME_COMMIT of a container that fails one
  · intro s r d l x i u hserves hbusy hload hring hcheck
    have hbusy' : u.pressBusy = false := hbusy
    have hload' : (u.slotX i).load = some l := hload
    rw [exec_of_served rfl hserves]
    simp only [u, i] at *
    simp [hbusy', hload', hring, hcheck, State.refuseForme]
  -- FORME_ABORT
  · intro s r d hserves
    rw [exec_of_served rfl hserves]
    rfl
  -- the load has timed out
  · exact fun s i => rfl
  -- FORME_UNLOAD
  · intro s r d u p hserves hbusy
    have hbusy' : u.pressBusy = false := hbusy
    rw [exec_of_served rfl hserves]
    simp [hbusy', u, p]
  -- FORME_ENABLE that takes a slot out
  · intro s r d i u p hserves hbusy hoff hcode
    have hbusy' : u.pressBusy = false := hbusy
    have hcode' : (u.slotX i).code = 3 := hcode
    rw [exec_of_served rfl hserves]
    simp only [u, i, p] at *
    simp [hbusy', hcode', hoff]
  -- FORME_ENABLE that puts a slot in
  · intro s r d f i u p hserves hbusy hon hcode hforme hproof hplan haux hfit
    have hbusy' : u.pressBusy = false := hbusy
    have hcode' : (u.slotX i).code = 3 := hcode
    have hforme' : (u.slotX i).forme = some f := hforme
    have hfit' : u.willFit i f.kind (u.slotX i).wcyc = true := hfit
    have hlimit : ¬ enLimit f.kind ≤ u.willEnOf f.kind i := formeLimit_room
      (fun h => h ▸ hproof h) (fun h => h ▸ hplan h) haux
    rw [exec_of_served rfl hserves]
    simp only [u, i, p] at *
    simp [hbusy', hcode', hon, hforme', hfit', hlimit]
  -- FORME_ENABLE of a slot that cannot run
  · intro s r d hserves hbusy hoff hcode
    have hbusy' : (s.beginDesc r 0x0215 d).pressBusy = false := hbusy
    have hcode' : ((s.beginDesc r 0x0215 d).slotX (bits d.p0 0 8)).code ≠ 3 := hcode
    rw [exec_of_served rfl hserves]
    simp [hbusy', hcode', hoff, State.refuseForme]
  -- FORME_RUN
  · intro s r d f v i hserves hforme hkind hvariant hrun hbusy hidle
    have hforme' : ((s.beginDesc r 0x0217 d).slotX i).forme = some f := hforme
    have hvariant' : ((s.beginDesc r 0x0217 d).slotX i).variant = some v := hvariant
    have hrun' : (s.beginDesc r 0x0217 d).on Reg.PRS_FCTL_RUN = true := hrun
    have hbusy' : (s.beginDesc r 0x0217 d).pressBusy = false := hbusy
    rw [exec_of_served rfl hserves]
    simp only [i] at *
    have hchosen : ((s.beginDesc r 0x0217 d).slotX (bits d.p0 0 8)).chosen = true := by
      simp [Slot.chosen, hvariant']
    have hfree : ((s.beginDesc r 0x0217 d).pressBusy ||
        (s.beginDesc r 0x0217 d).prs.runs.any fun q => q.cmd.isSome) = false := (Bool.or_eq_false_iff).mpr ⟨hbusy, hidle⟩
    have hbegin := beginRun_of_forme (s := (s.beginDesc r 0x0217 d).logC (.host r) 2 0 0x0217 2 (bits d.p0 0 8) 0 0)
      (s.get Reg.PRS_GAL_CYC) 0 s.prs.inputs (some (r, d)) ((congrArg Slot.forme (logC_slotX ..)).trans hforme)
      ((congrArg Slot.variant (logC_slotX ..)).trans hvariant)
    simp only [hforme', hchosen, hrun', hfree, hkind, Option.any_some, bne_self_eq_false, Bool.not_true, Bool.or_self,
      Bool.false_eq_true, if_false]
    refine congrArg Host.Outcome.next (hbegin.trans ?_)
    have hcyc : ((s.beginDesc r 0x0217 d).logC (.host r) 2 0 0x0217 2 (bits d.p0 0 8) 0 0).get Reg.PRS_GAL_CYC =
        s.get Reg.PRS_GAL_CYC := State.logC_get (hg := rfl) ..
    simp only [newRun, logC_slotX, hkind, hcyc, State.logC_keeps]
    rfl
  -- the imposition of a copied forme
  · intro s i f c v u htime hend hmgmt hstaged hen hpick
    have htakes : u.takesOk i f v = true := by
      have hen' : (u.slotX i).en = false := hen
      simp [State.takesOk, hen']
    simp only [u] at *
    change execFormeImpose .. = _
    simp [execFormeImpose, State.formeImpose, State.formeTakes, htime, hend, hmgmt, hstaged, hpick, htakes, Option.filter]
  -- the imposition of a forme whose copy failed
  · intro s i f c htime hend hmgmt hstaged
    change execFormeImpose .. = _
    simp [execFormeImpose, State.formeImpose, htime, hend, hmgmt, hstaged]
  -- an imposition that waits for its boundary
  · intro s i b hwait hstaged
    have hnot : ¬ (s.time % 20000 = 0 ∧ s.prs.hierEnd ≠ some s.time ∧ (!s.glb.mgmtDown) = true) := imposition_waits hwait
    change execFormeImpose .. = _
    simp only [execFormeImpose, if_neg hnot, hstaged, if_true]
  -- nothing to impose
  · intro s i b hwait hstaged
    have hnot : ¬ (s.time % 20000 = 0 ∧ s.prs.hierEnd ≠ some s.time ∧ (!s.glb.mgmtDown) = true) := imposition_waits hwait
    change execFormeImpose .. = _
    simp only [execFormeImpose, if_neg hnot, hstaged, Option.isSome_none, Bool.false_eq_true, if_false]
  -- the variant is in its leaves
  · intro s i v hready hvariant
    change execVariantLoadDone .. = _
    simp [execVariantLoadDone, hready, hvariant]
  -- a PROOF run ends
  · intro s slot r hfind hkind hover
    have hover' : r.over = true := hover
    change execRunEnd .. = _
    simp only [execRunEnd, hfind, hover', if_true, State.runEnd, hkind, State.runDone, State.countProof]
  -- the run of a FORME_RUN ends
  · intro s slot ring r d hfind hkind hcmd hover
    have hover' : r.over = true := hover
    change execRunEnd .. = _
    simp [execRunEnd, hfind, hover', State.runEnd, hkind, hcmd, State.runDone]
  -- a plan's run is overdue
  · intro s r hruns hkind hover hdue
    change execPlanRunOverdue .. = _
    simp [execPlanRunOverdue, hruns, hkind, hover, hdue, State.stopRun]
  -- the run of a FORME_RUN has timed out
  · intro s slot r hfind hkind hcmd
    have hslot := run_find_slot hfind
    have hany : (s.prs.runs.any fun r => r.slot == slot && r.cmd.isSome) = true :=
      List.any_eq_true.mpr ⟨r, List.mem_of_find?_eq_some hfind, by simp [hslot, hcmd]⟩
    change execFormeRunTimeout .. = _
    simp only [execFormeRunTimeout, hany, if_true, State.stopRun, hfind, hkind]
    simp

end Sys2Proof.Machine
end

section
/-! ## Reset, the encoding, and input power (R26 to R51) -/
namespace Sys2Proof.Machine

/-- Settles O17: at reset no field is written, so every field reads as its reset value. -/
theorem resetValues : Obligations.ResetValues := by
  unfold Obligations.ResetValues
  refine ⟨fun f => rfl, ?_, ?_, fun r => ⟨rfl, rfl⟩, fun t => ⟨rfl, rfl, rfl⟩⟩
  · exact ⟨rfl, rfl, rfl, rfl, rfl, rfl, rfl⟩
  · exact ⟨rfl, rfl, rfl, rfl, rfl, rfl, rfl, rfl, rfl, rfl, rfl, rfl⟩

/-- Settles O21: the table of the rows holds no bits to decode. -/
theorem noWordSpellsACommand : Obligations.NoWordSpellsACommand := by
  unfold Obligations.NoWordSpellsACommand
  exact ⟨fun _ _ => rfl, fun _ _ _ => rfl⟩

/-- The tones that the module hears returned, in the next state. -/
def tonesReturned : Out State → List Bool
  | .next s => s.glb.toneRet
  | _ => []

/-- A module under power that hears its first tone returned. -/
def toneHeard : State := { State.reset with glb := { present := true, powered := true, toneRet := [true] } }

/-- The loss sequence forgets the tones heard, beside those it sends. -/
theorem inputLoss_tonesReturned : tonesReturned (exec (.inputLoss 0 0) toneHeard) = [false, false, false, false] := by
  decide +kernel

/-- Refutes O22: its clause on the loss of input keeps the tones that the module hears returned, and the model clears them. -/
theorem not_powerSignals : ¬ Obligations.PowerSignals := by
  unfold Obligations.PowerSignals
  rintro ⟨-, -, -, -, hloss, -⟩
  have hkept := inputLoss_tonesReturned
  rw [hloss toneHeard 0 0 rfl rfl] at hkept
  exact absurd hkept (by decide +kernel)

/-- The module at stage ERRATA that hears its first tone returned. -/
def toneHeardAtStart : State := toneHeard.set Reg.GLB_BOOTSTAT_STAGE 1

/-- Flyleaf forgets the tones heard, beside those that the module sends. -/
theorem enterFlyleaf_tonesReturned :
    tonesReturned (exec (.enterFlyleaf 2) toneHeardAtStart) = [false, false, false, false] := by
  decide +kernel

/-- Refutes O24: its clause on Flyleaf keeps the tones that the module hears returned, and the model clears them. -/
theorem not_startStages : ¬ Obligations.StartStages := by
  unfold Obligations.StartStages
  rintro ⟨-, -, -, -, -, -, -, -, -, -, -, -, hfly, -⟩
  have hkept := enterFlyleaf_tonesReturned
  rw [hfly toneHeardAtStart (by decide +kernel) (by decide +kernel)] at hkept
  exact absurd hkept (by decide +kernel)

/-! ## The module's own measurements -/

/-- Settles O23: each signal, on its branch. -/
theorem measurementSignals : Obligations.MeasurementSignals := by
  unfold Obligations.MeasurementSignals
  refine ⟨?_, ?_, ?_, ?_, ?_, ?_, ?_, ?_, ?_, ?_, ?_, ?_, ?_, ?_, ?_⟩
  -- a window of the clock check
  · exact fun _ _ _ => rfl
  -- a crossing misses its deadline
  · intro s c first hc
    change execCrossingMiss .. = _
    simp [execCrossingMiss, State.crossingMiss, State.missRaise, hc]
  -- the regulator's temperature
  · intro s die t hdie
    have h4 : ¬ die < 4 := by omega
    have h4' : die ≠ 4 := by omega
    change execJunctionTemp .. = _
    simp [execJunctionTemp, State.junction, State.showTemp, hdie, h4, h4']
  -- a junction at 95 degrees or above
  · intro s die t hdie ht
    change execJunctionTemp .. = _
    simp [execJunctionTemp, State.junction, Nat.not_le.mpr hdie, ht]
  -- a sample of the cooling
  · exact fun _ _ _ _ _ _ => rfl
  -- a cooling item fails
  · intro s i hgood hset
    change execCoolingFailure .. = _
    simp only [execCoolingFailure, State.cooling, hgood, hset]
    simp [State.level, b2n]
  -- a cooling item comes back
  · intro s i hbad
    change execCoolingFailure .. = _
    simp only [execCoolingFailure, State.cooling, hbad]
    simp [State.level, b2n]
  -- a step of the derating
  · intro s t hstart
    change execDerateStep .. = _
    simp only [execDerateStep, hstart]
  -- a meter frame that fails its checks
  · intro s f hup hbad
    change execMeterFrame .. = _
    simp only [execMeterFrame, State.meterFrame, hup, hbad, Bool.not_true, Bool.false_eq_true, if_false, if_true,
      State.meterDrop]
  -- the first meter frame that passes them
  · intro s f hup hsync hcrc hseq
    change execMeterFrame .. = _
    simp [execMeterFrame, State.meterFrame, hup, hsync, hcrc, hseq, State.meterTake]
  -- the meter is silent
  · intro s hup
    change execMeterTimeout .. = _
    simp [execMeterTimeout, hup, State.meterBad]
  -- IDCODE at the test port
  · intro s hon
    change execTapIdcode .. = _
    simp [execTapIdcode, State.tdoOut, hon]
  -- BYPASS at the test port
  · intro s b hon
    have hpowered : s.glb.powered = true := by
      unfold State.tdoOn at hon
      simp only [Bool.and_eq_true] at hon
      exact hon.1.1
    change execTapBypass .. = _
    simp [execTapBypass, State.tdoOut, hon, hpowered]
  -- the test port answers nothing while its output is off
  · intro s hoff
    change execTapIdcode .. = _
    simp [execTapIdcode, State.tdoOut, hoff]
  · intro s b hoff hpowered
    change execTapBypass .. = _
    simp [execTapBypass, State.tdoOut, hoff, hpowered]

end Sys2Proof.Machine
end

section
/-! ## Resets short of a power cycle (R47, R55 to R59, R82) -/
namespace Sys2Proof.Machine

/-- A reset that is marked writes registers, adds to the causes since the last start and locks the test port (R56). -/
theorem resetMark_writes (s : State) (code : Nat) : ∃ regs,
    s.resetMark code = { s with
      regs := regs, glb := { s.glb with sources := s.glb.sources ++ [code], tapLocked := true }, free := s.free + 1 } := by
  unfold State.resetMark
  dsimp only
  split <;> exact ⟨_, rfl⟩

/-- None of the registers that a marked reset writes is the clock. -/
theorem resetMark_time (s : State) (code : Nat) : (s.resetMark code).time = s.time := by
  unfold State.resetMark State.resetEnds State.bump State.time State.draw
  dsimp only
  split
  all_goals
    refine (State.get_set_ne _ _ _ _ (by decide)).trans ?_
    repeat refine (State.get_set_ne _ _ _ _ (by decide)).trans ?_
    rfl

/-- The times at which the watchdog has bitten within the last 10 s, this one first (R58). -/
def watchdogTimes (now : Nat) (earlier : List Nat) : List Nat :=
  now :: earlier.filter fun t => decide (now < t + 10000000000)

theorem wdogRaise_of_time {s : State} {now : Nat} (h : s.time = now) :
    s.wdogRaise false =
      let u : State := { s with glb := { s.glb with wdog := watchdogTimes now s.glb.wdog } }
      if (watchdogTimes now s.glb.wdog).length < 2 then u
      else u.raise (detN 7 0) (if (watchdogTimes now s.glb.wdog).length = 2 then 0 else 2) 0 := by
  subst h
  unfold State.wdogRaise
  simp only [and_true]
  by_cases hone : (watchdogTimes s.time s.glb.wdog).length < 2
  · rw [if_pos hone, if_pos (by exact hone)]
    rfl
  · rw [if_neg hone, if_neg (by exact hone)]
    by_cases htwo : (watchdogTimes s.time s.glb.wdog).length = 2
    · rw [if_pos htwo, if_pos (by exact htwo.le)]
      rfl
    · have hmore : ¬ (watchdogTimes s.time s.glb.wdog).length ≤ 2 := by omega
      rw [if_neg htwo, if_neg (by exact hmore)]
      rfl

/-- Settles O25: each reset on its branch; a reset that is marked is taken apart by `resetMark_writes`. -/
theorem resetSignals : Obligations.ResetSignals := by
  unfold Obligations.ResetSignals
  refine ⟨?_, ?_, ?_, ?_, ?_, ?_, ?_, ?_, ?_, ?_, ?_, ?_, ?_, ?_⟩
  -- PERST# is asserted
  · intro s
    refine ⟨_, rfl, rfl, rfl, rfl, ?_, rfl, rfl, rfl, rfl⟩
    exact State.get_set_same _ _ _
  -- PERST# is released on a module under power
  · intro s hperst hpowered hloss
    change execPerstDeassert s = _
    simp [execPerstDeassert, hperst, hpowered, hloss]
  -- PERST# is released before the rails are up
  · intro s hperst hrails
    have hdown : (!s.glb.powered || decide (2 ≤ s.glb.lossStep)) = true := by simpa using hrails
    change execPerstDeassert s = _
    simp only [execPerstDeassert, hperst, hdown, Bool.not_true, Bool.false_eq_true, if_false, if_true]
  -- a function level reset
  · intro s
    refine ⟨_, rfl, ?_⟩
    obtain ⟨regs, hmark⟩ := resetMark_writes (s.hostReset true) 3
    rw [hmark]
    exact ⟨rfl, rfl, rfl, rfl, rfl, rfl, rfl⟩
  -- the link finds a module that cannot take it
  · intro s rate width hdown
    have hoff : (!s.glb.powered || s.hst.perst || bit (s.get Reg.GLB_ISL_RST_ISL) 12 || decide (2 ≤ s.glb.lossStep)) = true := by
      simp only [Bool.or_eq_true, Bool.not_eq_true', decide_eq_true_eq]
      tauto
    change execPcieLinkUp .. = _
    simp only [execPcieLinkUp, hoff, if_true]
  -- the link is up
  · intro s rate width hpowered hperst hisland hloss
    change execPcieLinkUp .. = _
    simp [execPcieLinkUp, hpowered, hperst, hisland, hloss]
  -- a configuration request before the module has settled
  · intro s off w hlink hsettled
    change execConfigRequest .. = _
    simp [execConfigRequest, hlink, hsettled]
  -- the identity and the class code
  · intro s hlink hsettled
    constructor
    · change execConfigRequest 0 none s = _
      simp [execConfigRequest, hlink, hsettled, State.configRead, State.draw]
    · change execConfigRequest 8 none s = _
      simp [execConfigRequest, hlink, hsettled, State.configRead, State.draw]
  -- a write of the command register
  · intro s v hlink hsettled
    change execConfigRequest 4 (some v) s = _
    simp [execConfigRequest, hlink, hsettled, State.configWrite]
  -- MODULE_RESET goes on
  · intro s r d hreset
    constructor
    all_goals
      intro htoken
      have htoken' : ({ s with glb := { s.glb with modReset := none } } : State).token = _ := htoken
      change execModuleResetProceed s = _
      simp [execModuleResetProceed, hreset, htoken', State.resetAfter]
  -- the watchdog of the management cluster
  · intro s hup hloss
    have htime : ({ s.resetMark 5 with glb := { (s.resetMark 5).glb with mgmtDown := true } } : State).time = s.time :=
      resetMark_time s 5
    have hgo : ¬ (!(s.glb.chaseUp || s.bootAt 3) || s.glb.lossStep != 0) = true := by simp [hup, hloss]
    obtain ⟨regs, hmark⟩ := resetMark_writes s 5
    change execMgmtWatchdog s = _
    unfold execMgmtWatchdog
    rw [if_neg hgo]
    refine (congrArg (fun u => Host.Outcome.next u.settle) (wdogRaise_of_time htime)).trans ?_
    rw [hmark]
    rfl
  -- the management cluster has restarted
  · intro s hdown hstep
    change execMgmtRestartDone s = _
    simp [execMgmtRestartDone, hdown, hstep]
  -- the lockstep reset
  · intro s hhalted hcount hpowered hloss hwait
    change execLockstepReset s = _
    simp [execLockstepReset, hhalted, hcount, hpowered, hloss, hwait]
  -- the open pages are committed
  · intro s hcommit hfinal
    change execOpenPagesCommitted s = _
    unfold execOpenPagesCommitted
    rw [if_pos ⟨hcommit, hfinal⟩]
    rfl

end Sys2Proof.Machine
end

section
/-! ## The commands of the host island (R57, R79, R87, R109, R594) -/
namespace Sys2Proof.Machine

theorem ptm_good (s : State) (ofs : Int) :
    s.ptm true ofs =
      let u := ((s.setS Reg.HST_PTM_OFS ofs).set Reg.HST_PTM_STAT_VALID 1).set Reg.HST_ING_STAT_UNANCH 0
      ({ u with hst := { u.hst with ptmLast := some u.time } } : State).levelOff (detN 6 1) := rfl

/-- Settles O26: on a ring that serves it, each command is its own branch. -/
theorem hostCommands : Obligations.HostCommands := by
  unfold Obligations.HostCommands
  refine ⟨?_, ?_, ?_, ?_, ?_, ?_, ?_, ?_, ?_, ?_, ?_⟩
  -- NOP
  · intro s r d hserves
    rw [exec_of_served rfl hserves]
    rfl
  -- FENCE of a ring that has nothing in flight
  · intro s r d hserves hother hdone
    rw [exec_of_served rfl hserves]
    have hring : (s.beginDesc r 0x0100 d).ring (bits d.p0 0 14) = s.ring (bits d.p0 0 14) := Tab.get_put_ne _ _ _ _ _ hother
    simp [hother, hring, hdone]
    rfl
  -- FENCE of a ring with commands in flight
  · intro s r d hserves hother hflight
    rw [exec_of_served rfl hserves]
    have hring : (s.beginDesc r 0x0100 d).ring (bits d.p0 0 14) = s.ring (bits d.p0 0 14) := Tab.get_put_ne _ _ _ _ _ hother
    simp [hother, hring, Nat.not_le.mpr hflight]
    rfl
  -- HEALTH
  · intro s r d hserves
    exact exec_of_image rfl hserves rfl (by decide) rfl
  -- SEAT_ENABLE
  · intro s r d hserves
    rw [exec_of_served rfl hserves]
    dsimp only
    rw [apply_ite (Reply.finish · r 0x0102 d)]
    simp only [ok_finish]
    rfl
  -- RING_QUERY
  · intro s r d hserves
    exact exec_of_image rfl hserves rfl (by decide) rfl
  -- PTM_RESYNC with a good dialogue
  · intro s r d ofs hserves hptm
    have hptm' : (true && (s.beginDesc r 0x0104 d).hst.ptmEnable) = true := hptm
    rw [exec_of_served rfl hserves]
    dsimp only
    rw [hptm', ptm_good, okR_finish]
  -- PTM_RESYNC with a bad one
  · intro s r d ofs hserves
    rw [exec_of_served rfl hserves]
    rw [okR_finish]
    rfl
  -- MODULE_RESET without the token
  · intro s r d hserves hwait htoken
    have htoken' : (s.beginDesc r 0x0105 d).token = false := htoken
    rw [exec_of_served rfl hserves]
    simp [hwait, htoken', State.resetAfter]
    rfl
  -- MODULE_RESET with the token, at once
  · intro s r d hserves hwait htoken hnow
    have htoken' : (s.beginDesc r 0x0105 d).token = true := htoken
    rw [exec_of_served rfl hserves]
    simp [hwait, htoken', hnow, State.resetAfter]
    rfl
  -- MODULE_RESET with the token and no peer to take it
  · intro s r d hserves hwait htoken hlater hpeer
    have htoken' : (s.beginDesc r 0x0105 d).token = true := htoken
    have hpeer' : (s.beginDesc r 0x0105 d).on Reg.ROS_STAT_PREADY = false := hpeer
    rw [exec_of_served rfl hserves]
    simp [hwait, htoken', hlater, hpeer']

end Sys2Proof.Machine
end

section
/-! ## Ingest (R122 to R144) -/
namespace Sys2Proof.Machine

/-- An answer without data is written as it stands. -/
theorem answer_finish (s : State) (r op st done result : Nat) (d : Desc) :
    ({ s := s, status := some st, done := done, result := result } : Reply).finish r op d =
      s.completeLate r op d st done result := rfl

theorem beginDesc_ing (s : State) (r op : Nat) (d : Desc) : (s.beginDesc r op d).ing = s.ing := rfl

/-! ### What a trace record meets -/

section TraceRecord
variable {s : State} {r n seq t0 : Nat} {x : Stream}

theorem place_of_anchored (span : Nat) (h : s.on Reg.HST_ING_STAT_UNANCH = false) : s.place t0 span = (s.shelfOf t0, false) := by
  simp [State.place, h]

theorem traceDiscard_of_unbound (base : Int) (h : s.stream n = none) : s.traceDiscard r n base = some Reg.HST_ING_UNB := by
  simp [State.traceDiscard, h]

/-- A stream takes records of the ring that feeds it, and of any ring until one does. -/
theorem traceDiscard_of_fed {base : Int} (hstream : s.stream n = some x) (hring : x.ring = none ∨ x.ring = some r)
    (htime : base ≤ (s.time : Int) + 100000) : s.traceDiscard r n base = none := by
  have hfuture : ¬ (s.time : Int) + 100000 < base := not_lt.mpr htime
  unfold State.traceDiscard
  simp only [hstream]
  rcases hring with hring | hring
  · simp [hring, hfuture]
  · cases Tab.find s.ing.ringTime n <;> simp [hring, hfuture]

theorem traceDiscard_of_other_ring {q t : Nat} (base : Int) (hstream : s.stream n = some x) (hring : x.ring = some q)
    (hother : q ≠ r) (hlast : Tab.find s.ing.ringTime n = some t) (htime : s.time < t + 2000000) :
    s.traceDiscard r n base = some Reg.HST_ING_RING := by
  simp [State.traceDiscard, hstream, hring, hlast, hother, htime]

/-- A record that is discarded is counted, by its reason and with event 8. -/
theorem takeTrace_of_discard {f : Fld} (xs : List Nat) (h : ∀ base, s.traceDiscard r n base = some f) :
    s.takeTrace r n seq t0 xs = (true, (s.bump f).count 5 8 1) := by
  unfold State.takeTrace
  simp only [h]

/-- What a record with the next number leaves of its stream: the samples in its window, and the time it has reached. -/
def recordKept (s : State) (r n seq t0 : Nat) (xs : List Nat) (x : Stream) : State :=
  let u := s.add Reg.HST_ING_GAP (xs.countP (· == 0x8000))
  let pos := s.shelfOf t0 / 1000
  let a := xs.zipIdx.foldl (fun a e => putSample a (pos + (e.2 * 2 ^ x.rate : Nat)) x.rate e.1) (0, x.win)
  let v := if a.1 = 0 then u else u.bump Reg.HST_ING_OLD
  let last : Nat := if xs.isEmpty then (s.shelfOf t0).toNat else (pos + (xs.length * 2 ^ x.rate : Nat)).toNat * 1000
  let time := max x.time last
  let y : Stream := { x with lastSeq := some seq, anySeq := false, ring := some r, win := trimWin a.2 (time / 1000),
                             time := time, unanch := false, state := v.lagState time }
  let ps : List Int := xs.zipIdx.map fun e => pos + ((e.2 * 2 ^ x.rate : Nat) : Int)
  let w := v.lateHistory n { y with win := a.2 } ((ps.filter fun p => decide (0 ≤ p)).flatMap fun p =>
    [p.toNat / 25 * 25, (p.toNat + 2 ^ x.rate - 1) / 25 * 25])
  (((w.putStream n y).ingMod fun i =>
    { i with ringTime := Tab.put i.ringTime n w.time, lastRec := Tab.put i.lastRec x.tb (n, x.win) }).lossCheck).count 5 7 1

theorem takeTrace_of_next (xs : List Nat) (hstream : s.stream n = some x) (hring : x.ring = none ∨ x.ring = some r)
    (hanchor : s.on Reg.HST_ING_STAT_UNANCH = false) (htime : s.shelfOf t0 ≤ (s.time : Int) + 100000)
    (hseq : (seqCheck x.lastSeq seq).or (if x.anySeq = true then some false else none) = some false) :
    s.takeTrace r n seq t0 xs = (false, recordKept s r n seq t0 xs x) := by
  unfold State.takeTrace
  simp only [hstream, place_of_anchored _ hanchor, traceDiscard_of_fed hstream hring htime, hseq]
  rfl

/-- A number as the one before: the record is a duplicate. -/
theorem seqCheck_self (seq : Nat) : seqCheck (some seq) seq = none := by
  simp [seqCheck]

theorem lateHistory_nil (x : Stream) : s.lateHistory n x [] = s := rfl

/-- LEAVE of one stream: it goes at once, or waits for its time. -/
theorem leave_one (t reason : Nat) :
    s.leave r n 1 t reason =
      if (s.shelfOf t).toNat ≤ (s.logC (.host r) 5 0 0x1002 1 n 0 reason).time then
        (s.logC (.host r) 5 0 0x1002 1 n 0 reason).unbind n 1
      else (s.logC (.host r) 5 0 0x1002 1 n 0 reason).ingMod fun i =>
        { i with leaves := (i.leaves.filter fun l => l.1 != n) ++ [(n, (s.shelfOf t).toNat, reason)] } := rfl

end TraceRecord

/-- Settles O28: what each record and timeout does, on the branch that its hypotheses name. -/
theorem ingestCommands : Obligations.IngestCommands := by
  unfold Obligations.IngestCommands
  refine ⟨?_, ?_, ?_, ?_, ?_, ?_, ?_, ?_, ?_, ?_, ?_, ?_, ?_, ?_, ?_, ?_, ?_, ?_⟩
  -- TRACE_BUF
  · intro s r n d k u hserves htake
    change execTraceBuf r d s = _
    unfold execTraceBuf State.recBuf
    rw [if_pos rfl, s.cmdOn_served 2 r 0x1001 d _ _ hserves]
    simp only [htake, Bool.false_eq_true, if_false, answer_finish, beginDesc_ing]
  -- SCORE_BUF
  · intro s r n d k u hserves htake
    change execScoreBuf r d s = _
    unfold execScoreBuf State.recBuf
    rw [if_neg (by decide), s.cmdOn_served 3 r 0x1002 d _ _ hserves]
    simp only [htake, Bool.false_eq_true, if_false, answer_finish, beginDesc_ing]
  -- TRACE_BUF with a record that is none
  · intro s r n d k u hserves htake
    change execTraceBuf r d s = _
    unfold execTraceBuf State.recBuf
    rw [if_pos rfl, s.cmdOn_served 2 r 0x1001 d _ _ hserves]
    simp only [htake, if_true, answer_finish, beginDesc_ing]
  -- a record for no stream
  · intro s r n seq t0 xs hnone
    have hdrop : ∀ base, s.traceDiscard r n base = some Reg.HST_ING_UNB := fun base => traceDiscard_of_unbound base hnone
    constructor
    · change execTraceRecord .. = _
      simp only [execTraceRecord, State.takeRec, takeTrace_of_discard _ hdrop, if_true]
    · change execKeepAlive .. = _
      simp only [execKeepAlive, State.takeRec, takeTrace_of_discard _ hdrop, if_true]
  -- a keep-alive record
  · intro s r n seq t0 x hstream hring hanchor htime hseq
    change execKeepAlive .. = _
    simp only [execKeepAlive, State.takeRec, takeTrace_of_next [] hstream hring hanchor htime hseq]
    rfl
  -- a duplicate
  · intro s r n seq t0 v x hstream hring hanchor htime hseq hany
    change execTraceRecord .. = _
    simp [execTraceRecord, State.takeRec, State.takeTrace, hstream, place_of_anchored _ hanchor,
      traceDiscard_of_fed hstream hring htime, hseq, hany, seqCheck_self]
  -- a record of another ring within 2 s
  · intro s r n seq t0 v x q t hstream hring hother hlast htime
    have hdrop : ∀ base, s.traceDiscard r n base = some Reg.HST_ING_RING := fun base =>
      traceDiscard_of_other_ring base hstream hring hother hlast htime
    change execTraceRecord .. = _
    simp only [execTraceRecord, State.takeRec, takeTrace_of_discard _ hdrop, if_true]
  -- a record with samples
  · intro s r n seq t0 xs x hstream hring hanchor htime hseq hxs
    change execTraceRecord .. = _
    simp only [execTraceRecord, State.takeRec, takeTrace_of_next xs hstream hring hanchor htime hseq, recordKept,
      List.isEmpty_eq_false_iff.mpr hxs]
    rfl
  -- BIND
  · intro s r n die tray slot cls rate hnone
    change execBind .. = _
    simp only [execBind, State.takeRec, State.bind, hnone]
    rfl
  -- LEAVE
  · intro s r n t reason u
    constructor
    · intro hnow
      change Host.Outcome.next ((s.leave r n 1 t reason).carried r s.ing) = _
      rw [leave_one, if_pos hnow]
    · intro hlater
      change Host.Outcome.next ((s.leave r n 1 t reason).carried r s.ing) = _
      rw [leave_one, if_neg (Nat.not_le.mpr hlater)]
  -- what ends a stream
  · intro s n x reason hstream
    simp only [State.unbind, hstream]
  -- a leave whose time has come
  · intro s n a reason hmem htime
    have hany : (s.ing.leaves.any fun l => l.1 == n && decide (l.2.1 ≤ s.time)) = true :=
      List.any_eq_true.mpr ⟨_, hmem, by simp [htime]⟩
    change execLeaveTimeReached .. = _
    simp only [execLeaveTimeReached, hany, if_true]
  -- SCHED
  · intro s r n e x hstream
    have hspan : (s.ingMod fun i => { i with sched := s.schedHeld }).spanStreams n 1 = [n] := by
      have hstream' : (s.ingMod fun i => { i with sched := s.schedHeld }).stream n = some x := hstream
      simp [State.spanStreams, hstream']
    change execSched .. = _
    simp only [execSched, State.takeRec, State.sched, hspan]
    rfl
  -- CANCEL
  · intro s r n t x hstream
    have hspan : s.spanStreams n 1 = [n] := by simp [State.spanStreams, hstream]
    change execCancel .. = _
    simp only [execCancel, State.takeRec, State.cancel, hspan]
    rfl
  -- a stream's lag changes
  · intro s n x hstream hstate
    change execStreamLagChange .. = _
    simp only [execStreamLagChange, State.lagChange, hstream, if_neg hstate]
  -- a stream falls silent
  · intro s n x hstream hstate hlost
    change execStreamSilenceTimeout .. = _
    simp [execStreamSilenceTimeout, hstream, hstate, hlost]
  -- the host's time is lost
  · intro s hvalid
    change execUnanchorTimeout s = _
    simp [execUnanchorTimeout, hvalid]
  -- a sample of the history
  · intro s t hgrid htime
    change execHistorySample .. = _
    simp only [execHistorySample, hgrid, htime, and_self, if_true]

end Sys2Proof.Machine
end

section
/-! ## The host's accesses to BAR0 (R588, R591 to R595, R603) -/
namespace Sys2Proof.Machine

section Access
variable {s : State}

theorem hostWrite_of_open (f : State → State) (h : s.hostOpen) : s.hostWrite f = f s := by
  obtain ⟨hbar, hstage, hhost⟩ := h
  simp [State.hostWrite, hbar, hstage, hhost]

theorem hostWrite_of_early (f : State → State) (hbar : s.barUp = true) (hstage : s.stage ≠ 0xE) (hhost : s.glb.hostUp = false) :
    s.hostWrite f = s.bump Reg.GLB_EARLYWR := by
  simp [State.hostWrite, hbar, hstage, hhost]

/-- A write of the bus in a working module goes to the address it names. -/
theorem busWrite_of_open (off size v : Nat) (h : s.hostOpen) :
    s.busWrite off size v =
      if inBar2 off then s.bar2Write (off - 0x200000) size v
      else if 0x400000 ≤ off then s
      else if size = 4 ∧ off % 4 = 0 then s.regWrite off (v % 2 ^ 32)
      else if size = 8 ∧ off % 8 = 0 then (s.regWrite off (v % 2 ^ 32)).regWrite (off + 4) (v / 2 ^ 32 % 2 ^ 32)
      else s.set Reg.GLB_STAT_BADWR 1 := by
  unfold State.busWrite
  rw [if_neg h.2.1, hostWrite_of_open _ h]

/-- A field that takes the whole of its register is what was written there. -/
theorem set_putBits_whole (f : Fld) (p v : Nat) : s.set f (putBits p 0 f.width v) = s.set f v := by
  have hmod : putBits p 0 f.width v % 2 ^ f.width = v % 2 ^ f.width := by
    have hsub : p - bits p 0 f.width * 2 ^ 0 = p / 2 ^ f.width * 2 ^ f.width := by
      have hdiv := Nat.div_add_mod p (2 ^ f.width)
      simp only [bits, pow_zero, Nat.div_one, mul_one]
      rw [Nat.mul_comm]
      omega
    rw [putBits, hsub, pow_zero, mul_one, Nat.add_comm, Nat.add_mul_mod_self_right, Nat.mod_mod]
  unfold State.set
  rw [hmod]

/-- GLB_SCRATCH takes every word, and its writes are not logged. -/
theorem regWrite_scratch (v : Nat) : s.regWrite 0xF0 v = s.set Reg.GLB_SCRATCH v := by
  have hrow : regRow 0xF0 = some ⟨0xF0, 1, 0x4, false, [⟨0, 32, .rw, 0, 0, 0, 32⟩]⟩ := by decide +kernel
  have hunlogged : unlogged 0xF0 = true := by decide
  have hcontrol : prfControl 0xF0 = false := by decide
  have hfield : s.fieldWrite ⟨0xF0, 1, 0x4, false, [⟨0, 32, .rw, 0, 0, 0, 32⟩]⟩ 0xF0 0 v ⟨0, 32, .rw, 0, 0, 0, 32⟩ =
      s.set Reg.GLB_SCRATCH (putBits (s.pendOf Reg.GLB_SCRATCH) 0 Reg.GLB_SCRATCH.width (bits v 0 32)) := rfl
  change s.plainWrite 0xF0 v = _
  simp only [State.plainWrite, hrow, hunlogged, hcontrol, Bool.false_and, Bool.false_eq_true, if_false, or_true, if_true,
    List.foldl_cons, List.foldl_nil, hfield, set_putBits_whole]
  have hwidth : Reg.GLB_SCRATCH.width = 32 := rfl
  unfold State.set
  rw [hwidth]
  simp [bits]

end Access

/-! ### What the host reads does not depend on the high words held for it -/

/-- The state with other high words held (R588). -/
def State.withHeld (s : State) (h : Tab Nat) : State := { s with hst := { s.hst with holding := h } }

section Held
variable (s : State) (h : Tab Nat) (off idx v : Nat)

theorem withHeld_col : (s.withHeld h).col = s.col := rfl

theorem version_withHeld (t : Nat) : (s.withHeld h).version t = s.version t := by
  unfold State.version
  split <;> rfl

theorem stored_withHeld : (s.withHeld h).stored off idx = s.stored off idx := by
  unfold State.stored
  split <;> rfl

theorem mirrorGlb_withHeld : (s.withHeld h).mirrorGlb off v = s.mirrorGlb off v := rfl
theorem mirrorHst_withHeld : (s.withHeld h).mirrorHst off idx v = s.mirrorHst off idx v := rfl
theorem mirrorPrs_withHeld : (s.withHeld h).mirrorPrs off v = s.mirrorPrs off v := rfl
theorem mirrorChs_withHeld : (s.withHeld h).mirrorChs off idx v = s.mirrorChs off idx v := rfl
theorem mirrorStl_withHeld : (s.withHeld h).mirrorStl off v = s.mirrorStl off v := rfl
theorem mirrorBup_withHeld : (s.withHeld h).mirrorBup off v = s.mirrorBup off v := rfl
theorem mirrorEra_withHeld : (s.withHeld h).mirrorEra off idx v = s.mirrorEra off idx v := rfl
theorem mirrorRos_withHeld : (s.withHeld h).mirrorRos off v = s.mirrorRos off v := rfl

theorem mirrorCol_withHeld : (s.withHeld h).mirrorCol off idx v = s.mirrorCol off idx v := by
  unfold State.mirrorCol
  rw [withHeld_col]

theorem mirrorUpd_withHeld : (s.withHeld h).mirrorUpd off v = s.mirrorUpd off v := by
  unfold State.mirrorUpd
  simp only [version_withHeld]
  rfl

theorem mirrorSpr_withHeld : (s.withHeld h).mirrorSpr off v = s.mirrorSpr off v := by
  unfold State.mirrorSpr
  refine if_congr Iff.rfl rfl (if_congr Iff.rfl rfl rfl)

theorem read_withHeld : (s.withHeld h).read off idx = s.read off idx := by
  unfold State.read State.mirror
  simp only [stored_withHeld, mirrorGlb_withHeld, mirrorHst_withHeld, mirrorPrs_withHeld, mirrorChs_withHeld,
    mirrorStl_withHeld, mirrorBup_withHeld, mirrorEra_withHeld, mirrorRos_withHeld, mirrorCol_withHeld, mirrorUpd_withHeld,
    mirrorSpr_withHeld]

theorem bar4Read_withHeld : (s.withHeld h).bar4Read off = s.bar4Read off := by
  unfold State.bar4Read
  simp only [read_withHeld]
  rfl

theorem flyRead_withHeld : (s.withHeld h).flyRead off = s.flyRead off := by
  unfold State.flyRead
  simp only [version_withHeld]
  rfl

theorem busReg_withHeld : (s.withHeld h).busReg off = s.busReg off := by
  have hbar2 : ∀ o, (s.withHeld h).bar2Read o = s.bar2Read o := fun _ => rfl
  have hwindow : (s.withHeld h).window off = s.window off := rfl
  unfold State.busReg
  simp only [hbar2, hwindow, flyRead_withHeld, read_withHeld, bar4Read_withHeld]
  rfl

end Held

/-- Settles O29: the address and the size of an access decide what it does. -/
theorem registerAccess : Obligations.RegisterAccess := by
  unfold Obligations.RegisterAccess
  refine ⟨?_, ?_, ?_, ?_, ?_, ?_, ?_, ?_, ?_, ?_, ?_, ?_, ?_, ?_, ?_, ?_, ?_, ?_, ?_, ?_, ?_, ?_⟩
  -- GLB_SCRATCH
  · intro s v hbar hstage hhost
    change execRegisterWrite .. = _
    rw [execRegisterWrite, busWrite_word s v ⟨hbar, hstage, hhost⟩ (by decide) (by decide), regWrite_scratch]
  -- a write of BAR0 that is neither a word nor a pair of words
  · intro s off size v hbar hstage hhost hoff hword hpair
    have hbar2 : inBar2 off = false := inBar2_eq_false_of_lt hoff
    change execRegisterWrite .. = _
    rw [execRegisterWrite, busWrite_of_open off size v ⟨hbar, hstage, hhost⟩, hbar2, if_neg (by decide), if_neg (by omega),
      if_neg hword, if_neg hpair]
  -- a write before stage HOST
  · intro s off size v hbar hstage hhost
    change execRegisterWrite .. = _
    rw [execRegisterWrite, State.busWrite, if_neg hstage, hostWrite_of_early _ hbar hstage hhost]
  -- the context of a ring that is enabled
  · intro s v hbar hstage hhost hen
    change execRegisterWrite .. = _
    rw [execRegisterWrite, busWrite_word s v ⟨hbar, hstage, hhost⟩ (by decide) (by decide)]
    change Host.Outcome.next (s.contextWrite 0x10018 _).settle = _
    unfold State.contextWrite
    rw [if_pos hen]
  -- a doorbell
  · intro s o v hopen ho
    have hbar2 : inBar2 (0x200000 + o) = true := by
      simp [inBar2]
      omega
    change execRegisterWrite .. = _
    rw [execRegisterWrite, busWrite_of_open _ 4 v hopen, if_pos hbar2, State.bar2Write, Nat.add_sub_cancel_left, if_pos ho]
    rfl
  -- a word of the MSI-X table
  · intro s n k v hopen hn hk
    have hbar2 : inBar2 (0x300000 + 16 * n + 4 * k) = true := by
      simp [inBar2]
      omega
    have hoff : 0x300000 + 16 * n + 4 * k - 0x200000 = 0x100000 + 16 * n + 4 * k := by omega
    have hentry : (0x100000 + 16 * n + 4 * k - 0x100000) / 16 = n := by omega
    have hword : (0x100000 + 16 * n + 4 * k) / 4 % 4 = k := by omega
    change execRegisterWrite .. = _
    rw [execRegisterWrite, busWrite_of_open _ 4 v hopen, if_pos hbar2, State.bar2Write, hoff, if_neg (by omega),
      if_pos ⟨rfl, by omega⟩, State.msixWrite, if_pos (by omega), hentry, hword]
  -- BAR4
  · intro s off size v hopen hoff
    have hbar2 : inBar2 off = false := by
      simp [inBar2]
      omega
    change execRegisterWrite .. = _
    rw [execRegisterWrite, busWrite_of_open off size v hopen, hbar2, if_neg (by decide), if_pos hoff]
  -- a word is read
  · intro s off hbar halign
    change execRegisterReadClear .. = _
    simp [execRegisterReadClear, State.busRead, hbar, halign]
  -- a part of a word
  · intro s off size hbar hsize
    have hpair : ¬ (size = 8 ∧ off % 8 = 0) := by omega
    have hword : ¬ (size = 4 ∧ off % 4 = 0) := by omega
    change execRegisterReadClear .. = _
    simp [execRegisterReadClear, State.busRead, hbar, hpair, hword, hsize]
  -- a pair of words
  · intro s off hbar halign
    change execRegisterReadClear .. = _
    simp [execRegisterReadClear, State.busRead, hbar, halign]
  -- a read that the module does not serve
  · intro s off size hbar hbad
    have hpair : ¬ (size = 8 ∧ off % 8 = 0) := by omega
    have hword : ¬ (size = 4 ∧ off % 4 = 0) := by omega
    have hpart : ¬ ((size = 1 ∨ size = 2) ∧ off % 4 + size ≤ 4) := by omega
    change execRegisterReadClear .. = _
    simp [execRegisterReadClear, State.busRead, hbar, hpair, hword, hpart]
  -- the low word of a counter
  · intro s q off hbar hlo
    change execLoReadCapture .. = _
    simp only [execLoReadCapture, State.loRead, hbar, hlo, Bool.not_true, Bool.false_eq_true, if_false, if_true]
    change Host.Outcome.next ((s.withHeld _).emit (.read ((s.withHeld _).busReg off))) = _
    rw [busReg_withHeld]
    rfl
  -- its high word
  · intro s q off v hbar hlo hhi hheld
    change execLoReadCapture .. = _
    simp only [execLoReadCapture, State.loRead, hbar, hlo, hhi, hheld, Bool.not_true, Bool.false_eq_true, if_false, if_true,
      Option.getD_some]
  -- a counter that counts
  · intro s n c hi v hopen hn hc hen hfrz
    change execCounterWrite .. = _
    rw [execCounterWrite, hostWrite_of_open _ hopen]
    simp [State.counterWrite, Nat.not_le.mpr hn, Nat.not_le.mpr hc, hen, hfrz]
  -- a counter that is off
  · intro s n c lo v hopen hn hc hen
    constructor
    · change execCounterWrite .. = _
      rw [execCounterWrite, hostWrite_of_open _ hopen]
      simp [State.counterWrite, Nat.not_le.mpr hn, Nat.not_le.mpr hc, hen]
    · change execCounterWrite .. = _
      rw [execCounterWrite, hostWrite_of_open _ hopen]
      simp [State.counterWrite, Nat.not_le.mpr hn, Nat.not_le.mpr hc, hen, State.set]
  -- GLB_START
  · intro s v hbar hstage hhost
    change execStartModeWrite .. = _
    rw [execStartModeWrite, hostWrite_of_open _ ⟨hbar, hstage, hhost⟩]
    rfl
  -- a Flyleaf request
  · intro s v hbar hstage hhost hbit htoken hplan hcode hwait
    change execFlyleafRequest .. = _
    rw [execFlyleafRequest, hostWrite_of_open _ ⟨hbar, hstage, hhost⟩]
    simp only [State.flyRequest, hbit, htoken, hplan, hcode, Bool.not_true, Bool.false_eq_true, if_false, Option.isSome_none,
      ne_eq, not_true_eq_false]
  -- a Flyleaf request while the token is held
  · intro s v hbar hstage hhost hbit htoken
    change execFlyleafRequest .. = _
    rw [execFlyleafRequest, hostWrite_of_open _ ⟨hbar, hstage, hhost⟩]
    simp [State.flyRequest, hbit, htoken, State.flyRefuse]
  -- the link map
  · intro s hi v hopen
    change execLinkMapWrite .. = _
    rw [execLinkMapWrite, hostWrite_of_open _ hopen]
    rfl
  -- a register of Chase that is staged
  · intro s off v hopen hmask hoff hroom hgood
    change execChsRegisterWrite .. = _
    rw [execChsRegisterWrite, hostWrite_of_open _ hopen]
    simp only [State.chsWrite, if_neg hmask, if_neg hoff, if_neg (Nat.not_le.mpr hroom), hgood]
  -- no room for a change list
  · intro s off v hopen hmask hoff hfull
    change execChsRegisterWrite .. = _
    rw [execChsRegisterWrite, hostWrite_of_open _ hopen]
    simp only [State.chsWrite, if_neg hmask, if_neg hoff, if_pos hfull]
  -- the marks of the loops' errors
  · intro s w v hopen
    change execFesumClear .. = _
    rw [execFesumClear, hostWrite_of_open _ hopen]
    rfl

end Sys2Proof.Machine
end

section
/-! ## Errata (R38, R471, R477 to R479, R482 to R485) -/
namespace Sys2Proof.Machine

theorem aliveToggle_run {s : State} (b : Bool) (hkeep : s.era.keep = true) (hhalted : s.halted = false) (hstage : 1 ≤ s.stage)
    (hfly : s.stage ≠ 0xE) (hloss : s.glb.lossStep = 0) :
    s.aliveToggle b =
      ((({ s with glb := { s.glb with alive := !s.glb.alive } } : State).emit (.pin .alive (!s.glb.alive))).level (detN 0 5) 0 0
        (b != !s.glb.alive)) := by
  simp [State.aliveToggle, hkeep, hhalted, hstage, hfly, hloss]

theorem aliveToggle_stopped {s : State} (b : Bool) (h : s.era.keep = false ∨ s.halted = true) :
    s.aliveToggle b =
      ((({ s with glb := { s.glb with alive := false } } : State).emit (.pin .alive false)).level (detN 0 5) 0 0 b) := by
  rcases h with h | h <;> simp [State.aliveToggle, h]

/-! ### Injected occurrences -/

section Drive
variable (s : State) (unit : Nat) (again : Bool)

theorem drive_crossing {i : Nat} (hi : i ≤ 10) : s.drive (detN 2 i) unit again = s.crossingMiss i (!again) true := by
  have hfamily : detN 2 i / 16 = 2 := by unfold detN; omega
  have hindex : detN 2 i % 16 = i := by unfold detN; omega
  unfold State.drive
  simp only [hfamily, hindex]
  rw [if_pos ⟨trivial, hi⟩]

theorem drive_leafCrc {t : Nat} (ht : t < 4) :
    s.drive (detN (8 + t) 0) unit again = (s.discardTb t).raise (detN (8 + t) 0) 0 unit true := by
  have hfamily : detN (8 + t) 0 / 16 = 8 + t := by unfold detN; omega
  have hindex : detN (8 + t) 0 % 16 = 0 := by unfold detN; omega
  have hother : detN (8 + t) 0 ≠ detN 7 0 := by unfold detN; omega
  unfold State.drive
  simp only [hfamily, hindex]
  have hleaf : 8 ≤ 8 + t ∧ 8 + t ≤ 11 ∧ True := ⟨by omega, by omega, trivial⟩
  rw [if_neg (by omega), if_neg hother, if_pos hleaf, Nat.add_sub_cancel_left]

theorem drive_plain {n : Nat} (h : n / 16 = 0 ∨ 13 ≤ n / 16) : s.drive n unit again = s.raise n 0 unit true := by
  have hwatchdog : n ≠ detN 7 0 := by unfold detN; omega
  have hbarrier : n ≠ detN 12 5 := by unfold detN; omega
  unfold State.drive
  dsimp only
  rw [if_neg (by omega), if_neg hwatchdog, if_neg (by omega), if_neg (by omega), if_neg (by simp [hbarrier]; omega),
    if_neg (by omega)]

end Drive

/-- ERA_CLEAR completes with the number of detectors that it could not clear (R479). -/
theorem clear_finish (p : Nat × State) (r : Nat) (d : Desc) :
    (if p.1 = 0 then ok p.2.leaveHalted
      else ({ s := p.2.leaveHalted, status := some 0x1B, result := p.1 } : Reply)).finish r 0x0902 d =
      p.2.leaveHalted.completeLate r 0x0902 d (if p.1 = 0 then 0 else 0x1B) 0 p.1 := by
  by_cases h : p.1 = 0
  · simp [h]
  · rw [if_neg h, if_neg h, answer_finish]

/-- Settles O30: detector events, ALIVE, the clears, the unlock and the injections, each on the branch that its hypotheses name. -/
theorem errataCommands : Obligations.ErrataCommands := by
  unfold Obligations.ErrataCommands
  refine ⟨?_, ?_, ?_, ?_, ?_, ?_, ?_, ?_, ?_, ?_, ?_, ?_, ?_, ?_, ?_, ?_, ?_, ?_, ?_⟩
  -- a level detector's cause comes or goes
  · intro s n e p b hlevel
    change execDetectorEvent .. = _
    simp [execDetectorEvent, State.detectorEvent, hlevel]
  -- an event
  · intro s n e p hevent
    constructor
    all_goals
      change execDetectorEvent .. = _
      simp [execDetectorEvent, State.detectorEvent, hevent]
  -- the keep-alive times out
  · exact fun s => rfl
  -- ALIVE toggles
  · intro s b hkeep hhalted hstage hfly hloss
    change Host.Outcome.next (s.aliveToggle b) = _
    rw [aliveToggle_run b hkeep hhalted hstage hfly hloss]
  -- ALIVE is held low
  · intro s b hstopped
    change Host.Outcome.next (s.aliveToggle b) = _
    rw [aliveToggle_stopped b hstopped]
  -- ERA_DSTAT is cleared
  · intro s w v hopen
    change execEraDstatClear .. = _
    rw [execEraDstatClear, hostWrite_of_open _ hopen]
    rfl
  -- the unlock expires
  · intro s hunlocked
    change execUnlockExpiry s = _
    rw [execUnlockExpiry, if_pos hunlocked]
    rfl
  -- held injections expire
  · exact fun s n => rfl
  -- an injected occurrence, not the last
  · intro s x n hfind hleft
    have hdue := List.find?_some hfind
    have hmore : x.left - 1 ≠ 0 := by
      simp only [Bool.and_eq_true, bne_iff_ne, ne_eq] at hdue
      omega
    change execInjectedOccurrence .. = _
    simp only [execInjectedOccurrence, hfind, State.occurrence, if_neg hmore]
  -- what an occurrence drives
  · exact fun s i unit again hi => drive_crossing s unit again hi
  · exact fun s t unit again ht => drive_leafCrc s unit again ht
  · exact fun s n unit again h => drive_plain s unit again h
  -- ERA_CLEAR
  · intro s r d hserves
    rw [exec_of_served rfl hserves]
    exact congrArg Host.Outcome.next (clear_finish _ r d)
  -- ERA_CLASS
  · intro s r d hserves hclass
    have hno : ¬ (d.p1 ≠ 0 ∧ d.p1 < (detInfo d.p0).cls) := by omega
    rw [exec_of_served rfl hserves]
    simp only [if_neg hno, staged_finish]
  -- ERA_UNLOCK with the key
  · intro s r d hserves hlockout hkey
    have hlockout' : (s.beginDesc r 0x0904 d).on Reg.ERA_STAT_LOCKOUT = false := hlockout
    rw [exec_of_served rfl hserves]
    simp [hlockout', hkey]
  -- ERA_UNLOCK while it is locked out
  · intro s r d hserves hlockout
    have hlockout' : (s.beginDesc r 0x0904 d).on Reg.ERA_STAT_LOCKOUT = true := hlockout
    rw [exec_of_served rfl hserves]
    simp [hlockout']
  -- ERA_INJECT
  · intro s r d hserves hunlocked hlevel hnone hcause
    have hunlocked' : (s.beginDesc r 0x0905 d).on Reg.ERA_STAT_UNLOCKED = true := hunlocked
    have hlevel' : (s.beginDesc r 0x0905 d).get Reg.ERA_STAT_ULEVEL ≠ 1 := hlevel
    have hcause' : ((s.beginDesc r 0x0905 d).det (bits d.p0 0 9)).cause = false := hcause
    rw [exec_of_served rfl hserves]
    simp [hunlocked', hlevel', hcause', hnone]
  -- ERA_WITHDRAW
  · intro s r d hserves
    rw [exec_of_served rfl hserves, ok_finish]
  -- ERA_LOCK
  · intro s r d hserves
    rw [exec_of_served rfl hserves, ok_finish]

end Sys2Proof.Machine
end

section
/-! ## The galley and the period (R245, R296) -/
namespace Sys2Proof.Machine

/-! ### A boundary without the token

Only the holder of the token counts the periods of open loops, over all 166 of them. Without the token the count changes nothing,
and the rest of a boundary is short enough for the kernel to evaluate. -/

/-- What a period boundary does before it counts the open loops. -/
def beforeLoops (s : State) : State := s.boardJudge.roleTick.haltWork.lawDueNow.periodWrites

theorem openCount_closed {s : State} (h : s.chs.loops = []) (hholder : s.holder = false) (n : Nat) : (s.openCount n).loopEnd n = s := by
  have hloop : s.loop n = {} := by
    unfold State.loop
    rw [h]
    rfl
  simp [State.openCount, State.loopEnd, hloop, hholder]

theorem changesNow_closed {s : State} (h : (beforeLoops s).chs.loops = []) (hholder : (beforeLoops s).holder = false) :
    s.changesNow false = (beforeLoops s).listsNow.imposeStaged false := by
  have hfold : ∀ ns : List Nat, ns.foldl (fun a n => (a.openCount n).loopEnd n) (beforeLoops s) = beforeLoops s := by
    intro ns
    induction ns with
    | nil => rfl
    | cons n ns ih => rw [List.foldl_cons, openCount_closed h hholder, ih]
  unfold State.changesNow
  simp only [Bool.false_eq_true, if_false]
  exact congrArg (fun t : State => t.listsNow.imposeStaged false) (hfold _)

/-- What a boundary inside a press cycle does after it has counted the open loops. -/
def afterLoops (s : State) : State :=
  ((((((s.listsNow.imposeStaged false).drivesNow false).syncNow).hbToggle false).hbOutFrame).injectionTick.blockTicks).samplesGone.settle

/-! ### A handover whose peer is not ready -/

/-- The next state still holds a handover. -/
def holdsHandover : Out State → Bool
  | .next s => s.ros.hand.isSome
  | _ => false

/-- A module in stage CHASE that takes the token over at period 9, from a peer that is not ready. -/
def takingOver : State :=
  { State.reset with glb := { chaseUp := true }, ros := { hand := some { kind := 1, at_ := 9, gives := false } } }

/-- Its state when the boundary has looked at the handover, and when it has not. -/
def looked : State := (((takingOver.periodEnd.silenceTick false).readyTick.corrTick).handTick).proveTick
def notLooked : State := ((takingOver.periodEnd.silenceTick false).readyTick).proveTick

theorem handover_cancelled : (afterLoops (beforeLoops looked)).ros.hand.isSome = false := by decide +kernel
theorem handover_kept : (afterLoops (beforeLoops notLooked)).ros.hand.isSome = true := by decide +kernel

/-- The period boundary of the module that takes over. -/
theorem chasePeriodBoundary_takingOver :
    exec (.chasePeriodBoundary false false) takingOver = .next (afterLoops (beforeLoops looked)) := by
  have hpress : decide (takingOver.periodEnd.time % 20000 = 0) = false := by decide +kernel
  have hchanges := changesNow_closed (s := looked) (by decide +kernel) (by decide +kernel)
  change Host.Outcome.next (takingOver.periodBoundary false false) = _
  unfold State.periodBoundary
  rw [if_neg (by decide)]
  simp only [hpress, Bool.false_eq_true, if_false]
  rw [← looked, hchanges]
  rfl

/-- Refutes O39: its clauses on a boundary leave out the step that looks at the handover, and the model takes it. -/
theorem not_galleyAndPeriod : ¬ Obligations.GalleyAndPeriod := by
  unfold Obligations.GalleyAndPeriod
  rintro ⟨-, hboundary, -⟩
  have hchanges := changesNow_closed (s := notLooked) (by decide +kernel) (by decide +kernel)
  have hgiven := hboundary takingOver false false rfl (by decide +kernel)
  dsimp only at hgiven
  rw [chasePeriodBoundary_takingOver, ← notLooked, hchanges] at hgiven
  have hkept := handover_kept
  unfold afterLoops at hkept
  have hhand := congrArg holdsHandover hgiven
  simp only [holdsHandover, handover_cancelled, hkept, Bool.false_eq_true] at hhand

end Sys2Proof.Machine
end

section
/-! ## Control changes (R307, R320 to R329) -/
namespace Sys2Proof.Machine

/-- A list that passes its checks is staged when fewer than 16 are held. -/
theorem submit_of_room {s : State} {l : ListIn} (r opcode target old new : Nat) (digest : Bool)
    (hroom : s.chs.lists.length < 16) (hgood : s.listBad l = none) :
    s.submit r opcode target old new digest l =
      staged (s.listStage r opcode target old new digest l).2 (s.listStage r opcode target old new digest l).1 := by
  unfold State.submit
  rw [if_neg (Nat.not_le.mpr hroom), hgood]

/-- Settles O41: what is staged is what `listStage` stages; the refusals are the branches before it. -/
theorem changeCommands : Obligations.ChangeCommands := by
  unfold Obligations.ChangeCommands
  refine ⟨?_, ?_, ?_, ?_, ?_, ?_, ?_, ?_, ?_, ?_, ?_⟩
  -- CHANGE_SUBMIT
  · intro s r d l u p hserves hread hroom hgood
    have hsubmit := submit_of_room r 0x0501 0 0 (digest8 (bufBytes d)) true (s := s.beginDesc r 0x0501 d) hroom hgood
    rw [exec_of_served rfl hserves]
    simp only [hread, hsubmit, staged, if_true, answer_finish, u, p]
  -- CHANGE_SUBMIT of a list that does not read
  · intro s r d x hserves hread hroom
    have hroom' : ¬ 16 ≤ (s.beginDesc r 0x0501 d).chs.lists.length := Nat.not_le.mpr hroom
    rw [exec_of_served rfl hserves]
    simp only [hread, if_neg hroom', refuse_finish]
    rfl
  -- CHANGE_SUBMIT with 16 lists held
  · intro s r d l hserves hread hfull
    have hfull' : 16 ≤ (s.beginDesc r 0x0501 d).chs.lists.length := hfull
    rw [exec_of_served rfl hserves]
    simp only [hread, State.submit, if_pos hfull', bad, answer_finish]
    rfl
  -- BANK_WRITE
  · intro s r d rs hrs hserves hgood
    have hgood' : (s.beginDesc r 0x0502 d).bankBad rs = none := hgood
    subst hrs
    rw [exec_of_served rfl hserves]
    simp only [hgood', okN_finish]
  -- BANK_WRITE of a bad record
  · intro s r d rs why k hrs hserves hbad
    have hbad' : (s.beginDesc r 0x0502 d).bankBad rs = some (why, k) := hbad
    subst hrs
    rw [exec_of_served rfl hserves]
    simp only [hbad', refuse_finish]
  -- PERIOD_SET
  · intro s r d u p hserves hroom hgood
    rw [exec_of_served rfl hserves, submit_of_room (s := s.beginDesc r 0x0504 d) _ _ _ _ _ _ hroom hgood, staged_finish]
  -- LAW_SET
  · intro s r d l u p hl hserves hroom hgood hlanes
    have hroom' : ¬ 16 ≤ (s.beginDesc r 0x0505 d).chs.lists.length := Nat.not_le.mpr hroom
    have hlaw : ¬ (d.p0 = 0 ∧ (s.beginDesc r 0x0505 d).lawWindow < lawBound false (s.beginDesc r 0x0505 d).lanes) := by
      rintro ⟨h0, hless⟩
      rcases hlanes with h | h
      · exact h h0
      · exact absurd hless (Nat.not_lt.mpr h)
    rw [exec_of_served rfl hserves]
    subst hl
    simp only [if_neg hroom', if_neg hlaw]
    rw [submit_of_room (s := s.beginDesc r 0x0505 d) _ _ _ _ _ _ hroom hgood, staged_finish]
  -- LAW_SET to a law that the lanes do not bear
  · intro s r d hserves hroom hzero hless
    have hroom' : ¬ 16 ≤ (s.beginDesc r 0x0505 d).chs.lists.length := Nat.not_le.mpr hroom
    have hlaw : d.p0 = 0 ∧ (s.beginDesc r 0x0505 d).lawWindow < lawBound false (s.beginDesc r 0x0505 d).lanes := ⟨hzero, hless⟩
    rw [exec_of_served rfl hserves]
    simp only [if_neg hroom', if_pos hlaw, refuse_finish]
  -- CHANGE_ABORT of a list not begun
  · intro s r d l hserves hfind hdone
    have hfind' : (s.beginDesc r 0x0506 d).chs.lists.find? (fun l => l.st.no == d.p0) = some l := hfind
    rw [exec_of_served rfl hserves]
    simp only [hfind', if_pos hdone, ok_finish]
  -- CHANGE_ABORT of a list under way
  · intro s r d l hserves hfind hdone
    have hfind' : (s.beginDesc r 0x0506 d).chs.lists.find? (fun l => l.st.no == d.p0) = some l := hfind
    rw [exec_of_served rfl hserves]
    simp only [hfind', if_neg hdone, ok_finish]
  -- CHANGE_ABORT of no list
  · intro s r d hserves hfind
    have hfind' : (s.beginDesc r 0x0506 d).chs.lists.find? (fun l => l.st.no == d.p0) = none := hfind
    rw [exec_of_served rfl hserves]
    simp only [hfind', refuse_finish]

end Sys2Proof.Machine
end

section
/-! ## The stage links and phases (R339, R344, R351, R357 to R359) -/
namespace Sys2Proof.Machine

/-- In the next state phase 0 is still to be shed. -/
def phaseLeaves : Out State → Bool
  | .next s => (s.phase 0).leaving
  | _ => false

/-- The holder of the token, whose phase 0 has been warm for 2 ms, 1 ms longer than it is held warm, and is to be shed. -/
def warmLeaving : State :=
  ((((({ State.reset with chs := { State.reset.chs with phases := [(0, { leaving := true })] } } : State).set
    Reg.CHS_STAT_TOKEN 1).set (Reg.STL_PSTAT_STATE 0) 2).set Reg.STL_SHED_WARMHOLD 1).set Reg.CHS_TIME 2000000)

/-- A phase that goes OFF is to be shed no more. -/
theorem warmHoldExpiry_stays : phaseLeaves (exec (.warmHoldExpiry 0) warmLeaving) = false := by decide +kernel

/-- Refutes O42: its clause on WARM_HOLD_EXPIRY keeps the mark of a phase that is to be shed, and the model clears it. -/
theorem not_stageCommands : ¬ Obligations.StageCommands := by
  unfold Obligations.StageCommands
  rintro ⟨-, -, -, -, -, -, -, hexpiry, -⟩
  have hcleared := warmHoldExpiry_stays
  rw [hexpiry warmLeaving 0 (by decide +kernel) (by decide +kernel) (by decide +kernel) (by decide +kernel) (by decide +kernel)
    (by decide +kernel) (by decide +kernel)] at hcleared
  exact absurd hcleared (by decide +kernel)

end Sys2Proof.Machine
end

section
/-! ## The Fennal carrier (R365 to R385) -/
namespace Sys2Proof.Machine

/-! ### Registers that the carrier's own writes leave alone -/

theorem get_sets_of_ne (ws : List Nat) (f : Nat → Fld) (v : Nat → Nat) {g : Fld} (h : ∀ w ∈ ws, g.key ≠ (f w).key) (s : State) :
    (ws.foldl (fun s w => s.set (f w) (v w)) s).get g = s.get g :=
  foldl_keeps_mem (fun s : State => s.get g) _ _ _ fun s w hw => State.get_set_ne s _ _ _ (h w hw)

theorem key_ne_mask {f : Fld} (hf : f.key = fieldKey 0x60008 4 0) {w : Nat} (hw : w ∈ List.range 8) : f.key ≠ (Reg.FEN_MASK w).key := by
  rw [List.mem_range] at hw
  rw [hf]
  show fieldKey 0x60008 4 0 ≠ fieldKey (0x60040 + 0x4 * w) 0 0
  unfold fieldKey
  omega

/-- A mask does not make its station a leader. -/
theorem putMask_beaconing (s : State) (eff m : Nat) : (s.putMask eff m).on Reg.FEN_STAT_BEACONING = s.on Reg.FEN_STAT_BEACONING := by
  have hmask : ((List.range 8).foldl (fun s w => s.set (Reg.FEN_MASK w) (m / 2 ^ (32 * w))) s).get Reg.FEN_STAT_BEACONING =
      s.get Reg.FEN_STAT_BEACONING := get_sets_of_ne _ _ _ (fun w hw => key_ne_mask rfl hw) s
  have hset : (((List.range 8).foldl (fun s w => s.set (Reg.FEN_MASK w) (m / 2 ^ (32 * w))) s).set Reg.FEN_MASKBCN eff).get
      Reg.FEN_STAT_BEACONING = s.get Reg.FEN_STAT_BEACONING := (State.get_set_ne _ _ _ _ (by decide)).trans hmask
  unfold State.putMask State.on
  dsimp only
  split
  · rw [hset]
  · rw [State.evt_get _ _ _ _ _ rfl, hset]

theorem maskDue_beaconing (s : State) (n : Nat) : (s.maskDue n).on Reg.FEN_STAT_BEACONING = s.on Reg.FEN_STAT_BEACONING := by
  unfold State.maskDue
  split
  · split
    · rfl
    · exact putMask_beaconing _ _ _
  · rfl

/-- A station that is off the carrier leads no group. -/
theorem stopLead_beaconing {s : State} (h : s.fenUp = false) : s.stopLead.on Reg.FEN_STAT_BEACONING = false := by
  have hnot : s.eligible = false := by simp [State.eligible, h]
  have hclear : (s.set Reg.FEN_STAT_BEACONING 0).on Reg.FEN_STAT_BEACONING = false := by
    unfold State.on
    rw [State.get_set_same]
    rfl
  unfold State.stopLead
  split
  · exact hclear
  · rename_i h'
    simpa [hnot] using h'

theorem key_ne_snr {f : Fld} {a : Nat} (hf : f.key = fieldKey a 0 0) (ha : a < 0x600A0) {w : Nat} (_ : w ∈ List.range 16) :
    f.key ≠ (Reg.FEN_SNR w).key := by
  rw [hf]
  show fieldKey a 0 0 ≠ fieldKey (0x600A0 + 0x4 * w) 0 0
  unfold fieldKey
  omega

/-- The state with the tone classes of the station's own measurement (R380). -/
def State.classed (s : State) (v : Nat) : State := (List.range 16).foldl (fun s w => s.set (Reg.FEN_SNR w) (v / 2 ^ (32 * w) % 2 ^ 32)) s

theorem classed_fenUp (s : State) (v : Nat) : (s.classed v).fenUp = s.fenUp := by
  have hglb : (s.classed v).glb = s.glb := foldl_keeps State.glb _ _ _ fun _ _ => rfl
  have hen : (s.classed v).get Reg.FEN_CTL_EN = s.get Reg.FEN_CTL_EN :=
    get_sets_of_ne _ _ _ (fun w hw => key_ne_snr (a := 0x60004) rfl (by decide) hw) s
  have hgroup : (s.classed v).get Reg.FEN_GROUP = s.get Reg.FEN_GROUP :=
    get_sets_of_ne _ _ _ (fun w hw => key_ne_snr (a := 0x6000C) rfl (by decide) hw) s
  unfold State.fenUp State.on
  rw [hglb, hen, hgroup]

/-- The frame of tone classes that a station in reach of its group queues (R380). -/
def State.toneFrame (s : State) : State :=
  if s.fenUp && s.on Reg.FEN_STAT_JOINED && !s.on Reg.FEN_STAT_FAR then s.queueFrame 3 1 (le 64 s.ownTones) else s

theorem toneReport_eq (s : State) (snr : List Int) : s.toneReport snr = (s.classed (toneClasses snr)).toneFrame := rfl

theorem toneFrame_off {s : State} (h : s.fenUp = false) : s.toneFrame = s := by simp [State.toneFrame, h]

theorem toneFrame_on {s : State} (hup : s.fenUp = true) (hjoined : s.on Reg.FEN_STAT_JOINED = true)
    (hnear : s.on Reg.FEN_STAT_FAR = false) : s.toneFrame = s.queueFrame 3 1 (le 64 s.ownTones) := by
  simp [State.toneFrame, hup, hjoined, hnear]

/-! ### Access to the medium (R372, R373) -/

section Medium
variable {s : State}

theorem backoffExpiry_beacon {n : Nat} (h : s.fen.bWait = some n) :
    s.backoffExpiry = if s.fenUp && !s.halted && !s.medium && decide (s.idleSince + aifs 3 ≤ s.time) then s.sendBeacon n else s := by
  simp only [State.backoffExpiry, h]

theorem backoffExpiry_frame (h : s.fen.bWait = none) : s.backoffExpiry = s.access := by
  simp only [State.backoffExpiry, h]

theorem access_sends {x : FenTx} (hup : s.fenUp = true) (hquiet : s.fenQuiet = false) (hnear : s.on Reg.FEN_STAT_FAR = false)
    (hnext : s.nextFrame = some x) (hbegin : s.mayBegin x = true) : s.access = s.sendNext := by
  simp [State.access, hup, hquiet, hnear, hnext, hbegin]

theorem mayBegin_busy (h : s.medium = true) (x : FenTx) : s.mayBegin x = false := by simp [State.mayBegin, h]

theorem access_waits (h : s.fenUp = false ∨ s.medium = true ∨ s.fenQuiet = true ∨ s.on Reg.FEN_STAT_FAR = true ∨ s.nextFrame = none) :
    s.access = s := by
  unfold State.access
  rcases h with h | h | h | h | h
  · simp [h]
  · cases hnext : s.nextFrame <;> simp [mayBegin_busy h]
  · simp [h]
  · simp [h]
  · simp [h]

end Medium

/-! ### Frames received (R370) -/

section Received
variable {s : State} {rx : Nat} {b k : List Byte}

/-- A frame of the right length with a good CRC is whole. -/
theorem frame_whole (hsize : rd b 12 2 ≤ 256) (hlen : b.length = 28 + rd b 12 2)
    (hcrc : rd b (b.length - 4) 4 = crc32 (b.take (b.length - 4))) :
    ¬ (!(true && decide (rd b 12 2 ≤ 256) && b.length == 28 + rd b 12 2 &&
      rd b (b.length - 4) 4 == crc32 (b.take (b.length - 4)))) = true := by
  rw [hcrc]
  simp [hsize, hlen]

theorem fennalFrame_of_other_group (hon : s.on Reg.FEN_CTL_EN = true) (hsize : rd b 12 2 ≤ 256) (hlen : b.length = 28 + rd b 12 2)
    (hcrc : rd b (b.length - 4) 4 = crc32 (b.take (b.length - 4)))
    (hother : s.get Reg.FEN_GROUP = 0 ∨ rd b 4 4 ≠ s.get Reg.FEN_GROUP) : s.fennalFrame rx true b = s.stranger := by
  unfold State.fennalFrame
  rw [if_neg (by simp [hon]), if_neg (frame_whole hsize hlen hcrc), if_pos hother]

/-- A whole frame of the group, under its key. -/
theorem fennalFrame_of_group (hon : s.on Reg.FEN_CTL_EN = true) (hsize : rd b 12 2 ≤ 256) (hlen : b.length = 28 + rd b 12 2)
    (hcrc : rd b (b.length - 4) 4 = crc32 (b.take (b.length - 4))) (hgroup : s.get Reg.FEN_GROUP ≠ 0)
    (hown : rd b 4 4 = s.get Reg.FEN_GROUP) (hkey : s.fenKey (bits (rd b 1 1) 0 1) = some k)
    (hmac : (cmac k (b.take (16 + rd b 12 2))).take 8 = (b.drop (16 + rd b 12 2)).take 8) (hheader : headerGood b = true) :
    s.fennalFrame rx true b =
      let u := if rd b 2 1 = s.rank ∧ !s.fenSent (rd b 8 4) then s.posClaim else s
      if rd b 3 1 ≠ 0xFF ∧ rd b 3 1 ≠ u.rank then u else u.seqCheck rx b := by
  have hours : ¬ (s.get Reg.FEN_GROUP = 0 ∨ rd b 4 4 ≠ s.get Reg.FEN_GROUP) := by simp [hgroup, hown]
  unfold State.fennalFrame
  rw [if_neg (by simp [hon]), if_neg (frame_whole hsize hlen hcrc), if_neg hours]
  simp only [hkey, hmac, hheader, bne_self_eq_false, Bool.not_true, Bool.false_eq_true, if_false]

end Received

/-! ### The carrier's signals and its keys -/

/-- Settles O43: what each signal and each frame meets, on the branch that its hypotheses name. -/
theorem fennalCommands : Obligations.FennalCommands := by
  unfold Obligations.FennalCommands
  refine ⟨?_, ?_, ?_, ?_, ?_, ?_, ?_, ?_, ?_, ?_, ?_, ?_, ?_, ?_, ?_, ?_, ?_, ?_, ?_, ?_, ?_, ?_, ?_, ?_, ?_, ?_, ?_, ?_, ?_, ?_, ?_,
    ?_, ?_⟩
  -- a beacon instant off the carrier
  · intro s u hdown
    have hquiet : u.on Reg.FEN_STAT_BEACONING = false := (maskDue_beaconing _ _).trans (stopLead_beaconing hdown)
    change execBeaconInstant s = _
    simp only [execBeaconInstant, State.beaconInstant, u] at *
    simp only [hquiet, Bool.false_eq_true, if_false]
  -- a beacon instant of a station that does not lead
  · intro s u hquiet
    change execBeaconInstant s = _
    simp only [execBeaconInstant, State.beaconInstant, u] at *
    simp only [hquiet, Bool.false_eq_true, if_false]
  -- a beacon instant of the leader
  · intro s u hup hlead hplain
    change execBeaconInstant s = _
    simp only [execBeaconInstant, State.beaconInstant, u] at *
    simp only [hup, hlead, hplain, Bool.not_true, Bool.false_eq_true, if_false, if_true]
  -- a beacon is skipped
  · intro s n hwait
    change execBeaconSkipped s = _
    simp only [execBeaconSkipped, hwait]
  -- the beacons are lost
  · intro s hquiet hjoined hlost hmiss hany
    change execBeaconLoss s = _
    simp only [execBeaconLoss, hquiet, hjoined, hlost, hmiss, Bool.false_eq_true, if_false, Bool.not_false, Bool.and_self, decide_true,
      if_true]
  -- the leader loses none
  · intro s hlead
    change execBeaconLoss s = _
    simp only [execBeaconLoss, hlead, if_true]
  -- a beacon
  · intro s src rx p hup
    change execBeacon .. = _
    simp only [execBeacon, State.delivered, hup, if_true]
    rfl
  · intro s src rx p hdown
    change execBeacon .. = _
    simp only [execBeacon, State.delivered, hdown, Bool.false_eq_true, if_false]
  -- a station of the group takes the lead
  · intro s helig hquiet hmiss hjoined
    have hset : ∀ f v, Reg.CHS_TIME.key ≠ f.key → ∀ u : State, (u.set f v).time = u.time := fun _ _ h u => State.get_set_ne u _ _ _ h
    have htime : ((s.setS Reg.FEN_GOFS (s.gofs s.time)).set Reg.FEN_RATE 0).time = s.time := by
      rw [hset _ _ (by decide)]
      exact hset _ _ (by decide) s
    change execLeaderStart s = _
    simp only [execLeaderStart, helig, hquiet, hmiss, hjoined, htime, Bool.not_false, Bool.and_self, decide_true, if_true]
  · intro s hmiss
    have hnot : ¬ 5 + s.rank ≤ s.fen.missAny := Nat.not_le.mpr hmiss
    change execLeaderStart s = _
    simp [execLeaderStart, hnot]
  -- the carrier is sensed
  · exact fun s => rfl
  · intro s e hloud
    change execCarrierSenseChange .. = _
    simp only [execCarrierSenseChange, State.carrierSense]
    rw [if_pos hloud]
    rfl
  · intro s e t hlow hsince htime hbusy
    have hquiet : ¬ ((s.get Reg.FEN_PHY_CSTHR : Int) * 10 < e) := by omega
    change execCarrierSenseChange .. = _
    simp [execCarrierSenseChange, State.carrierSense, State.fenMod, hquiet, hlow, hsince, htime, hbusy]
  · intro s e t hlow hsince htime
    have hquiet : ¬ ((s.get Reg.FEN_PHY_CSTHR : Int) * 10 < e) := by omega
    have hsoon : ¬ t + 12000 ≤ s.time := Nat.not_le.mpr htime
    change execCarrierSenseChange .. = _
    simp [execCarrierSenseChange, State.carrierSense, hquiet, hlow, hsince, hsoon]
  -- a beacon that waited
  · intro s n hup hhalted hfree hidle hwait
    change execBackoffExpiry s = _
    rw [execBackoffExpiry, backoffExpiry_beacon hwait, if_pos (by simp [hup, hhalted, hfree, hidle])]
  -- a frame that waited
  · intro s x hup hwait hquiet hnear hnext hfree hidle hslots
    have hbegin : s.mayBegin x = true := by simp [State.mayBegin, hfree, hidle, hslots]
    change execBackoffExpiry s = _
    rw [execBackoffExpiry, backoffExpiry_frame hwait, access_sends hup hquiet hnear hnext hbegin]
  -- nothing may be sent
  · intro s hstill
    change execBackoffExpiry s = _
    rw [execBackoffExpiry]
    cases hwait : s.fen.bWait with
    | none => rw [backoffExpiry_frame hwait, access_waits (by rw [hwait] at hstill; tauto)]
    | some n =>
      have hstill' : s.fenUp = false ∨ s.medium = true := by simpa [hwait] using hstill
      rw [backoffExpiry_beacon hwait, if_neg (by rcases hstill' with h | h <;> simp [h])]
  -- no acknowledgement comes
  · intro s x hflight htries
    change execAckTimeout s = _
    simp only [execAckTimeout, hflight]
    rw [if_pos (by exact htries)]
  · intro s x hflight htries
    change execAckTimeout s = _
    simp only [execAckTimeout, hflight]
    rw [if_neg (by exact Nat.not_le.mpr htries)]
  -- an acknowledgement
  · intro s src seq hup
    change execAck .. = _
    simp only [execAck, State.delivered, hup, if_true]
    rfl
  -- a frame that does not demodulate
  · intro s rx x hon
    change execFennalFrame .. = _
    simp [execFennalFrame, State.fennalFrame, hon]
  -- a frame of another group
  · intro s rx x b hb hon hsize hlen hcrc hother
    subst hb
    change execFennalFrame .. = _
    rw [execFennalFrame, fennalFrame_of_other_group hon hsize hlen hcrc hother]
  -- a frame of the group
  · intro s rx x b k hb hon hsize hlen hcrc hgroup hown hkey hmac hheader hsrc hdst
    subst hb
    have hplain : ¬ (rd (s.demod rx x) 2 1 = s.rank ∧ (!s.fenSent (rd (s.demod rx x) 8 4)) = true) := by
      rintro ⟨h1, h2⟩
      rcases hsrc with h | h
      · exact h h1
      · simp [h] at h2
    have hours : ¬ (rd (s.demod rx x) 3 1 ≠ 0xFF ∧ rd (s.demod rx x) 3 1 ≠ s.rank) := fun h => hdst.elim h.1 h.2
    change execFennalFrame .. = _
    rw [execFennalFrame, fennalFrame_of_group hon hsize hlen hcrc hgroup hown hkey hmac hheader]
    simp only [if_neg hplain, if_neg hours]
  -- a frame under the station's own rank
  · intro s rx x b k hb hon hsize hlen hcrc hgroup hown hkey hmac hheader hsrc hsent hdst
    subst hb
    have hclaim : rd (s.demod rx x) 2 1 = s.rank ∧ (!s.fenSent (rd (s.demod rx x) 8 4)) = true := ⟨hsrc, by simp [hsent]⟩
    change execFennalFrame .. = _
    rw [execFennalFrame, fennalFrame_of_group hon hsize hlen hcrc hgroup hown hkey hmac hheader]
    simp only [if_pos hclaim, hdst, ne_eq, not_true_eq_false, false_and, if_false]
  -- the carrier is off
  · intro s rx g x hoff
    change execFennalFrame .. = _
    simp [execFennalFrame, State.fennalFrame, hoff]
  -- tones heard elsewhere
  · intro s src p hup
    change execToneReport .. = _
    simp only [execToneReport, State.delivered, hup, if_true]
    rfl
  -- tones heard here
  · intro s snr hdown
    have hsame : (s.classed (toneClasses snr)).toneFrame = s.classed (toneClasses snr) := toneFrame_off ((classed_fenUp _ _).trans hdown)
    exact congrArg Host.Outcome.next ((toneReport_eq s snr).trans hsame)
  · intro s snr u hup hjoined hnear
    exact congrArg Host.Outcome.next ((toneReport_eq s snr).trans (toneFrame_on hup hjoined hnear))
  -- FENNAL_KEY
  · intro s r d u b key p hserves hslot hzero htx hkey
    have hgood : ¬ (2 ≤ rd b 0 1 ∨ rd b 1 15 ≠ 0) := by omega
    have htx' : ¬ (s.beginDesc r 0x0701 d).get Reg.FEN_STAT_KEYTX = rd b 0 1 := htx
    rw [exec_of_served rfl hserves]
    simp only [u, b, key, p] at *
    simp only [if_neg hgood, if_neg htx', if_neg hkey, staged, answer_finish]
  -- FENNAL_KEY of the key in use
  · intro s r d hserves hslot hzero htx
    have hgood : ¬ (2 ≤ rd (bufBytes d) 0 1 ∨ rd (bufBytes d) 1 15 ≠ 0) := by omega
    have htx' : (s.beginDesc r 0x0701 d).get Reg.FEN_STAT_KEYTX = rd (bufBytes d) 0 1 := htx
    rw [exec_of_served rfl hserves]
    simp only [if_neg hgood, if_pos htx', refuse_finish]
  -- FENNAL_KEYTX
  · intro s r d u p hserves hkey
    have hkey' : ¬ ((s.beginDesc r 0x0702 d).fenKey d.p0).isNone = true := by
      rw [Option.isNone_iff_eq_none, ← ne_eq, Option.ne_none_iff_isSome]
      exact hkey
    rw [exec_of_served rfl hserves]
    simp only [if_neg hkey', staged_finish, u, p]
  -- FENNAL_KEYDEL
  · intro s r d u p hserves htx
    have htx' : ¬ (s.beginDesc r 0x0703 d).get Reg.FEN_STAT_KEYTX = d.p0 := htx
    rw [exec_of_served rfl hserves]
    simp only [if_neg htx', staged_finish, u, p]
  -- FENNAL_KEYDEL of the key in use
  · intro s r d hserves htx
    have htx' : (s.beginDesc r 0x0703 d).get Reg.FEN_STAT_KEYTX = d.p0 := htx
    rw [exec_of_served rfl hserves]
    simp only [if_pos htx', refuse_finish]

end Sys2Proof.Machine
end

section
/-! ## The rack group (R400 to R415) -/
namespace Sys2Proof.Machine

/-- The slugs of an outcome. -/
def slugsKept : Out State → Nat
  | .next s => s.col.slugs.length
  | _ => 0

/-- A module whose grid breach, with the proof of cycle 7 behind it, is open since time 0. -/
def breached : State :=
  { State.reset with chs := { State.reset.chs with rmp := { State.reset.chs.rmp with brAt := some 0, brProof := some (7, 2) } } }

/-- The end of a breach that a proof stands behind is written in two slugs, and the raise in a third. -/
theorem breachEnd_slugs : slugsKept (exec .breachEnd breached) = 3 := by decide +kernel

/-- Refutes O44: its clause on the end of a breach leaves out the slug of the proof behind it, and the model writes it. -/
theorem not_groupCommands : ¬ Obligations.GroupCommands := by
  unfold Obligations.GroupCommands
  rintro ⟨-, -, -, -, -, -, -, -, -, -, -, -, -, -, -, -, -, -, -, hend, -⟩
  have hslugs := breachEnd_slugs
  rw [hend breached 0 rfl] at hslugs
  exact absurd hslugs (by decide +kernel)

end Sys2Proof.Machine
end

section
/-! ## The storage rings (R422 to R442) -/
namespace Sys2Proof.Machine

/-- Whether storage ring 0 is mastered after an outcome. -/
def mastersRing0 : Out State → Bool
  | .next s => s.masters 0
  | _ => false

/-- Seat 0 without the token, that masters storage ring 0 while its peer says that it holds the token. -/
def peerHolds : State :=
  ({ State.reset with ros := { State.reset.ros with hb := some { token := true } } } : State).putBit Reg.BUP_STAT_MASTER 0 true

/-- A SNAP of the other seat. -/
def snapOfPeer : List Byte := bupFrame 2 0 1 (zeros 6) []

theorem snapOfPeer_parts : bupParts snapOfPeer 2 0 1 (zeros 6) [] := by decide +kernel

/-- A frame of the seat that holds the token ends the mastery of the other one. -/
theorem snap_yields : mastersRing0 (exec (.snap 0 0 snapOfPeer) peerHolds) = false := by decide +kernel

/-- Refutes O45: its clause on SNAP leaves out that a frame of the peer ends the seat's mastery of the ring, and the model has it. -/
theorem not_ringCommands : ¬ Obligations.RingCommands := by
  unfold Obligations.RingCommands
  rintro ⟨-, -, -, -, hsnap, -⟩
  have hyields := snap_yields
  rw [hsnap peerHolds 0 0 0 1 _ _ _ snapOfPeer_parts (by decide +kernel) (by decide +kernel) (by decide +kernel) (by decide +kernel)
    rfl] at hyields
  exact absurd hyields (by decide +kernel)

end Sys2Proof.Machine
end

section
/-! ## The cells (R448, R456 to R465) -/
namespace Sys2Proof.Machine

/-- One string's part of the tick: its reported charge follows the estimate (R457). -/
def State.slewOne (s : State) (k : Nat) : State :=
  if !(s.strX k).on then s
  else (s.strMod k fun x => { x with rep := slewTo (s.get Reg.BUP_EST_CTL_SLEW) x.rep x.soc }).strRegs k

/-- The tick leaves strings without an estimate alone. -/
theorem slewOne_off {s : State} (ks : List Nat) (h : ks.all (fun k => !(s.strX k).on) = true) : ks.foldl State.slewOne s = s := by
  induction ks with
  | nil => rfl
  | cons k ks ih =>
    rw [List.all_cons, Bool.and_eq_true] at h
    rw [List.foldl_cons, State.slewOne, if_pos h.1]
    exact ih h.2

/-- The tick's count, and the raw entries of every hundredth one (R465). -/
def State.slewCount (s : State) : State :=
  let v : State := { s with bup := { s.bup with tick := (s.bup.tick + 1) % 100 } }
  if (s.bup.tick + 1) % 100 = 0 then v.rawEntries else v

theorem exec_socSlewTick (s : State) : exec .socSlewTick s = .next (((List.range 4).foldl State.slewOne s).slewCount) := rfl

theorem strRegs_strX (s : State) (k : Nat) : (s.strRegs k).strX k = s.strX k := rfl

/-- A staged change that also names the bytes it took is answered with both. -/
theorem staged_done_finish (s : State) (n done r op : Nat) (d : Desc) :
    ({ staged s n with done := done } : Reply).finish r op d = s.completeLate r op d 2 done n := rfl

/-- Settles O46: each signal and each command, on the branch that its hypotheses name. -/
theorem cellCommands : Obligations.CellCommands := by
  unfold Obligations.CellCommands
  refine ⟨?_, ?_, ?_, ?_, ?_, ?_, ?_, ?_, ?_, ?_, ?_, ?_, ?_, ?_⟩
  -- no rest is due
  · intro s hnone
    change execRestDue s = _
    simp only [execRestDue, hnone]
  -- a rest begins
  · intro s k hdue hfit
    change execRestDue s = _
    simp only [execRestDue, hdue, hfit, ne_eq, not_true_eq_false, if_false]
  -- a rest is put off
  · intro s k hdue hfails hfirst
    have hsoon : ¬ s.time + 300000000000 ≤ s.time := by omega
    change execRestDue s = _
    simp only [execRestDue, hdue, hfirst, Option.getD_none]
    rw [if_pos hfails, if_neg fun h => hsoon h.1]
  -- a rest ends
  · intro s k hrest
    change execRestEnd .. = _
    simp only [execRestEnd, State.restEnd, if_pos hrest]
  · intro s k hrest
    change execRestEnd .. = _
    simp only [execRestEnd, State.restEnd, hrest, strRegs_strX, ne_eq, not_true_eq_false, if_false] <;> rfl
  -- the drift alarm
  · intro s k hthr htime hon hfar
    change execDriftAlarm .. = _
    simp only [execDriftAlarm]
    rw [if_pos ⟨hthr, htime, hon, hfar⟩]
  · intro s k hoff
    have hnot : ¬ (s.get Reg.BUP_EST_DRIFT_DTHR ≠ 0 ∧ s.get Reg.BUP_EST_DRIFT_DTIME ≠ 0 ∧ (s.strX k).on = true ∧
        s.get Reg.BUP_EST_DRIFT_DTHR * 10000 < ((s.strX k).soc - s.zcc k).natAbs) := by
      rintro ⟨hthr, -, hon, -⟩
      rcases hoff with h | h
      · exact hthr h
      · simp [h] at hon
    change execDriftAlarm .. = _
    simp only [execDriftAlarm]
    rw [if_neg hnot]
  -- the reported charge follows
  · intro s hoff htick
    have hsame : (List.range 4).foldl State.slewOne s = s := slewOne_off _ hoff
    have hsmall : (s.bup.tick + 1) % 100 = s.bup.tick + 1 := Nat.mod_eq_of_lt (by omega)
    rw [exec_socSlewTick, hsame, State.slewCount]
    simp only [hsmall]
    rw [if_neg (by omega)]
  · exact exec_socSlewTick
  -- a cell that is stale
  · intro s k i hnone
    change execCellStale .. = _
    simp [execCellStale, hnone]
  · intro s k i c hsome hon hzero hyoung
    change execCellStale .. = _
    simp [execCellStale, hsome, hon, hzero, hyoung]
  -- EST_TABLE
  · intro s r d u b p hserves hkind hgood
    have hgood' : ¬ (!(socOf (bufBytes d)).isSome) = true := by rw [show (socOf (bufBytes d)).isSome = true from hgood]; decide
    rw [exec_of_served rfl hserves]
    simp only [hkind, if_true, if_neg hgood', Nat.zero_add, staged_done_finish, u, b, p]
  · intro s r d hserves hkind hbad
    rw [exec_of_served rfl hserves]
    simp only [hkind, if_true, hbad, Option.isSome_none, Bool.not_false, refuse_finish]
  -- REST_NOW
  · intro s r d hserves
    rw [exec_of_served rfl hserves]
    simp only [ok_finish]

end Sys2Proof.Machine
end

section
/-! ## The frames of the peer over Roscor (R490 to R509) -/
namespace Sys2Proof.Machine

/-! ### A proving run goes on through raises, completions and levels -/

theorem rosOut_prove (s : State) (type : Nat) (p : List Byte) : (s.rosOut type p).ros.prove = s.ros.prove := by
  unfold State.rosOut
  split
  · rfl
  · simp

theorem halt_prove (s : State) (n : Nat) : (s.halt n).ros.prove = s.ros.prove := by
  unfold State.halt
  simp only [apply_ite State.ros, apply_ite Ros.prove, rosOut_prove]
  simp

theorem raise_prove (s : State) (n esc param : Nat) (inj : Bool) : (s.raise n esc param inj).ros.prove = s.ros.prove := by
  unfold State.raise
  simp only [apply_ite State.ros, apply_ite Ros.prove, halt_prove]
  simp

theorem level_prove (s : State) (n esc param : Nat) (present : Bool) : (s.level n esc param present).ros.prove = s.ros.prove := by
  unfold State.level State.levelOn
  simp only [apply_ite State.ros, apply_ite Ros.prove, raise_prove]
  simp

theorem completeNow_prove (s : State) (r op : Nat) (d : Desc) (status done result : Nat) :
    (s.completeNow r op d status done result).ros.prove = s.ros.prove := by
  unfold State.completeNow
  dsimp only
  split
  · rfl
  · split
    · rw [rosOut_prove]
      rfl
    · split
      · rfl
      · simp

theorem dropBadOps_prove (s : State) (r n : Nat) : (s.dropBadOps r n).ros.prove = s.ros.prove := by
  induction n generalizing s with
  | zero => rfl
  | succ n ih =>
    unfold State.dropBadOps
    dsimp only
    split
    · rfl
    · split
      · rw [ih, completeNow_prove]
        rfl
      · split
        · rfl
        · rw [ih, completeNow_prove]
          rfl
      · rfl

theorem ringGoes_prove (s : State) (r : Nat) : (s.ringGoes r).ros.prove = s.ros.prove := by
  unfold State.ringGoes
  simp only [apply_ite State.ros, apply_ite Ros.prove]
  simp [dropBadOps_prove]

theorem fencesOver_prove (s : State) (n : Nat) : (s.fencesOver n).ros.prove = s.ros.prove := by
  induction n generalizing s with
  | zero => rfl
  | succ n ih =>
    unfold State.fencesOver
    split
    · rfl
    · rw [ih, ringGoes_prove]
      simp

theorem peerReady_prove (s : State) (b : Bool) : (s.peerReady b).ros.prove = s.ros.prove := by
  unfold State.peerReady State.releaseHold
  dsimp only
  split
  · simp
  · rw [fencesOver_prove, foldl_keeps (fun s : State => s.ros.prove) _ _ _ fun s h => ringGoes_prove s _,
      foldl_keeps (fun s : State => s.ros.prove) _ _ _ fun s h => by simp [State.holdDone]]
    simp

theorem seatJudge_prove (s : State) (same : Bool) : (s.seatJudge same).ros.prove = s.ros.prove := by
  unfold State.seatJudge
  dsimp only
  rw [level_prove]
  split <;> simp [State.rosMod]

theorem seatLock_prove (s : State) (pnum ta rx : Nat) : (s.seatLock pnum ta rx).ros.prove = s.ros.prove := by
  unfold State.seatLock
  dsimp only
  simp [apply_ite State.ros, State.rosMod]

/-! ### What the link lets through -/

section Link
variable {s : State} {f : State → State}

theorem rosFrame_down (h : s.get Reg.ROS_STAT_UP = 0) (good : Bool) : s.rosFrame good f = s := by
  have hon : s.on Reg.ROS_STAT_UP = false := by simp [State.on, h]
  simp [State.rosFrame, hon]

theorem rosFrame_good (h : s.on Reg.ROS_STAT_UP = true) : s.rosFrame true f = f s := by simp [State.rosFrame, h]

theorem rosFrame_bad (h : s.on Reg.ROS_STAT_UP = true) (hfew : s.ros.bad ≠ 7) :
    s.rosFrame false f = (s.bump Reg.ROS_CRC).rosMod fun r => { r with bad := r.bad + 1 } := by
  have hnot : ¬ ((s.bump Reg.ROS_CRC).rosMod fun r => { r with bad := r.bad + 1 }).ros.bad = 8 := by
    show ¬ s.ros.bad + 1 = 8
    omega
  unfold State.rosFrame
  rw [h]
  simp only [Bool.not_true, Bool.false_eq_true, if_false, if_neg hnot]

theorem rosFrame_fall (h : s.on Reg.ROS_STAT_UP = true) (hlast : s.ros.bad = 7) :
    s.rosFrame false f = ((s.bump Reg.ROS_CRC).rosMod fun r => { r with bad := r.bad + 1 }).roscorFall := by
  have height : ((s.bump Reg.ROS_CRC).rosMod fun r => { r with bad := r.bad + 1 }).ros.bad = 8 := by
    show s.ros.bad + 1 = 8
    omega
  unfold State.rosFrame
  rw [h]
  simp only [Bool.not_true, Bool.false_eq_true, if_false, if_pos height]

end Link

/-! ### Heartbeats (R490, R496) -/

/-- The peer of a heartbeat (R490). -/
def State.peerOf (s : State) (fl : Nat) (p : List Byte) : PeerHb :=
  { token := bit fl 2, stage := rd p 8 1, flags := rd p 9 1, epoch := rd p 10 2, chg := rd p 12 4, lastCp := rd p 16 8,
    sameSeat := decide (fl % 2 = s.get Reg.GLB_SEAT_SEAT) }

/-- The state that has noted its peer's heartbeat. -/
def State.peerNoted (s : State) (h : PeerHb) : State :=
  (((s.seatJudge h.sameSeat).rosMod fun r => { r with hb := some h, got := true }).peerReady (bit h.flags 0)).set Reg.ROS_STAT_PSTAGE h.stage

/-- The peer that has imposed the last change lags no longer. -/
def State.lagEnds (s : State) (chg : Nat) : State :=
  if s.on Reg.ROS_STAT_CFGLAG && chg == s.ros.imposed then s.set Reg.ROS_STAT_CFGLAG 0 else s

theorem peerNoted_prove (s : State) (h : PeerHb) : (s.peerNoted h).ros.prove = s.ros.prove := by
  show (State.peerReady _ _).ros.prove = _
  rw [peerReady_prove]
  exact seatJudge_prove s h.sameSeat

theorem lagEnds_prove (s : State) (chg : Nat) : (s.lagEnds chg).ros.prove = s.ros.prove := by
  unfold State.lagEnds
  split <;> rfl

/-- A standby follows the beat of the holder (R496). -/
def State.beatLocked (s : State) (fl n rx : Nat) (p : List Byte) : State :=
  if s.standby && bit fl 2 then s.seatLock n (rd p 0 8) rx else s

theorem beatLocked_prove (s : State) (fl n rx : Nat) (p : List Byte) : (s.beatLocked fl n rx p).ros.prove = s.ros.prove := by
  unfold State.beatLocked
  split
  · exact seatLock_prove _ _ _ _
  · rfl

/-- The prover returns the token when its peer proves no more (R511). -/
def State.proofSeen (s : State) (peerFlags : Nat) : State :=
  match s.ros.prove with
  | some v => if v.prover && !bit peerFlags 6 && decide (v.start + 3 * s.periodNs < s.time) then s.proveReturn else s
  | none => s

theorem proofSeen_none {s : State} (h : s.ros.prove = none) (peerFlags : Nat) : s.proofSeen peerFlags = s := by
  simp [State.proofSeen, h]

/-- Without a proving run, a heartbeat of an eligible peer is noted, and that of the holder aligns a standby. -/
theorem hbIn_of_elig {s : State} {fl n rx : Nat} {p : List Byte} (helig : bit fl 1 = true) (hprove : s.ros.prove = none) :
    s.hbIn fl n p rx = ((s.peerNoted (s.peerOf fl p)).beatLocked fl n rx p).lagEnds (rd p 12 4) := by
  have hsteps : s.hbIn fl n p rx = if !bit fl 1 then s else
      (((s.peerNoted (s.peerOf fl p)).beatLocked fl n rx p).lagEnds (rd p 12 4)).proofSeen (rd p 9 1) := rfl
  rw [hsteps, if_neg (by rw [helig]; decide)]
  exact proofSeen_none (by rw [lagEnds_prove, beatLocked_prove, peerNoted_prove, hprove]) _

theorem hbIn_of_inelig {s : State} {fl n rx : Nat} {p : List Byte} (h : bit fl 1 = false) : s.hbIn fl n p rx = s := by
  simp [State.hbIn, h]

/-! ### Checkpoints, handovers, cycles and bulk -/

section Frames
variable {s : State} {fl n cy : Nat} {p b : List Byte}

theorem stateIn_of_inelig (h : bit fl 1 = false) : s.stateIn fl p cy = s := by simp [State.stateIn, h]

theorem lateCopy_kept (h : s.chs.gap = false ∨ 320 < cy ∨ n ≤ s.get Reg.ROS_LASTCP) : s.lateCopy n p cy = s := by
  unfold State.lateCopy
  rw [if_neg]
  simp only [Bool.and_eq_true, decide_eq_true_eq]
  rintro ⟨⟨-, hgap⟩, hcy, -, hnew⟩
  rcases h with h | h | h
  · simp [h] at hgap
  · omega
  · omega

/-- The bytes of a bulk transfer before its frame: none when no transfer is in progress. -/
theorem bulkIn_of_standby (hstby : s.standby = true) (h : s.ros.bulk = none) :
    s.bulkIn p = if bit (rd p 1 1) 0 then (s.rosMod fun r => { r with bulk := none }).bulkDone (rd p 0 1) (p.drop 2)
      else s.rosMod fun r => { r with bulk := some (rd p 0 1, p.drop 2) } := by
  simp [State.bulkIn, hstby, h]

theorem bulkIn_goes_on (hstby : s.standby = true) (h : s.ros.bulk = some (rd p 0 1, b)) :
    s.bulkIn p = if bit (rd p 1 1) 0 then (s.rosMod fun r => { r with bulk := none }).bulkDone (rd p 0 1) (b ++ p.drop 2)
      else s.rosMod fun r => { r with bulk := some (rd p 0 1, b ++ p.drop 2) } := by
  simp [State.bulkIn, hstby, h]

theorem bulkIn_other (hstby : s.standby = false) (hkind : s.token = false ∨ rd p 0 1 ≠ 5) (hpush : rd p 0 1 ≠ 6) : s.bulkIn p = s := by
  rcases hkind with h | h <;> simp [State.bulkIn, hstby, hpush, h]

end Frames

/-- Settles O47: each frame, good or bad, on the branch that its hypotheses name. -/
theorem peerFrames : Obligations.PeerFrames := by
  unfold Obligations.PeerFrames
  refine ⟨?_, ?_, ?_, ?_, ?_, ?_, ?_, ?_, ?_, ?_, ?_, ?_, ?_, ?_, ?_, ?_, ?_, ?_, ?_, ?_, ?_, ?_, ?_, ?_, ?_, ?_⟩
  -- the link is down
  · intro s g fl sq n cy p d c hdown
    refine ⟨?_, ?_, ?_, ?_, ?_, ?_, ?_, ?_⟩ <;> exact congrArg Host.Outcome.next (rosFrame_down hdown g)
  -- a bad frame
  · intro s fl sq n cy p d c u hup hfew
    refine ⟨?_, ?_, ?_, ?_, ?_, ?_, ?_, ?_⟩ <;> exact congrArg Host.Outcome.next (rosFrame_bad hup hfew)
  -- the eighth bad frame
  · intro s fl sq n cy p d c u hup hlast
    refine ⟨?_, ?_, ?_, ?_, ?_, ?_, ?_, ?_⟩ <;> exact congrArg Host.Outcome.next (rosFrame_fall hup hlast)
  -- HB of a seat without the token
  · intro s fl sq n rx p h hup helig htok hprove
    have hplain (u : State) : u.beatLocked fl n rx p = u := by simp [State.beatLocked, htok]
    change execHb true fl sq n p rx s = _
    rw [execHb, rosFrame_good hup, hbIn_of_elig helig hprove, hplain]
    rfl
  -- a peer that is not eligible
  · intro s fl sq n rx p hup hinelig
    exact ⟨congrArg Host.Outcome.next ((rosFrame_good hup).trans (hbIn_of_inelig hinelig)),
      congrArg Host.Outcome.next ((rosFrame_good hup).trans (stateIn_of_inelig hinelig))⟩
  -- HB of the holder
  · intro s fl sq n rx p h judged noted u hup helig htok hstby hprove
    have hpeer : s.peerNoted (s.peerOf fl p) = u := by
      simp only [State.peerNoted, State.peerOf, htok, u, noted, judged, h]
    have hlock : u.beatLocked fl n rx p = u.seatLock n (rd p 0 8) rx := by simp [State.beatLocked, htok, hstby]
    change execHb true fl sq n p rx s = _
    rw [execHb, rosFrame_good hup, hbIn_of_elig helig hprove, hpeer, hlock]
    rfl
  -- STATE at a standby
  · intro s fl sq n cy p hup helig hstby hin
    change execState true fl sq n p cy s = _
    rw [execState, rosFrame_good hup]
    simp [State.stateIn, helig, hstby, Nat.not_lt.mpr hin]
  · intro s fl sq n cy p hup helig hstby hlate
    change execState true fl sq n p cy s = _
    rw [execState, rosFrame_good hup]
    simp [State.stateIn, helig, hstby, hlate]
  -- STATE at a holder
  · intro s fl sq n cy p hup helig hstby htok hgap hin hper hnew
    change execState true fl sq n p cy s = _
    rw [execState, rosFrame_good hup]
    simp [State.stateIn, State.lateCopy, helig, hstby, htok, hgap, hin, hper, hnew]
  · intro s fl sq n cy p hup helig hstby hold
    change execState true fl sq n p cy s = _
    rw [execState, rosFrame_good hup]
    simp [State.stateIn, lateCopy_kept hold, helig, hstby]
  -- TAKEOVER
  · intro s fl sq n p hup hstby hhalt hkind
    change execTakeover true fl sq n p s = _
    rw [execTakeover, rosFrame_good hup]
    simp [State.takeoverIn, hstby, hhalt, hkind]
  · intro s fl sq n p hup hstby hhalt hlo hhi
    have hnot : rd p 0 1 ≠ 1 := by omega
    change execTakeover true fl sq n p s = _
    rw [execTakeover, rosFrame_good hup]
    simp [State.takeoverIn, hstby, hhalt, hnot, hlo, hhi]
  · intro s fl sq n p hup hoff
    change execTakeover true fl sq n p s = _
    rw [execTakeover, rosFrame_good hup]
    rcases hoff with h | h <;> simp [State.takeoverIn, h]
  -- LEAVING
  · exact fun s fl sq n p hup => congrArg Host.Outcome.next (rosFrame_good hup)
  -- frames for a standby alone
  · intro s fl sq n p d c hup hstby hkind hpush
    refine ⟨congrArg Host.Outcome.next ((rosFrame_good hup).trans ?_),
      congrArg Host.Outcome.next ((rosFrame_good hup).trans (bulkIn_other hstby hkind hpush)),
      congrArg Host.Outcome.next ((rosFrame_good hup).trans ?_)⟩
    · simp [State.pcycIn, hstby]
    · simp [State.cfgIn, hstby]
  -- BULK: an image is asked for again
  · intro s fl sq n p hup hstby hkind hnone
    change execBulk true fl sq n p s = _
    rw [execBulk, rosFrame_good hup]
    simp [State.bulkIn, State.pushAgain, hstby, hkind, hnone]
  -- BULK: the bytes of a promotion have come
  · intro s fl sq n p x hup htok hhalted hstby hkind hnone hpromo
    change execBulk true fl sq n p s = _
    rw [execBulk, rosFrame_good hup]
    simp [State.bulkIn, State.trnMod, hstby, htok, hkind, hnone, hpromo]
  -- PCYC, with more to come and whole
  · intro s fl sq n k p es u hup hstby hnone hk hmore
    change execPcyc true fl sq n p s = _
    rw [execPcyc, rosFrame_good hup]
    simp [State.pcycIn, hstby, hnone, ← hk, hmore, u, es]
  · intro s fl sq n k p es u cuts hup hstby hnone hk hwhole
    change execPcyc true fl sq n p s = _
    rw [execPcyc, rosFrame_good hup]
    simp [State.pcycIn, hstby, hnone, ← hk, hwhole, u, es, cuts]
  -- RACK
  · intro s fl sq n p hup htok
    change execRack true fl sq n p s = _
    rw [execRack, rosFrame_good hup]
    simp only [htok, if_true]
  · intro s fl sq n p hup htok
    change execRack true fl sq n p s = _
    rw [execRack, rosFrame_good hup]
    simp only [htok, Bool.false_eq_true, if_false]
  -- CFG
  · intro s fl sq n p d c0 c u u' u'' hup hstby hact
    change execRoscorCfg true fl sq n p c0 d s = _
    rw [execRoscorCfg, rosFrame_good hup]
    simp only [State.cfgIn, hstby, hact, Bool.not_true, Bool.false_eq_true, if_false, u, u', u'', c]
  · intro s fl sq n p d c0 c u u' u'' hup hstby hact
    change execRoscorCfg true fl sq n p c0 d s = _
    rw [execRoscorCfg, rosFrame_good hup]
    simp only [State.cfgIn, hstby, hact, Bool.not_true, Bool.false_eq_true, if_false, if_true, u, u', u'', c]
  -- BULK at a standby
  · intro s fl sq n p hup hstby hnone hlast
    change execBulk true fl sq n p s = _
    rw [execBulk, rosFrame_good hup, bulkIn_of_standby hstby hnone, if_pos hlast]
  · intro s fl sq n p hup hstby hnone hmore
    change execBulk true fl sq n p s = _
    rw [execBulk, rosFrame_good hup, bulkIn_of_standby hstby hnone, if_neg (by simp [hmore])]
  · intro s fl sq n p b hup hstby hbulk hlast
    change execBulk true fl sq n p s = _
    rw [execBulk, rosFrame_good hup, bulkIn_goes_on hstby hbulk, if_pos hlast]

end Sys2Proof.Machine
end

section
/-! ## The token, handovers and proving runs (R489, R498 to R512) -/
namespace Sys2Proof.Machine

/-- Whether an outcome's seat returns the token as soon as it may. -/
def returnsToken : Out State → Bool
  | .next s => s.ros.back
  | _ => false

/-- A seat whose handover of kind 5, the return of the token after a proving run, is due while its peer is not ready. -/
def returnDue : State := { State.reset with ros := { State.reset.ros with hand := some { kind := 5, at_ := 0, gives := true } } }

/-- A return that is cancelled is tried again. -/
theorem plannedHandover_retried : returnsToken (exec .plannedHandover returnDue) = true := by decide +kernel

/-- Refutes O48: its clause on a handover that is blocked leaves out that a return is tried again, and the model notes it. -/
theorem not_seatCommands : ¬ Obligations.SeatCommands := by
  unfold Obligations.SeatCommands
  rintro ⟨-, -, -, -, -, -, -, -, -, hblocked, -⟩
  have hretried := plannedHandover_retried
  rw [hblocked returnDue _ rfl (by decide +kernel) (Or.inr rfl) rfl (by decide +kernel)] at hretried
  exact absurd hretried (by decide +kernel)

end Sys2Proof.Machine
end

section
/-! ## Colophon's captures and commits (R517 to R537) -/
namespace Sys2Proof.Machine

/-- The results of the completions that wait for ring 1 after an outcome. -/
def heldResults : Out State → List Nat
  | .next s => (s.ring 1).held.map (·.result)
  | _ => []

/-- SNAP_NOW of trigger 1. -/
def snapNowDesc : Desc := { idx := 0, tag := 0, flags := 0, rsv := 0, addr := 0, len := 0, p0 := 1, p1 := 0, p2 := 0, buf := none }

/-- A module that has recorded 2^32 snapshots and fetches a SNAP_NOW of its trigger 1 from ring 0. -/
def manySnapped : State :=
  let s := { State.reset with col := { State.reset.col with triggers := [(1, { kind := 2, en := true, a := 7 })] },
                              hst := { State.reset.hst with linkUp := true, busMaster := true } }
  let s := ((s.set (Reg.HST_RSTAT_EN 0) 1).set (Reg.HST_RCFG_PRIV 0) 3).set (Reg.HST_RCFG_CPLRING 0) 1
  let s := ((s.set Reg.HST_CTL_DMA_EN 1).set Reg.COL_CTL_SNAPMAX 4).set (Reg.COL_SNEXT 4) (2 ^ 32)
  s.ringMod 0 fun x => { x with fetched := [(0x0A03, snapNowDesc)] }

/-- The result of a completion is a word of 32 bits, and the sequence of a snapshot is not. -/
theorem snapNow_result : heldResults (exec (.snapNow 0 snapNowDesc) manySnapped) = [0] := by decide +kernel

/-- Refutes O49: its clause on SNAP_NOW answers the whole sequence of the snapshot, and the model its low 32 bits. -/
theorem not_colophonCommands : ¬ Obligations.ColophonCommands := by
  unfold Obligations.ColophonCommands
  rintro ⟨-, -, -, -, -, -, -, -, -, -, -, -, -, -, -, -, -, -, -, -, -, hsnap, -⟩
  have hresult := snapNow_result
  rw [hsnap manySnapped 0 1 snapNowDesc _ (by decide +kernel) (by decide +kernel) rfl (by decide +kernel) (by decide +kernel)
    (by decide +kernel) (by decide +kernel)] at hresult
  exact absurd hresult (by decide +kernel)

end Sys2Proof.Machine
end

section
/-! ## Performance counters and repairs (R567 to R583) -/
namespace Sys2Proof.Machine

/-- A command that is not answered yet leaves its state as it is. -/
theorem unanswered_finish (s : State) (r op : Nat) (d : Desc) : ({ s := s, status := none } : Reply).finish r op d = s := rfl

/-- Settles O50: each command and each signal, on the branch that its hypotheses name. -/
theorem repairCommands : Obligations.RepairCommands := by
  unfold Obligations.RepairCommands
  refine ⟨?_, ?_, ?_, ?_, ?_, ?_, ?_, ?_, ?_, ?_, ?_, ?_, ?_, ?_, ?_, ?_, ?_⟩
  -- PRF_SNAPSHOT and PRF_ZERO wait for the end of the period
  · intro s r d hserves
    rw [exec_of_served rfl hserves]
    simp only [unanswered_finish]
  · intro s r d hserves
    rw [exec_of_served rfl hserves]
    simp only [unanswered_finish]
  -- REPAIR that is refused
  · intro s r d hserves hbusy
    have hbusy' : (s.beginDesc r 0x0D01 d).repairBusy = true := hbusy
    rw [exec_of_served rfl hserves]
    simp only [hbusy', if_true, bad_finish]
  · intro s r d u hserves hfree hout
    rw [exec_of_served rfl hserves]
    simp only [hfree, Bool.false_eq_true, if_false, if_pos hout, refuse_finish, u]
  · intro s r d u hserves hfree hlow
    have hnot3 : ¬ ((s.beginDesc r 0x0D01 d).unit d.p0 d.p1).st = 3 := by omega
    have hnot2 : ((s.beginDesc r 0x0D01 d).unit d.p0 d.p1).st ≠ 2 := by omega
    rw [exec_of_served rfl hserves]
    simp only [hfree, Bool.false_eq_true, if_false, if_neg hnot3, if_pos hnot2, refuse_finish, u]
  -- REPAIR of an isolated unit
  · intro s r d u hserves hfree hiso hkind htest
    rw [exec_of_served rfl hserves]
    simp [hfree, hiso, hkind, htest, unanswered_finish, u]
  · intro s r d u hserves hfree hiso hinj hkind hskip
    rw [exec_of_served rfl hserves]
    simp [hfree, hiso, hinj, hkind, hskip, unanswered_finish, u]
  · intro s r d u hserves hfree hiso hkind
    rw [hkind] at hiso
    rw [exec_of_served rfl hserves]
    simp [hfree, hiso, hkind, unanswered_finish, u]
  -- the end of a repair's test
  · intro s b us hnone
    change execRepairTestDone b us s = _
    simp only [execRepairTestDone, State.repairTest, hnone]
  · intro s us p hrepair hkind hleft hbroken
    change execRepairTestDone true us s = _
    simp [execRepairTestDone, State.repairTest, State.repairPass, hrepair, hkind, hleft, hbroken]
  · intro s us p u hrepair hkind hleft
    change execRepairTestDone false us s = _
    simp [execRepairTestDone, State.repairTest, State.repairEnd, hrepair, hkind, hleft, u]
  · intro s us p hrepair hkind
    change execRepairTestDone true us s = _ ∧ execRepairTestDone false us s = _
    simp [execRepairTestDone, State.repairTest, hrepair, hkind]
  -- SPARE_RETIRE
  · intro s r d u hserves hnone
    rw [exec_of_served rfl hserves]
    simp only [u] at hnone
    simp only [hnone, refuse_finish, u]
  · intro s r d u hserves hspare hst
    obtain ⟨w, hw⟩ := Option.isSome_iff_exists.mp hspare
    simp only [u] at hw hst
    rw [exec_of_served rfl hserves]
    simp [hw, hst, u]
  · intro s r d u hserves hspare hst
    obtain ⟨w, hw⟩ := Option.isSome_iff_exists.mp hspare
    simp only [u] at hw hst
    rw [exec_of_served rfl hserves]
    simp [hw, hst, u]
  -- a worn unit
  · intro s k u hnot
    change execWornUnitRetire k u s = _
    rw [execWornUnitRetire, if_pos hnot]
  · intro s k u v hkind hle hlink hphase
    have hmapped : ¬ (k = 2 ∨ 9 < k) := by omega
    change execWornUnitRetire k u s = _
    rw [execWornUnitRetire, if_neg hmapped, State.wornRetire]
    simp only [v]

end Sys2Proof.Machine
end

section
/-! ## Images and the test port (R540 to R559) -/
namespace Sys2Proof.Machine

/-! ### What opening and finishing an image answer (R543 to R546) -/

section Image
variable {s : State} {src : ImgSrc} {t : Nat} {h : List Byte} {sig : Bool} {x : Session}

theorem imgOpen_of_bad_header {v m : Nat} (hbad : s.headerBad h t sig = some (v, m)) :
    s.imgOpen src t h sig = (0x1E, v, s.raise (detN 22 m) 0 0) := by simp only [State.imgOpen, hbad]

theorem imgOpen_of_locked (hgood : s.headerBad h t sig = none) (hlock : Tab.find s.upd.sess t = some x) (hother : x.src ≠ src) :
    s.imgOpen src t h sig = (0x1A, 0, s) := by simp only [State.imgOpen, hgood, hlock, if_neg hother]

/-- A free type gets a new session, and its spare slot the header. -/
theorem imgOpen_of_free (hgood : s.headerBad h t sig = none) (hfree : Tab.find s.upd.sess t = none)
    (hslot : (s.img t (s.spareSlot t)).st ≠ 4) :
    s.imgOpen src t h sig =
      let v := s.updMod fun u => { u with nextSess := s.upd.nextSess + 1 }
      let w := v.imgMod t (s.spareSlot t) fun _ => { st := 1, hdr := h }
      (0, s.upd.nextSess, w.updMod fun u => { u with sess := Tab.put u.sess t { no := s.upd.nextSess, src := src, hdr := h, last := w.time } }) := by
  simp only [State.imgOpen, hgood, hfree, if_neg hslot]

theorem imgFinish_of_whole (hlen : x.body.length = rd x.hdr 28 4) (hsum : sha384 x.body = (x.hdr.drop 88).take 48) (ht : t ≠ 6) :
    s.imgFinish t x = (0, ((s.unlockSlot t 2 x).evt 0xA 0x0B00 (le 1 t ++ le 1 (s.spareSlot t) ++ le 1 x.src.code.1 ++ le 1 0 ++
      le 4 (imgVer x.hdr) ++ le 2 x.src.code.2 ++ zeros 2)).imgPush x) := by
  simp [State.imgFinish, hlen, hsum, ht]

theorem imgFinish_of_short (hlen : x.body.length ≠ rd x.hdr 28 4) :
    s.imgFinish t x = (10, (s.unlockSlot t 0 x).raise (detN 22 1) 0 0) := by
  simp [State.imgFinish, hlen]

end Image

/-! ### The service UART (R557, R558) -/

section Uart
variable {s : State} {m : List Byte} {sig : Bool} {f : State → State}

theorem inFly_out (h : s.stage ≠ 0xE) (f : State → State) : s.inFly f = s := if_neg h

theorem inFly_in (h : s.stage = 0xE) (f : State → State) : s.inFly f = f s := if_pos h

theorem uartIn_of_noise (hmark : rd m 0 1 ≠ 0xA5) : s.uartIn m sig = s := by simp only [State.uartIn, if_pos hmark]

theorem uartIn_of_broken (hmark : rd m 0 1 = 0xA5)
    (hbad : m.length ≠ rd m 2 2 + 8 ∨ 4096 < rd m 2 2 ∨ crc32 (m.take (4 + rd m 2 2)) ≠ rd m (4 + rd m 2 2) 4) :
    s.uartIn m sig = s.uartAnswer (rd m 1 1) 1022 := by
  simp only [State.uartIn, hmark, ne_eq, not_true_eq_false, if_false]
  rw [if_pos hbad]

/-- What a whole message does first, by its command. -/
def State.uartDoes (s : State) (m : List Byte) (sig : Bool) : State :=
  let t := bits (rd m 1 1) 4 4
  let body := (m.drop 4).take (rd m 2 2)
  match rd m 1 1 % 16 with
  | 1 => s.flyOpen t body sig
  | 2 => s.flyWrite t (rd m 2 2) body
  | 3 => s.flyFinish t
  | _ => s.flyAbort t

theorem uartIn_of_whole (hmark : rd m 0 1 = 0xA5) (hlen : m.length = rd m 2 2 + 8) (hsize : rd m 2 2 ≤ 4096)
    (hcrc : crc32 (m.take (4 + rd m 2 2)) = rd m (4 + rd m 2 2) 4)
    (hcmd : rd m 1 1 % 16 = 1 ∨ rd m 1 1 % 16 = 2 ∨ rd m 1 1 % 16 = 3 ∨ rd m 1 1 % 16 = 4) :
    s.uartIn m sig = (s.uartDoes m sig).uartAnswer (rd m 1 1) (s.uartDoes m sig).upd.flyStat := by
  have hwhole : ¬ (m.length ≠ rd m 2 2 + 8 ∨ 4096 < rd m 2 2 ∨ crc32 (m.take (4 + rd m 2 2)) ≠ rd m (4 + rd m 2 2) 4) := by
    rintro (h | h | h)
    · exact h hlen
    · omega
    · exact h hcrc
  simp only [State.uartIn, hmark, ne_eq, not_true_eq_false, if_false]
  rw [if_neg hwhole, State.uartDoes]
  rcases hcmd with h | h | h | h <;> simp only [h]

end Uart

/-- Settles O51: each command, each access of Flyleaf and each message, on the branch that its hypotheses name. -/
theorem imageCommands : Obligations.ImageCommands := by
  unfold Obligations.ImageCommands
  refine ⟨?_, ?_, ?_, ?_, ?_, ?_, ?_, ?_, ?_, ?_, ?_, ?_, ?_, ?_, ?_, ?_, ?_, ?_, ?_, ?_, ?_, ?_, ?_, ?_, ?_, ?_, ?_, ?_, ?_, ?_⟩
  -- IMG_OPEN
  · intro s r v m g d hserves hbad
    rw [exec_of_served rfl hserves]
    simp [imgOpen_of_bad_header hbad]
  · intro s r t g d u v w hserves ht hgood hfree hslot
    subst ht
    have hopen := imgOpen_of_free (src := .ring r) hgood hfree hslot
    simp only [u] at hopen
    rw [exec_of_served rfl hserves]
    simp only [hopen, if_true, answer_finish, u, v, w]
  · intro s r t g d x u hserves ht hgood hlock hother
    subst ht
    rw [exec_of_served rfl hserves]
    simp [imgOpen_of_locked hgood hlock hother, u]
  -- IMG_WRITE
  · intro s r d hserves hexpired
    have hexpired' : (s.beginDesc r 0x0B02 d).upd.expired.contains d.p0 = true := hexpired
    rw [exec_of_served rfl hserves]
    simp only [hexpired', if_true, refuse_finish]
  · intro s r t d x hserves hlive hsess hofs
    have hlive' : (s.beginDesc r 0x0B02 d).upd.expired.contains d.p0 = false := hlive
    have hsess' : (s.beginDesc r 0x0B02 d).session r d.p0 = some (t, x) := hsess
    have htime : ((s.beginDesc r 0x0B02 d).logC (.host r) 2 0 0x0B02 0xA t d.p1 (d.p1 + d.len)).time = (s.beginDesc r 0x0B02 d).time :=
      State.logC_get _ _ _ _ _ _ _ _ _ _ _ rfl
    rw [exec_of_served rfl hserves]
    simp only [hlive', Bool.false_eq_true, if_false, hsess', if_neg (not_not_intro hofs), htime, okN_finish]
  · intro s r t d x hserves hlive hsess hofs
    have hlive' : (s.beginDesc r 0x0B02 d).upd.expired.contains d.p0 = false := hlive
    have hsess' : (s.beginDesc r 0x0B02 d).session r d.p0 = some (t, x) := hsess
    rw [exec_of_served rfl hserves]
    simp only [hlive', Bool.false_eq_true, if_false, hsess', if_pos hofs, bad_finish]
  -- IMG_FINISH and IMG_ABORT without a session
  · intro s r d hserves hlive hnone
    have hlive' : (s.beginDesc r 0x0B03 d).upd.expired.contains d.p0 = false := hlive
    have hnone' : (s.beginDesc r 0x0B03 d).session r d.p0 = none := hnone
    rw [exec_of_served rfl hserves]
    simp only [hlive', Bool.false_eq_true, if_false, hnone', bad_finish]
  · intro s r d hserves hlive hnone
    have hlive' : (s.beginDesc r 0x0B04 d).upd.expired.contains d.p0 = false := hlive
    have hnone' : (s.beginDesc r 0x0B04 d).session r d.p0 = none := hnone
    rw [exec_of_served rfl hserves]
    simp only [hlive', Bool.false_eq_true, if_false, hnone', bad_finish]
  -- IMG_FINISH
  · intro s r t d x u hserves hlive hsess hlen hsum ht
    have hlive' : (s.beginDesc r 0x0B03 d).upd.expired.contains d.p0 = false := hlive
    have hsess' : (s.beginDesc r 0x0B03 d).session r d.p0 = some (t, x) := hsess
    rw [exec_of_served rfl hserves]
    simp only [hlive', Bool.false_eq_true, if_false, hsess', imgFinish_of_whole hlen hsum ht, if_true, ok_finish, u]
  · intro s r t d x u hserves hlive hsess hlen
    have hlive' : (s.beginDesc r 0x0B03 d).upd.expired.contains d.p0 = false := hlive
    have hsess' : (s.beginDesc r 0x0B03 d).session r d.p0 = some (t, x) := hsess
    rw [exec_of_served rfl hserves]
    simp only [hlive', Bool.false_eq_true, if_false, hsess', imgFinish_of_short hlen, OfNat.ofNat_ne_zero, refuse_finish, u]
  -- IMG_ABORT
  · intro s r t d x hserves hlive hsess
    have hlive' : (s.beginDesc r 0x0B04 d).upd.expired.contains d.p0 = false := hlive
    have hsess' : (s.beginDesc r 0x0B04 d).session r d.p0 = some (t, x) := hsess
    rw [exec_of_served rfl hserves]
    simp only [hlive', Bool.false_eq_true, if_false, hsess', ok_finish]
  -- a lock expires
  · intro s t hnone
    change execLockExpired t s = _
    simp only [execLockExpired, State.lockExpire, hnone]
  · intro s t x hsome
    change execLockExpired t s = _
    simp only [execLockExpired, State.lockExpire, hsome]
  -- TAP_UNLOCK
  · intro s r g d u hserves htok
    have htok' : (u.2.set Reg.UPD_NONCE u.1).token = true := by
      rw [State.token, State.on, State.get_set_ne _ _ _ _ (by decide)]
      exact htok
    rw [exec_of_served rfl hserves]
    simp only [u] at htok'
    simp only [htok', if_true, bad_finish, u]
  · intro s r d u hserves htok
    have htok' : (u.2.set Reg.UPD_NONCE u.1).token = false := by
      rw [State.token, State.on, State.get_set_ne _ _ _ _ (by decide)]
      exact htok
    rw [exec_of_served rfl hserves]
    simp only [u] at htok'
    simp [htok', u]
  · intro s r d b u hserves htok hmagic hver hkey hvalid hserial hnonce
    have htok' : (u.2.set Reg.UPD_NONCE u.1).token = false := by
      rw [State.token, State.on, State.get_set_ne _ _ _ _ (by decide)]
      exact htok
    have hserial' : rd b 8 8 = (u.2.set Reg.UPD_NONCE u.1).get Reg.GLB_SERIAL := by
      rw [State.get_set_ne _ _ _ _ (by decide)]
      exact hserial
    have hnonce' : rd b 16 8 = (s.beginDesc r 0x0B08 d).get Reg.UPD_NONCE := hnonce
    have hvalid' : bit ((s.beginDesc r 0x0B08 d).get Reg.UPD_STAT_REVOKED) (rd b 6 1) = false := hvalid
    rw [exec_of_served rfl hserves]
    simp only [u, b] at htok' hserial' hnonce' hvalid' hmagic hver hkey
    simp [htok', hmagic, hver, hkey, hvalid', hserial', hnonce', answer_finish, u]
  -- outside Flyleaf
  · intro s t n w g hout
    refine ⟨?_, ?_, ?_, ?_, ?_, ?_⟩ <;> exact congrArg Host.Outcome.next (inFly_out hout _)
  -- Flyleaf opens an image
  · intro s t v m w g hfly hbad
    change execFlyOpen t w g s = _
    rw [execFlyOpen, inFly_in hfly, State.flyOpen, imgOpen_of_bad_header hbad]
    rfl
  · intro s t w g k no v hfly hgood hfree hslot
    change execFlyOpen t w g s = _
    rw [execFlyOpen, inFly_in hfly, State.flyOpen, imgOpen_of_free hgood hfree hslot]
    rfl
  -- Flyleaf without and with a session
  · intro s t n w hfly hnone
    refine ⟨congrArg Host.Outcome.next ((inFly_in hfly _).trans ?_), congrArg Host.Outcome.next ((inFly_in hfly _).trans ?_),
      congrArg Host.Outcome.next ((inFly_in hfly _).trans ?_)⟩
    · simp only [State.flyWrite, hnone, State.flyDone]
    · simp only [State.flyFinish, hnone, State.flyDone]
    · simp only [State.flyAbort, hnone, State.flyDone]
  · intro s t n w x hfly hsome
    refine ⟨congrArg Host.Outcome.next ((inFly_in hfly _).trans ?_), congrArg Host.Outcome.next ((inFly_in hfly _).trans ?_),
      congrArg Host.Outcome.next ((inFly_in hfly _).trans ?_)⟩
    · simp only [State.flyWrite, hsome, State.flyDone]
    · simp only [State.flyFinish, hsome, State.flyDone]
    · simp only [State.flyAbort, hsome, State.flyDone]
  -- Flyleaf boots
  · intro s hfly hbad
    change execFlyBoot s = _
    rw [execFlyBoot, inFly_in hfly]
    simp only [State.flyBoot, hbad, Bool.not_false, if_true, State.flyDone]
  · intro s ts hfly hts hgood
    subst hts
    change execFlyBoot s = _
    rw [execFlyBoot, inFly_in hfly]
    simp only [State.flyBoot, hgood, Bool.not_true, Bool.false_eq_true, if_false]
  -- the service UART
  · intro s m g hfly hmark
    change execUartMessage m g s = _
    rw [execUartMessage, inFly_in hfly, uartIn_of_noise hmark]
  · intro s m g hfly hpower hmark hbad
    change execUartMessage m g s = _
    rw [execUartMessage, inFly_in hfly, uartIn_of_broken hmark hbad, State.uartAnswer, if_neg (not_not_intro hpower)]
  · intro s m g hfly hpower hmark hbad
    change execUartMessage m g s = _
    rw [execUartMessage, inFly_in hfly, uartIn_of_broken hmark hbad, State.uartAnswer, if_pos hpower]
  · intro s m g n u hfly hmark hn hlen hsize hcrc hcmd
    subst hn
    have hdoes : s.uartDoes m g = u := by simp only [State.uartDoes, hcmd, u]
    change execUartMessage m g s = _
    rw [execUartMessage, inFly_in hfly, uartIn_of_whole hmark hlen hsize hcrc (by omega), hdoes]
  · intro s m g n u hfly hmark hn hlen hsize hcrc hcmd
    subst hn
    have hdoes : s.uartDoes m g = u := by simp only [State.uartDoes, hcmd, u]
    change execUartMessage m g s = _
    rw [execUartMessage, inFly_in hfly, uartIn_of_whole hmark hlen hsize hcrc (by omega), hdoes]
  · intro s m g n u hfly hmark hn hlen hsize hcrc hcmd
    subst hn
    have hdoes : s.uartDoes m g = u := by simp only [State.uartDoes, hcmd, u]
    change execUartMessage m g s = _
    rw [execUartMessage, inFly_in hfly, uartIn_of_whole hmark hlen hsize hcrc (by omega), hdoes]
  · intro s m g n u hfly hmark hn hlen hsize hcrc hcmd
    subst hn
    have hdoes : s.uartDoes m g = u := by simp only [State.uartDoes, hcmd, u]
    change execUartMessage m g s = _
    rw [execUartMessage, inFly_in hfly, uartIn_of_whole hmark hlen hsize hcrc (by omega), hdoes]

end Sys2Proof.Machine
end

section
/-! ## Plans (R547 to R555) -/
namespace Sys2Proof.Machine

/-- An IMGCHECK of the other seat without records. -/
def checkOfPeer : List Byte := bupFrame 8 0 1 [] []

theorem checkOfPeer_parts : bupParts checkOfPeer 8 0 1 [] [] := by decide +kernel

theorem imgcheck_yields : mastersRing0 (exec (.imgcheck 0 0 checkOfPeer) peerHolds) = false := by decide +kernel

/-- Refutes O52: its clause on IMGCHECK leaves out that a frame of the peer ends the seat's mastery of the ring, and the model has it. -/
theorem not_planCommands : ¬ Obligations.PlanCommands := by
  unfold Obligations.PlanCommands
  rintro ⟨-, -, -, -, -, -, -, -, -, -, -, -, -, -, -, -, -, -, -, hcheck, -⟩
  have hyields := imgcheck_yields
  rw [hcheck peerHolds 0 0 0 1 _ _ _ checkOfPeer_parts (by decide +kernel) (by decide)] at hyields
  exact absurd hyields (by decide +kernel)

end Sys2Proof.Machine
end

section
/-! ## The register fields that signals and commands leave alone -/
namespace Sys2Proof.Machine

/-! ### Register frames, step by step -/

section Only
variable {s t u : State} {fs : List Fld}

/-- What changes no register keeps a frame. -/
theorem only_of_regs (h : s.only t fs) (hregs : u.regs = t.regs) : s.only u fs := fun g hc hn => by
  rw [State.get_def, hregs]
  exact h g hc hn

theorem only_ite {c : Prop} [Decidable c] (ht : s.only t fs) (hu : s.only u fs) : s.only (if c then t else u) fs := by
  split
  · exact ht
  · exact hu

theorem only_mono {fs' : List Fld} (h : s.only t fs) (hsub : ∀ k ∈ fs.map (·.key), k ∈ fs'.map (·.key)) : s.only t fs' :=
  fun g hc hn => h g hc fun hm => hn (hsub _ hm)

theorem only_foldl {α : Type} {l : List α} {f : State → α → State} (h : ∀ s a, State.only s (f s a) fs) (s : State) :
    s.only (l.foldl f s) fs := by
  induction l generalizing s with
  | nil => exact State.only_refl s fs
  | cons a l ih => exact State.only_trans s _ _ fs (h s a) (ih _)

theorem set_only {f : Fld} (hf : f.key ∈ fs.map (·.key)) (s : State) (v : Nat) : s.only (s.set f v) fs :=
  State.only_set s s f v fs (State.only_refl s fs) hf

theorem setReady_only {f : Fld} (hf : f.key ∈ fs.map (·.key)) (s : State) (v : Nat) : s.only (s.setReady f v) fs :=
  fun g hc hn => State.setReady_get s f v g hc fun e => hn (e ▸ hf)

/-- A field of a listed key is no other field. -/
theorem key_ne_of_not_mem {g f : Fld} (hn : g.key ∉ fs.map (·.key)) (hf : f.key ∈ fs.map (·.key)) : g.key ≠ f.key :=
  fun e => hn (e ▸ hf)

end Only

/-! ### What keeps every calm field -/

@[simp] theorem updMod_get (s : State) (f : Upd → Upd) (g : Fld) : (s.updMod f).get g = s.get g := rfl
@[simp] theorem colMod_get (s : State) (f : Col → Col) (g : Fld) : (s.colMod f).get g = s.get g := rfl
@[simp] theorem chsMod_get (s : State) (f : Chs → Chs) (g : Fld) : (s.chsMod f).get g = s.get g := rfl
@[simp] theorem phaseMod_get (s : State) (q : Nat) (f : Phase → Phase) (g : Fld) : (s.phaseMod q f).get g = s.get g := rfl
@[simp] theorem linkMod_get (s : State) (l : Nat) (f : Link → Link) (g : Fld) : (s.linkMod l f).get g = s.get g := rfl
@[simp] theorem rosMod_get (s : State) (f : Ros → Ros) (g : Fld) : (s.rosMod f).get g = s.get g := rfl
@[simp] theorem imgMod_get (s : State) (t k : Nat) (f : ImgSlot → ImgSlot) (g : Fld) : (s.imgMod t k f).get g = s.get g := rfl

theorem calm_newBank {store : Nat} (h : store < 5) : calm (Reg.COL_SSTAT_NEWB store) = false := by
  interval_cases store <;> decide

section Quiet
variable {g : Fld} (hg : calm g = true)
include hg

/-! #### Colophon -/

theorem pageCopy_get (s : State) {store : Nat} (h : store < 5) (page first : Nat) (closed : Bool) (body : List Byte) :
    (s.pageCopy store page first closed body).get g = s.get g := by
  simp [State.pageCopy, hg, calm_newBank h]

theorem pageWrite_get (s : State) {store : Nat} (h : store < 5) (page first : Nat) (closed : Bool) (body : List Byte) :
    (s.pageWrite store page first closed body).get g = s.get g := by
  simp [State.pageWrite, pageCopy_get hg _ h]

theorem commitStore_get (s : State) {store : Nat} (h : store < 5) (recs : List (Nat × List Byte)) (stop n : Nat) :
    (s.commitStore store recs stop n).get g = s.get g :=
  foldl_keeps (fun s : State => s.get g) _ _ _ fun s _ => pageWrite_get hg s h _ _ _ _

theorem commitLogs_get (s : State) : s.commitLogs.get g = s.get g := by
  simp only [State.commitLogs]
  rw [commitStore_get hg _ (by decide), commitStore_get hg _ (by decide), commitStore_get hg _ (by decide)]

theorem imageDone_get (s : State) {store : Nat} (h : store < 5) : (s.imageDone store).get g = s.get g :=
  State.get_set_loud _ _ _ _ (calm_newBank h) hg

theorem pagesDone_get (s : State) : s.pagesDone.get g = s.get g := by
  simp only [State.pagesDone, colMod_get]
  rw [imageDone_get hg _ (by decide), State.get_set_loud _ _ _ _ (by decide) hg, State.get_set_loud _ _ _ _ (by decide) hg]
  exact commitLogs_get hg s

theorem writeFails_get (s : State) (n : Nat) : (s.writeFails n).get g = s.get g := by
  induction n generalizing s with
  | zero => rfl
  | succ n ih => rw [State.writeFails, ih, State.raise_get _ _ _ _ _ _ hg, State.bump_get _ _ _ (by decide) hg]

theorem snapLost_get (s : State) : s.snapLost.get g = s.get g := by simp [State.snapLost, hg]

theorem fireDrop_get (s : State) (k : Nat) : (s.fireDrop k).get g = s.get g := by
  rw [State.fireDrop, colMod_get]
  exact State.bump_get _ _ _ (calm_fld _ _ _ _ _ (by omega)) hg

theorem fire_get (s : State) (k c : Nat) (i : Bool) : (s.fire k c i).get g = s.get g := by
  simp only [State.fire, State.get_ite, snapLost_get hg, fireDrop_get hg, colMod_get, ite_self]

theorem snapRecord_get (s : State) (trig cause : Nat) (inj now : Bool) (ws : List (Nat × Bool)) (late : List Nat) :
    (s.snapRecord trig cause inj now ws late).2.get g = s.get g := by
  simp [State.snapRecord, hg]

theorem reportDue_get (s : State) : s.reportDue.get g = s.get g := by
  simp only [State.reportDue, State.reportNow, State.builtIn, State.get_ite]
  rw [State.evtP_get _ _ _ _ _ _ hg, State.slug_get _ _ _ _ _ _ _ _ hg, snapRecord_get hg]
  exact ite_self _

/-! #### Injections -/

theorem withdraw_get (s : State) (x : Injection) (ring : Nat) : (s.withdraw x ring).get g = s.get g := by
  simp only [State.withdraw, State.injEvt]
  rw [State.logC_get _ _ _ _ _ _ _ _ _ _ _ hg, State.evt_get _ _ _ _ _ hg, State.detMod_get _ _ _ _ hg]
  rfl

theorem withdrawAll_get (s : State) (p : Injection → Bool) (ring : Nat) : (s.withdrawAll p ring).get g = s.get g :=
  foldl_keeps (fun s : State => s.get g) _ _ _ fun s x => withdraw_get hg s x ring

theorem lock_get (s : State) (ring : Nat) : (s.lock ring).get g = s.get g := by
  simp only [State.lock]
  rw [State.logC_get _ _ _ _ _ _ _ _ _ _ _ hg, withdrawAll_get hg, State.get_set_loud _ _ _ _ (by decide) hg,
    State.get_set_loud _ _ _ _ (by decide) hg]

/-! #### Roscor and images -/

omit hg in
theorem bulkOut_get (s : State) (kind : Nat) (b : List Byte) : (s.bulkOut kind b).get g = s.get g :=
  foldl_keeps (fun s : State => s.get g) _ _ _ fun s _ => State.rosOut_get s _ _ _

theorem holdDone_get (s : State) (h : ShadowHold) : (s.holdDone h).get g = s.get g := by simp [State.holdDone, hg]

theorem releaseHold_get (s : State) (p : ShadowHold → Bool) : (s.releaseHold p).get g = s.get g := by
  simp only [State.releaseHold]
  rw [State.fencesOver_get _ _ _ hg, foldl_keeps (fun s : State => s.get g) _ _ _ fun s h => State.ringGoes_get s _ _ hg,
    foldl_keeps (fun s : State => s.get g) _ _ _ fun s h => holdDone_get hg s h]
  rfl

omit hg in
theorem unlockSlot_get (s : State) (t st : Nat) (x : Session) : (s.unlockSlot t st x).get g = s.get g := by
  simp only [State.unlockSlot, imgMod_get, State.get_ite, bulkOut_get, rosMod_get, updMod_get, ite_self]

omit hg in
theorem imgPush_get (s : State) (x : Session) : (s.imgPush x).get g = s.get g := by
  simp only [State.imgPush, State.sendBulk, State.get_ite, bulkOut_get, ite_self]

theorem lockExpire_get (s : State) (t : Nat) : (s.lockExpire t).get g = s.get g := by
  unfold State.lockExpire
  split
  · rfl
  · dsimp only
    rw [State.evt_get _ _ _ _ _ hg, State.raise_get _ _ _ _ _ _ hg, updMod_get, unlockSlot_get]

theorem imgOpen_get (s : State) (src : ImgSrc) (t : Nat) (h : List Byte) (sig : Bool) : (s.imgOpen src t h sig).2.2.get g = s.get g := by
  unfold State.imgOpen
  split
  · exact State.raise_get _ _ _ _ _ _ hg
  · dsimp only
    split
    · split <;> rfl
    · split <;> rfl

theorem imgFinish_get (s : State) (t : Nat) (x : Session) : (s.imgFinish t x).2.get g = s.get g := by
  unfold State.imgFinish
  dsimp only
  split
  · rw [State.raise_get _ _ _ _ _ _ hg, unlockSlot_get]
  · split
    · exact unlockSlot_get _ _ _ _
    · rw [imgPush_get, State.evt_get _ _ _ _ _ hg, unlockSlot_get]

theorem planCommit_get (s : State) (o : Origin) : (s.planCommit o).get g = s.get g := by
  unfold State.planCommit
  split
  · rfl
  · dsimp only
    rw [State.planOver, State.changeDone_get _ _ _ _ _ _ hg, State.evt_get _ _ _ _ _ hg, updMod_get,
      State.logC_get _ _ _ _ _ _ _ _ _ _ _ hg]
    exact foldl_keeps (fun s : State => s.get g) _ _ _ fun s t => foldl_keeps (fun s : State => s.get g) _ _ _ fun s k => by
      split <;> rfl

/-! #### Outputs and the meter -/

theorem syncOut_get (s : State) (safe : Bool) : (s.syncOut safe).get g = s.get g := by
  unfold State.syncOut
  split
  · rfl
  · exact foldl_keeps (fun s : State => s.get g) _ _ _ fun s _ => State.emit_get s _ _ hg

theorem dutyOut_get (s : State) (safe : Bool) : (s.dutyOut safe).get g = s.get g := by
  unfold State.dutyOut
  split
  · rfl
  · exact foldl_keeps (fun s : State => s.get g) _ _ _ fun s l => by
      rw [State.count_get _ _ _ _ _ (by decide) _ hg, State.emit_get _ _ _ hg]

theorem safeFirst_get (s : State) : s.safeFirst.get g = s.get g := by
  unfold State.safeFirst
  split
  · exact (dutyOut_get hg _ _).trans (syncOut_get hg _ _)
  · rfl

theorem outputLatch_get (s : State) : s.outputLatch.get g = s.get g := by
  unfold State.outputLatch
  split
  · rfl
  · split
    · exact safeFirst_get hg s
    · split
      · exact dutyOut_get hg s true
      · split
        · simp only [State.get_mk, State.tab_get, chsMod_get]
          rw [foldl_keeps (fun s : State => s.get g) _ _ _ fun s q => by split <;> rfl]
          exact dutyOut_get hg s false
        · rfl

theorem meterDrop_get (s : State) : s.meterDrop.get g = s.get g := State.raise_get _ _ _ _ _ _ hg

theorem meterTake_get (s : State) (f : List Byte) (d : Option Nat) : (s.meterTake f d).get g = s.get g := by
  unfold State.meterTake
  rw [State.get_ite, State.levelOff_get _ _ _ hg]
  exact ite_self _

theorem meterFrame_get (s : State) (f : List Byte) : (s.meterFrame f).get g = s.get g := by
  unfold State.meterFrame
  split
  · rfl
  · split
    · exact meterDrop_get hg s
    · split
      · exact meterTake_get hg _ _ _
      · dsimp only
        split
        · exact meterTake_get hg _ _ _
        · exact meterDrop_get hg s

omit hg in
theorem retrain_get (s : State) (l : Nat) : (s.retrain l).get g = s.get g := by
  simp only [State.retrain, State.get_ite, State.linkTrain, linkMod_get, ite_self]

end Quiet

/-! ### What changes the listed fields alone -/

section Listed
variable {s t : State} {fs : List Fld}

theorem only_of_quiet (h : ∀ g, calm g = true → t.get g = s.get g) : s.only t fs := fun g hc _ => h g hc

theorem hostWrite_only {f : State → State} (hearly : Reg.GLB_EARLYWR.key ∈ fs.map (·.key)) (h : s.only (f s) fs) :
    s.only (s.hostWrite f) fs := by
  unfold State.hostWrite
  exact only_ite (State.only_refl _ _) (only_ite (set_only hearly _ _) h)

theorem vrsv_only (hv : Reg.GLB_VRSV_VRSV.key ∈ fs.map (·.key)) (hr : Reg.GLB_BOOTSTAT_RES.key ∈ fs.map (·.key)) (s : State) (v : Nat) :
    s.only (s.vrsv v) fs :=
  State.only_trans _ _ _ _ (set_only hv _ _) (setReady_only hr _ _)

/-- The fields of the link, of which a bad frame may change each. -/
def linkFields : List Fld :=
  [Reg.GLB_BOOTSTAT_ROSCOR, Reg.ROS_CRC, Reg.ROS_STAT_LOCK, Reg.ROS_STAT_PREADY, Reg.ROS_STAT_READY, Reg.ROS_STAT_UP]

theorem peerReady_only (hf : Reg.ROS_STAT_PREADY.key ∈ fs.map (·.key)) (s : State) (b : Bool) : s.only (s.peerReady b) fs := by
  have hset : s.only (s.setB Reg.ROS_STAT_PREADY b) fs := set_only hf _ _
  unfold State.peerReady
  exact only_ite hset (State.only_of_get _ _ _ _ hset fun g hg => releaseHold_get hg _ _)

theorem roscorDown_only (s : State) : s.only s.roscorDown linkFields := by
  have hset : s.only ((s.set Reg.ROS_STAT_UP 0).set Reg.ROS_STAT_READY 0) linkFields :=
    State.only_trans _ _ _ _ (set_only (by decide) _ _) (set_only (by decide) _ _)
  have hready := State.only_trans _ _ _ _ hset (setReady_only (f := Reg.GLB_BOOTSTAT_ROSCOR) (by decide) _ 0)
  have hlevel := State.only_of_get _ _ _ _ hready fun g hg => State.levelOn_get _ (detN 20 0) 0 0 g hg
  exact State.only_trans _ _ _ _ hlevel (peerReady_only (by decide) _ false)

theorem roscorFall_only (s : State) : s.only s.roscorFall linkFields := by
  unfold State.roscorFall
  exact State.only_set _ _ _ _ _ (State.only_of_get _ _ _ _ (roscorDown_only s) fun g _ => rosMod_get _ _ g) (by decide)

theorem rosFrame_only {f : State → State} (h : s.only (f s) linkFields) (good : Bool) : s.only (s.rosFrame good f) linkFields := by
  have hbump : s.only ((s.bump Reg.ROS_CRC).rosMod fun r => { r with bad := r.bad + 1 }) linkFields :=
    only_of_regs (t := s.bump Reg.ROS_CRC) (set_only (by decide) s _) rfl
  unfold State.rosFrame
  split
  · exact State.only_refl _ _
  · split
    · exact h
    · dsimp only
      split
      · exact State.only_trans _ _ _ _ hbump (roscorFall_only _)
      · exact hbump

theorem takeoverIn_regs (s : State) (p : List Byte) : (s.takeoverIn p).regs = s.regs := by
  unfold State.takeoverIn
  dsimp only
  split
  · rfl
  · split
    · rfl
    · split <;> rfl

/-- The fields of the derating envelope. -/
theorem envelope_only (h : ∀ f ∈ [Reg.CHS_RMP_SUP, Reg.CHS_RMP_SDN, Reg.CHS_RMP_PMIN, Reg.CHS_RMP_PMAX], f.key ∈ fs.map (·.key)) (s : State) :
    s.only s.envelope fs := by
  have hset : s.only ((s.set Reg.CHS_RMP_SUP (s.rackShare 0)).set Reg.CHS_RMP_SDN (s.rackShare 1)) fs :=
    State.only_trans _ _ _ _ (set_only (h _ (by simp)) _ _) (set_only (h _ (by simp)) _ _)
  unfold State.envelope
  exact State.only_set _ _ _ _ _ (State.only_set _ _ _ _ _ hset (h _ (by simp))) (h _ (by simp))

theorem putF_only (h : ∀ f ∈ [Reg.CHS_RMP_SUP, Reg.CHS_RMP_SDN, Reg.CHS_RMP_PMIN, Reg.CHS_RMP_PMAX], f.key ∈ fs.map (·.key))
    (hf : Reg.CHS_COOL_STAT_F.key ∈ fs.map (·.key)) (s : State) (f : Nat) : s.only (s.putF f) fs := by
  unfold State.putF
  exact State.only_trans _ _ _ _ (State.only_set _ _ _ _ _ (only_of_regs (State.only_refl s fs) rfl) hf) (envelope_only h _)

theorem coolBits_only (h : ∀ f ∈ [Reg.CHS_COOL_STAT_P0OK, Reg.CHS_COOL_STAT_P1OK, Reg.CHS_COOL_STAT_FLOWOK], f.key ∈ fs.map (·.key)) (s : State) :
    s.only s.coolBits fs :=
  State.only_setB _ _ _ _ _ (State.only_setB _ _ _ _ _ (State.only_setB _ _ _ _ _ (State.only_refl _ _) (h _ (by simp))) (h _ (by simp)))
    (h _ (by simp))

theorem derateStart_only (h : Reg.CHS_COOL_STAT_PLAN.key ∈ fs.map (·.key)) (s : State) : s.only s.derateStart fs := by
  unfold State.derateStart
  exact only_ite (State.only_refl _ _) (State.only_set _ _ _ _ _ (only_of_regs (State.only_refl s fs) rfl) h)

theorem cooling_only (s : State) (i : Nat) (failed : Bool) :
    s.only (s.cooling i failed) [Reg.CHS_COOL_STAT_FLOWOK, Reg.CHS_COOL_STAT_P0OK, Reg.CHS_COOL_STAT_P1OK, Reg.CHS_COOL_STAT_PLAN] := by
  unfold State.cooling
  dsimp only
  split
  · exact State.only_refl _ _
  · refine State.only_of_get _ _ _ _ ?_ fun g hg => State.evt_get _ _ _ _ _ hg
    refine State.only_of_get _ _ _ _ ?_ fun g hg => State.level_get _ _ _ _ _ _ hg
    refine State.only_trans _ _ _ _ ?_ (derateStart_only (by simp) _)
    refine State.only_trans _ _ _ _ ?_ (coolBits_only (by simp) _)
    exact fun _ _ _ => rfl

theorem breachSlug_get {g : Fld} (hg : calm g = true) (s : State) (ranks dur w start n : Nat) (proof : Option (Nat × Nat)) :
    (s.breachSlug ranks dur w start n proof).get g = s.get g := by
  unfold State.breachSlug
  split
  · exact State.slug_get _ _ _ _ _ _ _ _ hg
  · rw [State.slug_get _ _ _ _ _ _ _ _ hg, State.slug_get _ _ _ _ _ _ _ _ hg]

theorem breachEnd_only (s : State) : s.only s.breachEnd [Reg.CHS_RMP_STAT_BREACH] := by
  unfold State.breachEnd
  dsimp only
  split
  · exact State.only_refl _ _
  · refine State.only_of_get _ _ _ _ ?_ fun g _ => chsMod_get _ _ g
    refine State.only_set _ _ _ _ _ (only_of_quiet fun g hg => ?_) (by simp)
    rw [State.raise_get _ _ _ _ _ _ hg, breachSlug_get hg, State.evt_get _ _ _ _ _ hg]

end Listed

/-! ### An injected occurrence that orders nothing -/

theorem raiseMarks_era (s : State) (n esc param : Nat) : (s.raiseMarks n esc param).era = s.era := by
  simp [State.raiseMarks]

theorem slug_era (s : State) (code sub p0 p1 p2 p3 : Nat) : (s.slug code sub p0 p1 p2 p3).era = s.era := by simp

theorem detMod_orders (s : State) (n : Nat) (f : Det → Det) : (s.detMod n f).era.orders = s.era.orders := rfl

theorem raiseEvt_orders (s : State) (n c param : Nat) (inj esc : Bool) : (s.raiseEvt n c param inj esc).era.orders = s.era.orders := by
  obtain ⟨f, -, h | ⟨b, h⟩⟩ := raiseEvt_eq s n c param inj esc
  · rw [h, detMod_orders]
  · rw [h, show ((s.detMod n f).evt 8 0x0900 b).era = (s.detMod n f).era by simp, detMod_orders]

theorem raiseLogged_orders (s : State) (n esc param : Nat) (inj : Bool) :
    (s.raiseLogged n esc param inj).era.orders = s.era.orders := by
  unfold State.raiseLogged
  dsimp only
  rw [slug_era, raiseEvt_orders, detMod_orders, raiseMarks_era]

/-- A raise of class 0 gives no order. -/
theorem raise_orders {s : State} {n esc : Nat} (h : s.classOf n esc = 0) (param : Nat) (inj : Bool) :
    (s.raise n esc param inj).era.orders = s.era.orders := by
  rw [raise_eq]
  simp only [h, OfNat.zero_ne_ofNat, Nat.zero_ne_one, if_false, (raiseReport_keeps _ _ _).2.1]
  exact raiseLogged_orders s n esc param inj

/-- Outside the crossings, the watchdog, the Press and its spines, an injection raises its detector and does nothing else. -/
theorem drive_raises {n : Nat} (h : n / 16 = 0 ∨ 13 ≤ n / 16) (s : State) (unit : Nat) (again : Bool) :
    s.drive n unit again = s.raise n 0 unit true := by
  have hwdog : ¬ n = detN 7 0 := by
    rintro rfl
    revert h
    decide
  have hbar : ¬ n = detN 12 5 := by
    rintro rfl
    revert h
    decide
  unfold State.drive
  dsimp only
  rw [if_neg (by omega), if_neg hwdog, if_neg (by omega), if_neg (by omega), if_neg (by rintro (h' | h'); omega; exact hbar h'),
    if_neg (by omega)]

theorem withdraw_orders (s : State) (x : Injection) (ring : Nat) : (s.withdraw x ring).era.orders = s.era.orders := by
  simp [State.withdraw, State.injEvt, State.detMod]

theorem orders_emptied {s : State} (h : s.era.orders = []) : ({ s with era := { s.era with orders := [] } } : State) = s := by
  rw [← h]

theorem settlePress_idle {s : State} (h : s.era.orders = []) : s.settlePress = s := by
  unfold State.settlePress
  simp only [h, List.filter_nil, sortBy, List.foldl_nil, List.isEmpty_nil, Bool.not_true, Bool.false_eq_true, if_false]
  exact orders_emptied h

theorem settleStage_idle {s : State} (h : s.era.orders = []) : s.settleStage = s := by
  unfold State.settleStage
  simp only [h, List.filter_nil, sortBy, List.foldl_nil, ite_self]
  exact orders_emptied h

/-- Without an order, what follows a command changes no calm field. -/
theorem settle_get {s : State} {g : Fld} (hg : calm g = true) (horders : s.era.orders = []) : s.settle.get g = s.get g := by
  unfold State.settle
  simp only [settlePress_idle horders, settleStage_idle horders, horders, List.foldl_nil, orders_emptied horders]
  rw [reportDue_get hg, State.get_ite, safeFirst_get hg]
  exact ite_self _

theorem occurrence_get {g : Fld} (hg : calm g = true) {s : State} {x : Injection} (hdet : x.det / 16 = 0 ∨ 13 ≤ x.det / 16) (again : Bool) :
    (s.occurrence x again).get g = s.get g := by
  unfold State.occurrence
  dsimp only
  rw [State.get_ite, withdraw_get hg, drive_raises hdet, State.raise_get _ _ _ _ _ _ hg]
  exact ite_self _

theorem occurrence_orders {s : State} {x : Injection} (horders : s.era.orders = []) (hbase : s.baseClass x.det = 0)
    (hdet : x.det / 16 = 0 ∨ 13 ≤ x.det / 16) (again : Bool) : (s.occurrence x again).era.orders = [] := by
  unfold State.occurrence
  dsimp only
  split
  · rw [withdraw_orders, drive_raises hdet, raise_orders (by exact (Nat.max_zero _).trans hbase)]
    exact horders
  · rw [drive_raises hdet, raise_orders (by exact (Nat.max_zero _).trans hbase)]
    exact horders

/-- Settles O10: each signal and each timer sets the listed fields alone, or none. -/
theorem registerFramesOfSignals : Obligations.RegisterFramesOfSignals := by
  unfold Obligations.RegisterFramesOfSignals
  refine ⟨?_, ?_, ?_, ?_, ?_, ?_, ?_, ?_, ?_, ?_, ?_, ?_, ?_, ?_, ?_, ?_, ?_, ?_, ?_, ?_, ?_, ?_, ?_, ?_, ?_, ?_, ?_, ?_, ?_, ?_, ?_,
    ?_, ?_, ?_, ?_, ?_, ?_, ?_⟩
  -- power
  · refine fun s => ⟨_, rfl, ?_⟩
    unfold State.powerOn
    exact only_ite (State.only_refl _ _) (State.only_set _ _ _ _ _ (State.only_set _ _ _ _ _ (State.only_set _ _ _ _ _
      (only_of_regs (State.only_refl s _) rfl) (by simp)) (by simp)) (by simp))
  · refine fun s v => ⟨_, rfl, only_ite ?_ (State.only_refl _ _)⟩
    have hset := State.only_setB s _ Reg.GLB_VRSV_CHARGING (decide (v < 5200)) [Reg.GLB_BOOTSTAT_RES, Reg.GLB_VRSV_CHARGING, Reg.GLB_VRSV_VRSV]
      (vrsv_only (by simp) (by simp) s v) (by simp)
    exact only_ite (State.only_of_get _ _ _ _ hset fun g hg => State.levelOff_get _ _ _ hg) hset
  · refine fun s => ⟨_, rfl, ?_⟩
    have hv : s.only (s.vrsv 2000) [Reg.GLB_BOOTSTAT_RES, Reg.GLB_VRSV_VRSV] := vrsv_only (by simp) (by simp) s 2000
    exact only_ite (only_of_regs hv rfl) hv
  · exact fun s => ⟨_, rfl, fun _ _ _ => rfl⟩
  · exact fun s => ⟨_, rfl, only_ite (State.only_refl _ _) fun _ _ _ => rfl⟩
  -- the meter, the outputs and the test port
  · exact fun s f => ⟨_, rfl, only_of_quiet fun g hg => meterFrame_get hg s f⟩
  · exact fun s => ⟨_, rfl, only_of_quiet fun g hg => outputLatch_get hg s⟩
  · exact fun s => ⟨_, rfl, only_ite (fun _ _ _ => rfl) (State.only_refl _ _)⟩
  · exact fun s => ⟨_, rfl, only_ite (fun _ _ _ => rfl) (State.only_refl _ _)⟩
  · refine fun s tdi => ⟨_, rfl, only_ite ?_ (State.only_refl _ _)⟩
    exact only_of_regs (only_ite (c := s.tdoOn = true) (t := s.emit (.tdo (b2n s.glb.bypass))) (fun _ _ _ => rfl) (State.only_refl _ _)) rfl
  -- straps and cooling
  · refine fun s seat pos idpar => ⟨_, rfl, only_ite (State.only_refl _ _) ?_⟩
    refine State.only_of_get _ _ _ _ (State.only_set _ _ _ _ _ (State.only_set _ _ _ _ _ (State.only_set _ _ _ _ _
      (set_only ?_ s seat) ?_) ?_) ?_) fun g hg => State.raise_get _ _ _ _ _ _ hg
    all_goals simp
  · exact fun s i failed => ⟨_, rfl, cooling_only s i failed⟩
  · refine fun s => ⟨_, rfl, ?_⟩
    split
    · exact State.only_refl _ _
    · have hput (f : Nat) : s.only (s.putF f) [Reg.CHS_COOL_STAT_F, Reg.CHS_COOL_STAT_PLAN, Reg.CHS_RMP_PMAX, Reg.CHS_RMP_PMIN, Reg.CHS_RMP_SDN,
          Reg.CHS_RMP_SUP] := putF_only (by simp) (by simp) s f
      exact only_ite (State.only_set _ _ _ _ _ (State.only_of_get _ _ _ _ (hput _) fun g _ => chsMod_get _ _ g) (by simp)) (hput _)
  -- links and phases
  · exact fun s l => ⟨_, rfl, only_of_quiet fun g hg => retrain_get s l⟩
  · refine fun s hi v => ⟨_, rfl, hostWrite_only (by simp) (only_of_quiet fun g hg => ?_)⟩
    exact State.logC_get _ _ _ _ _ _ _ _ _ _ _ hg
  · refine fun s w v => ⟨_, rfl, hostWrite_only (by simp) (only_foldl (fun s j => ?_) s)⟩
    exact only_ite (only_ite (set_only (by simp) _ _) (set_only (by simp) _ _)) (State.only_refl _ _)
  · exact fun s => ⟨_, rfl, breachEnd_only s⟩
  · refine fun s q => ⟨_, rfl, only_ite (only_ite ?_ (State.only_refl _ _)) (State.only_refl _ _)⟩
    exact State.only_set _ _ _ _ _ (set_only (by simp) _ _) (by simp)
  -- errata
  · exact fun s => ⟨_, rfl, only_of_quiet fun g hg => State.raise_get _ _ _ _ _ _ hg⟩
  · exact fun s rb => ⟨_, rfl, only_of_quiet fun g hg => (State.level_get _ _ _ _ _ _ hg).trans (State.emit_get _ _ _ hg)⟩
  · exact fun s n => ⟨_, rfl, only_of_quiet fun g hg => withdrawAll_get hg _ _ _⟩
  · refine fun s n horders hbase hdet _ => ⟨_, rfl, only_of_quiet fun g hg => ?_⟩
    split
    · rfl
    · rename_i x hx
      obtain rfl : x.det = n := by
        have := List.find?_some hx
        simp only [Bool.and_eq_true, beq_iff_eq] at this
        exact this.1.1.1
      exact (settle_get hg (occurrence_orders horders hbase hdet _)).trans (occurrence_get hg hdet _)
  · exact fun s => ⟨_, rfl, only_ite (only_of_quiet fun g hg => lock_get hg _ _) (State.only_refl _ _)⟩
  -- Colophon
  · exact fun s n => ⟨_, rfl, only_ite (State.only_refl _ _) (only_of_quiet fun g hg => (pagesDone_get hg _).trans (writeFails_get hg _ _))⟩
  · refine fun s us => ⟨_, rfl, only_ite (State.only_refl _ _) (only_of_quiet fun g hg => ?_)⟩
    rw [colMod_get, State.get_mk, State.tab_get, pagesDone_get hg, State.slug_get _ _ _ _ _ _ _ _ hg, pagesDone_get hg]
  · exact fun s k c i => ⟨_, rfl, only_of_quiet fun g hg => fire_get hg _ _ _ _⟩
  · refine fun s => ⟨_, rfl, only_of_quiet fun g hg => ?_⟩
    exact foldl_keeps (fun s : State => s.get g) _ _ _ fun s w => State.completeLate_get _ _ _ _ _ _ _ _ hg
  -- frames of the peer and the link
  · exact fun s good fl sq n p => ⟨_, rfl, rosFrame_only (peerReady_only (by decide) s false) good⟩
  · exact fun s good fl sq n p => ⟨_, rfl, rosFrame_only (only_of_regs (State.only_refl _ _) (takeoverIn_regs s p)) good⟩
  · refine fun s good fl sq n p => ⟨_, rfl, rosFrame_only ?_ good⟩
    exact only_ite (only_of_quiet fun g hg => releaseHold_get hg _ _) (State.only_refl _ _)
  · refine fun s n => ⟨_, rfl, only_ite (State.only_refl _ _) ?_⟩
    exact State.only_of_get _ _ _ _ (State.only_set _ _ _ _ _ (set_only (by simp) _ _) (by simp)) fun g hg => State.levelOff_get _ _ _ hg
  · refine fun s bad => ⟨_, rfl, only_ite (only_of_quiet fun g hg => ?_) (State.only_refl _ _)⟩
    exact foldl_keeps (fun s : State => s.get g) _ _ _ fun s u => State.evt_get _ _ _ _ _ hg
  -- images and plans
  · exact fun s k => ⟨_, rfl, only_of_quiet fun g hg => lockExpire_get hg _ _⟩
  · exact fun s => ⟨_, rfl, only_ite (only_of_quiet fun g hg => planCommit_get hg _ _) (State.only_refl _ _)⟩
  · refine fun s k w sig => ⟨_, rfl, only_ite (only_of_quiet fun g hg => ?_) (State.only_refl _ _)⟩
    exact imgOpen_get hg s .flyleaf k (fit 512 w) sig
  · refine fun s k len w => ⟨_, rfl, only_ite (only_of_regs (State.only_refl _ _) ?_) (State.only_refl _ _)⟩
    show (s.flyWrite k len w).regs = _
    unfold State.flyWrite
    split <;> rfl
  · refine fun s k => ⟨_, rfl, only_ite (only_of_quiet fun g hg => ?_) (State.only_refl _ _)⟩
    show (s.flyFinish k).get g = _
    unfold State.flyFinish
    split
    · rfl
    · exact imgFinish_get hg _ _ _
  · refine fun s k => ⟨_, rfl, only_ite (only_of_quiet fun g hg => ?_) (State.only_refl _ _)⟩
    show (s.flyAbort k).get g = _
    unfold State.flyAbort
    split
    · rfl
    · exact (updMod_get _ _ g).trans (unlockSlot_get s k 0 _)

end Sys2Proof.Machine
end

section
/-! ## The register fields that commands leave alone -/
namespace Sys2Proof.Machine

@[simp] theorem ingMod_get (s : State) (f : Ing → Ing) (g : Fld) : (s.ingMod f).get g = s.get g := rfl
@[simp] theorem trnMod_get (s : State) (f : Trn → Trn) (g : Fld) : (s.trnMod f).get g = s.get g := rfl
@[simp] theorem galMod_get (s : State) (f : Gal → Gal) (g : Fld) : (s.galMod f).get g = s.get g := rfl
@[simp] theorem bringMod_get (s : State) (st : Nat) (f : BRing → BRing) (g : Fld) : (s.bringMod st f).get g = s.get g := rfl
@[simp] theorem strMod_get (s : State) (st : Nat) (f : StrX → StrX) (g : Fld) : (s.strMod st f).get g = s.get g := rfl
@[simp] theorem fenMod_get (s : State) (f : Fen → Fen) (g : Fld) : (s.fenMod f).get g = s.get g := rfl
@[simp] theorem grpMod_get (s : State) (f : Grp → Grp) (g : Fld) : (s.grpMod f).get g = s.get g := rfl
@[simp] theorem unitMod_get (s : State) (k u : Nat) (f : UnitX → UnitX) (g : Fld) : (s.unitMod k u f).get g = s.get g := rfl
@[simp] theorem unitOut_get (s : State) (k u c : Nat) (inj : Bool) (g : Fld) : (s.unitOut k u c inj).get g = s.get g := rfl
@[simp] theorem owAsk_get (s : State) (st set : Nat) (g : Fld) : (s.owAsk st set).get g = s.get g := rfl
@[simp] theorem bupSend_get (s : State) (st port cmd addr fl : Nat) (args recs : List Byte) (g : Fld) :
    (s.bupSend st port cmd addr fl args recs).get g = s.get g := rfl
@[simp] theorem enumSend_get (s : State) (st port n mode : Nat) (g : Fld) : (s.enumSend st port n mode).get g = s.get g := rfl
@[simp] theorem retTone_get (s : State) (st : Nat) (b : Bool) (g : Fld) : (s.retTone st b).get g = s.get g := rfl
@[simp] theorem advance_get (s : State) (slot t pc : Nat) (g : Fld) : (s.advance slot t pc).get g = s.get g := rfl

theorem beginRun_get (s : State) (slot cycle step : Nat) (ing : Inputs) (cmd : Option (Nat × Desc)) (g : Fld) :
    (s.beginRun slot cycle step ing cmd).get g = s.get g := by
  unfold State.beginRun
  split <;> rfl

theorem barRelease_get (s : State) (t level : Nat) (g : Fld) : (s.barRelease t level).get g = s.get g :=
  foldl_keeps (fun s : State => s.get g) _ _ _ fun s r => by
    split
    · split
      · exact foldl_keeps (fun s : State => s.get g) _ _ _ fun _ _ => rfl
      · rfl
    · split <;> rfl

/-! ### A command's frame is its body's -/

section Frame
variable {s : State} {fs : List Fld}

/-- Around its body, a command of a CMD ring changes no calm field (R607). -/
theorem cmd_only {r op : Nat} {d : Desc} {i : CmdInfo} {body : State → Reply} (h : ∀ u : State, u.only (body u).s fs) :
    s.only (s.cmd r op d i body) fs := by
  unfold State.cmd State.cmdOn
  split
  · exact State.only_refl _ _
  · have hbegin : s.only (s.beginDesc r op d) fs := only_of_quiet fun g hg => State.beginDesc_get _ _ _ _ _ hg
    dsimp only
    split
    · exact State.only_of_get _ _ _ _ hbegin fun g hg => Reply.finish_get _ _ _ _ _ hg
    · exact State.only_of_get _ _ _ _ (State.only_trans _ _ _ _ hbegin (h _)) fun g hg => Reply.finish_get _ _ _ _ _ hg

/-- A command whose body changes no calm field changes none. -/
theorem cmd_quiet {r op : Nat} {d : Desc} {i : CmdInfo} {body : State → Reply} (h : ∀ u g, calm g = true → (body u).s.get g = u.get g) :
    s.only (s.cmd r op d i body) [] := cmd_only fun u => only_of_quiet (h u)

end Frame

/-! ### What keeps every calm field -/

section Quiet
variable {g : Fld} (hg : calm g = true)
include hg

theorem countZero_get (s : State) (c : Ctx) {pt : Nat} (h : pt < 6) : (s.countZero c pt).get g = s.get g := by
  unfold State.countZero
  split
  · dsimp only
    rw [State.count_get _ _ _ _ _ h _ hg, State.draw_get _ _ hg]
  · rfl

theorem tagRecord_get (s : State) (c : Ctx) (pt no cyc : Nat) : (s.tagRecord c pt no cyc).get g = s.get g := by
  unfold State.tagRecord
  dsimp only
  rw [foldl_keeps (fun s : State => s.get g) _ _ _ fun s r => State.postEntry_get _ _ _ _ _ _ _ _ _ hg,
    State.bump_get _ _ _ (by decide) hg]
  rfl

theorem tagSort_get (s : State) (c : Ctx) (pt cyc : Nat) : (s.tagSort c pt cyc).get g = s.get g := by
  simp only [State.tagSort, State.get_ite, tagRecord_get hg, State.get_mk, State.tab_get, ite_self]

theorem charge_get (s : State) (c : Ctx) (t cyc : Nat) : (s.charge c t cyc).get g = s.get g := by
  have hpt (u : State) : u.physTb t < 6 := by
    have := physTb_lt u t
    omega
  unfold State.charge
  dsimp only
  rw [tagSort_get hg, countZero_get hg _ _ (hpt _), State.count_get _ _ _ _ _ (hpt _) _ hg, State.count_get _ _ _ _ _ (hpt _) _ hg,
    State.count_get _ _ _ _ _ (hpt _) _ hg]
  split <;> rfl

theorem reserveCheck_get (s : State) (k : Nat) : (s.reserveCheck k).get g = s.get g := by
  unfold State.reserveCheck
  split
  · split
    · rfl
    · rw [State.evt_get _ _ _ _ _ hg]
      rfl
  · rfl

theorem unitOn_get (s : State) (n unit : Nat) : (s.unitOn n unit).get g = s.get g := by
  unfold State.unitOn
  split
  · rw [State.raise_get _ _ _ _ _ _ hg]
    split <;> rfl
  · exact State.levelOn_get _ _ _ _ _ hg

end Quiet

/-! ### What changes the listed fields alone -/

section Listed
variable {fs : List Fld}

theorem offerClose_only (hf : Reg.PRS_TRN_STAT_STATE.key ∈ fs.map (·.key)) (s : State) (reason : Nat) : s.only (s.offerClose reason) fs := by
  unfold State.offerClose
  split
  · exact State.only_refl _ _
  · have hevt (n : Nat) : s.only ((s.trnMod fun x => { x with offer := none }).evt 2 0x0403 (le 4 n ++ le 1 reason ++ zeros 7)) fs :=
      only_of_quiet fun g hg => State.evt_get _ _ _ _ _ hg
    exact only_ite (State.only_set _ _ _ _ _ (hevt _) hf) (hevt _)

theorem planAge_only (s : State) : s.only s.planAge [Reg.PRS_GAL_STAT_PLAN] := by
  unfold State.planAge
  split
  · exact State.only_refl _ _
  · exact only_ite (State.only_set _ _ _ _ _ (fun _ _ _ => rfl) (by simp)) (State.only_refl _ _)

theorem listBack_only (hf : Reg.CHS_STAT_RBK.key ∈ fs.map (·.key)) (s : State) (outcome failure : Nat) :
    s.only (s.listBack outcome failure) fs := by
  unfold State.listBack
  split
  · refine only_ite ?_ (State.only_refl _ _)
    exact State.only_of_get _ _ _ _ (set_only hf s 1) fun _ _ => rfl
  · exact State.only_refl _ _

theorem enumStart_only (s : State) (st : Nat) : s.only (s.enumStart st) [Reg.BUP_RSTAT_NOUT st, Reg.BUP_RSTAT_NRET st] := by
  unfold State.enumStart
  split
  · exact State.only_refl _ _
  · dsimp only
    refine State.only_of_get _ _ _ _ ?_ fun g _ => enumSend_get _ _ _ _ _ g
    refine State.only_set _ _ _ _ _ (State.only_set _ _ _ _ _ ?_ (by simp)) (by simp)
    exact fun _ _ _ => rfl

theorem freeze_get (s : State) (g : Fld) : s.freeze.get g = s.get g := by
  unfold State.freeze
  split <;> rfl

theorem carrierSense_get (s : State) (level : Option Int) (g : Fld) : (s.carrierSense level).get g = s.get g := by
  have hbusy : s.senseBusy.get g = s.get g := (fenMod_get _ _ g).trans (freeze_get s g)
  unfold State.carrierSense
  dsimp only
  split
  · exact hbusy
  · split
    · exact hbusy
    · rfl

/-- The outcome of a frame that is not acknowledged: it is dropped or waits again. -/
def State.ackLost (s : State) : State :=
  match s.fen.flight with
  | none => s
  | some x =>
    let s := s.fenMod fun f => { f with flight := none }
    if s.get Reg.FEN_CTL_RETRY ≤ x.tries then s.bump Reg.FEN_TXDROP
    else
      let cw := min (2 * x.cw) (cwMax x.pri)
      let (n, s) := s.freeze.backoff cw
      (s.bump Reg.FEN_RETRIES).fenMod fun f =>
        { f with queue := { x with tries := x.tries + 1, cw := cw, count := n, since := s.time } :: f.queue }

theorem ackTimeout_only (s : State) : s.only s.ackLost [Reg.FEN_RETRIES, Reg.FEN_TXDROP] := by
  unfold State.ackLost
  split
  · exact State.only_refl _ _
  · refine only_ite (State.only_set _ _ _ _ _ (fun _ _ _ => rfl) (by simp)) ?_
    refine State.only_of_get _ _ _ _ (State.only_set _ _ _ _ _ (only_of_quiet fun g hg => ?_) (by simp)) fun g _ => fenMod_get _ _ g
    exact (State.draw_get _ _ hg).trans (freeze_get _ _)

theorem paceLost_only (s : State) (num cause : Nat) : s.only (s.paceLost num cause) [Reg.FEN_PACEUND, Reg.FEN_PACE_STAT_UNACK] := by
  unfold State.paceLost
  split
  · exact State.only_refl _ _
  · split
    · exact State.only_refl _ _
    · dsimp only
      refine State.only_setB _ _ _ _ _ ?_ (by simp)
      refine State.only_of_get _ _ _ _ ?_ fun g hg => State.slug_get _ _ _ _ _ _ _ _ hg
      exact State.only_set _ _ _ _ _ (fun _ _ _ => rfl) (by simp)

end Listed

/-! ### Sorts that move no data -/

theorem sort_quiet {s : State} {t : Nat} {e : Ctx → State} (h : ∀ c g, calm g = true → (e c).get g = s.get g) :
    s.only (match s.nextSort t with | none => s | some c => e c) [] := by
  split
  · exact State.only_refl _ _
  · exact only_of_quiet fun g hg => h _ g hg

/-- Settles O11: each command and each row sets the listed fields alone, or none. -/
theorem registerFramesOfCommands : Obligations.RegisterFramesOfCommands := by
  unfold Obligations.RegisterFramesOfCommands
  refine ⟨?_, ?_, ?_, ?_, ?_, ?_, ?_, ?_, ?_, ?_, ?_, ?_, ?_, ?_, ?_, ?_, ?_, ?_, ?_, ?_, ?_, ?_, ?_, ?_, ?_, ?_, ?_, ?_, ?_, ?_, ?_,
    ?_, ?_, ?_, ?_, ?_, ?_, ?_, ?_, ?_, ?_, ?_, ?_, ?_, ?_, ?_, ?_, ?_, ?_⟩
  -- rows of the Press
  · exact fun s slot => ⟨_, rfl, fun _ _ _ => rfl⟩
  · exact fun s slot => ⟨_, rfl, only_ite (State.only_refl _ _) fun _ _ _ => rfl⟩
  · exact fun s k => ⟨_, rfl, only_ite (fun _ _ _ => rfl) (State.only_refl _ _)⟩
  · exact fun s k level => ⟨_, rfl, fun g _ _ => barRelease_get s k level g⟩
  · exact fun s k bank => ⟨_, rfl, only_ite (fun _ _ _ => rfl) (State.only_refl _ _)⟩
  · exact fun s => ⟨_, rfl, fun _ _ _ => rfl⟩
  · exact fun s => ⟨_, rfl, planAge_only s⟩
  · exact fun s => ⟨_, rfl, only_ite (State.only_refl _ _) (offerClose_only (by simp) s 2)⟩
  -- TRAIN_REJECT and TRAIN_SETUP
  · refine fun s r d => ⟨_, rfl, cmd_only fun u => ?_⟩
    split
    · exact State.only_refl _ _
    · exact State.only_trans _ _ _ _ (only_of_quiet fun g hg => State.logC_get _ _ _ _ _ _ _ _ _ _ _ hg) (offerClose_only (by simp) _ 1)
  · refine fun s r d => ⟨_, rfl, cmd_quiet fun u g hg => ?_⟩
    dsimp only
    split
    · rfl
    · split
      · rfl
      · exact State.stage1_get _ _ _ _ _ _ _ _ _ _ _ hg
  -- formes
  · refine fun s r d => ⟨_, rfl, cmd_quiet fun u g hg => ?_⟩
    dsimp only
    split
    · rfl
    · exact State.logC_get _ _ _ _ _ _ _ _ _ _ _ hg
  · refine fun s r d => ⟨_, rfl, cmd_quiet fun u g hg => ?_⟩
    dsimp only
    split
    · rfl
    · split
      · rfl
      · split
        · rfl
        · exact State.logC_get _ _ _ _ _ _ _ _ _ _ _ hg
  · exact fun s r d => ⟨_, rfl, cmd_quiet fun u g hg => State.logC_get _ _ _ _ _ _ _ _ _ _ _ hg⟩
  · refine fun s r d => ⟨_, rfl, cmd_quiet fun u g hg => ?_⟩
    dsimp only
    split
    · rfl
    · exact State.stage1_get _ _ _ _ _ _ _ _ _ _ _ hg
  · refine fun s r d => ⟨_, rfl, cmd_quiet fun u g hg => ?_⟩
    dsimp only
    split
    · rfl
    · split
      · rfl
      · split
        · rfl
        · exact (beginRun_get _ _ _ _ _ _ _).trans (State.logC_get _ _ _ _ _ _ _ _ _ _ _ hg)
  -- HIER_SET
  · refine fun s r d => ⟨_, rfl, cmd_only fun u => ?_⟩
    dsimp only
    split
    · exact State.only_refl _ _
    · split
      · exact State.only_refl _ _
      · split
        · exact State.only_refl _ _
        · split
          · exact State.only_refl _ _
          · split
            · refine State.only_set _ _ _ _ _ (only_of_quiet fun g hg => ?_) (by simp)
              exact State.stage1_get _ _ _ _ _ _ _ _ _ _ _ hg
            · exact only_of_quiet fun g hg => State.stage1_get _ _ _ _ _ _ _ _ _ _ _ hg
  -- CHANGE_ABORT
  · refine fun s r d => ⟨_, rfl, cmd_only fun u => ?_⟩
    dsimp only
    split
    · exact State.only_refl _ _
    · have hlog : u.only (u.logC (.host r) 2 0 0x0506 3 d.p0 0 0) [Reg.CHS_STAT_RBK] :=
        only_of_quiet fun g hg => State.logC_get _ _ _ _ _ _ _ _ _ _ _ hg
      split
      · exact State.only_of_get _ _ _ _ hlog fun g hg => (State.changeDone_get _ _ _ _ _ _ hg).trans (chsMod_get _ _ g)
      · exact State.only_trans _ _ _ _ hlog (listBack_only (by simp) _ 2 0xFF)
  -- PHASE_ROLE
  · refine fun s r d => ⟨_, rfl, cmd_quiet fun u g hg => ?_⟩
    dsimp only
    split
    · rfl
    · split
      · rfl
      · exact State.stage1_get _ _ _ _ _ _ _ _ _ _ _ hg
  -- SPARE_RETIRE
  · refine fun s r d => ⟨_, rfl, cmd_quiet fun u g hg => ?_⟩
    dsimp only
    have hlog := State.logC_get u (.host r) 2 0 0x0D02 0xC d.p1 (u.unit d.p0 d.p1).st 3 false g hg
    split
    · rfl
    · split
      · exact (reserveCheck_get hg _ _).trans hlog
      · split <;> exact hlog
  -- rings and cells
  · exact fun s r d => ⟨_, rfl, cmd_quiet fun u g hg => State.logC_get _ _ _ _ _ _ _ _ _ _ _ hg⟩
  · exact fun s r d => ⟨_, rfl, cmd_quiet fun u g hg => State.logC_get _ _ _ _ _ _ _ _ _ _ _ hg⟩
  · refine fun s r d => ⟨_, rfl, cmd_only fun u => ?_⟩
    refine State.only_of_get _ _ _ _ (State.only_set _ _ _ _ _ (only_of_quiet fun g hg => ?_) (by simp)) fun g _ => strMod_get _ _ _ g
    exact State.logC_get _ _ _ _ _ _ _ _ _ _ _ hg
  · exact fun s k => ⟨_, rfl, State.only_set _ _ _ _ _ (fun _ _ _ => rfl) (by simp)⟩
  · refine fun s k => ⟨_, rfl, fun g _ _ => ?_⟩
    have hask : ((s.bring k).suspect.foldl (fun s w => s.owAsk k (2 - w % 32 % 2)) s).get g = s.get g :=
      foldl_keeps (fun s : State => s.get g) _ _ _ fun _ _ => rfl
    dsimp only
    split <;> exact hask
  · exact fun s k => ⟨_, rfl, only_ite (enumStart_only s k) (State.only_refl _ _)⟩
  · refine fun s k => ⟨_, rfl, only_ite (State.only_refl _ _) ?_⟩
    refine State.only_of_get _ _ _ _ ?_ fun g hg => unitOn_get hg _ _ _
    refine State.only_of_get _ _ _ _ ?_ fun g _ => foldl_keeps (fun s : State => s.get g) _ _ _ fun _ _ => rfl
    refine State.only_of_get _ _ _ _ ?_ fun g _ => foldl_keeps (fun s : State => s.get g) _ _ _ fun _ _ => rfl
    exact State.only_set _ _ _ _ _ (State.only_set _ _ _ _ _ (fun _ _ _ => rfl) (by simp)) (by simp)
  -- the carrier
  · refine fun s => ⟨_, rfl, ?_⟩
    split
    · exact State.only_refl _ _
    · exact State.only_of_get _ _ _ _ (set_only (by simp) s _) fun g _ => fenMod_get _ _ g
  · exact fun s level => ⟨_, rfl, fun g _ _ => carrierSense_get s level g⟩
  · exact fun s => ⟨_, rfl, ackTimeout_only s⟩
  · exact fun s num => ⟨_, rfl, paceLost_only s num 4⟩
  · exact fun s r num => ⟨_, rfl, only_ite (paceLost_only s num 2) (State.only_refl _ _)⟩
  -- Colophon
  · refine fun s r d => ⟨_, rfl, cmd_quiet fun u g hg => ?_⟩
    dsimp only
    split
    · rfl
    · exact State.stage1_get _ _ _ _ _ _ _ _ _ _ _ hg
  · exact fun s r d => ⟨_, rfl, cmd_quiet fun u g hg => State.logC_get _ _ _ _ _ _ _ _ _ _ _ hg⟩
  -- images
  · refine fun s r d sig => ⟨_, rfl, cmd_quiet fun u g hg => ?_⟩
    have hopen := imgOpen_get hg u (.ring r) (bits d.p0 0 3) (bufBytes d) sig
    dsimp only
    split
    · exact (State.logC_get _ _ _ _ _ _ _ _ _ _ _ hg).trans hopen
    · split <;> exact hopen
  · refine fun s r d => ⟨_, rfl, cmd_quiet fun u g hg => ?_⟩
    split
    · rfl
    · split
      · rfl
      · split
        · rfl
        · exact State.logC_get _ _ _ _ _ _ _ _ _ _ _ hg
  · refine fun s r d => ⟨_, rfl, cmd_quiet fun u g hg => ?_⟩
    dsimp only
    split
    · rfl
    · split
      · rfl
      · split
        · exact (State.logC_get _ _ _ _ _ _ _ _ _ _ _ hg).trans (imgFinish_get hg _ _ _)
        · exact imgFinish_get hg _ _ _
  · refine fun s r d => ⟨_, rfl, cmd_quiet fun u g hg => ?_⟩
    split
    · rfl
    · split
      · rfl
      · exact (unlockSlot_get _ _ _ _).trans (State.logC_get _ _ _ _ _ _ _ _ _ _ _ hg)
  · refine fun s r d => ⟨_, rfl, cmd_quiet fun u g hg => ?_⟩
    split
    · exact (planCommit_get hg _ _).trans (State.logC_get _ _ _ _ _ _ _ _ _ _ _ hg)
    · rfl
  -- TAP_UNLOCK
  · refine fun s r d sig => ⟨_, rfl, cmd_only fun u => ?_⟩
    have hdraw : u.only (u.draw.2.set Reg.UPD_NONCE u.draw.1) [Reg.UPD_NONCE] :=
      State.only_set _ _ _ _ _ (only_of_quiet fun g hg => State.draw_get _ _ hg) (by simp)
    dsimp only
    split
    · exact hdraw
    · split
      · exact hdraw
      · split
        · exact hdraw
        · split
          · exact hdraw
          · exact fun g hc hn =>
              (State.logC_get _ _ _ _ _ _ _ _ _ _ _ hc).trans ((State.raise_get _ _ _ _ _ _ hc).trans (hdraw g hc hn))
  -- performance counters
  · exact fun s r d => ⟨_, rfl, cmd_quiet fun u g hg => rfl⟩
  · exact fun s r d => ⟨_, rfl, cmd_quiet fun u g hg => State.logC_get _ _ _ _ _ _ _ _ _ _ _ hg⟩
  -- errata
  · exact fun s r d => ⟨_, rfl, cmd_quiet fun u g hg => withdrawAll_get hg _ _ _⟩
  · exact fun s r d => ⟨_, rfl, cmd_quiet fun u g hg => lock_get hg _ _⟩
  · refine fun s r d => ⟨_, rfl, cmd_quiet fun u g hg => ?_⟩
    dsimp only
    generalize (if d.p0 = 1 then u.nv.injKey1 else u.nv.injKey2) = key
    split
    · exact (State.logC_get _ _ _ _ _ _ _ _ _ _ _ hg).trans
        ((State.get_set_loud _ Reg.ERA_STAT_ULEVEL g d.p0 (by decide) hg).trans
          (State.get_set_loud _ Reg.ERA_STAT_UNLOCKED g 1 (by decide) hg))
    · have hraise (rs : List Nat) : (({ u with era := { u.era with refusals := rs } } : State).raise (detN 23 0) 0 d.p0).get g = u.get g :=
        State.raise_get _ _ _ _ _ _ hg
      change (ite _ _ _ : State).get g = u.get g
      split
      · exact (State.levelOn_get _ _ _ _ _ hg).trans
          ((State.get_set_loud _ Reg.ERA_STAT_LOCKOUT g 1 (by decide) hg).trans (hraise _))
      · exact hraise _
  -- FENCE
  · refine fun s r d => ⟨_, rfl, cmd_quiet fun u g hg => ?_⟩
    dsimp only
    split
    · split <;> rfl
    · split <;> rfl
  -- sorts
  · refine fun s k cyc => ⟨_, rfl, sort_quiet fun c g hg => ?_⟩
    split
    · rfl
    · exact (advance_get _ _ _ _ _).trans (charge_get hg _ _ _ _)
  · refine fun s k cyc => ⟨_, rfl, sort_quiet fun c g hg => ?_⟩
    split
    · rfl
    · exact (prsMod_get _ _ _).trans (charge_get hg _ _ _ _)
  · refine fun s k cyc => ⟨_, rfl, sort_quiet fun c g hg => ?_⟩
    split
    · rfl
    · exact (prsMod_get _ _ _).trans (charge_get hg _ _ _ _)
  · refine fun s k cyc => ⟨_, rfl, sort_quiet fun c g hg => ?_⟩
    split
    · rfl
    · dsimp only
      split
      · exact (advance_get _ _ _ _ _).trans (charge_get hg _ _ _ _)
      · exact (prsMod_get _ _ _).trans (charge_get hg _ _ _ _)

end Sys2Proof.Machine
end

end
